-- ==== Sys2Proof/Word.lean ====
section
/-! DEFINITION. The smallest data types of the model: a byte, a machine word held as a natural number, and a
finite table. Widths and wrapping are applied where a register is written (`Machine/Bits.lean`). -/

namespace Sys2Proof

/-- One byte of a structure in memory (R6, R7). -/
abbrev Byte := BitVec 8

/-- A 64-bit word of a command, a register or a structure, as the number its bits spell (R6). -/
abbrev Word := Nat

/-- A 64-byte line as its eight little-endian words (R7, R8). -/
abbrev Line := List Word

/-- A finite table: the listed keys with their values, at most one entry a key. -/
abbrev Tbl (κ α : Type) := List (κ × α)

end Sys2Proof
end

