-- ==== Sys2Proof/Codes.lean ====
section
/-! DEFINITION. The status codes of R500 and the event codes of R505, each a closed inductive with its code. -/

namespace Sys2Proof

/-- The 16-bit statuses (R13, R500): the part returns only these. -/
inductive Status where
  /-- ST_OK (Done): Completed as asked (R13). -/
  | ok
  /-- ST_ATTEND_TAIL_HIGH (Done): τ above `tail_warn` (R171). -/
  | attendTailHigh
  /-- ST_WINDOW_LATE (Done): Some layer late (R242). -/
  | windowLate
  /-- ST_WINDOW_CANCELLED (Done): WINDOW_CANCEL; delivered layers valid (R245). -/
  | windowCancelled
  /-- ST_DELAYED (Deferred): Submission queued (R341). -/
  | delayed
  /-- ST_ADH_ACCEPTED (Deferred): Deferred operation accepted (R397). -/
  | adhAccepted
  /-- ST_RETRY_BLOCK_BUSY (Retry): Block converting or shared (R102). -/
  | retryBlockBusy
  /-- ST_RETRY_LEAP_BUSY (Retry): Leap or recovery running (R131). -/
  | retryLeapBusy
  /-- ST_RETRY_HOME_MOVING (Retry): Takeover pending (R125). -/
  | retryHomeMoving
  /-- ST_RETRY_CONTENDED (Retry): Lost single-winner arbiter (R45). -/
  | retryContended
  /-- ST_RETRY_NO_BUFFER (Retry): No buffer within `rnr_limit` (R310). -/
  | retryNoBuffer
  /-- ST_RETRY_RING_FULL (Retry): Token ring full (R353). -/
  | retryRingFull
  /-- ST_RETRY_MERGE_BUSY (Retry): Merge running (R386). -/
  | retryMergeBusy
  /-- ST_RETRY_ORDER_BUSY (Retry): Earlier order draining (R404). -/
  | retryOrderBusy
  /-- ST_VIOLATION (Refused): Rights check failed (R409). -/
  | violation
  /-- ST_REFUSED_EPOCH_BUSY (Refused): Third live map epoch (R20). -/
  | refusedEpochBusy
  /-- ST_QUEUE_STATE (Refused): Queue not in the state the operation needs (R72). -/
  | queueState
  /-- ST_QUEUE_DESTROYED (Refused): Queue or VI removed (R69). -/
  | queueDestroyed
  /-- ST_CHAIN_ABORTED (Refused): Chain broken (R76). -/
  | chainAborted
  /-- ST_DEADLINE_MISSED (Refused): Not dispatched in time (R76). -/
  | deadlineMissed
  /-- ST_CONTEXT_UNLOADING (Refused): Slot UNLOADING (R80). -/
  | contextUnloading
  /-- ST_ROW_COMMITTED (Refused): Write below committed (R104). -/
  | rowCommitted
  /-- ST_TENTATIVE_LIMIT (Refused): Tail past 64 tokens (R105). -/
  | tentativeLimit
  /-- ST_ROWS_MISSING (Refused): COMMIT over unwritten rows (R106). -/
  | rowsMissing
  /-- ST_BLOCK_OPEN (Refused): Recode of OPEN block (R102). -/
  | blockOpen
  /-- ST_BLOCK_NOT_OWNED (Refused): Other request's block (R98). -/
  | blockNotOwned
  /-- ST_PREFIX_MISMATCH (Refused): Handle does not match (R110). -/
  | prefixMismatch
  /-- ST_PREFIX_EXPIRED (Refused): Handle released or expired (R110). -/
  | prefixExpired
  /-- ST_STALE_EPOCH (Refused): Epoch below known (R118). -/
  | staleEpoch
  /-- ST_REQUEST_MOVED (Refused): Request not held here (R127). -/
  | requestMoved
  /-- ST_REFUSED_VERSIONS (Refused): Fifth live version (R186). -/
  | refusedVersions
  /-- ST_SPAWN_SAMPLES (Refused): Under 4,096 samples (R201). -/
  | spawnSamples
  /-- ST_TIER_QUOTA (Refused): Tier ceiling exceeded (R221). -/
  | tierQuota
  /-- ST_WINDOW_REVOKED (Refused): Old generation or draining (R301). -/
  | windowRevoked
  /-- ST_FLAG_ORDER (Refused): Awaited write failed (R294). -/
  | flagOrder
  /-- ST_TRIGGER_EXPIRED (Refused): Arm unfired (R317). -/
  | triggerExpired
  /-- ST_MSG_TOO_LONG (Refused): Message over buffer (R310). -/
  | msgTooLong
  /-- ST_REFUSED_CAPACITY (Refused): No capacity (R341). -/
  | refusedCapacity
  /-- ST_REFUSED_QUOTA (Refused): Not within quota (R339). -/
  | refusedQuota
  /-- ST_SUBMIT_WITHDRAWN (Refused): Waiting submission cancelled (R344). -/
  | submitWithdrawn
  /-- ST_REQUEST_STOPPED (Refused): COMMIT to STOPPED ring (R357). -/
  | requestStopped
  /-- ST_SEARCH_SNAPSHOT (Refused): Snapshot out of range (R378). -/
  | searchSnapshot
  /-- ST_ORDER_STALE (Refused): Sequence not above last (R404). -/
  | orderStale
  /-- ST_ORDER_EXPIRED (Refused): Unlocked or outside window (R404). -/
  | orderExpired
  /-- ST_DESC_CHECK (Integrity): Descriptor check failed (R96). -/
  | descCheck
  /-- ST_PLANE_CHECK (Integrity): Plane CRC failed (R100). -/
  | planeCheck
  /-- ST_ATTEND_CHECK (Integrity): Internal check failed (R169). -/
  | attendCheck
  /-- ST_PARTIAL_CHECK (Integrity): Merge input failed (R174). -/
  | partialCheck
  /-- ST_CODEBOOK_CHECK (Integrity): `set_crc` failed (R197). -/
  | codebookCheck
  /-- ST_TILE_CHECK (Integrity): Every tile copy failed (R246). -/
  | tileCheck
  /-- ST_MEM_UNCORRECTABLE (Integrity): Uncorrectable line (R229). -/
  | memUncorrectable
  /-- ST_PACKET_CHECK (Integrity): `pkt_crc` failed four times (R288). -/
  | packetCheck
  /-- ST_MSG_CHECK (Integrity): `msg_crc` differs (R311). -/
  | msgCheck
  /-- ST_GATE_LIST_CHECK (Integrity): `list_crc` failed (R324). -/
  | gateListCheck
  /-- ST_ORDER_SIGNATURE (Integrity): Signature failed (R404). -/
  | orderSignature
  /-- ST_MAILBOX_CHECK (Integrity): `req_crc` failed (R395). -/
  | mailboxCheck
  /-- ST_CHECK_MISMATCH (Integrity): CHECK mismatch (R439). -/
  | checkMismatch
  /-- ST_LEDGER_BREAK (Integrity): Request-scoped ledger break (R451). -/
  | ledgerBreak
  /-- ST_ORPHAN_LOST (Target): Recovery failed (R140). -/
  | orphanLost
  /-- ST_CODEBOOK_MISSING (Target): Version unobtainable (R204). -/
  | codebookMissing
  /-- ST_TIER_LATE (Target): Last copy late (R227). -/
  | tierLate
  /-- ST_TIER_FAILED (Target): Last copy failed (R227). -/
  | tierFailed
  /-- ST_TARGET_DEAD (Target): No response within bound (R298). -/
  | targetDead
  /-- ST_MSG_TIMEOUT (Target): Tally incomplete (R312). -/
  | msgTimeout
  /-- ST_SEARCH_PARTIAL (Target): Records unreadable (R382). -/
  | searchPartial
  /-- ST_ENGINE_FAULT (Engine): Wiped three times (R85). -/
  | engineFault
  /-- ST_NO_ENGINE (Engine): No instance in service (R68). -/
  | noEngine
  /-- ST_INVALID_FIELD (Invalid): Field out of range or reserved (R10). -/
  | invalidField
  /-- ST_QUEUE_OVERRUN (Invalid): Doorbell index overrun (R72). -/
  | queueOverrun
  /-- ST_CMD_NOT_READY (Invalid): `seq` wrong (R73). -/
  | cmdNotReady
  /-- ST_CONTEXT_UNBOUND (Invalid): Context index unbound (R79). -/
  | contextUnbound
  /-- ST_REPR_TRANSITION (Invalid): Transition not listed (R101). -/
  | reprTransition
  /-- ST_ATTEND_QUERY (Invalid): Bad query row (R152). -/
  | attendQuery
  /-- ST_ATTEND_NO_KEYS (Invalid): No key attended (R174). -/
  | attendNoKeys
  /-- ST_ENCODE_INPUT (Invalid): Non-finite source row (R193). -/
  | encodeInput
  /-- ST_TILE_FORMAT (Invalid): Malformed tile (R235). -/
  | tileFormat
  /-- ST_STOP_SPEC (Invalid): Stop conditions out of limits (R354). -/
  | stopSpec
  /-- ST_ADH_VERSION (Invalid): Version not spoken (R398). -/
  | adhVersion
deriving DecidableEq, Repr

/-- The events of R505: the part raises only these. -/
inductive Ev where
  /-- EV_HUB_MISCOMPARE: Round digests differ (R49). -/
  | hubMiscompare
  /-- EV_QUEUE_ERROR: Queue enters ERROR (R74). -/
  | queueError
  /-- EV_DIE_FENCED: Die fenced (R56). -/
  | dieFenced
  /-- EV_ENGINE_FAULT: Instance faulted (R85). -/
  | engineFault
  /-- EV_DESC_CHECK: Descriptor check failed (R96). -/
  | descCheck
  /-- EV_PLANE_CHECK: Plane CRC failed (R100). -/
  | planeCheck
  /-- EV_LEAP_ABORTED: Leap aborted (R130). -/
  | leapAborted
  /-- EV_LEASE_LAPSED: Holder lease lapsed (R121). -/
  | leaseLapsed
  /-- EV_ORPHAN_RECOVERED: Orphan recovered (R140). -/
  | orphanRecovered
  /-- EV_HOME_TAKEOVER: Backup took over (R142). -/
  | homeTakeover
  /-- EV_HOME_MIRROR_DONE: New mirror complete (R116, R142). -/
  | homeMirrorDone
  /-- EV_ATTEND_CHECK: Internal check failed (R169). -/
  | attendCheck
  /-- EV_CODEBOOK_DRIFT: Drift threshold exceeded (R198). -/
  | codebookDrift
  /-- EV_SPAWN_DONE: Spawn ended (R202). -/
  | spawnDone
  /-- EV_CODEBOOK_SWITCH: Version became CURRENT (R203). -/
  | codebookSwitch
  /-- EV_MOLT_DONE: Molt finished (R208). -/
  | moltDone
  /-- EV_CODEBOOK_RETIRED: Version retired (R211). -/
  | codebookRetired
  /-- EV_CODEBOOK_CHECK: Cache fill failed (R197). -/
  | codebookCheck
  /-- EV_DRAM_ERROR: Corrected batch or uncorrectable (R229). -/
  | dramError
  /-- EV_FLASH_ERROR: Sector unreadable (R232). -/
  | flashError
  /-- EV_TILE_CHECK: Tile copy failed (R236). -/
  | tileCheck
  /-- EV_WINDOW_LATE: Layer delivered late (R242). -/
  | windowLate
  /-- EV_DRAM_REPAIR: Row repaired (R231). -/
  | dramRepair
  /-- EV_FLASH_BLOCK_RETIRED: NAND block retired (R233). -/
  | flashBlockRetired
  /-- EV_LINK_VERSION: No common version (R263). -/
  | linkVersion
  /-- EV_PORT_UP: Port ACTIVE (R261). -/
  | portUp
  /-- EV_TIME_LOCKED: Node locked (R277). -/
  | timeLocked
  /-- EV_TIME_UNLOCKED: Node unlocked (R277). -/
  | timeUnlocked
  /-- EV_GRANDMASTER_CHANGE: Grandmaster changed (R276). -/
  | grandmasterChange
  /-- EV_LANE_DOWN: Lane enters hold-down (R264). -/
  | laneDown
  /-- EV_PORT_WIDTH: Width changed (R266). -/
  | portWidth
  /-- EV_PORT_DOWN: Port left ACTIVE or refused (R261). -/
  | portDown
  /-- EV_TARGET_DEAD: Dead target (R299). -/
  | targetDead
  /-- EV_MSG_TIMEOUT: Message timed out (R312). -/
  | msgTimeout
  /-- EV_PATH_DOWN: Path left service (R297). -/
  | pathDown
  /-- EV_PATH_UP: Path returned (R297). -/
  | pathUp
  /-- EV_GATE_TAKEOVER: Gate list took over (R327). -/
  | gateTakeover
  /-- EV_GATE_FALLBACK: Fallback entered or left (R330). -/
  | gateFallback
  /-- EV_ADMIT_STALE: Capacity report stale (R340). -/
  | admitStale
  /-- EV_STREAM_BLOCKED: Stream blocked 100 ms (R359). -/
  | streamBlocked
  /-- EV_BRIDGE_TAKEOVER: Standby took over (R362). -/
  | bridgeTakeover
  /-- EV_INDEX_MERGED: Merge ended (R387). -/
  | indexMerged
  /-- EV_SEARCH_VECTOR: Vector slot failed (R382). -/
  | searchVector
  /-- EV_INDEX_MIRROR_LOST: Index mirror dropped (R385). -/
  | indexMirrorLost
  /-- EV_ADEAH_FAILOVER: MG1 became primary (R392). -/
  | adeahFailover
  /-- EV_ORDER_APPLIED: Change order applied (R405). -/
  | orderApplied
  /-- EV_VIOLATION: First violation per VI per second (R409). -/
  | violation
  /-- EV_CROAK_LOST: Two croaks missed (R421). -/
  | croakLost
  /-- EV_CROAK_PLANE: Heard on one plane only (R421). -/
  | croakPlane
  /-- EV_MEMBER_DOWN: Member declared down (R435). -/
  | memberDown
  /-- EV_PROT_STRAGGLER: Protection write stalled (R435). -/
  | protStraggler
  /-- EV_RECOVERY_DONE: Fault recovery complete (R442). -/
  | recoveryDone
  /-- EV_LEDGER_BREAK: Ledger identity failed (R451). -/
  | ledgerBreak
  /-- EV_LEDGER_REBUILT: Books recounted (R451). -/
  | ledgerRebuilt
  /-- EV_SPARE_USED: Spare used (R447). -/
  | spareUsed
  /-- EV_CAPACITY_REDUCED: Capacity lost (R447). -/
  | capacityReduced
  /-- EV_VIN_RANGE: VIN left or re-entered window (R475). -/
  | vinRange
  /-- EV_THERMAL_WARN: Die at 100 °C (R496). -/
  | thermalWarn
  /-- EV_SAFE_STORM: SAFE_N storm (R480). -/
  | safeStorm
  /-- EV_SAFE_STUCK: SAFE_N held 60 s (R480). -/
  | safeStuck
  /-- EV_PPS_ACQUIRED: PPS acquired (R481). -/
  | ppsAcquired
  /-- EV_PPS_LOST: PPS lost (R481). -/
  | ppsLost
  /-- EV_NODE_JOINED: Node joined (R492). -/
  | nodeJoined
  /-- EV_JOIN_FAILED: Join conditions unmet (R492). -/
  | joinFailed
  /-- EV_THROTTLE: Throttle step changed (R497). -/
  | throttle
deriving DecidableEq, Repr

end Sys2Proof
end

