-- ==== Sys2Proof/Wire.lean ====
section
/-! DEFINITION. What crosses the node's boundary: packets (R285), source identities (R60), and the references by which
a deferred mailbox operation is answered later (R397). -/

namespace Sys2Proof

/-- A source identity: the pair `src_node` and `src_ep` of R60 and R292. -/
abbrev SrcId := Nat × Nat

/-- The packet types of R286; the codes 0x0 and 0xB to 0xF are never sent. -/
inductive PktType where
  /-- 0x1: one line is read. -/
  | load
  /-- 0x2: the enabled bytes of one line are written. -/
  | store
  /-- 0x3: a store that waits at its source for the writes before it (R294). -/
  | storeFlag
  /-- 0x4: compare a line and write another on equality. -/
  | cas
  /-- 0x5: add to an 8-byte word. -/
  | fetchAdd
  /-- 0x6: write a line and answer the old one. -/
  | swap
  /-- 0x7: whole lines are written. -/
  | write
  /-- 0x8: whole lines are read. -/
  | read
  /-- 0x9: a piece of a message. -/
  | sendData
  /-- 0xA: a message's end, sent only as a response. -/
  | msgCtrl
  /-- A code that is never sent. -/
  | unlisted (code : Nat)
deriving DecidableEq, Repr

/-- A Volrov packet: the header fields of R285 and the payload. -/
structure Packet where
  ty : PktType := .load
  resp : Bool := false
  tc : Nat := 0
  dst : Nat := 0
  src : Nat := 0
  srcVi : Nat := 0
  srcEp : Nat := 0
  path : Nat := 0
  hops : Nat := 0
  addr : Nat := 0
  tag : Nat := 0
  winGen : Nat := 0
  winId : Nat := 0
  operand : Nat := 0
  status : Nat := 0
  payloadLen : Nat := 0
  casHit : Bool := false
  msgId : Nat := 0
  crc : Nat := 0
  payload : List Byte := []
deriving DecidableEq, Repr

/-- A flit (R254). The byte layout of a CONTROL flit's contents is open: `ctl` holds them as a kind and fields. -/
structure Flit where
  ftype : Nat := 0
  vc : Nat := 0
  firstUnit : Nat := 31
  seq : Nat := 0
  ackSeq : Nat := 0
  nak : Bool := false
  pool : Nat := 0
  total : Nat := 0
  payload : List Byte := []
  crc : Nat := 0
  ctl : List Nat := []
deriving DecidableEq, Repr

/-- The capability record of R262; the profile is empty but for an accelerator (R273). -/
structure CapsRecord where
  versions : Nat := 0
  node : Nat := 0
  port : Nat := 0
  half : Nat := 0
  role : Nat := 0
  rate : Nat := 0
  width : Nat := 0
  pools : List Nat := []
  replayDepth : Nat := 0
  ptp : Bool := false
  profile : List Nat := []
deriving DecidableEq, Repr

/-- An IEEE 1588 message as it arrives (R275); times and delays are in 1/65,536 ns. -/
inductive PtpMsg where
  /-- Sync with its time of arrival, origin time and correction (two-step: with its Follow_Up's). -/
  | sync (arrival origin corr : Int)
  /-- Announce: the grandmaster's data set and the steps removed. -/
  | announce (p1 cls acc var p2 gm steps : Nat)
  /-- Pdelay_Req, answered by the port. -/
  | pdelayReq
  /-- Pdelay_Resp with the four times of the peer delay exchange. -/
  | pdelayResp (t1 t2 t3 t4 : Int)
deriving DecidableEq, Repr

/-- Where the completion of a deferred mailbox operation is posted: the VI and mailbox, or the management session
(as VI 0 with the session's number), with the operation's code and sequence number (R397). -/
structure OpRef where
  vi : Nat := 0
  mbox : Nat := 0
  mbSeq : Nat := 0
  op : Nat := 0
  session : Option Nat := none
  /-- The handle of the final record, and whether that record goes to the VI's async ring. -/
  handle : Nat := 0
  ring : Bool := false
deriving DecidableEq, Repr

/-- Who issues a mailbox operation: a VI through a mailbox with the request's number, a management session (R422), or
a change order that carries it as an action (R404). -/
structure Caller where
  vi : Nat := 0
  mbox : Nat := 0
  mbSeq : Nat := 0
  session : Option Nat := none
  order : Option Nat := none
deriving DecidableEq, Repr

/-- The header of a directory or service message (R124, R507), with the node it came from. -/
structure MsgHdr where
  src : Nat := 0
  ver : Nat := 1
  req : Nat := 0
  epoch : Nat := 0
  mapEpoch : Nat := 0
deriving DecidableEq, Repr

/-- The stop conditions and stream choices of a submission (R354); unused `eos` entries are not listed. -/
structure StopSpec where
  eos : List Nat := []
  maxNew : Nat := 1
  seqs : List (List Nat) := []
  ringLog2 : Nat := 10
  stream : Nat := 0
  keep : Bool := false
  retain : Nat := 0
deriving DecidableEq, Repr

/-- A client submission (R338, R354): the prompt ids are those at `prompt_ids`. -/
structure Submission where
  composition : Nat := 0
  cls : Nat := 0
  prompt : List Nat := []
  limit : Nat := 0
  handle : Nat := 0
  tag : Nat := 0
  spec : StopSpec := {}
  /-- What the home of the handle, where it is another node, answers about it: length, digest, composition, model, and whether it may be presented
  (R110). -/
  answer : Option (Nat × List Byte × Nat × Nat × Bool) := none
deriving DecidableEq, Repr

/-- What the bridge gives the home and the prompt node of a request it admits (R22, R89; the message has no code: log 12). -/
structure Admitted where
  req : Nat := 0
  composition : Nat := 0
  model : Nat := 0
  mapEpoch : Nat := 0
  cls : Nat := 0
  ownerVi : Nat := 0
  promptTokens : Nat := 0
  limit : Nat := 0
  handle : Nat := 0
  prefixTokens : Nat := 0
  spec : StopSpec := {}
  bridge : Nat := 0
  standby : Nat := 0
  promptNode : Nat := 0
  admitTime : Nat := 0
  /-- The client's tag, and the prompt ids, for the standby bridge's log (R351). -/
  tag : Nat := 0
  prompt : List Nat := []
  /-- Held blocks that lie on other nodes: layer, head, block and descriptor address (R111). -/
  held : List (Nat × Nat × Nat × Nat) := []
deriving DecidableEq, Repr

/-- What a node that takes a lost request over is given: what the bridge knows of it, the blocks that cache members and the lingering holder list
(layer, head, block, committed rows that verify, descriptor address), the ids of the primary bridge's log, or the standby's, by position, and the
committed stop it holds (position, reason, sequence, length) (R140, R365; the messages have no codes: log 12). -/
structure Rebuild where
  known : Option Admitted := none
  blocks : List (Nat × Nat × Nat × Nat × Nat) := []
  ids : List Nat := []
  stop : Option (Nat × Nat × Nat × Nat) := none
deriving DecidableEq, Repr

end Sys2Proof
end

