-- ==== Sys2Proof/Syntax.lean ====
section
/-! DEFINITION. The commands of the block: one constructor per row of the opcode table. Operands named `cid` are the
number of a fetched command; a message row carries its header and body fields, a packet row its packet. -/

namespace Sys2Proof

/-- An action of a change order: an operation of form C or O with its parameters (R403). -/
inductive Action where
  /-- ADH_MGMT_CONFIG. -/
  | mgmtConfig (addrs watch collectors : List Nat)
  /-- ADH_VIOLATION_READ. -/
  | violationRead (first count : Nat)
  /-- ADH_VI_ASSIGN. -/
  | viAssign (vi : Nat) (sources : List SrcId) (comps models : List Nat) (maxPriority : Nat) (shares : List Nat) (bits : Nat)
  /-- ADH_VI_RELEASE. -/
  | viRelease (vi : Nat)
  /-- ADH_ENGINE_CONFIG. -/
  | engineConfig (cls inst threshold : Nat)
  /-- ADH_PHASE_SHARE. -/
  | phaseShare (cls inst floorG floorP : Nat)
  /-- ADH_CONTEXT_LOAD. -/
  | contextLoad (model comp headDim layers kvHeads qPerKv cbDir wtDir : Nat)
  /-- ADH_CODEBOOK_FACTORS. -/
  | codebookFactors (slot layer head kv : Nat) (factors : List Nat)
  /-- ADH_CODEBOOK_LOAD. -/
  | codebookLoad (slot : Nat) (obj : List Byte)
  /-- ADH_CALIBRATION_POLICY. -/
  | calibrationPolicy (comp : Nat) (node : Option Nat) (p : List Nat)
  /-- ADH_ATTEND_POLICY. -/
  | attendPolicy (comp distHi epsHi dvHi : Nat)
  /-- ADH_WEIGHTS_LOAD. -/
  | weightsLoad (slot : Nat) (entries : List (List Nat)) (tiles : List (Nat × List Byte))
  /-- ADH_COMPOSITION_DEFINE. -/
  | compositionDefine (comp model epoch : Nat) (prompt gen cache home : List Nat) (prot repr beat : Nat) (quotas : List Nat)
  /-- ADH_ADMISSION_POLICY. -/
  | admissionPolicy (comp : Nat) (bridges : List Nat) (gReserve waitS waitO : Nat)
  /-- ADH_LEAP_POLICY. -/
  | leapPolicy (comp lease leapTimeout pullMode pullDeadline : Nat)
  /-- ADH_LEAP_START. -/
  | leapStart (req : Nat) (target : Option Nat)
  /-- ADH_ARENA_DEFINE. -/
  | arenaDefine (tier die headDim base slots : Nat) (parity : Bool)
  /-- ADH_TIER_CONFIG. -/
  | tierConfig (sramTier interleave flashOp : Nat)
  /-- ADH_TIER_POLICY. -/
  | tierPolicy (comp : Nat) (p : List Nat)
  /-- ADH_SCRUB_POLICY. -/
  | scrubPolicy (period : Nat)
  /-- ADH_REGION_SET. -/
  | regionSet (vi index base limit owner rights : Nat) (valid : Bool)
  /-- ADH_QUOTA_SET. -/
  | quotaSet (kind id tier ceiling : Nat)
  /-- ADH_PORT_CONFIG. -/
  | portConfig (port : Nat) (mode roles rate minWidth : Nat) (pools : List Nat) (endpoint : Option Nat) (eth : List Nat)
  /-- ADH_PARTNER_SET. -/
  | partnerSet (port entry : Nat) (fields : Option (List Nat))
  /-- ADH_ROUTE_LOAD. -/
  | routeLoad (routes : List (Nat × Nat × Option Nat))
  /-- ADH_FABRIC_POLICY. -/
  | fabricPolicy (deadBound msgTimeout rnrLimit : Nat)
  /-- ADH_TIME_CONFIG. -/
  | timeConfig (domain : Nat) (asymmetry : List (Nat × Int)) (pps : Bool) (p1 p2 : Nat) (tod : Option Nat) (utc : Nat)
  /-- ADH_WINDOW_OPEN. -/
  | windowOpen (window base limit owner rights comp listMask : Nat) (srcs : List SrcId)
  /-- ADH_WINDOW_REVOKE. -/
  | windowRevoke (window : Nat)
  /-- ADH_WINDOW_CLOSE. -/
  | windowClose (window : Nat)
  /-- ADH_TRAFFIC_CLASSES. -/
  | trafficClasses (classes : List Nat)
  /-- ADH_GATE_POLICY. -/
  | gatePolicy (port guard after : Nat) (openFallback : Bool)
  /-- ADH_SHAPER_SET. -/
  | shaperSet (vi tc rate burst : Nat)
  /-- ADH_POLICE_SET. -/
  | policeSet (port partner tc rate burst classes : Nat)
  /-- ADH_TRUST_ROTATE. -/
  | trustRotate (da no : Option Nat)
  /-- ADH_TRUST_CLEAR. -/
  | trustClear
  /-- ADH_RIGHTS_SET. -/
  | rightsSet (vi : Nat) (sources : List SrcId) (comps models : List Nat) (maxPriority : Nat) (shares : List Nat) (bits : Nat)
  /-- ADH_FIRMWARE_UPDATE. -/
  | firmwareUpdate (image : List Byte) (raiseSvn : Bool)
  /-- ADH_PERSONALITY_SET. -/
  | personalitySet (p : Nat)
  /-- ADH_NODE_RESET. -/
  | nodeReset (time : Nat)
  /-- ADH_CROAK_KEY. -/
  | croakKey (key : List Byte)
deriving DecidableEq, Repr

/-- A command the block takes. -/
inductive Instr where
  /-- MOVE_LINES (R305): Mover command that copies a range of 64-byte lines between local or remote addresses, using READ and WRITE packets. -/
  | moveLines (cid : Nat)
  /-- MOVE_BLOCKS (R111): Mover command that copies KV blocks with their descriptors, count and check values into new slots. -/
  | moveBlocks (cid : Nat) (src : List Nat)
  /-- PULL_BLOCKS (R136): Mover command that tongue-pulls a range of blocks for a request this node holds at its current epoch. -/
  | pullBlocks (cid : Nat)
  /-- SEND (R308): Mover command that cuts a message into SEND_DATA packets and sprays them to a posted buffer of a remote VI. -/
  | send (cid : Nat)
  /-- RECV_POST (R307): Mover command that posts one receive buffer with its info line on a receive list. -/
  | recvPost (cid : Nat)
  /-- TRIGGER_ARM (R316): Mover command that reads and checks a pre-posted MOVE_LINES or SEND and arms it on a trigger counter threshold. -/
  | triggerArm (cid : Nat)
  /-- ATTEND (R154): Attend command that attends a token range of a held request, splitting it into local, pulled and remote parts. -/
  | attend (cid : Nat) (remote : List (Nat × Nat × List Byte))
  /-- ATTEND_PARTIAL (R155): Attend command that attends a listed set of local blocks and returns unnormalised partial results. -/
  | attendPartial (cid : Nat)
  /-- ATTEND_MERGE (R174): Attend command that verifies and combines partial result records into one merged result. -/
  | attendMerge (cid : Nat)
  /-- ENCODE_KV (R192): Codec command that scales, converts and encodes BF16 K and V rows and writes them into their blocks. -/
  | encodeKv (cid : Nat)
  /-- RECODE_BLOCKS (R508): Codec command that changes the representation or codebook version of listed blocks in place. -/
  | recodeBlocks (cid : Nat)
  /-- DECODE_TILES (R246): Codec command that decodes a run of weight directory entries to BF16 at a local destination. -/
  | decodeTiles (cid : Nat) (remote : List (Nat × List Byte))
  /-- EC_ENCODE (R438): Codec command that computes Reed-Solomon parity, reconstructs lost shards or computes parity deltas. -/
  | ecEncode (cid : Nat) (remote : List (Nat × List Byte))
  /-- CHECK (R439): Codec command that computes or verifies a CRC-64 or SHA-512 over a local range. -/
  | check (cid : Nat)
  /-- SEARCH (R378): Search command that probes centroids, compares flash sketches, and re-ranks candidates exactly at a snapshot. -/
  | search (cid : Nat)
  /-- INSERT (R383): Search command that takes a sequence, sketches and stores items and appends them to the side list. -/
  | insert (cid : Nat)
  /-- DELETE (R384): Search command that marks named items deleted at its sequence and optionally releases their prefix handles. -/
  | delete (cid : Nat)
  /-- RING_OPEN (R352): Stream command on VI 0 that opens a request's token ring and loads its stop automaton. -/
  | ringOpen (cid : Nat)
  /-- COMMIT (R358): Stream command that steps stop rules, pushes token ids to the bridges and commits KV and tokens in one completion step. -/
  | commit (cid : Nat)
  /-- RING_CLOSE (R352): Stream command on VI 0 that closes a token ring at retirement. -/
  | ringClose (cid : Nat) (held : Bool)
  /-- WINDOW_STREAM (R239): Weights command that streams layer windows of weight tiles into an accelerator's buffer ring. -/
  | windowStream (cid : Nat) (remote : List (Nat × List Byte))
  /-- WINDOW_CANCEL (R245): Weights command that stops a running window stream after its current tile. -/
  | windowCancel (cid : Nat)
  /-- DOORBELL_STORE (R72): A 64-byte store to a queue doorbell that moves cmd_tail and cpl_head under the stale and overrun rules. -/
  | doorbellStore (p : Packet)
  /-- FMT_SELECT_WRITE (R63): A store to fmt_select that sets the command-list format for queues created afterwards, ignoring unsupported values. -/
  | fmtSelectWrite (p : Packet)
  /-- MAILBOX_HEADER_STORE (R395): A store to a mailbox request header line with a new mb_seq that makes Adeah accept the request. -/
  | mailboxHeaderStore (p : Packet)
  /-- TRIGGER_COUNTER_STORE (R314): A STORE or STORE_FLAG with mask 0xFF that sets a trigger counter's count. -/
  | triggerCounterStore (p : Packet)
  /-- TRIGGER_COUNTER_FETCH_ADD (R314): A FETCH_ADD on a trigger counter that adds to its count. -/
  | triggerCounterFetchAdd (p : Packet)
  /-- REGISTER_WRITE_OTHER (R9): A write to a register field with no behaviour of its own, stored or discarded according to its access type. -/
  | registerWriteOther (p : Packet)
  /-- COMMAND_FETCH (R73): The Rongar fetches the next exposed command once the completion ring has room, checking its seq. -/
  | commandFetch (vi cls q : Nat)
  /-- SEQ_REREAD_TIMER (R73): After 1 us the Rongar re-reads a command whose seq did not match, completing it with ST_CMD_NOT_READY after three tries. -/
  | seqRereadTimer (vi cls q : Nat)
  /-- SCHEDULER_DISPATCH (R81): An engine scheduler with a free resident-job slot picks the next dispatchable command by priority, phase group and deficit round robin. -/
  | schedulerDispatch (cls inst : Nat)
  /-- DEADLINE_EXPIRY (R76): A command not yet dispatched deadline_rel us after its doorbell completes with ST_DEADLINE_MISSED. -/
  | deadlineExpiry (cid : Nat)
  /-- PREEMPTION_THRESHOLD (R83): A higher-priority command dispatchable longer than the threshold makes the engine stop and save the lowest-priority job at its next boundary. -/
  | preemptionThreshold (cls inst : Nat)
  /-- JOB_SAVE_DONE (R83): A pre-empted job's working state reaches its save record and its slot is given to the waiting command. -/
  | jobSaveDone (cid : Nat)
  /-- JOB_COMPLETION_STEP (R78): A job's result reaches the hub, which updates descriptors, counts and ledger and writes the completion record and notification line. -/
  | jobCompletionStep (cid : Nat)
  /-- ENGINE_FAULT (R85): An Attend, Codec, Search or Weights instance faults; its resident jobs are wiped and queued for re-issue and it starts self-test. -/
  | engineFault (cls inst : Nat)
  /-- ENGINE_SELF_TEST_DONE (R85): A faulted instance finishes self-test and returns to service or is retired, raising EV_ENGINE_FAULT. -/
  | engineSelfTestDone (cls inst : Nat) (pass : Bool) (badTiles : Nat)
  /-- QUEUE_DRAIN_DONE (R69): A DRAINING queue's last dispatched command completes, freeing its context and posting ADH_QUEUE_DESTROY's completion. -/
  | queueDrainDone (vi cls q : Nat)
  /-- QUEUE_RESET_APPLY (R69): An accepted queue reset takes effect once outstanding reaches zero, setting indices and returning the queue to ACTIVE. -/
  | queueResetApply (vi cls q : Nat)
  /-- VI_QUIESCE_DONE (R59): A QUIESCING VI with no dispatched, resident or pending work has its queues destroyed and becomes UNASSIGNED. -/
  | viQuiesceDone (vi : Nat)
  /-- CONTEXT_SLOT_EMPTY (R80): An UNLOADING context slot with no dispatched command naming it becomes EMPTY. -/
  | contextSlotEmpty (slot : Nat)
  /-- REGION_DRAIN_DONE (R66): The last command checked under an old region table completes and the change order's completion is posted. -/
  | regionDrainDone (vi : Nat)
  /-- FABRIC_EPOCH_BOUNDARY (R44): At each fabric time with bits [19:0] zero every arbiter reloads its pointer and shared engines recompute phase shares. -/
  | fabricEpochBoundary
  /-- HUB_ROUND_CLOSE (R46): A hub closes a merge round once every live source has contributed an operation or marker, and applies it. -/
  | hubRoundClose (contrib : List (Nat × Option Packet))
  /-- ROUND_DIGEST_COMPARE (R47): A hub receives the pair's round CRC-64 and releases the round's outputs when both values match. -/
  | roundDigestCompare (peer : Nat) (ecc0 ecc1 unreadable agreeAgain : Bool)
  /-- HUB_FENCE (R51): A hub is fenced and the survivor takes over its round sources, Mover channels and Stream instance. -/
  | hubFence (hub : Nat) (unacked : List (Nat × Nat × Nat × List Byte))
  /-- HUB_BULK_RESEND (R51): A bulk bridge transfer unacknowledged by a fenced hub is re-sent through the survivor 10 us after it was sent. -/
  | hubBulkResend (seq : Nat)
  /-- HUB_STATE_AREA_LOSS (R48): A hub whose state area is lost sets aside a new area and starts copying the other hub's area. -/
  | hubStateAreaLoss (hub : Nat)
  /-- HUB_STATE_AREA_COPY_DONE (R48): The copy of a hub state area ends and EV_CAPACITY_REDUCED is raised. -/
  | hubStateAreaCopyDone (hub : Nat)
  /-- DIE_FENCE (R56): MG0 or MG1 fences a die after an unabsorbable fault, rebalancing its work and raising EV_DIE_FENCED. -/
  | dieFence (die : Nat)
  /-- LEDGER_AUDIT (R449): At every whole millisecond the hubs check each conserved quantity's node-local identities and inter-node transit counts. -/
  | ledgerAudit (counts : List (Nat × Nat × Nat)) (agree : Bool)
  /-- LEDGER_SYNC (R449): A peer's cumulative sent and received transit counts arrive and are compared with local books. -/
  | ledgerSync (h : MsgHdr) (entries : List (Nat × Nat × Nat))
  /-- LEDGER_SYNC_TIMER (R449): Every 1 ms a node sends its transit counts to each peer in LEDGER_SYNC. -/
  | ledgerSyncTimer
  /-- FLIT_RECEIVE (R255): A port receives a flit, accepting it in order or discarding it and sending a NAK, and applies its ack and credit total. -/
  | flitReceive (port : Nat) (correctable : Bool) (f : Flit)
  /-- NAK_REPEAT_TIMER (R255): Every 4 us a receiver repeats its NAK while the expected flit has not arrived. -/
  | nakRepeatTimer (port : Nat)
  /-- FLIT_SEND (R256): A port transmits its next DATA, CONTROL or IDLE flit once replay room, credit and gate allow. -/
  | flitSend (port : Nat)
  /-- NO_FLIT_TIMEOUT (R257): No flit accepted for 4 us, or a flit sent nine times, starts a fast retrain. -/
  | noFlitTimeout (port : Nat)
  /-- FAST_RETRAIN_DONE (R257): A fast retrain ends, exchanging credit totals, or fails and sends the port back to EQUALIZE with its packets handed to spray. -/
  | fastRetrainDone (port : Nat) (ok : Bool) (totals : List Nat)
  /-- SIGNAL_DETECT (R261): A lane in DETECT sees the partner's signal and the port enters EQUALIZE. -/
  | signalDetect (port : Nat)
  /-- DETECT_RETRY_TIMER (R261): Every 100 ms a port in DETECT makes another 10 ms detection attempt. -/
  | detectRetryTimer (port : Nat)
  /-- EQUALIZE_COMPLETE (R261): Transmit equalisation reaches its BER target and the port enters FEC_LOCK, sending failed lanes to hold-down. -/
  | equalizeComplete (port : Nat) (failed : List Nat)
  /-- FEC_LOCK_COMPLETE (R253): Codeword alignment, deskew, reversal and polarity are found and the port enters CAPS. -/
  | fecLockComplete (port : Nat)
  /-- CAPS_RECORD_RECEIVE (R262): A partner's capability record arrives; the version is negotiated or the port is REFUSED. -/
  | capsRecordReceive (port : Nat) (r : CapsRecord)
  /-- CREDIT_INIT_COMPLETE (R259): Pools open with the advertised sizes and the port enters ACTIVE, raising EV_PORT_UP. -/
  | creditInitComplete (port : Nat)
  /-- TRAINING_TIMEOUT (R261): A training state exceeds its time limit and the port falls back as the state table gives. -/
  | trainingTimeout (port : Nat) (failed : List Nat)
  /-- LANE_DOWN (R264): A lane loses signal, lock, deskew or exceeds the symbol error rate and enters hold-down. -/
  | laneDown (port lane reason : Nat)
  /-- HOLD_DOWN_EXPIRY (R264): A lane's hold-down ends and it starts its 1 ms PRBS31 test. -/
  | holdDownExpiry (port lane : Nat)
  /-- PRBS_TEST_DONE (R264): A lane's PRBS31 test ends and the lane returns to service or goes down again. -/
  | prbsTestDone (port lane : Nat) (pass : Bool)
  /-- LANE_SERVICE_TIMER (R264): A lane in service for 300 s has its failure count j reset to 0. -/
  | laneServiceTimer (port lane : Nat)
  /-- WIDTH_CHANGE (R266): A WIDTH CONTROL flit names a new lane set, and both ends switch and retrain alignment on it. -/
  | widthChange (port mask : Nat) (fromPartner : Bool)
  /-- WIDTH_RISE_TIMER (R266): A port with a returned lane raises its width no more than once per second. -/
  | widthRiseTimer (port : Nat)
  /-- ETH_FRAME_RECEIVE (R269): An Ethernet-mode port receives a UDP/IPv6 frame, checks it and its partner entry, and accepts its packets in path order. -/
  | ethFrameReceive (port : Nat) (frame : List Byte) (fcsOk : Bool)
  /-- ETH_PATH_RESEND_TIMER (R269): An Ethernet path with no acknowledgement for 50 us resends from the oldest frame, taking the path out after eight resends. -/
  | ethPathResendTimer (port partner path : Nat)
  /-- PTP_MESSAGE_RECEIVE (R275): An IEEE 1588 Sync, Announce or Pdelay message arrives and updates offset, delay or master selection. -/
  | ptpMessageReceive (port : Nat) (m : PtpMsg)
  /-- SYNC_TIMEOUT (R277): No Sync accepted for 100 ms makes the node unlocked. -/
  | syncTimeout
  /-- ANNOUNCE_TIMEOUT (R276): Announce receipt timeout reruns the best master clock algorithm and may change grandmaster. -/
  | announceTimeout (port : Nat)
  /-- PPS_IN_EDGE (R481): A recognised PPS_IN rising edge is timestamped and accepted or rejected, acquiring PPS after eight accepted edges. -/
  | ppsInEdge (lowNs highNs : Nat)
  /-- PPS_LOSS_TIMER (R481): No accepted PPS edge for 3 s marks PPS lost and drops priority1 to 255. -/
  | ppsLossTimer (reason : Nat)
  /-- LOAD (R289): A LOAD request packet arrives at its target and returns the line. -/
  | load (port : Nat) (p : Packet)
  /-- STORE (R289): A STORE request packet writes its enabled bytes and responds once visible. -/
  | store (port : Nat) (p : Packet)
  /-- STORE_FLAG (R289): A STORE_FLAG request packet writes its enabled bytes at the target and responds once visible. -/
  | storeFlag (port : Nat) (p : Packet)
  /-- STORE_FLAG_RELEASE (R294): A held STORE_FLAG leaves its source once every earlier write to that node is visible, or fails with ST_FLAG_ORDER. -/
  | storeFlagRelease (flag : Nat)
  /-- CAS (R289): A CAS request compares a whole line and writes the new line on equality at the line arbiter. -/
  | cas (port : Nat) (p : Packet)
  /-- FETCH_ADD (R289): A FETCH_ADD request adds its addend to an 8-byte word and returns the line before. -/
  | fetchAdd (port : Nat) (p : Packet)
  /-- SWAP (R289): A SWAP request writes a whole line and returns the old line. -/
  | swap (port : Nat) (p : Packet)
  /-- WRITE (R286): A WRITE request packet writes whole lines and responds once they are visible. -/
  | write (port : Nat) (p : Packet)
  /-- READ (R286): A READ request packet returns the requested whole lines. -/
  | read (port : Nat) (p : Packet)
  /-- SEND_DATA (R310): A SEND_DATA packet claims or finds a reorder entry, is placed at its offset and tallied toward message completion. -/
  | sendData (port : Nat) (p : Packet)
  /-- MSG_CTRL (R311): A MSG_CTRL response arrives at the sender, which completes SEND by comparing msg_crc. -/
  | msgCtrl (p : Packet)
  /-- PACKET_RESPONSE_RECEIVE (R290): A response packet arrives at the source, is checked and completes its operation. -/
  | packetResponseReceive (p : Packet)
  /-- PACKET_TRANSIT_FORWARD (R295): A transit packet is forwarded on the port the forwarding table names for its destination and path. -/
  | packetTransitForward (port : Nat) (p : Packet)
  /-- TRANSIT_CREDIT_TIMEOUT (R295): A transit packet that waited 1 ms for credit is discarded and its units returned. -/
  | transitCreditTimeout (id : Nat)
  /-- RETRY_INTERVAL_TIMER (R298): A request without response after one retry interval is resent on the next path and the old path marked down. -/
  | retryIntervalTimer (dst tag : Nat)
  /-- DEAD_BOUND_EXPIRY (R298): An operation still unanswered after dead_bound completes with ST_TARGET_DEAD and marks the destination unreachable. -/
  | deadBoundExpiry (dst tag : Nat)
  /-- PATH_PROBE_TIMER (R298): Every 100 us a probe is sent on a marked-down path or to an unreachable destination. -/
  | pathProbeTimer (dst path : Nat)
  /-- PATH_EVENT_HOLD_TIMER (R297): At the end of a held-back second one EV_PATH_DOWN or EV_PATH_UP is raised with the count of changes. -/
  | pathEventHoldTimer (dst : Nat) (up : Bool)
  /-- RNR_RESEND_TIMER (R310): Every 10 us a sender resends a SEND_DATA packet answered ST_RETRY_NO_BUFFER, giving up after rnr_limit. -/
  | rnrResendTimer (dst tag : Nat)
  /-- MSG_TIMEOUT (R312): A reorder entry incomplete msg_timeout after its claim fails and becomes a tombstone. -/
  | msgTimeout (src msg : Nat)
  /-- SEND_CTRL_TIMEOUT (R311): A SEND whose packets were acknowledged but received no MSG_CTRL within msg_timeout completes with ST_MSG_TIMEOUT. -/
  | sendCtrlTimeout (msg : Nat)
  /-- TOMBSTONE_EXPIRY (R312): A failed message's tombstone ends after max(2 x msg_timeout, 20 ms). -/
  | tombstoneExpiry (src msg : Nat)
  /-- TRIGGER_EXPIRE (R317): An unfired arm reaches expire_us and completes with ST_TRIGGER_EXPIRED. -/
  | triggerExpire (cid : Nat)
  /-- WINDOW_DRAINED (R302): A DRAINING window's admitted count reaches zero and it becomes REVOKED or CLOSED. -/
  | windowDrained (w : Nat)
  /-- WINDOW_GEN_HOLD_TIMER (R304): A held revoke, close or open raises the window generation once 5 us have passed since the last rise. -/
  | windowGenHoldTimer (w : Nat)
  /-- INGRESS_REQUEST_PACKET (R336): A request packet from an accelerator or host port is class-checked and held until its policer covers it. -/
  | ingressRequestPacket (port : Nat) (pkt : Packet)
  /-- POLICER_RELEASE (R336): A policed request packet whose bucket now covers it passes to the hub. -/
  | policerRelease (port partner tc : Nat)
  /-- SHAPER_SLOT_BOUNDARY (R333): At each 128 ns wheel slot, shapers in the slot release head packets their tokens cover. -/
  | shaperSlotBoundary
  /-- GATE_INTERVAL_BOUNDARY (R324): A gate list entry ends and the next entry's open classes take effect on the port. -/
  | gateIntervalBoundary (port : Nat)
  /-- GATE_TAKEOVER (R327): At takeover time T a pending gate list replaces the operational list and EV_GATE_TAKEOVER is raised. -/
  | gateTakeover (port : Nat)
  /-- GATE_TEST_LIST_END (R328): A test gate list's cycles end and the previous list resumes at its next cycle start. -/
  | gateTestListEnd (port : Nat)
  /-- GATE_FALLBACK_TIMER (R330): A port unlocked for fallback_after enters its fallback behaviour and raises EV_GATE_FALLBACK. -/
  | gateFallbackTimer (port : Nat)
  /-- BEAT_BOUNDARY (R339): At a composition's beat boundary the bridge resets admission counts and serves queue heads, and members close metering records. -/
  | beatBoundary (comp : Nat)
  /-- CAPACITY_REPORT (R340): A member's capacity report arrives at a host bridge, which may serve waiting submissions. -/
  | capacityReport (h : MsgHdr) (comp records dirFree dram sendTime : Nat)
  /-- CAPACITY_REPORT_TIMER (R340): Every 1 ms each prompt and cache member sends CAPACITY_REPORT to each host bridge. -/
  | capacityReportTimer (comp : Nat)
  /-- CAPACITY_STALE_TIMER (R340): A member whose last report is older than 5 ms counts as without capacity and EV_ADMIT_STALE is raised. -/
  | capacityStaleTimer (comp node : Nat)
  /-- TELEMETRY_SAMPLE (R346): At each sample period the Rongar writes one telemetry record per selected queue. -/
  | telemetrySample (vi : Nat)
  /-- LEAP_FREEZE (R127): An old holder, once no COMMIT is pending, freezes the request, builds its manifest and sends LEAP_REQUEST. -/
  | leapFreeze (req : Nat) (target : Option Nat)
  /-- LEAP_REQUEST (R129): The home checks a leap request, sets LEAPING and sends LEAP_GRANT and LEAP_OFFER after mirroring. -/
  | leapRequest (h : MsgHdr) (digest : List Byte) (blocks tokens : Nat) (target : Option Nat)
  /-- LEAP_GRANT (R129): The old holder receives LEAP_GRANT and sends its manifest to the new holder. -/
  | leapGrant (h : MsgHdr) (newHolder : Nat)
  /-- LEAP_OFFER (R129): The new holder receives an offer naming the manifest digest, block count and old holder. -/
  | leapOffer (h : MsgHdr) (digest : List Byte) (blocks tokens oldHolder comp : Nat)
  /-- LEAP_MANIFEST (R128): The new holder receives the manifest, computes its digest, claims a record and sends LEAP_ACCEPT. -/
  | leapManifest (h : MsgHdr) (record ring : List Nat) (entries : List (List Nat))
  /-- LEAP_ACCEPT (R129): The home checks the digest, builds the LEAP receipt, sets the new holder and epoch and mirrors. -/
  | leapAccept (h : MsgHdr) (digest : List Byte)
  /-- LEAP_COMMIT (R129): The new holder receives LEAP_COMMIT and acts as holder at the new epoch with its lease expiry. -/
  | leapCommit (h : MsgHdr) (expiry receipt : Nat) (chain : List Byte)
  /-- LEAP_RELEASE (R134): The old holder frees its record, keeps lingering slots and completes held commands with ST_REQUEST_MOVED. -/
  | leapRelease (h : MsgHdr) (receipt : Nat)
  /-- LEAP_ABORT (R130): A holder receives LEAP_ABORT; the new holder frees its claims and the old holder resumes. -/
  | leapAbort (h : MsgHdr) (reason : Nat)
  /-- LEAP_QUERY (R130): The home answers a holder's leap query with LEAP_STATE. -/
  | leapQuery (h : MsgHdr)
  /-- LEAP_STATE (R130): A holder receives the leap's state and acts on committed or aborted. -/
  | leapState (h : MsgHdr) (state holder : Nat)
  /-- LEAP_TIMEOUT (R130): A leap whose step 5 has not begun within leap_timeout of step 2 is aborted by the home. -/
  | leapTimeout (req : Nat)
  /-- LEAP_QUERY_TIMER (R130): A holder that has heard no outcome within leap_timeout sends LEAP_QUERY, repeating each leap_timeout. -/
  | leapQueryTimer (req : Nat)
  /-- LEAP_RETRY_TIMER (R130): A holder of a request returned to PROTECTED sends LEAP_REQUEST again leap_timeout after an abort. -/
  | leapRetryTimer (req : Nat)
  /-- LEASE_RENEW_TIMER (R119): Every 125 us a holder sends LEASE_RENEW to each home whose requests it holds. -/
  | leaseRenewTimer (home : Nat)
  /-- LEASE_RENEW (R119): The home receives a renewal and answers LEASE_ACK, sending HOLD_REVOKE first after a lapse. -/
  | leaseRenew (h : MsgHdr) (sendTime heldCount freeRecords : Nat)
  /-- LEASE_ACK (R120): A holder receives LEASE_ACK, returns to VALID and compares held and home counts. -/
  | leaseAck (h : MsgHdr) (expiry homeCount revokeCount : Nat)
  /-- LEASE_FENCE_TIMER (R120): At expiry minus g without a valid ack the holder's lease becomes FENCED and writes are held. -/
  | leaseFenceTimer (home : Nat)
  /-- LEASE_LAPSE (R121): At expiry plus g the home marks the lease LAPSED, raises EV_LEASE_LAPSED and starts orphan recovery. -/
  | leaseLapse (holder : Nat)
  /-- HOLD_ASSERT (R123): A holder receives HOLD_ASSERT and answers HOLD_CONFIRM or HOLD_NONE within 100 us. -/
  | holdAssert (h : MsgHdr) (chain : List Byte) (receipt : Nat) (x : Rebuild)
  /-- HOLD_CONFIRM (R140): The home receives confirmation of holding, ending recovery and raising EV_ORPHAN_RECOVERED. -/
  | holdConfirm (h : MsgHdr)
  /-- HOLD_NONE (R123): The home receives HOLD_NONE and starts orphan recovery for the request. -/
  | holdNone (h : MsgHdr)
  /-- HOLD_REVOKE (R123): A stale claimant frees its record and completes held commands with ST_STALE_EPOCH. -/
  | holdRevoke (h : MsgHdr)
  /-- HOLD_LIST (R122): The home receives a holder's list and answers HOLD_REVOKE or HOLD_ASSERT for mismatches. -/
  | holdList (h : MsgHdr) (held : List (Nat × Nat))
  /-- HOLD_ASSERT_TIMEOUT (R139): A HOLD_ASSERT unanswered for 100 us makes the request an orphan. -/
  | holdAssertTimeout (req : Nat)
  /-- ORPHAN_RECOVERY_STEP (R140): The home tries the next orphan recovery step: probe, rebuild on a new holder, re-prefill, or fail. -/
  | orphanRecoveryStep (req : Nat)
  /-- RECOVER_PROBE (R140): A candidate verifies its state against the named receipt and answers RECOVER_REPLY with c_rec. -/
  | recoverProbe (h : MsgHdr) (receipt newHolder : Nat) (x : Rebuild)
  /-- RECOVER_REPLY (R140): The home receives a candidate's reply and issues a new epoch, RECOVER receipt and HOLD_ASSERT, or moves on. -/
  | recoverReply (h : MsgHdr) (result cRec : Nat)
  /-- RECOVER_PROBE_TIMEOUT (R140): A probe not verified within 200 us fails that candidate of recovery step 1. -/
  | recoverProbeTimeout (req : Nat)
  /-- MIRROR (R116): The backup home stores a mirrored entry image and receipt and answers MIRROR_ACK. -/
  | mirror (h : MsgHdr) (image receipt : List Nat) (receiptAddr : Nat)
  /-- MIRROR_ACK (R116): The home receives a mirror acknowledgement and sends the messages that depended on the change. -/
  | mirrorAck (h : MsgHdr)
  /-- BACKUP_REPLACE (R116): The home replaces a failed backup home and re-mirrors entries, raising EV_HOME_MIRROR_DONE at the end. -/
  | backupReplace (failed : Nat)
  /-- HOME_MIRROR_COPY_DONE (R142): The mirroring of all entries and receipts to a new backup ends and EV_HOME_MIRROR_DONE is raised. -/
  | homeMirrorCopyDone
  /-- HOME_TAKEOVER (R142): A backup home with two missed croaks and a dead load takes over as acting home. -/
  | homeTakeover (failed : Nat)
  /-- PULL_BLOCK_ARRIVAL (R137): A pulled block arrives, is verified and switched into the block map at its completion step. -/
  | pullBlockArrival (req layer head b : Nat) (desc : List Nat) (planes : List Byte) (objs : List (List Byte))
  /-- PULL_ARRIVE_DEADLINE (R137): A pull that misses arrive_us at one copy goes on to the next copy or ends the request. -/
  | pullArriveDeadline (req layer head b : Nat)
  /-- REMOTE_PART_DEADLINE (R154): A remote attention part that misses its deadline is replaced by pulling its blocks and attending locally. -/
  | remotePartDeadline (cid part : Nat)
  /-- CANCEL_ARRIVAL_AT_HOME (R27): A client cancel reaches the home, which settles any leap and delivers the cancel to the single holder. -/
  | cancelArrivalAtHome (req arrival : Nat)
  /-- CANCEL_APPLY (R363): The holder applies a cancel, setting stop_reason 5 and booking later tokens cancelled. -/
  | cancelApply (req arrival : Nat)
  /-- PREFIX_RETENTION_EXPIRY (R112): A prefix handle's retention expires, making it unpresentable and freeing its blocks once users reach zero. -/
  | prefixRetentionExpiry (handle : Nat)
  /-- PREFIX_BLOCKS_FREE (R112): A released or expired handle's users reach zero and its blocks, protection and receipts are freed. -/
  | prefixBlocksFree (handle : Nat)
  /-- TOKEN_PUSH (R358): A bridge stores pushed token ids as provisional and answers TOKEN_ACK. -/
  | tokenPush (h : MsgHdr) (first : Nat) (ids : List Nat)
  /-- TOKEN_ACK (R358): The holder receives a bridge's acknowledgement and may proceed with the COMMIT's completion step. -/
  | tokenAck (h : MsgHdr) (first n : Nat)
  /-- TOKEN_ACK_TIMEOUT (R358): A bridge that has not acknowledged within dead_bound is marked lost for the request. -/
  | tokenAckTimeout (cid bridge : Nat)
  /-- TOKEN_COMMIT (R358): A bridge makes provisional ids final up to tok_count and discards those beyond. -/
  | tokenCommit (h : MsgHdr) (tokCount stopPos reason seq len time : Nat)
  /-- STREAM_DONE (R364): The home receives STREAM_DONE and moves the request to RETIRED or HELD. -/
  | streamDone (h : MsgHdr) (tokCount delivered cancelled reason : Nat) (digest : List Byte)
  /-- STREAM_FLUSH_TIMER (R361): The oldest waiting final id reaching flush_us makes the primary bridge write a token record. -/
  | streamFlushTimer (req : Nat)
  /-- STREAM_BLOCKED_TIMER (R359): A client stream blocked for 100 ms raises EV_STREAM_BLOCKED once. -/
  | streamBlockedTimer (vi stream : Nat)
  /-- BRIDGE_TAKEOVER (R362): A standby bridge takes over streaming a request when its primary is lost and resumes from tok_total. -/
  | bridgeTakeover (lost : Nat) (totals : List (Nat × Nat)) (tails : List (Nat × Nat × Nat))
  /-- ROW_PUT (R432): An OPEN copy appends and seals the committed rows and answers ROW_ACK with its check values. -/
  | rowPut (h : MsgHdr) (layer head block first n comp : Nat) (repr kVer vVer : Nat) (rows : List Byte)
  /-- ROW_ACK (R432): The holder receives an OPEN copy's check values and resends rows if they differ. -/
  | rowAck (h : MsgHdr) (layer head block count crcA crcB : Nat)
  /-- SHARD_FULL (R433): The position-k member records a full data shard and seals the stripe once every shard has reported. -/
  | shardFull (h : MsgHdr) (stripe index crcA crcB comp : Nat) (shards : List (Nat × List Nat × List Byte))
  /-- PARITY_DELTA (R437): A parity position XORs in a data shard's delta and acknowledges before the change takes effect. -/
  | parityDelta (h : MsgHdr) (stripe position comp : Nat) (ack : Bool) (delta : List Byte) (sidecar : List Nat)
  /-- REGROW_NEED (R440): A substitute receives a stripe position to regrow and starts regrowing it. -/
  | regrowNeed (h : MsgHdr) (stripe position down comp : Nat)
  /-- REGROW_SHARD_DONE (R440): A regrown shard is verified and switched into the shard map at its completion step. -/
  | regrowShardDone (req stripe position : Nat) (shards : List (Nat × List Nat × List Byte)) (sidecar : List Nat)
  /-- BACKGROUND_REGROW (R441): A node starts regrowing its next lost shard in priority order within regrow_rate. -/
  | backgroundRegrow
  /-- PROT_STALL (R435): The protection node receives a straggler report and probes the member. -/
  | protStall (h : MsgHdr) (comp member kind ns : Nat)
  /-- STRAGGLE_TIMER (R435): A protection write unacknowledged for straggle_limit makes the writer report a straggler. -/
  | straggleTimer (write : Nat)
  /-- STRAGGLER_PROBE_TIMEOUT (R435): A straggler probe not completed within straggle_limit makes the protection node declare the member down. -/
  | stragglerProbeTimeout (comp member : Nat)
  /-- MEMBER_DOWN (R435): A node adds a member to its down set for the epoch and serves its positions by substitutes. -/
  | memberDown (h : MsgHdr) (comp member seq reason : Nat)
  /-- RECOVERY_DONE (R442): The last regrow or recovery for a fault ends and EV_RECOVERY_DONE is raised. -/
  | recoveryDone (kind unit comp : Nat)
  /-- DRIFT_WINDOW_CLOSE (R198): Each drift window close judges encode and attend statistics and may raise EV_CODEBOOK_DRIFT. -/
  | driftWindowClose (ctx : Nat)
  /-- SPAWN_START (R201): The calibration node starts a spawn on a forwarded drift event, gathering samples from members. -/
  | spawnStart (comp e : Nat) (members : List (Nat × Nat × List (List Byte)))
  /-- SPAWN_PASS_DONE (R201): One spawn pass job completes and the loop stops or runs another pass. -/
  | spawnPassDone (comp e : Nat)
  /-- SPAWN_END (R202): The spawn's final assignment decides publication and raises EV_SPAWN_DONE. -/
  | spawnEnd (comp e : Nat)
  /-- PUBLISH (R203): A member verifies a published set object, sets its slot PUBLISHED and answers. -/
  | publish (h : MsgHdr) (e slot ver addr crc comp : Nat)
  /-- PUBLISH_ANSWER (R203): The calibration node records a member's answer, rewriting failed copies and sending SWITCH after the last. -/
  | publishAnswer (h : MsgHdr) (e slot ver status : Nat)
  /-- SWITCH (R203): A member records the scheduled switch_time for a version. -/
  | cbSwitch (h : MsgHdr) (e slot ver time : Nat)
  /-- SWITCH_TIME (R203): At switch_time a member makes the new version CURRENT and the old RETIRING, raising EV_CODEBOOK_SWITCH. -/
  | switchTime (ctx e : Nat)
  /-- REF_REPORT (R211): The calibration node records a member's reference counts and retires versions whose totals reach zero. -/
  | refReport (h : MsgHdr) (entries : List (Nat × Nat × Nat × Nat))
  /-- RETIRE (R211): A member sets a retired version's slot EMPTY and frees its set object. -/
  | retire (h : MsgHdr) (e ver : Nat)
  /-- MOLT_PACE (R205): A member takes its next block of an old version for molt within molt_rate. -/
  | moltPace
  /-- MOLT_RETRY_TIMER (R206): A molt skipped with ST_RETRY_BLOCK_BUSY is retried after 1 ms. -/
  | moltRetryTimer (da : Nat)
  /-- CODEBOOK_FILL (R196): An MC die's codebook cache fill completes and verifies set_crc, or fails and refetches. -/
  | codebookFill (die ctx e ver : Nat) (fetched : Option (List Byte)) (src : Nat)
  /-- CODEBOOK_FILL_TIMEOUT (R197): A command still waiting 1 ms after a failed fill completes with ST_CODEBOOK_CHECK. -/
  | codebookFillTimeout (cid : Nat)
  /-- CALIBRATION_SUCCESSION (R213): The successor of a lost calibration node reads directories and settles CURRENT versions. -/
  | calibrationSuccession (comp lost : Nat) (dirs : List (Nat × Nat × List Nat))
  /-- DEMOTION_PASS (R222): A node whose composition exceeds dram_high demotes its least recently read eligible blocks to flash. -/
  | demotionPass (comp : Nat)
  /-- MIGRATION_COMPLETE (R223): A block migration's copy ends and the hub switches the descriptor and block map at its completion step. -/
  | migrationComplete (desc : Nat)
  /-- PROMOTION_DEADLINE (R224): A promotion not complete within tier_deadline counts as late and the job reads the next copy. -/
  | promotionDeadline (desc : Nat)
  /-- SCRUB_LINE (R230): The patrol scrub reads a line, writing back corrections and handling uncorrectable lines. -/
  | scrubLine (line outcome : Nat)
  /-- ROW_REPAIR (R231): A memory island saves a row's lines, repairs the row by soft PPR and rewrites them. -/
  | rowRepair (ch group row : Nat) (hard : Bool)
  /-- FLASH_RELOCATE (R233): A sector with heavy corrections is rewritten elsewhere within 1 s. -/
  | flashRelocate (sector : Nat)
  /-- FLASH_GC (R233): Garbage collection and wear levelling move mapped sectors at the lowest flash priority. -/
  | flashGc (ch block : Nat)
  /-- NAND_BLOCK_FAIL (R233): A NAND block that fails a program or erase is retired and its sectors remapped. -/
  | nandBlockFail (ch block : Nat)
  /-- RELEASE_POLL (R241): A waiting Weights engine reads the release line again every 1 us. -/
  | releasePoll (cid : Nat)
  /-- LAYER_DUE (R242): A stream layer reaches its due time undelivered, setting its late flag and raising EV_WINDOW_LATE when delivered. -/
  | layerDue (cid : Nat)
  /-- LATE_LIMIT_EXPIRY (R242): A layer undelivered late_limit_us after due while waiting on reads abandons the stream with ST_TIER_LATE. -/
  | lateLimitExpiry (cid : Nat)
  /-- TILE_COPY_TIMEOUT (R243): A tile read not complete in the copy deadline makes the engine read the next copy. -/
  | tileCopyTimeout (cid : Nat)
  /-- CODEWORD_CORRECTIONS (R381): A CX die returns a codeword's corrected bits and the comparator adjusts and lists its records. -/
  | codewordCorrections (word : Nat) (bits : List Nat) (lost : Bool)
  /-- INDEX_MERGE (R386): A merge starts when side_count reaches merge_at, reassigning, rewriting, splitting and retiring clusters. -/
  | indexMerge (idx : Nat)
  /-- MERGE_INSTALL (R386): The merge installs its new centroid table and segments and raises base_gen at one completion step. -/
  | mergeInstall (idx : Nat) (mirror : List (Nat × List Byte))
  /-- OLD_GENERATION_FREE (R387): Old segments and deleted items are freed once no search of the old generation remains. -/
  | oldGenerationFree (idx gen : Nat)
  /-- DELETE_HANDLE_RELEASE (R384): Once older-snapshot searches finish, deleted items' prefix handles are released on VI 0. -/
  | deleteHandleRelease (idx : Nat)
  /-- INDEX_MIRROR_APPLY (R385): A mirror node applies an INSERT or DELETE sent with its sequence and acknowledges. -/
  | indexMirrorApply (h : MsgHdr) (idx seq : Nat) (ack : Bool) (items : List (Nat × Nat × Nat × List Byte)) (dels : List Nat)
  /-- ADH_HELLO (R399): Adeah returns the interface, format and croak version bitmaps and the build. -/
  | adhHello (c : Caller)
  /-- ADH_ASYNC_SET (R397): Sets a VI's async ring base, size and tail line. -/
  | adhAsyncSet (c : Caller) (base log2 tail : Nat)
  /-- ADH_EVENT_SUBSCRIBE (R401): Adds event codes to a VI's async ring. -/
  | adhEventSubscribe (c : Caller) (codes : List Nat)
  /-- ADH_HEALTH_STATUS (R400): Returns die states, capacities, spares, reset cause and alert causes. -/
  | adhHealthStatus (c : Caller)
  /-- ADH_VIOLATION_READ (R408): Returns violation ring entries to an operator. -/
  | adhViolationRead (c : Caller) (first count : Nat)
  /-- ADH_MGMT_CONFIG (R419): Sets management addresses, the croak watch list and event collectors. -/
  | adhMgmtConfig (c : Caller) (addrs watch collectors : List Nat)
  /-- ADH_VI_ASSIGN (R58): Change-order action that assigns a VI with source identities and a rights record. -/
  | adhViAssign (c : Caller) (vi : Nat) (sources : List SrcId) (comps models : List Nat) (maxPriority : Nat) (shares : List Nat) (bits : Nat)
  /-- ADH_VI_RELEASE (R59): Moves a VI to QUIESCING, completing when it becomes UNASSIGNED. -/
  | adhViRelease (c : Caller) (vi : Nat)
  /-- ADH_QUEUE_CREATE (R69): Creates a queue with its rings, priority, phase, binding and notify address. -/
  | adhQueueCreate (c : Caller) (cls q ringBase ringLog2 cplBase priority : Nat) (phaseG : Bool) (inst : Option Nat) (notify : Nat)
  /-- ADH_QUEUE_DESTROY (R69): Moves a queue to DRAINING and frees it once its dispatched commands complete. -/
  | adhQueueDestroy (c : Caller) (cls q : Nat)
  /-- ADH_QUEUE_RESET (R69): Accepts a reset of a queue in ERROR, applied once outstanding reaches zero. -/
  | adhQueueReset (c : Caller) (cls q cmdIndex cplIndex : Nat)
  /-- ADH_ENGINE_CONFIG (R83): Sets an instance's pre-emption threshold. -/
  | adhEngineConfig (c : Caller) (cls inst threshold : Nat)
  /-- ADH_PHASE_SHARE (R82): Sets an instance's phase group floors. -/
  | adhPhaseShare (c : Caller) (cls inst floorG floorP : Nat)
  /-- ADH_CONTEXT_LOAD (R79): Fills the lowest EMPTY context slot for a model and composition. -/
  | adhContextLoad (c : Caller) (model comp headDim layers kvHeads qPerKv cbDir wtDir : Nat)
  /-- ADH_CONTEXT_BIND (R79): Maps a context slot to one of a VI's context indices. -/
  | adhContextBind (c : Caller) (slot index : Nat)
  /-- ADH_CONTEXT_UNBIND (R80): Removes a context index binding, possibly making the slot UNLOADING. -/
  | adhContextUnbind (c : Caller) (index : Nat)
  /-- ADH_CODEBOOK_FACTORS (R187): Loads channel factors mu and lambda for sets of a context slot. -/
  | adhCodebookFactors (c : Caller) (slot layer head kv : Nat) (factors : List Nat)
  /-- ADH_CODEBOOK_LOAD (R212): Installs a supplied codebook version, forwarded to and published by the calibration node. -/
  | adhCodebookLoad (c : Caller) (slot : Nat) (obj : List Byte)
  /-- ADH_CALIBRATION_POLICY (R198): Sets calibration node, drift windows, thresholds and reservoirs. -/
  | adhCalibrationPolicy (c : Caller) (comp : Nat) (node : Option Nat) (p : List Nat)
  /-- ADH_ATTEND_POLICY (R176): Sets the Attend distortion thresholds of a composition. -/
  | adhAttendPolicy (c : Caller) (comp distHi epsHi dvHi : Nat)
  /-- ADH_WEIGHTS_LOAD (R238): Loads weight tiles into regions and builds the weight directory. -/
  | adhWeightsLoad (c : Caller) (slot : Nat) (entries : List (List Nat)) (tiles : List (Nat × List Byte))
  /-- ADH_COMPOSITION_DEFINE (R18): Change-order action that defines or changes a composition and its member map. -/
  | adhCompositionDefine (c : Caller) (comp model epoch : Nat) (prompt gen cache home : List Nat) (prot repr beat : Nat) (quotas : List Nat)
  /-- ADH_COMPOSITION_STATUS (R20): Returns a composition's members and old-epoch request count. -/
  | adhCompositionStatus (c : Caller) (comp : Nat)
  /-- ADH_METER_READ (R21): Returns metering records of a composition. -/
  | adhMeterRead (c : Caller) (comp first count : Nat)
  /-- ADH_ADMISSION_POLICY (R339): Sets a composition's host bridges, g_reserve and wait limits. -/
  | adhAdmissionPolicy (c : Caller) (comp : Nat) (bridges : List Nat) (gReserve waitS waitO : Nat)
  /-- ADH_REQUEST_SUBMIT (R341): Submits a client request, checked and served, delayed or refused by admission. -/
  | adhRequestSubmit (c : Caller) (sub : Submission)
  /-- ADH_REQUEST_CANCEL (R344): Withdraws a waiting submission or forwards a cancel of a served request to its home. -/
  | adhRequestCancel (c : Caller) (tag : Option Nat) (req : Nat)
  /-- ADH_REQUEST_READ (R89): Returns a request record. -/
  | adhRequestRead (c : Caller) (req : Nat)
  /-- ADH_PREFIX_KEEP (R364): Asks that a request be held under a prefix handle at its stop. -/
  | adhPrefixKeep (c : Caller) (req retain : Nat)
  /-- ADH_PREFIX_RELEASE (R112): Releases a prefix handle, making it unpresentable. -/
  | adhPrefixRelease (c : Caller) (handle : Nat)
  /-- ADH_STREAM_CONFIG (R359): Configures a client stream's record ring, tail line and flush time. -/
  | adhStreamConfig (c : Caller) (stream recBase recLog2 tail head flushNs : Nat)
  /-- ADH_DIRECTORY_READ (R115): Returns a request's directory entry. -/
  | adhDirectoryRead (c : Caller) (req : Nat)
  /-- ADH_RECEIPT_READ (R132): Returns receipts of a request's chain. -/
  | adhReceiptRead (c : Caller) (req first count : Nat)
  /-- ADH_LEAP_POLICY (R135): Sets lease length, leap_timeout, pull_mode and pull_deadline. -/
  | adhLeapPolicy (c : Caller) (comp lease leapTimeout pullMode pullDeadline : Nat)
  /-- ADH_LEAP_START (R126): Starts a leap of a request to an optional target on VI 0. -/
  | adhLeapStart (c : Caller) (req : Nat) (target : Option Nat)
  /-- ADH_ARENA_DEFINE (R95): Defines a slot or parity arena. -/
  | adhArenaDefine (c : Caller) (tier die headDim base slots : Nat) (parity : Bool)
  /-- ADH_TIER_CONFIG (R216): Sets the SRAM tier size, interleave_bytes for next reset and flash over-provisioning. -/
  | adhTierConfig (c : Caller) (sramTier interleave flashOp : Nat)
  /-- ADH_TIER_POLICY (R222): Sets migration, regrow_rate and straggle_limit policy of a composition. -/
  | adhTierPolicy (c : Caller) (comp : Nat) (p : List Nat)
  /-- ADH_TIER_STATUS (R220): Returns ceilings, use, transit, capacity and wear. -/
  | adhTierStatus (c : Caller) (kind id : Nat)
  /-- ADH_SCRUB_POLICY (R230): Sets the patrol scrub period. -/
  | adhScrubPolicy (c : Caller) (period : Nat)
  /-- ADH_REGION_SET (R66): Change-order action that installs a region table entry and raises region_generation. -/
  | adhRegionSet (c : Caller) (vi index base limit owner rights : Nat) (valid : Bool)
  /-- ADH_QUOTA_SET (R220): Change-order action that sets a VI's or composition's tier ceiling. -/
  | adhQuotaSet (c : Caller) (kind id tier ceiling : Nat)
  /-- ADH_PORT_CONFIG (R280): Sets port fields and retrains an ACTIVE port. -/
  | adhPortConfig (c : Caller) (port : Nat) (mode roles rate minWidth : Nat) (pools : List Nat) (endpoint : Option Nat) (eth : List Nat)
  /-- ADH_PORT_STATUS (R265): Returns port status words. -/
  | adhPortStatus (c : Caller) (port : Nat)
  /-- ADH_PARTNER_SET (R270): Change-order action that sets Ethernet partner table entries. -/
  | adhPartnerSet (c : Caller) (port entry : Nat) (fields : Option (List Nat))
  /-- ADH_ROUTE_LOAD (R295): Loads the forwarding table. -/
  | adhRouteLoad (c : Caller) (routes : List (Nat × Nat × Option Nat))
  /-- ADH_FABRIC_POLICY (R298): Sets dead_bound, msg_timeout and rnr_limit. -/
  | adhFabricPolicy (c : Caller) (deadBound msgTimeout rnrLimit : Nat)
  /-- ADH_TIME_CONFIG (R279): Sets PTP domain, asymmetry, PPS_IN use, priorities, time of day and UTC offset. -/
  | adhTimeConfig (c : Caller) (domain : Nat) (asymmetry : List (Nat × Int)) (pps : Bool) (p1 p2 : Nat) (tod : Option Nat) (utc : Nat)
  /-- ADH_WINDOW_OPEN (R302): Change-order action that opens or replaces a window with a new generation. -/
  | adhWindowOpen (c : Caller) (window base limit owner rights comp listMask : Nat) (srcs : List SrcId)
  /-- ADH_WINDOW_REVOKE (R303): Revokes a window at its arbiter, completing when it becomes REVOKED. -/
  | adhWindowRevoke (c : Caller) (window : Nat)
  /-- ADH_WINDOW_RENEW (R302): Reopens a REVOKED window with its generation. -/
  | adhWindowRenew (c : Caller) (window : Nat)
  /-- ADH_WINDOW_CLOSE (R302): Change-order action that closes a window. -/
  | adhWindowClose (c : Caller) (window : Nat)
  /-- ADH_WINDOW_READ (R300): Returns a window entry to its owner. -/
  | adhWindowRead (c : Caller) (window : Nat)
  /-- ADH_TRAFFIC_CLASSES (R321): Sets the classes of VI 0 traffic. -/
  | adhTrafficClasses (c : Caller) (classes : List Nat)
  /-- ADH_GATE_LOAD (R327): Loads a gate list as pending and returns its takeover time. -/
  | adhGateLoad (c : Caller) (port obj : Nat)
  /-- ADH_GATE_POLICY (R330): Sets unlock guard and fallback of a port. -/
  | adhGatePolicy (c : Caller) (port guard after : Nat) (openFallback : Bool)
  /-- ADH_SHAPER_SET (R335): Sets a shaper's rate and burst, keeping or capping its tokens. -/
  | adhShaperSet (c : Caller) (vi tc rate burst : Nat)
  /-- ADH_POLICE_SET (R337): Sets an ingress policer's rate, burst and permitted classes. -/
  | adhPoliceSet (c : Caller) (port partner tc rate burst classes : Nat)
  /-- ADH_TELEMETRY_CONFIG (R346): Configures a telemetry ring, period and sampled queues. -/
  | adhTelemetryConfig (c : Caller) (base log2 period : Nat) (queues : List (Nat × Nat × Nat))
  /-- ADH_COUNTER_CONFIG (R457): Selects events for programmable counters, zeroing them. -/
  | adhCounterConfig (c : Caller) (unit : Option Nat) (sels : List (Nat × Nat × Nat))
  /-- ADH_COUNTER_SNAPSHOT (R464): Schedules a counter snapshot, freeze or thaw at a fabric time. -/
  | adhCounterSnapshot (c : Caller) (units : Bool) (mode : Nat) (ids : List Nat) (time out : Nat)
  /-- ADH_SAMPLE_CONFIG (R467): Configures a command sampling ring and intervals. -/
  | adhSampleConfig (c : Caller) (base log2 tail : Nat) (intervals : List (Nat × Nat)) (node : Bool)
  /-- ADH_INDEX_CREATE (R369): Defines a retrieval index and its storage. -/
  | adhIndexCreate (c : Caller) (idx comp dim nlist itemMax sideMax : Nat) (wide l2 : Bool) (mirror itemBase centBase vecBase segBase segBytes : Nat)
  /-- ADH_INDEX_STATUS (R370): Returns an index header. -/
  | adhIndexStatus (c : Caller) (idx : Nat)
  /-- ADH_INDEX_POLICY (R386): Sets merge_at, split_at and retire_at. -/
  | adhIndexPolicy (c : Caller) (idx mergeAt splitAt retireAt : Nat)
  /-- ADH_INDEX_MERGE (R386): Requests a merge of an index. -/
  | adhIndexMerge (c : Caller) (idx : Nat)
  /-- ADH_INDEX_DESTROY (R400): Destroys an index once no SEARCH names it. -/
  | adhIndexDestroy (c : Caller) (idx : Nat)
  /-- ADH_CHANGE_ORDER (R404): Checks a dual-signed change order and applies all its actions at one completion step. -/
  | adhChangeOrder (c : Caller) (order : List Byte) (actions : List Action)
  /-- ORDER_DRAIN_DONE (R405): Every drain started by an applied order reaches zero and its final record is written. -/
  | orderDrainDone
  /-- ADH_ATTEST (R418): Returns a signed quote of measurements with the certificate chain. -/
  | adhAttest (c : Caller) (nonce : List Byte)
  /-- ADH_TRUST_INSTALL (R407): Writes both trust keys while the trust record is empty. -/
  | adhTrustInstall (c : Caller) (da no : Nat)
  /-- ADH_TRUST_ROTATE (R407): Change-order action that replaces one or both trust keys. -/
  | adhTrustRotate (c : Caller) (da no : Option Nat)
  /-- ADH_TRUST_CLEAR (R407): Change-order action that empties the trust record. -/
  | adhTrustClear (c : Caller)
  /-- ADH_RIGHTS_SET (R402): Change-order action that replaces a VI's rights record. -/
  | adhRightsSet (c : Caller) (vi : Nat) (sources : List SrcId) (comps models : List Nat) (maxPriority : Nat) (shares : List Nat) (bits : Nat)
  /-- ADH_FIRMWARE_UPDATE (R415): Change-order action that checks and writes a new firmware image for the next reset. -/
  | adhFirmwareUpdate (c : Caller) (image : List Byte) (raiseSvn : Bool)
  /-- ADH_PERSONALITY_SET (R4): Change-order action that sets the personality for the next reset. -/
  | adhPersonalitySet (c : Caller) (p : Nat)
  /-- ADH_NODE_RESET (R495): Change-order action that schedules a node reset, croaking draining until then. -/
  | adhNodeReset (c : Caller) (time : Nat)
  /-- NODE_RESET_TIME (R495): At an ordered reset time the package restarts from t0 of start-up. -/
  | nodeResetTime
  /-- ADH_CROAK_KEY (R420): Change-order action that installs the croak HMAC key. -/
  | adhCroakKey (c : Caller) (key : List Byte)
  /-- ADH_SESSION_OPEN (R422): Opens a management session from a signed challenge, returning an encrypted session key. -/
  | adhSessionOpen (c : Caller) (principal : Nat) (challenge sig : List Byte)
  /-- ADH_UPLOAD (R422): Fills a session's upload area. -/
  | adhUpload (c : Caller) (off : Nat) (bytes : List Byte)
  /-- MGMT_SESSION_DATAGRAM (R422): A management datagram is authenticated and its Adeah request dispatched. -/
  | mgmtSessionDatagram (bytes : List Byte)
  /-- SESSION_IDLE_TIMER (R422): A session idle for 60 s is closed. -/
  | sessionIdleTimer (id : Nat)
  /-- ADEAH_FAILOVER (R392): MG1 becomes primary after MG0 is fenced and settles BUSY mailboxes. -/
  | adeahFailover
  /-- CROAK_SEND_TIMER (R420): Every 1 ms each running MG die sends a croak on both its ports. -/
  | croakSendTimer (mg : Nat)
  /-- CROAK_RECEIVE (R421): A croak from a watched node arrives and is verified. -/
  | croakReceive (plane : Nat) (bytes : List Byte)
  /-- CROAK_MISS (R421): 1.1 ms after a watched node's croak without another counts a miss, raising EV_CROAK_LOST after two. -/
  | croakMiss (node : Nat)
  /-- CROAK_PLANE_TIMER (R421): A watched node heard on one plane only for 10 ms raises EV_CROAK_PLANE. -/
  | croakPlaneTimer (node plane : Nat)
  /-- RECOVERY_SOLICIT (R414): Every 1 s the recovery loader sends RECOVERY_SOLICIT on both planes. -/
  | recoverySolicit
  /-- RECOVERY_IMAGE_BLOCK (R414): The loader stores an image block and, when complete and valid, writes the image and resets the management dies. -/
  | recoveryImageBlock (off : Nat) (data : List Byte) (crc : Nat)
  /-- COUNTER_CAPTURE (R465): At capture time T each island snapshots, freezes or thaws the selected counters and writes records. -/
  | counterCapture
  /-- VIN_EXCURSION (R475): VIN enters a warning or shutdown zone for 20 us or more and the package alerts or shuts down. -/
  | vinExcursion (mv : Nat)
  /-- PWRGD_RISE (R478): PWRGD recognised high starts the on-package converters. -/
  | pwrgdRise
  /-- PWRGD_FALL (R495): PWRGD recognised low runs the ordered power-down. -/
  | pwrgdFall
  /-- POWERDOWN_COMPLETE (R495): The power-down ends with every converter stopped. -/
  | powerdownComplete
  /-- RESET_N_ASSERT (R479): RESET_N recognised low stops croaks and engines and resets every die. -/
  | resetNAssert (refclkGood : Bool)
  /-- RESET_N_RELEASE (R491): RESET_N recognised high with PWRGD high for 10 ms starts start-up. -/
  | resetNRelease
  /-- SAFE_N_ASSERT (R480): SAFE_N recognised low raises the throttle step to at least 8 and limits input power. -/
  | safeNAssert
  /-- SAFE_N_RELEASE (R480): SAFE_N recognised high lets steps fall one per 1 ms. -/
  | safeNRelease
  /-- SAFE_N_STUCK_TIMER (R480): SAFE_N asserted 60 s raises EV_SAFE_STUCK, then hourly. -/
  | safeNStuckTimer
  /-- SAFE_STORM_END_TIMER (R480): SAFE_N high continuously for 1 s ends a storm. -/
  | safeStormEndTimer
  /-- REFCLK_LOSS (R477): Loss of REFCLK halts every die except the always-on island and asserts ALERT_N. -/
  | refclkLoss
  /-- THERMAL_TRIP (R483): A die reaches 120 C, THERMTRIP_N falls and every converter stops. -/
  | thermalTrip (die : Nat)
  /-- THERMAL_STEP_TIMER (R497): Every 1 ms or 10 ms the temperature cause raises or lowers the throttle step. -/
  | thermalStepTimer (temps : List (Nat × Nat))
  /-- INPUT_POWER_STEP (R497): Input power over 1,050 W in 100 us raises the throttle step within 10 us; below 1,000 W lowers it each 10 ms. -/
  | inputPowerStep (watts : Nat)
  /-- THERMAL_WARN (R496): A die reaching 100 C asserts ALERT_N and raises EV_THERMAL_WARN. -/
  | thermalWarn (die temp : Nat)
  /-- ALERT_HOLD_TIMER (R482): ALERT_N is released 1 ms after its last cause ends. -/
  | alertHoldTimer
  /-- IDCODE (R484): JTAG instruction selecting the IDCODE register. -/
  | idcode
  /-- SAMPLE_PRELOAD (R484): JTAG instruction that samples or preloads the boundary register. -/
  | samplePreload (captured preload : Nat)
  /-- EXTEST (R484): JTAG boundary test, accepted only while RESET_N is asserted. -/
  | extest
  /-- EXTEST_PULSE (R484): IEEE 1149.6 AC pulse test on lanes, accepted only in reset. -/
  | extestPulse
  /-- EXTEST_TRAIN (R484): IEEE 1149.6 AC train test on lanes, accepted only in reset. -/
  | extestTrain
  /-- HIGHZ (R484): JTAG instruction placing outputs in high impedance, accepted only in reset. -/
  | highz
  /-- CLAMP (R484): JTAG instruction clamping outputs, accepted only in reset. -/
  | clamp
  /-- BYPASS (R484): JTAG bypass for code 0xFF and every unlisted code. -/
  | bypass (code : Nat)
  /-- IMAGE_VERIFY (R412): A boot ROM finishes reading and checking the firmware image and accepts it or retries. -/
  | imageVerify (die : Nat) (readOk : Bool)
  /-- DIE_SELF_TEST_DONE (R491): Start-up self-test ends on a die, applying redundancy and fencing failing dies. -/
  | dieSelfTestDone (die : Nat) (pass : Bool) (badTiles : Nat)
  /-- DRAM_TRAINING_DONE (R485): DRAM training ends, applying repairs and setting aside spare, state and save areas. -/
  | dramTrainingDone (ch : Nat) (pass : Bool) (rate : Nat)
  /-- NAND_REBUILD_DONE (R491): The flash dies finish rebuilding free-block lists with every sector unmapped. -/
  | nandRebuildDone (die : Nat) (chans : List (Nat × Nat × Nat))
  /-- NODE_JOIN (R492): Once locked, populated and trained, the node joins, croaks serving and raises EV_NODE_JOINED. -/
  | nodeJoin
  /-- JOIN_FAILED_TIMER (R492): Every 60 s without joining the node raises EV_JOIN_FAILED naming unmet conditions. -/
  | joinFailedTimer
  /-- PREFILL_START (R89): The chosen prompt node accepts an admitted request, creates its request record, opens its token ring and the request enters PREFILL. -/
  | prefillStart (a : Admitted)
  /-- CONTEXT_LOAD_DONE (R79): A deferred context load finishes and its slot moves from LOADING to READY, releasing commands that waited on it. -/
  | contextLoadDone (slot : Nat)
  /-- CHANNEL_LOSS (R55): A DRAM channel controller, DIMM or flash channel fails and is lost without its whole die being fenced, starting local regrow and re-placement. -/
  | channelLoss (kind ch : Nat)
  /-- VIN_RETURN (R475): VIN comes back into the 48-60 V operating window, raising EV_VIN_RANGE on return and ending the ALERT_N cause. -/
  | vinReturn (mv : Nat)
  /-- PTP_TRANSMIT_TIMER (R275): At each configured log interval a port sends its IEEE 1588 Sync, Pdelay_Req or Announce message. -/
  | ptpTransmitTimer (port kind : Nat)
  /-- TIME_SLEW_DONE (R278): A fabric-time slew ends, after which the node no longer counts as unlocked because of it. -/
  | timeSlewDone
  /-- ETHERNET_LINK_UP (R267): An Ethernet-mode port finishes 802.3dj auto-negotiation and link training and enters ACTIVE. -/
  | ethernetLinkUp (port : Nat)
  /-- ETH_PATH_HOLD_DOWN_EXPIRY (R269): An Ethernet path taken out of service after eight resends ends its hold-down and is tried again by the sender. -/
  | ethPathHoldDownExpiry (port partner path : Nat)
deriving DecidableEq, Repr

end Sys2Proof
end

