-- ==== Sys2Proof/Decode.lean ====
section
/-! DEFINITION. The table's words. The opcode table gives no row any bits, so that no word spells a command: commands come from the queue. -/

namespace Sys2Proof

/-- The command a table word spells: none, since no row of the table has bits. -/
def decodeTableWord (_nbits _w : Nat) : Option Instr := none

end Sys2Proof
end

