-- ==== Sys2Proof/Config.lean ====
section
/-! DEFINITION. What one part fixes and the manual does not state: the free values of the model. Each is an opaque
constant without a body, so that nothing can be proved of its value (notes/assumptions 3 to 8). -/

namespace Sys2Proof.Config

/-- A fresh open value, drawn by the state's counter `State.free` (log 3). -/
opaque freeWord : Nat → BitVec 64

/-- The value the engine's exp2 unit offers for an FP32 argument; it counts only where it lies within the error
bound of R162 (log 4). -/
opaque exp2Pick : Nat → BitVec 32

/-- The quotient of a BF16 value by a factor where it exceeds the largest FP32 value (R193 states none; log 4). -/
opaque divOver : Nat → Nat → BitVec 32

/-- The place a tile takes in the order in which a row's tiles are merged (R36, R179; log 5). -/
opaque mergeRank : Nat → Nat

/-- The engine time the firmware's estimate gives a command's words (R81: not part of the interface; log 6). -/
opaque engineEstimate : List Nat → Nat

/-- The engine time a job measured between two moments (R81; log 6). -/
opaque engineMeasured : Nat → Nat

/-- The SHA-512 of the image-signing key, fused at manufacture (R412; log 7). -/
opaque imageKeyDigest : List Byte

/-- The digest of the boot ROM, fused at manufacture: M0 (R416; log 7). -/
opaque romDigest : List Byte

/-- The node's serial (R414; log 7). -/
opaque serial : Nat

/-- The signature of a management die's attestation key over a message, for the measurements M0 and M1 the key is
derived from (R417, R418; log 7). -/
opaque attestSign : Nat → List Byte → List Byte → List Byte

/-- The attestation key certificate and the device identity certificate of a management die (R417; log 7). -/
opaque certificates : Nat → List Byte → List Byte

/-- The encoding in which Adeah hashes a trust record and a personality block (R416; log 7). -/
opaque personalityBytes : Nat → List Byte

/-- The 64 bytes in which the quote's `rights_digest` takes a VI's rights record (R418 gives the length alone; log 7). -/
opaque rightsBytes : List Nat → List Byte

/-- The bytes in which a CONTROL flit carries its contents (R254 gives them no layout; log 8). -/
opaque controlBytes : List Nat → List Byte

/-- The cause code an idle slot of a unit with resident work is charged to between two fabric times (R459: it depends on what
the work waited on; log 6). -/
opaque waitCause : Nat → Nat → BitVec 3

/-- Of a unit's elapsed slots, those that did work for one job, and how those of a unit without jobs divide (R458, R459; log 6). -/
opaque busySlots : Nat → Nat → Nat → Nat

/-- The idle slots of one type-0x00 event that a job of a unit has brought its owner since a time (R462, R463; log 6). -/
opaque jobSlots : Nat → Nat → Nat → Nat

/-- How often an event that no command of the table shows happened in a unit since a time: read retries, row activations and FEC symbols
corrected (R463; log 6). -/
opaque unseenEvents : Nat → Nat → Nat → Nat

/-- The MAC and the IPv6 address of a port in Ethernet mode (R268, R270 give the partner's alone; log 9). -/
opaque portMac : Nat → BitVec 48
opaque portIp : Nat → BitVec 128

end Sys2Proof.Config
end

