-- ==== Sys2Proof/Machine/Bits.lean ====
section
/-! DEFINITION. Bit fields of words, byte order, and the tables every later file reads and writes. -/

namespace Sys2Proof.Machine
open Sys2Proof

/-- Bits [hi:lo] of a word, both ends included (R6). -/
def bits (w hi lo : Nat) : Nat := (w >>> lo) % 2 ^ (hi + 1 - lo)

/-- One bit of a word (R6). -/
def bit (w i : Nat) : Bool := w.testBit i

/-- Word `i` of a structure; a word past the end reads zero. -/
def word (ws : List Nat) (i : Nat) : Nat := ws.getD i 0

/-- Field [hi:lo] of word `i` of a structure, as the manual's bit maps name it. -/
def fld (ws : List Nat) (i hi lo : Nat) : Nat := bits (word ws i) hi lo

/-- A word built of fields, each given as (lowest bit, width, value). -/
def mkWord (fs : List (Nat × Nat × Nat)) : Nat :=
  fs.foldl (fun acc f => acc + (f.2.2 % 2 ^ f.2.1) * 2 ^ f.1) 0

/-- A Boolean as a one-bit field. -/
def b2n (b : Bool) : Nat := if b then 1 else 0

/-- Whether every listed bit range (word, hi, lo) is zero: the reserved fields of a layout (R10). -/
def allZero (ws : List Nat) (rs : List (Nat × Nat × Nat)) : Bool :=
  rs.all (fun r => fld ws r.1 r.2.1 r.2.2 == 0)

/-- A value kept in a 16-bit register. -/
def u16 (n : Nat) : Nat := n % 2 ^ 16
/-- A value kept in a 32-bit register. -/
def u32 (n : Nat) : Nat := n % 2 ^ 32
/-- A value kept in a 64-bit register. -/
def u64 (n : Nat) : Nat := n % 2 ^ 64

/-- `n` saturated at `m` (a field the manual calls saturating). -/
def sat (m n : Nat) : Nat := min m n

/-- (a - b) mod 2^32, the distance between two free-running indices (R72). -/
def sub32 (a b : Nat) : Nat := (a + 2 ^ 32 - b % 2 ^ 32) % 2 ^ 32
/-- (a - b) mod 2^64 (R317). -/
def sub64 (a b : Nat) : Nat := (a + 2 ^ 64 - b % 2 ^ 64) % 2 ^ 64

/-- The quotient rounded up. -/
def ceilDiv (a b : Nat) : Nat := (a + b - 1) / b

/-- `n` bytes of a value, least significant first (R7). -/
def bytesOf (n v : Nat) : List Byte := (List.range n).map (fun i => BitVec.ofNat 8 (v >>> (8 * i)))

/-- The value of a run of bytes, least significant first (R7). -/
def valOf (bs : List Byte) : Nat := bs.foldr (fun b acc => b.toNat + 256 * acc) 0

/-- The value of a byte string, most significant first (SHA-512, RSA: the order of their standards, R7). -/
def valBE (bs : List Byte) : Nat := bs.foldl (fun acc b => acc * 256 + b.toNat) 0

/-- `n` bytes of a value, most significant first. -/
def bytesBE (n v : Nat) : List Byte := (bytesOf n v).reverse

/-- The bytes of a list of 64-bit words (R7). -/
def bytesOfWords (ws : List Nat) : List Byte := ws.flatMap (bytesOf 8)

/-- `n` words of a run of bytes (R7); bytes past the end read zero. -/
def wordsOf (n : Nat) (bs : List Byte) : List Nat :=
  (List.range n).map (fun i => valOf ((bs.drop (8 * i)).take 8))

/-- `n` items of `k` bytes each, cut from a run of bytes. -/
def chunks (k n : Nat) (bs : List Byte) : List (List Byte) :=
  (List.range n).map (fun i => (bs.drop (k * i)).take k)

/-- `bs` padded with zero bytes to at least `n`. -/
def padTo (n : Nat) (bs : List Byte) : List Byte := bs ++ List.replicate (n - bs.length) 0

/-! ### Tables -/

/-- The value a table lists for a key. -/
def Tbl.get {κ α : Type} [DecidableEq κ] : Tbl κ α → κ → Option α
  | [], _ => none
  | (k', v) :: t, k => if k' = k then some v else Tbl.get t k

/-- The value a table lists for a key, or the value every unlisted key has. -/
def Tbl.at {κ α : Type} [DecidableEq κ] (t : Tbl κ α) (k : κ) (d : α) : α := (Tbl.get t k).getD d

/-- Lists a value for a key, in place of the one listed before. -/
def Tbl.set {κ α : Type} [DecidableEq κ] : Tbl κ α → κ → α → Tbl κ α
  | [], k, v => [(k, v)]
  | (k', v') :: t, k, v => if k' = k then (k, v) :: t else (k', v') :: Tbl.set t k v

/-- Removes a key. -/
def Tbl.del {κ α : Type} [DecidableEq κ] (t : Tbl κ α) (k : κ) : Tbl κ α := t.filter (fun e => e.1 ≠ k)

/-- Changes the value listed for a key, if one is listed. -/
def Tbl.upd {κ α : Type} [DecidableEq κ] (t : Tbl κ α) (k : κ) (f : α → α) : Tbl κ α :=
  match Tbl.get t k with
  | some v => Tbl.set t k (f v)
  | none => t

/-- Changes the value of a key, which is `d` while the key is unlisted. -/
def Tbl.updD {κ α : Type} [DecidableEq κ] (t : Tbl κ α) (k : κ) (d : α) (f : α → α) : Tbl κ α :=
  Tbl.set t k (f (Tbl.at t k d))

/-- Whether a key is listed. -/
def Tbl.has {κ α : Type} [DecidableEq κ] (t : Tbl κ α) (k : κ) : Bool := (Tbl.get t k).isSome

/-- The listed values. -/
def Tbl.vals {κ α : Type} (t : Tbl κ α) : List α := t.map (·.2)

/-- The listed keys. -/
def Tbl.keys {κ α : Type} (t : Tbl κ α) : List κ := t.map (·.1)

/-- Changes every listed value. -/
def Tbl.mapVals {κ α : Type} (t : Tbl κ α) (f : κ → α → α) : Tbl κ α := t.map (fun e => (e.1, f e.1 e.2))

/-- The entry of a list with the smallest measure; the first such on a tie. -/
def minBy? {α : Type} (f : α → Nat) : List α → Option α
  | [] => none
  | x :: xs => match minBy? f xs with
    | none => some x
    | some y => if f x ≤ f y then some x else some y

/-- The entry of a list with the largest measure; the first such on a tie. -/
def maxBy? {α : Type} (f : α → Nat) : List α → Option α
  | [] => none
  | x :: xs => match maxBy? f xs with
    | none => some x
    | some y => if f y ≤ f x then some x else some y

/-- Insertion of an element in rising order of a Boolean order. -/
def insertBy {α : Type} (le : α → α → Bool) (x : α) : List α → List α
  | [] => [x]
  | y :: ys => if le x y then x :: y :: ys else y :: insertBy le x ys

/-- A list sorted by a Boolean order; equal elements keep their order. -/
def sortBy {α : Type} (le : α → α → Bool) (l : List α) : List α := l.foldr (insertBy le) []

/-- The last `n` elements of a list: a ring that overwrites its oldest entry first. -/
def lastN {α : Type} (n : Nat) (l : List α) : List α := l.drop (l.length - n)

/-- The first element at or after index `p` of a list, wrapping around (R43). -/
def rotate {α : Type} (l : List α) (p : Nat) : List α := l.drop p ++ l.take p

end Sys2Proof.Machine
end

