-- ==== Sys2Proof/Machine/Dyadic.lean ====
section
/-! DEFINITION. Exact dyadic numbers and the number formats of the manual: BF16, FP32, FP48 (R165), E4M3 (R193),
E2M1 and E8M0 (R235). Sums and products are formed exactly and rounded where the manual says so. -/

namespace Sys2Proof.Machine
open Sys2Proof

/-- The number m * 2^e. -/
structure Dy where
  m : Int
  e : Int
deriving DecidableEq, Repr

/-- Zero. -/
def dyZero : Dy := ⟨0, 0⟩
/-- A natural number. -/
def dyNat (n : Nat) : Dy := ⟨n, 0⟩
/-- An integer. -/
def dyInt (n : Int) : Dy := ⟨n, 0⟩
/-- A power of two. -/
def dyPow2 (e : Int) : Dy := ⟨1, e⟩

/-- Exact sum. -/
def dyAdd (a b : Dy) : Dy :=
  if a.e ≤ b.e then ⟨a.m + b.m * 2 ^ (b.e - a.e).toNat, a.e⟩ else ⟨a.m * 2 ^ (a.e - b.e).toNat + b.m, b.e⟩
/-- Exact negation. -/
def dyNeg (a : Dy) : Dy := ⟨-a.m, a.e⟩
/-- Exact difference. -/
def dySub (a b : Dy) : Dy := dyAdd a (dyNeg b)
/-- Exact product. -/
def dyMul (a b : Dy) : Dy := ⟨a.m * b.m, a.e + b.e⟩
/-- Magnitude. -/
def dyAbs (a : Dy) : Dy := ⟨a.m.natAbs, a.e⟩
/-- a < b. -/
def dyLt (a b : Dy) : Bool := decide ((dySub a b).m < 0)
/-- a ≤ b. -/
def dyLe (a b : Dy) : Bool := decide ((dySub a b).m ≤ 0)
/-- a = b as numbers. -/
def dyEq (a b : Dy) : Bool := decide ((dySub a b).m = 0)
/-- The larger of two numbers. -/
def dyMax (a b : Dy) : Dy := if dyLt a b then b else a
/-- Exact sum of a list. -/
def dySum (l : List Dy) : Dy := l.foldl dyAdd dyZero
/-- The largest integer not above the number. -/
def dyFloor (a : Dy) : Int := if 0 ≤ a.e then a.m * 2 ^ a.e.toNat else Int.fdiv a.m (2 ^ (-a.e).toNat)

/-- a / 2^k rounded to the nearest integer, ties to even. -/
def rneShift (a k : Nat) : Nat :=
  let q := a >>> k
  let r := a % 2 ^ k
  if 2 * r > 2 ^ k || (2 * r == 2 ^ k && k != 0 && q % 2 == 1) then q + 1 else q

/-- A binary format: its precision in bits, its smallest exponent, its largest, and whether it has subnormals. -/
structure Fmt where
  prec : Nat
  emin : Int
  emax : Int
  sub  : Bool
deriving DecidableEq, Repr

/-- FP32. -/
def fF32 : Fmt := ⟨24, -126, 127, true⟩
/-- BF16. -/
def fBF16 : Fmt := ⟨8, -126, 127, true⟩
/-- FP48: 8-bit exponent with bias 127, 39-bit fraction, no subnormals (R165). -/
def fF48 : Fmt := ⟨40, -126, 127, false⟩
/-- E4M3: largest finite value 448. -/
def fE4M3 : Fmt := ⟨4, -6, 8, true⟩

/-- The exponent of the leading bit of a non-zero number. -/
def dyExp (a : Dy) : Int := (Nat.log2 a.m.natAbs : Int) + a.e

/-- The exponent of the last place of a number in a format. -/
def ulpExp (f : Fmt) (a : Dy) : Int := max (dyExp a) f.emin - (f.prec - 1)

/-- Rounding to nearest even in a format; the result may exceed the largest finite value (see `dyOver`). A format
without subnormals rounds below its smallest normal number to that number or to zero, whichever is nearer. -/
def dyRound (f : Fmt) (a : Dy) : Dy :=
  if a.m = 0 then dyZero else
    let q := ulpExp f a
    let r : Dy := if q ≤ a.e then a else
      ⟨a.m.sign * (rneShift a.m.natAbs (q - a.e).toNat : Int), q⟩
    if f.sub || !(dyLt (dyAbs r) (dyPow2 f.emin)) then r
    else if dyLe (dyAbs a) (dyPow2 (f.emin - 1)) then dyZero else ⟨a.m.sign, f.emin⟩

/-- Rounding of a magnitude up to a format (bf16_round_up of R193). -/
def dyRoundUp (f : Fmt) (a : Dy) : Dy :=
  if a.m ≤ 0 then dyRound f a else
    let q := ulpExp f a
    if q ≤ a.e then a else
      let k := (q - a.e).toNat
      ⟨((a.m.natAbs + 2 ^ k - 1) >>> k : Nat), q⟩

/-- The largest finite value of a format; E4M3 gives up its last code to NaN. -/
def fmtMax (f : Fmt) : Dy :=
  if f = fE4M3 then dyNat 448 else ⟨2 ^ f.prec - 1, f.emax - (f.prec - 1)⟩

/-- Whether a rounded number exceeds the largest finite value of its format: an overflow (R165). -/
def dyOver (f : Fmt) (a : Dy) : Bool := dyLt (fmtMax f) (dyAbs a)

/-- The quotient with enough bits, and a sticky last bit, that rounding it to any format here rounds the exact
quotient; zero for a zero divisor. -/
def dyDiv (a b : Dy) : Dy :=
  if b.m = 0 then dyZero else
    let k := 80 + Nat.log2 b.m.natAbs
    let n := a.m.natAbs <<< k
    let q := n / b.m.natAbs
    let st := if n % b.m.natAbs = 0 then 0 else 1
    ⟨(a.m.sign * b.m.sign) * (2 * q + st : Nat), a.e - b.e - k - 1⟩

/-- The square root with a sticky last bit, as `dyDiv`. -/
def dySqrt (a : Dy) : Dy :=
  if a.m ≤ 0 then dyZero else
    let odd : Nat := (a.e % 2).toNat
    let n := (a.m.natAbs <<< odd) <<< 160
    let r := Nat.sqrt n
    ⟨(2 * r + if r * r = n then 0 else 1 : Nat), (a.e - odd) / 2 - 80 - 1⟩

/-- The nearest integer, ties to even. -/
def dyRne (a : Dy) : Int :=
  if 0 ≤ a.e then a.m * 2 ^ a.e.toNat else a.m.sign * (rneShift a.m.natAbs (-a.e).toNat : Int)

/-! ### Encodings -/

/-- A number from a format with `eb` exponent bits and `fb` fraction bits; none for infinity and NaN. -/
def decFloat (eb fb w : Nat) : Option Dy :=
  let bias : Int := 2 ^ (eb - 1) - 1
  let s := w >>> (eb + fb) % 2
  let ex := (w >>> fb) % 2 ^ eb
  let fr := w % 2 ^ fb
  let sg : Int := if s = 1 then -1 else 1
  if ex = 2 ^ eb - 1 then none
  else if ex = 0 then some ⟨sg * fr, 1 - bias - fb⟩
  else some ⟨sg * (2 ^ fb + fr), (ex : Int) - bias - fb⟩

/-- An FP32 value. -/
def decF32 (w : Nat) : Option Dy := decFloat 8 23 w
/-- A BF16 value. -/
def decBF16 (w : Nat) : Option Dy := decFloat 8 7 w
/-- An E4M3 value: only the code of all ones is no number. -/
def decE4M3 (w : Nat) : Option Dy :=
  if w % 128 = 127 then none else
    let sg : Int := if w / 128 % 2 = 1 then -1 else 1
    let ex := w / 8 % 16
    if ex = 0 then some ⟨sg * (w % 8 : Nat), -9⟩ else some ⟨sg * (8 + w % 8 : Nat), (ex : Int) - 10⟩
/-- An E2M1 value of 4 bits (R235). -/
def decE2M1 (w : Nat) : Dy :=
  let sg : Int := if w / 8 % 2 = 1 then -1 else 1
  let ex := w / 2 % 4
  if ex = 0 then ⟨sg * (w % 2 : Nat), -1⟩ else ⟨sg * (2 + w % 2 : Nat), (ex : Int) - 2⟩

/-- The code of a number already rounded to a format with `eb` exponent bits and `fb` fraction bits. -/
def encFloat (eb fb : Nat) (a : Dy) : Nat :=
  if a.m = 0 then 0 else
    let bias : Int := 2 ^ (eb - 1) - 1
    let s := if a.m < 0 then 2 ^ (eb + fb) else 0
    let ex := max (dyExp a) (1 - bias)
    let sh := a.e - (ex - fb)
    let man := if 0 ≤ sh then a.m.natAbs <<< sh.toNat else a.m.natAbs >>> (-sh).toNat
    if man < 2 ^ fb then s + man else s + ((ex + bias).toNat <<< fb) + (man - 2 ^ fb)

/-- The FP32 code of a number rounded to FP32. -/
def encF32 (a : Dy) : Nat := encFloat 8 23 (dyRound fF32 a)
/-- The BF16 code of a number rounded to BF16. -/
def encBF16 (a : Dy) : Nat := encFloat 8 7 (dyRound fBF16 a)
/-- The E4M3 code of a number rounded to E4M3 (magnitudes up to 448). -/
def encE4M3 (a : Dy) : Nat := encFloat 4 3 (dyRound fE4M3 a)
/-- A number rounded to FP32. -/
def r32 (a : Dy) : Dy := dyRound fF32 a
/-- A number rounded to FP48. -/
def r48 (a : Dy) : Dy := dyRound fF48 a

/-! ### exp2 -/

/-- ln 2 in units of 2^-96. -/
def ln2Fix : Nat := 54916777467707473351141471128

/-- 2^f for f in units of 2^-96, 0 ≤ f < 1, in units of 2^-96: the Taylor series of e^(f ln 2), 28 terms. -/
def exp2Frac (f : Nat) : Nat :=
  let t := (f * ln2Fix) >>> 96
  ((List.range 28).foldl (fun (s : Nat × Nat) k => (s.1 + s.2, ((s.2 * t) >>> 96) / (k + 1))) (0, 2 ^ 96)).1

/-- An approximation of 2^x whose relative error lies below 2^-80. -/
def exp2Approx (x : Dy) : Dy :=
  let n := dyFloor x
  let f := dyFloor (dyMul (dySub x (dyInt n)) (dyPow2 96))
  ⟨exp2Frac f.toNat, n - 96⟩

/-- 2^x as the exp2 unit gives it in FP32: any value within the relative error 2^-22 of R162 that the free value
offers, and the nearest FP32 number where it offers none; 2^0 is 1, as R174 takes it. -/
def exp2F (x : Dy) : Dy :=
  if x.m = 0 then dyNat 1 else
  let y := exp2Approx x
  let tol := dyMul y (dyPow2 (-22))
  match decF32 (Config.exp2Pick (encF32 x)).toNat with
  | some w => if dyLe (dyAbs (dySub w y)) tol then w else r32 y
  | none => r32 y

/-- log2(e) in FP32 (R147). -/
def log2E : Dy := (decF32 0x3FB8AA3B).getD dyZero

end Sys2Proof.Machine
end

