-- ==== Sys2Proof/Machine/CodeTable.lean ====
section
/-! DEFINITION. The code of every status (R500) and event (R505), and the outcome classes of R13. -/

namespace Sys2Proof

/-- The 16-bit code of a status (R500). -/
def Status.code : Status → Nat
  | .ok => 0x0000
  | .attendTailHigh => 0x0040
  | .windowLate => 0x0060
  | .windowCancelled => 0x0061
  | .delayed => 0x1080
  | .adhAccepted => 0x10B0
  | .retryBlockBusy => 0x2020
  | .retryLeapBusy => 0x2030
  | .retryHomeMoving => 0x2031
  | .retryContended => 0x2070
  | .retryNoBuffer => 0x2071
  | .retryRingFull => 0x2090
  | .retryMergeBusy => 0x20A0
  | .retryOrderBusy => 0x20B0
  | .violation => 0x3001
  | .refusedEpochBusy => 0x3002
  | .queueState => 0x3010
  | .queueDestroyed => 0x3011
  | .chainAborted => 0x3012
  | .deadlineMissed => 0x3013
  | .contextUnloading => 0x3014
  | .rowCommitted => 0x3020
  | .tentativeLimit => 0x3021
  | .rowsMissing => 0x3022
  | .blockOpen => 0x3023
  | .blockNotOwned => 0x3024
  | .prefixMismatch => 0x3025
  | .prefixExpired => 0x3026
  | .staleEpoch => 0x3030
  | .requestMoved => 0x3031
  | .refusedVersions => 0x3050
  | .spawnSamples => 0x3051
  | .tierQuota => 0x3060
  | .windowRevoked => 0x3070
  | .flagOrder => 0x3071
  | .triggerExpired => 0x3072
  | .msgTooLong => 0x3073
  | .refusedCapacity => 0x3080
  | .refusedQuota => 0x3081
  | .submitWithdrawn => 0x3082
  | .requestStopped => 0x3090
  | .searchSnapshot => 0x30A0
  | .orderStale => 0x30B0
  | .orderExpired => 0x30B1
  | .descCheck => 0x4020
  | .planeCheck => 0x4021
  | .attendCheck => 0x4040
  | .partialCheck => 0x4041
  | .codebookCheck => 0x4050
  | .tileCheck => 0x4060
  | .memUncorrectable => 0x4061
  | .packetCheck => 0x4070
  | .msgCheck => 0x4071
  | .gateListCheck => 0x4080
  | .orderSignature => 0x40B0
  | .mailboxCheck => 0x40B1
  | .checkMismatch => 0x40C0
  | .ledgerBreak => 0x40C1
  | .orphanLost => 0x5030
  | .codebookMissing => 0x5050
  | .tierLate => 0x5060
  | .tierFailed => 0x5061
  | .targetDead => 0x5070
  | .msgTimeout => 0x5071
  | .searchPartial => 0x50A0
  | .engineFault => 0x6001
  | .noEngine => 0x6002
  | .invalidField => 0x7001
  | .queueOverrun => 0x7010
  | .cmdNotReady => 0x7011
  | .contextUnbound => 0x7012
  | .reprTransition => 0x7020
  | .attendQuery => 0x7040
  | .attendNoKeys => 0x7041
  | .encodeInput => 0x7050
  | .tileFormat => 0x7060
  | .stopSpec => 0x7090
  | .adhVersion => 0x70B0

/-- Every status the part returns, in the order of R500. -/
def Status.all : List Status :=
  [.ok, .attendTailHigh, .windowLate, .windowCancelled, .delayed, .adhAccepted,
   .retryBlockBusy, .retryLeapBusy, .retryHomeMoving, .retryContended, .retryNoBuffer, .retryRingFull,
   .retryMergeBusy, .retryOrderBusy, .violation, .refusedEpochBusy, .queueState, .queueDestroyed,
   .chainAborted, .deadlineMissed, .contextUnloading, .rowCommitted, .tentativeLimit, .rowsMissing,
   .blockOpen, .blockNotOwned, .prefixMismatch, .prefixExpired, .staleEpoch, .requestMoved,
   .refusedVersions, .spawnSamples, .tierQuota, .windowRevoked, .flagOrder, .triggerExpired,
   .msgTooLong, .refusedCapacity, .refusedQuota, .submitWithdrawn, .requestStopped, .searchSnapshot,
   .orderStale, .orderExpired, .descCheck, .planeCheck, .attendCheck, .partialCheck,
   .codebookCheck, .tileCheck, .memUncorrectable, .packetCheck, .msgCheck, .gateListCheck,
   .orderSignature, .mailboxCheck, .checkMismatch, .ledgerBreak, .orphanLost, .codebookMissing,
   .tierLate, .tierFailed, .targetDead, .msgTimeout, .searchPartial, .engineFault,
   .noEngine, .invalidField, .queueOverrun, .cmdNotReady, .contextUnbound, .reprTransition,
   .attendQuery, .attendNoKeys, .encodeInput, .tileFormat, .stopSpec, .adhVersion]

/-- The outcome class, bits [15:12] of the code (R13). -/
def Status.cls (st : Status) : Nat := st.code / 4096

/-- Whether the status lies in the Done class (R13). -/
def Status.isDone (st : Status) : Bool := st.cls == 0

/-- The status a 16-bit code names, if the part returns it (R500). -/
def Status.ofCode (c : Nat) : Option Status := Status.all.find? (fun st => st.code == c)

/-- The 16-bit code of an event (R505). -/
def Ev.code : Ev → Nat
  | .hubMiscompare => 0x1001
  | .queueError => 0x1002
  | .dieFenced => 0x1801
  | .engineFault => 0x1802
  | .descCheck => 0x2001
  | .planeCheck => 0x2002
  | .leapAborted => 0x2003
  | .leaseLapsed => 0x2004
  | .orphanRecovered => 0x2005
  | .homeTakeover => 0x2006
  | .homeMirrorDone => 0x2007
  | .attendCheck => 0x3001
  | .codebookDrift => 0x3002
  | .spawnDone => 0x3003
  | .codebookSwitch => 0x3004
  | .moltDone => 0x3005
  | .codebookRetired => 0x3006
  | .codebookCheck => 0x3007
  | .dramError => 0x4001
  | .flashError => 0x4002
  | .tileCheck => 0x4003
  | .windowLate => 0x4004
  | .dramRepair => 0x4801
  | .flashBlockRetired => 0x4802
  | .linkVersion => 0x5001
  | .portUp => 0x5002
  | .timeLocked => 0x5003
  | .timeUnlocked => 0x5004
  | .grandmasterChange => 0x5005
  | .laneDown => 0x5006
  | .portWidth => 0x5801
  | .portDown => 0x5802
  | .targetDead => 0x6001
  | .msgTimeout => 0x6002
  | .pathDown => 0x6801
  | .pathUp => 0x6802
  | .gateTakeover => 0x7001
  | .gateFallback => 0x7002
  | .admitStale => 0x7003
  | .streamBlocked => 0x7004
  | .bridgeTakeover => 0x7005
  | .indexMerged => 0x8001
  | .searchVector => 0x8002
  | .indexMirrorLost => 0x8003
  | .adeahFailover => 0x9001
  | .orderApplied => 0x9002
  | .violation => 0x9003
  | .croakLost => 0x9004
  | .croakPlane => 0x9005
  | .memberDown => 0xA001
  | .protStraggler => 0xA002
  | .recoveryDone => 0xA003
  | .ledgerBreak => 0xA004
  | .ledgerRebuilt => 0xA005
  | .spareUsed => 0xA801
  | .capacityReduced => 0xA802
  | .vinRange => 0xB001
  | .thermalWarn => 0xB002
  | .safeStorm => 0xB003
  | .safeStuck => 0xB004
  | .ppsAcquired => 0xB005
  | .ppsLost => 0xB006
  | .nodeJoined => 0xB007
  | .joinFailed => 0xB008
  | .throttle => 0xB801

/-- Every event the part raises, in the order of R505. -/
def Ev.all : List Ev :=
  [.hubMiscompare, .queueError, .dieFenced, .engineFault, .descCheck, .planeCheck,
   .leapAborted, .leaseLapsed, .orphanRecovered, .homeTakeover, .homeMirrorDone, .attendCheck,
   .codebookDrift, .spawnDone, .codebookSwitch, .moltDone, .codebookRetired, .codebookCheck,
   .dramError, .flashError, .tileCheck, .windowLate, .dramRepair, .flashBlockRetired,
   .linkVersion, .portUp, .timeLocked, .timeUnlocked, .grandmasterChange, .laneDown,
   .portWidth, .portDown, .targetDead, .msgTimeout, .pathDown, .pathUp,
   .gateTakeover, .gateFallback, .admitStale, .streamBlocked, .bridgeTakeover, .indexMerged,
   .searchVector, .indexMirrorLost, .adeahFailover, .orderApplied, .violation, .croakLost,
   .croakPlane, .memberDown, .protStraggler, .recoveryDone, .ledgerBreak, .ledgerRebuilt,
   .spareUsed, .capacityReduced, .vinRange, .thermalWarn, .safeStorm, .safeStuck,
   .ppsAcquired, .ppsLost, .nodeJoined, .joinFailed, .throttle]

end Sys2Proof
end

