-- ==== Sys2Proof/Machine/Crypto.lean ====
section
/-! DEFINITION. The check codes and cryptography the manual names: CRC-64 (R7), SHA-512 (R395 and others), HMAC,
RSASSA-PSS and RSAES-OAEP with a 4,096-bit modulus and exponent 65,537 (R398, R405), and the erasure code's field
GF(2^8) with the polynomial 0x11D (R431). -/

namespace Sys2Proof.Machine
open Sys2Proof

/-! ### CRC-64 -/

/-- One bit of the CRC-64 register, most significant bit first, polynomial 0x42F0E1EBA9EA3693. -/
def crcBit (c : Nat) : Nat :=
  if c.testBit 63 then ((c <<< 1) % 2 ^ 64) ^^^ 0x42F0E1EBA9EA3693 else (c <<< 1) % 2 ^ 64

/-- One byte into the CRC-64 register. -/
def crcByte (c : Nat) (b : Byte) : Nat :=
  let c0 := c ^^^ (b.toNat <<< 56)
  crcBit (crcBit (crcBit (crcBit (crcBit (crcBit (crcBit (crcBit c0)))))))

/-- The CRC-64 register after a run of bytes, from a register value. -/
def crcFrom (c : Nat) (bs : List Byte) : Nat := bs.foldl crcByte c

/-- CRC-64 of a byte string: initial value zero, nothing reflected or inverted. -/
def crc64 (bs : List Byte) : Nat := crcFrom 0 bs

/-! ### SHA-512 -/

/-- The first forty round constants of SHA-512: the cube roots of the first primes. -/
def shaK0 : List Nat := [
   0x428A2F98D728AE22, 0x7137449123EF65CD, 0xB5C0FBCFEC4D3B2F, 0xE9B5DBA58189DBBC,
   0x3956C25BF348B538, 0x59F111F1B605D019, 0x923F82A4AF194F9B, 0xAB1C5ED5DA6D8118,
   0xD807AA98A3030242, 0x12835B0145706FBE, 0x243185BE4EE4B28C, 0x550C7DC3D5FFB4E2,
   0x72BE5D74F27B896F, 0x80DEB1FE3B1696B1, 0x9BDC06A725C71235, 0xC19BF174CF692694,
   0xE49B69C19EF14AD2, 0xEFBE4786384F25E3, 0x0FC19DC68B8CD5B5, 0x240CA1CC77AC9C65,
   0x2DE92C6F592B0275, 0x4A7484AA6EA6E483, 0x5CB0A9DCBD41FBD4, 0x76F988DA831153B5,
   0x983E5152EE66DFAB, 0xA831C66D2DB43210, 0xB00327C898FB213F, 0xBF597FC7BEEF0EE4,
   0xC6E00BF33DA88FC2, 0xD5A79147930AA725, 0x06CA6351E003826F, 0x142929670A0E6E70,
   0x27B70A8546D22FFC, 0x2E1B21385C26C926, 0x4D2C6DFC5AC42AED, 0x53380D139D95B3DF,
   0x650A73548BAF63DE, 0x766A0ABB3C77B2A8, 0x81C2C92E47EDAEE6, 0x92722C851482353B]

/-- The last forty round constants of SHA-512. -/
def shaK1 : List Nat := [
   0xA2BFE8A14CF10364, 0xA81A664BBC423001, 0xC24B8B70D0F89791, 0xC76C51A30654BE30,
   0xD192E819D6EF5218, 0xD69906245565A910, 0xF40E35855771202A, 0x106AA07032BBD1B8,
   0x19A4C116B8D2D0C8, 0x1E376C085141AB53, 0x2748774CDF8EEB99, 0x34B0BCB5E19B48A8,
   0x391C0CB3C5C95A63, 0x4ED8AA4AE3418ACB, 0x5B9CCA4F7763E373, 0x682E6FF3D6B2B8A3,
   0x748F82EE5DEFB2FC, 0x78A5636F43172F60, 0x84C87814A1F0AB72, 0x8CC702081A6439EC,
   0x90BEFFFA23631E28, 0xA4506CEBDE82BDE9, 0xBEF9A3F7B2C67915, 0xC67178F2E372532B,
   0xCA273ECEEA26619C, 0xD186B8C721C0C207, 0xEADA7DD6CDE0EB1E, 0xF57D4F7FEE6ED178,
   0x06F067AA72176FBA, 0x0A637DC5A2C898A6, 0x113F9804BEF90DAE, 0x1B710B35131C471B,
   0x28DB77F523047D84, 0x32CAAB7B40C72493, 0x3C9EBE0A15C9BEBC, 0x431D67C49C100D4C,
   0x4CC5D4BECB3E42B6, 0x597F299CFC657E2A, 0x5FCB6FAB3AD6FAEC, 0x6C44198C4A475817]

/-- The initial hash value of SHA-512. -/
def shaH0 : List Nat := [
   0x6A09E667F3BCC908, 0xBB67AE8584CAA73B, 0x3C6EF372FE94F82B, 0xA54FF53A5F1D36F1,
   0x510E527FADE682D1, 0x9B05688C2B3E6C1F, 0x1F83D9ABFB41BD6B, 0x5BE0CD19137E2179]

/-- Rotation of a 64-bit word to the right. -/
def rotr (x n : Nat) : Nat := (x >>> n) ||| ((x <<< (64 - n)) % 2 ^ 64)

/-- The message schedule, newest word first, grown by `n` words from the sixteen of a block. -/
def shaSchedule : Nat → List Nat → List Nat
  | 0, w => w
  | n + 1, w =>
    let x15 := w.getD 14 0
    let x2 := w.getD 1 0
    let s0 := rotr x15 1 ^^^ rotr x15 8 ^^^ (x15 >>> 7)
    let s1 := rotr x2 19 ^^^ rotr x2 61 ^^^ (x2 >>> 6)
    shaSchedule n (u64 (w.getD 15 0 + s0 + w.getD 6 0 + s1) :: w)

/-- One round over the working variables a to h, with the round's constant and schedule word. -/
def shaRound (v : List Nat) (kw : Nat × Nat) : List Nat :=
  match v with
  | [a, b, c, d, e, f, g, h] =>
    let s1 := rotr e 14 ^^^ rotr e 18 ^^^ rotr e 41
    let ch := (e &&& f) ^^^ ((2 ^ 64 - 1 - e) &&& g)
    let t1 := h + s1 + ch + kw.1 + kw.2
    let s0 := rotr a 28 ^^^ rotr a 34 ^^^ rotr a 39
    let mj := (a &&& b) ^^^ (a &&& c) ^^^ (b &&& c)
    [u64 (t1 + s0 + mj), a, b, c, u64 (d + t1), e, f, g]
  | _ => v

/-- One 128-byte block into the hash value. -/
def shaBlock (h : List Nat) (blk : List Byte) : List Nat :=
  let w := ((chunks 8 16 blk).map valBE).reverse
  let sch := (shaSchedule 64 w).reverse
  let v := ((shaK0 ++ shaK1).zip sch).foldl shaRound h
  List.zipWith (fun x y => u64 (x + y)) h v

/-- SHA-512 of a byte string: 64 bytes, most significant byte of each word first. -/
def sha512 (m : List Byte) : List Byte :=
  let zeros := (128 - (m.length + 17) % 128) % 128
  let p := m ++ [0x80#8] ++ List.replicate zeros 0#8 ++ bytesBE 16 (8 * m.length)
  ((chunks 128 (p.length / 128) p).foldl shaBlock shaH0).flatMap (bytesBE 8)

/-- HMAC-SHA-512. -/
def hmacSha512 (key m : List Byte) : List Byte :=
  let k := padTo 128 (if key.length > 128 then sha512 key else key)
  sha512 (k.map (· ^^^ 0x5C#8) ++ sha512 (k.map (· ^^^ 0x36#8) ++ m))

/-- The bytewise exclusive or. -/
def xorBytes (a b : List Byte) : List Byte := List.zipWith (· ^^^ ·) a b

/-! ### RSA (RFC 8017) -/

/-- The mask generation function over SHA-512. -/
def mgf1 (seed : List Byte) (len : Nat) : List Byte :=
  ((List.range ((len + 63) / 64)).flatMap (fun i => sha512 (seed ++ bytesBE 4 i))).take len

/-- b^e mod n by squaring, over `k` bits of e. -/
def powModBits : Nat → Nat → Nat → Nat → Nat
  | 0, _, _, n => 1 % n
  | k + 1, b, e, n =>
    let r := powModBits k (b * b % n) (e / 2) n
    if e % 2 = 1 then r * b % n else r

/-- The public operation: x^65537 mod n. -/
def rsaPublic (n x : Nat) : Nat := powModBits 17 x 65537 n

/-- RSASSA-PSS verification with SHA-512, a 64-byte salt and a 512-byte modulus. -/
def pssVerify (modulus : Nat) (msg sig : List Byte) : Bool :=
  let em := bytesBE 512 (rsaPublic modulus (valBE sig))
  let mDb := em.take 447
  let h := (em.drop 447).take 64
  let tail := em.drop 511
  let db := xorBytes mDb (mgf1 h 447)
  let db := match db with | b :: bs => (b &&& 0x7F#8) :: bs | [] => []
  let salt := db.drop 383
  decide (modulus ≠ 0) && sig.length == 512 && decide (valBE sig < modulus) &&
    tail == [0xBC#8] && ((mDb.headD 0#8) &&& 0x80#8) == 0#8 &&
    db.take 383 == List.replicate 382 0#8 ++ [0x01#8] &&
    sha512 (List.replicate 8 0#8 ++ sha512 msg ++ salt) == h

/-- RSAES-OAEP encryption with SHA-512 and an empty label, of a message under a 64-byte seed. -/
def oaepEncrypt (modulus : Nat) (seed msg : List Byte) : List Byte :=
  let db := sha512 [] ++ List.replicate (512 - msg.length - 130) 0#8 ++ [0x01#8] ++ msg
  let mDb := xorBytes db (mgf1 seed 447)
  let mSeed := xorBytes seed (mgf1 mDb 64)
  bytesBE 512 (rsaPublic modulus (valBE ([0#8] ++ mSeed ++ mDb)))

/-! ### The erasure code (R431) -/

/-- Twice an element of GF(2^8). -/
def gfDouble (b : Nat) : Nat := if b ≥ 128 then ((2 * b) % 256) ^^^ 0x1D else 2 * b

/-- The product in GF(2^8), over the low `k` bits of the first factor. -/
def gfMulBits : Nat → Nat → Nat → Nat
  | 0, _, _ => 0
  | k + 1, a, b => (if a % 2 = 1 then b else 0) ^^^ gfMulBits k (a / 2) (gfDouble b)

/-- The product in GF(2^8). -/
def gfMul (a b : Nat) : Nat := gfMulBits 8 a b

/-- A power of an element of GF(2^8). -/
def gfPow (a : Nat) : Nat → Nat
  | 0 => 1
  | n + 1 => gfMul a (gfPow a n)

/-- The reciprocal of a non-zero element of GF(2^8). -/
def gfInv (a : Nat) : Nat := gfPow a 254

/-- A shard scaled by an element. -/
def gfScale (a : Nat) (bs : List Byte) : List Byte := bs.map (fun b => BitVec.ofNat 8 (gfMul a b.toNat))

end Sys2Proof.Machine
end

