-- ==== Sys2Proof/Machine/PacketOps.lean ====
section
/-! DEFINITION. The header words of a packet, its check value and its answer (R285, R286, R290). -/

namespace Sys2Proof
open Sys2Proof.Machine

/-- The packet type codes of R286. -/
def PktType.code : PktType → Nat
  | .load => 1 | .store => 2 | .storeFlag => 3 | .cas => 4 | .fetchAdd => 5 | .swap => 6 | .write => 7 | .read => 8
  | .sendData => 9 | .msgCtrl => 10 | .unlisted c => c

/-- Header words 0 to 4 of a packet (R285). -/
def Packet.head (p : Packet) : List Nat :=
  [mkWord [(60, 4, p.ty.code), (59, 1, b2n p.resp), (56, 3, p.tc), (44, 12, p.dst), (32, 12, p.src), (24, 8, p.srcVi),
     (18, 6, p.srcEp), (14, 4, p.path), (10, 4, p.hops)],
   u64 p.addr, mkWord [(32, 32, p.tag), (16, 16, p.winGen), (0, 12, p.winId)], u64 p.operand,
   mkWord [(48, 16, p.status), (35, 13, p.payloadLen), (34, 1, b2n p.casHit), (0, 32, p.msgId)]]

/-- The check value of a packet: header bytes 0 to 39 and the payload (R285). -/
def Packet.crcOf (p : Packet) : Nat := crc64 (bytesOfWords p.head ++ p.payload)
/-- A packet with its check value. -/
def Packet.sealed (p : Packet) : Packet := { p with crc := p.crcOf }
/-- Whether a packet's check value verifies (R288). -/
def Packet.crcOk (p : Packet) : Bool := p.crc == p.crcOf
/-- Credit units of a packet (R285). -/
def Packet.units (p : Packet) : Nat := ceilDiv (48 + p.payload.length) 64

/-- The response to a request packet (R286, R290): a status other than ST_OK returns 0xFF in every line. -/
def Packet.answer (p : Packet) (st : Status) (data : List Byte) (hit : Bool) : Packet :=
  { ty := p.ty, resp := true, tc := p.tc, dst := p.src, src := p.dst, srcVi := p.srcVi, srcEp := p.srcEp, path := p.path,
    hops := 0, addr := p.addr, tag := p.tag, winGen := p.winGen, winId := p.winId, operand := 0, status := st.code,
    payloadLen := data.length, casHit := hit, msgId := p.msgId, crc := 0,
    payload := if st = .ok then data else data.map (fun _ => 0xFF#8) : Packet }.sealed

/-- The packet type of a code (R286). -/
def PktType.ofCode (c : Nat) : PktType :=
  if c = 1 then .load else if c = 2 then .store else if c = 3 then .storeFlag else if c = 4 then .cas else if c = 5 then .fetchAdd
  else if c = 6 then .swap else if c = 7 then .write else if c = 8 then .read else if c = 9 then .sendData
  else if c = 10 then .msgCtrl else .unlisted c

/-- A packet's header and payload as bytes, filled up to whole 16-byte units (R254, R285). -/
def Packet.bytes (p : Packet) : List Byte :=
  let bs := bytesOfWords (p.head ++ [u64 p.crc]) ++ p.payload
  padTo (ceilDiv bs.length 16 * 16) bs

/-- Payload bytes that follow a header: none in a READ request, whose `payload_len` is what it asks for (R285). -/
def carriedLen (w : List Nat) : Nat :=
  if fld w 0 63 60 = 8 ∧ fld w 0 59 59 = 0 then 0 else fld w 4 47 35

/-- A packet from its header words and payload (R285). -/
def Packet.ofWords (w : List Nat) (payload : List Byte) : Packet :=
  { ty := PktType.ofCode (fld w 0 63 60), resp := fld w 0 59 59 == 1, tc := fld w 0 58 56, dst := fld w 0 55 44, src := fld w 0 43 32,
    srcVi := fld w 0 31 24, srcEp := fld w 0 23 18, path := fld w 0 17 14, hops := fld w 0 13 10, addr := word w 1,
    tag := fld w 2 63 32, winGen := fld w 2 31 16, winId := fld w 2 11 0, operand := word w 3, status := fld w 4 63 48,
    payloadLen := fld w 4 47 35, casHit := fld w 4 34 34 == 1, msgId := fld w 4 31 0, crc := word w 5, payload := payload }

/-- The first whole packet of a byte stream, with the bytes after its last 16-byte unit. -/
def Packet.take? (bs : List Byte) : Option (Packet × List Byte) :=
  if bs.length < 48 then none else
    let w := wordsOf 6 bs
    let n := 48 + carriedLen w
    if bs.length < ceilDiv n 16 * 16 then none
    else some (Packet.ofWords w ((bs.drop 48).take (carriedLen w)), bs.drop (ceilDiv n 16 * 16))

/-- The header word of a flit (R254). -/
def Flit.head (f : Flit) : Nat :=
  mkWord [(61, 3, f.ftype), (58, 3, f.vc), (53, 5, f.firstUnit), (41, 12, f.seq), (29, 12, f.ackSeq), (28, 1, b2n f.nak),
    (24, 4, f.pool), (0, 24, f.total)]

/-- The check value of a flit: its bytes 0 to 503 (R254). -/
def Flit.crcOf (f : Flit) : Nat := crc64 (bytesOfWords [f.head] ++ (padTo 496 f.payload).take 496)
/-- A flit with its check value. -/
def Flit.sealed (f : Flit) : Flit := { f with crc := f.crcOf }

end Sys2Proof
end

