-- ==== Sys2Proof/Machine/State.lean ====
section
/-! DEFINITION. The state of one Rongar node as plain data, the reasons a step can stop, and the state at reset.
A field's default is its value at reset; `notes/assumptions` 2 names those the manual does not give. -/

namespace Sys2Proof.Machine
open Sys2Proof

/-! ### Power, pins and start-up (chapter 17) -/

/-- The supply, the discrete pins and the throttle (R475 to R483, R497). -/
structure Power where
  /-- VIN at VIN_SENSE in mV, as last watched (R475). -/
  vin : Nat := 56000
  /-- The lowest or highest VIN seen since the warning zone was entered. -/
  vinWorst : Nat := 0
  /-- Whether VIN stands in a warning zone (R475, middle row). -/
  vinWarn : Bool := false
  /-- Whether the converters run. -/
  converters : Bool := true
  /-- After a VIN shutdown or a thermal trip: off until PWRGD has been deasserted and asserted again. -/
  latchOff : Bool := false
  /-- PWRGD as recognised, and the always-on time of its last change (R478). -/
  pwrgd : Bool := true
  pwrgdAt : Nat := 0
  /-- Whether a power-down runs, and a high PWRGD recognised meanwhile (R478, R495). -/
  downRunning : Bool := false
  pwrgdPend : Bool := false
  /-- RESET_N as recognised (true: high), and whether the internal reset is held (R479). -/
  resetHigh : Bool := true
  resetHeld : Bool := false
  /-- Whether REFCLK is within its limits since the last reset (R477). -/
  refclk : Bool := true
  /-- The latched thermal trip: THERMTRIP_N low (R483). -/
  tripped : Bool := false
  /-- The reset cause (R493). -/
  cause : Nat := 1
  /-- SAFE_N as recognised (true: asserted), the time of its last change, the assertions of the last second, the
  storm, and the next time EV_SAFE_STUCK is due (R480). -/
  safeLow : Bool := false
  safeAt : Nat := 0
  safeHist : List Nat := []
  safeStorm : Bool := false
  safeStuckAt : Nat := 0
  safeStuck : Bool := false
  /-- The throttle step each cause requires, and when each last changed (R497). -/
  stepTemp : Nat := 0
  stepTempAt : Nat := 0
  stepPower : Nat := 0
  stepPowerAt : Nat := 0
  stepSafe : Nat := 0
  stepSafeAt : Nat := 0
  /-- When EV_THROTTLE was last raised (R497). -/
  throttleEvAt : Nat := 0
  /-- The last known die temperatures in °C and the input power in W. -/
  temps : Tbl Nat Nat := []
  watts : Nat := 0
  /-- ALERT_N low; the time its last cause ended; capacity lost since the last ADH_HEALTH_STATUS (R482). -/
  alertLow : Bool := false
  alertEndAt : Nat := 0
  capLost : Bool := false
deriving DecidableEq, Repr

/-- What the TAP drives on the contacts (R484). -/
inductive JtagMode where
  /-- Normal operation: the contacts carry their own signals. -/
  | functional
  /-- The boundary register drives the outputs. -/
  | extest
  /-- The AC pulse test of IEEE 1149.6. -/
  | extestPulse
  /-- The AC train test of IEEE 1149.6. -/
  | extestTrain
  /-- Outputs in high impedance. -/
  | highz
  /-- Outputs held by the boundary register, with the bypass register selected. -/
  | clamp
deriving DecidableEq, Repr

/-- The data register the TAP has selected. -/
inductive JtagReg where
  /-- The 32-bit identification register. -/
  | idcode
  /-- The 4,078-cell boundary register. -/
  | boundary
  /-- The one-bit bypass register. -/
  | bypass
deriving DecidableEq, Repr

/-- The test access port (R484). -/
structure Jtag where
  ir : Nat := 1
  reg : JtagReg := .idcode
  mode : JtagMode := .functional
  /-- The boundary register's cells as captured and as preloaded, as one number of 4,078 bits each. -/
  sampled : Nat := 0
  preload : Nat := 0
deriving DecidableEq, Repr

/-- The recovery loader (R414). -/
structure Recovery where
  running : Bool := false
  reason : Nat := 0
  attempts : Nat := 0
  solicitAt : Nat := 0
  /-- The staged image: block offsets with their bytes. -/
  blocks : Tbl Nat (List Byte) := []
deriving DecidableEq, Repr

/-- A firmware image's header facts (R411). -/
structure ImageInfo where
  svn : Nat := 0
  adhVersions : Nat := 0
  digest : List Byte := []
  build : List Byte := []
deriving DecidableEq, Repr

/-- Start-up (R411 to R416, R489 to R492). -/
structure Boot where
  /-- The always-on time of t0 (R491). -/
  t0 : Nat := 10000000
  /-- The SPI NOR image slot, as bytes. -/
  spiImage : List Byte := []
  /-- Per MG die (0, 1): reads tried, and whether the ROM accepted the image and Adeah runs. -/
  tries : Tbl Nat Nat := []
  accepted : Tbl Nat Bool := []
  image : ImageInfo := {}
  /-- Blown fuses of the 64-fuse field: the minimum security version; whether the next boot raises it (R415). -/
  svnMin : Nat := 0
  raiseSvn : Bool := false
  recovery : Recovery := {}
  /-- Boots since manufacture, held in the trust sector (R418, R488). -/
  bootCount : Nat := 0
  /-- Hard repairs that await the next training (R231, R488): channel and row. -/
  hardRepairs : List (Nat × Nat) := []
  /-- Dies whose self-test ended, DRAM channels whose training ended, flash dies whose rebuild ended (R491). -/
  selfTested : List Nat := []
  trainEnded : List Nat := []
  nandEnded : List Nat := []
  /-- Joined (R492), when EV_JOIN_FAILED was last raised, and the start-up steps over their limits (R491). -/
  joined : Bool := false
  joinFailAt : Nat := 0
  overSteps : List Nat := []
  /-- The personality in force and the one for the next reset: 1 prompt, 2 generation, 3 cache; 0 none (R4, R489). -/
  personality : Nat := 0
  personalityNext : Nat := 0
  /-- The interleave in force and the one for the next reset, in bytes per channel (R283). -/
  interleave : Nat := 4294967296
  interleaveNext : Nat := 4294967296
  /-- The SRAM tier's size in bytes per hub, and the flash over-provisioning in units of 1/256 (R216, R233). -/
  sramTier : Nat := 16777216
  flashOp : Nat := 32
  /-- An ordered reset's time (R495). -/
  resetAt : Option Nat := none
deriving DecidableEq, Repr

/-! ### The package (chapter 2) -/

/-- A packet that waits at its egress port, and since when. -/
structure TxPkt where
  port : Nat := 0
  pkt : Packet := {}
  at_ : Nat := 0
deriving DecidableEq, Repr

/-- A bulk transfer a hub holds unacknowledged (R51). -/
structure Bulk where
  hub : Nat := 0
  sentAt : Nat := 0
  /-- Credit units or descriptors booked as in transit with it. -/
  units : Nat := 0
  /-- What the transfer writes at the far side of the bridge. -/
  addr : Nat := 0
  data : List Byte := []
deriving DecidableEq, Repr

/-- A hub's state area (R48): the MC die and channel parity that hold it, and a copy in progress. -/
structure Area where
  die : Nat := 0
  odd : Bool := false
  lost : Bool := false
  copyStart : Option Nat := none
deriving DecidableEq, Repr

/-- Dies, hubs and arbiters (R37 to R56). -/
structure Package where
  /-- Fenced dies, numbered as R502 numbers them. -/
  fenced : List Nat := []
  /-- MC dies whose compute is retired, and the tiles and spares in service on each MC die (R55, R446). -/
  compRetired : List Nat := []
  tiles : Tbl Nat Nat := []
  tileSpares : Tbl Nat Nat := []
  /-- DRAM channels that trained, and those lost since; flash channels populated, and those lost (R55, R486). -/
  dramUp : List Nat := []
  dramLost : List Nat := []
  dimmGiB : Tbl Nat Nat := []
  /-- The data rate every populated channel runs at, in MT/s (R485). -/
  dramRate : Nat := 0
  flashUp : List Nat := []
  flashLost : List Nat := []
  /-- The fabric time of the last epoch boundary (R44). -/
  epoch : Option Nat := none
  /-- The pointers that have moved since, of the package's arbiters, by arbiter index (R43, R44). -/
  ptrs : Tbl Nat Nat := []
  /-- The hub round: its number, the outputs it holds back, and the digest of those outputs (R46, R47). -/
  round : Nat := 0
  heldOut : List TxPkt := []
  digest : Nat := 0
  /-- Whether the two hubs' digests differed once in this round, so that it was executed again (R49). -/
  reExecuted : Bool := false
  areas : Tbl Nat Area := []
  bulk : Tbl Nat Bulk := []
  bulkApplied : List Nat := []
  /-- The package is out of service: both dies of one pair are lost (R49, R56). -/
  outOfService : Bool := false
deriving DecidableEq, Repr

/-! ### Virtual interfaces, queues and engines (chapter 3) -/

/-- A VI's rights record (R402). -/
structure Rights where
  compositions : List Nat := []
  models : List Nat := []
  maxPriority : Nat := 0
  /-- Six scheduling shares, Mover first. -/
  shares : List Nat := []
  sources : List SrcId := []
  /-- Bit 0 OPERATOR, 1 TRAFFIC, 2 SUBMIT, 3 INDEX, 4 STREAM. -/
  bits : Nat := 0
deriving DecidableEq, Repr

/-- One region table entry (R64); `rights` holds the bits rd 0, wr 1, atom 2, ring 3, kv 4, wt 5, idx 6, tok 7. -/
structure Region where
  base : Nat := 0
  limit : Nat := 0
  owner : Nat := 0
  valid : Bool := false
  rights : Nat := 0
deriving DecidableEq, Repr

/-- The states of a VI (R59). -/
inductive ViState where
  /-- Not assigned. -/
  | unassigned
  /-- Assigned: doorbells accepted. -/
  | active
  /-- Being released. -/
  | quiescing
deriving DecidableEq, Repr

/-- One VI counter of the performance page (R461). -/
structure ViCounter where
  event : Nat := 0
  queueMask : Nat := 0
  selectSeq : Nat := 0
  frozen : Bool := false
  count : Nat := 0
  snapCount : Nat := 0
  snapTime : Nat := 0
deriving DecidableEq, Repr

/-- A ring Adeah or a unit writes records to: its base, log2 of its entries, its tail line, and the records written;
the head line lies at the tail line + 64 (R397, R467). -/
structure Ring where
  base : Nat := 0
  log2 : Nat := 0
  tail : Nat := 0
  written : Nat := 0
deriving DecidableEq, Repr

/-- Command sampling of a VI (R467, R468). -/
structure Sampling where
  ring : Option Ring := none
  node : Bool := false
  /-- The intervals N_c, the offsets o and the fetched counts, by class. -/
  intervals : Tbl Nat Nat := []
  offsets : Tbl Nat Nat := []
  counts : Tbl Nat Nat := []
  written : Nat := 0
  dropped : Nat := 0
  lost : Nat := 0
deriving DecidableEq, Repr

/-- A virtual interface (R58 to R66, R84). -/
structure Vi where
  st : ViState := .unassigned
  rights : Rights := {}
  fmtSelect : Nat := 2
  regionGen : Nat := 0
  regions : Tbl Nat Region := []
  /-- Context index to package context slot (R79). -/
  ctxMap : Tbl Nat Nat := []
  /-- Accounting counters, by (class, k) (R84). -/
  acct : Tbl (Nat × Nat) Nat := []
  releaseOp : Option OpRef := none
  asyncRing : Option Ring := none
  /-- Records the async ring has no room for yet (R397). -/
  asyncWait : List (List Nat) := []
  subscribed : List Nat := []
  perf : Tbl Nat ViCounter := []
  snapSeq : Nat := 0
  /-- Capture operations issued (R464). -/
  snapIssued : Nat := 0
  sampling : Sampling := {}
  /-- Trigger counters (R314). -/
  triggers : Tbl Nat Nat := []
  /-- Violations charged in the current and the previous whole second, and the second (R409). -/
  violSec : Nat := 0
  violCount : Nat := 0
  violPrev : Nat := 0
deriving DecidableEq, Repr

/-- A queue's states (R74). -/
inductive QState where
  /-- Never created or destroyed. -/
  | disabled
  /-- In service. -/
  | active
  /-- Being destroyed. -/
  | draining
  /-- Stopped by an error. -/
  | error
deriving DecidableEq, Repr

/-- The key of a queue: VI, class code, queue number. -/
abbrev QKey := Nat × Nat × Nat

/-- A command whose `seq` did not match: its index, the re-reads made, and when the next is due (R73). -/
structure Reread where
  index : Nat := 0
  tries : Nat := 0
  due : Nat := 0
deriving DecidableEq, Repr

/-- A queue (R69 to R74). -/
structure Queue where
  st : QState := .disabled
  reason : Nat := 0
  ringBase : Nat := 0
  ringLog2 : Nat := 0
  cplBase : Nat := 0
  priority : Nat := 0
  phaseG : Bool := false
  inst : Option Nat := none
  notifyAddr : Nat := 0
  fmt : Nat := 0
  cmdTail : Nat := 0
  cmdHead : Nat := 0
  cplTail : Nat := 0
  cplHead : Nat := 0
  /-- Doorbell acceptances: the `cmd_tail` each set and its time (R76). -/
  accepts : List (Nat × Nat) := []
  reread : Option Reread := none
  destroyOp : Option OpRef := none
  destroyHead : Nat := 0
  resetOp : Option (Nat × Nat × OpRef) := none
  /-- The index whose command is aborted when it is fetched (R76). -/
  abortAt : Option Nat := none
deriving DecidableEq, Repr

/-- What the hub does at a command's completion step beyond writing its record (R78). -/
inductive Post where
  /-- Writes bytes. -/
  | write (a : Nat) (bs : List Byte)
  /-- Takes or gives one codebook reference: context slot, directory entry, version (R210). -/
  | ref (ctx e ver : Nat) (up : Bool)
  /-- Adds to a statistics counter of a version: 0 to 7 of the Attend line, 8 to 15 of the encode line (R176, R191). -/
  | stat (ctx e ver k n : Nat)
  /-- Rows written into a block: request, layer, head, block index and the new `valid_count` (R104). -/
  | rows (req layer head b n : Nat)
  /-- The flash sectors of a slot fit a representation (R219). -/
  | fit (slot repr d : Nat)
deriving DecidableEq, Repr

/-- Where a fetched command stands. -/
inductive CmdSt where
  /-- Fetched, not dispatched. -/
  | waiting
  /-- Resident on an instance and running. -/
  | running
  /-- Chosen for pre-emption; its engine stops it at the next boundary (R83). -/
  | stopping
  /-- Saved by a pre-emption (R83). -/
  | saved
  /-- Wiped and awaiting re-issue (R85). -/
  | wiped
  /-- A posted buffer or an unfired arm: outstanding without a resident-job slot (R307, R316). -/
  | parked
deriving DecidableEq, Repr

/-- A fetched command with its dispatch record (R75, R81, R85). -/
structure Cmd where
  vi : Nat := 0
  cls : Nat := 0
  q : Nat := 0
  index : Nat := 0
  fmt : Nat := 0
  words : List Nat := []
  acceptT : Nat := 0
  fetchT : Nat := 0
  st : CmdSt := .waiting
  inst : Nat := 0
  /-- First dispatch, and the time since which the job waits or runs. -/
  dispT : Option Nat := none
  since : Nat := 0
  /-- ns the command waited before its first dispatch and again after each pre-emption or wipe. -/
  waitNs : Nat := 0
  preempts : Nat := 0
  wipes : Nat := 0
  engineNs : Nat := 0
  estimate : Nat := 0
  /-- The region table generation the command was checked under (R66). -/
  regionGen : Nat := 0
  /-- The context slot it was dispatched with (R80). -/
  slot : Option Nat := none
  /-- The status and result that reached the hub (R86). -/
  outcome : Option (Status × Nat) := none
  /-- Memory the completion step writes: descriptors, counts and lists the hub updates (R78). -/
  effects : List Post := []
  /-- Sample details: lines read, lines written, detail_a, detail_b (R469). -/
  linesRead : Nat := 0
  linesWritten : Nat := 0
  detailA : Nat := 0
  detailB : Nat := 0
  split : Bool := false
  /-- VIs that sample the command (R468). -/
  samplers : List Nat := []
  /-- The DRAM channel that holds its save record (R506). -/
  saveCh : Nat := 0
  /-- Event counts of the job (R462), by event code. -/
  events : Tbl Nat Nat := []
  /-- Work a fired arm runs: the pre-posted command's words (R316). -/
  work : Option (List Nat) := none
  /-- `committed_count` of each block named, as it stood at dispatch (R107, R153). -/
  snap : Option (Tbl Nat Nat) := none
  /-- Nodes that attend a remote part, with each part's deadline (R154). -/
  parts : Tbl Nat Nat := []
  /-- Blocks the command has set CONVERTING (R103). -/
  conv : List Nat := []
deriving DecidableEq, Repr

/-- An engine instance's service state (R85). -/
inductive InstSt where
  /-- In service. -/
  | service
  /-- Resetting and in self-test after a fault. -/
  | selfTest
  /-- Retired. -/
  | retired
deriving DecidableEq, Repr

/-- An engine instance or Mover channel (R67, R81 to R83, R85). -/
structure Inst where
  st : InstSt := .service
  threshold : Nat := 20000
  sG : Nat := 160
  floorG : Nat := 96
  floorP : Nat := 32
  usedG : Nat := 0
  usedP : Nat := 0
  /-- Deficits of the round robin, by VI (R81). -/
  deficits : Tbl Nat Nat := []
  /-- Jobs wiped by the fault in progress and the capacity before it (R85). -/
  wiped : Nat := 0
  capBefore : Nat := 0
  /-- The command that waits for the slot of a job being stopped (R83). -/
  waiting : Option Nat := none
deriving DecidableEq, Repr

/-- The states of a context slot (R79). -/
inductive CtxSt where
  /-- Free. -/
  | empty
  /-- Being loaded. -/
  | loading
  /-- In use. -/
  | ready
  /-- Its last binding was removed. -/
  | unloading
deriving DecidableEq, Repr

/-- The fields a context slot holds for one model of one composition (R79). -/
structure CtxFields where
  model : Nat := 0
  composition : Nat := 0
  headDim : Nat := 0
  layers : Nat := 0
  kvHeads : Nat := 0
  qPerKv : Nat := 0
  codebookDir : Nat := 0
  weightDir : Nat := 0
deriving DecidableEq, Repr

/-- A context slot (R79, R80), with the channel factors loaded into it (R187): per (layer, head, V) the FP32 words
of μ and λ. -/
structure Ctx where
  st : CtxSt := .empty
  f : CtxFields := {}
  factors : Tbl (Nat × Nat × Nat) (List Nat) := []
  loadOp : Option OpRef := none
deriving DecidableEq, Repr

/-- Virtual interfaces and the work they queue. -/
structure Work where
  vis : Tbl Nat Vi := []
  queues : Tbl QKey Queue := []
  cmds : Tbl Nat Cmd := []
  nextCid : Nat := 0
  insts : Tbl (Nat × Nat) Inst := []
  ctxs : Tbl Nat Ctx := []
deriving DecidableEq, Repr

/-! ### Fabric operations (chapter 10) -/

/-- What an outstanding request packet serves at its source. -/
inductive Purpose where
  /-- An operation of a bound endpoint or host. -/
  | endpoint
  /-- A Mover job: the command, the line offset, and whether the packet reads the source or writes the destination. -/
  | mover (cid off lines : Nat) (writes : Bool)
  /-- A message's packet. -/
  | message (msg : Nat)
  /-- A path probe. -/
  | probe
  /-- A node-internal access: the sub-operation that waits for it. -/
  | hub (what key : Nat)
deriving DecidableEq, Repr

/-- A request packet outstanding toward another node (R291, R298). -/
structure OutReq where
  pkt : Packet := {}
  /-- The endpoint's packet it carries on, to be answered. -/
  orig : Option Packet := none
  firstSent : Nat := 0
  lastSent : Nat := 0
  crcFails : Nat := 0
  /-- The first ST_RETRY_NO_BUFFER answer and the last re-send after one (R310). -/
  rnrFirst : Option Nat := none
  rnrLast : Nat := 0
  /-- Answered with ST_RETRY_NO_BUFFER and not sent again since (R310). -/
  answered : Bool := false
  purpose : Purpose := .endpoint
deriving DecidableEq, Repr

/-- A STORE_FLAG held at its source (R294). -/
structure HeldFlag where
  pkt : Packet := {}
  /-- Tags of the writes it waits for. -/
  waits : List Nat := []
  /-- MOVE_LINES commands it waits for. -/
  moves : List Nat := []
  failed : Bool := false
deriving DecidableEq, Repr

/-- What a node keeps about a peer (R291, R296 to R299). -/
structure Peer where
  nextTag : Nat := 0
  /-- As a destination: tags performed from this peer, oldest first, each with its kept response. -/
  performed : List (Nat × Option Packet) := []
  /-- Paths marked down by re-sends, the rotation of bulk packets, and the time of the last probe by path. -/
  down : List Nat := []
  spray : Nat := 0
  probeAt : Tbl Nat Nat := []
  /-- The unreachable mark, the operations failed since the last EV_TARGET_DEAD, and that event's time (R299). -/
  dead : Bool := false
  deadFails : Nat := 0
  deadEvAt : Option Nat := none
  /-- The last EV_PATH_DOWN and EV_PATH_UP, and what was held back since: path, paths in service, changes (R297). -/
  pathEvAt : Tbl Bool Nat := []
  pathHeld : Tbl Bool (List Nat) := []
deriving DecidableEq, Repr

/-- The states of a window (R300). -/
inductive WinSt where
  /-- Not open. -/
  | closed
  /-- Open. -/
  | opened
  /-- Revoked or closed with requests admitted. -/
  | draining
  /-- Revoked. -/
  | revoked
deriving DecidableEq, Repr

/-- A window's range, rights and sources (R300); `rights`: rd 0, wr 1, atom 2, send 3. -/
structure WinEntry where
  base : Nat := 0
  limit : Nat := 0
  owner : Nat := 0
  rights : Nat := 0
  composition : Nat := 0
  listMask : Nat := 0
  srcs : List SrcId := []
deriving DecidableEq, Repr

/-- A change of a window held until its generation may rise (R304). -/
inductive WinHeld where
  /-- A revoke. -/
  | revoke
  /-- A close. -/
  | close
  /-- An open with a new entry. -/
  | replace (e : WinEntry)
deriving DecidableEq, Repr

/-- A window (R300 to R304). -/
structure Window where
  st : WinSt := .closed
  e : WinEntry := {}
  gen : Nat := 0
  /-- Requests admitted and not yet performed, and those of the entry before the last replacement. -/
  admitted : Nat := 0
  admittedOld : Nat := 0
  refusedGen : Nat := 0
  genAt : Option Nat := none
  closing : Bool := false
  held : List WinHeld := []
  revokeOps : List OpRef := []
deriving DecidableEq, Repr

/-- A posted buffer (R307). -/
structure Buffer where
  cid : Nat := 0
  addr : Nat := 0
  info : Nat := 0
  len : Nat := 0
deriving DecidableEq, Repr

/-- A reorder table entry or tombstone (R310 to R312), keyed by source node and message id. -/
structure Reorder where
  vi : Nat := 0
  list : Nat := 0
  buf : Buffer := {}
  msgLen : Nat := 0
  msgTag : Nat := 0
  srcVi : Nat := 0
  srcEp : Nat := 0
  winId : Nat := 0
  tally : Nat := 0
  /-- The folded CRC of the payloads placed at their offsets. -/
  crc : Nat := 0
  firstT : Nat := 0
  /-- Some after the message failed: the status and when the tombstone ends. -/
  tomb : Option (Status × Nat) := none
deriving DecidableEq, Repr

/-- A message this node sends (R308 to R311). -/
structure OutMsg where
  cid : Nat := 0
  dst : Nat := 0
  /-- The CRC-64 of the bytes read so far, the next byte to send, and the packet size (R287, R308, R309). -/
  crc : Nat := 0
  next : Nat := 0
  size : Nat := 0
  /-- Packets not yet acknowledged, and when the last acknowledgement came. -/
  unacked : Nat := 0
  ackedAt : Nat := 0
deriving DecidableEq, Repr

/-- An arm on a trigger counter (R316, R317). -/
structure Arm where
  cid : Nat := 0
  vi : Nat := 0
  ctr : Nat := 0
  threshold : Nat := 0
  expireAt : Option Nat := none
deriving DecidableEq, Repr

/-- A MOVE_LINES job with packets (R306): the next line, packets outstanding, lines known visible, and the first failure. -/
structure MoverJob where
  next : Nat := 0
  pend : Nat := 0
  lines : Nat := 0
  fail : Option Status := none
deriving DecidableEq, Repr

/-- A packet this node forwards (R295): the port it waits for and since when. -/
structure Transit where
  pkt : Packet := {}
  inPort : Nat := 0
  since : Nat := 0
deriving DecidableEq, Repr

/-- Fabric operations of the node. -/
structure Fabric where
  peers : Tbl Nat Peer := []
  /-- Requests outstanding, by destination and tag; an endpoint of this node counts as destination 4,096 + its number. -/
  out : Tbl (Nat × Nat) OutReq := []
  flags : Tbl Nat HeldFlag := []
  nextFlag : Nat := 0
  windows : Tbl Nat Window := []
  lists : Tbl (Nat × Nat) (List Buffer) := []
  reorder : Tbl (Nat × Nat) Reorder := []
  msgs : Tbl Nat OutMsg := []
  nextMsg : Nat := 0
  arms : List Arm := []
  jobs : Tbl Nat MoverJob := []
  transit : Tbl Nat Transit := []
  nextTransit : Nat := 0
  /-- The forwarding table: (destination, path) to egress port or half port (R295). -/
  routes : Tbl (Nat × Nat) Nat := []
  deadBound : Nat := 20000
  msgTimeout : Nat := 1000000
  rnrLimit : Nat := 100000
  /-- Packets discarded and counted (R286, R295). -/
  discards : Nat := 0
deriving DecidableEq, Repr

/-! ### Adeah, trust and the management network (chapter 14) -/

/-- What the hub keeps of the last operation applied for a mailbox (R392): its sequence number and its response. -/
structure Applied where
  mbSeq : Nat := 0
  status : Status := .ok
  result : Nat := 0
  body : List Nat := []
deriving DecidableEq, Repr

/-- A mailbox (R393 to R397). -/
structure Mailbox where
  busy : Bool := false
  lastSeq : Option Nat := none
  dropped : Nat := 0
  acceptT : Nat := 0
  /-- The header accepted, as its words. -/
  header : List Nat := []
  applied : Option Applied := none
  /-- The mailbox's lines, by line number 0 to 63; an unlisted line reads zero. -/
  lines : Tbl Nat (List Byte) := []
deriving DecidableEq, Repr

/-- A violation ring entry (R408). -/
structure Violation where
  seq : Nat := 0
  vi : Nat := 0
  srcNode : Nat := 0
  srcEp : Nat := 0
  address : Nat := 0
  time : Nat := 0
  kind : Nat := 0
  op : Nat := 0
  reason : Nat := 0
  rep : Nat := 0
deriving DecidableEq, Repr

/-- A management session (R422). -/
structure Session where
  key : List Byte := []
  seq : Nat := 0
  lastAt : Nat := 0
  /-- The upload area, as offsets with bytes. -/
  upload : Tbl Nat (List Byte) := []
  /-- The header of the request accepted last and not yet run, as its words. -/
  header : List Nat := []
deriving DecidableEq, Repr

/-- An applied change order whose drains are not all at zero (R405). -/
structure OrderDrain where
  op : OpRef := {}
  seq : Nat := 0
  /-- Region tables replaced: VI and the generation now in force (R66). -/
  regions : List (Nat × Nat) := []
  windows : List Nat := []
  vis : List Nat := []
deriving DecidableEq, Repr

/-- What a node knows of a node whose croaks it watches (R421). -/
structure Watched where
  lastAt : Nat := 0
  lastCount : Nat := 0
  misses : Nat := 0
  lost : Bool := false
  /-- When each plane (0 A, 1 B) was last heard, and whether EV_CROAK_PLANE stands raised. -/
  planeAt : Tbl Nat Nat := []
  planeRaised : Bool := false
deriving DecidableEq, Repr

/-- Adeah firmware, trust and management (R391 to R422). -/
structure Adeah where
  /-- The primary MG die, and when MG0 was fenced with MG1 not yet primary (R391, R392). -/
  primary : Nat := 0
  mailboxes : Tbl (Nat × Nat) Mailbox := []
  nextHandle : Nat := 1
  /-- The trust record: the moduli of the domain authority's and the node operator's keys (R407). -/
  trust : Option (Nat × Nat) := none
  lastOrder : Nat := 0
  order : Option OrderDrain := none
  m1 : List Byte := []
  m2 : List Byte := []
  m3 : List Byte := []
  violations : List Violation := []
  violSeq : Nat := 0
  sessions : Tbl Nat Session := []
  nextSession : Nat := 1
  mgmtAddrs : List Nat := []
  watchList : List Nat := []
  collectors : List Nat := []
  croakKey : Option (List Byte) := none
  /-- Croaks sent by each MG die and when the last one left. -/
  croakCount : Tbl Nat Nat := []
  croakAt : Tbl Nat Nat := []
  croakDiscards : Nat := 0
  watched : Tbl Nat Watched := []
deriving DecidableEq, Repr

/-! ### The conservation ledger (R448 to R451) -/

/-- One book: the units in each state of a quantity, and their total. -/
structure Book where
  states : List Nat := []
  total : Nat := 0
deriving DecidableEq, Repr

/-- Transit counts kept for one peer and quantity, with the peer's own as last reported (R449). -/
structure TransitBook where
  sent : Nat := 0
  received : Nat := 0
  peerSent : Nat := 0
  peerReceived : Nat := 0
  /-- Since when the sent count has exceeded the peer's received count. -/
  excessSince : Option Nat := none
  /-- Units booked in fault transit (R450). -/
  fault : Nat := 0
deriving DecidableEq, Repr

/-- The ledger: books by (quantity, scope), transit by (peer, quantity). -/
structure Ledger where
  books : Tbl (Nat × Nat) Book := []
  transit : Tbl (Nat × Nat) TransitBook := []
  auditAt : Nat := 0
  syncAt : Nat := 0
  /-- The last break by (quantity, scope), and the scopes marked suspect. -/
  breaks : Tbl (Nat × Nat) Nat := []
  suspect : List (Nat × Nat) := []
deriving DecidableEq, Repr

/-! ### Performance counters and sampling (chapter 16) -/

/-- One programmable counter of a unit (R457). -/
structure ProgCounter where
  event : Nat := 0
  vi : Option Nat := none
  count : Nat := 0
deriving DecidableEq, Repr

/-- A unit's counters (R455 to R458). -/
structure UnitCtr where
  cycles : Nat := 0
  slotCycles : Nat := 0
  kept : Nat := 0
  redone : Nat := 0
  waits : List Nat := []
  unfilled : Nat := 0
  empty : Nat := 0
  prog : List ProgCounter := []
  selectSeq : Nat := 0
  frozen : Bool := false
  /-- Fabric time up to which the counters are settled. -/
  at_ : Nat := 0
  /-- Slots of operations not yet completed, by command; under 0 those of a unit that runs no commands (R458). -/
  pend : Tbl Nat Nat := []
  /-- Completion transfers held while the unit is frozen: kept (true) or redone, the slots, and the VI of a job (R465). -/
  held : List (Bool × Nat × Option Nat) := []
deriving DecidableEq, Repr

/-- A capture operation not yet taken (R464). -/
structure Capture where
  vi : Nat := 0
  units : Bool := false
  mode : Nat := 0
  ids : List Nat := []
  time : Nat := 0
  outAddr : Nat := 0
  seq : Nat := 0
deriving DecidableEq, Repr

/-- Performance monitoring of the node. -/
structure Perf where
  units : Tbl Nat UnitCtr := []
  captures : List Capture := []
deriving DecidableEq, Repr

/-! ### Events and what leaves the node (chapter 18) -/

/-- An event (R16, R502). -/
structure EventRec where
  code : Ev := .hubMiscompare
  time : Nat := 0
  seq : Nat := 0
  die : Nat := 0
  unit : Nat := 0
  payload : List Nat := []
deriving DecidableEq, Repr

/-- A control message that leaves the node: its destination, traffic class, name code, the request, epoch and map
epoch of its header, and its body fields in the order of the rule that names them. -/
structure CtlMsg where
  dst : Nat := 0
  tc : Nat := 0
  code : Nat := 0
  req : Nat := 0
  epoch : Nat := 0
  mapEpoch : Nat := 0
  fields : List Nat := []
  tail : List Byte := []
deriving DecidableEq, Repr

/-- A datagram on a management port or a frame on a port: the kind, the port or plane, and the bytes. -/
structure Datagram where
  kind : Nat := 0
  port : Nat := 0
  bytes : List Byte := []
deriving DecidableEq, Repr

/-- The event log and what has left the node. -/
structure Log where
  events : List EventRec := []
  evSeq : Nat := 0
  /-- Flits that left, by port, and frames of Ethernet-mode ports, oldest first. -/
  flits : List (Nat × Flit) := []
  msgs : List CtlMsg := []
  grams : List Datagram := []
deriving DecidableEq, Repr

/-! ### Request state (chapter 4) -/

/-- A request record (R89, R90). -/
structure Req where
  admClass : Nat := 0
  kvRepr : Nat := 0
  ownerVi : Nat := 0
  composition : Nat := 0
  ctxSlot : Nat := 0
  mapEpoch : Nat := 0
  committed : Nat := 0
  limit : Nat := 0
  promptTokens : Nat := 0
  prefixTokens : Nat := 0
  blockMap : Nat := 0
  tokenRing : Nat := 0
  admitTime : Nat := 0
  holdEpoch : Nat := 0
deriving DecidableEq, Repr

/-- A slot or parity arena (R95, R430). -/
structure Arena where
  tier : Nat := 0
  die : Nat := 0
  headDim : Nat := 0
  base : Nat := 0
  descBase : Nat := 0
  slots : Nat := 0
  parity : Bool := false
deriving DecidableEq, Repr

/-- A prefix handle kept at its home (R109). -/
structure PrefixHandle where
  req : Nat := 0
  tokens : Nat := 0
  digest : List Byte := []
  composition : Nat := 0
  model : Nat := 0
  expiry : Nat := 0
  users : Nat := 0
  released : Bool := false
deriving DecidableEq, Repr

/-- Request state of the node. -/
structure Kv where
  reqs : Tbl Nat Req := []
  /-- Requests whose read failed at every copy, with the status every later command for them gets (R227). -/
  failed : Tbl Nat Status := []
  arenas : List Arena := []
  handles : Tbl Nat PrefixHandle := []
  /-- Slots to be freed once no dispatched command names them (R178). -/
  toFree : List Nat := []
  /-- Requests attached to a handle: request id to handle (R111). -/
  attached : Tbl Nat Nat := []
deriving DecidableEq, Repr

/-! ### Compositions (chapter 1) and the policies set for them -/

/-- KV protection of a composition (R18). -/
inductive Protection where
  /-- None. -/
  | none
  /-- Erasure coding with k data and m parity positions. -/
  | ec (k m : Nat)
  /-- Whole copies. -/
  | replica
deriving DecidableEq, Repr

/-- A composition's member map at one map epoch, with the fields defined with it (R18). -/
structure CompMap where
  epoch : Nat := 0
  model : Nat := 0
  prompt : List Nat := []
  gen : List Nat := []
  cache : List Nat := []
  home : List Nat := []
  protection : Protection := .none
  kvRepr : Nat := 0
  beat : Nat := 0
  /-- Admission ceilings: Guaranteed, Standard, Opportunistic. -/
  quotas : List Nat := []
deriving DecidableEq, Repr

/-- A metering record (R21). -/
structure Meter where
  time : Nat := 0
  attendTime : Nat := 0
  codecTime : Nat := 0
  movedBytes : Nat := 0
  linkTime : List Nat := []
  slotTimeDram : Nat := 0
  slotTimeFlash : Nat := 0
  admitted : List Nat := []
  tokensOut : Nat := 0
deriving DecidableEq, Repr

/-! ### Ownership (chapter 5) -/

/-- The directory states (R115). -/
inductive DirState where
  /-- 0. -/
  | free
  /-- 1. -/
  | admitted
  /-- 2. -/
  | prefill
  /-- 3. -/
  | protected_
  /-- 4. -/
  | leaping
  /-- 5. -/
  | decoding
  /-- 6. -/
  | stopped
  /-- 7. -/
  | held
  /-- 8. -/
  | failed
deriving DecidableEq, Repr

/-- A receipt (R132). -/
structure Receipt where
  kind : Nat := 0
  index : Nat := 0
  epoch : Nat := 0
  fromNode : Nat := 0
  toNode : Nat := 0
  tokens : Nat := 0
  time : Nat := 0
  blockCount : Nat := 0
  mapEpoch : Nat := 0
  manifest : List Byte := []
  prevDigest : List Byte := []
  chain : List Byte := []
  addr : Nat := 0
  prevAddr : Nat := 0
deriving DecidableEq, Repr

/-- A directory entry (R115) with what the home keeps beside it while a leap, a mirror write or a recovery runs. -/
structure DirEntry where
  st : DirState := .free
  holder : Nat := 0
  epoch : Nat := 0
  mapEpoch : Nat := 0
  composition : Nat := 0
  leapTarget : Nat := 0
  leapPhase : Nat := 0
  leapFromDecode : Bool := false
  recoveryStep : Nat := 0
  mirror : Bool := false
  acting : Bool := false
  stateTime : Nat := 0
  receipts : List Receipt := []
  receiptTokens : Nat := 0
  backup : Nat := 0
  prevHolder : Nat := 0
  users : Nat := 0
  /-- The leap in progress: the manifest digest and counts recorded at step 2, and its time (R129). -/
  leapDigest : List Byte := []
  leapBlocks : Nat := 0
  leapTokens : Nat := 0
  leapAt : Nat := 0
  /-- Messages that wait for MIRROR_ACK, and the mirror writes outstanding (R116). -/
  mirrorWait : Nat := 0
  heldMsgs : List CtlMsg := []
  /-- When HOLD_ASSERT was last sent and not yet answered (R123, R139). -/
  assertAt : Option Nat := none
  /-- Recovery: the candidate probed and when, the candidates left, the epoch lost (R140, R141). -/
  probe : Option (Nat × Nat) := none
  candidates : List Nat := []
  cRec : Nat := 0
  /-- A client cancel that waits for the leap to settle (R27), with its arrival time. -/
  cancelAt : Option Nat := none
  /-- The last leap granted: its target, its epoch, and whether it committed (R130). -/
  lastTarget : Nat := 0
  lastEpoch : Nat := 0
  lastCommitted : Bool := false
  /-- The status with which a FAILED request ended. -/
  endStatus : Option Status := none
  /-- Retention asked for at the stop (R364); 0 for none. -/
  keep : Nat := 0
deriving DecidableEq, Repr

/-- A pending LEAP_OFFER (R129). -/
structure Offer where
  digest : List Byte := []
  blocks : Nat := 0
  tokens : Nat := 0
  oldHolder : Nat := 0
  composition : Nat := 0
  epoch : Nat := 0
  mapEpoch : Nat := 0
  offeredAt : Nat := 0
  /-- The claimed record, once the manifest has arrived and LEAP_ACCEPT was sent (R129, step 4). -/
  claimed : Option Req := none
deriving DecidableEq, Repr

/-- A holder's side of a request's leap: frozen since, with the manifest digest; the grant; lingering slots. -/
structure HoldState where
  frozen : Bool := false
  digest : List Byte := []
  blocks : Nat := 0
  requestedAt : Option Nat := none
  /-- The manifest entries received for a request taken over by leap (R128). -/
  manifest : List (List Nat) := []
  grant : Option (Nat × Nat × Nat) := none
  offer : Option Offer := none
  /-- The freed record's image, the descriptors that linger, and the epoch they serve (R134). -/
  lingering : Option (Req × List Nat × Nat) := none
  queryAt : Nat := 0
  retryAt : Option Nat := none
  revoked : Bool := false
  /-- An operator's ADH_LEAP_START not yet answered, and its target. -/
  startOp : Option OpRef := none
  startTarget : Option Nat := none
deriving DecidableEq, Repr

/-- The holder's side of a lease at one home (R119, R120, R122). -/
structure Lease where
  expiry : Nat := 0
  fenced : Bool := false
  sentAt : Nat := 0
  mismatches : Nat := 0
  /-- HOLD_REVOKEs that arrived since the last renewal, and those the last LEASE_ACK announced. -/
  revokesSeen : Nat := 0
  revokesDue : Nat := 0
deriving DecidableEq, Repr

/-- The home's side of a lease of one holder (R121, R122). -/
structure HomeLease where
  expiry : Nat := 0
  lapsed : Bool := false
  freeRecords : Nat := 0
  mismatches : Nat := 0
  /-- Requests taken from the holder since its lease lapsed, to be revoked at its next renewal. -/
  revokes : List Nat := []
deriving DecidableEq, Repr

/-- A block being pulled (R137). -/
structure Pull where
  cid : Option Nat := none
  desc : Nat := 0
  /-- Copies not tried yet: node, descriptor address there, and kind (0 lingering, 1 data, 2 replica, 3 regrow). -/
  copies : List (Nat × Nat × Nat) := []
  deadline : Nat := 0
  codeOnly : Bool := false
  /-- What a copy is given, and whether the last copy tried was late, or its codebook version missing. -/
  len : Nat := 0
  late : Bool := false
  missing : Bool := false
deriving DecidableEq, Repr

/-- A backup being given all entries and receipts (R116, R142). -/
structure MirrorCopy where
  backup : Nat := 0
  entries : List Nat := []
  startAt : Nat := 0
deriving DecidableEq, Repr

/-- Ownership of requests. -/
structure Own where
  dir : Tbl Nat DirEntry := []
  nextSeq : Nat := 0
  holds : Tbl Nat HoldState := []
  leases : Tbl Nat Lease := []
  homeLeases : Tbl Nat HomeLease := []
  /-- Acting homes known for a lost home (R125, R142). -/
  acting : Tbl Nat Nat := []
  pulls : Tbl (Nat × Nat × Nat × Nat) Pull := []
  mirrorCopy : Option MirrorCopy := none
  leaseLen : Nat := 500000
deriving DecidableEq, Repr

/-- A composition as this node holds it: the maps of at most two epochs, newest first (R18, R20), its policies and
its metering records (R21). -/
structure Comp where
  maps : List CompMap := []
  bridges : List Nat := []
  gReserve : Nat := 0
  waitS : Nat := 0
  waitO : Nat := 0
  leapTimeout : Nat := 1000000
  /-- 0 DEMAND, 1 EAGER, 2 REMOTE (R135). -/
  pullMode : Nat := 0
  pullDeadline : Nat := 1000000
  meters : List Meter := []
  meterOpen : Meter := {}
  beatAt : Nat := 0
deriving DecidableEq, Repr

/-! ### Protection (chapter 15) -/

/-- A protection write this node has sent and not seen acknowledged by every position it addresses (R434). -/
structure ProtWrite where
  req : Nat := 0
  composition : Nat := 0
  mapEpoch : Nat := 0
  /-- 1 ROW_PUT, 2 parity or sidecar, 3 parity delta, 4 regrow (R507). -/
  kind : Nat := 0
  /-- Members awaited, and what was sent to them. -/
  awaited : List Nat := []
  fields : List Nat := []
  data : List Byte := []
  sentAt : Nat := 0
  reported : Bool := false
  /-- The command that waits for it. -/
  cid : Option Nat := none
deriving DecidableEq, Repr

/-- A stripe being sealed by its position-k member (R433): the data positions that reported. -/
structure Sealing where
  reported : List Nat := []
deriving DecidableEq, Repr

/-- A shard being regrown (R440). -/
structure Regrow where
  req : Nat := 0
  stripe : Nat := 0
  position : Nat := 0
  desc : Nat := 0
  startAt : Nat := 0
  /-- The fault it recovers from: the member or unit lost, and the fault's kind. -/
  fault : Nat := 0
  background : Bool := false
deriving DecidableEq, Repr

/-- A fault whose recovery runs (R442). -/
structure FaultRec where
  kind : Nat := 0
  unit : Nat := 0
  composition : Nat := 0
  startAt : Nat := 0
  regrown : Nat := 0
  failed : Nat := 0
  ended : Nat := 0
deriving DecidableEq, Repr

/-- Protection state of the node. -/
structure Prot where
  writes : Tbl Nat ProtWrite := []
  nextWrite : Nat := 0
  /-- Shard maps: (request, stripe id) to descriptor address (R429). -/
  shards : Tbl (Nat × Nat) Nat := []
  sealings : Tbl (Nat × Nat) Sealing := []
  /-- Down sets by (composition, map epoch), and the last `down_seq` (R435). -/
  down : Tbl (Nat × Nat) (List Nat) := []
  downSeq : Nat := 0
  /-- Probes of stragglers: (composition, member) and when sent. -/
  probes : Tbl (Nat × Nat) Nat := []
  regrows : List Regrow := []
  /-- Stripes that wait for background regrow, with the fault: (request, stripe, position, fault). -/
  needs : List (Nat × Nat × Nat × Nat) := []
  regrowAt : Nat := 0
  faults : List FaultRec := []
  /-- OPEN copies this member keeps, by request, layer, head and block (R432), and changes whose parity deltas have been sent: (0, command)
  or (1, descriptor) (R437). -/
  copies : Tbl (Nat × Nat × Nat × Nat) Nat := []
  sent : List (Nat × Nat) := []
deriving DecidableEq, Repr


/-! ### Links and ports (chapter 9) -/

/-- The states of a port, with the codes of R265 in their order (R261). -/
inductive PortSt where
  /-- 0: transmitters off. -/
  | disabled
  /-- 1: looks for the partner's signal. -/
  | detect
  /-- 2: transmit equalisation. -/
  | equalize
  /-- 3: codeword alignment. -/
  | fecLock
  /-- 4: capability exchange. -/
  | caps
  /-- 5: pools open. -/
  | creditInit
  /-- 6: traffic flows. -/
  | active
  /-- 7: every lane in hold-down. -/
  | hold
  /-- 8: partner refused. -/
  | refused
deriving DecidableEq, Repr

/-- A port's configuration (R280): mode 0 disabled, 1 Volrov, 2 Ethernet; roles FABRIC 1, ACCELERATOR 2, HOST 4; rate 0
auto, 1 224 only, 2 112 only; an empty pool list stands for the default of R259. -/
structure PortCfg where
  mode : Nat := 1
  roles : Nat := 1
  rate : Nat := 0
  minWidth : Nat := 1
  poolUnits : List Nat := []
  endpoint : Option Nat := none
  ethType : Nat := 0
  mtu : Nat := 9000
  udpPort : Nat := 49601
  vlan : Option Nat := none
  dscp : List Nat := [0, 8, 16, 24, 32, 40, 48, 56]
deriving DecidableEq, Repr

/-- A lane (R264): down until its hold-down and test end; `j` counts its recent failures; `upAt` is its last return to
service, 0 while it has never gone down. -/
structure Lane where
  down : Bool := false
  j : Nat := 0
  upAt : Nat := 0
  holdUntil : Nat := 0
  testing : Bool := false
deriving DecidableEq, Repr

/-- Credits toward the partner for one pool: units advertised, sent, and returned as last applied (R260). -/
structure TxPool where
  size : Nat := 0
  sent : Nat := 0
  returned : Nat := 0
deriving DecidableEq, Repr

/-- A receive pool: its size, the units occupied, and the units returned since ACTIVE (R259, R260). -/
structure RxPool where
  size : Nat := 0
  occupied : Nat := 0
  returned : Nat := 0
deriving DecidableEq, Repr

/-- A DATA or CONTROL flit not yet acknowledged, with its sends and the packets that end in it (R256). -/
structure Replay where
  flit : Flit := {}
  sends : Nat := 0
  ends : List Packet := []
deriving DecidableEq, Repr

/-- An Ethernet path to a partner (R269): its sequence numbers, the frames not acknowledged with their sends and times,
and its hold-down. -/
structure EthPath where
  txSeq : Nat := 1
  rxSeq : Nat := 1
  nak : Bool := false
  window : List (Nat × List Packet) := []
  sends : Nat := 0
  sentAt : Nat := 0
  out : Bool := false
  j : Nat := 0
  upAt : Nat := 0
  holdUntil : Nat := 0
deriving DecidableEq, Repr

/-- A partner table entry of an Ethernet-mode port with what runs toward that partner (R269, R270). -/
structure Partner where
  ipv6 : Nat := 0
  mac : Nat := 0
  role : Nat := 0
  src : Nat × Nat := (0, 0)
  endpoint : Nat := 0
  mtu : Nat := 9000
  paths : Tbl Nat EthPath := []
  tx : Tbl Nat TxPool := []
  rx : Tbl Nat RxPool := []
  /-- Frames sent to it since ACTIVE (R260). -/
  frames : Nat := 0
  profile : List Nat := []
deriving DecidableEq, Repr

/-- A port or half port (R251, R255 to R266). -/
structure Port where
  st : PortSt := .disabled
  cfg : PortCfg := {}
  /-- Since when the state holds, and when the last detection attempt began. -/
  since : Nat := 0
  detectAt : Nat := 0
  /-- Whether FEC_LOCK has already gone back to EQUALIZE once. -/
  fecBack : Bool := false
  /-- The lanes in use, and the rate: 0 224 Gb/s, 1 112 Gb/s, 2 212.5 Gb/s. -/
  active : List Nat := []
  rate : Nat := 0
  version : Nat := 0
  partner : Nat := 0
  partnerRole : Nat := 0
  partnerPools : List Nat := []
  profile : List Nat := []
  tx : Tbl Nat TxPool := []
  rx : Tbl Nat RxPool := []
  txSeq : Nat := 0
  rxSeq : Nat := 0
  /-- The expected flit is awaited after a discard, a NAK is due, and when the last NAK left (R255). -/
  nak : Bool := false
  nakDue : Bool := false
  nakAt : Nat := 0
  /-- Flits not acknowledged, oldest first; the replay's next place in that list. -/
  replay : List Replay := []
  replayAt : Option Nat := none
  /-- Flits sent since ACTIVE, mod 16 (R260). -/
  flits : Nat := 0
  /-- CONTROL flits to send: their contents as kind and fields. -/
  control : List (List Nat) := []
  /-- Bytes still to send and the packet they belong to, by VC; bytes received of an unfinished packet, by VC. -/
  cur : Tbl Nat (List Byte × Packet) := []
  part : Tbl Nat (List Byte) := []
  /-- Packets in the receive buffer. -/
  arrived : List Packet := []
  lastAccept : Nat := 0
  retraining : Bool := false
  retrains : List Nat := []
  /-- The last width change, and a set that waits to take effect with its sequence number (R266). -/
  widthAt : Option Nat := none
  partners : Tbl Nat Partner := []
  /-- PAUSE and priority-flow-control frames, and frames dropped (R267, R269). -/
  pauseFrames : Nat := 0
  dropped : Nat := 0
deriving DecidableEq, Repr

/-- Ports and lanes. A whole port Pn has the number n, its halves PnL and PnH n + 32 and n + 64 (R251). -/
structure Links where
  ports : Tbl Nat Port := []
  split : List Nat := []
  lanes : Tbl Nat Lane := []
  /-- Packets waiting at the egress ports, oldest first. -/
  queue : List TxPkt := []
deriving DecidableEq, Repr

/-! ### Fabric time (R275 to R279, R481) -/

/-- The data set an Announce carries (R275, R276). -/
structure Announce where
  p1 : Nat := 255
  cls : Nat := 248
  acc : Nat := 254
  var : Nat := 65535
  p2 : Nat := 128
  gm : Nat := 0
  steps : Nat := 0
deriving DecidableEq, Repr

/-- A slew in progress: forward or not, the ns left, and the ticks since its last ns (R278). -/
structure Slew where
  forward : Bool := false
  left : Nat := 0
  ticks : Nat := 0
deriving DecidableEq, Repr

/-- Fabric time and PPS_IN. Offsets and delays are in 1/65,536 ns. -/
structure Time where
  domain : Nat := 0
  asymmetry : Tbl Nat Int := []
  ppsEnable : Bool := false
  priority1 : Nat := 128
  priority2 : Nat := 128
  /-- The value written and the own clock at that moment (R279). -/
  timeOfDay : Option (Nat × Nat) := none
  utcOffset : Nat := 37
  /-- Values that take effect at the next Announce, as in force now. -/
  advP1 : Nat := 255
  advP2 : Nat := 128
  advUtc : Nat := 37
  advDomain : Nat := 0
  locked : Bool := false
  /-- Since when the node has been unlocked (R330). -/
  unlockedAt : Nat := 0
  offset : Int := 0
  /-- The correction that waits for the lock (R278, R491). -/
  phase : Int := 0
  goodRun : Nat := 0
  lastSync : Nat := 0
  gm : Nat := 0
  slavePort : Option Nat := none
  /-- The best Announce heard by port and when; the delay measured by port. -/
  announces : Tbl Nat (Announce × Nat) := []
  delays : Tbl Nat Int := []
  /-- When each port last sent Sync, Pdelay_Req and Announce. -/
  sentAt : Tbl (Nat × Nat) Nat := []
  slew : Option Slew := none
  ppsAcquired : Bool := false
  ppsRun : Nat := 0
  ppsLast : Option Nat := none
  /-- Whether PPS_IN last moved, and which way, and recent edges accepted and rejected. -/
  ppsAccepted : List Nat := []
  ppsRejected : List Nat := []
  ppsRejects : Nat := 0
deriving DecidableEq, Repr

/-! ### Gates, shapers and policers (chapter 11) -/

/-- A gate list (R323, R324): the period, the entries (open, interval), its cycles and check value. -/
structure GateList where
  period : Nat := 5000000
  entries : List (Nat × Nat) := [(255, 5000000)]
  cycles : Nat := 0
  crc : Nat := 0
deriving DecidableEq, Repr

/-- The gates of one egress port (R322 to R330). -/
structure Gates where
  oper : GateList := {}
  /-- The pending list with its takeover time (R327). -/
  pending : Option (GateList × Nat) := none
  /-- A test list's end and the list that resumes (R328). -/
  testEnd : Option (Nat × GateList) := none
  guard : Nat := 2000
  fallbackAfter : Nat := 1000000000
  fallbackOpen : Bool := false
  inFallback : Bool := false
  /-- An OPEN port that relocked resumes its list at this time (R330). -/
  resumeAt : Option Nat := none
  /-- Class opened by the last interval boundary, and overruns by class. -/
  open_ : Nat := 255
  overruns : Tbl Nat Nat := []
deriving DecidableEq, Repr

/-- A token bucket with its books, tokens in 1/1000 byte units of time being whole: held, spent, capped, minted
(R332 to R335). -/
structure Bucket where
  rate : Nat := 0
  burst : Nat := 65536
  held : Nat := 65536
  minted : Nat := 65536
  spent : Nat := 0
  capped : Nat := 0
  /-- Byte thousandths accrued beyond the last whole token, and the time accrued to. -/
  frac : Nat := 0
  at_ : Nat := 0
deriving DecidableEq, Repr

/-- A shaper: its bucket and the packets parked on the timing wheel, with the slot boundary of the head (R333). -/
structure Shaper where
  b : Bucket := {}
  parked : List Packet := []
  slotAt : Nat := 0
deriving DecidableEq, Repr

/-- A policer (R336, R337): its bucket and the packets kept in the receive buffer. -/
structure Policer where
  b : Bucket := {}
  kept : List Packet := []
deriving DecidableEq, Repr

/-- What telemetry counts for one selected queue since its last record (R347). -/
structure TelQueue where
  depthMax : Nat := 0
  delayMax : Nat := 0
  closedNs : Nat := 0
  creditNs : Nat := 0
  sent : Nat := 0
  overruns : Nat := 0
  /-- The time the two waits are settled to. -/
  at_ : Nat := 0
deriving DecidableEq, Repr

/-- A VI's telemetry (R346): the ring, the period, the queues as (kind, port or composition, class). -/
structure Telemetry where
  base : Nat := 0
  log2 : Nat := 0
  period : Nat := 100000
  queues : List (Nat × Nat × Nat) := []
  next : Nat := 0
  seq : Nat := 0
  stats : Tbl (Nat × Nat × Nat) TelQueue := []
deriving DecidableEq, Repr

/-- Traffic control of the node. -/
structure Traffic where
  /-- Classes of token streaming, remote attention, tongue pulls and promotions, and background transfers (R321). -/
  classes : List Nat := [6, 5, 4, 1]
  gates : Tbl Nat Gates := []
  shapers : Tbl (Nat × Nat) Shaper := []
  /-- Policers by (port, partner entry or 0xFF, class), and the classes permitted by (port, partner or 0xFF). -/
  policers : Tbl (Nat × Nat × Nat) Policer := []
  permitted : Tbl (Nat × Nat) Nat := []
  telemetry : Tbl Nat Telemetry := []
deriving DecidableEq, Repr


/-! ### Memory tiers and weight streams (chapter 8) -/

/-- A composition's migration policy (R222); times in ns, shares in percent. -/
structure TierPolicy where
  dramHigh : Nat := 90
  dramLow : Nat := 80
  idleDemote : Nat := 10000000000
  codeOnly : Bool := false
  deadline : Nat := 2000000
  demoteRate : Nat := 100000
  /-- Shard reads of background regrow in GB/s, and the straggle limit (R435, R441). -/
  regrowRate : Nat := 200
  straggleLimit : Nat := 2000000
deriving DecidableEq, Repr

/-- A block on its way between tiers (R223, R224): the descriptor it moves to, when the move began, and whether it is a
promotion. -/
structure Migration where
  req : Nat := 0
  layer : Nat := 0
  head : Nat := 0
  b : Nat := 0
  dst : Nat := 0
  startAt : Nat := 0
  promotion : Bool := false
deriving DecidableEq, Repr

/-- A weight stream (R239 to R245): the layers delivered, those late, the layer in progress and when its tiles were asked
for, and the release count last read. -/
structure WStream where
  next : Nat := 0
  late : Nat := 0
  released : Nat := 0
  start : Nat := 0
  pollAt : Nat := 0
  /-- Layers already reported late (R242). -/
  reported : List Nat := []
  /-- The tile being read: its index in the layer's part, the copy tried, and since when. -/
  tile : Nat := 0
  copy : Nat := 0
  readAt : Nat := 0
  /-- Check values and bytes delivered of the layer in progress (R240). -/
  crcs : List Nat := []
  bytes : Nat := 0
  cancelled : Bool := false
deriving DecidableEq, Repr

/-- A flash channel (R233, R446): its 4 KiB sectors of physical capacity, its NAND blocks, those free as spares, those
retired; erases and programs so far, and host sector writes and programs of the last hour. -/
structure FlashChan where
  sectors : Nat := 0
  blocks : Nat := 0
  spare : Nat := 0
  retired : List Nat := []
  erases : Nat := 0
  programs : Nat := 0
  writes : Nat := 0
  readOnly : Bool := false
deriving DecidableEq, Repr

/-- Memory tiers of the node. -/
structure Tiers where
  /-- Lines that read uncorrectable until written again (R229), and SRAM-tier lines written since their hub was lost (R216). -/
  badLines : List Nat := []
  sramWritten : List Nat := []
  /-- Ceilings by (0 VI or 1 composition, id, tier 1 DRAM, 2 flash, 3 SRAM) (R220). -/
  ceilings : Tbl (Nat × Nat × Nat) Nat := []
  /-- Who is charged for a claimed slot, by descriptor: the VI and the composition; and slots in transit (R220, R223). -/
  owners : Tbl Nat (Nat × Nat) := []
  transit : List Nat := []
  policies : Tbl Nat TierPolicy := []
  /-- When a block was last read, by descriptor (R222). -/
  lastRead : Tbl Nat Nat := []
  demoteBlocked : Nat := 0
  /-- Compositions whose demotion has started and not yet reached `dram_low` (R222). -/
  demoting : List Nat := []
  demotedAt : Nat := 0
  migrations : Tbl Nat Migration := []
  /-- Patrol scrub: its period in ns and the corrected errors by channel; rows with corrected errors: on how many passes, and the last pass (R230,
  R231). -/
  scrubPeriod : Nat := 86400000000000
  corrected : Tbl Nat Nat := []
  rowErrors : Tbl Nat (Nat × Nat) := []
  /-- Spare rows left per (channel, bank row group), rows used in the channel's line-spare area, rows retired (R446). -/
  rowSpares : Tbl (Nat × Nat) Nat := []
  lineSpares : Tbl Nat Nat := []
  rowsRetired : Tbl Nat Nat := []
  /-- Flash: logical sectors mapped, with their channel and NAND block; the channels; sectors to rewrite and by when (R219,
  R233). -/
  map : Tbl Nat (Nat × Nat) := []
  chans : Tbl Nat FlashChan := []
  rewrite : Tbl Nat Nat := []
  streams : Tbl Nat WStream := []
deriving DecidableEq, Repr


/-! ### Codebooks and live calibration (chapter 7) -/

/-- A composition's calibration policy (R189, R191, R198 to R207); ratios are in units of 2^-16. -/
structure CalibPolicy where
  node : Option Nat := none
  window : Nat := 1000000000
  distRise : Nat := 98304
  encSat : Nat := 1024
  attendDist : Nat := 4096
  scaleFloor : Nat := 256
  satRatio : Nat := 16384
  reservoirRows : Nat := 2048
  spawnSamples : Nat := 65536
  maxPasses : Nat := 12
  conv : Nat := 512
  gainMin : Nat := 4096
  switchLead : Nat := 2000000
  moltRate : Nat := 50000
  moltCodeOnly : Bool := false
  autoSpawn : Bool := true
  /-- Attend thresholds `dist_hi`, `eps_hi`, `dv_hi` in units of 2^-16 (R176). -/
  distHi : Nat := 16384
  epsHi : Nat := 32768
  dvHi : Nat := 4096
deriving DecidableEq, Repr

/-- A spawn reservoir's two halves: the rows seen in each half's window and the rows kept (R200). -/
structure Reservoir where
  newSeen : Nat := 0
  newRows : List (List Byte) := []
  oldRows : List (List Byte) := []
deriving DecidableEq, Repr

/-- A spawn in progress (R201): the sample rows, the centroids after the last pass, the passes run, and by subspace the last pass's
summed squared distance as an FP32 code and whether its loop has stopped. -/
structure Spawn where
  samples : List (List Byte) := []
  cb : List Byte := []
  passes : Nat := 0
  dists : List Nat := []
  stopped : List Bool := []
deriving DecidableEq, Repr

/-- A publication in progress at the calibration node (R203): the slot, the members awaited with the rewrites made, those
that answered and when the last did, those left out, the switch time, and the load it answers. -/
structure Publication where
  slot : Nat := 0
  awaited : Tbl Nat Nat := []
  ok : List Nat := []
  lastAt : Nat := 0
  failed : List Nat := []
  switchAt : Option Nat := none
  op : Option OpRef := none
deriving DecidableEq, Repr

/-- A molt in progress (R205 to R208): the version it brings in, the blocks molted. -/
structure Molt where
  ver : Nat := 0
  molted : Nat := 0
deriving DecidableEq, Repr

/-- A codebook version cached on an MC die (R196): its set object and when it was last used. -/
structure CbCached where
  obj : List Byte := []
  usedAt : Nat := 0
deriving DecidableEq, Repr

/-- Codebooks of the node. Sets are named by context slot and directory entry, at the calibration node by composition and
directory entry. -/
structure Codebooks where
  policies : Tbl Nat CalibPolicy := []
  reservoirs : Tbl (Nat × Nat) Reservoir := []
  /-- Rows teed and not yet sealed, by descriptor, row, and 0 K or 1 V (R200). -/
  tees : Tbl (Nat × Nat × Nat) (List Byte) := []
  /-- When a context slot's drift window opened, and the counters then (R198). -/
  windowAt : Tbl Nat Nat := []
  snaps : Tbl (Nat × Nat) (List Nat) := []
  /-- Versions muted after a drift event, with the windows left (R199). -/
  mutes : Tbl (Nat × Nat) (Nat × Nat) := []
  /-- The last version issued and the live versions (R185, R186). -/
  issued : Tbl (Nat × Nat) Nat := []
  live : Tbl (Nat × Nat) (List Nat) := []
  /-- Members' last reports of references, by composition, entry, version and member (R211). -/
  reports : Tbl (Nat × Nat × Nat × Nat) Nat := []
  spawns : Tbl (Nat × Nat) Spawn := []
  pubs : Tbl (Nat × Nat × Nat) Publication := []
  molts : Tbl (Nat × Nat) Molt := []
  moltAt : Nat := 0
  /-- Blocks to try again, with the time (R206). -/
  moltRetry : Tbl Nat Nat := []
  /-- The caches, by MC die, context slot, entry and version, and fills that failed since (R196, R197). -/
  cache : Tbl (Nat × Nat × Nat × Nat) CbCached := []
  fillFails : Tbl (Nat × Nat × Nat × Nat) Nat := []
deriving DecidableEq, Repr

/-! ### Token rings, logs and client streams (chapter 12), and admission (chapter 11) -/

/-- A COMMIT past its checks and not yet complete (R107, R358): what its completion step enters. -/
structure CommitRun where
  req : Nat := 0
  c : Nat := 0
  first : Nat := 0
  ids : List Nat := []
  stopPos : Nat := 0
  reason : Nat := 0
  stopSeq : Nat := 0
  stopLen : Nat := 0
  mstate : Nat := 0
  mdepth : Nat := 0
  dropped : Nat := 0
  /-- Bridges not yet heard from, and when the ids were pushed. -/
  awaited : List Nat := []
  sentAt : Nat := 0
deriving DecidableEq, Repr

/-- A request at one of its bridges (R351, R359 to R363): its log, what is provisional, and its stream. -/
structure BridgeReq where
  primary : Bool := false
  bridge : Nat := 0
  standby : Nat := 0
  vi : Nat := 0
  composition : Nat := 0
  model : Nat := 0
  tag : Nat := 0
  handle : Nat := 0
  promptTokens : Nat := 0
  limit : Nat := 0
  home : Nat := 0
  spec : StopSpec := {}
  /-- Bytes of cache capacity its prefill may still take (R340). -/
  need : Nat := 0
  log : List Nat := []
  prov : Tbl Nat Nat := []
  /-- A TOKEN_COMMIT that overtook its TOKEN_PUSH: `tok_count`, stop position, reason, length and time. -/
  early : Option (Nat × Nat × Nat × Nat × Nat) := none
  stopPos : Nat := 0
  reason : Nat := 0
  stopLen : Nat := 0
  /-- `tok_count` and time of each TOKEN_COMMIT made final, newest first. -/
  marks : List (Nat × Nat) := []
  /-- Output tokens in records so far, and since when the oldest final id waits. -/
  sent : Nat := 0
  waitAt : Option Nat := none
  cancelAt : Option Nat := none
  ended : Bool := false
deriving DecidableEq, Repr

/-- A client stream of a VI at this bridge (R359); the record ring and tail line are host addresses, the head line a line of this node. -/
structure ClientStream where
  recBase : Nat := 0
  recLog2 : Nat := 0
  tail : Nat := 0
  head : Nat := 0
  flushNs : Nat := 20000
  written : Nat := 0
  blockedAt : Option Nat := none
  blockedTold : Bool := false
deriving DecidableEq, Repr

/-- Token streaming of the node. -/
structure Streams where
  commits : Tbl Nat CommitRun := []
  /-- Positions each bridge has logged, by request and bridge, and the bridges lost for a request (R358). -/
  acks : Tbl (Nat × Nat) Nat := []
  lost : Tbl Nat (List Nat) := []
  /-- `tok_count` after each completed COMMIT with its time, by request, newest first (R363). -/
  marks : Tbl Nat (List (Nat × Nat)) := []
  /-- Requests whose STREAM_DONE has been sent. -/
  done_ : List Nat := []
  /-- What RING_OPEN opens: the admitted request and where its ring lies (R352). -/
  opening : Tbl Nat (Admitted × Nat) := []
  bridges : Tbl Nat BridgeReq := []
  streams : Tbl (Nat × Nat) ClientStream := []
  /-- Tail-line flags on their way: request, tokens and composition (R366). -/
  flags : Tbl Nat (Nat × Nat × Nat) := []
  nextFlag : Nat := 0
deriving DecidableEq, Repr

/-- A member's last capacity report (R340). -/
structure CapReport where
  at_ : Nat := 0
  records : Nat := 0
  dirFree : Nat := 0
  dram : Nat := 0
deriving DecidableEq, Repr

/-- A submission that waits in its class queue (R342). -/
structure Waiting where
  sub : Submission := {}
  op : OpRef := {}
  at_ : Nat := 0
deriving DecidableEq, Repr

/-- Admission of one composition at this bridge (R339 to R343): requests admitted in this beat by class, the queue of all classes in
arrival order, and the members' reports. -/
structure AdmComp where
  admitted : List Nat := [0, 0, 0]
  queue : List Waiting := []
  reports : Tbl Nat CapReport := []
  staleAt : Tbl Nat Nat := []
  reportAt : Nat := 0
deriving DecidableEq, Repr


/-! ### Retrieval search (chapter 13) -/

/-- A base generation kept for the searches dispatched under it (R387): its centroid table and vectors, its side list, and the items freed
with it. -/
structure OldBase where
  gen : Nat := 0
  cents : List Byte := []
  vecs : List Byte := []
  side : List Byte := []
  items : List Nat := []
  segs : List (Nat × Nat) := []
deriving DecidableEq, Repr

/-- A merge in progress (R386): its snapshot and the operation that asked for it. -/
structure Merge where
  m : Nat := 0
  op : Option OpRef := none
deriving DecidableEq, Repr

/-- A retrieval index (R369, R370, R376, R384 to R387). -/
structure Index where
  owner : Nat := 0
  composition : Nat := 0
  dim : Nat := 0
  nlist : Nat := 0
  itemMax : Nat := 0
  sideMax : Nat := 0
  wide : Bool := false
  l2 : Bool := false
  nextSeq : Nat := 1
  baseSeq : Nat := 0
  baseGen : Nat := 0
  mirror : Nat := 0
  itemBase : Nat := 0
  centBase : Nat := 0
  vecBase : Nat := 0
  segBase : Nat := 0
  segBytes : Nat := 0
  sideCount : Nat := 0
  edgesStale : Nat := 0
  mergeAt : Nat := 0
  splitAt : Nat := 65536
  retireAt : Nat := 256
  /-- At a mirror: sequences applied beyond the next one awaited (R385). -/
  ahead : List Nat := []
  /-- Outstanding SEARCHes: command, generation and snapshot. -/
  searches : Tbl Nat (Nat × Nat) := []
  /-- By INSERT or DELETE: its sequence, how far it is with the mirror (0 not sent, 1 sent, 2 applied there), and the item numbers it claimed. -/
  seqs : Tbl Nat (Nat × Nat × List Nat) := []
  merge : Option Merge := none
  olds : List OldBase := []
  /-- Handles to release with the sequence of their DELETE. -/
  releases : List (Nat × Nat) := []
  destroyOp : Option OpRef := none
deriving DecidableEq, Repr

/-- Search on this node: the indexes, and the corrections of codewords awaited: by flash codeword address, the corrected bit positions. -/
structure Search where
  indexes : Tbl Nat Index := []
  corrections : Tbl Nat (List Nat) := []
  lostWords : List Nat := []
deriving DecidableEq, Repr



/-! ### The node -/

/-- One Rongar node. -/
structure State where
  /-- Fabric time: the node's own counter in ns, zero at the release of reset (R12, R491). -/
  now : Nat := 0
  /-- The always-on island's time in ns, which no reset stops (R475). -/
  aon : Nat := 10000000
  /-- The node id (R62). -/
  node : Nat := 0
  pw : Power := {}
  jt : Jtag := {}
  boot : Boot := {}
  pkg : Package := {}
  work : Work := { vis := [(0, { st := .active, rights := { shares := [255, 255, 255, 255, 255, 255] } })] }
  fab : Fabric := {}
  /-- The node's memory, by fabric address: rising addresses, no zero byte listed. -/
  mem : List Host.Cell := []
  adh : Adeah := {}
  led : Ledger := {}
  perf : Perf := {}
  log : Log := {}
  kv : Kv := {}
  comps : Tbl Nat Comp := []
  own : Own := {}
  prot : Prot := {}
  lnk : Links := {}
  time : Time := {}
  tra : Traffic := {}
  tier : Tiers := {}
  cb : Codebooks := {}
  str : Streams := {}
  adm : Tbl Nat AdmComp := []
  srch : Search := {}
  /-- The counter of the free values drawn (the model's own field, log 3). -/
  free : Nat := 0
  /-- The commands waiting, first in, first out. -/
  pending : List Instr := []
deriving DecidableEq, Repr

/-- The reasons a step stops with a fault: no command of the table does (every failure the manual gives is a status). -/
inductive Fault where
  /-- Raised by no command; safe. -/
  | none_
deriving DecidableEq, Repr

/-- The reasons a command is refused. -/
inductive Refusal where
  /-- Raised by the arm of a command that has no meaning yet; safe. -/
  | notModelled (mnemonic : String)
deriving DecidableEq, Repr

/-- The machine at t0 of R491: reset released with PWRGD high for 10 ms. -/
def State.reset : State := {}

end Sys2Proof.Machine
end

