-- ==== Sys2Proof/Machine/Ops.lean ====
section
/-! DEFINITION. The named operations every meaning is built of: memory, events, violations, the ledger, packets and
messages that leave the node, and the answers of mailbox operations. -/

namespace Sys2Proof.Machine
open Sys2Proof

/-- The outcome of a command. -/
abbrev Out := Host.Outcome State Fault Refusal

/-! ### Memory -/

/-- The byte a memory lists at an address; an unlisted byte reads zero (log 1). -/
def memGet : List Host.Cell → Nat → Byte
  | [], _ => 0#8
  | (k, b) :: m, a => if k = a then b else memGet m a

/-- Writes one byte; the form stays sorted, and a zero byte is not listed. -/
def memPut : List Host.Cell → Nat → Byte → List Host.Cell
  | [], a, b => if b = 0#8 then [] else [(a, b)]
  | (k, v) :: m, a, b =>
    if k = a then (if b = 0#8 then m else (a, b) :: m)
    else if a < k then (if b = 0#8 then (k, v) :: m else (a, b) :: (k, v) :: m)
    else (k, v) :: memPut m a b

/-- Writes a run of bytes from an address. -/
def memPuts : List Host.Cell → Nat → List Byte → List Host.Cell
  | m, _, [] => m
  | m, a, b :: bs => memPuts (memPut m a b) (a + 1) bs

/-- The canonical form of memory: rising addresses, no zero byte. -/
def memWf : List Host.Cell → Bool
  | [] => true
  | [(_, b)] => b != 0#8
  | (a, b) :: (a', b') :: m => decide (a < a') && b != 0#8 && memWf ((a', b') :: m)

/-- Reads one byte at a fabric address of this node. -/
def State.rd1 (s : State) (a : Nat) : Byte := memGet s.mem a
/-- Reads a run of bytes. -/
def State.rd (s : State) (a n : Nat) : List Byte := (List.range n).map (fun i => memGet s.mem (a + i))
/-- Writes a run of bytes. -/
def State.wr (s : State) (a : Nat) (bs : List Byte) : State := { s with mem := memPuts s.mem a bs }
/-- Reads `n` little-endian 64-bit words (R7). -/
def State.rdWords (s : State) (a n : Nat) : List Nat := wordsOf n (s.rd a (8 * n))
/-- Writes little-endian 64-bit words (R7). -/
def State.wrWords (s : State) (a : Nat) (ws : List Nat) : State := s.wr a (bytesOfWords ws)
/-- Applies a list of writes in order. -/
def State.wrAll (s : State) (ws : List (Nat × List Byte)) : State := ws.foldl (fun s w => s.wr w.1 w.2) s

/-- Node, space and offset of a fabric address (R282). -/
def addrNode (a : Nat) : Nat := bits a 63 52
/-- The space field of a fabric address. -/
def addrSpace (a : Nat) : Nat := bits a 51 48
/-- The offset field of a fabric address. -/
def addrOff (a : Nat) : Nat := bits a 47 0
/-- A fabric address of a node. -/
def mkAddr (node space off : Nat) : Nat := mkWord [(52, 12, node), (48, 4, space), (0, 48, off)]

/-! ### Power and gating -/

/-- Whether the package runs: converters on, no reset, REFCLK good, no trip, not shutting down, not out of service. -/
def State.live (s : State) : Bool :=
  s.pw.converters && s.pw.resetHigh && !s.pw.resetHeld && s.pw.refclk && !s.pw.tripped && !s.pw.downRunning

/-- What no command of the package reaches: the queue of commands, the TAP and the always-on clock stay as they stood (R475, R484). -/
def State.keeping (s t : State) : State := { t with pending := s.pending, jt := s.jt, aon := s.aon }

/-- A command's effect on a package that runs; a package that does not run takes no command (R477 to R479). -/
def State.whenLive (s : State) (f : State → State) : State := if s.live && !s.pkg.outOfService then s.keeping (f s) else s

/-- Whether Adeah runs on some management die (R391, R412). -/
def State.adeahUp (s : State) : Bool :=
  [0, 1].any (fun d => Tbl.at s.boot.accepted d false && !(s.pkg.fenced.contains (18 + d)))

/-- Whether the primary management die runs Adeah: it is the one that dispatches operations (R391, R392). -/
def State.primaryUp (s : State) : Bool := Tbl.at s.boot.accepted s.adh.primary false && !(s.pkg.fenced.contains (18 + s.adh.primary))

/-- Draws a fresh free value (log 3). -/
def State.draw (s : State) : Nat × State :=
  ((Config.freeWord s.free).toNat, { s with free := s.free + 1 })

/-! ### Arbiters (R43, R44) -/

/-- The pointer of arbiter `a` with `n` inputs: as moved since the last epoch boundary, else the value that boundary gave it,
and 0 before the first (R44). -/
def State.ptr (s : State) (a n : Nat) : Nat :=
  Tbl.at s.pkg.ptrs a (match s.pkg.epoch with | some t => (bits t 35 20 + s.node + a) % max 1 n | none => 0)
/-- Moves an arbiter's pointer past a winner (R43). -/
def State.granted (s : State) (a n winner : Nat) : State := { s with pkg := { s.pkg with ptrs := Tbl.set s.pkg.ptrs a ((winner + 1) % max 1 n) } }

/-! ### Virtual interfaces -/

/-- A VI; an unlisted one is UNASSIGNED. -/
def State.vi (s : State) (v : Nat) : Vi := Tbl.at s.work.vis v {}
/-- Stores a VI. -/
def State.setVi (s : State) (v : Nat) (x : Vi) : State := { s with work := { s.work with vis := Tbl.set s.work.vis v x } }
/-- Changes a VI. -/
def State.updVi (s : State) (v : Nat) (f : Vi → Vi) : State := s.setVi v (f (s.vi v))

/-- Adds to an accounting counter, modulo 2^64 (R84). -/
def State.account (s : State) (v cls k n : Nat) : State :=
  s.updVi v (fun x => { x with acct := Tbl.set x.acct (cls, k) (u64 (Tbl.at x.acct (cls, k) 0 + n)) })

/-- Whether a source identity is bound to a VI (R60). -/
def State.bound (s : State) (v : Nat) (id : SrcId) : Bool := (s.vi v).rights.sources.contains id

/-- Region rights bits (R64). -/
def rRd : Nat := 1
/-- Writes permitted. -/
def rWr : Nat := 2
/-- Atomic operations permitted. -/
def rAtom : Nat := 4
/-- Command lists and completion rings. -/
def rRing : Nat := 8
/-- KV blocks and descriptors. -/
def rKv : Nat := 16
/-- Weight tiles. -/
def rWt : Nat := 32
/-- Search index structures. -/
def rIdx : Nat := 64
/-- Token rings. -/
def rTok : Nat := 128

/-- Whether one region entry contains a range wholly and grants every right of a mask (R65). -/
def Region.grants (r : Region) (a n mask : Nat) : Bool :=
  r.valid && decide (r.base ≤ a) && decide (a + n ≤ r.limit + 1) && (r.rights &&& mask) == mask

/-- The entry of the check: the lowest-numbered qualifying one (R65). -/
def State.regionOf (s : State) (v a n mask : Nat) : Option Region :=
  (minBy? (fun e => e.1) ((s.vi v).regions.filter (fun e => e.2.grants a n mask))).map (·.2)

/-- The region check of R65; a range of zero bytes passes, and VI 0 is the Rongar's own (R58). -/
def State.covers (s : State) (v a n mask : Nat) : Bool :=
  n == 0 || (v == 0 && addrNode a == s.node) || (s.regionOf v a n mask).isSome

/-- Whether a VI has a right bit: 0 OPERATOR, 1 TRAFFIC, 2 SUBMIT, 3 INDEX, 4 STREAM (R402). -/
def State.hasRight (s : State) (v b : Nat) : Bool := bit (s.vi v).rights.bits b
/-- Whether a VI's rights list a composition; VI 0's work is the Rongar's own (R58, R402). -/
def State.coversComp (s : State) (v c : Nat) : Bool := v == 0 || (s.vi v).rights.compositions.contains c

/-- The words an engine works on: those of a fired arm's pre-posted command, else the command's own (R316). -/
def Cmd.op (c : Cmd) : List Nat := c.work.getD c.words

/-! ### Async rings and events -/

/-- Writes the waiting records of a VI's async ring while it has room: never where j - head reaches the entry count
(R397). -/
def asyncDrain (v : Nat) : List (List Nat) → State → State
  | [], s => s.updVi v (fun x => { x with asyncWait := [] })
  | r :: rs, s =>
    match (s.vi v).asyncRing with
    | none => s.updVi v (fun x => { x with asyncWait := [] })
    | some g =>
      let head := word (s.rdWords (g.tail + 64) 1) 0
      if sub64 g.written head ≥ 2 ^ g.log2 then s.updVi v (fun x => { x with asyncWait := r :: rs })
      else
        let s1 := s.wrWords (g.base + (g.written % 2 ^ g.log2) * 64) r
        let s2 := s1.wrWords g.tail [u64 (g.written + 1)]
        asyncDrain v rs (s2.updVi v (fun x => { x with asyncRing := some { g with written := g.written + 1 } }))

/-- Gives a VI's async ring records to write, after those that wait. -/
def State.asyncPut (s : State) (v : Nat) (rs : List (List Nat)) : State :=
  if (s.vi v).asyncRing.isSome then asyncDrain v ((s.vi v).asyncWait ++ rs) s else s

/-- Appends the CRC-64 of seven words as the eighth (R397, R502). -/
def sealWords (ws : List Nat) : List Nat := ws ++ [crc64 (bytesOfWords ws)]

/-- The parts an event takes (R502). -/
def EventRec.parts (e : EventRec) : Nat := max 1 (ceilDiv e.payload.length 4)

/-- The 64-byte records of an event (R502, R503). -/
def EventRec.records (node : Nat) (e : EventRec) : List (List Nat) :=
  (List.range e.parts).map (fun p => sealWords
    ([mkWord [(32, 16, 0xFFFF), (20, 12, node), (0, 16, e.code.code)], u64 e.time,
      mkWord [(32, 32, e.seq), (24, 8, e.die), (12, 12, e.unit), (10, 2, p), (8, 2, e.parts - 1)]] ++
     (List.range 4).map (fun i => u64 (e.payload.getD (4 * p + i) 0))))

/-- The newest events that fit the log of 65,536 records (R504). -/
def trimEvents : Nat → List EventRec → List EventRec
  | _, [] => []
  | room, e :: es => if e.parts ≤ room then e :: trimEvents (room - e.parts) es else []

/-- Raises an event: the log, the async rings of the VIs it concerns or that subscribed, and the collectors on both
planes (R16, R401, R504). The log is held newest first. -/
def State.raise (s : State) (ev : Ev) (die unit : Nat) (payload : List Nat) (vis : List Nat) : State :=
  let e : EventRec := { code := ev, time := s.now, seq := u32 (s.log.evSeq + 1), die := die, unit := unit, payload := payload.take 16 }
  let rs := e.records s.node
  let grams := s.adh.collectors.flatMap (fun c => [0, 1].map (fun pl =>
    ({ kind := 49605, port := pl, bytes := bytesOfWords (c :: rs.flatten) } : Datagram)))
  let s1 := { s with log := { s.log with events := trimEvents 65536 (e :: s.log.events), evSeq := s.log.evSeq + 1,
                                         grams := s.log.grams ++ grams } }
  (s.work.vis.filter (fun x => vis.contains x.1 || x.2.subscribed.contains ev.code)).foldl
    (fun t x => t.asyncPut x.1 rs) s1

/-- Raises an event that concerns no VI's own work. -/
def State.raise0 (s : State) (ev : Ev) (die unit : Nat) (payload : List Nat) : State := s.raise ev die unit payload []

/-- Die numbers of R502. -/
def dieHB (i : Nat) : Nat := i
/-- LK dies. -/
def dieLK (i : Nat) : Nat := 2 + i
/-- MC dies. -/
def dieMC (i : Nat) : Nat := 6 + i
/-- FL dies. -/
def dieFL (i : Nat) : Nat := 14 + i
/-- CX dies. -/
def dieCX (i : Nat) : Nat := 16 + i
/-- MG dies. -/
def dieMG (i : Nat) : Nat := 18 + i

/-- Whether a die is out of service. -/
def State.isFenced (s : State) (d : Nat) : Bool := s.pkg.fenced.contains d

/-- The hub that speaks for the pair: HB0 unless it is fenced (R51). -/
def State.hubDie (s : State) : Nat := if s.isFenced 0 then 1 else 0

/-! ### Violations (R408 to R410) -/

/-- A violation ring entry as its four words (R408). -/
def Violation.words (v : Violation) : List Nat :=
  [mkWord [(32, 32, v.seq), (24, 8, v.vi), (12, 12, v.srcNode), (6, 6, v.srcEp)], u64 v.address, u64 v.time,
   mkWord [(60, 4, v.kind), (48, 12, v.op), (40, 8, v.reason), (24, 16, v.rep)]]

/-- Whether a violation folds into an entry (R409). -/
def Violation.folds (e : Violation) (vi node ep addr kind op reason now : Nat) : Bool :=
  e.vi == vi && e.srcNode == node && e.srcEp == ep && e.kind == kind && e.op == op && e.reason == reason &&
    e.address / 4096 == addr / 4096 && decide (now ≤ e.time + 1000000)

/-- The ring with its newest entry for a VI replaced; the ring is held newest first. -/
def violReplace (vi : Nat) (f : Violation → Violation) : List Violation → List Violation
  | [] => []
  | e :: es => if e.vi = vi then f e :: es else e :: violReplace vi f es

/-- Logs a violation and raises EV_VIOLATION for the first one of a VI in each whole second (R409). -/
def State.violate (s : State) (vi node ep addr kind op reason : Nat) : State :=
  let op := op % 4096
  let newest := s.adh.violations.find? (fun e => e.vi == vi)
  let fold := (newest.map (fun e => e.folds vi node ep addr kind op reason s.now)).getD false
  let entry : Violation := { seq := u32 (s.adh.violSeq + 1), vi := vi, srcNode := node, srcEp := ep, address := addr,
                             time := s.now, kind := kind, op := op, reason := reason, rep := 0 }
  let s1 : State := { s with adh := { s.adh with
    violations := if fold then violReplace vi (fun e => { e with rep := sat 65535 (e.rep + 1) }) s.adh.violations
                  else (entry :: s.adh.violations).take 4096
    violSeq := if fold then s.adh.violSeq else s.adh.violSeq + 1 } }
  let x := s.vi vi
  let sec := s.now / 1000000000
  let first := x.violCount == 0 || x.violSec != sec
  let prev := if x.violSec == sec then x.violPrev else if x.violSec + 1 == sec then x.violCount else 0
  let s2 := s1.setVi vi { x with violSec := sec, violCount := (if first then 1 else x.violCount + 1), violPrev := prev }
  if first then
    let e := (s2.adh.violations.find? (fun e => e.vi == vi)).getD entry
    s2.raise0 .violation s.hubDie 0 (e.words ++ [prev])
  else s2

/-! ### The ledger (R448) -/

/-- Quantities by their row in R448's table, counted from 1. -/
def qCredits : Nat := 1
/-- Buffer descriptors: states posted, claimed, returned. -/
def qBuffers : Nat := 2
/-- Block slots: states free, tentative, committed, shard, in transit. -/
def qSlots : Nat := 3
/-- Codebook references: states held, in transit. -/
def qRefs : Nat := 4
/-- Shaper tokens: states held, spent, capped. -/
def qShaper : Nat := 5
/-- Output tokens: states in the ring, in transit, delivered, cancelled. -/
def qTokens : Nat := 6
/-- Request counts: states waiting, admitted, refused, withdrawn, held, in transit, ended. -/
def qRequests : Nat := 7

/-- Adds to one state of a book. -/
def Book.add (b : Book) (i n : Nat) : Book :=
  { b with states := (padZeros b.states (i + 1)).set i ((padZeros b.states (i + 1)).getD i 0 + n) }
where padZeros (l : List Nat) (n : Nat) : List Nat := l ++ List.replicate (n - l.length) 0

/-- Takes from one state of a book. -/
def Book.take (b : Book) (i n : Nat) : Book := { b with states := b.states.set i (b.states.getD i 0 - n) }

/-- Books `n` new units of a quantity in a state. -/
def State.bookNew (s : State) (q scope i n : Nat) : State :=
  { s with led := { s.led with books := Tbl.updD s.led.books (q, scope) {} (fun b => { (b.add i n) with total := b.total + n }) } }

/-- Moves `n` units of a quantity from one state to another. -/
def State.bookMove (s : State) (q scope i j n : Nat) : State :=
  { s with led := { s.led with books := Tbl.updD s.led.books (q, scope) {} (fun b => (b.take i n).add j n) } }

/-- Closes `n` units: they leave the node's books. -/
def State.bookEnd (s : State) (q scope i n : Nat) : State :=
  { s with led := { s.led with books := Tbl.updD s.led.books (q, scope) {} (fun b => { (b.take i n) with total := b.total - n }) } }

/-- Books units sent into transit to a peer (R449). -/
def State.transitOut (s : State) (peer q n : Nat) : State :=
  { s with led := { s.led with transit := Tbl.updD s.led.transit (peer, q) {} (fun t => { t with sent := t.sent + n }) } }

/-- Books units received out of transit from a peer (R449). -/
def State.transitIn (s : State) (peer q n : Nat) : State :=
  { s with led := { s.led with transit := Tbl.updD s.led.transit (peer, q) {} (fun t => { t with received := t.received + n }) } }

/-- A peer is lost: what it has not received of the units sent toward it is in fault transit from now on (R449, R450). -/
def State.transitLost (s : State) (peer : Nat) : State :=
  { s with led := { s.led with transit := Tbl.mapVals s.led.transit (fun k t =>
      if k.1 = peer then { t with fault := t.sent - t.peerReceived, excessSince := none } else t) } }

/-- A failed identity of the ledger: the event with the quantity, the scope, the expected and found values, their difference, the time and
whether both hubs agree; a second break of a scope within 1 s marks it suspect (R451). -/
def State.ledgerBroken (s : State) (q scope expected found : Nat) (agree : Bool) : State :=
  let again := ((Tbl.get s.led.breaks (q, scope)).map (fun t => decide (s.now ≤ t + 1000000000))).getD false
  ({ s with led := { s.led with breaks := Tbl.set s.led.breaks (q, scope) s.now
                                suspect := if again && !s.led.suspect.contains (q, scope) then s.led.suspect ++ [(q, scope)] else s.led.suspect } } : State).raise0
    .ledgerBreak s.hubDie 0 [q, scope, expected, found, sub64 found expected, s.now, b2n agree]

/-! ### What leaves the node -/

/-- The egress port of a path to a node (R295). -/
def State.egress (s : State) (dst path : Nat) : Option Nat := Tbl.get s.fab.routes (dst, path)

/-- Sends a control message (R124, R507). -/
def State.tell (s : State) (m : CtlMsg) : State := { s with log := { s.log with msgs := s.log.msgs ++ [m] } }

/-- Sends a datagram on a management port, or a frame on a port. -/
def State.gram (s : State) (kind port : Nat) (bs : List Byte) : State :=
  { s with log := { s.log with grams := s.log.grams ++ [{ kind := kind, port := port, bytes := bs }] } }

/-! ### Mailbox operations (R393 to R400) -/

/-- Who may issue an operation (R400): any ACTIVE VI, an operator, or only a change order. -/
inductive Form where
  /-- U. -/
  | user
  /-- U, and one of the reads a management session may issue (R422). -/
  | userRead
  /-- O. -/
  | oper
  /-- U, O. -/
  | userOper
  /-- C. -/
  | order
  /-- Management sessions only. -/
  | mgmt
deriving DecidableEq, Repr

/-- Whether a caller acts as OPERATOR (R400, R422). -/
def State.isOperator (s : State) (c : Caller) : Bool :=
  c.order.isSome || (match c.session with
    | some id => Tbl.has s.adh.sessions id
    | none => (s.vi c.vi).st == .active && s.hasRight c.vi 0)

/-- Whether a form admits a caller (R400, R404, R422). -/
def State.admits (s : State) (f : Form) (c : Caller) : Bool :=
  match f with
  | .order => c.order.isSome
  | .oper => s.isOperator c
  | .userOper => s.isOperator c || (c.session.isNone && (s.vi c.vi).st == .active)
  | .user => c.session.isNone && c.order.isNone && (s.vi c.vi).st == .active
  | .userRead => c.order.isNone && (match c.session with
      | some id => Tbl.has s.adh.sessions id
      | none => (s.vi c.vi).st == .active)
  | .mgmt => (c.session.map (fun id => Tbl.has s.adh.sessions id)).getD false

/-- A mailbox; an unlisted one is IDLE. -/
def State.mbox (s : State) (v m : Nat) : Mailbox := Tbl.at s.adh.mailboxes (v, m) {}
/-- Stores a mailbox. -/
def State.setMbox (s : State) (v m : Nat) (x : Mailbox) : State :=
  { s with adh := { s.adh with mailboxes := Tbl.set s.adh.mailboxes (v, m) x } }

/-- Whether the request a caller makes is the one its mailbox holds and not yet applied, for an operation code (R392, R394, R395). -/
def State.holdsReq (s : State) (c : Caller) (op : Nat) : Bool :=
  c.order.isSome || (match c.session with
    | some id => c.vi == 0 && ((Tbl.get s.adh.sessions id).map (fun x => fld x.header 0 63 48 == op)).getD false
    | none => let x := s.mbox c.vi c.mbox
              x.busy && fld x.header 0 63 48 == op && fld x.header 0 31 16 == c.mbSeq && !((x.applied.map (fun a => a.mbSeq == c.mbSeq)).getD false))

/-- Whether a deferred outcome goes to the VI's async ring: version 3 and a ring set (R397). -/
def State.usesRing (s : State) (c : Caller) : Bool :=
  c.session.isNone && c.order.isNone && fld (s.mbox c.vi c.mbox).header 0 47 40 == 3 && (s.vi c.vi).asyncRing.isSome

/-- The reference by which a caller's deferred operation is answered later. -/
def State.refOf (s : State) (c : Caller) (op : Nat) : OpRef :=
  { vi := c.vi, mbox := c.mbox, mbSeq := c.mbSeq, op := op, session := c.session, handle := s.adh.nextHandle, ring := s.usesRing c }

/-- Lines of bytes as mailbox lines from a line number on. -/
def mboxLines (first : Nat) (bs : List Byte) : Tbl Nat (List Byte) :=
  (List.range (ceilDiv bs.length 64)).map (fun i => (first + i, padTo 64 ((bs.drop (64 * i)).take 64)))

/-- The mailbox with lines written over it. -/
def Mailbox.put (m : Mailbox) (ls : Tbl Nat (List Byte)) : Mailbox :=
  { m with lines := ls.foldl (fun t e => Tbl.set t e.1 e.2) m.lines }

/-- Writes a mailbox response: the body first, as far as the mailbox and `resp_max` take it, then the header line, and the mailbox is IDLE (R394 to
R396). -/
def State.mboxAnswer (s : State) (v m mbSeq op : Nat) (st : Status) (result handle : Nat) (body : List Nat) : State :=
  let x := s.mbox v m
  let bs := (bytesOfWords body).take (1984 + (if word x.header 3 = 0 then 0 else fld x.header 4 63 32))
  let h := [mkWord [(48, 16, st.code), (32, 16, mbSeq), (16, 16, op), (8, 8, fld x.header 0 47 40), (0, 8, x.dropped)],
    u64 result, mkWord [(32, 32, bs.length), (0, 32, handle)], u64 x.acceptT, u64 s.now, 0, 0]
  let h := h ++ [crc64 (bytesOfWords h ++ bs)]
  let far := bs.drop 1984
  let s1 := s.setMbox v m ({ x.put (mboxLines 33 (bs.take 1984) ++ mboxLines 32 (bytesOfWords h)) with
    busy := false, dropped := 0, applied := some { mbSeq := mbSeq, status := st, result := result, body := body } })
  if far.isEmpty then s1 else s1.wr (word x.header 3) far

/-- Answers a caller's operation (R395 to R397). A deferred answer leaves the mailbox BUSY where no async ring can
carry the final record. -/
def State.respond (s : State) (c : Caller) (op : Nat) (st : Status) (result : Nat) (body : List Nat) : State :=
  let deferred := st = .adhAccepted ∨ st = .delayed
  let s1 := if deferred then { s with adh := { s.adh with nextHandle := u32 (s.adh.nextHandle + 1) } } else s
  if c.order.isSome then s1 else
  match c.session with
  | some id =>
    ({ s1 with adh := { s1.adh with sessions := Tbl.upd s1.adh.sessions id (fun x => { x with header := [] }) } } : State).gram 49602 0
      (bytesOfWords ([id, op, st.code, u64 result] ++ body))
  | none =>
    if deferred && !s.usesRing c then
      let x := s1.mbox c.vi c.mbox
      s1.setMbox c.vi c.mbox { x with applied := some { mbSeq := c.mbSeq, status := st, result := result, body := body } }
    else s1.mboxAnswer c.vi c.mbox c.mbSeq op st result (if deferred then s.adh.nextHandle else 0) body

/-- Posts the final outcome of a deferred operation: the async ring record, or the mailbox response (R397). -/
def State.finishOp (s : State) (r : OpRef) (st : Status) (result : Nat) (extra : List Nat) : State :=
  match r.session with
  | some id => s.gram 49602 0 (bytesOfWords ([id, r.op, st.code, u64 result] ++ extra))
  | none =>
    if r.ring then s.asyncPut r.vi [sealWords ([mkWord [(48, 16, st.code), (32, 16, r.op), (0, 32, r.handle)], u64 result,
        u64 s.now] ++ (extra ++ [0, 0, 0, 0]).take 4)]
    else if (s.mbox r.vi r.mbox).busy && fld (s.mbox r.vi r.mbox).header 0 31 16 == r.mbSeq then
      s.mboxAnswer r.vi r.mbox r.mbSeq r.op st result 0 extra
    else s

/-- What an operation gives: its status, its result word, its response body, and the state after it. -/
structure AdhOut where
  st : Status
  result : Nat
  body : List Nat
  s : State

/-- An operation that changes nothing and answers a status. -/
def adhFail (st : Status) (s : State) : AdhOut := ⟨st, 0, [], s⟩
/-- An operation that completes. -/
def adhOk (s : State) : AdhOut := ⟨.ok, 0, [], s⟩

/-- An operation refused for a right (R402); the violation is logged by `adhRun`. -/
def adhRights (s : State) : AdhOut := ⟨.violation, 0, [0, 3, 3], s⟩
/-- An operation refused for a range no region grants: the log names the address (R65, R408). -/
def adhRegion (a : Nat) (s : State) : AdhOut := ⟨.violation, 0, [a, 1, 3], s⟩

/-- Logs the violation a refused operation carries as address, reason and kind (R408, R409). -/
def State.adhViolate (s : State) (c : Caller) (op : Nat) (info : List Nat) : State :=
  s.violate c.vi s.node 63 (info.getD 0 0) (info.getD 2 3) op (info.getD 1 3)

/-- Runs a mailbox operation: Adeah runs and holds the request; a form that does not admit the caller is a logged
violation (R400). -/
def State.adhRun (s : State) (op : Nat) (f : Form) (c : Caller) (g : State → AdhOut) : State :=
  if !(s.live && s.primaryUp) || !s.holdsReq c op then s
  else s.keeping (
    if !s.admits f c then (s.violate c.vi s.node 63 0 3 op 3).respond c op .violation 0 []
    else let o := g s
         if o.st = .violation then (o.s.adhViolate c op o.body).respond c op .violation o.result []
         else o.s.respond c op o.st o.result o.body)

/-- Runs a deferred operation that completes within its step: accepted, then its final outcome (R397, R400). -/
def State.adhRunD (s : State) (op : Nat) (f : Form) (c : Caller) (g : State → AdhOut) : State :=
  if !(s.live && s.primaryUp) || !s.holdsReq c op then s
  else s.keeping (
    if !s.admits f c then (s.violate c.vi s.node 63 0 3 op 3).respond c op .violation 0 []
    else let o := g s
         if o.st = .violation then (o.s.adhViolate c op o.body).respond c op .violation o.result []
         else if o.st ≠ .ok then o.s.respond c op o.st o.result o.body
         else if c.order.isSome then o.s
         else (o.s.respond c op .adhAccepted 0 []).finishOp (o.s.refOf c op) .ok o.result o.body)

/-! ### Compositions (R18 to R20) -/

/-- A composition the node holds. -/
def State.comp (s : State) (c : Nat) : Comp := Tbl.at s.comps c {}
/-- Changes a composition. -/
def State.updComp (s : State) (c : Nat) (f : Comp → Comp) : State := { s with comps := Tbl.upd s.comps c f }
/-- The member map of an epoch, or the current one where the epoch is not held. -/
def Comp.mapAt (c : Comp) (ep : Nat) : CompMap := ((c.maps.find? (fun m => m.epoch == ep)).orElse (fun _ => c.maps.head?)).getD {}
/-- The current member map. -/
def Comp.cur (c : Comp) : CompMap := c.maps.headD {}
/-- Every member of a map. -/
def CompMap.members (m : CompMap) : List Nat := (m.prompt ++ m.gen ++ m.cache ++ m.home).dedup

end Sys2Proof.Machine
end

