-- ==== Sys2Proof/Machine/PackageOps.lean ====
section
/-! DEFINITION. Shared operations of the package: ALERT_N, the throttle, spares and capacity, jobs wiped by a fault, and
the fencing of a die (R49, R51, R56, R85, R447, R482, R497). -/

namespace Sys2Proof.Machine
open Sys2Proof

/-! ### ALERT_N and the throttle -/

/-- The throttle step in force: the largest any cause requires (R497). -/
def Power.step (p : Power) : Nat := max p.stepTemp (max p.stepPower p.stepSafe)

/-- Whether each cause of ALERT_N holds, in the order of R482's table. -/
def State.alertCauses (s : State) : List Bool :=
  [s.pw.vinWarn, s.pw.temps.any (fun t => decide (100 ≤ t.2)), decide (0 < s.pw.step), s.pw.safeStorm || s.pw.safeStuck,
   !s.pw.refclk, s.boot.recovery.running, s.pw.capLost]

/-- ALERT_N follows its causes; its release waits 1 ms after the last one ends (R482). -/
def State.alert (s : State) : State :=
  if s.alertCauses.any id then { s with pw := { s.pw with alertLow := true, alertEndAt := 0 } }
  else if s.pw.alertLow && s.pw.alertEndAt == 0 then { s with pw := { s.pw with alertEndAt := s.aon } }
  else s

/-- The tiles in service on an MC die (R446, R455). -/
def State.tilesOf (s : State) (m : Nat) : Nat :=
  if s.isFenced (dieMC m) || s.pkg.compRetired.contains m then 0 else Tbl.at s.pkg.tiles m 64

/-- Attend capacity at a throttle step, in tiles times MHz (R497). -/
def State.attendCap (s : State) (step : Nat) : Nat :=
  ((List.range 8).map s.tilesOf).sum * 850 * (16 - step) / 16

/-- Codec capacity at a throttle step, in MHz (R497). -/
def State.codecCap (s : State) (step : Nat) : Nat :=
  ((List.range 2).filter (fun i => !s.isFenced (dieCX i))).length * 1200 * (16 - step) / 16

/-- Raises EV_THROTTLE for a change of step: on leaving 0, on returning to 0, and else at most once a second (R497). -/
def State.throttleEvent (s : State) (cause before : Nat) : State :=
  let after := s.pw.step
  if before = after then s
  else if before = 0 ∨ after = 0 ∨ s.pw.throttleEvAt + 1000000000 ≤ s.aon then
    { s.raise0 .throttle (dieMG s.adh.primary) 0
        [cause, before, after, s.attendCap before, s.attendCap after, s.codecCap before, s.codecCap after]
      with pw := { s.pw with throttleEvAt := s.aon } }
  else s

/-! ### Spares and capacity -/

/-- Raises EV_SPARE_USED (R447). -/
def State.spareUsed (s : State) (die unit before after : Nat) : State := s.raise0 .spareUsed die unit [unit, before, after]

/-- Raises EV_CAPACITY_REDUCED and marks the capacity loss for ALERT_N (R447, R482). -/
def State.capReduced (s : State) (die unit before after work : Nat) : State :=
  ({ s.raise0 .capacityReduced die unit [unit, before, after, work] with pw := { s.pw with capLost := true } } : State).alert

/-! ### Jobs on an instance -/

/-- Whether a command occupies a resident-job slot. -/
def Cmd.resident (c : Cmd) : Bool := c.st == .running || c.st == .stopping

/-- Whether a job's result has not reached the hub (R86). -/
def Cmd.unfinished (c : Cmd) : Bool := c.outcome.isNone

/-- Jobs of an instance that a fault wipes: resident and saved ones whose result has not reached the hub (R85, R86). -/
def State.wipable (s : State) (cls inst : Nat) : List Nat :=
  (s.work.cmds.filter (fun e => e.2.cls == cls && e.2.inst == inst && (e.2.resident || e.2.st == .saved) && e.2.unfinished)).map (·.1)

/-- Changes a command. -/
def State.updCmd (s : State) (cid : Nat) (f : Cmd → Cmd) : State := { s with work := { s.work with cmds := Tbl.upd s.work.cmds cid f } }

/-- An instance; an unlisted one has the reset values. -/
def State.inst (s : State) (cls i : Nat) : Inst := Tbl.at s.work.insts (cls, i) {}
/-- Changes an instance. -/
def State.updInst (s : State) (cls i : Nat) (f : Inst → Inst) : State :=
  { s with work := { s.work with insts := Tbl.set s.work.insts (cls, i) (f (s.inst cls i)) } }

/-! ### Loss of a die (R49, R51, R56) -/

/-- The dies of a pair: HB, CX and MG dies come in pairs (R56). -/
def pairOf (d : Nat) : Option Nat :=
  if d < 2 then some (1 - d) else if d = 16 then some 17 else if d = 17 then some 16
  else if d = 18 then some 19 else if d = 19 then some 18 else none

/-- The capacity figure of a kind of die: crossbar GB/s, lanes, DRAM channels, flash channels, codec or management dies
in service (R52, R56). -/
def State.dieCapacity (s : State) (d : Nat) : Nat :=
  if d < 2 then 2400 * ((List.range 2).filter (fun i => !s.isFenced i)).length
  else if d < 6 then 36 * ((List.range 4).filter (fun i => !s.isFenced (dieLK i))).length
  else if d < 14 then (s.pkg.dramUp.filter (fun c => !s.pkg.dramLost.contains c && !s.isFenced (dieMC (c / 2)))).length
  else if d < 16 then (s.pkg.flashUp.filter (fun c => !s.pkg.flashLost.contains c && !s.isFenced (dieFL (c / 16)))).length
  else if d < 18 then ((List.range 2).filter (fun i => !s.isFenced (dieCX i))).length
  else ((List.range 2).filter (fun i => !s.isFenced (dieMG i))).length

/-- The engine instances a die carries: (class, instance) (R37, R38, R67). -/
def dieInsts (d : Nat) : List (Nat × Nat) :=
  if 2 ≤ d ∧ d < 6 then [(6, d - 2)] else if 6 ≤ d ∧ d < 14 then [(2, d - 6)]
  else if 16 ≤ d ∧ d < 18 then [(3, d - 16)] else []

/-! ### Channels -/

/-- Whether a DRAM line's channel serves (R284). -/
def State.channelUp (s : State) (ch : Nat) : Bool :=
  s.pkg.dramUp.contains ch && !s.pkg.dramLost.contains ch && !s.isFenced (dieMC (ch / 2))

/-- Whether a flash channel serves. -/
def State.flashChanUp (s : State) (ch : Nat) : Bool :=
  s.pkg.flashUp.contains ch && !s.pkg.flashLost.contains ch && !s.isFenced (dieFL (ch / 16))

end Sys2Proof.Machine
end

