-- ==== Sys2Proof/Machine/KvOps.lean ====
section
/-! DEFINITION. Request records, block maps, descriptors, slots and plane check values (chapter 4), as shared
operations over the bytes in memory. -/

namespace Sys2Proof.Machine
open Sys2Proof

/-! ### Records (R88 to R91) -/

/-- The home node of a request id (R88). -/
def reqHome (rid : Nat) : Nat := bits rid 47 36
/-- The sequence of a request id. -/
def reqSeq (rid : Nat) : Nat := bits rid 35 0
/-- A request id of a home and a sequence. -/
def mkReq (home seq : Nat) : Nat := mkWord [(36, 12, home), (0, 36, seq)]

/-- The request record's eight words (R90). -/
def Req.words (rid : Nat) (r : Req) : List Nat :=
  [mkWord [(58, 2, r.admClass), (56, 2, r.kvRepr), (48, 8, r.ownerVi), (0, 48, rid)],
   mkWord [(48, 16, r.composition), (40, 6, r.ctxSlot), (0, 32, r.mapEpoch)],
   mkWord [(32, 32, r.committed), (0, 32, r.limit)], mkWord [(32, 32, r.promptTokens), (0, 32, r.prefixTokens)],
   u64 r.blockMap, u64 r.tokenRing, u64 r.admitTime, mkWord [(32, 32, r.holdEpoch)]]

/-- A request record from its words (R90, R128). -/
def Req.ofWords (w : List Nat) : Req :=
  { admClass := fld w 0 59 58, kvRepr := fld w 0 57 56, ownerVi := fld w 0 55 48, composition := fld w 1 63 48,
    ctxSlot := fld w 1 45 40, mapEpoch := fld w 1 31 0, committed := fld w 2 63 32, limit := fld w 2 31 0,
    promptTokens := fld w 3 63 32, prefixTokens := fld w 3 31 0, blockMap := word w 4, tokenRing := word w 5,
    admitTime := word w 6, holdEpoch := fld w 7 63 32 }

/-- The record this node holds for a request. -/
def State.req (s : State) (rid : Nat) : Option Req := Tbl.get s.kv.reqs rid
/-- Changes a record. -/
def State.updReq (s : State) (rid : Nat) (f : Req → Req) : State := { s with kv := { s.kv with reqs := Tbl.upd s.kv.reqs rid f } }
/-- Stores a record. -/
def State.setReq (s : State) (rid : Nat) (r : Req) : State := { s with kv := { s.kv with reqs := Tbl.set s.kv.reqs rid r } }
/-- Frees a record. -/
def State.freeReq (s : State) (rid : Nat) : State := { s with kv := { s.kv with reqs := Tbl.del s.kv.reqs rid } }

/-- A context slot; an unlisted one is EMPTY. -/
def State.ctx (s : State) (n : Nat) : Ctx := Tbl.at s.work.ctxs n {}
/-- The model geometry a request's record names. -/
def State.geom (s : State) (r : Req) : CtxFields := (s.ctx r.ctxSlot).f

/-- Blocks per layer and head of a request: ceil(context_limit / 64) (R91). -/
def Req.span (r : Req) : Nat := ceilDiv r.limit 64

/-- The address of a block-map entry (R91). -/
def State.mapAddr (s : State) (r : Req) (l h b : Nat) : Nat := r.blockMap + 8 * (((l * (s.geom r).kvHeads) + h) * r.span + b)
/-- A block-map entry: a descriptor's address, or zero. -/
def State.mapEntry (s : State) (r : Req) (l h b : Nat) : Nat := word (s.rdWords (s.mapAddr r l h b) 1) 0
/-- Writes a block-map entry. -/
def State.setMapEntry (s : State) (r : Req) (l h b da : Nat) : State := s.wrWords (s.mapAddr r l h b) [da]

/-- Every (layer, head) of a model. -/
def CtxFields.heads (f : CtxFields) : List (Nat × Nat) :=
  (List.range f.layers).flatMap (fun l => (List.range f.kvHeads).map (fun h => (l, h)))

/-- Every block position of a request, in block-map order. -/
def State.positions (s : State) (r : Req) : List (Nat × Nat × Nat) :=
  (s.geom r).heads.flatMap (fun lh => (List.range r.span).map (fun b => (lh.1, lh.2, b)))

/-- The existing blocks of a request: position and descriptor address, in block-map order, zero entries skipped. -/
def State.blocks (s : State) (r : Req) : List ((Nat × Nat × Nat) × Nat) :=
  ((s.positions r).map (fun p => (p, s.mapEntry r p.1 p.2.1 p.2.2))).filter (fun e => e.2 ≠ 0)

/-! ### Descriptors (R95 to R98) -/

/-- A block descriptor's fields (R97). -/
structure Desc where
  slot : Nat := 0
  req : Nat := 0
  head : Nat := 0
  dim : Nat := 0
  base : Nat := 0
  layer : Nat := 0
  valid : Nat := 0
  committed : Nat := 0
  repr : Nat := 0
  st : Nat := 0
  kVer : Nat := 0
  vVer : Nat := 0
  epoch : Nat := 0
  holder : Nat := 0
  shard : Nat := 0
  stripe : Nat := 0
  crcA : Nat := 0
  crcB : Nat := 0
deriving DecidableEq, Repr

/-- Descriptor words 0 to 6. -/
def Desc.words7 (d : Desc) : List Nat :=
  [u64 d.slot, mkWord [(16, 48, d.req), (8, 8, d.head), (5, 3, d.dim)],
   mkWord [(32, 32, d.base), (22, 10, d.layer), (15, 7, d.valid), (8, 7, d.committed), (6, 2, d.repr), (3, 3, d.st)],
   mkWord [(48, 16, d.kVer), (32, 16, d.vVer), (0, 32, d.epoch)],
   mkWord [(52, 12, d.holder), (32, 4, d.shard), (0, 32, d.stripe)], u64 d.crcA, u64 d.crcB]

/-- The eight words of a descriptor, `desc_crc` last. -/
def Desc.words (d : Desc) : List Nat := sealWords d.words7

/-- A descriptor from its words. -/
def Desc.ofWords (w : List Nat) : Desc :=
  { slot := word w 0, req := fld w 1 63 16, head := fld w 1 15 8, dim := fld w 1 7 5, base := fld w 2 63 32, layer := fld w 2 31 22,
    valid := fld w 2 21 15, committed := fld w 2 14 8, repr := fld w 2 7 6, st := fld w 2 5 3, kVer := fld w 3 63 48,
    vVer := fld w 3 47 32, epoch := fld w 3 31 0, holder := fld w 4 63 52, shard := fld w 4 35 32, stripe := fld w 4 31 0,
    crcA := word w 5, crcB := word w 6 }

/-- Descriptor states: FREE. -/
def dFree : Nat := 0
/-- OPEN. -/
def dOpen : Nat := 1
/-- FULL. -/
def dFull : Nat := 2
/-- CONVERTING. -/
def dConverting : Nat := 3
/-- LOST. -/
def dLost : Nat := 4

/-- D of a `head_dim` code (R97). -/
def dimOf (c : Nat) : Nat := [64, 96, 128, 192, 256].getD c 0
/-- The `head_dim` code of D. -/
def dimCode (d : Nat) : Nat := if d = 64 then 0 else if d = 96 then 1 else if d = 128 then 2 else if d = 192 then 3 else 4
/-- Whether D is one of the five head dimensions. -/
def dimOk (d : Nat) : Bool := [64, 96, 128, 192, 256].contains d

/-- The descriptor at an address. -/
def State.desc (s : State) (da : Nat) : Desc := Desc.ofWords (s.rdWords da 8)
/-- Writes a descriptor with its check value. -/
def State.setDesc (s : State) (da : Nat) (d : Desc) : State := s.wrWords da d.words

/-- The arena whose descriptors include an address. -/
def State.arenaOf (s : State) (da : Nat) : Option Arena :=
  s.kv.arenas.find? (fun a => decide (a.descBase ≤ da) && decide (da < a.descBase + 64 * a.slots))

/-- The slot address computed from a descriptor's own address (R95). -/
def State.slotAddr (s : State) (da : Nat) : Option Nat :=
  (s.arenaOf da).map (fun a => a.base + (da - a.descBase) / 64 * (256 * a.headDim))

/-- Whether a descriptor verifies: `desc_crc` and the computed slot address (R96). -/
def State.descOk (s : State) (da : Nat) : Bool :=
  let w := s.rdWords da 8
  word w 7 == crc64 (bytesOfWords (w.take 7)) && s.slotAddr da == some (word w 0)

/-- Raises EV_DESC_CHECK for a descriptor that failed (R96). -/
def State.descFail (s : State) (da : Nat) : State := s.raise0 .descCheck s.hubDie 0 [da]

/-! ### Planes (R92 to R94, R99, R100) -/

/-- Bytes of a slot in use under a representation: BF16, FP8-plus-code, code-only (R92). -/
def inUse (repr d : Nat) : Nat := if repr = 0 then 256 * d else if repr = 1 then 160 * d else 32 * d

/-- The ranges, as (offset, length) in the slot, that token t feeds to `crc_a` (R93, R99). -/
def rowA (repr d t : Nat) : List (Nat × Nat) :=
  if repr = 0 then [(t * 2 * d, 2 * d), (128 * d + t * 2 * d, 2 * d)]
  else [(t * (d / 8), d / 8), (8 * d + t * (d / 8), d / 8), (16 * d + t * (d / 4), d / 4)]

/-- The ranges that token t feeds to `crc_b` (R93, R99). -/
def rowB (repr d t : Nat) : List (Nat × Nat) :=
  if repr = 1 then [(32 * d + t * d, d), (96 * d + t * d, d)] else []

/-- The bytes of a list of ranges of a slot. -/
def State.slotBytes (s : State) (slot : Nat) (rs : List (Nat × Nat)) : List Byte := rs.flatMap (fun r => s.rd (slot + r.1) r.2)

/-- The bytes of tokens t0 to t1 - 1 that feed a stream. -/
def State.stream (s : State) (slot : Nat) (f : Nat → List (Nat × Nat)) (t0 t1 : Nat) : List Byte :=
  (List.range (t1 - t0)).flatMap (fun i => s.slotBytes slot (f (t0 + i)))

/-- `crc_a` of a slot's rows below a count (R99). -/
def State.crcA (s : State) (d : Desc) (n : Nat) : Nat := crc64 (s.stream d.slot (rowA d.repr (dimOf d.dim)) 0 n)
/-- `crc_b` of a slot's rows below a count (R99). -/
def State.crcB (s : State) (d : Desc) (n : Nat) : Nat := if d.repr = 1 then crc64 (s.stream d.slot (rowB d.repr (dimOf d.dim)) 0 n) else 0

/-- The plane of a block that does not verify: 1 the first plane, 2 the exact plane (R100). -/
def State.badPlane (s : State) (d : Desc) : Option Nat :=
  if s.crcA d d.committed ≠ d.crcA then some 1 else if s.crcB d d.committed ≠ d.crcB then some 2 else none

/-- A copy whose plane failed is set LOST and EV_PLANE_CHECK raised (R100). -/
def State.planeFail (s : State) (da plane : Nat) : State :=
  (s.setDesc da { s.desc da with st := dLost }).raise0 .planeCheck (dieMC (bits da 45 43)) 0 [da, plane]

/-- Seals rows: the check values run on through rows up to a new count, and a block of 64 is FULL (R99, R107). -/
def State.sealRows (s : State) (da n : Nat) : State :=
  let d := s.desc da
  let dd := dimOf d.dim
  s.setDesc da { d with
    crcA := crcFrom d.crcA (s.stream d.slot (rowA d.repr dd) d.committed n)
    crcB := if d.repr = 1 then crcFrom d.crcB (s.stream d.slot (rowB d.repr dd) d.committed n) else 0
    committed := n, st := if n = 64 then dFull else dOpen }

/-! ### Placement and slots (R54, R95, R108) -/

/-- The MC dies whose compute is in service, else those whose memory is (R54). -/
def State.mcRanks (s : State) : List Nat :=
  let mem := (List.range 8).filter (fun m => !s.isFenced (dieMC m) &&
    s.pkg.dramUp.any (fun c => c / 2 == m && !s.pkg.dramLost.contains c))
  let comp := mem.filter (fun m => !s.pkg.compRetired.contains m && (s.inst 2 m).st != .retired)
  if comp.isEmpty then mem else comp

/-- The MC die a new block of a layer and head is placed on (R54). -/
def State.dieFor (s : State) (l h : Nat) : Option Nat :=
  let rs := s.mcRanks
  if rs.isEmpty then none else rs[(h + l) % rs.length]?

/-- A free descriptor of an arena. -/
def State.freeIn (s : State) (a : Arena) : Option Nat :=
  ((List.range a.slots).map (fun i => a.descBase + 64 * i)).find? (fun da => (s.desc da).st == dFree)

/-- A free slot's descriptor on a tier (1 DRAM, 2 flash, 3 SRAM), on a die where the tier is DRAM. -/
def State.freeSlot (s : State) (tier die d : Nat) : Option Nat :=
  (s.kv.arenas.filter (fun a => a.tier == tier && (tier != 1 || a.die == die) && a.headDim == d && !a.parity)).findSome? s.freeIn

/-- The ledger scope of a slot: its arena's first descriptor. -/
def State.slotScope (s : State) (da : Nat) : Nat := ((s.arenaOf da).map (·.descBase)).getD 0

/-- Slot states in the ledger (R448): free 0, tentative 1, committed 2, shard 3, in transit 4. -/
def State.bookSlot (s : State) (da i j : Nat) : State := s.bookMove qSlots (s.slotScope da) i j 1

/-- The ledger state a claimed slot is in: committed with a committed row, tentative with none (R108). -/
def Desc.book (d : Desc) : Nat := if 0 < d.committed then 2 else 1

/-- Whether a block is this node's own and not shared under a prefix handle. -/
def State.ownBlock (s : State) (rid da : Nat) : Bool := addrNode da == s.node && (s.desc da).req == rid

end Sys2Proof.Machine
end

