-- ==== Sys2Proof/Machine/TrafficOps.lean ====
section
/-! DEFINITION. Token buckets, shapers, the egress queues and the gates of the ports (chapter 11), as shared operations. -/

namespace Sys2Proof.Machine
open Sys2Proof

/-! ### Token buckets (R332 to R335) -/

/-- A bucket accrued to a time: tokens above `burst` are booked capped; a bucket of rate 0 is frozen (R333, R335). -/
def Bucket.accrue (b : Bucket) (now : Nat) : Bucket :=
  if b.rate = 0 then { b with at_ := now } else
    let x := b.frac + b.rate * (now - b.at_)
    let add := x / 1000
    { b with held := min b.burst (b.held + add), capped := b.capped + (b.held + add - b.burst), minted := b.minted + add,
             frac := x % 1000, at_ := now }

/-- Draws tokens (R331). -/
def Bucket.draw (b : Bucket) (n : Nat) : Bucket := { b with held := b.held - n, spent := b.spent + n }

/-- The first slot boundary of 128 ns at which the tokens cover a packet (R333). -/
def Bucket.slotFor (b : Bucket) (now need : Nat) : Nat :=
  let wait := if need ≤ b.held then 0 else ceilDiv ((need - b.held) * 1000 - b.frac) (max 1 b.rate)
  ceilDiv (now + wait) 128 * 128

/-- A change of rate and burst: held tokens stay, those above the new burst are booked capped (R335). -/
def Bucket.change (b : Bucket) (now rate burst : Nat) : Bucket :=
  let a := b.accrue now
  { a with rate := rate, burst := burst, held := min a.held burst, capped := a.capped + (a.held - burst), at_ := now }

/-- Whether minted equals held plus spent plus capped (R334). -/
def Bucket.balanced (b : Bucket) : Bool := b.minted == b.held + b.spent + b.capped

/-- The tokens a packet draws: one per byte (R331). -/
def tokensOf (p : Packet) : Nat := 48 + p.payloadLen

/-- The permitted range of a burst for a rate in MB/s (R332). -/
def burstOk (rate burst : Nat) : Bool := decide (max 4144 (ceilDiv (rate * 256) 1000) ≤ burst) && decide (burst ≤ 67108864)

/-! ### The egress queues and the shapers (R331, R333) -/

/-- A port; an unlisted one is DISABLED. -/
def State.port (s : State) (p : Nat) : Port := Tbl.at s.lnk.ports p {}
/-- Stores a port. -/
def State.setPort (s : State) (p : Nat) (x : Port) : State := { s with lnk := { s.lnk with ports := Tbl.set s.lnk.ports p x } }
/-- Changes a port. -/
def State.updPort (s : State) (p : Nat) (f : Port → Port) : State := s.setPort p (f (s.port p))


/-- The gates of a port. -/
def State.gates (s : State) (p : Nat) : Gates := Tbl.at s.tra.gates p {}
/-- Changes a port's gates. -/
def State.updGates (s : State) (p : Nat) (f : Gates → Gates) : State :=
  { s with tra := { s.tra with gates := Tbl.set s.tra.gates p (f (s.gates p)) } }

/-- Whether every gate of a port stands open because of a fallback (R330). -/
def State.gatesForced (s : State) (p : Nat) : Bool :=
  let g := s.gates p
  (g.inFallback && g.fallbackOpen) || (g.resumeAt.map (fun t => decide (s.now < t))).getD false

/-- Packets of a class queued at a port, the head first. -/
def State.queued (s : State) (port cls : Nat) : List TxPkt := s.lnk.queue.filter (fun q => q.port == port && q.pkt.tc == cls)

/-- Brings what telemetry counts of a port's class up to now: depth, head wait, and the time its work waited for the gate or for credit (R347). -/
def State.telSettle (s : State) (port cls : Nat) : State :=
  let key := (1, port, cls)
  if !(s.tra.telemetry.any (fun t => t.2.queues.contains key)) then s else
    let qs := s.queued port cls
    let depth := (qs.map (fun q => q.pkt.bytes.length)).sum
    let wait := ((qs.head?).map (fun q => s.now - q.at_)).getD 0
    let isOpen := s.gatesForced port || bit (s.gates port).open_ cls
    let noCredit := ((qs.head?).map (fun q =>
      let t := Tbl.at (s.port port).tx (2 * cls + b2n q.pkt.resp) {}
      decide (t.returned + t.size < t.sent + q.pkt.units))).getD false
    let step := fun (x : TelQueue) =>
      let dt := s.now - x.at_
      { x with depthMax := max x.depthMax depth, delayMax := max x.delayMax wait, at_ := s.now
               closedNs := x.closedNs + (if !qs.isEmpty && !isOpen then dt else 0), creditNs := x.creditNs + (if isOpen && noCredit then dt else 0) }
    { s with tra := { s.tra with telemetry := Tbl.mapVals s.tra.telemetry (fun _ t =>
        if t.queues.contains key then { t with stats := Tbl.updD t.stats key {} step } else t) } }

/-- Changes what telemetry counts of one queue, for every VI that samples it. -/
def State.telCount (s : State) (key : Nat × Nat × Nat) (f : TelQueue → TelQueue) : State :=
  { s with tra := { s.tra with telemetry := Tbl.mapVals s.tra.telemetry (fun _ t =>
      if t.queues.contains key then { t with stats := Tbl.updD t.stats key {} f } else t) } }

/-- Puts a packet into the queue of an egress port. -/
def State.enqueue (s : State) (port : Nat) (p : Packet) : State :=
  let s0 := s.telSettle port p.tc
  ({ s0 with lnk := { s0.lnk with queue := s0.lnk.queue ++ [{ port := port, pkt := p, at_ := s.now }] } } : State).telSettle port p.tc

/-- Takes a packet that starts out of its egress queue; telemetry counts its units (R347). -/
def State.dequeue (s : State) (q : TxPkt) : State :=
  let s0 := s.telSettle q.port q.pkt.tc
  ({ s0 with lnk := { s0.lnk with queue := s0.lnk.queue.erase q } } : State).telCount (1, q.port, q.pkt.tc) (fun x => { x with sent := x.sent + q.pkt.units })

/-- The shaper of a VI's class. -/
def State.shaper (s : State) (vi cls : Nat) : Shaper := Tbl.at s.tra.shapers (vi, cls) {}
/-- Stores a shaper. -/
def State.setShaper (s : State) (vi cls : Nat) (x : Shaper) : State :=
  { s with tra := { s.tra with shapers := Tbl.set s.tra.shapers (vi, cls) x } }

/-- Queues a packet at the egress port of its path; one without a route stays at its source (R295, R298). -/
def State.toPort (s : State) (p : Packet) : State :=
  match s.egress p.dst p.path with
  | some port => s.enqueue port p
  | none => s

/-- Hands a packet to its path: a request of this node passes the shaper of its VI and class (R331), a response or a
transit packet goes straight to the egress queue. -/
def State.emit (s : State) (p : Packet) : State :=
  let x := s.shaper p.srcVi p.tc
  if p.resp || p.src != s.node || x.b.rate == 0 then s.toPort p else
    let b := x.b.accrue s.now
    if x.parked.isEmpty && s.now % 128 == 0 && decide (tokensOf p ≤ b.held) then
      (s.setShaper p.srcVi p.tc { x with b := b.draw (tokensOf p) }).toPort p
    else s.setShaper p.srcVi p.tc { x with b := b, parked := x.parked ++ [p],
                                           slotAt := if x.parked.isEmpty then b.slotFor s.now (tokensOf p) else x.slotAt }

/-- Releases head packets of a shaper while its tokens cover them; the rest are parked again (R333). -/
def State.releaseShaper (vi cls : Nat) : List Packet → Bucket → State → State
  | [], b, s => s.setShaper vi cls { b := b, parked := [], slotAt := 0 }
  | p :: ps, b, s =>
    if b.rate = 0 then releaseShaper vi cls ps b (s.toPort p)
    else if tokensOf p ≤ b.held then releaseShaper vi cls ps (b.draw (tokensOf p)) (s.toPort p)
    else s.setShaper vi cls { b := b, parked := p :: ps, slotAt := b.slotFor (s.now + 1) (tokensOf p) }

/-! ### Gates (R322 to R330) -/

/-- The first time, at or after `t`, at which class `c` is closed, walking entries that start at `start`. -/
def closeWalk (c t : Nat) : List (Nat × Nat) → Nat → Option Nat
  | [], _ => none
  | (o, iv) :: es, start =>
    if start + iv ≤ t then closeWalk c t es (start + iv)
    else if bit o c then closeWalk c t es (start + iv)
    else some (max t start)

/-- When a list next closes a class, from a time on; none where it never does (R325). -/
def GateList.closeAt (g : GateList) (c t : Nat) : Option Nat := closeWalk c t (g.entries ++ g.entries) (t - t % g.period)

/-- The classes a list opens at a time. -/
def GateList.openAt (g : GateList) (t : Nat) : Nat := walk (t % g.period) g.entries
where
  /-- The entry that holds an offset in the cycle. -/
  walk : Nat → List (Nat × Nat) → Nat
    | _, [] => 255
    | t, (o, iv) :: es => if t < iv then o else walk (t - iv) es

/-- The list changes known to come on a port: time and list, earliest first (R327, R328). -/
def Gates.coming (g : Gates) : List (Nat × GateList) :=
  sortBy (fun a b => decide (a.1 ≤ b.1))
    ((match g.pending with | some (l, t) => [(t, l)] | none => []) ++ (match g.testEnd with | some (t, l) => [(t, l)] | none => []))

/-- When a class next closes under the list in force at each moment, takeovers included (R326). -/
def closeOver (c t : Nat) (l : GateList) : List (Nat × GateList) → Option Nat
  | [] => l.closeAt c t
  | (t', l') :: rest =>
    match l.closeAt c t with
    | some x => if x < t' then some x else closeOver c (max t t') l' rest
    | none => closeOver c (max t t') l' rest

/-- Whether the node counts as locked: locked, and no slew in progress (R277, R278). -/
def State.timeLocked (s : State) : Bool := s.time.locked && s.time.slew.isNone

/-- Whether a packet of a class whose transmission takes `ps` picoseconds may start on a port now: its gate is open and
it ends before the gate closes, with the guard while the node is unlocked (R326, R330). -/
def State.gateFits (s : State) (port c ps : Nat) : Bool :=
  let g := s.gates port
  if s.gatesForced port then true else
    let guard := if s.timeLocked then 0 else g.guard
    match closeOver c s.now g.oper g.coming with
    | none => true
    | some x => decide (s.now < x) && decide (s.now * 1000 + ps + guard * 1000 ≤ x * 1000)

/-- The flit time of a native port in picoseconds (R326). -/
def Port.flitPs (p : Port) : Nat := 2419 * 8 / max 1 p.active.length * (if p.rate = 1 then 2 else 1)

end Sys2Proof.Machine
end

