-- ==== Sys2Proof/Machine/LinkOps.lean ====
section
/-! DEFINITION. Ports, lanes, path tables and spray as shared operations (R249 to R266, R295 to R297). -/

namespace Sys2Proof.Machine
open Sys2Proof

/-! ### Ports and lanes (R250, R251) -/

/-- The port number n of a port or half port. -/
def portBase (p : Nat) : Nat := p % 32
/-- 0 whole, 1 half L, 2 half H. -/
def portHalf (p : Nat) : Nat := p / 32

/-- The port lanes of a port or half port (R251). -/
def portLanes (p : Nat) : List Nat := if portHalf p = 0 then List.range 8 else if portHalf p = 1 then [0, 1, 2, 3] else [4, 5, 6, 7]

/-- The global lane of a port lane (R250, R39). -/
def globalLane (p k : Nat) : Nat :=
  let n := portBase p
  if n < 16 then 36 * (n / 4) + 8 * (n % 4) + k
  else if n = 16 then (if k < 4 then 32 + k else 64 + k) else (if k < 4 then 104 + k else 136 + k)

/-- The LK die that carries a port's lane 0 (R336). -/
def lkOf (p : Nat) : Nat := dieLK (globalLane p ((portLanes p).headD 0) / 36)

/-- A port's number as records and events give it: n for Pn, 18 + 2n for PnL, 19 + 2n for PnH (R347, R455). -/
def portCode (p : Nat) : Nat := if portHalf p = 0 then p else 18 + 2 * portBase p + (portHalf p - 1)
/-- A port's unit id (R455). -/
def portUnit (p : Nat) : Nat := 0x800 + portCode p

/-- Whether a port or half port exists under the splits in force (R251). -/
def State.portExists (s : State) (p : Nat) : Bool :=
  decide (portBase p < 18) && decide (portHalf p < 3) && ((portHalf p == 0) != s.lnk.split.contains (portBase p))

/-- A lane; an unlisted one is in service. -/
def State.lane (s : State) (g : Nat) : Lane := Tbl.at s.lnk.lanes g {}
/-- Changes a lane. -/
def State.updLane (s : State) (g : Nat) (f : Lane → Lane) : State :=
  { s with lnk := { s.lnk with lanes := Tbl.set s.lnk.lanes g (f (s.lane g)) } }

/-- Port lanes in service; a lane of a fenced LK die is not. -/
def State.lanesUp (s : State) (p : Nat) : List Nat :=
  (portLanes p).filter (fun k => !(s.lane (globalLane p k)).down && !s.isFenced (dieLK (globalLane p k / 36)))

/-- The aligned lane sets of R266 in their order. -/
def laneSets : List (List Nat) :=
  [List.range 8, [0, 1, 2, 3], [4, 5, 6, 7], [0, 1], [2, 3], [4, 5], [6, 7], [0], [1], [2], [3], [4], [5], [6], [7]]

/-- The largest aligned set whose lanes are all in service (R266). -/
def State.bestSet (s : State) (p : Nat) : List Nat := (laneSets.find? (fun l => l.all (s.lanesUp p).contains)).getD []

/-- A port's payload capacity in MB/s (R252, R270). -/
def Port.capacity (x : Port) : Nat :=
  if x.st = .active then 25000 * x.active.length / (if x.rate = 1 then 2 else 1) else 0

/-- A lane goes down and enters hold-down for 250 ms × 2^j (R264). -/
def State.laneFail (s : State) (p k reason : Nat) (again : Bool) : State :=
  let g := globalLane p k
  let l := s.lane g
  let j := if again || (decide (l.upAt ≠ 0) && decide (s.now < l.upAt + 300000000000)) then min 8 (l.j + 1) else 0
  let h := 250000000 * 2 ^ j
  (s.updLane g (fun l => { l with down := true, testing := false, j := j, holdUntil := s.now + h })).raise0 .laneDown
    (dieLK (g / 36)) (portUnit p) [g, reason, h]

/-! ### Paths and spray (R295 to R297) -/

/-- A peer; an unlisted one is fresh. -/
def State.peer (s : State) (n : Nat) : Peer := Tbl.at s.fab.peers n {}
/-- Changes a peer. -/
def State.updPeer (s : State) (n : Nat) (f : Peer → Peer) : State :=
  { s with fab := { s.fab with peers := Tbl.set s.fab.peers n (f (s.peer n)) } }

/-- Whether a path's forwarding entry is valid and its egress port ACTIVE. -/
def State.pathUsable (s : State) (dst path : Nat) : Bool :=
  match s.egress dst path with
  | some p => (s.port p).st == .active &&
      ((s.port p).cfg.mode != 2 || !((s.port p).partners.any (fun e => (Tbl.at e.2.paths path {}).out)))
  | none => false

/-- Whether a path to a destination is in service (R296). -/
def State.pathUp (s : State) (dst path : Nat) : Bool := s.pathUsable dst path && !(s.peer dst).down.contains path
/-- The paths in service to a destination. -/
def State.paths (s : State) (dst : Nat) : List Nat := (List.range 16).filter (s.pathUp dst)

/-- The path slot `n` of a destination's path table names (R296). -/
def State.slotPath (s : State) (dst n : Nat) : Option Nat :=
  let ps := s.paths dst
  if ps.contains n then some n
  else if ps.isEmpty then none
  else ps[((List.range n).filter (fun i => !ps.contains i)).length % ps.length]?

/-- The slot of a line operation's target line (R296). -/
def lineSlot (addr : Nat) : Nat :=
  let l := addr / 64
  (bits l 3 0 ^^^ bits l 7 4) ^^^ (bits l 11 8 ^^^ bits l 15 12)

/-- Whether a type is a line operation (R289). -/
def isLine (t : PktType) : Bool := [PktType.load, .store, .storeFlag, .cas, .fetchAdd, .swap].contains t

/-- The pool a packet takes: 2 × VC + pool (R254, R258). -/
def poolOf (p : Packet) : Nat := 2 * p.tc + b2n p.resp

/-- Whether a path's first-hop pool has the units a packet needs (R296). -/
def State.hasUnits (s : State) (dst path : Nat) (p : Packet) : Bool :=
  match s.egress dst path with
  | some q =>
    let room := fun (l : Tbl Nat TxPool) => let t := Tbl.at l (poolOf p) {}; decide (t.sent + p.units ≤ t.returned + t.size)
    if (s.port q).cfg.mode = 2 then (s.port q).partners.any (fun e => room e.2.tx) else room (s.port q).tx
  | none => false

/-- Chooses a packet's path: its line's slot, or the next path in rotation that has units (R296). -/
def State.pickPath (s : State) (p : Packet) : Option Nat × State :=
  if isLine p.ty then (s.slotPath p.dst (lineSlot p.addr), s) else
    let ps := s.paths p.dst
    let n := (s.peer p.dst).spray
    let order := rotate ps (if ps.length = 0 then 0 else n % ps.length)
    let pick := (order.find? (fun x => s.hasUnits p.dst x p)).orElse (fun _ => order.head?)
    (pick, s.updPeer p.dst (fun x => { x with spray := n + 1 }))

/-- Raises or holds back EV_PATH_DOWN or EV_PATH_UP: at most one of a kind per destination in 1 s (R297). -/
def State.pathEvent (s : State) (dst path : Nat) (up : Bool) (before after : Nat) : State :=
  let x := s.peer dst
  let die := ((s.egress dst path).map lkOf).getD (dieLK 0)
  let last := Tbl.get x.pathEvAt up
  if (last.map (fun t => decide (s.now < t + 1000000000))).getD false then
    let n := word (Tbl.at x.pathHeld up []) 3
    s.updPeer dst (fun x => { x with pathHeld := Tbl.set x.pathHeld up [path, before, after, n + 1] })
  else
    (s.updPeer dst (fun x => { x with pathEvAt := Tbl.set x.pathEvAt up s.now })).raise0 (if up then .pathUp else .pathDown) die 0
      [dst, path, before, after, 1]

/-- Reports every path whose service differs between two states (R297). -/
def pathWatch (s t : State) : State :=
  t.fab.routes.foldl (fun u e =>
    let dst := e.1.1
    let path := e.1.2
    if s.pathUp dst path == t.pathUp dst path then u
    else u.pathEvent dst path (t.pathUp dst path) (s.paths dst).length (t.paths dst).length) t

/-- Sends packets again on the paths R296 now gives, ahead of what is queued (R297). A packet in transit keeps its path and
waits for credit on it (R295). -/
def State.respray (s : State) (ps : List Packet) : State :=
  ps.reverse.foldl (fun t p =>
    if p.src = t.node then
      let (path, u) := t.pickPath p
      match path with
      | none => u
      | some x =>
        let q := ({ p with path := x } : Packet).sealed
        let v : State := { u with fab := { u.fab with out := Tbl.upd u.fab.out (p.dst, p.tag) (fun o => if p.resp then o else { o with pkt := q, lastSent := u.now }) } }
        match v.egress q.dst x with
        | none => v
        | some port => { v with lnk := { v.lnk with queue := { port := port, pkt := q, at_ := v.now } :: v.lnk.queue } }
    else
      { t with fab := { t.fab with transit := Tbl.set t.fab.transit t.fab.nextTransit { pkt := p, inPort := 0xFF, since := t.now },
                                   nextTransit := t.fab.nextTransit + 1 } }) s

/-! ### Entering and leaving ACTIVE (R257, R260, R261) -/

/-- The default units of the 16 pools (R259). -/
def defaultPools (p : Nat) : List Nat :=
  (List.range 16).map (fun i => (if i % 2 = 0 then 6144 else 2048) / (if portHalf p = 0 then 1 else 2))

/-- The pool sizes a port advertises. -/
def State.ownPools (s : State) (p : Nat) : List Nat :=
  let l := (s.port p).cfg.poolUnits
  if l.length = 16 then l else defaultPools p

/-- The ledger scope of a pool: the port, the pool, and 0 for the transmitter's side, 1 for the receiver's. -/
def poolScope (p pool side : Nat) : Nat := (p * 16 + pool) * 2 + side

/-- Opens the pools of a port with the advertised sizes and zero totals (R259, R260). -/
def State.openPools (s : State) (p : Nat) : State :=
  let own := s.ownPools p
  let theirs := (s.port p).partnerPools
  let s1 := s.updPort p (fun x => { x with
    tx := (List.range 16).map (fun i => (i, { size := word theirs i }))
    rx := (List.range 16).map (fun i => (i, { size := word own i })) })
  (List.range 16).foldl (fun t i =>
    (t.bookNew qCredits (poolScope p i 0) 0 (word theirs i)).bookNew qCredits (poolScope p i 1) 0 (word own i)) s1

/-- Closes the pools: the transmitter books every unit in transit as returned; the receiver's pools close as their buffers
drain (R260). -/
def State.closePools (s : State) (p : Nat) : State :=
  let x := s.port p
  let s1 := x.tx.foldl (fun t e =>
    let flying := e.2.sent - e.2.returned
    (t.bookMove qCredits (poolScope p e.1 0) 1 0 flying).bookEnd qCredits (poolScope p e.1 0) 0 e.2.size) s
  (s1.updPort p (fun x => { x with tx := [] }))

/-- Closes the receive pools whose buffers are empty on a port that is not ACTIVE (R260). -/
def State.drainPools (s : State) (p : Nat) : State :=
  let x := s.port p
  if x.st = .active ∨ x.st = .creditInit then s else
    let gone := x.rx.filter (fun e => e.2.occupied == 0)
    let s1 := gone.foldl (fun t e => t.bookEnd qCredits (poolScope p e.1 1) 0 e.2.size) s
    s1.updPort p (fun x => { x with rx := x.rx.filter (fun e => e.2.occupied != 0) })

/-- Enters ACTIVE with EV_PORT_UP; the paths over the port return to service (R261, R297). -/
def State.enterActive (s : State) (p : Nat) : State :=
  let s1 := s.updPort p (fun x => { x with
    st := .active, since := s.now, lastAccept := s.now, txSeq := 0, rxSeq := 0, nak := false, nakDue := false
    replay := [], replayAt := none, flits := 0, control := [], cur := [], part := [], retraining := false })
  let x := s1.port p
  (pathWatch s s1).raise0 .portUp (lkOf p) 0 [portCode p, x.cfg.mode, x.active.length, x.rate, x.partnerRole, x.partner, x.version]

/-- Leaves ACTIVE: EV_PORT_DOWN, pools closed, and the packets never acknowledged handed back to the spray stage (R257,
R260, R261). The reason is 1 training, 2 retrain limit, 3 width below minimum, 4 loopback, 5 partner refused, 6
configuration (R281). -/
def State.leaveActive (s : State) (p reason : Nat) (next : PortSt) : State :=
  let x := s.port p
  if x.st ≠ .active then s.updPort p (fun x => { x with st := next, since := s.now, detectAt := s.now }) else
    let waiting := (s.lnk.queue.filter (fun q => q.port == p)).map (·.pkt)
    let eth := x.partners.flatMap (fun e => e.2.paths.flatMap (fun t => t.2.window.flatMap (·.2)))
    let unacked := x.replay.flatMap (·.ends) ++ x.cur.map (·.2.2) ++ eth
    let s1 := (s.closePools p).updPort p (fun x => { x with
      st := next, since := s.now, detectAt := s.now, fecBack := false, replay := [], replayAt := none, cur := [], part := [], control := []
      retraining := false, nak := false, nakDue := false, partners := Tbl.mapVals x.partners (fun _ e => { e with paths := [] }) })
    let s2 : State := { s1 with lnk := { s1.lnk with queue := s1.lnk.queue.filter (fun q => q.port != p) } }
    let s3 := (pathWatch s s2).raise0 .portDown (lkOf p) 0 [portCode p, reason, x.capacity, 0]
    (s3.respray (unacked ++ waiting)).drainPools p

/-- What a port does after its lanes changed: it leaves ACTIVE below its minimum width, an Ethernet port on any lane down,
and a port with no lane is in HOLD (R261, R266, R267). -/
def State.widthCheck (s : State) (p : Nat) : State :=
  let x := s.port p
  let best := s.bestSet p
  if (s.lanesUp p).isEmpty then
    (if x.st = .disabled ∨ x.st = .refused ∨ x.st = .hold then s else s.leaveActive p 3 .hold)
  else if x.st = .active ∧ x.cfg.mode = 2 ∧ (s.lanesUp p).length < (portLanes p).length then s.leaveActive p 3 .detect
  else if x.st = .active ∧ x.cfg.mode = 1 ∧ best.length < x.cfg.minWidth then s.leaveActive p 3 .equalize
  else s

/-- Starts a fast retrain, remembered for 10 ms (R257). -/
def State.retrain (s : State) (p : Nat) : State :=
  s.updPort p (fun x => { x with retraining := true, retrains := (s.now :: x.retrains).filter (fun t => decide (s.now < t + 10000000)) })

/-- Whether this node is the width master of a port (R266). -/
def State.widthMaster (s : State) (p : Nat) : Bool := (s.port p).partnerRole != 1 || decide (s.node < (s.port p).partner)

/-- A lane set as a bit mask of port lanes. -/
def laneMask (l : List Nat) : Nat := (l.map (fun k => 2 ^ k)).sum

/-- The composition of the command that a packet of this node serves: its request's, else its context slot's (R21). -/
def State.packetComp (s : State) (p : Packet) : Option Nat :=
  if p.resp || p.src != s.node then none else
    (s.fab.out.find? (fun o => o.2.pkt.dst == p.dst && o.2.pkt.tag == p.tag)).bind fun o =>
    (match o.2.purpose with
      | .mover cid _ _ _ => some cid
      | .message m => (Tbl.get s.fab.msgs m).map (fun (x : OutMsg) => x.cid)
      | _ => none).bind fun cid =>
    (Tbl.get s.work.cmds cid).bind fun (c : Cmd) =>
    ((Tbl.get s.kv.reqs (fld c.words 1 47 0)).map (fun (r : Req) => r.composition)).orElse fun _ =>
    c.slot.map (fun n => (Tbl.at s.work.ctxs n {}).f.composition)

/-- Meters the time a packet takes on its link, and the payload it carries, to its composition; times are kept in ps until the record closes
(R21). -/
def State.linkMeter (s : State) (p : Packet) (ps : Nat) : State :=
  match s.packetComp p with
  | none => s
  | some n => s.updComp n (fun c =>
      let t := c.meterOpen.linkTime ++ List.replicate (8 - c.meterOpen.linkTime.length) 0
      { c with meterOpen := { c.meterOpen with linkTime := t.set p.tc (t.getD p.tc 0 + ps), movedBytes := c.meterOpen.movedBytes + p.payload.length } })

/-- Puts a CONTROL flit's contents into a port's control queue. -/
def State.control (s : State) (p : Nat) (c : List Nat) : State := s.updPort p (fun x => { x with control := x.control ++ [c] })

/-- Returns the units of a packet that left a port's receive buffer (R259): the packet is taken out of the buffer. -/
def State.consume (s : State) (p : Nat) (pk : Packet) : State :=
  let x := s.port p
  if !x.arrived.contains pk then s else
    let i := poolOf pk
    let s1 := s.updPort p (fun x => { x with
      arrived := x.arrived.erase pk
      rx := Tbl.upd x.rx i (fun r => { r with occupied := r.occupied - pk.units, returned := u32 (r.returned + pk.units) })
      partners := Tbl.mapVals x.partners (fun _ e => if e.src = (pk.src, pk.srcEp) then
        { e with rx := Tbl.upd e.rx i (fun r => { r with occupied := r.occupied - pk.units, returned := u32 (r.returned + pk.units) }) } else e) })
    (s1.bookMove qCredits (poolScope p i 1) 1 0 pk.units).drainPools p

end Sys2Proof.Machine
end

