-- ==== Sys2Proof/Machine/Units.lean ====
section
/-! DEFINITION. Performance units and their counters (R455 to R463), as shared operations. -/

namespace Sys2Proof.Machine
open Sys2Proof

/-! ### Units and their counters (R455 to R462) -/

/-- The unit id of an engine instance (R455). -/
def unitOf (cls inst : Nat) : Nat :=
  if cls = 2 then 0x100 + inst else if cls = 3 then 0x200 + inst else if cls = 1 then 0x300 + inst
  else if cls = 5 then 0x400 + inst else if cls = 6 then 0x500 + inst else 0x600 + inst

/-- The port of a port unit, numbered as `port` in R347. -/
def unitPort (u : Nat) : Nat := if u % 256 < 18 then u % 256 else (u % 256 - 18) / 2 + 32 * ((u % 256 - 18) % 2 + 1)

/-- A unit's clock in MHz (R455); a port counts flit times. -/
def unitMHz (u : Nat) : Nat :=
  match u / 256 with
  | 1 => 850
  | 2 => 1200
  | 6 => 900
  | 7 => 1600
  | _ => 1400

/-- A unit's clock edges up to a fabric time: at a port its flit times at the present width and rate, and in Ethernet mode 64-byte times at the MAC
rate, 0.32 ns unsplit and 0.64 ns on a half; the Attend and Codec clocks run at
the throttle step in force (R267, R455, R497). -/
def State.cyclesAt (s : State) (u t : Nat) : Nat :=
  if u / 256 = 8 then
    let p := unitPort u
    t * 1000 / max 1 (if (s.port p).cfg.mode = 2 then (if (portLanes p).length = 8 then 320 else 640) else (s.port p).flitPs)
  else if u / 256 = 1 ∨ u / 256 = 2 then t * unitMHz u * (16 - s.pw.step) / 16000
  else t * unitMHz u / 1000

/-- Whether a unit is out of service: fenced, retired or lost (R458, R466). -/
def State.unitOut (s : State) (u : Nat) : Bool :=
  let i := u % 256
  match u / 256 with
  | 1 => s.isFenced (dieMC i) || (s.inst 2 i).st == .retired
  | 2 => s.isFenced (dieCX i) || (s.inst 3 i).st == .retired
  | 3 => false
  | 4 => false
  | 5 => s.isFenced (dieLK i) || (s.inst 6 i).st == .retired
  | 6 => !s.pkg.flashUp.contains i || s.pkg.flashLost.contains i
  | 7 => !s.channelUp i
  | 9 => s.isFenced i
  | _ => false

/-- Slots per cycle of a unit (R455). -/
def State.unitSlots (s : State) (u : Nat) : Nat := if s.unitOut u then 0 else if u / 256 = 1 then s.tilesOf (u % 256) else 1

/-- A unit's counters. -/
def State.unit (s : State) (u : Nat) : UnitCtr := Tbl.at s.perf.units u {}
/-- Stores a unit's counters. -/
def State.setUnit (s : State) (u : Nat) (x : UnitCtr) : State := { s with perf := { s.perf with units := Tbl.set s.perf.units u x } }

/-- Every unit of the node, in unit-id order; of the ports those that exist (R455). -/
def State.allUnits (s : State) : List Nat :=
  let row := fun (t n : Nat) => (List.range n).map (fun i => t * 256 + i)
  row 1 8 ++ row 2 2 ++ row 3 16 ++ row 4 2 ++ row 5 4 ++ row 6 32 ++ row 7 16 ++
    ((row 8 54).filter (fun u => s.portExists (unitPort u))) ++ row 9 2

/-- The commands resident in a unit. -/
def State.unitJobs (s : State) (u : Nat) : List Nat :=
  (s.work.cmds.filter (fun c => c.2.resident && unitOf c.2.cls c.2.inst == u)).map (·.1)

/-- Whether a unit runs commands, and whether a command of its class awaits dispatch. -/
def State.unitAwaited (s : State) (u : Nat) : Bool :=
  s.work.cmds.any (fun c => c.2.outcome.isNone && (c.2.st == .waiting || c.2.st == .saved || c.2.st == .wiped) && unitOf c.2.cls c.2.inst / 256 == u / 256)

/-- Causes a unit type's table lists below 7; a blank code is never charged, and 7 takes the rest (R460). -/
def unitCauses (u : Nat) : Nat := [0, 6, 4, 7, 3, 4, 5, 4, 4, 3].getD (u / 256) 0

/-- Adds to the programmable counters of a unit that select an event without a VI filter or with that of the event's VI (R457, R462). -/
def UnitCtr.gain (x : UnitCtr) (ev n : Nat) (vi : Option Nat) : UnitCtr :=
  { x with prog := x.prog.map (fun p => if p.event == ev && (p.vi.isNone || p.vi == vi) then { p with count := u64 (p.count + n) } else p) }

/-- Adds slots to `kept` or `redone`, and to the counters that select that account (R458, R463). -/
def UnitCtr.close (x : UnitCtr) (kept : Bool) (n : Nat) (vi : Option Nat) : UnitCtr :=
  if kept then ({ x with kept := u64 (x.kept + n) } : UnitCtr).gain 1 n vi else ({ x with redone := u64 (x.redone + n) } : UnitCtr).gain 2 n vi

/-- The slots that did work, charged to the pending slots of a unit's jobs, or under 0 on a unit without jobs: how many is open (R458; log 6). -/
def busyShare (u at_ slots : Nat) (jobs : List Nat) (pend : Tbl Nat Nat) : Nat × Tbl Nat Nat :=
  jobs.foldl (fun (a : Nat × Tbl Nat Nat) cid =>
    let k := min (slots - a.1) (Config.busySlots u cid at_)
    (a.1 + k, Tbl.updD a.2 cid 0 (· + k))) (0, pend)

/-- The event of a unit type that no command of the table shows (R463). -/
def unseenEvent (u : Nat) : Nat := [0, 0, 0, 0, 0, 0, 0x0604, 0x0704, 0x0806, 0].getD (u / 256) 0

/-- Settles a unit's cycles and slots up to now: a frozen unit stands still; work slots are pending until their operation completes, an idle slot goes
to a wait cause while work is resident, on an Attend engine also to `unfilled`, and to `empty` where none is resident or awaits dispatch. How many slots
worked, what an idle one waited on, and of a memory channel or a hub whether work was resident and which of its slots were redone, is open (R456, R458,
R459, R465; log 6). -/
def State.settle (s : State) (u : Nat) : State :=
  let x := s.unit u
  if x.frozen then s.setUnit u { x with at_ := s.now } else
    let cyc := s.cyclesAt u s.now - s.cyclesAt u x.at_
    let slots := cyc * s.unitSlots u
    let jobs := s.unitJobs u
    let other := decide (6 ≤ u / 256)
    let port := decide (u / 256 = 8)
    let here := if port then s.lnk.queue.any (fun q => q.port == unitPort u) || !(s.port (unitPort u)).replay.isEmpty else other || !jobs.isEmpty
    let unsure := (other && !port) || (jobs.isEmpty && s.unitAwaited u)
    let (busy, pend) := busyShare u x.at_ slots (if other && here then [0] else jobs) x.pend
    let idle := slots - busy
    let none_ := if unsure then min idle (Config.busySlots (u + 0x1000) x.at_ s.now) else if here then 0 else idle
    let loose := if u / 256 = 1 then min (idle - none_) (Config.busySlots (u + 0x2000) x.at_ s.now) else 0
    let c0 := (Config.waitCause u s.now).toNat
    let c := if c0 < unitCauses u then c0 else 7
    let wait := idle - none_ - loose
    let waits := x.waits ++ List.replicate (8 - x.waits.length) 0
    let y : UnitCtr := { x with
      cycles := u64 (x.cycles + cyc), slotCycles := u64 (x.slotCycles + slots), at_ := s.now, pend := pend
      waits := waits.set c (u64 (waits.getD c 0 + wait)), unfilled := u64 (x.unfilled + loose), empty := u64 (x.empty + none_) }
    let y1 := (((y.gain 3 none_ none).gain 4 loose none).gain 5 wait none).gain (0x10 + c) wait none
    let y2 := if cyc = 0 then y1 else y1.gain (unseenEvent u) (Config.unseenEvents u x.at_ s.now) none
    s.setUnit u (if other && !port then
        let all := Tbl.at pend 0 0
        let done := min all (Config.busySlots (u + 0x3000) x.at_ s.now)
        let bad := min done (Config.busySlots (u + 0x4000) x.at_ s.now)
        (({ y2 with pend := Tbl.set pend 0 (all - done) } : UnitCtr).close true (done - bad) none).close false bad none
      else y2)

/-- Moves pending slots to `kept` or `redone`; a frozen unit holds the transfer (R458, R465). -/
def State.moveSlots (s : State) (u : Nat) (kept : Bool) (n : Nat) (vi : Option Nat) : State :=
  let x := s.unit u
  s.setUnit u (if x.frozen then { x with held := x.held ++ [(kept, n, vi)] } else x.close kept n vi)

/-- Closes the slots of flits or frames of a port: each took one flit time, and a frame its 64-byte times (R455, R458). -/
def State.closeSlots (s : State) (u : Nat) (kept : Bool) (n : Nat) : State :=
  let t := s.settle u
  let x := t.unit u
  (t.setUnit u { x with pend := Tbl.updD x.pend 0 0 (· - n) }).moveSlots u kept n none

/-- Closes the pending slots of a command (R458). -/
def State.closeJob (s : State) (u cid vi : Nat) (kept : Bool) : State :=
  let x := s.unit u
  (s.setUnit u { x with pend := Tbl.del x.pend cid }).moveSlots u kept (Tbl.at x.pend cid 0) (some vi)

/-- Counts an event of a unit outside a job, in the counters that select it without a VI filter or with that of its VI (R457, R463); a frozen unit
stands still (R465). -/
def State.unitEvent (s : State) (u ev n : Nat) (vi : Option Nat) : State :=
  let x := s.unit u
  if x.frozen || !(x.prog.any (fun p => p.event == ev)) then s else s.setUnit u (x.gain ev n vi)

/-- After a step of fabric time the units' clocks go on from the new time: a cycle counter measures elapsed clock (R456, R278). -/
def State.shiftUnits (s : State) (n : Nat) : State :=
  { s with perf := { s.perf with units := s.allUnits.map (fun u => let x := s.unit u; (u, { x with at_ := x.at_ + n })) } }

end Sys2Proof.Machine
end

