-- ==== Sys2Proof/Machine/MemOps.lean ====
section
/-! DEFINITION. The node's address space: which lines exist, on which channel they lie, and what a line access meets (R216,
R218, R271, R282 to R284, R228, R229). -/

namespace Sys2Proof.Machine
open Sys2Proof

/-- The parity of a list of address bits. -/
def parity (w : Nat) (is : List Nat) : Nat := (is.map (fun i => b2n (bit w i))).sum % 2

/-- The DRAM channel of a line (R284). -/
def channelOf (off : Nat) : Nat :=
  let l := off / 64
  if bit off 46 then 2 * bits off 45 43 + parity l [0, 6, 12, 18, 24]
  else (bits l 3 0 ^^^ bits l 13 10) ^^^ (bits l 23 20 ^^^ bits l 33 30)

/-- The capacity of a channel's DIMM in bytes; an unlisted one holds 512 GiB (R216; log 2). -/
def State.dimmBytes (s : State) (ch : Nat) : Nat := Tbl.at s.pkg.dimmGiB ch 512 * 2 ^ 30

/-- Bytes that training sets aside at the top of a channel: the line-spare area, the hub state areas and the save areas
(R446, R48, R506). -/
def State.setAside (s : State) (ch : Nat) : Nat :=
  let n := max 1 s.pkg.dramUp.length
  let hub := (s.pkg.areas.filter (fun a => a.2.die == ch / 2)).length
  16 * 2 ^ 20 + 80 * 2 ^ 20 + (64 * 2 + 8 + 16) * 2 ^ 20 / n + hub * 384 * 2 ^ 20 / 2

/-- The interleave in force in bytes per channel (R283). -/
def State.interleave (s : State) : Nat := s.boot.interleave

/-- Bytes of a channel in the die-direct view (R283). -/
def State.directBytes (s : State) (ch : Nat) : Nat := s.dimmBytes ch - s.interleave - s.setAside ch

/-- Bytes of the SRAM tier per hub (R216). -/
def State.sramBytes (s : State) : Nat := s.boot.sramTier

/-- The endpoint whose aperture an address lies in (R271). -/
def apertureOf (a : Nat) : Option Nat :=
  if addrSpace a = 1 ∧ 2 ^ 47 ≤ addrOff a ∧ addrOff a < 2 ^ 47 + 32 * 2 ^ 42 then some ((addrOff a - 2 ^ 47) / 2 ^ 42) else none

/-- The hub a line's bulk traffic and its SRAM-tier bytes go through (R50). -/
def hubOf (a : Nat) : Nat := parity a [6, 12, 18, 24]

/-- Whether an offset is one its space defines (R282). -/
def State.offsetDefined (s : State) (a : Nat) : Bool :=
  let off := addrOff a
  match addrSpace a with
  | 1 =>
    if (apertureOf a).isSome then true
    else if 2 ^ 47 ≤ off then false
    else if bit off 46 then decide (bits off 42 0 < s.directBytes (2 * bits off 45 43) + s.directBytes (2 * bits off 45 43 + 1))
    else decide (off < 16 * s.interleave)
  | 2 => decide (off < 2 ^ 48)
  | 3 => decide (off < 2 * s.sramBytes)
  | 4 => decide (off < 0x1100000)
  | 5 => decide (off < 256 * 0x4000)
  | _ => false

/-- Why a line of the DRAM, SRAM or flash space cannot be reached: its channel is lost, or its hub's half of the SRAM tier is and
the line has not been written again, or its flash channel is lost (R216, R284). -/
def State.lineLost (s : State) (a : Nat) (reading : Bool) : Bool :=
  if addrSpace a = 1 then !s.channelUp (channelOf (addrOff a))
  else if addrSpace a = 3 then reading && s.isFenced (hubOf a) && !s.tier.sramWritten.contains (a / 64)
  else if addrSpace a = 2 then
    match Tbl.get s.tier.map (addrOff a / 4096) with
    | some (ch, _) => !s.flashChanUp ch
    | none => !(s.pkg.flashUp.any s.flashChanUp)
  else false

/-- Whether a line reads uncorrectable (R229). -/
def State.lineBad (s : State) (a : Nat) : Bool := s.tier.badLines.contains (a / 64)

/-- What a read of the lines of a range meets, if it cannot give data (R229, R284). -/
def State.readFault (s : State) (a n : Nat) : Option Status :=
  let lines := (List.range (ceilDiv (a % 64 + n) 64)).map (fun i => a / 64 * 64 + 64 * i)
  if lines.any (fun l => s.lineLost l true) then some .tierFailed
  else if lines.any s.lineBad then some (if addrSpace a = 2 then .tierFailed else .memUncorrectable)
  else none

/-- Counts the lines of a range that are read from DRAM at their channels (R463). -/
def State.countRead (s : State) (a n : Nat) (vi : Nat) : State :=
  if addrSpace a ≠ 1 then s else
    ((List.range (ceilDiv (a % 64 + n) 64)).map (fun i => a / 64 * 64 + 64 * i)).foldl
      (fun (t : State) l => t.unitEvent (0x700 + channelOf (addrOff l)) 0x0701 1 (some vi)) s

/-- The first uncorrectable line of a range. -/
def State.firstBad (s : State) (a n : Nat) : Option Nat :=
  ((List.range (ceilDiv (a % 64 + n) 64)).map (fun i => a / 64 * 64 + 64 * i)).find? s.lineBad

/-- Raises EV_DRAM_ERROR for an uncorrectable line (R229): the kind is 1 corrected, 2 uncorrectable. -/
def State.dramError (s : State) (a : Nat) : State :=
  let ch := channelOf (addrOff a)
  s.raise0 .dramError (dieMC (ch / 2)) (0x700 + ch) [ch, a, 2]

/-- Maps a logical flash sector to a physical place on a channel in service that takes writes (R446): which channel and NAND block the flash die chooses
is open (R219; log 3). -/
def State.mapSector (s : State) (sec : Nat) : State :=
  let ups := s.pkg.flashUp.filter (fun ch => s.flashChanUp ch && !(Tbl.at s.tier.chans ch {}).readOnly)
  let (w, s1) := s.draw
  match ups[w % max 1 ups.length]? with
  | none => s1
  | some ch => ({ s1 with tier := { s1.tier with
      map := Tbl.set s1.tier.map sec (ch, w / 64)
      chans := Tbl.updD s1.tier.chans ch {} (fun c => { c with writes := c.writes + 1, programs := c.programs + 1 }) } } : State).unitEvent (0x600 + ch) 0x0605 1 none

/-- Unmaps a logical flash sector (R219). -/
def State.unmapSector (s : State) (sec : Nat) : State := { s with tier := { s.tier with map := Tbl.del s.tier.map sec, rewrite := Tbl.del s.tier.rewrite sec } }

/-- The flash sectors of a range. -/
def sectorsOf (a n : Nat) : List Nat :=
  if addrSpace a = 2 ∧ 0 < n then (List.range (ceilDiv (addrOff a % 4096 + n) 4096)).map (addrOff a / 4096 + ·) else []

/-- Writes bytes as a memory operation does: a written line is readable again, in DRAM and in a lost half of the SRAM tier,
and a written flash sector is mapped (R216, R219, R229). -/
def State.store (s : State) (a : Nat) (bs : List Byte) : State :=
  let lines := (List.range (ceilDiv (a % 64 + bs.length) 64)).map (fun i => a / 64 + i)
  let s1 := (sectorsOf a bs.length).foldl State.mapSector (s.wr a bs)
  let bad := s1.tier.badLines.filter (fun l => !lines.contains l)
  let sram := if addrSpace a = 3 && s.isFenced (hubOf a) then s1.tier.sramWritten ++ lines else s1.tier.sramWritten
  let s2 : State := { s1 with tier := { s1.tier with badLines := bad, sramWritten := sram } }
  if addrSpace a = 1 then lines.foldl (fun (t : State) l => t.unitEvent (0x700 + channelOf (addrOff (64 * l))) 0x0702 1 none) s2 else s2

end Sys2Proof.Machine
end

