-- ==== Sys2Proof/Machine/CodeOps.lean ====
section
/-! DEFINITION. Codebook directories, set objects, references, statistics lines and the codec's arithmetic as shared
operations (R183 to R194, R200, R209, R210), and what a command's completion step applies. -/

namespace Sys2Proof.Machine
open Sys2Proof

/-! ### Directories and set objects (R183, R184, R188, R190) -/

/-- A codebook directory entry (R190): its slots as (version, state, references), states 0 EMPTY, 1 LOADING, 2 PUBLISHED,
3 CURRENT, 4 RETIRING. -/
structure CbSet where
  cur : Nat := 0
  curSlot : Nat := 0
  nextSlot : Nat := 0
  pend : Bool := false
  switchAt : Nat := 0
  slots : List (Nat × Nat × Nat) := []
  lastDrift : Nat := 0
deriving DecidableEq, Repr

/-- The eight words of an entry. -/
def CbSet.words (x : CbSet) : List Nat :=
  sealWords ([mkWord [(48, 16, x.cur), (46, 2, x.curSlot), (44, 2, x.nextSlot), (43, 1, b2n x.pend)], u64 x.switchAt] ++
    (List.range 4).map (fun i => let v := x.slots.getD i (0, 0, 0); mkWord [(48, 16, v.1), (45, 3, v.2.1), (0, 32, v.2.2)]) ++ [u64 x.lastDrift])

/-- An entry from its words. -/
def CbSet.ofWords (w : List Nat) : CbSet :=
  { cur := fld w 0 63 48, curSlot := fld w 0 47 46, nextSlot := fld w 0 45 44, pend := fld w 0 43 43 == 1, switchAt := word w 1
    slots := (List.range 4).map (fun i => (fld w (2 + i) 63 48, fld w (2 + i) 47 45, fld w (2 + i) 31 0)), lastDrift := word w 6 }

/-- The directory entry number of a layer, head and K (0) or V (1) (R188). -/
def CtxFields.entry (f : CtxFields) (l h kv : Nat) : Nat := ((l * f.kvHeads) + h) * 2 + kv
/-- The entries of a directory. -/
def CtxFields.entries (f : CtxFields) : Nat := f.layers * f.kvHeads * 2

/-- The stride of set objects for D (R184). -/
def cbStride (d : Nat) : Nat := ceilDiv (64 + 512 * d) 4096 * 4096

/-- Where a context slot's statistics lines, channel factors and set objects lie: after its directory, in that order (log 15). -/
def CtxFields.statsBase (f : CtxFields) : Nat := f.codebookDir + 64 + 64 * f.entries
/-- The base of the channel factors. -/
def CtxFields.factorBase (f : CtxFields) : Nat := f.statsBase + 512 * f.entries
/-- The base of the codebook arena. -/
def CtxFields.cbBase (f : CtxFields) : Nat := ceilDiv (f.factorBase + 4 * f.headDim * f.entries) 4096 * 4096

/-- The address of a set object (R190). -/
def CtxFields.objAddr (f : CtxFields) (e slot : Nat) : Nat := f.cbBase + (e * 4 + slot) * cbStride f.headDim
/-- The address of a version slot's statistics lines (R191). -/
def CtxFields.statsAddr (f : CtxFields) (e slot : Nat) : Nat := f.statsBase + (e * 4 + slot) * 128

/-- The directory header (R188). -/
def CtxFields.dirHeader (f : CtxFields) (calib : Nat) : List Nat :=
  sealWords [u64 f.cbBase, u64 f.statsBase, u64 f.factorBase,
    mkWord [(52, 12, calib), (36, 16, f.composition), (33, 3, dimCode f.headDim)], mkWord [(32, 32, f.model), (0, 32, f.entries)], 0, 0]

/-- The directory entry of a context slot. -/
def State.cbSet (s : State) (ctx e : Nat) : CbSet := CbSet.ofWords (s.rdWords ((s.ctx ctx).f.codebookDir + 64 + e * 64) 8)
/-- Writes a directory entry. -/
def State.setCbSet (s : State) (ctx e : Nat) (x : CbSet) : State := s.wrWords ((s.ctx ctx).f.codebookDir + 64 + e * 64) x.words
/-- Changes one version slot. -/
def CbSet.setSlot (x : CbSet) (i : Nat) (v : Nat × Nat × Nat) : CbSet :=
  { x with slots := ((List.range 4).map (fun j => x.slots.getD j (0, 0, 0))).set i v }
/-- The slot that holds a version (R190). -/
def CbSet.slotOf (x : CbSet) (ver : Nat) : Option Nat :=
  if ver = 0 then none else (List.range 4).find? (fun i => let v := x.slots.getD i (0, 0, 0); v.1 == ver && v.2.1 != 0)
/-- A version's slot contents. -/
def CbSet.slot (x : CbSet) (i : Nat) : Nat × Nat × Nat := x.slots.getD i (0, 0, 0)

/-- A set object's bytes. -/
def State.setObj (s : State) (ctx e slot : Nat) : List Byte := s.rd ((s.ctx ctx).f.objAddr e slot) (64 + 512 * (s.ctx ctx).f.headDim)
/-- Whether a set object verifies (R183). -/
def objOk (bs : List Byte) : Bool := crc64 (bs.take 56 ++ bs.drop 64) == word (wordsOf 8 bs) 7
/-- A set object made of its header's first seven words and its centroids. -/
def mkObj (ws : List Nat) (cb : List Byte) : List Byte := bytesOfWords ws ++ bytesOf 8 (crc64 (bytesOfWords ws ++ cb)) ++ cb
/-- The version's set object on this node, if its directory holds it. -/
def State.verObj (s : State) (ctx e ver : Nat) : Option (List Byte) := ((s.cbSet ctx e).slotOf ver).map (s.setObj ctx e)

/-- The READY context slot of a composition, the lowest. -/
def State.ctxFor (s : State) (comp : Nat) : Option Nat :=
  minBy? id ((s.work.ctxs.filter (fun c => c.2.st == .ready && c.2.f.composition == comp)).map (·.1))
/-- The context slot of a block: its request's record's, else that of the composition charged for its slot (log 15). -/
def State.ctxOf (s : State) (da : Nat) : Option Nat :=
  match s.req (s.desc da).req with
  | some r => some r.ctxSlot
  | none => (Tbl.get s.tier.owners da).bind (fun o => s.ctxFor o.2)

/-- The directory entries of a block's K and V sets. -/
def State.blockSets (s : State) (da : Nat) : Option (Nat × Nat × Nat) :=
  (s.ctxOf da).map (fun c => let d := s.desc da; (c, (s.ctx c).f.entry d.layer d.head 0, (s.ctx c).f.entry d.layer d.head 1))

/-- Whether a set has channel factors (R187). -/
def State.hasFactors (s : State) (ctx l h kv : Nat) : Bool := Tbl.has (s.ctx ctx).factors (l, h, kv)

/-! ### References and statistics (R191, R209, R210) -/

/-- The ledger scope of a version's references. -/
def State.refScope (s : State) (ctx e ver : Nat) : Nat := ((s.ctx ctx).f.codebookDir + 64 + e * 64) * 65536 + ver

/-- Takes or gives one reference on a version; a count that would fall below zero is a ledger break (R209 to R211, R451). -/
def State.addRef (s : State) (ctx e ver : Nat) (up : Bool) : State :=
  let x := s.cbSet ctx e
  match x.slotOf ver with
  | none => s
  | some i =>
    let v := x.slot i
    let scope := s.refScope ctx e ver
    if up then (s.setCbSet ctx e (x.setSlot i (v.1, v.2.1, v.2.2 + 1))).bookNew qRefs scope 0 1
    else if v.2.2 = 0 then s.ledgerBroken qRefs scope 1 0 true
    else (s.setCbSet ctx e (x.setSlot i (v.1, v.2.1, v.2.2 - 1))).bookEnd qRefs scope 0 1

/-- Adds to a statistics counter of a version: 0 to 7 Attend, 8 to 15 encode (R176, R191). -/
def State.addStat (s : State) (ctx e ver k n : Nat) : State :=
  match (s.cbSet ctx e).slotOf ver with
  | none => s
  | some i => let a := (s.ctx ctx).f.statsAddr e i + 8 * k
              s.wrWords a [u64 (word (s.rdWords a 1) 0 + n)]

/-- Takes or gives the references a descriptor holds: one on each of its versions, none while it is BF16 (R209). -/
def State.descRefs (s : State) (da : Nat) (up : Bool) : State :=
  let d := s.desc da
  if d.repr = 0 then s else
    match s.blockSets da with
    | none => s
    | some (c, ek, ev) => (s.addRef c ek d.kVer up).addRef c ev d.vVer up

/-! ### The codec's arithmetic (R193, R207) -/

/-- The values of BF16 elements; none if one is not finite. -/
def bf16s (n : Nat) (bs : List Byte) : Option (List Dy) := ((chunks 2 n bs).map (fun c => decBF16 (valOf c))).mapM id

/-- Centroid c of subspace j of a set's centroid bytes. -/
def centroid (cb : List Byte) (j c : Nat) : List Dy := (bf16s 8 ((cb.drop ((j * 256 + c) * 16)).take 16)).getD (List.replicate 8 dyZero)

/-- The squared distance of two vectors, exactly. -/
def dist2 (a b : List Dy) : Dy := dySum (List.zipWith (fun x y => dyMul (dySub x y) (dySub x y)) a b)
/-- The squared norm, exactly. -/
def norm2 (a : List Dy) : Dy := dySum (a.map (fun x => dyMul x x))

/-- The lowest centroid of smallest distance, each distance rounded once to FP32 (R193). -/
def nearest (cs : List (List Dy)) (x : List Dy) : Nat :=
  let ds := cs.map (fun c => r32 (dist2 x c))
  ((List.range ds.length).foldl (fun (b : Nat × Dy) i => let d := ds.getD i dyZero; if i = 0 || dyLt d b.2 then (i, d) else b) (0, dyZero)).1

/-- What encoding a row under a set gives: its codes, its reconstruction, `code_sum` and `resid` as stored, and the exact sum of squared
residuals (R193). -/
structure Coded where
  codes : List Nat
  rec_ : List Dy
  sum : Nat
  resid : Nat
  exact_ : Dy

/-- Encodes a target row of D values under a set's centroids (R193). -/
def encodeRow (cb : List Byte) (d : Nat) (tgt : List Dy) : Coded :=
  let codes := (List.range (d / 8)).map (fun j => nearest ((List.range 256).map (centroid cb j)) ((tgt.drop (8 * j)).take 8))
  let rec_ := (List.range (d / 8)).flatMap (fun j => centroid cb j (codes.getD j 0))
  let ex := dist2 tgt rec_
  { codes := codes, rec_ := rec_, sum := encF32 (dySum rec_), resid := encBF16 (dyRoundUp fBF16 ex), exact_ := ex }

/-- The scale record of a token (R94): scales, code sums and residuals of K and V, padded to D/4 bytes. -/
def scaleRecord (d ks vs ksum vsum kres vres : Nat) : List Byte :=
  padTo (d / 4) (bytesOf 2 ks ++ bytesOf 2 vs ++ bytesOf 4 ksum ++ bytesOf 4 vsum ++ bytesOf 2 kres ++ bytesOf 2 vres)

/-- A row scaled for encoding (R193): the BF16 scale, whether it was clamped, the scaled values and the E4M3 codes. -/
structure Scaled where
  scale : Nat
  floor_ : Bool
  z : List Dy
  ex : List Nat

/-- Divides a row by its factors and scales it (R193); a quotient past the largest FP32 value is a free value (log 4). -/
def scaleRow (mu : List Nat) (x : List Nat) : Scaled :=
  let y := List.zipWith (fun v m =>
    let q := r32 (dyDiv ((decBF16 v).getD dyZero) ((decF32 m).getD dyZero))
    if dyOver fF32 q then (decF32 (Config.divOver v m).toNat).getD dyZero else q) x mu
  let amax := y.foldl (fun a v => dyMax a (dyAbs v)) dyZero
  let sc := if amax.m = 0 then dyNat 1 else dyRoundUp fBF16 (dyDiv amax (dyNat 448))
  let small := dyLt sc (dyPow2 (-126))
  let sc := if small then dyPow2 (-126) else sc
  let z := y.map (fun v => r32 (dyDiv v sc))
  { scale := encBF16 sc, floor_ := small, z := z
    ex := List.zipWith (fun (v : Dy) (w : Nat) => let c := encE4M3 v; if 32768 ≤ w && c == 0 then 0x80 else c) z x }

/-! ### The spawn reservoirs (R200) -/

/-- The calibration policy of a composition. -/
def State.calib (s : State) (comp : Nat) : CalibPolicy := Tbl.at s.cb.policies comp {}

/-- A sealed row enters the newer half by uniform reservoir selection over the rows sealed in its window; the row it replaces is
drawn as a free value (R200; log 3). -/
def State.intoReservoir (s : State) (ctx e : Nat) (row : List Byte) : State :=
  let cap := (s.calib (s.ctx ctx).f.composition).reservoirRows / 2
  let r := Tbl.at s.cb.reservoirs (ctx, e) {}
  let (w, s1) := s.draw
  let i := w % (r.newSeen + 1)
  let rows := if r.newRows.length < cap then r.newRows ++ [row] else if i < cap then r.newRows.set i row else r.newRows
  { s1 with cb := { s1.cb with reservoirs := Tbl.set s1.cb.reservoirs (ctx, e) { r with newSeen := r.newSeen + 1, newRows := rows } } }

/-- Rows of a block below a count that were teed enter their reservoirs, and are teed no more (R200). -/
def State.sealTees (s : State) (da n : Nat) : State :=
  match s.blockSets da with
  | none => s
  | some (c, ek, ev) =>
    let mine := s.cb.tees.filter (fun t => t.1.1 == da && decide (t.1.2.1 < n))
    let s1 : State := { s with cb := { s.cb with tees := s.cb.tees.filter (fun t => !(t.1.1 == da && decide (t.1.2.1 < n))) } }
    mine.foldl (fun (t : State) (x : (Nat × Nat × Nat) × List Byte) => t.intoReservoir c (if x.1.2.2 = 0 then ek else ev) x.2) s1

/-- Rows of a block at or past a count are dropped: they never enter a reservoir (R108, R200). -/
def State.dropTees (s : State) (da n : Nat) : State :=
  { s with cb := { s.cb with tees := s.cb.tees.filter (fun t => !(t.1.1 == da && decide (n ≤ t.1.2.1))) } }

/-! ### Blocks a command names (R103, R137, R153, R223) -/

/-- Descriptors of a request's blocks of a layer and head with indices from b0 to b1. -/
def State.rangeBlocks (s : State) (rid l h b0 b1 : Nat) : List Nat :=
  match s.req rid with
  | none => []
  | some r => (((List.range (min (b1 + 1) r.span)).filter (fun b => decide (b0 ≤ b))).map (fun b => s.mapEntry r l h b)).filter (· ≠ 0)

/-- Descriptors in a list in memory. -/
def State.listed (s : State) (a n : Nat) : List Nat := s.rdWords a n

/-- The blocks a command names: those of its range or list (R103). -/
def State.cmdBlocks (s : State) (c : Cmd) : List Nat :=
  let w := c.op
  let rid := fld w 1 47 0
  match c.cls, fld w 0 43 36 with
  | 2, 1 => s.rangeBlocks rid (fld w 5 63 54) (fld w 5 53 46) (fld w 4 63 32 / 64) (fld w 4 31 0 / 64)
  | 2, 2 => s.listed (word w 4) (fld w 5 14 0)
  | 3, 1 => s.rangeBlocks rid (fld w 5 63 54) (fld w 5 53 46) (fld w 4 63 32 / 64) ((fld w 4 63 32 + fld w 4 31 19 - 1) / 64)
  | 3, 2 => s.listed (word w 2) (fld w 3 63 49)
  | 1, 3 => (List.range (fld w 2 53 44 + 1 - fld w 2 63 54)).flatMap (fun l => (List.range (fld w 2 35 28 + 1 - fld w 2 43 36)).flatMap (fun h =>
      s.rangeBlocks rid (fld w 2 63 54 + l) (fld w 2 43 36 + h) (fld w 3 63 32) (fld w 3 31 0)))
  | 5, 2 => match s.req rid with
    | none => []
    | some r => (s.geom r).heads.flatMap (fun lh => s.rangeBlocks rid lh.1 lh.2 (r.committed / 64) (r.span))
  | _, _ => []

/-- Whether a command writes KV: ENCODE_KV, COMMIT, RECODE_BLOCKS. -/
def Cmd.writesKv (c : Cmd) : Bool := (c.cls == 3 && (fld c.op 0 43 36 == 1 || fld c.op 0 43 36 == 2)) || (c.cls == 5 && fld c.op 0 43 36 == 2)

/-- Whether another dispatched command names a block (R103 step 3, R178, R223 step 5). -/
def State.blockNamed (s : State) (cid da : Nat) : Bool :=
  s.work.cmds.any (fun c => c.1 != cid && c.2.dispT.isSome && c.2.outcome.isNone && (s.cmdBlocks c.2).contains da)

/-! ### Freeing slots (R22, R28, R97, R112, R144, R178, R210, R219) -/

/-- Whether a slot lingers for a new holder after a leap (R134). -/
def State.lingers (s : State) (da : Nat) : Bool := s.own.holds.any (fun x => (x.2.lingering.map (fun l => l.2.1.contains da)).getD false)

/-- The ledger state of a claimed slot: in transit while it lingers (R108, R144). -/
def State.bookOf (s : State) (da : Nat) : Nat := if s.lingers da then 4 else (s.desc da).book

/-- Frees a slot from a ledger state: its references are given up, it is charged to nobody, its flash sectors are unmapped, and its
descriptor is FREE; it lingers no longer. -/
def State.freeDesc (s : State) (da i : Nat) : State :=
  let slot := (s.desc da).slot
  let size := ((s.arenaOf da).map (fun a => 256 * a.headDim)).getD 0
  let s1 := (sectorsOf slot size).foldl State.unmapSector ((s.descRefs da false).dropTees da 0)
  let s2 : State := { s1 with tier := { s1.tier with owners := Tbl.del s1.tier.owners da, transit := s1.tier.transit.filter (· ≠ da)
                                                     lastRead := Tbl.del s1.tier.lastRead da } }
  let s3 : State := { s2 with own := { s2.own with holds := Tbl.mapVals s2.own.holds (fun _ h =>
    { h with lingering := h.lingering.map (fun l => (l.1, l.2.1.filter (fun x => x != da), l.2.2)) }) } }
  (s3.setDesc da { slot := slot }).bookSlot da i 0

/-- Frees a slot, or leaves it to the completion of the dispatched commands that name it (R178). -/
def State.freeOrWait (s : State) (da : Nat) : State :=
  if s.blockNamed s.work.nextCid da then { s with kv := { s.kv with toFree := (s.kv.toFree ++ [da]).dedup } }
  else s.freeDesc da (s.bookOf da)

/-- Frees the slots that waited and that no dispatched command names any more (R178). -/
def State.freeWaiting (s : State) : State :=
  let ready := s.kv.toFree.filter (fun da => !s.blockNamed s.work.nextCid da)
  ready.foldl (fun t da => t.freeDesc da (t.bookOf da)) { s with kv := { s.kv with toFree := s.kv.toFree.filter (fun da => !ready.contains da) } }

/-- Frees every slot of a request on this node, its map entries cleared (R22, R28, R112). -/
def State.freeBlocks (s : State) (rid : Nat) (r : Req) : State :=
  (s.blocks r).foldl (fun t e =>
    let t1 := if t.ownBlock rid e.2 then t.freeOrWait e.2 else t
    t1.setMapEntry r e.1.1 e.1.2.1 e.1.2.2 0) s

/-! ### What a completion step applies (R78, R104, R210, R219) -/

/-- The sectors in which a representation's bytes in use lie (R219). -/
def repSectors (repr d : Nat) : Nat := ceilDiv (inUse repr d) 4096


/-- The sectors a slot's bytes of a representation lie in are mapped, the others unmapped (R219). -/
def State.fitSectors (s : State) (slot repr d : Nat) : State :=
  if addrSpace slot ≠ 2 then s else
    let all := sectorsOf slot (256 * d)
    let keep := repSectors repr d
    let s1 := (all.take keep).foldl (fun t x => if Tbl.has t.tier.map x then t else t.mapSector x) s
    (all.drop keep).foldl State.unmapSector s1

/-- Rows written: `valid_count` becomes n, and rows valid beyond it are dropped here and in every later block of the layer and head
(R104). -/
def State.rowsValid (s : State) (rid l h b n : Nat) : State :=
  match s.req rid with
  | none => s
  | some r =>
    let da := s.mapEntry r l h b
    let s1 := if da = 0 then s else (s.setDesc da { s.desc da with valid := n }).dropTees da n
    ((List.range r.span).filter (fun i => decide (b < i))).foldl (fun t i =>
      let a := t.mapEntry r l h i
      if a = 0 || addrNode a != t.node then t else (t.setDesc a { t.desc a with valid := 0 }).dropTees a 0) s1

/-- Applies one effect of a completion step. -/
def State.applyPost (s : State) (p : Post) : State :=
  match p with
  | .write a bs => s.wr a bs
  | .ref c e v up => s.addRef c e v up
  | .stat c e v k n => s.addStat c e v k n
  | .rows rid l h b n => s.rowsValid rid l h b n
  | .fit slot repr d => s.fitSectors slot repr d

end Sys2Proof.Machine
end

