-- ==== Sys2Proof/Machine/OwnOps.lean ====
section
/-! DEFINITION. Directory entries, receipts, mirrors, leases and manifests as shared operations (chapter 5). -/

namespace Sys2Proof.Machine
open Sys2Proof

/-! ### Entries and receipts -/

/-- The code of a directory state (R115). -/
def dirCode : DirState → Nat
  | .free => 0 | .admitted => 1 | .prefill => 2 | .protected_ => 3 | .leaping => 4 | .decoding => 5 | .stopped => 6
  | .held => 7 | .failed => 8

/-- The directory state of a code. -/
def dirOf (n : Nat) : DirState :=
  [DirState.free, .admitted, .prefill, .protected_, .leaping, .decoding, .stopped, .held, .failed].getD n .free

/-- The eight words of a directory entry (R115). -/
def DirEntry.words (rid : Nat) (e : DirEntry) : List Nat :=
  let head := (e.receipts.getLast?.map (·.addr)).getD 0
  sealWords [mkWord [(60, 4, dirCode e.st), (48, 12, e.holder), (0, 48, rid)], mkWord [(32, 32, e.epoch), (0, 32, e.mapEpoch)],
    mkWord [(48, 16, e.composition), (36, 12, e.leapTarget), (34, 2, e.leapPhase), (33, 1, b2n e.leapFromDecode),
      (30, 3, e.recoveryStep), (29, 1, b2n e.mirror), (28, 1, b2n e.acting)],
    u64 e.stateTime, u64 head, mkWord [(32, 32, e.receipts.length), (0, 32, e.receiptTokens)],
    mkWord [(52, 12, e.backup), (40, 12, e.prevHolder), (16, 16, e.users)]]

/-- A mirror copy from an entry's words (R116). -/
def DirEntry.ofWords (w : List Nat) : DirEntry :=
  { st := dirOf (fld w 0 63 60), holder := fld w 0 59 48, epoch := fld w 1 63 32, mapEpoch := fld w 1 31 0,
    composition := fld w 2 63 48, leapTarget := fld w 2 47 36, leapPhase := fld w 2 35 34, leapFromDecode := fld w 2 33 33 == 1,
    recoveryStep := fld w 2 32 30, mirror := true, acting := false, stateTime := word w 3, receiptTokens := fld w 5 31 0,
    backup := fld w 6 63 52, prevHolder := fld w 6 51 40, users := fld w 6 31 16 }

/-- Words 0 to 4 of a receipt as bytes 0 to 39, then the two digests: bytes 0 to 167 (R132). -/
def Receipt.body (rid : Nat) (r : Receipt) : List Byte :=
  bytesOfWords [mkWord [(56, 8, r.kind), (0, 48, rid)], mkWord [(32, 32, r.index), (0, 32, r.epoch)],
    mkWord [(52, 12, r.fromNode), (40, 12, r.toNode), (0, 32, r.tokens)], u64 r.time,
    mkWord [(32, 32, r.blockCount), (0, 32, r.mapEpoch)]] ++ r.manifest ++ r.prevDigest

/-- The 256 bytes of a receipt (R132). -/
def Receipt.bytes (rid : Nat) (r : Receipt) : List Byte :=
  r.body rid ++ r.chain ++ bytesOfWords [u64 r.prevAddr, 0, 0]

/-- A receipt from its 32 words. -/
def Receipt.ofWords (addr : Nat) (w : List Nat) : Receipt :=
  let bs := bytesOfWords w
  { kind := fld w 0 63 56, index := fld w 1 63 32, epoch := fld w 1 31 0, fromNode := fld w 2 63 52, toNode := fld w 2 51 40,
    tokens := fld w 2 31 0, time := word w 3, blockCount := fld w 4 63 32, mapEpoch := fld w 4 31 0,
    manifest := (bs.drop 40).take 64, prevDigest := (bs.drop 104).take 64, chain := (bs.drop 168).take 64, addr := addr,
    prevAddr := word w 29 }

/-- Appends a receipt; its address is a free value (R132 gives none; log 3). -/
def State.newReceipt (s : State) (rid : Nat) (e : DirEntry) (kind fromN toN tokens blocks : Nat) (manifest : List Byte) :
    DirEntry × State :=
  let (v, s1) := s.draw
  let last := e.receipts.getLast?
  let r0 : Receipt :=
    { kind := kind, index := e.receipts.length, epoch := e.epoch, fromNode := fromN, toNode := toN, tokens := tokens
      time := s.now, blockCount := blocks, mapEpoch := e.mapEpoch, manifest := manifest
      prevDigest := (last.map (·.chain)).getD (List.replicate 64 0#8), addr := v, prevAddr := (last.map (·.addr)).getD 0 }
  let r := { r0 with chain := sha512 (r0.body rid) }
  ({ e with receipts := e.receipts ++ [r], receiptTokens := tokens }, s1)

/-- The directory entry this node keeps for a request. -/
def State.entry (s : State) (rid : Nat) : Option DirEntry := Tbl.get s.own.dir rid
/-- Stores an entry. -/
def State.setEntry (s : State) (rid : Nat) (e : DirEntry) : State := { s with own := { s.own with dir := Tbl.set s.own.dir rid e } }
/-- Whether this node acts as the home of an entry: its own, or taken over (R125, R142). -/
def DirEntry.here (e : DirEntry) : Bool := !e.mirror || e.acting

/-- The next id of a list above `x`, wrapping (R116). -/
def nextAbove (ids : List Nat) (x : Nat) : Option Nat :=
  match minBy? id (ids.filter (fun i => decide (x < i))) with
  | some y => some y
  | none => minBy? id (ids.filter (· ≠ x))

/-- The home set of a request's map epoch. -/
def State.homeSet (s : State) (e : DirEntry) : List Nat := ((s.comp e.composition).mapAt e.mapEpoch).home

/-! ### Messages -/

/-- A directory message about a request (R124), in the directory traffic's class. -/
def dirMsg (dst code rid epoch mapEpoch : Nat) (fields : List Nat) (tail : List Byte) : CtlMsg :=
  { dst := dst, tc := 7, code := code, req := rid, epoch := epoch, mapEpoch := mapEpoch, fields := fields, tail := tail }

/-- The node that acts as home for a request (R125). -/
def State.homeOf (s : State) (rid : Nat) : Nat := Tbl.at s.own.acting (reqHome rid) (reqHome rid)

/-- A refused message completes at its sender with a status: code 0, naming the message refused. -/
def State.refuse (s : State) (h : MsgHdr) (code : Nat) (st : Status) : State :=
  s.tell (dirMsg h.src 0 h.req h.epoch h.mapEpoch [code, st.code] [])

/-- The MIRROR message of an entry, with its newest receipt (R116). -/
def DirEntry.mirrorMsg (rid : Nat) (e : DirEntry) : CtlMsg :=
  dirMsg e.backup 0x1A rid e.epoch e.mapEpoch (e.words rid ++ [(e.receipts.getLast?.map (·.addr)).getD 0])
    ((e.receipts.getLast?.map (Receipt.bytes rid)).getD [])

/-- Writes a changed entry: it is mirrored first, and the messages that depend on it wait for MIRROR_ACK; an entry whose
backup is this node itself has no mirror (R116). -/
def State.commitEntry (s : State) (rid : Nat) (e : DirEntry) (msgs : List CtlMsg) : State :=
  let s := (s.unitEvent 0x900 0x0901 1 none).unitEvent 0x901 0x0901 1 none
  if e.backup = s.node then msgs.foldl State.tell (s.setEntry rid e)
  else (s.setEntry rid { e with mirrorWait := e.mirrorWait + 1, heldMsgs := e.heldMsgs ++ msgs }).tell (e.mirrorMsg rid)

/-- The header's checks at the home: version 1, an entry here, and no backup that has not taken over (R118, R125). -/
def State.atHome (s : State) (h : MsgHdr) (code : Nat) (f : DirEntry → State) : State :=
  if h.ver ≠ 1 then s else
  match s.entry h.req with
  | none => s.refuse h code .requestMoved
  | some e => if e.here then f e else s.refuse h code .retryHomeMoving

/-! ### Leases -/

/-- The guard g of R119: the dead-target load bound plus 5 µs. -/
def State.guard (s : State) : Nat := s.fab.deadBound + 5000

/-- Stores the holder's side of a lease. -/
def State.setLease (s : State) (home : Nat) (l : Lease) : State := { s with own := { s.own with leases := Tbl.set s.own.leases home l } }
/-- Stores the home's side of a lease. -/
def State.setHomeLease (s : State) (holder : Nat) (l : HomeLease) : State :=
  { s with own := { s.own with homeLeases := Tbl.set s.own.homeLeases holder l } }

/-- The requests credited to a holder by entries this node acts for (R122). -/
def State.credited (s : State) (holder : Nat) : List Nat :=
  (s.own.dir.filter (fun x => x.2.here && x.2.holder == holder && [DirState.prefill, .protected_, .leaping, .decoding, .stopped].contains x.2.st)).map (·.1)

/-- The requests this node holds whose home is a given node (R122). -/
def State.heldFor (s : State) (home : Nat) : List Nat := (s.kv.reqs.filter (fun x => s.homeOf x.1 == home)).map (·.1)

/-- Records free at this node of 1,048,576 (R89). -/
def State.freeRecords (s : State) : Nat := 1048576 - s.kv.reqs.length

/-- Whether this node's lease at a request's home is FENCED (R120). -/
def State.fencedFor (s : State) (rid : Nat) : Bool := ((Tbl.get s.own.leases (s.homeOf rid)).map (·.fenced)).getD false

/-- What this node does with a request's leap. -/
def State.hold (s : State) (rid : Nat) : HoldState := Tbl.at s.own.holds rid {}
/-- Stores it. -/
def State.setHold (s : State) (rid : Nat) (h : HoldState) : State := { s with own := { s.own with holds := Tbl.set s.own.holds rid h } }

/-- Completes with a status every command that names a request and has not been dispatched (R123, R127). -/
def State.failHeld (s : State) (rid : Nat) (st : Status) : State :=
  { s with work := { s.work with cmds := Tbl.mapVals s.work.cmds (fun _ c =>
      if fld c.words 1 47 0 = rid ∧ c.outcome = none ∧ (c.st = .waiting ∨ c.st = .wiped ∨ c.st = .saved) then { c with outcome := some (st, 0) } else c) } }

/-! ### Manifests (R127, R128) -/

/-- One 40-byte manifest entry of a descriptor: words 0 to 2 with the state zero, then words 5 and 6. -/
def Desc.manifest (d : Desc) : List Nat := let w := ({ d with st := 0 } : Desc).words7; w.take 3 ++ w.drop 5

/-- The manifest entries of a request, in block-map order. -/
def State.manifest (s : State) (r : Req) : List (List Nat) := (s.blocks r).map (fun e => (s.desc e.2).manifest)

/-- The manifest digest: SHA-512 of the entries. -/
def manifestDigest (es : List (List Nat)) : List Byte := sha512 (bytesOfWords es.flatten)

/-- Drops tentative rows of every block of a request: `valid_count` becomes `committed_count`; a block with none
committed is freed (R127). -/
def State.dropTentative (s : State) (rid : Nat) (r : Req) : State :=
  (s.blocks r).foldl (fun t e =>
    let d := t.desc e.2
    if !t.ownBlock rid e.2 then t
    else if d.committed = 0 then (t.freeDesc e.2 1).setMapEntry r e.1.1 e.1.2.1 e.1.2.2 0
    else t.setDesc e.2 { d with valid := d.committed }) s

/-! ### Choosing a holder (R126) -/

/-- The member with the most free records in its last LEASE_RENEW, at least 1,024, ties to the lowest id (R126); a
member never heard from counts as having none. -/
def State.choose (s : State) (pool : List Nat) (no : Nat) : Option Nat :=
  let free := fun n => ((Tbl.get s.own.homeLeases n).map (·.freeRecords)).getD 0
  let ok := sortBy (fun a b => decide (a ≤ b)) (pool.filter (fun n => n ≠ no && decide (1024 ≤ free n)))
  maxBy? free ok

/-- The pool of a recovery: prompt for PREFILL and PROTECTED, generation for DECODING and STOPPED (R126). -/
def State.poolFor (s : State) (e : DirEntry) : List Nat :=
  let m := (s.comp e.composition).mapAt e.mapEpoch
  if e.st = .prefill ∨ e.st = .protected_ then m.prompt else m.gen

/-! ### Aborts and recovery -/

/-- Scope of request counts in the ledger: the composition. -/
def DirEntry.scope (e : DirEntry) : Nat := e.composition
/-- Request-count states (R448): held 4, in transit 5, ended 6. -/
def State.bookReq (s : State) (e : DirEntry) (i j : Nat) : State := s.bookMove qRequests e.scope i j 1

/-- Aborts the leap of an entry: the state returns to the one it started from, the entry is mirrored, both holders are
told, and EV_LEAP_ABORTED is raised (R130, R144). -/
def State.abortLeap (s : State) (rid : Nat) (e : DirEntry) (reason : Nat) : State :=
  let b := e.leapTarget
  let e' := { e with st := (if e.leapFromDecode then .decoding else .protected_), leapTarget := 0, leapPhase := 0,
                     leapFromDecode := false, stateTime := s.now, lastCommitted := false }
  let m := fun dst => dirMsg dst 0x08 rid e.epoch e.mapEpoch [reason] []
  ((s.commitEntry rid e' [m e.holder, m b]).bookReq e 5 4).raise0 .leapAborted s.hubDie 0 [rid, e.holder, b, reason]

/-- The holders named in a receipt chain, highest epoch first (R140). -/
def chainHolders (rs : List Receipt) : List Nat := (rs.reverse.map (·.toNode)).dedup

/-- Makes a request an orphan: a leap in progress is aborted with reason 1, and step 1 of the recovery is next (R139,
R140). -/
def State.orphan (s : State) (rid : Nat) : State :=
  match s.entry rid with
  | none => s
  | some e0 =>
    if e0.recoveryStep ≠ 0 then s else
      let s1 := if e0.st = .leaping then s.abortLeap rid e0 1 else s
      match s1.entry rid with
      | none => s1
      | some e =>
        let pool := s1.poolFor e
        let e' := { e with recoveryStep := 1, probe := none, assertAt := none, candidates := (chainHolders e.receipts).filter pool.contains }
        (s1.commitEntry rid e' []).bookReq e 4 5

/-- The fault of a kind and unit of a composition as its number, recorded if it is new: 1 a member, 2 a die or channel of this node, 3 a lapse (log 22). -/
def State.faultOf (s : State) (kind unit comp : Nat) : Nat × State :=
  match s.prot.faults.findIdx? (fun f => f.kind == kind && f.unit == unit && f.composition == comp) with
  | some i => (i, s)
  | none => (s.prot.faults.length, { s with prot := { s.prot with faults := s.prot.faults ++ [{ kind := kind, unit := unit, composition := comp, startAt := s.now }] } })

/-- Counts a request that ends at this home to the faults that end it: a lapse whose orphan is lost, or the losses of its composition whose blocks
it could not read (R227, R442). -/
def State.countEnded (s : State) (e : DirEntry) (st : Status) : State :=
  { s with prot := { s.prot with faults := s.prot.faults.map (fun f =>
      if f.composition = e.composition ∧ (f.kind = 3 ∧ st = .orphanLost ∧ e.prevHolder = f.unit ∨ (f.kind = 1 ∨ f.kind = 2) ∧ (st = .tierFailed ∨ st = .tierLate))
      then { f with ended := f.ended + 1 } else f) } }

/-- Ends a request at its home with a failure status: FAILED (R22). -/
def State.failReq (s : State) (rid : Nat) (e : DirEntry) (st : Status) (i : Nat) : State :=
  (s.commitEntry rid { e with st := .failed, holder := 0, recoveryStep := 0, probe := none, stateTime := s.now, endStatus := some st } []).bookReq e i 6
    |>.countEnded e st

/-- Delivers a cancel to the holder of a request (R27): the holder applies it in CANCEL_APPLY. The manual gives the
message no code. -/
def State.deliverCancel (s : State) (rid : Nat) (e : DirEntry) : State :=
  s.tell (dirMsg e.holder 0 rid e.epoch e.mapEpoch [(e.cancelAt.getD 0)] [])

end Sys2Proof.Machine
end

