-- ==== Sys2Proof/Machine/PageOps.lean ====
section
/-! DEFINITION. The register space: VI pages, doorbells, trigger counters and mailboxes (R61 to R63, R70 to R74, R314,
R393 to R398, R461). -/

namespace Sys2Proof.Machine
open Sys2Proof

/-! ### Queues -/

/-- A queue; an unlisted one is DISABLED. -/
def State.queue (s : State) (k : QKey) : Queue := Tbl.at s.work.queues k {}
/-- Stores a queue. -/
def State.setQueue (s : State) (k : QKey) (q : Queue) : State := { s with work := { s.work with queues := Tbl.set s.work.queues k q } }
/-- Commands of a queue fetched and not yet completed (R74). -/
def State.outstanding (s : State) (k : QKey) : Nat :=
  (s.work.cmds.filter (fun c => (c.2.vi, c.2.cls, c.2.q) == k)).length

/-- The code of a VI's state (R62). -/
def viCode : ViState → Nat
  | .unassigned => 0 | .active => 1 | .quiescing => 2
/-- The code of a queue's state (R74). -/
def qCode : QState → Nat
  | .disabled => 0 | .active => 1 | .draining => 2 | .error => 3

/-- The status word of a queue (R74). -/
def State.queueWord (s : State) (k : QKey) : Nat :=
  let q := s.queue k
  mkWord [(61, 3, qCode q.st), (57, 4, q.reason), (32, 17, s.outstanding k), (0, 32, q.cmdHead)]

/-- A queue enters ERROR with EV_QUEUE_ERROR (R74); the reason is 1 command ring overrun, 2 completion head past tail, 3
ring outside regions. -/
def State.queueError (s : State) (k : QKey) (reason : Nat) : State :=
  (s.setQueue k { s.queue k with st := .error, reason := reason, reread := none }).raise .queueError s.hubDie 0 [k.1, k.2.1, k.2.2, reason] [k.1]

/-- A doorbell store: each index is judged on its own, stale ones are counted, and an index out of range puts the queue in
ERROR (R70, R72). An index that overruns has moved when the queue stops (log 11). -/
def State.doorbell (s : State) (v c q w : Nat) : Status × State :=
  let k : QKey := (v, c, q)
  let x := s.queue k
  if (s.vi v).st ≠ .active ∨ x.st ≠ .active then (.queueState, s) else
    let tail := bits w 31 0
    let head := bits w 63 32
    let staleT := decide (2 ^ 31 ≤ sub32 tail x.cmdTail)
    let staleH := decide (2 ^ 31 ≤ sub32 head x.cplHead)
    let n := b2n staleT + b2n staleH
    let tail' := if staleT then x.cmdTail else tail
    let head' := if staleH then x.cplHead else head
    let moved := decide (tail' ≠ x.cmdTail)
    let x' := { x with cmdTail := tail', cplHead := head', accepts := if moved then x.accepts ++ [(tail', s.now)] else x.accepts }
    let s1 := s.setQueue k x'
    let s2 := if n = 0 then s1 else s1.account v c 7 n
    if 2 ^ x.ringLog2 < sub32 tail' x.cmdHead then (.queueOverrun, s2.queueError k 1)
    else if sub32 x.cplTail x.cplHead < sub32 head' x.cplHead then (.queueOverrun, s2.queueError k 2)
    else (.ok, s2)

/-! ### The VI page (R61, R62) -/

/-- A region table entry as its four words (R64). -/
def Region.words (r : Region) : List Nat :=
  [r.base, r.limit, mkWord [(56, 8, r.owner), (32, 1, b2n r.valid), (0, 8, r.rights)], 0]

/-- A line of the VI counters (R461). -/
def State.perfLine (s : State) (v off : Nat) : List Nat :=
  let x := s.vi v
  if off < 0x1800 then
    let c := Tbl.at x.perf ((off - 0x1000) / 64) {}
    [mkWord [(48, 16, c.event), (32, 16, c.queueMask), (16, 16, c.selectSeq), (0, 1, b2n c.frozen)], u64 c.count, u64 c.snapCount,
     u64 c.snapTime, 0, 0, 0, 0]
  else if off = 0x1800 then
    [mkWord [(32, 32, x.snapSeq), (0, 32, (s.perf.captures.filter (fun c => c.vi == v && !c.units)).length)], 0, 0, 0, 0, 0, 0, 0]
  else if off = 0x1840 then [u64 x.sampling.written, u64 x.sampling.dropped, 0, 0, 0, 0, 0, 0]
  else [0, 0, 0, 0, 0, 0, 0, 0]

/-- The mailbox line at a page offset. -/
def State.mboxLine (s : State) (v m l : Nat) : List Byte := Tbl.at (s.mbox v m).lines l (List.replicate 64 0#8)

/-- The line of a VI page at an offset (R61, R62); write-only and reserved words read zero (R9, R10). -/
def State.pageLine (s : State) (v off : Nat) : List Byte :=
  let x := s.vi v
  if off = 0 then bytesOfWords
    [mkWord [(52, 12, s.node), (0, 8, v)], mkWord [(48, 16, x.regionGen), (2, 2, x.rights.maxPriority), (0, 2, viCode x.st)], 6,
     x.fmtSelect % 4, mkWord ((List.range 6).map (fun i => (8 * i, 8, word x.rights.shares i))), 0, 0, 0]
  else if off = 0x40 then bytesOfWords
    ((List.range 2).map (fun w => mkWord ((List.range 8).map (fun i =>
      (8 * i, 8, match Tbl.get x.ctxMap (8 * w + i) with | some n => 128 + n % 64 | none => 0)))) ++ [0, 0, 0, 0, 0, 0])
  else if 0x100 ≤ off ∧ off < 0x400 then bytesOfWords ((List.range 8).map (fun i =>
    let n := (off - 0x100) / 8 + i
    s.queueWord (v, n / 16 + 1, n % 16)))
  else if 0x400 ≤ off ∧ off < 0xC00 then bytesOfWords ((List.range 2).flatMap (fun i => (Tbl.at x.regions ((off - 0x400) / 32 + i) {}).words))
  else if 0xC00 ≤ off ∧ off < 0xD80 then bytesOfWords ((List.range 8).map (fun k => Tbl.at x.acct ((off - 0xC00) / 64 + 1, k) 0))
  else if 0x1000 ≤ off ∧ off < 0x2000 then bytesOfWords (s.perfLine v off)
  else if 0xC000 ≤ off then s.mboxLine v ((off - 0xC000) / 0x1000) (off % 0x1000 / 64)
  else List.replicate 64 0#8

/-! ### Mailboxes (R393 to R398) -/

/-- The operation codes of R400 that a mailbox takes. -/
def adhCodes : List Nat :=
  (List.range 6).map (0x101 + ·) ++ (List.range 7).map (0x201 + ·) ++ (List.range 8).map (0x301 + ·) ++ (List.range 10).map (0x401 + ·) ++
  (List.range 4).map (0x501 + ·) ++ (List.range 7).map (0x601 + ·) ++ (List.range 11).map (0x701 + ·) ++ (List.range 6).map (0x801 + ·) ++
  (List.range 3).map (0x901 + ·) ++ (List.range 5).map (0xA01 + ·) ++ (List.range 12).map (0xB01 + ·)

/-- The request body of a mailbox, of `n` bytes. -/
def State.mboxBody (s : State) (v m n : Nat) : List Byte := ((List.range 31).flatMap (fun i => s.mboxLine v m (i + 1))).take n

/-- The answer a request header gets at once, if any: a wrong version, a reserved field, ranges outside the regions, a bad
check value, an unknown operation (R394, R395, R398, R400). -/
def State.headerFault (s : State) (v m : Nat) (w : List Nat) : Option (Status × Nat) :=
  let op := fld w 0 63 48
  let ver := fld w 0 47 40
  let body := s.mboxBody v m (fld w 0 15 0)
  let ext := s.rd (word w 1) (fld w 2 63 32)
  if ver ≠ 2 ∧ ver ≠ 3 ∧ op ≠ 0x101 then some (.adhVersion, 12)
  else if fld w 0 39 32 ≠ 0 ∨ fld w 2 31 0 ≠ 0 ∨ fld w 4 31 0 ≠ 0 ∨ word w 5 ≠ 0 ∨ word w 6 ≠ 0 ∨ 1984 < fld w 0 15 0 ∨
      16777216 < fld w 2 63 32 ∨ (ver = 2 ∧ (word w 3 ≠ 0 ∨ word w 4 ≠ 0)) then some (.invalidField, 0)
  else if !s.covers v (word w 1) (fld w 2 63 32) rRd ∨ (word w 3 ≠ 0 ∧ !s.covers v (word w 3) (fld w 4 63 32) rWr) then some (.violation, 0)
  else if crc64 (bytesOfWords (w.take 7) ++ body ++ ext) ≠ word w 7 then some (.mailboxCheck, 0)
  else if !adhCodes.contains op ∨ (ver = 2 ∧ op = 0x102) then some (.invalidField, 0)
  else none

/-- A store to a request header line (R395): discarded and counted while BUSY; accepted when its `mb_seq` is a new one. -/
def State.headerStore (s : State) (v m : Nat) (bs : List Byte) : State :=
  let x := s.mbox v m
  let w := wordsOf 8 bs
  let seq := fld w 0 31 16
  if x.busy then s.setMbox v m { x with dropped := sat 255 (x.dropped + 1) }
  else if !s.adeahUp then s.setMbox v m (x.put [(0, bs)])
  else if x.lastSeq = some seq then s.setMbox v m (x.put [(0, bs)])
  else
    let s1 := s.setMbox v m { x.put [(0, bs)] with busy := true, lastSeq := some seq, acceptT := s.now, header := w }
    match s1.headerFault v m w with
    | none => s1
    | some (st, r) =>
      let s2 := if st = .violation then s1.violate v s.node 63 (word w 1) 3 (fld w 0 63 48) 1 else s1
      s2.mboxAnswer v m seq (fld w 0 63 48) st r 0 []

/-- A store to a mailbox line: requests are yours to write, responses Adeah's (R393). -/
def State.mboxStore (s : State) (v m l : Nat) (bs : List Byte) : State :=
  if l = 0 then s.headerStore v m bs
  else if l < 32 then s.setMbox v m ((s.mbox v m).put [(l, bs)])
  else s

/-- A store of a whole line to a VI page (R61 to R63, R70): `fmt_select` takes a format the part speaks. -/
def State.pageStore (s : State) (v off : Nat) (bs : List Byte) : Status × State :=
  let w := wordsOf 8 bs
  if off = 0 then
    let f := fld w 3 1 0
    (.ok, if f = 1 ∨ f = 2 then s.updVi v (fun x => { x with fmtSelect := f }) else s)
  else if 0x2000 ≤ off ∧ off < 0x3800 then
    let n := (off - 0x2000) / 64
    s.doorbell v (n / 16 + 1) (n % 16) (word w 0)
  else if 0xC000 ≤ off then (.ok, s.mboxStore v ((off - 0xC000) / 0x1000) (off % 0x1000 / 64) bs)
  else (.ok, s)

/-! ### Trigger counters (R314 to R317) -/

/-- The VI and number of a trigger counter's line. -/
def counterOf (off : Nat) : Nat × Nat := ((off - 0x1000000) / 0x1000, (off - 0x1000000) % 0x1000 / 64)

/-- The count of a trigger counter. -/
def State.counter (s : State) (v n : Nat) : Nat := Tbl.at (s.vi v).triggers n 0

/-- Whether an arm's threshold is reached (R317). -/
def armReached (count threshold : Nat) : Bool := decide (sub64 count threshold < 2 ^ 63)

/-- Arms of a counter that fire now, in the order in which they were armed: their work is dispatched as a Mover job on the
arm's queue (R317). -/
def State.fireArms (s : State) (v n : Nat) : State :=
  let count := s.counter v n
  let fired := s.fab.arms.filter (fun a => a.vi == v && a.ctr == n && armReached count a.threshold)
  let s1 : State := { s with fab := { s.fab with arms := s.fab.arms.filter (fun a => !(fired.contains a)) } }
  fired.foldl (fun t a => (t.settle (((Tbl.get t.work.cmds a.cid).map (fun c => unitOf c.cls c.inst)).getD 0x300)).updCmd a.cid
    (fun c => { c with st := .running, since := t.now })) s1

/-- Sets a counter and fires the arms it reaches (R314, R317). -/
def State.setCounter (s : State) (v n count : Nat) : State :=
  (s.updVi v (fun x => { x with triggers := Tbl.set x.triggers n (u64 count) })).fireArms v n

end Sys2Proof.Machine
end

