-- ==== Sys2Proof/Machine/FabricOps.lean ====
section
/-! DEFINITION. Request packets at their source and at their target: issue, admission, performing and answering (R286 to R294,
R298 to R304). -/

namespace Sys2Proof.Machine
open Sys2Proof

/-! ### Forms (R286) -/

/-- Whether a request packet's payload and `payload_len` have the form of its type (R286). -/
def requestFormOk (p : Packet) : Bool :=
  let lines := fun n => decide (64 ≤ n) && decide (n ≤ 4096) && n % 64 == 0
  !p.resp && (match p.ty with
  | .load | .fetchAdd => p.payloadLen == 0 && p.payload.isEmpty
  | .store | .storeFlag | .swap => p.payloadLen == 64 && p.payload.length == 64
  | .cas => p.payloadLen == 128 && p.payload.length == 128
  | .write => lines p.payloadLen && p.payload.length == p.payloadLen
  | .read => lines p.payloadLen && p.payload.isEmpty
  | .sendData => decide (1 ≤ p.payloadLen) && decide (p.payloadLen ≤ 4096) && p.payload.length == p.payloadLen
  | _ => false)

/-- Whether a response packet has the form of its type (R286). -/
def responseFormOk (p : Packet) : Bool :=
  p.resp && p.payload.length == p.payloadLen && (match p.ty with
  | .load | .cas | .fetchAdd | .swap | .msgCtrl => p.payloadLen == 64
  | .store | .storeFlag | .write | .sendData => p.payloadLen == 0
  | .read => decide (64 ≤ p.payloadLen) && decide (p.payloadLen ≤ 4096) && p.payloadLen % 64 == 0
  | .unlisted _ => false)

/-- Bytes of lines the response to a request carries (R286). -/
def responseLen (p : Packet) : Nat :=
  match p.ty with
  | .load | .cas | .fetchAdd | .swap => 64
  | .read => p.payloadLen
  | _ => 0

/-- Bytes a request touches at its target. -/
def touchLen (p : Packet) : Nat :=
  match p.ty with
  | .read | .write => p.payloadLen
  | .fetchAdd => 8
  | _ => 64

/-- The region rights a request needs (R65, R301). -/
def rightsOf (t : PktType) : Nat :=
  match t with
  | .load | .read => rRd
  | .cas | .fetchAdd | .swap => rRd + rWr + rAtom
  | _ => rWr

/-! ### Answers -/

/-- The port of an endpoint (R271). -/
def State.endpointPort (s : State) (e : Nat) : Option Nat :=
  (s.lnk.ports.find? (fun x => (x.2.cfg.mode == 1 && x.2.cfg.roles == 2 && x.2.cfg.endpoint == some e) ||
    (x.2.cfg.mode == 2 && x.2.partners.any (fun q => q.2.endpoint == e)))).map (·.1)

/-- Sends a response: to an endpoint of this node on its port, to another node on a path R296 gives, else on the request's own
(R290). -/
def State.answerPkt (s : State) (p : Packet) (st : Status) (data : List Byte) (hit : Bool) : State :=
  let a := p.answer st data hit
  if p.src = s.node then
    match s.endpointPort p.srcEp with
    | some port => s.enqueue port a
    | none => s
  else
    let (path, s1) := s.pickPath a
    s1.emit ({ a with path := path.getD p.path } : Packet).sealed

/-- Refuses a request: every line it would have returned is 0xFF (R290). -/
def State.refusePkt (s : State) (p : Packet) (st : Status) : State := s.answerPkt p st (List.replicate (responseLen p) 0xFF#8) false

/-- Discards a packet and counts it (R286). -/
def State.discard (s : State) : State := { s with fab := { s.fab with discards := s.fab.discards + 1 } }

/-! ### At the source (R291, R292, R294, R298, R299) -/

/-- The destination under which a request is outstanding: its node, or 4,096 + the endpoint of this node whose aperture it
names (R271). -/
def State.reqKey (s : State) (p : Packet) : Nat :=
  if p.dst = s.node ∧ p.ty ≠ .sendData then (match apertureOf p.addr with | some e => 4096 + e | none => p.dst) else p.dst

/-- Sends a request packet on a path, or to the endpoint's port; it takes the next tag of the pair and is kept until answered
(R271, R291). -/
def State.sendOn (s : State) (p : Packet) (path : Option Nat) (purpose : Purpose) (orig : Option Packet) : State :=
  let key := s.reqKey p
  let tag := (s.peer key).nextTag
  let q := ({ p with src := s.node, tag := tag, path := path.getD 0 } : Packet).sealed
  let o : OutReq := { pkt := q, orig := orig, firstSent := s.now, lastSent := s.now, purpose := purpose }
  let s2 := s.updPeer key (fun x => { x with nextTag := u32 (tag + 1) })
  let s3 : State := { s2 with fab := { s2.fab with out := Tbl.set s2.fab.out (key, tag) o } }
  if 4096 ≤ key then (match s3.endpointPort (key - 4096) with | some port => s3.enqueue port q | none => s3)
  else if path.isSome then s3.emit q else s3

/-- Sends a request packet on the path R296 gives. -/
def State.sendReq (s : State) (p : Packet) (purpose : Purpose) (orig : Option Packet) : State :=
  if 4096 ≤ s.reqKey p then s.sendOn p none purpose orig
  else let (path, s1) := s.pickPath p
       s1.sendOn p path purpose orig

/-- Request packets outstanding toward a node (R291). -/
def State.outstandingTo (s : State) (dst : Nat) : Nat := (s.fab.out.filter (fun o => o.1.1 == dst)).length

/-- An operation fails on a dead destination: EV_TARGET_DEAD is raised for the failure that sets the mark, then at most once a
millisecond, with the operations failed since; what is in transit to it is in fault transit once the mark is set (R298, R299, R450). -/
def State.deadFail (s : State) (dst : Nat) (p : Packet) (mark : Bool) : State :=
  let x := s.peer dst
  let s := if mark && !x.dead then s.transitLost dst else s
  let due := (mark && !x.dead) || (x.deadEvAt.map (fun t => decide (t + 1000000 ≤ s.now))).getD true
  let n := x.deadFails + 1
  if due then
    (s.updPeer dst (fun x => { x with dead := x.dead || mark, deadFails := 0, deadEvAt := some s.now })).raise0 .targetDead s.hubDie 0
      [p.addr, p.ty.code, p.srcVi, n]
  else s.updPeer dst (fun x => { x with dead := x.dead || mark, deadFails := n })

/-- Whether a destination is unreachable: marked, or a node with no path whose entry is valid and port ACTIVE (R299). -/
def State.unreachable (s : State) (dst : Nat) : Bool :=
  (s.peer dst).dead || (decide (dst < 4096) && !((List.range 16).any (s.pathUsable dst)))

/-- A packet from a destination has arrived: its mark clears (R299). -/
def State.heard (s : State) (dst : Nat) : State := if (s.peer dst).dead then s.updPeer dst (fun x => { x with dead := false }) else s

/-- Tags of the writes that a VI has outstanding toward a node (R294). -/
def State.writesTo (s : State) (vi dst : Nat) : List Nat :=
  (s.fab.out.filter (fun o => o.1.1 == dst && o.2.pkt.srcVi == vi && [PktType.store, .storeFlag, .cas, .fetchAdd, .swap, .write].contains o.2.pkt.ty)).map (fun o => o.1.2)

/-- MOVE_LINES commands of a VI dispatched toward a node and not completed (R294). -/
def State.movesTo (s : State) (vi dst : Nat) : List Nat :=
  (s.work.cmds.filter (fun c => c.2.vi == vi && c.2.cls == 1 && fld (c.2.work.getD c.2.words) 0 43 36 == 1 && c.2.resident &&
    addrNode (word (c.2.work.getD c.2.words) 3) == dst)).map (·.1)

/-- Whether a packet's target is reached by source binding alone: VI pages and mailboxes (R292). -/
def pageTarget (a : Nat) : Bool := (addrSpace a == 4 && decide (addrOff a < 0x1000000)) || addrSpace a == 5

/-- The VI whose page, mailbox or trigger counter an address names. -/
def targetVi (a : Nat) : Nat :=
  if addrSpace a = 5 then addrOff a / 0x4000
  else if addrOff a < 0x1000000 then addrOff a / 0x10000 else (counterOf (addrOff a)).1

/-- Issues an endpoint's request toward another node (R292, R294, R299): refused without a window it needs, held as a
STORE_FLAG while earlier writes are outstanding. The identity has been checked. -/
def State.issue (s : State) (p : Packet) : State :=
  let counter := addrSpace p.addr = 4 ∧ 0x1000000 ≤ addrOff p.addr
  if p.winId = 0xFFF ∧ !pageTarget p.addr ∧ !counter ∧ p.ty ≠ .sendData then
    (s.violate p.srcVi s.node p.srcEp p.addr 2 p.ty.code 2).refusePkt p .violation
  else if s.unreachable p.dst then (s.deadFail p.dst p false).refusePkt p .targetDead
  else if 4096 ≤ s.outstandingTo p.dst then s
  else if p.ty = .storeFlag ∧ !((s.writesTo p.srcVi p.dst).isEmpty && (s.movesTo p.srcVi p.dst).isEmpty) then
    let h : HeldFlag := { pkt := p, waits := s.writesTo p.srcVi p.dst, moves := s.movesTo p.srcVi p.dst }
    { s with fab := { s.fab with flags := Tbl.set s.fab.flags s.fab.nextFlag h, nextFlag := s.fab.nextFlag + 1 } }
  else s.sendReq p .endpoint (some p)

/-! ### At the target: rights (R292, R300, R301) -/

/-- A window. -/
def State.window (s : State) (w : Nat) : Window := Tbl.at s.fab.windows w {}
/-- Changes a window. -/
def State.updWindow (s : State) (w : Nat) (f : Window → Window) : State :=
  { s with fab := { s.fab with windows := Tbl.set s.fab.windows w (f (s.window w)) } }

/-- Whether a composition's member maps hold a node, under either held map epoch (R20, R301). -/
def State.isMember (s : State) (c node : Nat) : Bool := (s.comp c).maps.any (fun m => m.members.contains node)

/-- The window check of R301: state and generation first, then source, rights and range. -/
def State.windowFault (s : State) (p : Packet) : Option Status :=
  let w := s.window p.winId
  if w.st = .draining ∨ w.st = .revoked ∨ (w.st = .opened ∧ p.winGen ≠ w.gen) then some .windowRevoked
  else if w.st = .closed then (if p.winGen ≠ w.gen then some .windowRevoked else some .violation)
  else if !(w.e.srcs.contains (p.src, p.srcEp) || (w.e.composition != 0 && s.isMember w.e.composition p.src)) then some .violation
  else
    let need := match p.ty with
      | .load | .read => 1
      | .store | .storeFlag | .write => 2
      | .cas | .fetchAdd | .swap => 7
      | _ => 8
    if (w.e.rights &&& need) ≠ need then some .violation
    else if p.ty = .sendData then (if bit w.e.listMask (bits p.addr 55 52) ∧ bits p.addr 63 56 = w.e.owner then none else some .violation)
    else if w.e.base ≤ p.addr ∧ p.addr + touchLen p ≤ w.e.limit + 1 then none else some .violation

/-- Whether a port faces another Rongar (R292). -/
def State.fabricPort (s : State) (port : Nat) : Bool := (s.port port).partnerRole == 1

/-- Why a request that arrived on a port may not be performed: its status and the violation's kind and reason (R60, R65, R292,
R301). -/
def State.targetFault (s : State) (port : Nat) (p : Packet) : Option (Status × Nat × Nat) :=
  let bnd := s.bound (targetVi p.addr) (p.src, p.srcEp)
  let counter := addrSpace p.addr == 4 && decide (0x1000000 ≤ addrOff p.addr)
  if p.ty ≠ .sendData ∧ pageTarget p.addr then (if bnd then none else some (.violation, 6, 4))
  else if p.src = s.node then
    if !s.bound p.srcVi (p.src, p.srcEp) then some (.violation, 2, 4)
    else if p.winId ≠ 0xFFF then (s.windowFault p).map (fun st => (st, 2, 2))
    else if counter then (if bnd then none else some (.violation, 2, 4))
    else if s.covers p.srcVi p.addr (touchLen p) (rightsOf p.ty) then none else some (.violation, 2, 1)
  else if p.srcVi = 0 ∧ p.srcEp = 63 ∧ p.winId = 0xFFF then (if s.fabricPort port ∧ p.winGen = 0 then none else some (.violation, 2, 4))
  else if p.winId = 0xFFF then (if counter && bnd then none else some (.violation, 2, 2))
  else (s.windowFault p).map (fun st => (st, 2, 2))

/-- Refuses a request: violations are logged, window refusals counted (R301, R409). -/
def State.refuseTarget (s : State) (p : Packet) (st : Status) (kind reason : Nat) : State :=
  let s1 := if st = .violation then s.violate p.srcVi p.src p.srcEp p.addr kind p.ty.code reason
    else s.updWindow p.winId (fun w => { w with refusedGen := sat 0xFFFFFFFF (w.refusedGen + 1) })
  s1.refusePkt p st

/-! ### Performing (R289) -/

/-- What performing a request gives. -/
structure OpRes where
  st : Status
  data : List Byte
  hit : Bool
  s : State

/-- An operation that fails: 0xFF in every line it would have returned (R290). -/
def opFail (s : State) (p : Packet) (st : Status) : OpRes := ⟨st, List.replicate (responseLen p) 0xFF#8, false, s⟩

/-- Memory bytes an endpoint declared for its aperture (R271, R273). -/
def State.apertureBytes (s : State) (e : Nat) : Nat :=
  match s.endpointPort e with
  | none => 0
  | some port =>
    let x := s.port port
    if x.cfg.mode = 1 then word x.profile 1 else ((x.partners.find? (fun q => q.2.endpoint == e)).map (fun q => word q.2.profile 1)).getD 0

/-- The enabled bytes of a line over its old ones (R289). -/
def merge (mask : Nat) (old new : List Byte) : List Byte :=
  (List.range 64).map (fun i => if bit mask i then new.getD i 0#8 else old.getD i 0#8)

/-- An alignment, a mask or a space that a request's type does not take (R218, R282, R286, R289, R314, R61). -/
def State.formFault (s : State) (p : Packet) : Bool :=
  let a := p.addr
  let stores := [PktType.store, .storeFlag].contains p.ty
  !s.offsetDefined a || (if p.ty = .fetchAdd then a % 8 != 0 else a % 64 != 0) ||
  (stores && p.operand == 0) ||
  (match addrSpace a with
   | 1 => false
   | 3 => false
   | 4 => if addrOff a < 0x1000000 then !(p.ty == .load || (stores && p.operand == 2 ^ 64 - 1))
          else !(p.ty == .load || (stores && p.operand == 0xFF) || (p.ty == .fetchAdd && a % 64 == 0))
   | 5 => !(p.ty == .load || (stores && p.operand == 2 ^ 64 - 1))
   | _ => true)

/-- A LOAD of a page, counter or mailbox line. -/
def State.regLine (s : State) (a : Nat) : List Byte :=
  let off := addrOff a
  if addrSpace a = 5 then s.mboxLine (off / 0x4000) (off % 0x4000 / 0x1000) (off % 0x1000 / 64)
  else if off < 0x1000000 then s.pageLine (off / 0x10000) (off % 0x10000)
  else bytesOfWords [s.counter (counterOf off).1 (counterOf off).2, 0, 0, 0, 0, 0, 0, 0]

/-- A store to a page, counter or mailbox line. -/
def State.regStore (s : State) (a : Nat) (bs : List Byte) : Status × State :=
  let off := addrOff a
  if addrSpace a = 5 then (.ok, s.mboxStore (off / 0x4000) (off % 0x4000 / 0x1000) (off % 0x1000 / 64) bs)
  else if off < 0x1000000 then s.pageStore (off / 0x10000) (off % 0x10000) bs
  else (.ok, s.setCounter (counterOf off).1 (counterOf off).2 (word (wordsOf 1 bs) 0))

/-- Performs an admitted request on this node's memory or registers (R218, R229, R284, R289, R314). -/
def State.perform (s : State) (p : Packet) : OpRes :=
  let a := p.addr
  let line := a / 64 * 64
  if s.formFault p then opFail s p .invalidField
  else if addrSpace a = 4 ∨ addrSpace a = 5 then
    match p.ty with
    | .load => ⟨.ok, s.regLine a, false, s⟩
    | .fetchAdd =>
      let c := counterOf (addrOff a)
      ⟨.ok, s.regLine line, false, s.setCounter c.1 c.2 (s.counter c.1 c.2 + p.operand)⟩
    | _ => let (st, s1) := s.regStore a p.payload; ⟨st, [], false, s1⟩
  else
    let n := touchLen p
    let whole := p.ty == .write || p.ty == .swap || ([PktType.store, .storeFlag].contains p.ty && p.operand == 2 ^ 64 - 1)
    let fault := if whole && p.ty != .swap then (if s.lineLost a false then some Status.tierFailed else none) else s.readFault line (max n 64)
    match fault with
    | some st => opFail (if st = .memUncorrectable then s.dramError ((s.firstBad line (max n 64)).getD line) else s) p st
    | none =>
      let s := if whole && p.ty != .swap then s else s.countRead line (max n 64) p.srcVi
      let old := s.rd line 64
      match p.ty with
      | .load => ⟨.ok, old, false, s⟩
      | .store | .storeFlag => ⟨.ok, [], false, s.store line (merge p.operand old p.payload)⟩
      | .cas =>
        let hit := old == p.payload.take 64
        ⟨.ok, old, hit, if hit then s.store line (p.payload.drop 64) else s⟩
      | .fetchAdd => ⟨.ok, old, false, s.store a (bytesOf 8 (u64 (valOf (s.rd a 8) + p.operand)))⟩
      | .swap => ⟨.ok, old, false, s.store line p.payload⟩
      | .write => ⟨.ok, [], false, s.store a p.payload⟩
      | .read => ⟨.ok, s.rd a p.payloadLen, false, s⟩
      | _ => opFail s p .invalidField

/-- The tags a source has had performed, newest last (R291). -/
def State.kept (s : State) (p : Packet) : Option (Option Packet) :=
  if p.src = s.node then none else ((s.peer p.src).performed.find? (fun e => e.1 == p.tag)).map (·.2)

/-- Records a performed tag with the response of an atomic, for the last 4,096 tags (R291). -/
def State.record (s : State) (p : Packet) (r : Option Packet) : State :=
  if p.src = s.node then s else s.updPeer p.src (fun x => { x with performed := lastN 4096 (x.performed ++ [(p.tag, r)]) })

/-- Whether a type is an atomic. -/
def isAtomic (t : PktType) : Bool := [PktType.cas, .fetchAdd, .swap].contains t

/-- Carries an admitted request to the endpoint whose aperture it names; beyond the memory the endpoint declared it is a
violation, and an endpoint that does not answer is a dead target (R271). -/
def State.toAperture (s : State) (p : Packet) (e : Nat) : State :=
  if s.apertureBytes e < (addrOff p.addr - 2 ^ 47) % 2 ^ 42 + touchLen p then
    (s.violate p.srcVi p.src p.srcEp p.addr 2 p.ty.code 7).refusePkt p .violation
  else if (s.peer (4096 + e)).dead then (s.deadFail (4096 + e) p false).refusePkt p .targetDead
  else
    let s1 := if p.winId = 0xFFF then s else s.updWindow p.winId (fun w => { w with admitted := w.admitted + 1 })
    s1.sendReq p .endpoint (some p)

/-- Whether a request from another node is on its way to an aperture already (R291). -/
def State.carried (s : State) (p : Packet) : Bool :=
  s.fab.out.any (fun o => (o.2.orig.map (fun q => q.dst == s.node && q.src == p.src && q.tag == p.tag && p.src != s.node)).getD false)

/-- A request that has passed every check at its target is performed and answered; an atomic's response is kept (R290, R291). -/
def State.performAnswer (s : State) (p : Packet) : State :=
  match apertureOf p.addr with
  | some e => s.toAperture p e
  | none =>
    let r := s.perform p
    let a := p.answer r.st r.data r.hit
    let s1 := if r.st = .ok then r.s.record p (if isAtomic p.ty then some a else none) else r.s
    s1.answerPkt p r.st r.data r.hit

/-! ### At the LK die: policing (R336, R337) -/

/-- The policed partner that a packet on a port came from: 0xFF on a native accelerator port, the partner entry on an Ethernet port with role
ACCELERATOR or HOST; none on a fabric port and for a packet of the node's own (R336, R337). -/
def State.policedBy (s : State) (port : Nat) (p : Packet) : Option Nat :=
  let x := s.port port
  if p.resp then none
  else if x.cfg.mode = 2 then (x.partners.find? (fun e => e.2.src == (p.src, p.srcEp) && decide (2 ≤ e.2.role))).map (·.1)
  else if x.partnerRole = 2 ∨ x.partnerRole = 3 then some 0xFF else none

/-- A policer. -/
def State.policer (s : State) (port partner tc : Nat) : Policer := Tbl.at s.tra.policers (port, partner, tc) {}
/-- Stores a policer. -/
def State.setPolicer (s : State) (port partner tc : Nat) (x : Policer) : State :=
  { s with tra := { s.tra with policers := Tbl.set s.tra.policers (port, partner, tc) x } }

/-- A request packet of an endpoint at the LK die: in class 7, or a class not permitted, it is answered with ST_VIOLATION, logged and its units
returned; with too few tokens, or behind one that waits, it stays in its receive buffer; else it draws its tokens and passes (R320, R336, R337). -/
def State.ingress (s : State) (port : Nat) (p : Packet) (pass : State → State) : State :=
  match s.policedBy port p with
  | none => pass s
  | some partner =>
    let permitted := Tbl.at s.tra.permitted (port, partner) 0x7F
    if p.tc = 7 ∨ !bit permitted p.tc then ((s.consume port p).violate p.srcVi p.src p.srcEp p.addr 2 p.ty.code 6).refusePkt p .violation
    else
      let x := s.policer port partner p.tc
      if x.kept.contains p then s
      else if x.b.rate = 0 ∧ x.kept.isEmpty then pass s
      else
        let b := x.b.accrue s.now
        if x.kept.isEmpty && decide (tokensOf p ≤ b.held) then pass (s.setPolicer port partner p.tc { x with b := b.draw (tokensOf p) })
        else s.setPolicer port partner p.tc { b := b, kept := x.kept ++ [p] }

/-- A request packet at the hub (R288 to R292): its check value, its form, its issue when it goes to another node, its repeat,
its rights, and then its effect. -/
def State.receiveIn (s : State) (port : Nat) (p : Packet) : State :=
  let s := (s.consume port p).heard p.src
  if !requestFormOk p then s.discard
  else if !p.crcOk then s.refusePkt p .packetCheck
  else if p.dst ≠ s.node then
    if p.src ≠ s.node then s
    else if !s.bound p.srcVi (p.src, p.srcEp) then (s.violate p.srcVi p.src p.srcEp p.addr 2 p.ty.code 4).refusePkt p .violation
    else s.issue p
  else
    match s.kept p with
    | some (some a) => let (path, s1) := s.pickPath a; s1.emit ({ a with path := path.getD p.path } : Packet).sealed
    | some none => if p.ty = .load ∨ p.ty = .read then let r := s.perform p; s.answerPkt p r.st r.data false else s.answerPkt p .ok [] false
    | none =>
      if s.carried p then s else
      match s.targetFault port p with
      | some (st, kind, reason) => s.refuseTarget p st kind reason
      | none => s.performAnswer p

/-- A request packet at a port: policed at the LK die, then at the hub (R336). -/
def State.receive (s : State) (port : Nat) (p : Packet) : State := s.ingress port p (fun t => t.receiveIn port p)

end Sys2Proof.Machine
end

