-- ==== Sys2Proof/Machine/JobOps.lean ====
section
/-! DEFINITION. The completion step of a command, unit counters and samples (R66, R76, R78, R81, R84, R315, R458, R462, R468,
R469). -/

namespace Sys2Proof.Machine
open Sys2Proof

/-! ### Events of jobs (R457, R461, R462) -/

/-- The slot events a job brings its owner beside its kept and redone slots: waits by cause, their sum, and on Attend the slots it left unfilled; how
many is open (R462, R463; log 6). -/
def jobSlotEvents (u since now : Nat) : List (Nat × Nat) :=
  let waits := ((List.range (unitCauses u)) ++ [7]).map (fun c => (0x10 + c, Config.jobSlots u (0x10 + c) (since * 0x10000 + now)))
  (5, (waits.map (·.2)).sum) :: (4, if u / 256 = 1 then Config.jobSlots u 4 (since * 0x10000 + now) else 0) :: waits

/-- Adds a job's event counts to the unit's programmable counters and to its owner's VI counters; the slot events count here for the VI alone, since the
unit counts its own as they pass (R457, R461, R462). -/
def State.tally (s : State) (c : Cmd) : State :=
  let u := unitOf c.cls c.inst
  let evs := if c.resident then (jobSlotEvents u c.since s.now).foldl (fun (t : Tbl Nat Nat) e => Tbl.set t e.1 e.2) c.events else c.events
  let x := s.unit u
  let x' := if x.frozen then x else { x with prog := x.prog.map (fun p =>
    if p.event < 3 || (p.event < 0x100 && p.vi.isNone) || (p.vi.map (fun v => v != c.vi)).getD false then p
    else { p with count := u64 (p.count + Tbl.at evs p.event 0) }) }
  (s.setUnit u x').updVi c.vi (fun v => { v with perf := Tbl.mapVals v.perf (fun _ k =>
    if k.frozen ∨ k.event = 0 ∨ !bit k.queueMask c.q then k else { k with count := u64 (k.count + Tbl.at evs k.event 0) }) })

/-! ### Command samples (R467 to R469) -/

/-- The VIs that sample a command: its owner or a node-scope sampler whose count, with the offset of the epoch, is a multiple of
its interval (R467, R468). -/
def State.samplersOf (s : State) (vi cls count : Nat) : List Nat :=
  (s.work.vis.filter (fun v =>
    let x := v.2.sampling
    let n := Tbl.at x.intervals cls 0
    x.ring.isSome && (v.1 == vi || x.node) && decide (n ≠ 0) && (count + Tbl.at x.offsets cls 0) % n == 0)).map (·.1)

/-- A sample record (R469). -/
def sampleRecord (c : Cmd) (st : Status) (now lost : Nat) : List Nat :=
  let s32 := sat 0xFFFFFFFF
  let disp := c.dispT.getD now
  sealWords [mkWord [(48, 16, st.code), (44, 4, c.cls), (36, 8, fld c.words 0 43 36), (32, 4, c.q), (24, 8, c.vi),
      (12, 12, unitOf c.cls c.inst), (4, 8, c.preempts), (3, 1, b2n (decide (0 < c.wipes))), (2, 1, b2n c.split)],
    mkWord [(32, 32, fld c.words 7 63 32), (16, 16, fld c.words 0 63 48), (0, 16, sat 65535 lost)], u64 c.acceptT,
    mkWord [(32, 32, s32 (c.fetchT - c.acceptT)), (0, 32, s32 (disp - c.acceptT))],
    mkWord [(32, 32, s32 (now - c.acceptT)), (0, 32, s32 c.engineNs)],
    mkWord [(32, 32, s32 c.linesRead), (0, 32, s32 c.linesWritten)], mkWord [(32, 32, s32 c.detailA), (0, 32, s32 c.detailB)]]

/-- Writes a sample into a VI's ring, or drops it where it would overwrite a record at or past the head (R468). -/
def State.sample (s : State) (v : Nat) (c : Cmd) (st : Status) : State :=
  let x := (s.vi v).sampling
  match x.ring with
  | none => s
  | some g =>
    let head := word (s.rdWords (g.tail + 64) 1) 0
    if 2 ^ g.log2 ≤ sub64 g.written head then
      s.updVi v (fun y => { y with sampling := { x with dropped := x.dropped + 1, lost := x.lost + 1 } })
    else
      let s1 := s.wrWords (g.base + g.written % 2 ^ g.log2 * 64) (sampleRecord c st s.now x.lost)
      (s1.wrWords g.tail [u64 (g.written + 1)]).updVi v (fun y => { y with sampling := { x with
        ring := some { g with written := g.written + 1 }, written := x.written + 1, lost := 0 } })

/-! ### Queue order (R76) -/

/-- Whether a command's `fence` and `chain` conditions are met: with `fence`, no earlier command of its queue is left; after a
chained command, that one is gone (R76). Indices are compared modulo 2^32. -/
def State.ordered (s : State) (c : Cmd) : Bool :=
  let earlier := s.work.cmds.filter (fun e => (e.2.vi, e.2.cls, e.2.q) == (c.vi, c.cls, c.q) &&
    decide (0 < sub32 c.index e.2.index) && decide (sub32 c.index e.2.index < 2 ^ 31))
  (fld c.words 0 31 31 == 0 || earlier.isEmpty) &&
  !(earlier.any (fun e => e.2.fmt == 2 && fld e.2.words 0 30 30 == 1 && sub32 c.index e.2.index == 1))

/-- Commands of a queue that the end of another has just made dispatchable wait from now on (R83). -/
def State.unblocked (s before : State) (k : QKey) : State :=
  { s with work := { s.work with cmds := Tbl.mapVals s.work.cmds (fun _ c =>
      if (c.vi, c.cls, c.q) = k ∧ c.st = .waiting ∧ !before.ordered c ∧ s.ordered c then { c with since := s.now } else c) } }

/-! ### The completion step (R78) -/

/-- The completion record of a command at completion index `j` (R78). -/
def cplRecord (c : Cmd) (st : Status) (result now j entries : Nat) : List Nat :=
  let disp := c.dispT.getD now
  [mkWord [(48, 16, st.code), (32, 16, fld c.words 0 63 48), (28, 4, c.cls), (20, 8, fld c.words 0 43 36), (16, 4, c.q),
     (8, 8, c.preempts), (2, 1, b2n (decide (0 < c.wipes))), (0, 1, (j / entries + 1) % 2)],
   u64 now, u64 result,
   mkWord [(32, 32, fld c.words 7 63 32), (0, 24, if c.fmt = 1 then 0 else sat 0xFFFFFF ((disp - c.acceptT) / 64))]]

/-- Writes the notification line, here or on another node, with store-with-flag (R78). -/
def State.notify (s : State) (v addr : Nat) (tail : Nat) : State :=
  let ws := [u32 tail, u64 s.now, 0, 0, 0, 0, 0, 0]
  if addrNode addr = s.node then s.wrWords addr ws
  else s.sendReq { ty := .storeFlag, dst := addrNode addr, srcVi := v, srcEp := 63, addr := addr, winId := 0xFFF, operand := 2 ^ 64 - 1,
                   payloadLen := 64, payload := bytesOfWords ws : Packet } (.hub 1 0) none

/-- The counter a completed command raises, if any (R315): MOVE_LINES and SEND in the Done class, RECV_POST with ST_OK. -/
def counterRise (c : Cmd) (st : Status) : Option Nat :=
  let w := c.work.getD c.words
  let op := fld w 0 43 36
  if c.cls ≠ 1 then none
  else if (op = 1 ∨ op = 4) ∧ fld w 5 31 31 = 1 ∧ st.isDone then some (fld w 5 30 25)
  else if op = 5 ∧ fld w 4 34 34 = 1 ∧ st = .ok then some (fld w 4 33 28)
  else none

/-- Aborts the command after a chained one that failed: at once if it is fetched, else when it is (R76). -/
def State.chainAbort (s : State) (k : QKey) (index : Nat) : State :=
  let next := u32 (index + 1)
  if s.work.cmds.any (fun e => (e.2.vi, e.2.cls, e.2.q) == k && e.2.index == next) then
    { s with work := { s.work with cmds := Tbl.mapVals s.work.cmds (fun _ c =>
        if (c.vi, c.cls, c.q) = k ∧ c.index = next ∧ c.outcome = none ∧ c.dispT = none then { c with outcome := some (.chainAborted, 0) } else c) } }
  else s.setQueue k { s.queue k with abortAt := some next }

/-- The composition a command's engine time is metered to: its request's, else its context slot's (R21). -/
def State.compOf (s : State) (c : Cmd) : Option Nat :=
  match s.req (fld c.words 1 47 0) with
  | some r => some r.composition
  | none => c.slot.map (fun n => (s.ctx n).f.composition)

/-- Books the end of a job on its instance: measured engine time replaces the estimate in the VI's deficit, the phase group's
time is counted, and Attend's tile time and the Codec's time are metered (R21, R81, R82, R84). -/
def State.chargeEnd (s : State) (c : Cmd) : State :=
  if !c.resident then s else
    let measured := min (s.now - c.since) (Config.engineMeasured c.since)
    let g := (s.queue (c.vi, c.cls, c.q)).phaseG
    let s1 := s.updInst c.cls c.inst (fun i => { i with
      deficits := Tbl.upd i.deficits c.vi (fun d => d + c.estimate - measured)
      usedG := if g then i.usedG + measured else i.usedG, usedP := if g then i.usedP else i.usedP + measured })
    let s2 := s1.account c.vi c.cls 3 measured
    (s.compOf c).elim s2 (fun n => s2.updComp n (fun p => { p with meterOpen := { p.meterOpen with
      attendTime := p.meterOpen.attendTime + (if c.cls = 2 then measured * s.tilesOf c.inst else 0)
      codecTime := p.meterOpen.codecTime + (if c.cls = 3 then measured else 0) } }))

/-- The completion step of a command whose outcome has reached the hub: its effects, the record, the notification, the
counters, the trigger, the chain and the sample, in that order (R76, R78, R84, R315, R468). A ring no longer covered puts
the queue in ERROR and takes no record (R66); a command the Rongar issues itself has no queue and no record (R58). -/
def State.completeCmd (s : State) (cid : Nat) : State :=
  match Tbl.get s.work.cmds cid with
  | none => s
  | some c =>
    match c.outcome with
    | none => s
    | some (st, result) =>
      let u := unitOf c.cls c.inst
      let k : QKey := (c.vi, c.cls, c.q)
      let q := s.queue k
      let entries := 2 ^ q.ringLog2
      let addr := q.cplBase + q.cplTail % entries * 32
      let s1 := c.effects.foldl State.applyPost s
      let covered := q.st == .disabled || s1.covers c.vi addr 32 (rRing + rWr)
      let s2 := if q.st = .disabled then s1 else if covered then (s1.wrWords addr (cplRecord c st result s1.now q.cplTail entries)).setQueue k { q with cplTail := u32 (q.cplTail + 1) }
        else s1.queueError k 3
      let s3 := if covered && fld c.words 0 29 29 == 1 && q.notifyAddr != 0 then s2.notify c.vi q.notifyAddr (q.cplTail + 1) else s2
      let c' := { c with engineNs := c.engineNs + (if c.resident then min (s.now - c.since) (Config.engineMeasured c.since) else 0) }
      let s4 := s3.chargeEnd c
      let s5 := s4.account c.vi c.cls 0 1
      let s6 := if st.isDone then s5 else s5.account c.vi c.cls 1 1
      let s7 := if st = .deadlineMissed then s6.account c.vi c.cls 6 1 else s6
      let s8 := if c.dispT.isNone then s7.account c.vi c.cls 2 (s.now - c.acceptT) else s7
      let w := if c.dispT.isSome then s8.settle u else s8
      let work := Tbl.at (w.unit u).pend cid 0
      let t := w.tally { c with events := if c.dispT.isNone then c.events else Tbl.set c.events (if st.isDone then 1 else 2) work }
      let s9 : State := { t with work := { t.work with cmds := Tbl.del t.work.cmds cid } }
      let s10 := if c.dispT.isSome then s9.closeJob u cid c.vi st.isDone else s9
      let s11 := match counterRise c st with
        | some n => s10.setCounter c.vi n (s10.counter c.vi n + 1)
        | none => s10
      let s11 := (s11.unblocked s k).freeWaiting
      let s12 := if fld c.words 0 30 30 = 1 ∧ c.fmt = 2 ∧ !st.isDone then s11.chainAbort k c.index else s11
      c.samplers.foldl (fun t v => t.sample v c' st) s12

/-- Gives a command its outcome. -/
def State.finish (s : State) (cid : Nat) (st : Status) (result : Nat) : State :=
  s.updCmd cid (fun c => { c with outcome := some (st, result) })

/-- Gives a command its outcome and takes its completion step. -/
def State.finishNow (s : State) (cid : Nat) (st : Status) (result : Nat) : State := (s.finish cid st result).completeCmd cid

/-- The running command of a class and opcode, if the number names one. -/
def State.running (s : State) (cid cls opcode : Nat) : Option Cmd :=
  (Tbl.get s.work.cmds cid).filter (fun c => c.st == .running && c.outcome.isNone && c.cls == cls && fld c.op 0 43 36 == opcode)

/-- Tallies a job's events and the figures of its sample record: lines read and written, and the two details (R462, R469). -/
def State.note (s : State) (cid : Nat) (evs : List (Nat × Nat)) (lr lw a b : Nat) : State :=
  s.updCmd cid (fun c => { c with events := evs.foldl (fun t e => Tbl.set t e.1 (Tbl.at t e.1 0 + e.2)) c.events
                                  linesRead := lr, linesWritten := lw, detailA := a, detailB := b })

end Sys2Proof.Machine
end

