-- ==== Sys2Proof/Machine/ReqOps.lean ====
section
/-! DEFINITION. Answers of request packets at their source, the lines a Mover job moves by packets, messages at both ends, and
window changes (R287, R288, R298 to R313). -/

namespace Sys2Proof.Machine
open Sys2Proof

/-! ### Checks before dispatch (R65, R68) -/

/-- Why a command may not be performed: its status, and for a violation the address and the reason of R408. -/
abbrev Bad := Status × Nat × Nat

/-- The first of a list of conditions that holds, with what it means. -/
def firstOf (l : List (Bool × Bad)) : Option Bad := (l.find? (fun e => e.1)).map (fun e => e.2)

/-- A field out of its range or reserved and not zero (R10). -/
def badField : Bad := (.invalidField, 0, 0)

/-- A region that does not cover a range (R65). -/
def badRegion (a : Nat) : Bad := (.violation, a, 1)

/-! ### Windows (R302 to R304) -/

/-- The next generation: 0xFFFF is followed by 0x0001 (R302). -/
def nextGen (g : Nat) : Nat := if 0xFFFF ≤ g then 1 else g + 1

/-- Whether a window's generation may rise now: at most once every 5 µs (R304). -/
def Window.mayRise (w : Window) (now : Nat) : Bool := (w.genAt.map (fun t => decide (t + 5000 ≤ now))).getD true

/-- One change of a window; the generation rises with it where R302 says so. -/
def Window.change (w : Window) (now : Nat) : WinHeld → Window
  | .revoke => if w.st = .opened then { w with st := .draining, gen := nextGen w.gen, genAt := some now } else w
  | .close =>
    match w.st with
    | .opened => { w with st := .draining, gen := nextGen w.gen, genAt := some now, closing := true }
    | .draining => { w with closing := true }
    | .revoked => { w with st := .closed }
    | .closed => w
  | .replace e =>
    if w.st = .draining then w
    else { w with st := .opened, e := e, gen := nextGen w.gen, genAt := some now, refusedGen := if w.st = .closed then 0 else w.refusedGen,
                  admittedOld := if w.st = .closed then 0 else w.admitted, closing := false }

/-- Whether a change would raise the generation (R302). -/
def Window.raises (w : Window) : WinHeld → Bool
  | .replace _ => w.st != .draining
  | _ => w.st == .opened

/-- Applies a change of a window, or holds it until the generation may rise; changes keep their order (R304). -/
def State.changeWindow (s : State) (n : Nat) (c : WinHeld) : State :=
  s.updWindow n (fun w => if !w.held.isEmpty || (w.raises c && !w.mayRise s.now) then { w with held := w.held ++ [c] } else w.change s.now c)

/-- A request admitted through a window has been performed (R301). -/
def State.performedVia (s : State) (p : Packet) : State :=
  if p.winId = 0xFFF then s else
    s.updWindow p.winId (fun w => { w with
      admitted := w.admitted - 1, admittedOld := if p.winGen = w.gen then w.admittedOld else w.admittedOld - 1 })

/-! ### Re-sends (R287, R288, R298) -/

/-- The payload limit of the paths in service to a node (R287); a path is judged by its first hop. -/
def State.pathLimit (s : State) (dst : Nat) : Nat :=
  (s.paths dst).foldl (fun m x =>
    match s.egress dst x with
    | some q =>
      let y := s.port q
      if y.cfg.mode = 2 then min m ((y.partners.foldl (fun k e => min k e.2.mtu) y.cfg.mtu - 112) / 64 * 64) else m
    | none => m) 4096

/-- The path on which a request is sent again: the next slot that names a different path; with every path marked down, the next
usable path in slot order (R298). -/
def State.nextPath (s : State) (p : Packet) : Option Nat :=
  let slot := if isLine p.ty && s.slotPath p.dst (lineSlot p.addr) == some p.path then lineSlot p.addr else p.path
  let order := (List.range 16).map (fun i => (slot + 1 + i) % 16)
  match order.findSome? (fun n => (s.slotPath p.dst n).filter (fun x => x != p.path)) with
  | some x => some x
  | none => order.find? (s.pathUsable p.dst)

/-- Sends an outstanding request again, with its tag, on a path (R298). -/
def State.resendOn (s : State) (key tag path : Nat) : State :=
  match Tbl.get s.fab.out (key, tag) with
  | none => s
  | some o =>
    let q := ({ o.pkt with path := path } : Packet).sealed
    ({ s with fab := { s.fab with out := Tbl.set s.fab.out (key, tag) { o with pkt := q, lastSent := s.now, answered := false } } } : State).toPort q

/-- Marks a path to a destination down and sends again, on the paths now in service, the requests that were on it (R297, R298). -/
def State.markDown (s : State) (dst path : Nat) (but : Nat) : State :=
  let s1 := s.updPeer dst (fun x => { x with down := if x.down.contains path then x.down else x.down ++ [path] })
  let onIt := fun (p : Packet) => !p.resp && p.src == s.node && p.dst == dst && p.path == path
  let again := (s.fab.out.filter (fun o => o.1.1 == dst && o.1.2 != but && o.2.pkt.path == path && !o.2.answered)).map (fun o => o.2.pkt)
  let s2 : State := { s1 with lnk := { s1.lnk with queue := s1.lnk.queue.filter (fun q => !onIt q.pkt) } }
  (pathWatch s s2).respray again

/-! ### Message control at the sender (R310, R311) -/

/-- Ends a SEND: its outcome with the CRC of its bytes; on a failure the message is sent no further (R308, R310). -/
def State.endSend (s : State) (m : Nat) (st : Status) : State :=
  match Tbl.get s.fab.msgs m with
  | none => s
  | some x =>
    let s1 : State := { s with fab := { s.fab with
      msgs := Tbl.del s.fab.msgs m
      out := if st = .ok then s.fab.out else s.fab.out.filter (fun o => o.2.purpose != .message m) } }
    s1.finish x.cid st x.crc

/-- MSG_CTRL at the sender: "done" compares the check values, "failed" ends the SEND with the same status (R311, R312). -/
def State.applyCtrl (s : State) (src m kind : Nat) (st : Option Status) (crc : Nat) : State :=
  match Tbl.get s.fab.msgs m with
  | none => s.discard
  | some x =>
    if x.dst ≠ src then s.discard
    else if kind = 1 then s.endSend m (if crc = x.crc then .ok else .msgCheck)
    else s.endSend m (st.getD .msgTimeout)

/-- The payload of MSG_CTRL: kind and status, `msg_crc`, bytes placed (R311; log 12). -/
def ctrlWords (kind : Nat) (st : Status) (crc placed : Nat) : List Nat :=
  [mkWord [(56, 8, kind), (0, 16, st.code)], u64 crc, u64 placed, 0, 0, 0, 0, 0]

/-- Sends MSG_CTRL to the sender of a message (R311). -/
def State.sendCtrl (s : State) (r : Reorder) (src m kind : Nat) (st : Status) (crc : Nat) : State :=
  if src = s.node then s.applyCtrl src m kind (some st) crc
  else
    let p : Packet := { ty := .msgCtrl, resp := true, dst := src, src := s.node, srcVi := r.srcVi, srcEp := r.srcEp, msgId := m
                        status := st.code, payloadLen := 64, payload := bytesOfWords (ctrlWords kind st crc r.tally) }
    let (path, s1) := s.pickPath p
    s1.emit ({ p with path := path.getD 0 } : Packet).sealed

/-! ### Messages at the destination (R310 to R313) -/

/-- The info line of a message (R311). -/
def infoLine (r : Reorder) (src m crc now : Nat) : List Nat :=
  [mkWord [(52, 12, src), (46, 6, r.srcEp), (38, 8, r.srcVi), (26, 12, r.winId)], mkWord [(32, 32, r.msgTag), (0, 32, m)],
   mkWord [(39, 25, r.msgLen), (14, 25, r.tally)], u64 crc, u64 r.firstT, u64 now, 0, 0]

/-- Ends a message at its destination: the info line, the RECV_POST completion with its counter rise, and MSG_CTRL, in that
order (R311, R312). -/
def State.endMessage (s : State) (src m : Nat) (r : Reorder) (st : Status) : State :=
  let crc := if st = .ok then r.crc else 0
  let s1 := s.wrWords r.buf.info (infoLine r src m crc s.now)
  let s2 := (s1.finishNow r.buf.cid st r.tally).bookMove qBuffers r.vi 1 2 1
  s2.sendCtrl r src m (if st = .ok then 1 else 2) st crc

/-- A message fails: it ends, and its entry becomes a tombstone for max(2 × `msg_timeout`, 20 ms) (R312). -/
def State.failMessage (s : State) (src m : Nat) (r : Reorder) (st : Status) : State :=
  let s1 := s.endMessage src m r st
  let t := { r with tomb := some (st, s.now + max (2 * s.fab.msgTimeout) 20000000) }
  let s2 : State := { s1 with fab := { s1.fab with reorder := Tbl.set s1.fab.reorder (src, m) t } }
  if st = .msgTimeout then s2.raise .msgTimeout s.hubDie 0 [src, m, r.vi, r.list, r.msgLen, r.tally] [r.vi] else s2

/-- Places a packet of a claimed message and completes the message when its tally is whole (R311). -/
def State.placePacket (s : State) (p : Packet) (r : Reorder) : Status × State :=
  let off := bits p.addr 26 8 * 64
  if r.msgLen < off + p.payloadLen then (.invalidField, s) else
    let s1 := s.store (r.buf.addr + off) p.payload
    let part := crcFrom (crc64 p.payload) (List.replicate (r.msgLen - off - p.payloadLen) 0#8)
    let r' := { r with tally := r.tally + p.payloadLen, crc := r.crc ^^^ part }
    if r'.msgLen ≤ r'.tally then
      let s2 : State := { s1 with fab := { s1.fab with reorder := Tbl.del s1.fab.reorder (p.src, p.msgId) } }
      (.ok, s2.endMessage p.src p.msgId r' .ok)
    else (.ok, { s1 with fab := { s1.fab with reorder := Tbl.set s1.fab.reorder (p.src, p.msgId) r' } })

/-- Claims the oldest buffer of the named list for a message, and places its first packet (R310). -/
def State.claimBuffer (s : State) (p : Packet) : Status × State :=
  let vi := bits p.addr 63 56
  let list := bits p.addr 55 52
  let len := bits p.addr 51 27
  match Tbl.at s.fab.lists (vi, list) [] with
  | [] => (.retryNoBuffer, s)
  | b :: bs =>
    if 16384 ≤ s.fab.reorder.length then (.retryNoBuffer, s)
    else if b.len < len then (.msgTooLong, s)
    else if len = 0 ∨ len < bits p.addr 26 8 * 64 + p.payloadLen then (.invalidField, s)
    else
      let r : Reorder := { vi := vi, list := list, buf := b, msgLen := len, msgTag := p.operand % 2 ^ 32, srcVi := p.srcVi, srcEp := p.srcEp,
                           winId := p.winId, firstT := s.now }
      let s1 : State := { s with fab := { s.fab with
        lists := Tbl.set s.fab.lists (vi, list) bs, reorder := Tbl.set s.fab.reorder (p.src, p.msgId) r } }
      (s1.bookMove qBuffers vi 0 1 1).placePacket p r

/-- A SEND_DATA packet whose rights have been decided: `fault` is what the window check found (R301, R310 to R312). -/
def State.arriveMsg (s : State) (p : Packet) (fault : Option (Status × Nat × Nat)) : Status × State :=
  match Tbl.get s.fab.reorder (p.src, p.msgId) with
  | some r =>
    match r.tomb with
    | some (st, _) => (st, s)
    | none =>
      match fault with
      | some (st, kind, reason) =>
        if st = .windowRevoked then
          (st, (s.failMessage p.src p.msgId r st).updWindow p.winId (fun w => { w with refusedGen := sat 0xFFFFFFFF (w.refusedGen + 1) }))
        else (st, s.violate p.srcVi p.src p.srcEp p.addr kind p.ty.code reason)
      | none => s.placePacket p r
  | none =>
    match fault with
    | some (st, kind, reason) =>
      if st = .windowRevoked then (st, s.updWindow p.winId (fun w => { w with refusedGen := sat 0xFFFFFFFF (w.refusedGen + 1) }))
      else (st, s.violate p.srcVi p.src p.srcEp p.addr kind p.ty.code reason)
    | none => s.claimBuffer p

/-! ### Answers at the source (R290, R298, R306, R310) -/

/-- A Mover job's failure: it issues no more packets (R306). -/
def State.moveFail (s : State) (cid : Nat) (st : Status) : State :=
  { s with fab := { s.fab with jobs := Tbl.upd s.fab.jobs cid (fun j => { j with fail := j.fail.orElse (fun _ => some st) }) } }

/-- Ends a Mover job once no packet of it is outstanding and it has failed or issued every line (R294, R306). -/
def State.moveEnd (s : State) (cid total : Nat) : State :=
  match Tbl.get s.fab.jobs cid with
  | none => s
  | some j =>
    if j.pend ≠ 0 ∨ (j.fail.isNone ∧ j.next < total) then s else
      let bad := j.fail.isSome
      let s1 : State := { s with fab := { s.fab with
        jobs := Tbl.del s.fab.jobs cid
        flags := Tbl.mapVals s.fab.flags (fun _ h => if h.moves.contains cid then { h with failed := h.failed || bad } else h) } }
      s1.finish cid (j.fail.getD .ok) j.lines

/-- Whether an end of a move is reached by packets: another node, or an endpoint's aperture. -/
def State.byPacket (s : State) (a : Nat) : Bool := addrNode a != s.node || (apertureOf a).isSome

/-- A bulk packet of a Mover job (R305). -/
def movePacket (c : Cmd) (ty : PktType) (a win gen n : Nat) (data : List Byte) : Packet :=
  { ty := ty, tc := if c.fmt = 1 then 0 else fld c.op 0 28 26, dst := addrNode a, srcVi := c.vi, srcEp := 63, addr := a, winId := win,
    winGen := gen, payloadLen := n, payload := data }

/-- Sends a packet of a Mover job; toward an unreachable destination it fails at once (R299). -/
def State.moveSend (s : State) (cid : Nat) (p : Packet) (off lines : Nat) (writes : Bool) : State :=
  let key := s.reqKey p
  if (if 4096 ≤ key then (s.peer key).dead else s.unreachable key) then (s.deadFail key p false).moveFail cid .targetDead
  else
    let s1 : State := { s with fab := { s.fab with jobs := Tbl.upd s.fab.jobs cid (fun j => { j with pend := j.pend + 1 }) } }
    s1.sendReq p (.mover cid off lines writes) none

/-- Gives a chunk's bytes to the destination of a move: a WRITE, or this node's memory (R306). -/
def State.moveWrite (s : State) (cid : Nat) (c : Cmd) (off lines : Nat) (data : List Byte) : State :=
  let w := c.op
  let a := word w 3 + 64 * off
  if s.byPacket (word w 3) then s.moveSend cid (movePacket c .write a (fld w 4 27 16) (fld w 5 47 32) (64 * lines) data) off lines true
  else if s.lineLost a false then s.moveFail cid .tierFailed
  else
    let s1 := s.store a data
    { s1 with fab := { s1.fab with jobs := Tbl.upd s1.fab.jobs cid (fun j => { j with lines := j.lines + lines }) } }

/-- Starts a chunk of a move: a READ of its source, or this node's own lines (R306). -/
def State.moveChunk (s : State) (cid : Nat) (c : Cmd) (off lines : Nat) : State :=
  let w := c.op
  let a := word w 2 + 64 * off
  if s.byPacket (word w 2) then s.moveSend cid (movePacket c .read a (fld w 4 39 28) (fld w 5 63 48) (64 * lines) []) off lines false
  else match s.readFault a (64 * lines) with
    | some st => (if st = .memUncorrectable then s.dramError ((s.firstBad a (64 * lines)).getD a) else s).moveFail cid st
    | none => s.moveWrite cid c off lines (s.rd a (64 * lines))

/-- Lines of a move's chunks: the packet limit of the ends that lie on other nodes (R287). -/
def State.chunkLines (s : State) (c : Cmd) : Nat :=
  let lim := fun a => if addrNode a = s.node then 4096 else s.pathLimit (addrNode a)
  max 1 (min (lim (word c.op 2)) (lim (word c.op 3)) / 64)

/-- Whether a node's outstanding requests leave room for a chunk (R291). -/
def State.moveRoom (s : State) (c : Cmd) : Bool :=
  [word c.op 2, word c.op 3].all (fun a => !s.byPacket a || decide (s.outstandingTo (s.reqKey (movePacket c .read a 0 0 64 [])) < 4095))

/-- Issues chunks of a Mover job while it has lines, no failure, and room (R291, R306). -/
def movePump (cid : Nat) (c : Cmd) : Nat → State → State
  | 0, s => s
  | n + 1, s =>
    match Tbl.get s.fab.jobs cid with
    | none => s
    | some j =>
      let total := fld c.op 4 63 40
      if j.fail.isSome || decide (total ≤ j.next) || !s.moveRoom c then s else
        let k := min (s.chunkLines c) (total - j.next)
        let s1 : State := { s with fab := { s.fab with jobs := Tbl.set s.fab.jobs cid { j with next := j.next + k } } }
        movePump cid c n (s1.moveChunk cid c j.next k)

/-- Goes on with a Mover job, and ends it when nothing is left. -/
def State.moveOn (s : State) (cid : Nat) : State :=
  match Tbl.get s.work.cmds cid with
  | none => s
  | some c =>
    let total := fld c.op 4 63 40
    (movePump cid c total s).moveEnd cid total

/-- The answer of a packet of a Mover job (R306). -/
def State.moveAnswer (s : State) (cid off lines : Nat) (writes : Bool) (st : Status) (data : List Byte) : State :=
  match Tbl.get s.work.cmds cid with
  | none => s
  | some c =>
    let s1 : State := { s with fab := { s.fab with jobs := Tbl.upd s.fab.jobs cid (fun j => { j with
      pend := j.pend - 1, lines := if writes ∧ st = .ok then j.lines + lines else j.lines }) } }
    let s2 := if st ≠ .ok then s1.moveFail cid st
      else if writes || ((Tbl.get s1.fab.jobs cid).bind (fun j => j.fail)).isSome then s1
      else s1.moveWrite cid c off lines data
    s2.moveOn cid

/-- An acknowledgement of a message's packet (R310). -/
def State.messageAnswer (s : State) (m : Nat) (st : Status) : State :=
  if st = .ok then
    { s with fab := { s.fab with msgs := Tbl.upd s.fab.msgs m (fun x => { x with unacked := x.unacked - 1, ackedAt := s.now }) } }
  else s.endSend m st

/-- Answers the request that an outstanding packet carries: its endpoint's, or one of another node to an aperture here, which is
then performed (R290, R291, R301). -/
def State.answerOrig (s : State) (q : Packet) (st : Status) (data : List Byte) (hit : Bool) : State :=
  let fill := if st = .ok then data else List.replicate (responseLen q) 0xFF#8
  if q.dst ≠ s.node then s.answerPkt q st fill hit
  else
    let s1 := s.performedVia q
    let s2 := if st = .ok then s1.record q (if isAtomic q.ty then some (q.answer st fill hit) else none) else s1
    s2.answerPkt q st fill hit

/-- What the hub does when a packet of its own is answered: a probe of a straggler that completes ends it (R435); a tail-line flag made visible
delivers the record's tokens (R366). -/
def State.hubDone (s : State) (what key : Nat) (st : Status) : State :=
  if what = 6 then
    (if st = .targetDead then s else { s with prot := { s.prot with probes := Tbl.del s.prot.probes (key / 4096, key % 4096) } })
  else
  match Tbl.get s.str.flags key with
  | some (rid, n, comp) =>
    if what ≠ 3 then s else
      let s1 : State := { s with str := { s.str with flags := Tbl.del s.str.flags key } }
      if st ≠ .ok then s1
      else (s1.bookMove qTokens rid 1 2 n).updComp comp (fun c => { c with meterOpen := { c.meterOpen with tokensOut := c.meterOpen.tokensOut + n } })
  | none => s

/-- An outstanding request is over: it leaves the table, the flags that waited for it see its outcome, and what it served goes on
(R290, R294, R299). -/
def State.completeReq (s : State) (key tag : Nat) (st : Status) (data : List Byte) (hit : Bool) : State :=
  match Tbl.get s.fab.out (key, tag) with
  | none => s
  | some o =>
    let s1 : State := { s with fab := { s.fab with
      out := Tbl.del s.fab.out (key, tag)
      flags := Tbl.mapVals s.fab.flags (fun _ h =>
        if h.pkt.dst = key ∧ h.waits.contains tag then { h with waits := h.waits.erase tag, failed := h.failed || !st.isDone } else h) } }
    match o.purpose with
    | .endpoint => (o.orig.map (fun q => s1.answerOrig q st data hit)).getD s1
    | .mover cid off lines writes => s1.moveAnswer cid off lines writes st data
    | .message m => s1.messageAnswer m st
    | .probe =>
      if st = .targetDead then s1 else
        pathWatch s1 ((s1.heard key).updPeer key (fun x => { x with down := x.down.erase o.pkt.path }))
    | .hub what key => s1.hubDone what key st

/-- A status answers an outstanding request: a failed check sends it again up to three times, a missing buffer waits, anything
else ends it (R288, R310). -/
def State.respondReq (s : State) (key tag : Nat) (st : Status) (data : List Byte) (hit : Bool) : State :=
  match Tbl.get s.fab.out (key, tag) with
  | none => s
  | some o =>
    if st = .packetCheck ∧ o.crcFails < 3 then
      let s1 : State := { s with fab := { s.fab with out := Tbl.set s.fab.out (key, tag) { o with crcFails := o.crcFails + 1 } } }
      match s1.nextPath o.pkt with
      | some x => s1.resendOn key tag x
      | none => s1
    else if st = .retryNoBuffer ∧ o.pkt.ty = .sendData then
      let o' := { o with rnrFirst := o.rnrFirst.orElse (fun _ => some s.now), rnrLast := s.now, answered := true }
      { s with fab := { s.fab with out := Tbl.set s.fab.out (key, tag) o' } }
    else s.completeReq key tag st data hit

/-- Delivers a message packet of this node to this node (R292). -/
def State.localMsg (s : State) (tag : Nat) : State :=
  match Tbl.get s.fab.out (s.node, tag) with
  | none => s
  | some o =>
    let (st, s1) := s.arriveMsg o.pkt none
    s1.respondReq s.node tag st [] false

/-- Sends the packets of a message while it has bytes and the destination has room (R291, R309). -/
def sendPump (m : Nat) (c : Cmd) : Nat → State → State
  | 0, s => s
  | n + 1, s =>
    match Tbl.get s.fab.msgs m with
    | none => s
    | some x =>
      let w := c.op
      let len := fld w 4 31 7
      if len ≤ x.next ∨ 4096 ≤ s.outstandingTo x.dst then s else
        let k := min x.size (len - x.next)
        let data := s.rd (word w 2 + x.next) k
        let p : Packet := { ty := .sendData, tc := if c.fmt = 1 then 0 else fld c.op 0 28 26, dst := x.dst, src := s.node, srcVi := c.vi
                            srcEp := 63, addr := mkWord [(56, 8, fld w 3 51 44), (52, 4, fld w 3 43 40), (27, 25, len), (8, 19, x.next / 64)]
                            winId := fld w 3 39 28, winGen := fld w 3 27 12, operand := fld w 4 63 32, payloadLen := k, msgId := m, payload := data }
        let s1 : State := { s with fab := { s.fab with
          msgs := Tbl.set s.fab.msgs m { x with next := x.next + k, crc := crcFrom x.crc data, unacked := x.unacked + 1 } } }
        let tag := (s1.peer x.dst).nextTag
        let s2 := if x.dst = s.node then (s1.sendOn p none (.message m) none).localMsg tag else s1.sendReq p (.message m) none
        sendPump m c n s2

/-- Goes on with a message. -/
def State.sendOnward (s : State) (m : Nat) : State :=
  match (Tbl.get s.fab.msgs m).bind (fun x => Tbl.get s.work.cmds x.cid) with
  | none => s
  | some c => sendPump m c (fld c.op 4 31 7) s

end Sys2Proof.Machine
end

