-- ==== Sys2Proof/Machine/TierOps.lean ====
section
/-! DEFINITION. Quotas and capacities of the memory tiers as shared operations (R219 to R221, R233). -/

namespace Sys2Proof.Machine
open Sys2Proof

/-- The tier of an address space: 1 DRAM, 2 flash, 3 SRAM (R216, R282). -/
def tierOf (a : Nat) : Nat := addrSpace a

/-- Flash sectors of a range that are mapped. -/
def State.mappedIn (s : State) (a n : Nat) : Nat := ((sectorsOf a n).filter (fun x => Tbl.has s.tier.map x)).length

/-- What a slot is charged, by its descriptor: 256 D bytes, or its mapped sectors in flash (R220). -/
def State.slotCharge (s : State) (da : Nat) : Nat :=
  match s.arenaOf da with
  | none => 0
  | some a =>
    let size := 256 * a.headDim
    if a.tier = 2 then s.mappedIn (a.base + (da - a.descBase) / 64 * size) size else size

/-- What a new slot of a tier is charged for a representation and D (R220). -/
def newCharge (tier repr d : Nat) : Nat := if tier = 2 then repSectors repr d else 256 * d

/-- What a VI's regions on a tier are charged: their size, or the sectors mapped in them (R220). -/
def State.regionUse (s : State) (vi tier : Nat) : Nat :=
  (((s.vi vi).regions.filter (fun e => e.2.valid && e.2.owner == vi && tierOf e.2.base == tier)).map (fun e =>
    if tier = 2 then s.mappedIn e.2.base (e.2.limit + 1 - e.2.base) else e.2.limit + 1 - e.2.base)).sum

/-- DRAM that token rings and token logs take: a ring with its automaton, charged to its request's VI and composition, and a log's four bytes a
position in whole 4 KiB, charged to the composition (R351). -/
def State.tokenUse (s : State) (kind id : Nat) : Nat :=
  ((s.kv.reqs.filter (fun r => r.2.tokenRing != 0 && (if kind = 0 then r.2.ownerVi else r.2.composition) == id)).map (fun r =>
    let n := 64 + 8 * 2 ^ fld (s.rdWords r.2.tokenRing 1) 0 59 56
    let a := s.rdWords (r.2.tokenRing + n) 1
    n + 64 + 16 * fld a 0 63 48 + 8 * fld a 0 47 32)).sum +
  (if kind = 0 then 0 else ((s.str.bridges.filter (fun b => b.2.composition == id)).map (fun b => ceilDiv (4 * b.2.limit) 4096 * 4096)).sum)

/-- Bytes of DRAM an index takes: item table, side list, centroid table and vectors, projection matrix, and the vector arena where it lies in DRAM
(R369). -/
def Index.dramBytes (x : Index) : Nat :=
  32 * x.itemMax + (if x.wide then 128 else 64) * x.sideMax + (64 + 2 * x.dim) * x.nlist + 2 * x.dim * (if x.wide then 960 else 448) +
  (if addrSpace x.vecBase = 1 then x.itemMax * (2 * x.dim + 64) else 0)

/-- What the indexes of a composition are charged on a tier: a VI's own are in its regions' charge (R220, R369). -/
def State.indexUse (s : State) (id tier : Nat) : Nat :=
  ((s.srch.indexes.filter (fun e => e.2.composition == id)).map (fun e =>
    let x := e.2
    if tier = 1 then x.dramBytes
    else if tier = 2 then s.mappedIn x.segBase x.segBytes + (if addrSpace x.vecBase = 2 then s.mappedIn x.vecBase (x.itemMax * (2 * x.dim + 64)) else 0)
    else 0)).sum

/-- Use of a tier by a VI (kind 0) or a composition (kind 1) (R220). -/
def State.tierUse (s : State) (kind id tier : Nat) : Nat :=
  ((s.tier.owners.filter (fun e => (if kind = 0 then e.2.1 else e.2.2) == id && ((s.arenaOf e.1).map (fun a => a.tier)) == some tier)).map
    (fun e => s.slotCharge e.1)).sum + (if kind = 0 then s.regionUse id tier else s.indexUse id tier) + (if tier = 1 then s.tokenUse kind id else 0)

/-- Use in transit: slots claimed at a migration's destination (R220, R223). -/
def State.tierTransit (s : State) (kind id tier : Nat) : Nat :=
  ((s.tier.transit.filter (fun da => ((Tbl.get s.tier.owners da).map (fun o => (if kind = 0 then o.1 else o.2) == id)).getD false &&
    ((s.arenaOf da).map (fun a => a.tier)) == some tier)).map s.slotCharge).sum

/-- Whether a ceiling leaves room for a claim; without a ceiling there is no limit (R220; log 13). -/
def State.quotaRoom (s : State) (kind id tier n : Nat) : Bool :=
  match Tbl.get s.tier.ceilings (kind, id, tier) with
  | none => true
  | some c => decide (s.tierUse kind id tier + n ≤ c)

/-- Flash sectors that count as capacity: the physical sectors of the serving channels less over-provisioning, 1/8 unless set
(R220, R233). -/
def State.flashCapacity (s : State) : Nat :=
  ((s.tier.chans.filter (fun c => s.flashChanUp c.1 && !c.2.readOnly)).map (fun c => c.2.sectors)).sum * (256 - s.boot.flashOp) / 256

/-- Physical capacity of a tier: bytes, or sectors in flash. -/
def State.tierCapacity (s : State) (tier : Nat) : Nat :=
  if tier = 1 then ((s.pkg.dramUp.filter s.channelUp).map (fun c => s.dimmBytes c - s.setAside c)).sum
  else if tier = 2 then s.flashCapacity
  else s.sramBytes * ((List.range 2).filter (fun i => !s.isFenced i)).length

/-- Flash sectors mapped. -/
def State.flashUsed (s : State) : Nat := s.tier.map.length

/-- Why a claim fails: a quota, or a full flash tier (R221). -/
def State.claimFault (s : State) (vi comp tier n : Nat) : Option Status :=
  if !s.quotaRoom 0 vi tier n || !s.quotaRoom 1 comp tier n then some .tierQuota
  else if tier = 2 ∧ s.flashCapacity < s.flashUsed + n then some .refusedCapacity
  else none

/-- Charges a claimed slot to a VI and a composition (R220). -/
def State.chargeSlot (s : State) (da vi comp : Nat) : State := { s with tier := { s.tier with owners := Tbl.set s.tier.owners da (vi, comp) } }

/-- Claims a slot: charged, and booked from free to a state of the ledger (R144, R220, R448). -/
def State.claimSlot (s : State) (da vi comp book : Nat) : State := (s.chargeSlot da vi comp).bookSlot da 0 book

end Sys2Proof.Machine
end

