-- ==== Sys2Proof/Machine/ProtOps.lean ====
section
/-! DEFINITION. Protection as shared operations: where shards lie, Reed-Solomon arithmetic, parity slots, and protection writes with their
acknowledgements (R425 to R437). -/

namespace Sys2Proof.Machine
open Sys2Proof

/-! ### Placement (R425 to R428, R436) -/

/-- Data positions, parity positions and positions of a protection (R425). -/
def protShape (p : Protection) : Nat × Nat × Nat :=
  match p with
  | .none => (1, 0, 1)
  | .ec k m => (k, m, k + m)
  | .replica => (1, 1, 2)

/-- The stripe and data position of a block (R427). -/
def stripeOf (f : CtxFields) (p : Protection) (l h b : Nat) : Nat × Nat :=
  let lh := l * f.kvHeads + h
  match p with
  | .ec k _ => (b * ceilDiv (f.layers * f.kvHeads) (max 1 k) + lh / max 1 k, lh % max 1 k)
  | _ => (b * (f.layers * f.kvHeads) + lh, 0)

/-- The index of the member a position is placed on (R428). -/
def placeIdx (rid sigma i n : Nat) : Nat := (bits rid 35 0 % max 1 n + sigma + i) % max 1 n

/-- Members that serve the positions of a stripe once those in the down set are substituted; `none` for a position that stays missing
(R428, R436). -/
def placements (ms down : List Nat) (rid sigma p : Nat) : List (Option Nat) :=
  let n := ms.length
  let base := (List.range p).map (fun i => ms.getD (placeIdx rid sigma i n) 0)
  (List.range p).foldl (fun (acc : List (Option Nat)) i =>
    let m := base.getD i 0
    if n = 0 then acc ++ [none]
    else if !down.contains m then acc ++ [some m]
    else
      let j := placeIdx rid sigma i n
      let taken := acc.filterMap id ++ base
      acc ++ [((List.range n).map (fun t => ms.getD ((j + t + 1) % n) 0)).find? (fun x => !down.contains x && !taken.contains x)]) []

/-- The protection of a request's composition at its map epoch. -/
def State.mapOf (s : State) (r : Req) : CompMap := (s.comp r.composition).mapAt r.mapEpoch
/-- The member that serves a position of a stripe (R428, R436). -/
def State.served (s : State) (r : Req) (rid sigma i : Nat) : Option Nat :=
  let m := s.mapOf r
  ((placements m.cache (Tbl.at s.prot.down (r.composition, m.epoch) []) rid sigma (protShape m.protection).2.2).getD i none)


/-- The k, m and member list of a composition's protection at an epoch. -/
def State.compMap (s : State) (comp epoch : Nat) : CompMap := (s.comp comp).mapAt epoch
/-- The member that serves a position of a stripe of a request, by composition and epoch. -/
def State.servedAt (s : State) (m : CompMap) (comp rid sigma i : Nat) : Option Nat :=
  ((placements m.cache (Tbl.at s.prot.down (comp, m.epoch) []) rid sigma (protShape m.protection).2.2).getD i none)

/-- The composition of the request that owns a block. -/
def State.blockComp (s : State) (da : Nat) : Option Nat :=
  match s.req (s.desc da).req with
  | some r => some r.composition
  | none => (Tbl.get s.tier.owners da).map (·.2)

/-! ### Reed-Solomon over GF(2^8) (R431) -/

/-- The XOR of two runs of bytes, as long as the longer. -/
def xorPad : List Byte → List Byte → List Byte
  | [], b => b
  | a, [] => a
  | x :: a, y :: b => (x ^^^ y) :: xorPad a b

/-- P and Q of data shards by position (R431). -/
def parityP (ds : List (Nat × List Byte)) : List Byte := ds.foldl (fun a d => xorPad a d.2) []
/-- Q: the sum of α^j d_j. -/
def parityQ (ds : List (Nat × List Byte)) : List Byte := ds.foldl (fun a d => xorPad a (gfScale (gfPow 2 d.1) d.2)) []

/-- The data shards of a stripe from any k of its shards, absent ones being lost; none where fewer than k are given (R431). Shards are
padded to one length. -/
def rebuild (k len : Nat) (have_ : List (Nat × List Byte)) : Option (List (List Byte)) :=
  let have_ := have_.map (fun x => (x.1, padTo len x.2))
  let data := have_.filter (fun x => decide (x.1 < k))
  let lost := (List.range k).filter (fun i => !data.any (fun x => x.1 == i))
  let p := (have_.find? (fun x => x.1 == k)).map (fun x => xorPad x.2 (parityP data))
  let q := (have_.find? (fun x => x.1 == k + 1)).map (fun x => xorPad x.2 (parityQ data))
  let out := fun (new : List (Nat × List Byte)) => some ((List.range k).map (fun i =>
    (((data ++ new).find? (fun x => x.1 == i)).map (·.2)).getD []))
  match lost, p, q with
  | [], _, _ => out []
  | [x], some p, _ => out [(x, p)]
  | [x], none, some q => out [(x, gfScale (gfInv (gfPow 2 x)) q)]
  | [x, y], some p, some q =>
    let dy := gfScale (gfInv (gfPow 2 x ^^^ gfPow 2 y)) (xorPad (gfScale (gfPow 2 x) p) q)
    out [(x, xorPad p dy), (y, dy)]
  | _, _, _ => none

/-! ### Parity slots (R430) -/

/-- A parity descriptor's fields. -/
structure PDesc where
  slot : Nat := 0
  req : Nat := 0
  position : Nat := 0
  k : Nat := 0
  m2 : Bool := false
  dim : Nat := 0
  stripe : Nat := 0
  epoch : Nat := 0
  bytes : Nat := 0
  st : Nat := 0
  sidecar : Nat := 0
  crc : Nat := 0
deriving DecidableEq, Repr

/-- The words of a parity descriptor. -/
def PDesc.words (p : PDesc) : List Nat :=
  sealWords [u64 p.slot, mkWord [(16, 48, p.req), (11, 5, p.position), (6, 5, p.k), (5, 1, b2n p.m2), (2, 3, p.dim)],
    mkWord [(32, 32, p.stripe), (0, 32, p.epoch)], mkWord [(32, 32, p.bytes), (29, 3, p.st)], u64 p.sidecar, u64 p.crc, 0]
/-- A parity descriptor from its words. -/
def PDesc.ofWords (w : List Nat) : PDesc :=
  { slot := word w 0, req := fld w 1 63 16, position := fld w 1 15 11, k := fld w 1 10 6, m2 := fld w 1 5 5 == 1, dim := fld w 1 4 2, stripe := fld w 2 63 32
    epoch := fld w 2 31 0, bytes := fld w 3 63 32, st := fld w 3 31 29, sidecar := word w 4, crc := word w 5 }
/-- The parity descriptor at an address. -/
def State.pdesc (s : State) (da : Nat) : PDesc := PDesc.ofWords (s.rdWords da 8)

/-- A free slot of a parity arena for D. -/
def State.freeParity (s : State) (d : Nat) : Option Nat :=
  (s.kv.arenas.filter (fun a => a.parity && a.headDim == d)).findSome? (fun a =>
    ((List.range a.slots).map (fun i => a.descBase + 64 * i)).find? (fun da => (s.pdesc da).st == 0))

/-- The sidecar of k descriptors: words 1 to 6 of each, zeros where no shard exists, and the check value (R430). -/
def sidecarBytes (ds : List (List Nat)) : List Byte :=
  let es := ds.flatMap (fun w => bytesOfWords ((List.range 6).map (fun i => word w (i + 1))))
  let all := es ++ bytesOf 8 (crc64 es)
  padTo (ceilDiv all.length 64 * 64) all

/-- Stores parity bytes and a sidecar in a parity slot, VALID; where the sidecar lies is a free value (log 3). -/
def State.putParity (s : State) (da : Nat) (p : PDesc) (bytes : List Byte) (side : List Byte) : State :=
  let (v, s1) := s.draw
  let sc := if p.sidecar ≠ 0 then p.sidecar else mkAddr s.node 1 (bits v 45 12 * 4096)
  ((s1.store p.slot bytes).store sc side).wrWords da ({ p with sidecar := sc, bytes := bytes.length, st := 1, crc := crc64 bytes } : PDesc).words

/-- Claims a parity slot for a stripe and enters it in the shard map (R429, R430). -/
def State.claimParity (s : State) (rid stripe position k m epoch d comp : Nat) : Option (Nat × PDesc × State) :=
  (s.freeParity d).map (fun da =>
    let p : PDesc := { slot := (s.slotAddr da).getD 0, req := rid, position := position, k := k, m2 := m == 2, dim := dimCode d, stripe := stripe, epoch := epoch }
    let s1 := s.claimSlot da 0 comp 3
    (da, p, { s1 with prot := { s1.prot with shards := Tbl.set s1.prot.shards (rid, stripe) da } }))

/-! ### Protection writes (R432, R434, R437) -/

/-- The bytes a row feeds to `crc_a`, then those it feeds to `crc_b` (R99, R507). -/
def State.rowBytes (s : State) (d : Desc) (t : Nat) : List Byte :=
  s.slotBytes d.slot (rowA d.repr (dimOf d.dim) t ++ rowB d.repr (dimOf d.dim) t)

/-- The positions of a block's OPEN copies (R432). -/
def openPositions (p : Protection) (i : Nat) : List Nat :=
  match p with
  | .none => []
  | .ec k m => if m = 2 then [i, k] else [i]
  | .replica => [0, 1]

/-- Records a protection write and gives its number. -/
def State.addWrite (s : State) (w : ProtWrite) : State :=
  { s with prot := { s.prot with writes := Tbl.set s.prot.writes s.prot.nextWrite w, nextWrite := s.prot.nextWrite + 1 } }

/-- The message of a ROW_PUT of rows from `first` up to `n` of a block (R507). -/
def State.rowPutMsg (s : State) (rid l h b first n dst : Nat) (r : Req) : CtlMsg :=
  let d := s.desc (s.mapEntry r l h b)
  { dst := dst, tc := s.tra.classes.getD 2 4, code := 0x40, req := rid, epoch := r.holdEpoch, mapEpoch := r.mapEpoch, fields := [l, h, b, first, n - first]
    tail := (List.range (n - first)).flatMap (fun i => s.rowBytes d (first + i)) }

/-- Sends the newly committed rows of a block to its OPEN copies, with the check values it will have (R432). A position without a member stays
unprotected (R436). -/
def State.putRows (s : State) (cid rid l h b n : Nat) (r : Req) : State :=
  let m := s.mapOf r
  let da := s.mapEntry r l h b
  let d := s.desc da
  let (sigma, i) := stripeOf (s.geom r) m.protection l h b
  let ms := ((openPositions m.protection i).filterMap (fun p => s.served r rid sigma p)).dedup
  if ms.isEmpty then s else
    let dd := dimOf d.dim
    let ca := crcFrom d.crcA (s.stream d.slot (rowA d.repr dd) d.committed n)
    let cb := if d.repr = 1 then crcFrom d.crcB (s.stream d.slot (rowB d.repr dd) d.committed n) else 0
    let w : ProtWrite := { req := rid, composition := r.composition, mapEpoch := r.mapEpoch, kind := 1, awaited := ms, fields := [l, h, b, d.committed, n, ca, cb]
                           sentAt := s.now, cid := some cid }
    ms.foldl (fun t x => t.tell (t.rowPutMsg rid l h b d.committed n x r)) (s.addWrite w)

/-- Whether a command still waits for a protection write. -/
def State.protWaiting (s : State) (cid : Nat) : Bool := s.prot.writes.any (fun w => w.2.cid == some cid)

/-- The stripe and position of a descriptor that is a protected data shard here (R429). -/
def State.shardOf (s : State) (da : Nat) : Option (Nat × Nat × Nat) :=
  let d := s.desc da
  if d.stripe ≠ 0 && Tbl.get s.prot.shards (d.req, d.stripe) == some da then some (d.req, d.stripe, d.shard) else none

/-- The shard's bytes: the bytes in use from slot offset 0, padded to whole lines (R430). -/
def State.shardBytes (s : State) (d : Desc) : List Byte :=
  let n := inUse d.repr (dimOf d.dim)
  padTo (ceilDiv n 64 * 64) (s.rd d.slot n)

/-- Sends the parity deltas of a shard about to change, with its new sidecar entry, to the stripe's parity positions (R437); the message has no
code of its own (log 12). -/
def State.sendDeltas (s : State) (who : Nat × Nat) (cid : Option Nat) (da : Nat) (new : Desc) (bytes : List Byte) : State :=
  let s0 : State := { s with prot := { s.prot with sent := s.prot.sent ++ [who] } }
  match s.shardOf da, s.blockComp da with
  | some (rid, stripe, i), some comp =>
    let epoch := ((s.req rid).map (·.mapEpoch)).getD (s.comp comp).cur.epoch
    let m := s.compMap comp epoch
    match m.protection with
    | .ec k mm =>
      let diff := xorPad (s.shardBytes (s.desc da)) bytes
      let dsts := ((List.range mm).filterMap (fun q => (s.servedAt m comp rid (stripe - 1) (k + q)).map (fun n => (q, n))))
      if dsts.isEmpty then s0 else
        let w : ProtWrite := { req := rid, composition := comp, mapEpoch := epoch, kind := 3, awaited := dsts.map (·.2), fields := [stripe, i, who.1, who.2], data := diff, sentAt := s.now, cid := cid }
        let msg : Nat × Nat → CtlMsg := fun x => {
          dst := x.2, tc := 1, code := 0, req := rid, epoch := new.epoch, mapEpoch := epoch, fields := [stripe, k + x.1, i] ++ new.words
          tail := if x.1 = 0 then diff else gfScale (gfPow 2 i) diff }
        dsts.foldl (fun t x => t.tell (msg x)) (s0.addWrite w)
    | _ => s0
  | _, _ => s0

/-- Whether the deltas of a change have been sent and every one acknowledged. -/
def State.deltasDone (s : State) (who : Nat × Nat) : Bool :=
  s.prot.sent.contains who && !s.prot.writes.any (fun w => w.2.kind == 3 && w.2.fields.drop 2 == [who.1, who.2])

end Sys2Proof.Machine
end

