-- ==== Sys2Proof/Machine/KvCmds.lean ====
section
/-! DEFINITION. The codec's KV commands and MOVE_BLOCKS: writing rows, changing representations, copying blocks (R92 to R105, R111,
R192 to R194, R200, R207, R508). -/

namespace Sys2Proof.Machine
open Sys2Proof

/-! ### Blocks that hold a command back -/

/-- Whether a command must wait for a block it names: one CONVERTING by another command, one not yet local to a write, one LOST to a
write, or one a migration holds against writes (R103, R137, R223). -/
def State.blockHeld (s : State) (c : Cmd) : Bool :=
  (s.cmdBlocks c).any (fun da =>
    if addrNode da ≠ s.node then c.writesKv
    else ((s.desc da).st == dConverting && !c.conv.contains da && !(c.cls == 3 && fld c.op 0 43 36 == 2)) ||
      (c.writesKv && Tbl.has s.tier.migrations da) || (c.cls == 3 && fld c.op 0 43 36 == 1 && (s.desc da).st == dLost))

/-! ### ENCODE_KV (R104, R105, R192 to R194, R200, R221) -/

/-- The CURRENT version of a set at this round (R194). -/
def State.curVer (s : State) (ctx e : Nat) : Nat :=
  let x := s.cbSet ctx e
  if x.pend ∧ x.switchAt ≤ s.now then (x.slot x.nextSlot).1 else x.cur

/-- The blocks a run of positions touches: index, first row, row count. -/
def blockRuns (first n : Nat) : List (Nat × Nat × Nat) :=
  if n = 0 then [] else
  (List.range ((first + n - 1) / 64 + 1 - first / 64)).map (fun i =>
    let b := first / 64 + i
    let r := if i = 0 then first % 64 else 0
    (b, r, min (first + n) (64 * (b + 1)) - (64 * b + r)))

/-- Why a write of rows to a block is refused (R98, R104, R105). -/
def State.writeFault (s : State) (rid l h ep : Nat) (r : Req) (first : Bool) (run : Nat × Nat × Nat) : Option Bad :=
  let (b, r0, n) := run
  let da := if b < r.span then s.mapEntry r l h b else 0
  let d := s.desc da
  let here := da != 0
  let prev := if b = 0 then 0 else s.mapEntry r l h (b - 1)
  firstOf [
    (decide (r.limit < 64 * b + r0 + n), badField),
    (here && !s.descOk da, (.descCheck, da, 0)),
    (here && d.req != rid, (.blockNotOwned, 0, 0)),
    (here && decide (ep < d.epoch), (.staleEpoch, 0, 0)),
    (here && decide (r0 < d.committed), (.rowCommitted, 0, 0)),
    (decide ((if here then d.valid else 0) < r0), badField),
    (first && r0 == 0 && b != 0 && (prev == 0 || (s.desc prev).valid != 64), badField),
    (decide (r.committed + 64 < 64 * b + r0 + n), (.tentativeLimit, 0, 0))]

/-- The check of ENCODE_KV (R10, R65, R104, R105, R118, R192). -/
def State.encodeKvCheck (s : State) (c : Cmd) : Option Bad :=
  let w := c.op
  let n := fld w 4 31 19
  let l := fld w 5 63 54
  let h := fld w 5 53 46
  let ep := fld w 6 63 32
  (firstOf [
    (n == 0 || decide (4096 < n) || !allZero w [(4, 15, 0), (5, 45, 0), (6, 31, 0), (7, 31, 0)], badField),
    (word w 2 % 64 != 0 || word w 3 % 64 != 0, badField)]).orElse fun _ =>
  match s.req (fld w 1 47 0) with
  | none => some (.requestMoved, 0, 0)
  | some r =>
    let f := s.geom r
    let bytes := n * 2 * f.headDim
    (firstOf [
      (decide (f.layers ≤ l) || decide (f.kvHeads ≤ h), badField),
      (!s.covers c.vi (word w 2) bytes rRd, badRegion (word w 2)), (!s.covers c.vi (word w 3) bytes rRd, badRegion (word w 3)),
      (!s.coversComp c.vi r.composition, (.violation, 0, 3)),
      (ep != 0 && decide (ep < r.holdEpoch), (.staleEpoch, 0, 0)), (ep != 0 && decide (r.holdEpoch < ep), (.requestMoved, 0, 0))]).orElse fun _ =>
    ((blockRuns (fld w 4 63 32) n).mapIdx (fun i run => s.writeFault (fld w 1 47 0) l h r.holdEpoch r (i == 0) run)).findSome? id

/-- Claims a new block for a write: a DRAM slot on the die of R54, charged and booked tentative, its descriptor OPEN under a representation
and versions, its references taken, its map entry set (R54, R91, R105, R194, R210, R220). -/
def State.claimBlock (s : State) (rid l h b repr kv vv : Nat) (r : Req) : Status × State :=
  let d := (s.geom r).headDim
  match (s.dieFor l h).bind (fun die => s.freeSlot 1 die d) with
  | none => (.refusedCapacity, s)
  | some da =>
    match s.claimFault r.ownerVi r.composition 1 (newCharge 1 repr d) with
    | some st => (st, s)
    | none =>
      let desc : Desc := { slot := (s.slotAddr da).getD 0, req := rid, head := h, dim := dimCode d, base := 64 * b, layer := l, repr := repr
                           st := dOpen, kVer := kv, vVer := vv, epoch := r.holdEpoch, holder := s.node }
      let s1 := ((s.claimSlot da r.ownerVi r.composition 1).setDesc da desc).setMapEntry r l h b da
      (.ok, s1.descRefs da true)

/-- Claims the blocks a write needs that do not exist; at the first claim that fails those made are freed again. -/
def claimRuns (rid l h repr kv vv : Nat) (r : Req) : List (Nat × Nat × Nat) → Nat → State → Except Status (Nat × State)
  | [], n, s => .ok (n, s)
  | (b, _, _) :: rs, n, s =>
    if s.mapEntry r l h b ≠ 0 then claimRuns rid l h repr kv vv r rs n s
    else match s.claimBlock rid l h b repr kv vv r with
      | (.ok, s1) => claimRuns rid l h repr kv vv r rs (n + 1) s1
      | (st, _) => .error st

/-- One row's bytes in its slot, its statistics and the row it tees (R93, R94, R191, R193, R200). -/
structure RowOut where
  slot : List (Nat × List Byte) := []
  k : List (Nat × Nat) := []
  v : List (Nat × Nat) := []
  tee : List (Nat × List Byte) := []

/-- Statistics of encoding one row: rows, distortion in units of 2^-16 rounded down, saturated sub-vectors, clamped scales (R191). -/
def encStats (pol : CalibPolicy) (d : Nat) (tgt : List Dy) (c : Coded) (floor_ : Bool) : List (Nat × Nat) :=
  let n2 := r32 (norm2 tgt)
  let rel := if n2.m = 0 then dyZero else r32 (dyDiv ((decBF16 c.resid).getD dyZero) n2)
  let subs := (List.range (d / 8)).filter (fun j =>
    let t := (tgt.drop (8 * j)).take 8
    dyLt (dyMul (norm2 t) ⟨pol.satRatio, -16⟩) (dist2 t ((c.rec_.drop (8 * j)).take 8)))
  [(8, 1), (9, (dyFloor (dyMul rel (dyPow2 16))).toNat), (10, subs.length), (11, b2n floor_)]

/-- Encodes token t's K and V rows into a block's slot. -/
def State.rowOut (s : State) (ctx l h t repr : Nat) (kObj vObj : List Byte) (kx vx : List Byte) : RowOut :=
  let f := (s.ctx ctx).f
  let d := f.headDim
  let pol := s.calib f.composition
  let mu := (Tbl.get (s.ctx ctx).factors (l, h, 0))
  let la := (Tbl.get (s.ctx ctx).factors (l, h, 1))
  let xs := fun (b : List Byte) => (chunks 2 d b).map valOf
  let tee := fun (kv : Nat) (fs : Option (List Nat)) (x : List Byte) =>
    match fs with | some m => [(kv, (scaleRow m (xs x)).z.flatMap (fun z => bytesOf 2 (encBF16 z)))] | none => []
  if repr = 0 then
    { slot := [(t * 2 * d, kx), (128 * d + t * 2 * d, vx)], tee := tee 0 mu kx ++ tee 1 la vx }
  else
    let sk := scaleRow (mu.getD []) (xs kx)
    let sv := scaleRow (la.getD []) (xs vx)
    let tgt := fun (y : Scaled) => if repr = 1 then y.ex.map (fun c => (decE4M3 c).getD dyZero) else y.z
    let ck := encodeRow (kObj.drop 64) d (tgt sk)
    let cv := encodeRow (vObj.drop 64) d (tgt sv)
    let b8 := fun (l : List Nat) => l.map (BitVec.ofNat 8)
    { slot := [(t * (d / 8), b8 ck.codes), (8 * d + t * (d / 8), b8 cv.codes),
               (16 * d + t * (d / 4), scaleRecord d sk.scale sv.scale ck.sum cv.sum ck.resid cv.resid)] ++
              (if repr = 1 then [(32 * d + t * d, b8 sk.ex), (96 * d + t * d, b8 sv.ex)] else [])
      k := encStats pol d (tgt sk) ck sk.floor_, v := encStats pol d (tgt sv) cv sv.floor_
      tee := tee 0 mu kx ++ tee 1 la vx }

/-- Writes the rows of one run into its block; its counts are effects of the completion step. -/
def State.writeRun (s : State) (cid rid ctx l h kSrc vSrc first : Nat) (sample : Bool) (r : Req) (run : Nat × Nat × Nat) : State :=
  let (b, r0, n) := run
  let da := s.mapEntry r l h b
  let d := s.desc da
  let f := (s.ctx ctx).f
  let ek := f.entry l h 0
  let ev := f.entry l h 1
  let kObj := (s.verObj ctx ek d.kVer).getD []
  let vObj := (s.verObj ctx ev d.vVer).getD []
  let w := 2 * f.headDim
  let outs := (List.range n).map (fun i =>
    let p := 64 * b + r0 + i - first
    (r0 + i, s.rowOut ctx l h (r0 + i) d.repr kObj vObj (s.rd (kSrc + p * w) w) (s.rd (vSrc + p * w) w)))
  let s1 := outs.foldl (fun t o => o.2.slot.foldl (fun u x => u.store (d.slot + x.1) x.2) t) s
  let tees := if sample && 0 < (s.calib f.composition).reservoirRows then outs.flatMap (fun o => o.2.tee.map (fun x => ((da, o.1, x.1), x.2))) else []
  let s2 : State := { s1 with cb := { s1.cb with tees := s1.cb.tees.filter (fun t => !(t.1.1 == da && decide (r0 ≤ t.1.2.1))) ++ tees } }
  let posts := outs.flatMap (fun o => o.2.k.map (fun x => Post.stat ctx ek d.kVer x.1 x.2) ++ o.2.v.map (fun x => Post.stat ctx ev d.vVer x.1 x.2))
  s2.updCmd cid (fun c => { c with effects := c.effects ++ posts ++ [Post.rows rid l h b (r0 + n)] })

/-- ENCODE_KV runs: a row that is not finite, an unreadable source or a claim that fails writes nothing; else new blocks are claimed and
every row is scaled, encoded and placed (R192 to R194). `result` holds the rows and the blocks claimed. -/
def execEncodeKv (cid : Nat) (s : State) : Out :=
  .next (s.whenLive fun s =>
    match s.running cid 3 1 with
    | none => s
    | some c =>
      let w := c.op
      let rid := fld w 1 47 0
      match s.req rid with
      | none => s.finish cid .requestMoved 0
      | some r =>
        let n := fld w 4 31 19
        let first := fld w 4 63 32
        let l := fld w 5 63 54
        let h := fld w 5 53 46
        let ctx := r.ctxSlot
        let f := (s.ctx ctx).f
        let bytes := n * 2 * f.headDim
        let finite := fun a => (bf16s (n * f.headDim) (s.rd a bytes)).isSome
        match (s.readFault (word w 2) bytes).orElse (fun _ => s.readFault (word w 3) bytes) with
        | some st => s.finish cid st 0
        | none =>
          if !finite (word w 2) || !finite (word w 3) then s.finish cid .encodeInput 0
          else
            let kv := s.curVer ctx (f.entry l h 0)
            let vv := s.curVer ctx (f.entry l h 1)
            let want := if fld w 4 18 17 = 0 then r.kvRepr else fld w 4 18 17 - 1
            let coded := want != 0 && kv != 0 && vv != 0
            let runs := blockRuns first n
            match claimRuns rid l h (if coded then want else 0) (if coded then kv else 0) (if coded then vv else 0) r runs 0 s with
            | .error st => s.finish cid st 0
            | .ok (claimed, s1) =>
              let s2 := runs.foldl (fun t run => t.writeRun cid rid ctx l h (word w 2) (word w 3) first (fld w 4 16 16 == 0) r run) s1
              (s2.note cid [(0x0201, if coded then n * 2 * (f.headDim / 8) * 256 else 0), (0x0202, n)] (2 * bytes / 64)
                (n * inUse (if coded then want else 0) f.headDim / 4096) n 0).finish cid .ok (2 ^ 32 * n + claimed))

/-! ### Recoding one block (R100 to R103, R207, R225, R226) -/

/-- The E4M3 or BF16 value of an exact element, with its token's scale (R94, R101). -/
def State.bf16Row (s : State) (slot off sOff d : Nat) : List Byte :=
  let sc := (decBF16 (valOf (s.rd (slot + sOff) 2))).getD dyZero
  (s.rd (slot + off) d).flatMap (fun b => bytesOf 2 (encBF16 (dyMul sc ((decE4M3 b.toNat).getD dyZero))))

/-- The reconstruction of a token's codes under a set. -/
def State.recOf (s : State) (slot off d : Nat) (obj : List Byte) : List Dy :=
  ((s.rd (slot + off) (d / 8)).mapIdx (fun j b => centroid (obj.drop 64) j b.toNat)).flatten

/-- The residual of a code-only molt (R207): ((sqrt resid_old) + (sqrt dist))^2 rounded up. -/
def moltResid (old : Nat) (dist : Dy) : Nat :=
  let r := (decBF16 old).getD dyZero
  let x := dyAdd (dySqrt r) (dySqrt dist)
  encBF16 (dyRoundUp fBF16 (dyMul x x))

/-- One side (K at 0, V at 1) of a token re-encoded under another set: its codes with their offset, and its `code_sum` and `resid`
(R207). -/
def State.reside (s : State) (comp : Nat) (d : Desc) (dd t side : Nat) (old new : List Byte) : (Nat × List Byte) × Nat × Nat × List (Nat × Nat) :=
  let off := side * 8 * dd + t * (dd / 8)
  let rec_ := d.slot + 16 * dd + t * (dd / 4)
  let exact_ := (s.rd (d.slot + 32 * dd + side * 64 * dd + t * dd) dd).map (fun b => (decE4M3 b.toNat).getD dyZero)
  let tgt := if d.repr = 1 then exact_ else s.recOf d.slot off dd old
  let c := encodeRow (new.drop 64) dd tgt
  let oldResid := valOf (s.rd (rec_ + 12 + 2 * side) 2)
  let pol := s.calib comp
  ((off, c.codes.map (BitVec.ofNat 8)), c.sum, if d.repr = 1 then c.resid else moltResid oldResid c.exact_, encStats pol dd tgt c false)

/-- The slot bytes of a token recoded to a representation and versions (R101, R193, R207). -/
def State.recodeToken (s : State) (ctx da t toRepr : Nat) (kObj vObj oldK oldV : List Byte) (newK newV : Bool) : RowOut :=
  let d := s.desc da
  let dd := dimOf d.dim
  let rec_ := 16 * dd + t * (dd / 4)
  if d.repr = 0 then
    s.rowOut ctx d.layer d.head t toRepr kObj vObj (s.rd (d.slot + t * 2 * dd) (2 * dd)) (s.rd (d.slot + 128 * dd + t * 2 * dd) (2 * dd))
  else if toRepr = 0 then
    { slot := [(t * 2 * dd, s.bf16Row d.slot (32 * dd + t * dd) rec_ dd), (128 * dd + t * 2 * dd, s.bf16Row d.slot (96 * dd + t * dd) (rec_ + 2) dd)] }
  else
    let k := s.reside (s.ctx ctx).f.composition d dd t 0 oldK kObj
    let v := s.reside (s.ctx ctx).f.composition d dd t 1 oldV vObj
    { slot := (if newK then [k.1, (rec_ + 4, bytesOf 4 k.2.1), (rec_ + 12, bytesOf 2 k.2.2.1)] else []) ++
              (if newV then [v.1, (rec_ + 8, bytesOf 4 v.2.1), (rec_ + 14, bytesOf 2 v.2.2.1)] else [])
      k := if newK then k.2.2.2 else [], v := if newV then v.2.2.2 else [] }

/-- What recoding a block comes to: nothing to do, a status, or the effects of its completion step and whether slot bytes are
rewritten (R101 to R103, R210, R508). -/
inductive Recode where
  /-- Nothing to change. -/
  | same
  /-- The block stays as it was. -/
  | bad (st : Status)
  /-- Its completion effects. -/
  | go (rewrites : Bool) (posts : List Post)

/-- The check values of a slot's rows once a list of writes has been made. -/
def State.newCrcs (s : State) (d : Desc) (ws : List (Nat × List Byte)) : Nat × Nat :=
  let t := ws.foldl (fun (t : State) (x : Nat × List Byte) => t.wr (d.slot + x.1) x.2) s
  (t.crcA d d.committed, t.crcB d d.committed)

/-- The transition of one block to a representation under versions, as the effects of its completion step: the new slot bytes, descriptor,
references, statistics and flash sectors (R101, R103, R191, R207, R210, R226). -/
def State.recodePosts (s : State) (ctx da toRepr kv vv : Nat) : List Post :=
  let d := s.desc da
  let dd := dimOf d.dim
  let f := (s.ctx ctx).f
  let ek := f.entry d.layer d.head 0
  let ev := f.entry d.layer d.head 1
  let obj := fun e v => (s.verObj ctx e v).getD []
  let newK := kv != d.kVer
  let newV := vv != d.vVer
  let drop := d.repr == 1 && toRepr == 2 && !newK && !newV
  let keep := if d.st = dFull then 64 else d.valid
  let outs := if drop then [] else (List.range keep).map (fun t => s.recodeToken ctx da t toRepr (obj ek kv) (obj ev vv) (obj ek d.kVer) (obj ev d.vVer) newK newV)
  let ws := outs.flatMap (fun o => o.slot)
  let nd := { d with repr := toRepr, kVer := kv, vVer := vv, st := if d.committed = 64 then dFull else dOpen }
  let crcs := s.newCrcs nd ws
  let refs := fun e (old new : Nat) => (if new ≠ old ∧ new ≠ 0 then [Post.ref ctx e new true] else []) ++ (if new ≠ old ∧ old ≠ 0 then [Post.ref ctx e old false] else [])
  let molts := fun e (old new : Nat) => if new ≠ old ∧ old ≠ 0 ∧ new ≠ 0 then [Post.stat ctx e new 12 1, Post.stat ctx e old 13 1] else []
  ws.map (fun x => Post.write (d.slot + x.1) x.2) ++
    [Post.write da (bytesOfWords ({ nd with crcA := crcs.1, crcB := crcs.2 } : Desc).words), Post.fit d.slot toRepr dd] ++
    refs ek d.kVer kv ++ refs ev d.vVer vv ++ molts ek d.kVer kv ++ molts ev d.vVer vv ++
    outs.flatMap (fun o => o.k.map (fun x => Post.stat ctx ek kv x.1 x.2) ++ o.v.map (fun x => Post.stat ctx ev vv x.1 x.2))

/-- Users attached to a held request under its handle (R102, R111). -/
def State.sharedHeld (s : State) (rid : Nat) : Bool := s.kv.handles.any (fun h => h.2.req == rid && decide (0 < h.2.users))

/-- Whether an OPEN block's request may still grow: the node holds it and the directory state this node knows is not STOPPED or HELD. -/
def State.mayGrow (s : State) (rid : Nat) : Bool :=
  match s.entry rid with
  | some e => [DirState.prefill, .protected_, .leaping, .decoding].contains e.st
  | none => (s.req rid).isSome

/-- Decides one block of a recode (R101, R102, R207, R508); `molt` is the molt's own rule for code-only blocks. -/
def State.recodeOne (s : State) (cid da want : Nat) (toCurrent : Bool) (mine : Bool) : Recode :=
  let d := s.desc da
  if !s.descOk da then .bad .descCheck
  else if d.st = dLost then .bad .tierFailed
  else if d.st = dConverting ∧ !mine then .bad .retryBlockBusy
  else if d.st ≠ dFull ∧ d.st ≠ dConverting ∧ s.mayGrow d.req then .bad .blockOpen
  else if s.sharedHeld d.req then .bad .retryBlockBusy
  else
    let toRepr := if want = 3 then d.repr else want
    match s.ctxOf da with
    | none => .bad .codebookMissing
    | some ctx =>
      let f := (s.ctx ctx).f
      let ck := s.curVer ctx (f.entry d.layer d.head 0)
      let cv := s.curVer ctx (f.entry d.layer d.head 1)
      let current := toRepr != 0 && (toCurrent || d.repr == 0)
      let kv := if toRepr = 0 then 0 else if current then ck else d.kVer
      let vv := if toRepr = 0 then 0 else if current then cv else d.vVer
      let same := toRepr = d.repr
      if same ∧ (!toCurrent || toRepr == 0) then .bad .reprTransition
      else if (d.repr = 2 ∧ toRepr ≠ 2) then .bad .reprTransition
      else if current && (ck == 0 || cv == 0) then .bad .codebookMissing
      else if same ∧ kv = d.kVer ∧ vv = d.vVer then .same
      else match s.badPlane d with
        | some _ => .bad .planeCheck
        | none =>
          if s.blockNamed cid da && !(d.repr == 1 && toRepr == 2 && kv == d.kVer && vv == d.vVer) then .go true []
          else .go (!(d.repr == 1 && toRepr == 2 && kv == d.kVer && vv == d.vVer)) (s.recodePosts ctx da toRepr kv vv)

/-- The check of RECODE_BLOCKS (R65, R508). -/
def State.recodeBlocksCheck (s : State) (c : Cmd) : Option Bad :=
  let w := c.op
  let n := fld w 3 63 49
  let a := word w 2
  firstOf [
    (n == 0 || decide (16384 < n) || !allZero w [(3, 45, 0), (4, 63, 0), (5, 63, 0), (6, 63, 0), (7, 31, 0)], badField),
    (a % 64 != 0 || addrNode a != s.node, badField), (fld w 3 48 47 == 3 && fld w 3 46 46 == 0, badField),
    (!s.covers c.vi a (8 * n) rRd, badRegion a)]

/-- Decides the blocks of a recode in list order: the number changed, the first status that was not, and the state, in which the blocks to be
rewritten are CONVERTING and their effects wait for the completion step; `false` says that a block is still named by an earlier command
(R102, R103, R508). -/
def State.recodeList (s : State) (cid vi want : Nat) (toCurrent : Bool) (mine : List Nat) :
    List Nat → Nat → Option Status → Bool → List Post → List Nat → (Nat × Option Status × Bool × List Post × List Nat × State)
  | [], n, st, ready, posts, conv => (n, st, ready, posts, conv, s)
  | da :: rest, n, st, ready, posts, conv =>
    if !((s.blockComp da).map (s.coversComp vi)).getD (vi == 0) then
      (s.violate vi s.node 63 da 1 (0x300 + 2) 3).recodeList cid vi want toCurrent mine rest n (some (st.getD .violation)) ready posts conv
    else match s.recodeOne cid da want toCurrent (mine.contains da) with
      | .same => s.recodeList cid vi want toCurrent mine rest (n + 1) st ready posts conv
      | .bad e =>
        let s1 := if e = .descCheck then s.descFail da else if e = .planeCheck then s.planeFail da ((s.badPlane (s.desc da)).getD 1) else s
        s1.recodeList cid vi want toCurrent mine rest n (some (st.getD e)) ready posts conv
      | .go rewrites ps =>
        let s1 := if rewrites && (s.desc da).st != dConverting then s.setDesc da { s.desc da with st := dConverting } else s
        s1.recodeList cid vi want toCurrent mine rest (n + 1) st (ready && !ps.isEmpty) (posts ++ ps) (if rewrites then conv ++ [da] else conv)

/-- The parity deltas of the protected shards that a recode's effects will change (R437). -/
def State.recodeDeltas (s : State) (cid : Nat) (das : List Nat) (posts : List Post) : State :=
  let after := posts.foldl (fun (t : State) p => match p with | .write a bs => t.wr a bs | _ => t) s
  das.foldl (fun t da => t.sendDeltas (0, cid) (some cid) da (after.desc da) (after.shardBytes (after.desc da))) s

/-- RECODE_BLOCKS runs: its blocks are decided and set CONVERTING; once every command dispatched before that named one has completed and the
parity of protected shards has taken the change, the outcome is ready and the completion step makes the change (R101 to R103, R437, R508). -/
def execRecodeBlocks (cid : Nat) (s : State) : Out :=
  .next (s.whenLive fun s =>
    match s.running cid 3 2 with
    | none => s
    | some c =>
      let w := c.op
      let das := s.listed (word w 2) (fld w 3 63 49)
      let (n, st, ready, posts, conv, s1) := s.recodeList cid c.vi (fld w 3 48 47) (fld w 3 46 46 == 1) c.conv das 0 none true [] []
      let shards := conv.filter (fun da => (s1.shardOf da).isSome)
      if !ready then s1.updCmd cid (fun c => { c with conv := (c.conv ++ conv).dedup })
      else if !shards.isEmpty && !s1.prot.sent.contains (0, cid) then
        (s1.recodeDeltas cid shards posts).updCmd cid (fun c => { c with conv := (c.conv ++ conv).dedup })
      else if !shards.isEmpty && !s1.deltasDone (0, cid) then s1
      else ((s1.updCmd cid (fun c => { c with conv := [], effects := posts })).note cid [] 0 0 n 0).finish cid (st.getD .ok) n)

/-! ### MOVE_BLOCKS (R100, R111, R210, R221) -/

/-- Copies one block with its descriptor, counts and check values into a new slot owned by a request; the plane is verified first (R100,
R111). -/
def State.copyBlock (s : State) (rid : Nat) (r : Req) (src : Nat) : Status × State :=
  let d := s.desc src
  let dd := dimOf d.dim
  if addrNode src ≠ s.node then (.invalidField, s)
  else if !s.descOk src then (.descCheck, s.descFail src)
  else if d.st = dLost then (.tierFailed, s)
  else match s.badPlane d with
    | some p => (.planeCheck, s.planeFail src p)
    | none =>
      match (s.dieFor d.layer d.head).bind (fun die => s.freeSlot 1 die dd) with
      | none => (.refusedCapacity, s)
      | some da =>
        match s.claimFault r.ownerVi r.composition 1 (newCharge 1 d.repr dd) with
        | some st => (st, s)
        | none =>
          let slot := (s.slotAddr da).getD 0
          let nd : Desc := { d with slot := slot, req := rid, epoch := r.holdEpoch, holder := s.node, valid := d.committed, shard := 0, stripe := 0
                                    st := if d.committed = 64 then dFull else dOpen }
          let s1 := s.claimSlot da r.ownerVi r.composition nd.book
          let s2 := (s1.store slot (s.rd d.slot (inUse d.repr dd))).setDesc da nd
          (.ok, (s2.setMapEntry r d.layer d.head (d.base / 64) da).descRefs da true)

/-- Copies blocks until one fails. -/
def copyBlocks (rid : Nat) (r : Req) : List Nat → Nat → State → Nat × Option Status × State
  | [], n, s => (n, none, s)
  | da :: rest, n, s =>
    match s.copyBlock rid r da with
    | (.ok, s1) => copyBlocks rid r rest (n + 1) s1
    | (st, s1) => (n, some st, s1)

/-- The check of MOVE_BLOCKS: the request is held here and its composition covered. -/
def State.moveBlocksCheck (s : State) (c : Cmd) : Option Bad :=
  match s.req (fld c.op 1 47 0) with
  | none => some (.requestMoved, 0, 0)
  | some r => firstOf [(!s.coversComp c.vi r.composition, (.violation, 0, 3))]

/-- MOVE_BLOCKS runs: the blocks named by the operand are copied into new slots of the command's request (R77, R111; the manual lays out no
operand words for it, so the list is the row's operand: log 16). -/
def execMoveBlocks (cid : Nat) (src : List Nat) (s : State) : Out :=
  .next (s.whenLive fun s =>
    match s.running cid 1 2 with
    | none => s
    | some c =>
      match s.req (fld c.op 1 47 0) with
      | none => s.finish cid .requestMoved 0
      | some r =>
        let (n, st, s1) := copyBlocks (fld c.op 1 47 0) r src 0 s
        (s1.note cid [(0x0301, n)] 0 0 n 0).finish cid (st.getD .ok) n)

end Sys2Proof.Machine
end

