-- ==== Sys2Proof/Machine/Calib.lean ====
section
/-! DEFINITION. Live calibration: drift windows, spawns, publication and switch, molt, retirement, the codebook caches and the succession of
the calibration node (R185, R186, R189, R196 to R213). -/

namespace Sys2Proof.Machine
open Sys2Proof

/-! ### The calibration node and its sets (R185, R186, R189) -/

/-- The calibration node of a composition: the one the policy names, else its lowest cache member (R189). -/
def State.calibNode (s : State) (comp : Nat) : Nat :=
  ((s.calib comp).node).getD ((minBy? id (s.comp comp).cur.cache).getD s.node)

/-- Layer, head and K (0) or V (1) of a directory entry (R188). -/
def CtxFields.setOf (f : CtxFields) (e : Nat) : List Nat := [f.composition, e / 2 / max 1 f.kvHeads, e / 2 % max 1 f.kvHeads, e % 2]

/-- Live versions of a set at its calibration node (R185). -/
def State.liveVers (s : State) (comp e : Nat) : List Nat := Tbl.at s.cb.live (comp, e) []

/-- The next version of a set: one above the last issued, wrapping from 0xFFFF to 1 and past live ones (R185). -/
def nextVer (last : Nat) (live : List Nat) : Nat :=
  ((List.range 8).map (fun i => (last + i) % 65535 + 1)).find? (fun v => !live.contains v) |>.getD 1

/-- Issues a version. -/
def State.issueVer (s : State) (comp e : Nat) : Nat × State :=
  let v := nextVer (Tbl.at s.cb.issued (comp, e) 0) (s.liveVers comp e)
  (v, { s with cb := { s.cb with issued := Tbl.set s.cb.issued (comp, e) v, live := Tbl.set s.cb.live (comp, e) (s.liveVers comp e ++ [v]) } })

/-! ### Publication (R203) -/

/-- The address of a set object on a member: where its own directory places it (log 15). -/
def memberAddr (a node : Nat) : Nat := mkAddr node (addrSpace a) (addrOff a)

/-- Writes a set object to a member in packets of 4,096 bytes and sends it PUBLISH (R203, R507). -/
def State.publishTo (s : State) (ctx e slot ver m : Nat) (obj : List Byte) : State :=
  let f := (s.ctx ctx).f
  let a := memberAddr (f.objAddr e slot) m
  let n := ceilDiv obj.length 4096
  let s1 := (List.range n).foldl (fun (t : State) i =>
    let bs := padTo 64 ((obj.drop (4096 * i)).take 4096)
    t.sendReq { ty := .write, dst := m, srcVi := 0, srcEp := 63, addr := a + 4096 * i, winId := 0xFFF, payloadLen := bs.length, payload := bs : Packet } (.hub 2 e) none) s
  s1.tell { dst := m, tc := 7, code := 0x31, mapEpoch := (s.comp f.composition).cur.epoch
            fields := [e, slot, ver, a, word (wordsOf 8 obj) 7, f.composition] }

/-- Fills a version slot of this node with a set object: its state, no references, its statistics zeroed (R190, R191). -/
def State.fillSlot (s : State) (ctx e slot ver st : Nat) (obj : List Byte) : State :=
  let f := (s.ctx ctx).f
  let s1 := (s.wr (f.objAddr e slot) obj).wr (f.statsAddr e slot) (List.replicate 128 0)
  s1.setCbSet ctx e ((s1.cbSet ctx e).setSlot slot (ver, st, 0))

/-- Sends SWITCH to a member, or schedules it here (R203). -/
def State.switchTo (s : State) (ctx e slot ver m time : Nat) : State :=
  if m = s.node then s.setCbSet ctx e { s.cbSet ctx e with pend := true, nextSlot := slot, switchAt := time }
  else s.tell { dst := m, tc := 7, code := 0x33, mapEpoch := (s.comp (s.ctx ctx).f.composition).cur.epoch, fields := [e, slot, ver, time] }

/-- Once no answer is awaited, the switch time is the last answer's plus `switch_lead`, and SWITCH goes to every member that answered; the
load that asked for it completes (R203, R212). -/
def State.settlePub (s : State) (ctx comp e ver : Nat) : State :=
  match Tbl.get s.cb.pubs (comp, e, ver) with
  | none => s
  | some p =>
    if !p.awaited.isEmpty || p.switchAt.isSome then s
    else
      let t := p.lastAt + (s.calib comp).switchLead
      let s1 : State := { s with cb := { s.cb with pubs := Tbl.set s.cb.pubs (comp, e, ver) { p with switchAt := some t, op := none } } }
      let s2 := p.ok.foldl (fun (u : State) m => u.switchTo ctx e p.slot ver m t) s1
      (p.op.map (fun r => s2.finishOp r .ok ver [])).getD s2

/-- Publishes a set object under an issued version: a free slot, the object on every member that can be reached, PUBLISH to each (R203). -/
def State.publishSet (s : State) (ctx e ver : Nat) (obj : List Byte) (op : Option OpRef) : State :=
  let comp := (s.ctx ctx).f.composition
  let x := s.cbSet ctx e
  match (List.range 4).find? (fun i => (x.slot i).2.1 == 0) with
  | none => s
  | some slot =>
    let others := (s.comp comp).cur.members.filter (fun m => m != s.node && !s.unreachable m)
    let s1 := s.fillSlot ctx e slot ver 2 obj
    let p : Publication := { slot := slot, awaited := others.map (fun m => (m, 0)), ok := [s.node], lastAt := s.now, op := op }
    let s2 : State := { s1 with cb := { s1.cb with pubs := Tbl.set s1.cb.pubs (comp, e, ver) p } }
    (others.foldl (fun (t : State) m => t.publishTo ctx e slot ver m obj) s2).settlePub ctx comp e ver

/-- A member verifies a published set object, sets its slot PUBLISHED and answers; one that fails raises EV_CODEBOOK_CHECK (R203). -/
def execPublish (h : MsgHdr) (e slot ver addr crc comp : Nat) (s : State) : Out :=
  .next (s.whenLive fun s =>
    if h.ver ≠ 1 then s else
    match s.ctxFor comp with
    | none => s
    | some ctx =>
      let f := (s.ctx ctx).f
      let x := s.cbSet ctx e
      let obj := s.setObj ctx e slot
      let free := (x.slot slot).2.1 == 0 || (x.slot slot).1 == ver
      let ok := free && addr == f.objAddr e slot && objOk obj && word (wordsOf 8 obj) 7 == crc && fld (wordsOf 8 obj) 0 63 48 == ver
      let answer := fun (t : State) (st : Status) => t.tell { dst := h.src, tc := 7, code := 0x32, mapEpoch := h.mapEpoch, fields := [e, slot, ver, st.code] }
      if ok then answer (s.fillSlot ctx e slot ver (if (x.slot slot).2.1 == 0 then 2 else (x.slot slot).2.1) obj) .ok
      else answer (s.raise0 .codebookCheck s.hubDie 0 (f.setOf e ++ [ver, slot, h.src])) .codebookCheck)

/-- The composition whose calibration node this node or a peer is and whose set holds a version: SWITCH, RETIRE and REF_REPORT name none
(R507; log 15). -/
def State.setCtx (s : State) (calib e ver : Nat) : Option Nat :=
  (s.work.ctxs.find? (fun c => c.2.st == .ready && s.calibNode c.2.f.composition == calib && ((s.cbSet c.1 e).slotOf ver).isSome)).map (·.1)

/-- The calibration node records a member's answer: a failed copy is written again up to three times, and then left out until a later
window; after the last answer SWITCH is sent (R203). -/
def execPublishAnswer (h : MsgHdr) (e slot ver status : Nat) (s : State) : Out :=
  .next (s.whenLive fun s =>
    if h.ver ≠ 1 then s else
    match s.setCtx s.node e ver with
    | none => s
    | some ctx =>
      let comp := (s.ctx ctx).f.composition
      match Tbl.get s.cb.pubs (comp, e, ver) with
      | none => s
      | some p =>
        if p.slot ≠ slot then s else
        match Tbl.get p.awaited h.src with
        | none => s
        | some tries =>
          let set := fun (q : Publication) => ({ s with cb := { s.cb with pubs := Tbl.set s.cb.pubs (comp, e, ver) q } } : State)
          if status = Status.ok.code then
            let s1 := set { p with awaited := Tbl.del p.awaited h.src, ok := p.ok ++ [h.src], lastAt := s.now, failed := p.failed.filter (· ≠ h.src) }
            if p.switchAt.isSome then s1.switchTo ctx e slot ver h.src (s.now + (s.calib comp).switchLead) else s1.settlePub ctx comp e ver
          else if status = Status.targetDead.code then (set { p with awaited := Tbl.del p.awaited h.src }).settlePub ctx comp e ver
          else if tries < 3 then (set { p with awaited := Tbl.set p.awaited h.src (tries + 1) }).publishTo ctx e slot ver h.src (s.setObj ctx e slot)
          else (set { p with awaited := Tbl.del p.awaited h.src, failed := (p.failed ++ [h.src]).dedup }).settlePub ctx comp e ver)

/-- A member schedules a switch (R203). -/
def execCbSwitch (h : MsgHdr) (e slot ver time : Nat) (s : State) : Out :=
  .next (s.whenLive fun s =>
    if h.ver ≠ 1 then s else
    match s.setCtx h.src e ver with
    | none => s
    | some ctx =>
      if (s.cbSet ctx e).slotOf ver = some slot ∧ ((s.cbSet ctx e).slot slot).2.1 ≠ 3 then s.switchTo ctx e slot ver s.node time else s)

/-- The sixteen statistics counters of a version slot (R191). -/
def State.counters (s : State) (ctx e slot : Nat) : List Nat := s.rdWords ((s.ctx ctx).f.statsAddr e slot) 16

/-- Opens a drift window for the CURRENT slot of a set: its counters now, and `window_start` (R191, R198). -/
def State.openWindow (s : State) (ctx e slot : Nat) : State :=
  let s1 := s.wrWords ((s.ctx ctx).f.statsAddr e slot + 120) [u64 s.now]
  { s1 with cb := { s1.cb with snaps := Tbl.set s1.cb.snaps (ctx, e) (s1.counters ctx e slot) } }

/-- At `switch_time` the new version is CURRENT and the old RETIRING, EV_CODEBOOK_SWITCH is raised and the molt begins (R203, R205). -/
def execSwitchTime (ctx e : Nat) (s : State) : Out :=
  .next (s.whenLive fun s =>
    let x := s.cbSet ctx e
    if (s.ctx ctx).st ≠ .ready ∨ !x.pend ∨ s.now < x.switchAt then s
    else
      let new := x.slot x.nextSlot
      let old := x.slot x.curSlot
      let x1 := if x.cur ≠ 0 ∧ x.curSlot ≠ x.nextSlot then x.setSlot x.curSlot (old.1, 4, old.2.2) else x
      let x2 := { x1.setSlot x.nextSlot (new.1, 3, new.2.2) with cur := new.1, curSlot := x.nextSlot, pend := false, lastDrift := 0 }
      let s1 := (s.setCbSet ctx e x2).openWindow ctx e x.nextSlot
      let s2 : State := { s1 with cb := { s1.cb with molts := Tbl.set s1.cb.molts (ctx, e) { ver := new.1 }, mutes := Tbl.del s1.cb.mutes (ctx, e) } }
      s2.raise0 .codebookSwitch s.hubDie 0 ((s.ctx ctx).f.setOf e ++ [x.cur, new.1, x.switchAt]))

/-! ### References and retirement (R211) -/

/-- Frees a version slot here (R203, R211). -/
def State.dropSlot (s : State) (ctx e ver : Nat) : State :=
  match (s.cbSet ctx e).slotOf ver with
  | none => s
  | some i =>
    let s1 := s.setCbSet ctx e ((s.cbSet ctx e).setSlot i (0, 0, 0))
    { s1 with cb := { s1.cb with cache := s1.cb.cache.filter (fun c => c.1.2 != (ctx, e, ver)) } }

/-- A member's count of a version rises: its new references come out of those in fault transit for lost members, which regrow and pulls bring back
(R450). -/
def State.refsRegrown (s : State) (comp e ver member n : Nat) : State :=
  (s.cb.reports.filter (fun r => r.1.1 == comp && r.1.2.1 == e && r.1.2.2.1 == ver && r.1.2.2.2 != member)).foldl (fun (x : Nat × State) r =>
    let (left, t) := x
    let m := r.1.2.2.2
    let k := min left (min r.2 (Tbl.at t.led.transit (m, qRefs) {}).fault)
    if k = 0 then x else (left - k, { t with
      cb := { t.cb with reports := Tbl.set t.cb.reports r.1 (r.2 - k) }
      led := { t.led with transit := Tbl.upd t.led.transit (m, qRefs) (fun y => { y with fault := y.fault - k }) } })) (n, s) |>.2

/-- The calibration node records a member's reports, and retires each version that is not CURRENT and whose members all reported none:
RETIRE goes to each, and EV_CODEBOOK_RETIRED is raised (R211). -/
def State.reportRefs (s : State) (ctx member : Nat) (es : List (Nat × Nat × Nat × Nat)) : State :=
  let f := (s.ctx ctx).f
  let comp := f.composition
  let s1 := es.foldl (fun (t : State) r =>
    let k := (comp, r.1, r.2.1, member)
    let n := r.2.2.1 + r.2.2.2
    let u := t.refsRegrown comp r.1 r.2.1 member (n - Tbl.at t.cb.reports k 0)
    { u with cb := { u.cb with reports := Tbl.set u.cb.reports k n } }) s
  es.foldl (fun (t : State) r =>
    let (e, ver, _) := r
    let members := (t.comp comp).cur.members
    let state := ((t.cbSet ctx e).slotOf ver).map (fun i => ((t.cbSet ctx e).slot i).2.1)
    if state = some 4 ∧ members.all (fun m => Tbl.get t.cb.reports (comp, e, ver, m) == some 0) then
      let u := (members.filter (· ≠ t.node)).foldl (fun (u : State) m =>
        u.tell { dst := m, tc := 7, code := 0x34, mapEpoch := (t.comp comp).cur.epoch, fields := [e, ver] }) t
      let u1 : State := { u with cb := { u.cb with
        live := Tbl.set u.cb.live (comp, e) ((u.liveVers comp e).filter (· ≠ ver))
        reports := u.cb.reports.filter (fun r => !(r.1.1 == comp && r.1.2.1 == e && r.1.2.2.1 == ver)), pubs := Tbl.del u.cb.pubs (comp, e, ver) } }
      (u1.dropSlot ctx e ver).raise0 .codebookRetired u1.hubDie 0 (f.setOf e ++ [ver])
    else t) s1

/-- REF_REPORT arrives at the calibration node (R211). -/
def execRefReport (h : MsgHdr) (es : List (Nat × Nat × Nat × Nat)) (s : State) : Out :=
  .next (s.whenLive fun s =>
    if h.ver ≠ 1 then s else
    match es.findSome? (fun r => s.setCtx s.node r.1 r.2.1) with
    | none => s
    | some ctx => s.reportRefs ctx h.src es)

/-- A member frees a retired version (R211). -/
def execRetire (h : MsgHdr) (e ver : Nat) (s : State) : Out :=
  .next (s.whenLive fun s =>
    if h.ver ≠ 1 then s else
    match s.setCtx h.src e ver with
    | none => s
    | some ctx => if (s.cbSet ctx e).cur = ver then s else s.dropSlot ctx e ver)

/-! ### Drift (R198, R199) -/

/-- The four measures of a window in units of 2^-16 (R198), 0 where nothing was counted; `base` is the set's `base_dist`. -/
def measures (d : Nat) (x : List Nat) (base : Dy) : List Nat :=
  let g := fun i => x.getD i 0
  let m1 := if g 8 = 0 then 0 else (dyFloor (dyDiv (dyNat (g 9)) (dyMul (dyNat (g 8)) base))).toNat
  [m1, if g 8 = 0 then 0 else g 10 * 65536 / (g 8 * (d / 8)), if g 0 = 0 then 0 else g 2 * 65536 / g 0, if g 8 = 0 then 0 else g 11 * 65536 / g 8]

/-- The first condition a window exceeds, 1 to 4, judged without rounding (R198). -/
def exceeded (p : CalibPolicy) (d : Nat) (x : List Nat) (base : Dy) : Option Nat :=
  let g := fun i => x.getD i 0
  let exc := fun (n k t : Nat) => k != 0 && decide (t * k < n * 65536)
  let rise := g 8 != 0 && dyLt (dyMul (dyMul (dyNat (p.distRise * g 8)) base) (dyPow2 (-16))) ⟨g 9, -16⟩
  ([(1, rise), (2, exc (g 10) (g 8 * (d / 8)) p.encSat), (3, exc (g 2) (g 0) p.attendDist), (4, exc (g 11) (g 8) p.scaleFloor)].find? (·.2)).map (·.1)

/-- Closes the window of one set's CURRENT slot: judged where it saw enough, EV_CODEBOOK_DRIFT raised unless muted, the calibration node told,
and a new window opened (R198, R199, R200). -/
def State.closeWindow (s : State) (ctx e : Nat) : State :=
  let f := (s.ctx ctx).f
  let p := s.calib f.composition
  let x := s.cbSet ctx e
  if x.cur = 0 then s else
    let obj := s.setObj ctx e x.curSlot
    let base := (decF32 (fld (wordsOf 8 obj) 2 63 32)).getD dyZero
    let now := s.counters ctx e x.curSlot
    let before := Tbl.at s.cb.snaps (ctx, e) []
    let dl := now.mapIdx (fun i v => sub64 v (before.getD i 0))
    let enough := decide (65536 ≤ dl.getD 8 0 * (f.headDim / 8)) || decide (65536 ≤ dl.getD 0 0)
    let muted := match Tbl.get s.cb.mutes (ctx, e) with | some (v, n) => v == x.cur && decide (0 < n) | none => false
    let r := Tbl.at s.cb.reservoirs (ctx, e) {}
    let s0 : State := { s with cb := { s.cb with
      reservoirs := Tbl.set s.cb.reservoirs (ctx, e) { newSeen := 0, newRows := [], oldRows := r.newRows }
      mutes := Tbl.upd s.cb.mutes (ctx, e) (fun m => (m.1, m.2 - 1)) } }
    let s1 := match (if enough && !muted then exceeded p f.headDim dl base else none) with
      | none => s0
      | some c =>
        let ms := measures f.headDim dl base
        let payload := f.setOf e ++ [x.cur, c, ms.getD (c - 1) 0] ++ ms ++ [dl.getD 3 0, dl.getD 4 0, dl.getD 5 0, dl.getD 6 0]
        let t := (s0.setCbSet ctx e { x with lastDrift := s.now }).raise0 .codebookDrift (dieCX 0) 0 payload
        let t1 : State := { t with cb := { t.cb with mutes := Tbl.set t.cb.mutes (ctx, e) (x.cur, 16) } }
        if s.calibNode f.composition = s.node then t1
        else t1.tell { dst := s.calibNode f.composition, tc := 7, code := 0, mapEpoch := (s.comp f.composition).cur.epoch, fields := payload }
    s1.openWindow ctx e x.curSlot

/-- References in transit toward this node for a version (R209, R210). -/
def State.refTransit (s : State) (ctx e ver : Nat) : Nat := (Tbl.at s.led.books (qRefs, s.refScope ctx e ver) {}).states.getD 1 0

/-- A drift window of a context slot closes: every CURRENT slot is judged, references of RETIRING versions are reported, and the calibration
node publishes again to the members left out (R198, R203, R211). -/
def execDriftWindowClose (ctx : Nat) (s : State) : Out :=
  .next (s.whenLive fun s =>
    let f := (s.ctx ctx).f
    let comp := f.composition
    if (s.ctx ctx).st ≠ .ready ∨ s.now < Tbl.at s.cb.windowAt ctx 0 + (s.calib comp).window then s
    else
      let s1 := (List.range f.entries).foldl (fun (t : State) e => t.closeWindow ctx e) s
      let s2 : State := { s1 with cb := { s1.cb with windowAt := Tbl.set s1.cb.windowAt ctx s.now } }
      let es := (List.range f.entries).flatMap (fun e => ((s2.cbSet ctx e).slots.filter (fun v => v.2.1 == 4)).map (fun v => (e, v.1, v.2.2, s2.refTransit ctx e v.1)))
      let calib := s.calibNode comp
      if calib ≠ s.node then
        if es.isEmpty then s2 else s2.tell { dst := calib, tc := 7, code := 0x35, mapEpoch := (s.comp comp).cur.epoch, fields := es.flatMap (fun r => [r.1, r.2.1, r.2.2.1, r.2.2.2]) }
      else
        let s3 := s2.reportRefs ctx s.node es
        (s3.cb.pubs.filter (fun p => p.1.1 == comp && !p.2.failed.isEmpty)).foldl (fun (t : State) p =>
          let (_, e, ver) := p.1
          let t1 : State := { t with cb := { t.cb with pubs := Tbl.set t.cb.pubs p.1 { p.2 with awaited := p.2.awaited ++ p.2.failed.map (fun m => (m, 0)), failed := [] } } }
          p.2.failed.foldl (fun (u : State) m => u.publishTo ctx e p.2.slot ver m (u.setObj ctx e p.2.slot)) t1) s3)

/-! ### Spawn (R200 to R202) -/

/-- A subspace of a sample row. -/
def subOf (j : Nat) (row : List Byte) : List Dy := (bf16s 8 ((row.drop (16 * j)).take 16)).getD (List.replicate 8 dyZero)

/-- The calibration node starts a spawn on a forwarded drift event, if `auto_spawn` is set: rows are gathered in proportion to the members' `encoded` counts, from this node's reservoir and from
those the members sent; under 4,096 of them end it (R186, R199, R201). `members` gives each other member's id, count and rows. -/
def execSpawnStart (comp e : Nat) (members : List (Nat × Nat × List (List Byte))) (s : State) : Out :=
  .next (s.whenLive fun s =>
    match s.ctxFor comp with
    | none => s
    | some ctx =>
      let f := (s.ctx ctx).f
      if s.calibNode comp ≠ s.node ∨ !(s.calib comp).autoSpawn ∨ f.entries ≤ e ∨ Tbl.has s.cb.spawns (comp, e) ∨ 4 ≤ (s.liveVers comp e).length then s
      else
        let p := s.calib comp
        let x := s.cbSet ctx e
        let r := Tbl.at s.cb.reservoirs (ctx, e) {}
        let own := (s.node, (s.counters ctx e x.curSlot).getD 8 0, r.newRows ++ r.oldRows)
        let all := own :: members.filter (fun m => (s.comp comp).cur.members.contains m.1 && m.1 != s.node)
        let total := (all.map (fun m => m.2.1)).sum
        let share := fun (m : Nat × Nat × List (List Byte)) => m.2.2.take (if total = 0 then p.spawnSamples / max 1 all.length else p.spawnSamples * m.2.1 / total)
        let rows := all.flatMap share
        let s1 := s.addStat ctx e x.cur 14 (share own).length
        if rows.length < 4096 then s1.raise0 .spawnDone (dieCX 0) 0 (f.setOf e ++ [0, 0, 0, 3])
        else
          let n := f.headDim / 8
          let cb := (List.range n).flatMap (fun j => (List.range 256).flatMap (fun c => ((rows.getD (c * rows.length / 256) []).drop (16 * j)).take 16))
          { s1 with cb := { s1.cb with spawns := Tbl.set s1.cb.spawns (comp, e) { samples := rows, cb := cb, dists := List.replicate n 0, stopped := List.replicate n false } } })

/-- One pass over one subspace (R201): the samples assigned, the means, the re-seeds in centroid order; gives the new centroids and the summed
distance. -/
def kmPass (n d : Nat) (xs cs : List (List Dy)) : List (List Dy) × Nat :=
  let asg := xs.map (nearest cs)
  let ds := List.zipWith (fun x a => dist2 x (cs.getD a [])) xs asg
  let total := encF32 (dySum ds)
  let mean := fun (ms : List (List Dy)) => (List.range d).map (fun i =>
    dyRound fBF16 (dyDiv (dySum (ms.map (fun m => m.getD i dyZero))) (dyNat ms.length)))
  let order := (List.range n).foldl (fun (acc : List (List Dy) × List Nat) c =>
    let ms := ((xs.zip asg).filter (fun p => p.2 == c)).map (·.1)
    if !ms.isEmpty then (acc.1 ++ [mean ms], acc.2)
    else
      let far := (List.range xs.length).foldl (fun (b : Option (Nat × Dy)) i =>
        if acc.2.contains i then b else
          let v := r32 (ds.getD i dyZero)
          match b with | none => some (i, v) | some (_, w) => if dyLt w v then some (i, v) else b) none
      match far with
      | none => (acc.1 ++ [cs.getD c []], acc.2)
      | some (i, _) => (acc.1 ++ [xs.getD i []], acc.2 ++ [i])) ([], [])
  (order.1, total)

/-- A pass of a spawn: 256 centroids of one eight-dimensional subspace. -/
def spawnPass (xs cs : List (List Dy)) : List (List Dy) × Nat := kmPass 256 8 xs cs

/-- One spawn pass job completes: every subspace whose loop runs takes its pass and may stop (R201). -/
def execSpawnPassDone (comp e : Nat) (s : State) : Out :=
  .next (s.whenLive fun s =>
    match Tbl.get s.cb.spawns (comp, e) with
    | none => s
    | some sp =>
      if sp.stopped.all id then s else
        let p := s.calib comp
        let pass := sp.passes + 1
        let res := sp.stopped.mapIdx (fun j done =>
          let cs := (List.range 256).map (centroid sp.cb j)
          if done then (cs, sp.dists.getD j 0, true)
          else
            let (cs', d) := spawnPass (sp.samples.map (subOf j)) cs
            let v := fun n => (decF32 n).getD dyZero
            let prev := v (sp.dists.getD j 0)
            let small := decide (2 ≤ pass) && dyLt (dySub prev (v d)) (dyMul ⟨p.conv, -16⟩ prev)
            (cs', d, small || decide (p.maxPasses ≤ pass)))
        let cb := res.flatMap (fun r => r.1.flatMap (fun c => c.flatMap (fun v => bytesOf 2 (encBF16 v))))
        { s with cb := { s.cb with spawns := Tbl.set s.cb.spawns (comp, e) { sp with cb := cb, passes := pass, dists := res.map (fun r => r.2.1), stopped := res.map (fun r => r.2.2) } } })

/-- The relative distortion of samples under a set: summed distances over summed squared norms (R201). -/
def relDist (n : Nat) (rows : List (List Byte)) (cb : List Byte) : Nat :=
  let per := fun j => let cs := (List.range 256).map (centroid cb j)
    rows.map (fun r => let x := subOf j r; (dist2 x (cs.getD (nearest cs x) []), norm2 x))
  let all := (List.range n).flatMap per
  encF32 (dyDiv (dySum (all.map (·.1))) (dySum (all.map (·.2))))

/-- A spawn ends: its distortion and that of the CURRENT version on the same samples decide whether it is issued and published, and
EV_SPAWN_DONE is raised with the outcome: 1 published, 2 no gain, 3 too few samples (R185, R186, R201 to R203). -/
def execSpawnEnd (comp e : Nat) (s : State) : Out :=
  .next (s.whenLive fun s =>
    match Tbl.get s.cb.spawns (comp, e), s.ctxFor comp with
    | some sp, some ctx =>
      if !(sp.stopped.all id) then s else
        let f := (s.ctx ctx).f
        let p := s.calib comp
        let x := s.cbSet ctx e
        let n := f.headDim / 8
        let new := relDist n sp.samples sp.cb
        let cur := if x.cur = 0 then 0 else relDist n sp.samples ((s.setObj ctx e x.curSlot).drop 64)
        let v := fun k => (decF32 k).getD dyZero
        let gain := x.cur == 0 || dyLt (v new) (dyMul ⟨65536 - p.gainMin, -16⟩ (v cur))
        let s0 : State := { s with cb := { s.cb with spawns := Tbl.del s.cb.spawns (comp, e) } }
        let go := gain && decide ((s.liveVers comp e).length < 4)
        let s1 := if !go then s0 else
          let (ver, t) := s0.issueVer comp e
          let st := f.setOf e
          let w := [mkWord [(48, 16, ver), (47, 1, e % 2), (37, 10, st.getD 1 0), (29, 8, st.getD 2 0), (26, 3, dimCode f.headDim)],
            mkWord [(32, 32, f.model), (0, 32, sp.samples.length)], mkWord [(32, 32, new), (0, 32, sp.passes)], u64 s.now, mkWord [(48, 16, x.cur)], 0, 0]
          t.publishSet ctx e ver (mkObj w sp.cb) none
        s1.raise0 .spawnDone (dieCX 0) 0 (f.setOf e ++ [sp.passes, new, cur, if go then 1 else 2])
    | _, _ => s)

/-! ### Molt (R205 to R208) -/

/-- Why molt skips a block, if it does: 1 OPEN, 2 CONVERTING or named, 3 leaping or frozen, 4 shared, 5 code-only, 6 lingering or LOST (R206,
R207). -/
def State.moltSkip (s : State) (da : Nat) (oldest : Bool) : Option Nat :=
  let d := s.desc da
  let h := s.hold d.req
  let leaping := h.frozen || ((s.own.dir.find? (fun e => e.1 == d.req)).map (fun e => e.2.st == .leaping)).getD false
  if s.own.holds.any (fun x => (x.2.lingering.map (fun l => l.2.1.contains da)).getD false) ∨ d.st = dLost then some 6
  else if d.st = dConverting ∨ Tbl.has s.cb.moltRetry da then some 2
  else if d.st ≠ dFull ∧ s.mayGrow d.req then some 1
  else if leaping then some 3
  else if s.sharedHeld d.req then some 4
  else if d.repr = 2 ∧ !oldest ∧ !((s.blockComp da).map (fun c => (s.calib c).moltCodeOnly)).getD false then some 5
  else none

/-- What a block needs of molt: the representation to recode to, and whether a code-only block's version is the oldest RETIRING one of a
set with four (R205, R207). -/
def State.moltNeed (s : State) (da : Nat) : Option (Nat × Bool) :=
  let d := s.desc da
  if d.st = dFree then none else
  match s.blockSets da with
  | none => none
  | some (c, ek, ev) =>
    let kx := s.cbSet c ek
    let vx := s.cbSet c ev
    let full := fun (x : CbSet) (ver : Nat) => (x.slots.all (fun v => v.2.1 != 0)) && ((x.slots.filter (fun v => v.2.1 == 4)).head?.map (·.1)) == some ver
    if kx.cur = 0 ∨ vx.cur = 0 then none
    else if d.repr = 0 then
      let want := ((s.blockComp da).map (fun k => (s.comp k).cur.kvRepr)).getD 0
      if want = 0 then none else some (want, false)
    else if d.kVer = kx.cur ∧ d.vVer = vx.cur then none
    else some (3, full kx d.kVer || full vx d.vVer)

/-- Blocks that molt may take, in its order: requests this node holds, then cache copies, then held requests; block-map order within (R205). -/
def State.moltOrder (s : State) : List Nat :=
  let all := s.tier.owners.map (·.1)
  let group := fun da => let rid := (s.desc da).req
    if (s.req rid).isSome then 0 else if s.kv.handles.any (fun h => h.2.req == rid) then 2 else 1
  let key := fun da => let d := s.desc da; ((group da * 2 ^ 48 + d.req) * 2 ^ 18 + d.layer * 256 + d.head) * 2 ^ 32 + d.base
  sortBy (fun a b => decide (key a ≤ key b)) all

/-- Counts a block of a molt in progress on its sets. -/
def State.moltCount (s : State) (da : Nat) (f : Molt → Molt) : State :=
  match s.blockSets da with
  | none => s
  | some (c, ek, ev) => { s with cb := { s.cb with molts := Tbl.upd (Tbl.upd s.cb.molts (c, ek) f) (c, ev) f } }

/-- Molts that have no block left but skipped ones end: EV_MOLT_DONE carries the counts by reason (R208). -/
def State.moltDone (s : State) : State :=
  let ready := s.moltOrder.filter (fun da => ((s.moltNeed da).map (fun n => (s.moltSkip da n.2).isNone)).getD false)
  let left := s.moltOrder.filter (fun da => (s.moltNeed da).isSome)
  s.cb.molts.foldl (fun (t : State) m =>
    let of := fun da => ((s.blockSets da).map (fun b => b.1 == m.1.1 && (b.2.1 == m.1.2 || b.2.2 == m.1.2))).getD false
    if ready.any of then t
    else
      let why := (left.filter of).filterMap (fun da => (s.moltNeed da).bind (fun n => s.moltSkip da n.2))
      let t1 : State := { t with cb := { t.cb with molts := Tbl.del t.cb.molts m.1 } }
      t1.raise0 .moltDone s.hubDie 0 ((s.ctx m.1.1).f.setOf m.1.2 ++ [m.2.ver, m.2.molted] ++ (List.range 6).map (fun i => (why.filter (· == i + 1)).length))) s

/-- Molt takes its next block within `molt_rate` and recodes it; a busy one is tried again after 1 ms (R205 to R208). -/
def execMoltPace (s : State) : Out :=
  .next (s.whenLive fun s =>
    match s.moltOrder.findSome? (fun da => (s.moltNeed da).bind (fun n => if (s.moltSkip da n.2).isNone then some (da, n) else none)) with
    | none => s.moltDone
    | some (da, want, _) =>
      let rate := ((s.blockComp da).map (fun c => (s.calib c).moltRate)).getD 0
      if rate = 0 ∨ s.now < s.cb.moltAt + ceilDiv 1000000000 rate then s
      else
        let s1 : State := { s with cb := { s.cb with moltAt := s.now } }
        let later := ({ s1 with cb := { s1.cb with moltRetry := Tbl.set s1.cb.moltRetry da (s.now + 1000000) } } : State)
        match s1.recodeOne 0 da want true false with
        | .same => s1
        | .bad .retryBlockBusy => later
        | .bad .planeCheck => s1.planeFail da ((s.badPlane (s.desc da)).getD 1)
        | .bad .descCheck => (later.descFail da)
        | .bad _ => later
        | .go _ ps =>
          if ps.isEmpty then later
          else if (s1.shardOf da).isSome && !s1.deltasDone (1, da) then
            if s1.prot.sent.contains (1, da) then later
            else
              let a := ps.foldl (fun (t : State) x => match x with | .write a bs => t.wr a bs | _ => t) s1
              s1.sendDeltas (1, da) none da (a.desc da) (a.shardBytes (a.desc da))
          else
            let t := ((ps.foldl State.applyPost s1).moltCount da (fun m => { m with molted := m.molted + 1 })).moltDone
            { t with prot := { t.prot with sent := t.prot.sent.filter (· != (1, da)) } })

/-- A block that was busy may be molted again (R206). -/
def execMoltRetryTimer (da : Nat) (s : State) : Out :=
  .next (s.whenLive fun s =>
    match Tbl.get s.cb.moltRetry da with
    | some t => if s.now < t then s else { s with cb := { s.cb with moltRetry := Tbl.del s.cb.moltRetry da } }
    | none => s)

/-! ### The codebook caches (R196, R197) -/

/-- Versions a command's blocks name, by context slot and entry. -/
def State.cmdVers (s : State) (c : Cmd) : List (Nat × Nat × Nat) :=
  ((s.cmdBlocks c).flatMap (fun da =>
    let d := s.desc da
    if addrNode da ≠ s.node ∨ d.repr = 0 then [] else
    match s.blockSets da with | some (x, ek, ev) => [(x, ek, d.kVer), (x, ev, d.vVer)] | none => [])).dedup

/-- Bytes a cached version takes: centroids, and for a V set its column sums and `amax_v` (R196). -/
def cachedBytes (d e : Nat) : Nat := if e % 2 = 0 then 512 * d else 768 * d + 64

/-- Bytes cached on a die. -/
def State.cacheUse (s : State) (die : Nat) : Nat :=
  ((s.cb.cache.filter (fun c => c.1.1 == die)).map (fun c => cachedBytes (s.ctx c.1.2.1).f.headDim c.1.2.2.1)).sum

/-- Whether a cached version is pinned: a dispatched Attend or Codec job names it (R197). -/
def State.pinned (s : State) (v : Nat × Nat × Nat) : Bool :=
  s.work.cmds.any (fun c => (c.2.cls == 2 || c.2.cls == 3) && c.2.dispT.isSome && c.2.outcome.isNone && (s.cmdVers c.2).contains v)

/-- Evicts unpinned versions of a die, least recently used first, until a number of bytes fits (R197). -/
def evict : Nat → Nat → Nat → State → State
  | 0, _, _, s => s
  | n + 1, die, need, s =>
    if s.cacheUse die + need ≤ 26 * 2 ^ 20 then s
    else match minBy? (fun c => c.2.usedAt) (s.cb.cache.filter (fun c => c.1.1 == die && !s.pinned c.1.2)) with
      | none => s
      | some c => evict n die need { s with cb := { s.cb with cache := Tbl.del s.cb.cache c.1 } }

/-- A codebook cache fill completes: the set object verifies and is cached, or EV_CODEBOOK_CHECK is raised and the object fetched again, as
`fetched` gives it, takes its place (R196, R197). -/
def execCodebookFill (die ctx e ver : Nat) (fetched : Option (List Byte)) (src : Nat) (s : State) : Out :=
  .next (s.whenLive fun s =>
    match (s.cbSet ctx e).slotOf ver with
    | none => s
    | some slot =>
      if (s.ctx ctx).st ≠ .ready ∨ 8 ≤ die ∨ s.isFenced (dieMC die) ∨ Tbl.has s.cb.cache (die, ctx, e, ver) then s
      else
        let k := (die, ctx, e, ver)
        let obj := s.setObj ctx e slot
        let fill := fun (t : State) (o : List Byte) =>
          let need := cachedBytes (t.ctx ctx).f.headDim e
          let t1 := evict t.cb.cache.length die need t
          if 26 * 2 ^ 20 < t1.cacheUse die + need then t1
          else ({ t1 with cb := { t1.cb with cache := Tbl.set t1.cb.cache k { obj := o, usedAt := t.now }, fillFails := Tbl.del t1.cb.fillFails k } } : State)
        if objOk obj then fill s obj
        else
          let s1 := s.raise0 .codebookCheck (dieMC die) 0 ((s.ctx ctx).f.setOf e ++ [ver, slot, src])
          match fetched with
          | some o => if objOk o ∧ o.length = obj.length then fill (s1.wr ((s.ctx ctx).f.objAddr e slot) o) o
                      else { s1 with cb := { s1.cb with fillFails := Tbl.updD s1.cb.fillFails k s.now id } }
          | none => { s1 with cb := { s1.cb with fillFails := Tbl.updD s1.cb.fillFails k s.now id } })

/-- A command that has waited 1 ms since the first failed fill of a version it needs completes with ST_CODEBOOK_CHECK (R197). -/
def execCodebookFillTimeout (cid : Nat) (s : State) : Out :=
  .next (s.whenLive fun s =>
    match Tbl.get s.work.cmds cid with
    | none => s
    | some c =>
      let vs := s.cmdVers c
      if c.st = .waiting ∧ c.outcome.isNone ∧ s.cb.fillFails.any (fun f => vs.contains f.1.2 && decide (f.2 + 1000000 ≤ s.now)) then s.finish cid .codebookCheck 0
      else s)

/-! ### Succession (R213) -/

/-- The successor of a lost calibration node takes the duty: it reads the members' directory entries, given as (member, entry, words), takes the
newest CURRENT or scheduled version of each set, sends SWITCH to those that have not switched, and drops published versions that nobody has
scheduled (R189, R213). -/
def execCalibrationSuccession (comp lost : Nat) (dirs : List (Nat × Nat × List Nat)) (s : State) : Out :=
  .next (s.whenLive fun s =>
    match s.ctxFor comp with
    | none => s
    | some ctx =>
      if s.calibNode comp ≠ lost ∨ lost = s.node ∨ nextAbove (s.comp comp).cur.cache lost ≠ some s.node then s
      else
        let s0 : State := { s with cb := { s.cb with policies := Tbl.set s.cb.policies comp { s.calib comp with node := some s.node }
                                                     spawns := s.cb.spawns.filter (fun x => x.1.1 != comp) } }
        let time := s.now + (s.calib comp).switchLead
        (List.range (s.ctx ctx).f.entries).foldl (fun (t : State) e =>
          let all := (s.node, t.cbSet ctx e) :: (dirs.filter (fun d => d.2.1 == e && d.1 != s.node)).map (fun d => (d.1, CbSet.ofWords d.2.2))
          let cands := all.flatMap (fun d => [d.2.cur] ++ (if d.2.pend then [(d.2.slot d.2.nextSlot).1] else []))
          let best := cands.foldl max 0
          let live := (all.flatMap (fun d => (d.2.slots.filter (fun v => v.2.1 != 0)).map (·.1))).dedup
          let stale := (all.flatMap (fun d => (d.2.slots.filter (fun v => v.2.1 == 2 && !cands.contains v.1)).map (·.1))).dedup
          let t1 : State := { t with cb := { t.cb with
            issued := if best = 0 then t.cb.issued else Tbl.set t.cb.issued (comp, e) best
            live := Tbl.set t.cb.live (comp, e) (live.filter (fun v => !stale.contains v)), pubs := t.cb.pubs.filter (fun p => !(p.1.1 == comp && p.1.2.1 == e)) } }
          let t2 := (all.filter (fun d => best != 0 && d.2.cur != best)).foldl (fun (u : State) d =>
            match d.2.slotOf best with | some slot => u.switchTo ctx e slot best d.1 time | none => u) t1
          stale.foldl (fun (u : State) v => (all.filter (fun d => d.1 != s.node && (d.2.slotOf v).isSome)).foldl (fun (w : State) d =>
            w.tell { dst := d.1, tc := 7, code := 0x34, mapEpoch := (s.comp comp).cur.epoch, fields := [e, v] }) (u.dropSlot ctx e v)) t2) s0)

end Sys2Proof.Machine
end

