-- ==== Sys2Proof/Machine/Pulls.lean ====
section
/-! DEFINITION. Where a request's blocks have copies, tongue pulls, and blocks on their way between tiers (R135 to R138, R204, R223,
R224, R227). -/

namespace Sys2Proof.Machine
open Sys2Proof

/-! ### Copies and pulls (R137, R204, R227) -/

/-- Copies of a block in the order of R137: a lingering slot or other place the block map names, the data shard, the replica, regrow. -/
def State.copiesOf (s : State) (r : Req) (rid l h b source : Nat) : List (Nat × Nat × Nat) :=
  let da := s.mapEntry r l h b
  let m := s.mapOf r
  let (sigma, i) := stripeOf (s.geom r) m.protection l h b
  let linger := if da ≠ 0 ∧ addrNode da ≠ s.node then [(addrNode da, da, 0)] else []
  let data := ((s.served r rid sigma i).map (fun n => (n, 0, 1))).toList
  let replica := if m.protection = .replica then ((s.served r rid sigma 1).map (fun n => (n, 0, 2))).toList else []
  let regrow := match m.protection with | .ec _ _ => [(s.node, 0, 3)] | _ => []
  if source = 2 then data else if source = 3 then replica else linger ++ data ++ replica ++ regrow

/-- Asks for a copy of a block; the request for it has no code of its own (log 12). -/
def State.askCopy (s : State) (rid l h b : Nat) (p : Pull) : State :=
  match p.copies.head? with
  | none => s
  | some (n, da, kind) => s.tell { dst := n, tc := s.tra.classes.getD 2 4, code := 0, req := rid
                                   epoch := ((s.req rid).map (·.holdEpoch)).getD 0, fields := [l, h, b, da, kind, b2n p.codeOnly] }

/-- Stores a pull. -/
def State.setPull (s : State) (k : Nat × Nat × Nat × Nat) (p : Pull) : State := { s with own := { s.own with pulls := Tbl.set s.own.pulls k p } }

/-- Starts the pull of a block unless one runs: a local slot is claimed on the die of R54 and booked in transit, and the first copy is asked
for; a claim without room starts none (R137, R221). -/
def State.startPull (s : State) (rid l h b : Nat) (cid : Option Nat) (codeOnly : Bool) (len source : Nat) : Bool × State :=
  match s.req rid with
  | none => (false, s)
  | some r =>
    if Tbl.has s.own.pulls (rid, l, h, b) then (true, s) else
    let d := (s.geom r).headDim
    match (s.dieFor l h).bind (fun die => s.freeSlot 1 die d) with
    | none => (false, s)
    | some da =>
      if (s.claimFault r.ownerVi r.composition 1 (newCharge 1 0 d)).isSome then (false, s)
      else
        let s1 := (s.claimSlot da r.ownerVi r.composition 4).setDesc da
          { slot := (s.slotAddr da).getD 0, req := rid, head := h, dim := dimCode d, base := 64 * b, layer := l, st := dConverting, epoch := r.holdEpoch, holder := s.node }
        let s2 : State := { s1 with tier := { s1.tier with transit := s1.tier.transit ++ [da] } }
        let p : Pull := { cid := cid, desc := da, copies := s.copiesOf r rid l h b source, deadline := s.now + len, codeOnly := codeOnly, len := len }
        (true, (s2.setPull (rid, l, h, b) p).askCopy rid l h b p)

/-- A request whose read failed at every copy: its commands complete with the status, its home is told and moves it to FAILED (R22, R227). -/
def State.failRead (s : State) (rid : Nat) (st : Status) : State :=
  let s1 := ({ s with kv := { s.kv with failed := Tbl.set s.kv.failed rid st } } : State).failHeld rid st
  match s1.entry rid with
  | some e => if e.here then s1.failReq rid e st 4 else s1
  | none => s1.tell (dirMsg (s1.homeOf rid) 0 rid (((s.req rid).map (·.holdEpoch)).getD 0) (((s.req rid).map (·.mapEpoch)).getD 0) [st.code] [])

/-- Frees a slot claimed and still in transit. -/
def State.dropClaim (s : State) (da : Nat) : State :=
  let s1 : State := { s with tier := { s.tier with owners := Tbl.del s.tier.owners da, transit := s.tier.transit.filter (· ≠ da) } }
  (s1.setDesc da { slot := (s1.desc da).slot }).bookSlot da 4 0

/-- A pull's copy failed or was late: the next one is asked for; when none is left the request ends (R137, R204, R227). -/
def State.nextCopy (s : State) (rid l h b : Nat) (late missing : Bool) : State :=
  match Tbl.get s.own.pulls (rid, l, h, b) with
  | none => s
  | some p =>
    let p' := { p with copies := p.copies.drop 1, deadline := s.now + p.len, late := late, missing := missing }
    if !p'.copies.isEmpty then (s.setPull (rid, l, h, b) p').askCopy rid l h b p'
    else
      let s1 : State := { s with own := { s.own with pulls := Tbl.del s.own.pulls (rid, l, h, b) } }
      let st := if missing then Status.codebookMissing else if late then .tierLate else .tierFailed
      let s2 := (s1.dropClaim p.desc).failRead rid st
      (p.cid.map (fun c => s2.finish c st (((Tbl.get s.work.cmds c).map (·.detailA)).getD 0))).getD s2

/-- Fills a version slot with a set object fetched with a block, RETIRING (R204). -/
def State.takeVersion (s : State) (ctx e ver : Nat) (objs : List (List Byte)) : Option State :=
  let x := s.cbSet ctx e
  if (x.slotOf ver).isSome then some s
  else
    let f := (s.ctx ctx).f
    let fits := fun (o : List Byte) => objOk o && o.length == 64 + 512 * f.headDim && fld (wordsOf 8 o) 0 63 48 == ver && fld (wordsOf 8 o) 0 47 47 == e % 2 &&
      f.entry (fld (wordsOf 8 o) 0 46 37) (fld (wordsOf 8 o) 0 36 29) (e % 2) == e
    match objs.find? fits, (List.range 4).find? (fun i => (x.slot i).2.1 == 0) with
    | some o, some i => some (s.fillSlot ctx e i ver 4 o)
    | _, _ => none

/-- A command that waited for pulls: counted; PULL_BLOCKS is complete once none of its pulls is left (R136). -/
def State.pullDone (s : State) (cid : Nat) : State :=
  let s1 := s.updCmd cid (fun c => { c with detailA := c.detailA + 1, events := Tbl.set c.events 0x0304 (Tbl.at c.events 0x0304 0 + 1) })
  match Tbl.get s1.work.cmds cid with
  | none => s1
  | some c => if s1.own.pulls.any (fun p => p.2.cid == some cid) || c.outcome.isSome || c.cls != 1 then s1 else s1.finish cid .ok c.detailA

/-- Adds to the open metering record of a composition (R21). -/
def State.meter (s : State) (comp : Nat) (f : Meter → Meter) : State := s.updComp comp (fun c => { c with meterOpen := f c.meterOpen })

/-- A pulled block arrives: its descriptor and planes are verified, versions this node lacks are filled from the set objects fetched with it, and
at its completion step the local descriptor and the map entry are switched (R54, R91, R100, R134, R137, R144, R204, R210). At the old holder, which pulls
nothing for the request, the command is that completion step as it sees it: the lingering slot is freed (R134; log 57). -/
def execPullBlockArrival (rid l h b : Nat) (desc : List Nat) (planes : List Byte) (objs : List (List Byte)) (s : State) : Out :=
  .next (s.whenLive fun s =>
    match Tbl.get s.own.pulls (rid, l, h, b), s.req rid with
    | some p, some r =>
      let d := Desc.ofWords desc
      let dd := (s.geom r).headDim
      if d.st = dConverting then s
      else if word desc 7 ≠ crc64 (bytesOfWords (desc.take 7)) ∨ (d.layer, d.head, d.base) ≠ (l, h, 64 * b) ∨ d.dim ≠ dimCode dd ∨ d.st = dLost ∨
          r.holdEpoch < d.epoch then s.nextCopy rid l h b false false
      else
        let repr := if p.codeOnly && d.repr == 1 then 2 else d.repr
        let slot := (s.slotAddr p.desc).getD 0
        let nd : Desc := { d with slot := slot, repr := repr, epoch := r.holdEpoch, holder := s.node, valid := d.committed
                                  st := if d.committed = 64 then dFull else dOpen, crcB := if repr = 1 then d.crcB else 0 }
        let s1 := s.store slot (planes.take (inUse repr dd))
        match s1.badPlane nd with
        | some plane => ((s.raise0 .planeCheck s.hubDie 0 [((p.copies.head?).map (·.2.1)).getD 0, plane])).nextCopy rid l h b false false
        | none =>
          let f := s.geom r
          let ek := f.entry l h 0
          let ev := f.entry l h 1
          let got := if repr = 0 then some s1 else (s1.takeVersion r.ctxSlot ek nd.kVer objs).bind (fun t => t.takeVersion r.ctxSlot ev nd.vVer objs)
          match got with
          | none => s.nextCopy rid l h b false true
          | some s2 =>
            let s3 := ((s2.setDesc p.desc nd).setMapEntry r l h b p.desc).bookSlot p.desc 4 nd.book
            let s4 : State := { s3 with tier := { s3.tier with transit := s3.tier.transit.filter (· ≠ p.desc), lastRead := Tbl.set s3.tier.lastRead p.desc s.now }
                                        own := { s3.own with pulls := Tbl.del s3.own.pulls (rid, l, h, b) } }
            let s5 := (s4.descRefs p.desc true).meter r.composition (fun m => { m with movedBytes := m.movedBytes + inUse repr dd })
            let s6 := match p.copies.head? with
              | some (n, da, 0) => (s5.transitIn n qSlots 1).tell { dst := n, tc := s.tra.classes.getD 2 4, code := 0, req := rid, epoch := r.holdEpoch, fields := [da] }
              | _ => s5
            (p.cid.map s6.pullDone).getD s6
    | _, _ =>
      match (s.hold rid).lingering.bind (fun x => x.2.1.find? (fun da => let d := s.desc da; d.layer == l && d.head == h && d.base == 64 * b)) with
      | some da => s.freeOrWait da
      | none => s)

/-- A pull that misses `arrive_us` at one copy goes on to the next (R137, R227). -/
def execPullArriveDeadline (rid l h b : Nat) (s : State) : Out :=
  .next (s.whenLive fun s =>
    match Tbl.get s.own.pulls (rid, l, h, b) with
    | some p => if s.now < p.deadline then s else s.nextCopy rid l h b true false
    | none => s)

/-- Blocks of a range of a request that are not local or whose local copy is LOST. -/
def State.toPull (s : State) (r : Req) (ls hs : List Nat) (b0 b1 : Nat) : List (Nat × Nat × Nat) :=
  ls.flatMap (fun l => hs.flatMap (fun h => (((List.range (min (b1 + 1) r.span)).filter (fun b => decide (b0 ≤ b))).filter (fun b =>
    let da := s.mapEntry r l h b
    da != 0 && (addrNode da != s.node || (s.desc da).st == dLost))).map (fun b => (l, h, b))))

/-- A run of numbers from a to b. -/
def runOf (a b : Nat) : List Nat := (List.range (b + 1 - a)).map (a + ·)

/-- The check of PULL_BLOCKS (R10, R118, R136). -/
def State.pullBlocksCheck (s : State) (c : Cmd) : Option Bad :=
  let w := c.op
  (firstOf [
    (!allZero w [(2, 27, 0), (4, 59, 0), (5, 63, 32), (6, 63, 0), (7, 31, 0)] || decide (1 < fld w 4 61 60), badField),
    (decide (fld w 2 53 44 < fld w 2 63 54) || decide (fld w 2 35 28 < fld w 2 43 36) || decide (fld w 3 31 0 < fld w 3 63 32), badField)]).orElse fun _ =>
  match s.req (fld w 1 47 0) with
  | none => some (.requestMoved, 0, 0)
  | some r => firstOf [
      (!s.coversComp c.vi r.composition, (.violation, 0, 3)),
      (decide ((s.geom r).layers ≤ fld w 2 53 44) || decide ((s.geom r).kvHeads ≤ fld w 2 35 28), badField)]

/-- PULL_BLOCKS runs: a pull starts for each block of its range that is not local; it completes with the number pulled once none is left
(R136, R137). A block without room for its slot is not pulled and gives ST_TIER_QUOTA. -/
def execPullBlocks (cid : Nat) (s : State) : Out :=
  .next (s.whenLive fun s =>
    match s.running cid 1 3 with
    | none => s
    | some c =>
      if s.own.pulls.any (fun p => p.2.cid == some cid) then s else
      let w := c.op
      let rid := fld w 1 47 0
      match s.req rid with
      | none => s.finish cid .requestMoved 0
      | some r =>
        let len := if fld w 5 31 0 = 0 then (s.comp r.composition).pullDeadline else 1000 * fld w 5 31 0
        let bs := s.toPull r (runOf (fld w 2 63 54) (fld w 2 53 44)) (runOf (fld w 2 43 36) (fld w 2 35 28)) (fld w 3 63 32) (fld w 3 31 0)
        let (ok, s1) := bs.foldl (fun (acc : Bool × State) x =>
          let (started, t) := acc.2.startPull rid x.1 x.2.1 x.2.2 (some cid) (fld w 4 61 60 == 1) len (fld w 4 63 62)
          (acc.1 && started, t)) (true, s)
        if s1.own.pulls.any (fun p => p.2.cid == some cid) then s1
        else s1.finish cid (if ok then .ok else .tierQuota) 0)

/-! ### Migration (R217, R219, R223, R224) -/

/-- Starts the migration of a block to a tier (1 DRAM, 2 flash): a slot there is claimed and booked in transit (R223). -/
def State.startMigration (s : State) (da tier : Nat) (promotion codeOnly : Bool) : Option State :=
  let d := s.desc da
  let dd := dimOf d.dim
  let repr := if codeOnly && d.repr == 1 then 2 else d.repr
  if Tbl.has s.tier.migrations da then none else
  match Tbl.get s.tier.owners da, (s.dieFor d.layer d.head).bind (fun die => s.freeSlot tier die dd) with
  | some (vi, comp), some dst =>
    if (s.claimFault vi comp tier (newCharge tier repr dd)).isSome then none
    else
      let s1 := (s.claimSlot dst vi comp 4).setDesc dst { slot := (s.slotAddr dst).getD 0, req := d.req, head := d.head, dim := d.dim, base := d.base, layer := d.layer, st := dConverting }
      some { s1 with tier := { s1.tier with transit := s1.tier.transit ++ [dst]
                                            migrations := Tbl.set s1.tier.migrations da { req := d.req, layer := d.layer, head := d.head, b := d.base / 64, dst := dst, startAt := s.now, promotion := promotion } } }
  | _, _ => none

end Sys2Proof.Machine
end

