-- ==== Sys2Proof/Machine/Stream.lean ====
section
/-! DEFINITION. Token rings, COMMIT, the bridges' logs and client streams, and the ends of requests (R106 to R112, R350 to R368). -/

namespace Sys2Proof.Machine
open Sys2Proof

/-! ### The stop automaton (R355, R356) -/

/-- The distinct prefixes of some sequences in the order of the sequences, the empty one first: the states of the trie (log 17). -/
def trieStates (seqs : List (List Nat)) : List (List Nat) :=
  (seqs.flatMap (fun q => (List.range (q.length + 1)).map (fun n => q.take n))).foldl (fun acc p => if acc.contains p then acc else acc ++ [p]) [[]]

/-- The number of a state. -/
def trieIdx (st : List (List Nat)) (p : List Nat) : Nat := (st.idxOf? p).getD 0
/-- The longest proper suffix of a state that is a state. -/
def trieFail (st : List (List Nat)) (p : List Nat) : List Nat :=
  ((List.range p.length).map (fun n => p.drop (n + 1))).find? (fun q => st.contains q) |>.getD []
/-- One more than the lowest index of a sequence that ends at a state or on its failure chain. -/
def trieOut (seqs : List (List Nat)) (p : List Nat) : Nat :=
  ((List.range seqs.length).find? (fun i => let q := seqs.getD i []; decide (q.length ≤ p.length) && p.drop (p.length - q.length) == q)).map (· + 1) |>.getD 0
/-- The edges of a state, sorted by token id: token and next state. -/
def trieEdges (st : List (List Nat)) (p : List Nat) : List (Nat × Nat) :=
  sortBy (fun a b => decide (a.1 ≤ b.1)) ((st.filter (fun q => q.length == p.length + 1 && q.take p.length == p)).map (fun q => (q.getLastD 0, trieIdx st q)))

/-- The automaton object of a specification: header, state table, edge table. The end-of-sequence ids lie in words 1 and 2 of the header, which
the manual leaves unnamed (log 17). -/
def autoObject (sp : StopSpec) : List Nat :=
  let st := trieStates sp.seqs
  let es := st.map (trieEdges st)
  let n := (es.map (·.length)).sum
  let eos := fun i => sp.eos.getD i 0xFFFFFFFF
  let states := (st.mapIdx (fun i p =>
    [mkWord [(32, 32, ((es.take i).map (·.length)).sum), (16, 16, (es.getD i []).length), (0, 16, trieIdx st (trieFail st p))],
     mkWord [(48, 16, p.length), (40, 8, trieOut sp.seqs p)]])).flatten
  let edges := es.flatten.map (fun e => mkWord [(32, 32, e.1), (16, 16, e.2)])
  [mkWord [(48, 16, st.length), (32, 16, n)], mkWord [(32, 32, eos 0), (0, 32, eos 1)], mkWord [(32, 32, eos 2), (0, 32, eos 3)], 0, 0, 0, 0,
    crc64 (bytesOfWords (states ++ edges))] ++ states ++ edges

/-- One step of the automaton at an address: along an edge, or by the failure links (R355). -/
def State.autoStep (s : State) (a : Nat) : Nat → Nat → Nat → Nat
  | 0, _, _ => 0
  | n + 1, st, tok =>
    let states := fld (s.rdWords a 1) 0 63 48
    let w := s.rdWords (a + 64 + 16 * st) 2
    match ((List.range (fld w 0 31 16)).map (fun i => word (s.rdWords (a + 64 + 16 * states + 8 * (fld w 0 63 32 + i)) 1) 0)).find? (fun e => bits e 63 32 == tok) with
    | some e => bits e 31 16
    | none => if st = 0 then 0 else s.autoStep a n (fld w 0 15 0) tok

/-- A state's depth, and its sequence's index plus 1. -/
def State.autoState (s : State) (a st : Nat) : Nat × Nat := let w := s.rdWords (a + 64 + 16 * st + 8) 1; (fld w 0 63 48, fld w 0 47 40)

/-! ### The ring (R352) -/

/-- A ring header's fields. -/
structure TokRing where
  st : Nat := 0
  log2 : Nat := 0
  req : Nat := 0
  prompt : Nat := 0
  maxNew : Nat := 0
  tok : Nat := 0
  acked : Nat := 0
  stopPos : Nat := 0xFFFFFFFF
  reason : Nat := 0
  stopSeq : Nat := 0
  stopLen : Nat := 0
  mstate : Nat := 0
  mdepth : Nat := 0
  spec : Nat := 0
  bridge : Nat := 0
  standby : Nat := 0
deriving DecidableEq, Repr

/-- The header's words. -/
def TokRing.words (t : TokRing) : List Nat :=
  sealWords [mkWord [(60, 4, t.st), (56, 4, t.log2), (0, 48, t.req)], mkWord [(32, 32, t.prompt), (0, 32, t.maxNew)], mkWord [(32, 32, t.tok), (0, 32, t.acked)],
    mkWord [(32, 32, t.stopPos), (28, 4, t.reason), (24, 4, t.stopSeq), (16, 8, t.stopLen)], mkWord [(48, 16, t.mstate), (32, 16, t.mdepth)], u64 t.spec,
    mkWord [(52, 12, t.bridge), (40, 12, t.standby)]]
/-- A header from its words. -/
def TokRing.ofWords (w : List Nat) : TokRing :=
  { st := fld w 0 63 60, log2 := fld w 0 59 56, req := fld w 0 47 0, prompt := fld w 1 63 32, maxNew := fld w 1 31 0, tok := fld w 2 63 32, acked := fld w 2 31 0
    stopPos := fld w 3 63 32, reason := fld w 3 31 28, stopSeq := fld w 3 27 24, stopLen := fld w 3 23 16, mstate := fld w 4 63 48, mdepth := fld w 4 47 32
    spec := word w 5, bridge := fld w 6 63 52, standby := fld w 6 51 40 }
/-- The ring of a record. -/
def State.tokRing (s : State) (r : Req) : TokRing := TokRing.ofWords (s.rdWords r.tokenRing 8)
/-- Writes a ring's header. -/
def State.setRing (s : State) (r : Req) (t : TokRing) : State := s.wrWords r.tokenRing t.words
/-- Enters ids from a position on. -/
def State.enterIds (s : State) (r : Req) (log2 first : Nat) (ids : List Nat) : State :=
  (ids.mapIdx (fun i x => (first + i, x))).foldl (fun t e => t.wrWords (r.tokenRing + 64 + e.1 % 2 ^ log2 * 8) [mkWord [(32, 32, e.1), (0, 32, e.2)]]) s

/-- Bridges of a request's ring that are not lost (R358). -/
def State.liveBridges (s : State) (rid : Nat) (t : TokRing) : List Nat :=
  (([t.bridge] ++ (if t.standby = 0 then [] else [t.standby])).dedup).filter (fun b => !(Tbl.at s.str.lost rid []).contains b)

/-- Positions every live bridge has logged (R352). -/
def State.ackedBy (s : State) (rid : Nat) (t : TokRing) : Nat :=
  ((s.liveBridges rid t).map (fun b => Tbl.at s.str.acks (rid, b) t.prompt)).foldl min t.tok |> max t.acked

/-- A command that the Rongar issues on VI 0 (R58). -/
def State.viZero (s : State) (cls op : Nat) (ws : List Nat) : State :=
  let c : Cmd := { vi := 0, cls := cls, fmt := 2, words := mkWord [(44, 4, cls), (36, 8, op)] :: ws, acceptT := s.now, fetchT := s.now, since := s.now }
  { s with work := { s.work with cmds := Tbl.set s.work.cmds s.work.nextCid c, nextCid := s.work.nextCid + 1 } }

/-- RING_OPEN and RING_CLOSE come from VI 0 alone (R352). -/
def ringCheck (c : Cmd) : Option Bad := if c.vi = 0 then none else some (.violation, 0, 3)

/-- RING_OPEN runs: the ring is OPEN and its automaton follows the entries (R352, R355). -/
def execRingOpen (cid : Nat) (s : State) : Out :=
  .next (s.whenLive fun s =>
    match s.running cid 5 1 with
    | none => s
    | some c =>
      let rid := fld c.op 1 47 0
      match Tbl.get s.str.opening rid, s.req rid with
      | some (a, ring), some r =>
        let spec := ring + 64 + 8 * 2 ^ a.spec.ringLog2
        let t : TokRing := { st := 1, log2 := a.spec.ringLog2, req := rid, prompt := a.promptTokens, maxNew := a.spec.maxNew, tok := a.promptTokens, acked := a.promptTokens
                             spec := spec, bridge := a.bridge, standby := a.standby }
        let s1 := ((s.updReq rid (fun r => { r with tokenRing := ring })).setRing { r with tokenRing := ring } t).wrWords spec (autoObject a.spec)
        ({ s1 with str := { s1.str with opening := Tbl.del s1.str.opening rid } } : State).finish cid .ok 0
      | _, _ => s.finish cid .requestMoved 0)

/-! ### The end of a request at its holder (R364) -/

/-- Once every committed output token is logged at the bridges, STREAM_DONE goes to the home and RING_CLOSE is issued on VI 0 (R364; log 18). -/
def State.maybeDone (s : State) (rid : Nat) : State :=
  match s.req rid with
  | none => s
  | some r =>
    let t := s.tokRing r
    if t.st ≠ 2 ∨ t.acked < t.tok ∨ s.str.done_.contains rid then s
    else
      let gone := (Tbl.at s.led.books (qTokens, rid) {}).states.getD 3 0
      let s1 : State := { s with str := { s.str with done_ := s.str.done_ ++ [rid] } }
      (s1.tell (dirMsg (s.homeOf rid) 0x23 rid r.holdEpoch r.mapEpoch [t.tok, t.tok - t.prompt, gone, t.reason] [])).viZero 5 3 [rid]

/-- A stop is known at the home: its entry is STOPPED, or the home is told (R22, R364; log 12). -/
def State.stopped (s : State) (rid : Nat) (r : Req) : State :=
  match s.entry rid with
  | some e => if e.here && [DirState.prefill, .protected_, .decoding].contains e.st then s.commitEntry rid { e with st := .stopped, stateTime := s.now } [] else s
  | none => s.tell (dirMsg (s.homeOf rid) 0 rid r.holdEpoch r.mapEpoch [6] [])

/-- The blocks of a request on this node, by the descriptors of claimed slots. -/
def State.ownedBlocks (s : State) (rid : Nat) : List Nat := (s.tier.owners.map (·.1)).filter (fun da => (s.desc da).req == rid)

/-- Frees a request's blocks, protection and shard map on this node (R28, R112, R429). -/
def State.freeAll (s : State) (rid : Nat) : State :=
  let s1 := (s.ownedBlocks rid).foldl State.freeOrWait s
  let par := (s1.prot.shards.filter (fun x => x.1.1 == rid && (s1.pdesc x.2).req == rid && ((s1.arenaOf x.2).map (·.parity)).getD false)).map (·.2)
  let s2 := par.foldl (fun (t : State) da => let u := (t.wrWords da (List.replicate 8 0)).bookSlot da 3 0
                                             { u with tier := { u.tier with owners := Tbl.del u.tier.owners da } }) s1
  { s2 with prot := { s2.prot with shards := s2.prot.shards.filter (fun x => x.1.1 != rid), copies := s2.prot.copies.filter (fun x => x.1.1 != rid)
                                   sealings := s2.prot.sealings.filter (fun x => x.1.1 != rid), needs := s2.prot.needs.filter (fun x => x.1 != rid) } }

/-- RING_CLOSE runs: the ring is CLOSED; the record is freed, and the blocks with it unless the request is HELD (R22, R28, R89, R364). `held` is
the home's answer where the home is another node (log 18). -/
def execRingClose (cid : Nat) (held : Bool) (s : State) : Out :=
  .next (s.whenLive fun s =>
    match s.running cid 5 3 with
    | none => s
    | some c =>
      let rid := fld c.op 1 47 0
      match s.req rid with
      | none => s.finish cid .requestMoved 0
      | some r =>
        let keep := ((s.entry rid).map (fun e => e.st == .held)).getD held
        let s1 := s.setRing r { s.tokRing r with st := 0 }
        let s2 := (if keep then s1 else (s1.freeBlocks rid r).freeAll rid).freeReq rid
        let s3 : State := { s2 with str := { s2.str with
          lost := Tbl.del s2.str.lost rid, marks := Tbl.del s2.str.marks rid, acks := s2.str.acks.filter (fun a => a.1.1 != rid)
          done_ := s2.str.done_.filter (· != rid) } }
        s3.finish cid .ok 0)

/-! ### COMMIT (R106, R107, R356 to R358, R366) -/

/-- The check of COMMIT before dispatch (R10, R65, R118, R357). -/
def State.commitCheck (s : State) (c : Cmd) : Option Bad :=
  let w := c.op
  let n := fld w 2 31 25
  let ep := fld w 4 63 32
  (firstOf [
    (decide (65 < n) || !allZero w [(2, 24, 0), (4, 31, 0), (5, 63, 0), (6, 63, 0), (7, 31, 0)], badField),
    (word w 3 % 64 != 0 || (n == 0 && word w 3 != 0), badField)]).orElse fun _ =>
  match s.req (fld w 1 47 0) with
  | none => some (.requestMoved, 0, 0)
  | some r => firstOf [
      (!s.covers c.vi (word w 3) (4 * n) rRd, badRegion (word w 3)), (!s.coversComp c.vi r.composition, (.violation, 0, 3)),
      (ep != 0 && decide (ep < r.holdEpoch), (.staleEpoch, 0, 0)), (ep != 0 && decide (r.holdEpoch < ep), (.requestMoved, 0, 0))]

/-- What stepping the stop rules over some ids gives: the ids kept, the stop as position, reason, sequence and length, the automaton's state and
depth, and the steps made (R356). -/
structure Stepped where
  kept : List Nat := []
  stop : Option (Nat × Nat × Nat × Nat) := none
  mstate : Nat := 0
  mdepth : Nat := 0
  steps : Nat := 0

/-- Steps the stop rules over ids in position order; ids past a stop are dropped (R356, R358 step 1). -/
def State.stepStops (s : State) (t : TokRing) (limit : Nat) (ids : List Nat) : Stepped :=
  let hdr := s.rdWords t.spec 3
  let eos := [fld hdr 1 63 32, fld hdr 1 31 0, fld hdr 2 63 32, fld hdr 2 31 0]
  (ids.mapIdx (fun i x => (t.tok + i, x))).foldl (fun (acc : Stepped) e =>
    if acc.stop.isSome then acc else
      let st := s.autoStep t.spec 66 acc.mstate e.2
      let (depth, out) := s.autoState t.spec st
      let stop :=
        if eos.contains e.2 then some (e.1, 1, 0, 1)
        else if out ≠ 0 then some (e.1, 2, out - 1, (((trieOutLen s t.spec st)).getD 0))
        else if e.1 = t.prompt + t.maxNew - 1 then some (e.1, 3, 0, 0)
        else if e.1 = limit - 1 then some (e.1, 4, 0, 0) else none
      { kept := acc.kept ++ [e.2], stop := stop, mstate := st, mdepth := depth, steps := acc.steps + 1 })
    { mstate := t.mstate, mdepth := t.mdepth }
where
  /-- The length of the sequence a state names: the depth of the first state on its failure chain that names it and whose failure state does
  not. -/
  trieOutLen (s : State) (a st : Nat) : Option Nat :=
    let out := (s.autoState a st).2
    let chain := (List.range 65).foldl (fun (acc : List Nat) _ => acc ++ [fld (s.rdWords (a + 64 + 16 * acc.getLastD st) 1) 0 15 0]) [st]
    ((chain.filter (fun x => (s.autoState a x).2 == out)).getLast?).map (fun x => (s.autoState a x).1)

/-- Whether rows below a count are valid in every layer and head (R106). -/
def State.rowsThere (s : State) (r : Req) (c : Nat) : Bool :=
  (s.geom r).heads.all (fun lh => (List.range (ceilDiv c 64)).all (fun b =>
    let da := s.mapEntry r lh.1 lh.2 b
    da != 0 && (addrNode da != s.node || decide (min 64 (c - 64 * b) ≤ (s.desc da).valid))))

/-- The committed rows a block has at a count. -/
def rowsAt (c base : Nat) : Nat := min 64 (c - base)

/-- The first block with a newly committed row that cannot be read for sealing (R100, R229). -/
def State.sealFault (s : State) (rid : Nat) (r : Req) (c : Nat) : Option Nat :=
  ((s.blocks r).find? (fun e => s.ownBlock rid e.2 && decide ((s.desc e.2).committed < rowsAt c (s.desc e.2).base) &&
    (s.readFault (s.desc e.2).slot (inUse (s.desc e.2).repr (dimOf (s.desc e.2).dim))).isSome)).map (·.2)

/-- R107, steps 1 to 3: newly committed rows are sealed and enter the reservoirs, rows past the count are dropped, and the record's count
rises. -/
def State.commitRows (s : State) (rid : Nat) (r : Req) (c : Nat) : State :=
  let s1 := (s.blocks r).foldl (fun (t : State) e =>
    let da := e.2
    if !t.ownBlock rid da then t else
      let d := t.desc da
      let n := rowsAt c d.base
      let t1 := if d.committed < n then
          (let u := (t.sealRows da n).sealTees da n
           if d.committed = 0 then u.bookSlot da 1 2 else u) else t
      let d1 := t1.desc da
      (t1.setDesc da { d1 with valid := d1.committed }).dropTees da d1.committed) s
  s1.updReq rid (fun r => { r with committed := c })

/-- In an unprotected composition a block that has become FULL is copied once to its cache member, under `stripe_id` 0 (R452). -/
def State.copyOnce (s : State) (rid : Nat) (r : Req) (old : Nat) : State :=
  if (s.mapOf r).protection ≠ .none then s else
    (s.blocks r).foldl (fun t e =>
      let d := s.desc e.2
      if s.ownBlock rid e.2 && d.committed == 64 && decide (rowsAt old d.base < 64) then
        match s.served r rid (stripeOf (s.geom r) .none e.1.1 e.1.2.1 e.1.2.2).1 0 with
        | some n => t.tell (s.rowPutMsg rid e.1.1 e.1.2.1 e.1.2.2 0 64 n r)
        | none => t
      else t) s

/-- A prompt node whose prefill is committed and whose protection is complete: the home's entry is PROTECTED, where this node is the home, or
the home is told (R22, R25; log 12). -/
def State.markProtected (s : State) (rid : Nat) : State :=
  match s.req rid with
  | none => s
  | some r =>
    if r.committed < r.promptTokens ∨ r.promptTokens < r.committed ∨ s.prot.writes.any (fun w => w.2.req == rid && !w.2.awaited.isEmpty) then s else
    match s.entry rid with
    | some e =>
      if e.here && e.st == .prefill && e.holder == s.node then
        ({ s with str := { s.str with bridges := Tbl.upd s.str.bridges rid (fun b => { b with need := 0 }) } } : State).commitEntry rid { e with st := .protected_, stateTime := s.now } []
      else s
    | none => s.tell (dirMsg (s.homeOf rid) 0 rid r.holdEpoch r.mapEpoch [3] [])

/-- Acknowledged tokens leave the ring for the first live bridge (R366, R449). -/
def State.tokensOut (s : State) (rid : Nat) (t : TokRing) (n : Nat) : State :=
  match (s.liveBridges rid t).head? with
  | some b => if b = s.node ∨ n = 0 then s else s.transitOut b qTokens n
  | none => s

/-- R358, steps 4 and 5, in one completion step with R107: counts, ids, ring, stop, TOKEN_COMMIT, and the completion record. -/
def State.completeCommit (s : State) (cid : Nat) (x : CommitRun) : State :=
  let s0 : State := { s with str := { s.str with commits := Tbl.del s.str.commits cid } }
  match s0.req x.req with
  | none => s0.finishNow cid .requestMoved 0
  | some r =>
    let t := s0.tokRing r
    if t.st = 2 then s0.finishNow cid .requestStopped 0
    else
      let s1 := (s0.commitRows x.req r x.c).copyOnce x.req r r.committed
      let n := x.ids.length
      let t1 := { t with tok := t.tok + n, mstate := x.mstate, mdepth := x.mdepth }
      let t2 := if x.reason = 0 then t1 else { t1 with st := 2, stopPos := x.stopPos, reason := x.reason, stopSeq := x.stopSeq, stopLen := x.stopLen }
      let t3 := { t2 with acked := s1.ackedBy x.req t2 }
      let s2 := (s1.enterIds r t.log2 x.first x.ids).setRing r t3
      let s3 := (s2.bookNew qTokens x.req 0 (t3.tok - max t3.acked t.tok)).tokensOut x.req t3 (max t3.acked t.tok - t.tok)
      let s4 : State := { s3 with str := { s3.str with marks := Tbl.updD s3.str.marks x.req [] (fun l => (s.now, t3.tok) :: l) } }
      let s5 := (s4.liveBridges x.req t3).foldl (fun u b => u.tell { dst := b, tc := s.tra.classes.getD 0 6, code := 0x22, req := x.req, epoch := r.holdEpoch, mapEpoch := r.mapEpoch
                                                                     fields := [t3.tok, t3.stopPos, t3.reason, t3.stopSeq, t3.stopLen, s.now] }) s4
      let s6 := if x.reason = 0 then s5 else s5.stopped x.req r
      let s7 := (s6.note cid [(0x0401, n), (0x0402, x.dropped), (0x0403, n + x.dropped), (0x0404, s.now - x.sentAt)] 0 0 n x.dropped).finishNow cid .ok
        (mkWord [(32, 32, n), (28, 4, x.reason)])
      (s7.maybeDone x.req).markProtected x.req

/-- A COMMIT goes on once every bridge and every OPEN copy it waits for has answered (R358 step 3, R432). -/
def State.commitOn (s : State) (cid : Nat) : State :=
  match Tbl.get s.str.commits cid with
  | none => s
  | some x => if !x.awaited.isEmpty || s.protWaiting cid then s else s.completeCommit cid x

/-- COMMIT runs: R106's checks, the stop rules, TOKEN_PUSH to the live bridges, ROW_PUT to the OPEN copies, and, once what it must wait for has
answered, its completion step (R106, R107, R353, R356 to R358, R432). -/
def execCommit (cid : Nat) (s : State) : Out :=
  .next (s.whenLive fun s =>
    match s.running cid 5 2 with
    | none => s
    | some c =>
      if Tbl.has s.str.commits cid then s.commitOn cid else
      let w := c.op
      let rid := fld w 1 47 0
      match s.req rid with
      | none => s.finish cid .requestMoved 0
      | some r =>
        let t := s.tokRing r
        let n := fld w 2 31 25
        let c0 := fld w 2 63 32
        let want := if r.promptTokens ≤ c0 then c0 + 1 - t.tok else 0
        let ids := (chunks 4 n (s.rd (word w 3) (4 * n))).map valOf
        if t.st = 2 then s.finish cid .requestStopped 0
        else if c0 < r.committed ∨ r.limit < c0 ∨ n ≠ want ∨ (r.promptTokens ≤ c0 ∧ c0 + 1 < t.tok) ∨ ids.contains 0xFFFFFFFF then s.finish cid .invalidField 0
        else if (s.readFault (word w 3) (4 * n)).isSome then s.finish cid .memUncorrectable 0
        else if !s.rowsThere r c0 then s.finish cid .rowsMissing 0
        else if 2 ^ t.log2 < t.tok + n - t.acked then s.finish cid .retryRingFull 0
        else
          let q := s.stepStops t r.limit ids
          let stop := q.stop.getD (0xFFFFFFFF, 0, 0, 0)
          let c1 := if q.stop.isSome then min c0 (stop.1 + 1) else c0
          match s.sealFault rid r c1 with
          | some da => (s.planeFail da 1).finish cid .planeCheck 0
          | none =>
            let live := s.liveBridges rid t
            let prot := (s.mapOf r).protection != .none
            if prot && live.isEmpty && !q.kept.isEmpty then (s.failRead rid .targetDead).finish cid .targetDead 0
            else
              let x : CommitRun := { req := rid, c := c1, first := t.tok, ids := q.kept, stopPos := stop.1, reason := stop.2.1, stopSeq := stop.2.2.1, stopLen := stop.2.2.2
                                     mstate := q.mstate, mdepth := q.mdepth, dropped := n - q.kept.length, awaited := if prot && !q.kept.isEmpty then live else [], sentAt := s.now }
              let s1 : State := { s with str := { s.str with commits := Tbl.set s.str.commits cid x } }
              let s2 := if q.kept.isEmpty then s1 else live.foldl (fun u b => u.tell {
                dst := b, tc := s.tra.classes.getD 0 6, code := 0x20, req := rid, epoch := r.holdEpoch, mapEpoch := r.mapEpoch, fields := [t.tok, q.kept.length]
                tail := q.kept.flatMap (bytesOf 4) }) s1
              let s3 := if prot then (s.blocks r).foldl (fun u e =>
                  let d := s.desc e.2
                  if s.ownBlock rid e.2 && decide (d.committed < rowsAt c1 d.base) then u.putRows cid rid e.1.1 e.1.2.1 e.1.2.2 (rowsAt c1 d.base) r else u) s2 else s2
              s3.commitOn cid)

/-- A bridge's acknowledgement at the holder: `acked` follows what every live bridge has logged, and COMMITs that waited for it go on (R358,
R366). -/
def execTokenAck (h : MsgHdr) (first n : Nat) (s : State) : Out :=
  .next (s.whenLive fun s =>
    match s.req h.req with
    | none => s
    | some r =>
      if h.ver ≠ 1 ∨ h.epoch < r.holdEpoch then s else
      let key := (h.req, h.src)
      let s1 : State := { s with str := { s.str with
        acks := Tbl.set s.str.acks key (max (Tbl.at s.str.acks key 0) (first + n))
        commits := Tbl.mapVals s.str.commits (fun _ x => if x.req = h.req ∧ x.first = first then { x with awaited := x.awaited.filter (· ≠ h.src) } else x) } }
      let t := s1.tokRing r
      let a := min t.tok (s1.ackedBy h.req t)
      let s2 := ((s1.setRing r { t with acked := a }).bookEnd qTokens h.req 0 (a - t.acked)).tokensOut h.req t (a - t.acked)
      let s3 := (s2.str.commits.filter (fun x => x.2.req == h.req)).foldl (fun u x => u.commitOn x.1) s2
      s3.maybeDone h.req)

/-- A bridge that has not acknowledged within `dead_bound` is lost for the request; with none left the COMMIT and the request end with
ST_TARGET_DEAD (R358 step 3). -/
def execTokenAckTimeout (cid bridge : Nat) (s : State) : Out :=
  .next (s.whenLive fun s =>
    match Tbl.get s.str.commits cid with
    | none => s
    | some x =>
      if !x.awaited.contains bridge ∨ s.now < x.sentAt + s.fab.deadBound then s else
      let s1 : State := { s with str := { s.str with
        lost := Tbl.updD s.str.lost x.req [] (fun l => (l ++ [bridge]).dedup)
        commits := Tbl.set s.str.commits cid { x with awaited := x.awaited.filter (· ≠ bridge) } } }
      match s1.req x.req with
      | none => s1
      | some r =>
        if (s1.liveBridges x.req (s1.tokRing r)).isEmpty then
          let s2 : State := { s1 with str := { s1.str with commits := Tbl.del s1.str.commits cid } }
          (s2.failRead x.req .targetDead).finish cid .targetDead 0
        else s1.commitOn cid)

/-! ### The bridges (R351, R358 to R362) -/

/-- The request at a bridge. -/
def State.bridgeReq (s : State) (rid : Nat) : Option BridgeReq := Tbl.get s.str.bridges rid
/-- Stores it. -/
def State.setBridge (s : State) (rid : Nat) (b : BridgeReq) : State := { s with str := { s.str with bridges := Tbl.set s.str.bridges rid b } }

/-- The fabric address by which a host address of a VI's endpoint is reached (R271, R359); the endpoint is the first the VI is bound to on this
node (log 19). -/
def State.hostAddr (s : State) (vi a : Nat) : Option Nat :=
  ((s.vi vi).rights.sources.find? (fun x => x.1 == s.node)).map (fun x => mkAddr s.node 1 (2 ^ 47 + x.2 * 2 ^ 42 + a % 2 ^ 42))

/-- Writes one line of host memory (R359). -/
def State.hostLine (s : State) (vi a : Nat) (flag : Bool) (ws : List Nat) (key : Nat) : State :=
  match s.hostAddr vi a with
  | none => s
  | some fa => s.sendReq { ty := if flag then .storeFlag else .store, dst := s.node, srcVi := vi, srcEp := 63, addr := fa, winId := 0xFFF, operand := 2 ^ 64 - 1
                           payloadLen := 64, payload := padTo 64 (bytesOfWords ws) : Packet } (.hub (if flag then 3 else 5) key) none

/-- The depth of the automaton after the output ids up to a position (R360). -/
def BridgeReq.depthAt (b : BridgeReq) (pos : Nat) : Nat :=
  let st := trieStates b.spec.seqs
  (((b.log.take (pos + 1)).drop b.promptTokens).foldl (fun (p : List Nat) x =>
    let q := p ++ [x]
    (((List.range (q.length + 1)).map (fun n => q.drop n)).find? (fun r => st.contains r)).getD []) []).length

/-- Writes a token record, then the tail line (R359, R360); `false` where the stream is not configured or has no room. -/
def State.tokenRecord (s : State) (rid : Nat) (b : BridgeReq) (reason n status : Nat) (ids : List Nat) : Bool × State :=
  match Tbl.get s.str.streams (b.vi, b.spec.stream) with
  | none => (false, s)
  | some c =>
    let head := word (s.rdWords c.head 1) 0
    let k := (b.vi, b.spec.stream)
    if 2 ^ c.recLog2 ≤ sub64 c.written head then
      (false, { s with str := { s.str with streams := Tbl.set s.str.streams k { c with blockedAt := c.blockedAt.orElse (fun _ => some s.now) } } })
    else
      let first := b.promptTokens + b.sent
      let pair := fun i => mkWord [(0, 32, ids.getD (2 * i) 0), (32, 32, ids.getD (2 * i + 1) 0)]
      let body := if reason = 7 then [ids.getD 0 0, 0, 0, 0] else [pair 0, pair 1, pair 2, pair 3]
      let rec_ := sealWords ([mkWord [(60, 4, reason), (56, 4, n), (48, 8, if reason = 0 then 0 else b.stopLen), (0, 48, rid)], mkWord [(32, 32, b.tag), (0, 32, first)],
        mkWord [(48, 16, if n = 0 then 0 else b.depthAt (first + n - 1)), (32, 16, status), (0, 32, b.sent + n)]] ++ body)
      let s1 := s.hostLine b.vi (c.recBase + c.written % 2 ^ c.recLog2 * 64) false rec_ 0
      let s2 := s1.hostLine b.vi c.tail true [u64 (c.written + 1)] s1.str.nextFlag
      (true, { s2 with str := { s2.str with
        streams := Tbl.set s2.str.streams k { c with written := c.written + 1, blockedAt := none, blockedTold := false }
        flags := Tbl.set s2.str.flags s2.str.nextFlag (rid, n, b.composition), nextFlag := s2.str.nextFlag + 1 } })

/-- Output tokens that may be written: those final, and while a cancel is with the home only those committed before it was submitted (R363). -/
def BridgeReq.writable (b : BridgeReq) : Nat :=
  let final := b.log.length - b.promptTokens
  match b.cancelAt with
  | some t => if b.reason ≠ 0 then final else min final (((b.marks.filter (fun m => decide (m.2 < t))).map (fun m => m.1 - b.promptTokens)).foldl max 0)
  | none => final

/-- Writes the records of a request that are due: eight ids, the flush time, or a stop made final (R361). -/
def pumpBridge (rid : Nat) (flush : Bool) : Nat → State → State
  | 0, s => s
  | k + 1, s =>
    match s.bridgeReq rid with
    | none => s
    | some b =>
      if !b.primary || b.ended then s else
      let waiting := b.writable - b.sent
      let done_ := b.reason != 0 && decide (b.log.length = b.stopPos + 1)
      if waiting < 8 ∧ !(flush && decide (0 < waiting)) ∧ !done_ then s
      else
        let n := min 8 waiting
        let last := done_ && decide (n = waiting)
        match s.tokenRecord rid b (if last then b.reason else 0) n 0 ((b.log.drop (b.promptTokens + b.sent)).take n) with
        | (false, t) => t
        | (true, t) => pumpBridge rid flush k (t.setBridge rid { b with sent := b.sent + n, waitAt := if n = waiting then none else b.waitAt, ended := last })

/-- Writes what is due of a request, at most its whole log. -/
def State.pump (s : State) (rid : Nat) (flush : Bool) : State := pumpBridge rid flush (((s.bridgeReq rid).map (fun b => b.log.length)).getD 0 + 2) s

/-- Makes ids final up to a count, if the bridge has them all; ids past it are discarded, and those already final past it are booked cancelled
(R358, R363, R366, R449). -/
def State.finalIds (s : State) (src rid : Nat) (b : BridgeReq) (tok stopPos reason len time : Nat) : State :=
  let have_ := (List.range (tok - b.log.length)).map (fun i => Tbl.get b.prov (b.log.length + i))
  if have_.any (·.isNone) then s.setBridge rid { b with early := some (tok, stopPos, reason, len, time) }
  else
    let log := if reason = 5 then (b.log ++ have_.filterMap id).take (max tok (b.promptTokens + b.sent)) else b.log ++ have_.filterMap id
    let n := log.length - b.log.length
    let gone := b.log.length - log.length
    let b1 := { b with log := log, early := none, prov := b.prov.filter (fun x => decide (log.length ≤ x.1) && decide (x.1 < tok)), marks := (tok, time) :: b.marks, need := 0
                       stopPos := if reason = 0 then b.stopPos else log.length - 1, reason := if reason = 0 then b.reason else reason, stopLen := if reason = 0 then b.stopLen else len
                       waitAt := if b.waitAt.isNone && decide (0 < n) then some s.now else b.waitAt }
    let s1 := if b.primary then (s.bookNew qTokens rid 1 n).bookMove qTokens rid 1 3 gone else s
    let s1 := if b.primary && src != s.node && n != 0 then s1.transitIn src qTokens n else s1
    (s1.setBridge rid b1).pump rid false

/-- TOKEN_PUSH at a bridge: the ids are provisional and acknowledged; a TOKEN_COMMIT that overtook them is applied (R358). -/
def execTokenPush (h : MsgHdr) (first : Nat) (ids : List Nat) (s : State) : Out :=
  .next (s.whenLive fun s =>
    match s.bridgeReq h.req with
    | none => s
    | some b =>
      if h.ver ≠ 1 ∨ 65 < ids.length then s else
      let b1 := { b with prov := (ids.mapIdx (fun i x => (first + i, x))).foldl (fun p e => Tbl.set p e.1 e.2) b.prov }
      let s1 := (s.setBridge h.req b1).tell { dst := h.src, tc := s.tra.classes.getD 0 6, code := 0x21, req := h.req, epoch := h.epoch, mapEpoch := h.mapEpoch, fields := [first, ids.length] }
      match b1.early with
      | some (tok, sp, rs, ln, tm) => s1.finalIds h.src h.req b1 tok sp rs ln tm
      | none => s1)

/-- TOKEN_COMMIT at a bridge (R358): an older one changes nothing. -/
def execTokenCommit (h : MsgHdr) (tokCount stopPos reason seq len time : Nat) (s : State) : Out :=
  .next (s.whenLive fun s =>
    match s.bridgeReq h.req with
    | none => s
    | some b =>
      let newest := (b.marks.head?).map (fun m => m.2) |>.getD 0
      if h.ver ≠ 1 ∨ (time < newest ∧ reason = 0) ∨ 16 ≤ seq then s else s.finalIds h.src h.req b tokCount stopPos reason len time)

/-- The oldest waiting final id has waited `flush_us`: a record is written. A request that its home has moved to FAILED receives its final record
with reason 6 (R361, R364). -/
def execStreamFlushTimer (req : Nat) (s : State) : Out :=
  .next (s.whenLive fun s =>
    match s.bridgeReq req with
    | none => s
    | some b =>
      let flush := ((Tbl.get s.str.streams (b.vi, b.spec.stream)).map (·.flushNs)).getD 20000
      let s1 := if ((b.waitAt).map (fun t => decide (t + flush ≤ s.now))).getD false then s.pump req true else s
      match (s.entry req).bind (fun e => if e.st = .failed then e.endStatus else none), s1.bridgeReq req with
      | some st, some b1 =>
        if b1.ended || !b1.primary then s1 else
          let s2 := s1.pump req true
          let b2 := (s2.bridgeReq req).getD b1
          let (ok, s3) := s2.tokenRecord req b2 6 0 st.code []
          if ok then s3.setBridge req { b2 with ended := true } else s3
      | _, _ => s1)

/-- A stream blocked for 100 ms: the event is raised once (R359, R368). -/
def execStreamBlockedTimer (vi stream : Nat) (s : State) : Out :=
  .next (s.whenLive fun s =>
    match Tbl.get s.str.streams (vi, stream) with
    | none => s
    | some c =>
      if c.blockedTold ∨ !((c.blockedAt.map (fun t => decide (t + 100000000 ≤ s.now))).getD false) then s else
        let mine := s.str.bridges.filter (fun b => b.2.vi == vi && b.2.spec.stream == stream && b.2.primary)
        let waiting := (mine.map (fun b => ceilDiv (b.2.writable - b.2.sent) 8)).sum
        let transit := (mine.map (fun b => (Tbl.at s.led.books (qTokens, b.1) {}).states.getD 1 0)).sum
        ({ s with str := { s.str with streams := Tbl.set s.str.streams (vi, stream) { c with blockedTold := true } } } : State).raise .streamBlocked s.hubDie 0
          [vi, stream, waiting, transit] [vi])

/-- A standby takes over the requests whose primary is lost, from the `tok_total` of the last record and the tail it reads through its own
aperture (R362); both are operands. -/
def execBridgeTakeover (lost : Nat) (totals : List (Nat × Nat)) (tails : List (Nat × Nat × Nat)) (s : State) : Out :=
  .next (s.whenLive fun s =>
    let mine := (s.str.bridges.filter (fun b => b.2.bridge == lost && b.2.standby == s.node && !b.2.primary)).map (·.1)
    if mine.isEmpty || lost == s.node || !(s.unreachable lost) then s else
      let total := fun rid => ((totals.find? (fun x => x.1 == rid)).map (·.2)).getD 0
      let s1 := tails.foldl (fun (t : State) x => { t with str := { t.str with streams := Tbl.upd t.str.streams (x.1, x.2.1) (fun c => { c with written := x.2.2 }) } }) s
      let s2 := mine.foldl (fun (t : State) rid => match t.bridgeReq rid with
        | none => t
        | some b => (t.setBridge rid { b with primary := true, bridge := s.node, standby := 0, sent := total rid, waitAt := some s.now }).bookNew qTokens rid 1
            (b.log.length - b.promptTokens - total rid)) s1
      (mine.foldl (fun t rid => t.pump rid true) s2).raise0 .bridgeTakeover s.hubDie 0 ([lost, mine.length] ++ mine.map total))

/-! ### Retirement and the prefix (R28, R109, R112, R364) -/

/-- The prefix digest of a log over its first p ids (R109). -/
def prefixDigest (ids : List Nat) : List Byte := sha512 (ids.flatMap (bytesOf 4))
/-- The handle of a held request: its id, and the low 16 bits of the digest, read little-endian as other fields are (R7, R109; log 20). -/
def handleOf (rid : Nat) (digest : List Byte) : Nat := mkWord [(16, 48, rid), (0, 16, valOf (digest.take 2))]

/-- A request that ends gives up the prefix it was attached to; a handle kept at another home is told so (R111; log 12). -/
def State.detach (s : State) (rid : Nat) : State :=
  match Tbl.get s.kv.attached rid with
  | none => s
  | some h =>
    let s1 : State := { s with kv := { s.kv with attached := Tbl.del s.kv.attached rid } }
    if !(Tbl.has s.kv.handles h) then s1.tell (dirMsg (s.homeOf (h / 2 ^ 16)) 0 rid 0 0 [7, h] [])
    else { s1 with kv := { s1.kv with handles := Tbl.upd s1.kv.handles h (fun x => { x with users := x.users - 1 }) }
                   own := { s1.own with dir := Tbl.upd s1.own.dir (h / 2 ^ 16) (fun e => { e with users := e.users - 1 }) } }

/-- STREAM_DONE at the home: the request is RETIRED, and its entry gone, or HELD under a handle, whose record goes to the client's stream when
this node is its bridge (R22, R23, R28, R109, R364). `digest` is the prefix digest as the primary bridge sends it. -/
def execStreamDone (h : MsgHdr) (tokCount delivered cancelled reason : Nat) (digest : List Byte) (s : State) : Out :=
  .next (s.whenLive fun s => s.atHome h 0x23 fun e =>
    if h.src ≠ e.holder ∨ h.epoch ≠ e.epoch then s.refuse h 0x23 .staleEpoch
    else if !(([.prefill, .protected_, .decoding, .stopped] : List DirState).contains e.st) ∨ 6 ≤ reason ∨ tokCount < delivered + cancelled then s
    else
      let s1 := s.detach h.req
      if e.keep = 0 then
        let s2 := s1.bookReq e 4 6
        ({ s2 with own := { s2.own with dir := Tbl.del s2.own.dir h.req }, str := { s2.str with bridges := s2.str.bridges.filter (fun b => !(b.1 == h.req && b.2.ended)) } } : State)
      else
        let b := s1.bridgeReq h.req
        let p := (b.map (fun b => b.log.length)).getD tokCount
        let p := min p tokCount
        let dg := (b.map (fun b => prefixDigest (b.log.take p))).getD digest
        let hd := handleOf h.req dg
        let x : PrefixHandle := { req := h.req, tokens := p, digest := dg, composition := e.composition, model := ((s.comp e.composition).mapAt e.mapEpoch).model
                                  expiry := s.now + 1000000000 * e.keep }
        let s2 : State := { s1 with kv := { s1.kv with handles := Tbl.set s1.kv.handles hd x } }
        let (e2, s2) := s2.newReceipt h.req { e with st := .held, holder := 0, prevHolder := e.holder, stateTime := s.now } 3 e.holder s.node p 0 (sha512 [])
        let s3 := (s2.commitEntry h.req e2 []).bookReq e 4 6
        match s3.bridgeReq h.req with
        | some b => if b.primary then ((s3.pump h.req true).tokenRecord h.req ((((s3.pump h.req true).bridgeReq h.req).getD b)) 7 0 0 [hd]).2 else s3
        | none => s3)

/-- A handle's retention has expired: it is presented no more (R112). -/
def execPrefixRetentionExpiry (handle : Nat) (s : State) : Out :=
  .next (s.whenLive fun s =>
    match Tbl.get s.kv.handles handle with
    | none => s
    | some h => if s.now < h.expiry then s else { s with kv := { s.kv with handles := Tbl.set s.kv.handles handle { h with released := true } } })

/-- A released or expired handle without users: its blocks, protection and receipts are freed, its entry and its bridge's log with them (R28,
R112, R351). At a node that is not the request's home the command is the home's decision as it arrives there (log 57). -/
def execPrefixBlocksFree (handle : Nat) (s : State) : Out :=
  .next (s.whenLive fun s =>
    match Tbl.get s.kv.handles handle with
    | none => if reqHome (handle / 2 ^ 16) = s.node then s else s.freeAll (handle / 2 ^ 16)
    | some h =>
      if (!h.released && decide (s.now < h.expiry)) || decide (0 < h.users) then s else
        let s1 := s.freeAll h.req
        { s1 with kv := { s1.kv with handles := Tbl.del s1.kv.handles handle }, own := { s1.own with dir := Tbl.del s1.own.dir h.req }
                  str := { s1.str with bridges := Tbl.del s1.str.bridges h.req } })

end Sys2Proof.Machine
end

