-- ==== Sys2Proof/Machine/Prot.lean ====
section
/-! DEFINITION. Protection commands: OPEN copies, sealing, parity deltas, stragglers, members down and regrow (R425 to R442), and the Codec's
EC_ENCODE and CHECK (R438, R439). -/

namespace Sys2Proof.Machine
open Sys2Proof

/-! ### OPEN copies (R432, R433) -/

/-- The ranges of a row in the order ROW_PUT carries its bytes: those of `crc_a`, then those of `crc_b`. -/
def rowRanges (repr d t : Nat) : List (Nat × Nat) := rowA repr d t ++ rowB repr d t

/-- Writes runs of bytes to ranges of a slot. -/
def State.scatter (s : State) (slot : Nat) : List (Nat × Nat) → List Byte → State
  | [], _ => s
  | r :: rs, bs => (s.store (slot + r.1) (bs.take r.2)).scatter slot rs (bs.drop r.2)

/-- The slot of an OPEN copy a member keeps, claimed on its first ROW_PUT (R54, R97, R427, R432). -/
def State.copySlot (s : State) (h : MsgHdr) (l hd b comp repr kVer vVer : Nat) : Option (Nat × State) :=
  match Tbl.get s.prot.copies (h.req, l, hd, b) with
  | some da => some (da, s)
  | none =>
    match (s.ctxFor comp).map (fun c => (s.ctx c).f) with
    | none => none
    | some f =>
      let m := s.compMap comp h.mapEpoch
      let (sigma, i) := stripeOf f m.protection l hd b
      match (s.dieFor l hd).bind (fun die => s.freeSlot 1 die f.headDim) with
      | none => none
      | some da =>
        if f.layers ≤ l ∨ f.kvHeads ≤ hd ∨ (s.claimFault 0 comp 1 (newCharge 1 repr f.headDim)).isSome then none
        else
          let mine := s.servedAt m comp h.req sigma i == some s.node || (m.protection == .replica && s.servedAt m comp h.req sigma 1 == some s.node)
          let d : Desc := { slot := (s.slotAddr da).getD 0, req := h.req, head := hd, dim := dimCode f.headDim, base := 64 * b, layer := l, repr := repr, st := dOpen
                            kVer := kVer, vVer := vVer, epoch := h.epoch, holder := s.node, shard := i, stripe := if m.protection = .none then 0 else sigma + 1 }
          let s1 := ((s.claimSlot da 0 comp 1).setDesc da d).descRefs da true
          some (da, { s1 with prot := { s1.prot with copies := Tbl.set s1.prot.copies (h.req, l, hd, b) da
                                                     shards := if mine && m.protection != .none then Tbl.set s1.prot.shards (h.req, sigma + 1) da else s1.prot.shards } })

/-- ROW_PUT at an OPEN copy: rows that follow those it has are appended and sealed, and it answers with its count and check values; a data copy
that becomes FULL reports SHARD_FULL to the member at position k (R432, R433, R507). A copy without room for a slot does not answer. The
descriptor's representation and versions are operands (log 21). -/
def execRowPut (h : MsgHdr) (layer head block first n comp repr kVer vVer : Nat) (rows : List Byte) (s : State) : Out :=
  .next (s.whenLive fun s =>
    if h.ver ≠ 1 ∨ n = 0 ∨ 64 < first + n ∨ 2 < repr then s else
    match s.copySlot h layer head block comp repr kVer vVer with
    | none => s
    | some (da, s1) =>
      let d := s1.desc da
      let s2 := if first ≠ d.committed ∨ h.epoch < d.epoch then s1 else
        let dd := dimOf d.dim
        let ranges := (List.range n).flatMap (fun i => rowRanges d.repr dd (first + i))
        let t := (s1.scatter d.slot ranges rows).setDesc da { d with valid := first + n, epoch := max d.epoch h.epoch }
        let u := t.sealRows da (first + n)
        if first = 0 then u.bookSlot da 1 2 else u
      let e := s2.desc da
      let s3 := s2.tell { dst := h.src, tc := s.tra.classes.getD 2 4, code := 0x41, req := h.req, epoch := h.epoch, mapEpoch := h.mapEpoch
                          fields := [layer, head, block, e.committed, e.crcA, e.crcB] }
      let m := s.compMap comp h.mapEpoch
      match m.protection with
      | .ec k _ =>
        if e.committed = 64 ∧ d.committed < 64 ∧ Tbl.get s3.prot.shards (h.req, e.stripe) = some da then
          match s.servedAt m comp h.req (e.stripe - 1) k with
          | some p => s3.tell { dst := p, tc := s.tra.classes.getD 3 1, code := 0x42, req := h.req, epoch := h.epoch, mapEpoch := h.mapEpoch
                                fields := [e.stripe, e.shard, e.crcA, e.crcB] }
          | none => s3
        else s3
      | _ => s3)

/-- Protection writes without anyone awaited are done, and commands that waited for them go on (R434). -/
def State.settleWrites (s : State) : State :=
  let over_ := s.prot.writes.filter (fun w => w.2.awaited.isEmpty)
  let s1 : State := { s with prot := { s.prot with writes := s.prot.writes.filter (fun w => !w.2.awaited.isEmpty) } }
  over_.foldl (fun t w => ((w.2.cid.map t.commitOn).getD t).markProtected w.2.req) s1

/-- A member has acknowledged a protection write. -/
def State.ackWrite (s : State) (id member : Nat) : State :=
  ({ s with prot := { s.prot with writes := Tbl.upd s.prot.writes id (fun w => { w with awaited := w.awaited.filter (· ≠ member) }) } } : State).settleWrites

/-- ROW_ACK at the writer: matching values acknowledge the write; else the rows are sent again from the copy's count (R432). -/
def execRowAck (h : MsgHdr) (layer head block count crcA crcB : Nat) (s : State) : Out :=
  .next (s.whenLive fun s =>
    if h.ver ≠ 1 then s else
    match s.prot.writes.find? (fun w => (w.2.kind == 1 || w.2.kind == 4) && w.2.req == h.req && w.2.fields.take 3 == [layer, head, block] && w.2.awaited.contains h.src) with
    | none => s
    | some (id, w) =>
      let n := word w.fields 4
      if count = n ∧ crcA = word w.fields 5 ∧ crcB = word w.fields 6 then s.ackWrite id h.src
      else match s.req h.req with
        | some r => if count < n then s.tell (s.rowPutMsg h.req layer head block count n h.src r) else s
        | none => s)

/-- Bytes of ranges of a slot's image. -/
def bytesAt (bs : List Byte) (rs : List (Nat × Nat)) : List Byte := rs.flatMap (fun r => (bs.drop r.1).take r.2)

/-- Whether a block's image gives its descriptor's check values over its committed rows (R99). -/
def imageOk (d : Desc) (bs : List Byte) : Bool :=
  let dd := dimOf d.dim
  let run := fun (f : Nat → List (Nat × Nat)) => crc64 ((List.range d.committed).flatMap (fun t => bytesAt bs (f t)))
  run (rowA d.repr dd) == d.crcA && (d.repr != 1 || run (rowB d.repr dd) == d.crcB)

/-- Whether eight words are a descriptor of a data shard that verifies with the image read. -/
def shardOk (ws : List Nat) (bs : List Byte) : Bool := word ws 7 == crc64 (bytesOfWords (ws.take 7)) && imageOk (Desc.ofWords ws) bs

/-- The data positions of a stripe that hold a shard (R427). -/
def shardsIn (f : CtxFields) (k sigma : Nat) : List Nat :=
  let lh := f.layers * f.kvHeads
  let g := ceilDiv lh (max 1 k)
  (List.range k).filter (fun j => decide (sigma % max 1 g * k + j < lh))

/-- Frees the OPEN copies that this member kept of a stripe it has sealed (R433, step 4). -/
def State.freeCopies (s : State) (rid stripe : Nat) : State :=
  let mine := (s.prot.copies.filter (fun c => c.1.1 == rid && (s.desc c.2).stripe == stripe && Tbl.get s.prot.shards (rid, stripe) != some c.2)).map (·.2)
  let s1 := mine.foldl State.freeOrWait s
  { s1 with prot := { s1.prot with copies := s1.prot.copies.filter (fun c => !mine.contains c.2), sealings := Tbl.del s1.prot.sealings (rid, stripe) } }

/-- SHARD_FULL at the member of parity position k: once every data shard of the stripe has reported, the shards read are verified, P and the
sidecar are written, Q and the sidecar are sent to position k + 1, and the OPEN copies kept here are freed when that is stored (R430, R431,
R433). `shards` is what the reads return: position, descriptor words and bytes. -/
def execShardFull (h : MsgHdr) (stripe index crcA crcB comp : Nat) (shards : List (Nat × List Nat × List Byte)) (s : State) : Out :=
  .next (s.whenLive fun s =>
    let m := s.compMap comp h.mapEpoch
    match m.protection, (s.ctxFor comp).map (fun c => (s.ctx c).f) with
    | .ec k mm, some f =>
      if h.ver ≠ 1 ∨ stripe = 0 ∨ s.servedAt m comp h.req (stripe - 1) k ≠ some s.node then s else
      let key := (h.req, stripe)
      let s1 : State := { s with prot := { s.prot with sealings := Tbl.updD s.prot.sealings key {} (fun x => { x with reported := (x.reported ++ [index]).dedup }) } }
      let all := shardsIn f k (stripe - 1)
      let got := shards.filter (fun x => shardOk x.2.1 x.2.2 && (x.1 != index || ((Desc.ofWords x.2.1).crcA, (Desc.ofWords x.2.1).crcB) == (crcA, crcB)))
      if !(all.all ((Tbl.at s1.prot.sealings key {}).reported.contains)) || !(all.all (fun j => got.any (fun x => x.1 == j))) then s1
      else
        let len := ((got.map (fun x => ceilDiv (inUse (Desc.ofWords x.2.1).repr f.headDim) 64 * 64)).foldl max 0)
        let data := got.map (fun x => (x.1, padTo len (x.2.2.take (inUse (Desc.ofWords x.2.1).repr f.headDim))))
        let side := sidecarBytes ((List.range k).map (fun j => ((got.find? (fun x => x.1 == j)).map (·.2.1)).getD []))
        let epoch := ((got.map (fun x => (Desc.ofWords x.2.1).epoch)).foldl max 0)
        match s1.claimParity h.req stripe k k mm epoch f.headDim comp with
        | none => s1
        | some (da, p, s2) =>
          let s3 := s2.putParity da p (padTo len (parityP data)) side
          match if mm = 2 then s.servedAt m comp h.req (stripe - 1) (k + 1) else none with
          | none => s3.freeCopies h.req stripe
          | some q =>
            let bytes := padTo len (parityQ data)
            let w : ProtWrite := { req := h.req, composition := comp, mapEpoch := h.mapEpoch, kind := 2, awaited := [q], fields := stripe :: wordsOf (side.length / 8) side
                                   data := bytes, sentAt := s.now }
            (s3.addWrite w).tell { dst := q, tc := s.tra.classes.getD 3 1, code := 0, req := h.req, epoch := epoch, mapEpoch := h.mapEpoch
                                   fields := [stripe, k + 1] ++ wordsOf (side.length / 8) side, tail := bytes }
    | _, _ => s)

/-- A sidecar with one entry replaced (R430, R437). -/
def sidecarWith (k : Nat) (old : List Byte) (j : Nat) (ws : List Nat) : List Byte :=
  sidecarBytes ((List.range k).map (fun i => if i = j then ws else 0 :: wordsOf 6 ((old.drop (48 * i)).take 48)))

/-- Parity messages at both ends (R433, R434, R437). At a parity position a whole sidecar comes with new parity bytes, which are stored; a
descriptor comes with a delta, which is added in, `p_state` UPDATING meanwhile, and its sidecar entry replaced; both are acknowledged. A delta
for parity this member has yet to regrow is acknowledged, since regrow reads the shards as they then are (log 12). An acknowledgement settles the
write, and one of a sealed stripe frees the OPEN copies kept here. -/
def execParityDelta (h : MsgHdr) (stripe position comp : Nat) (ack : Bool) (delta : List Byte) (sidecar : List Nat) (s : State) : Out :=
  .next (s.whenLive fun s =>
    if h.ver ≠ 1 then s
    else if ack then
      match s.prot.writes.find? (fun w => (w.2.kind == 2 || w.2.kind == 3) && w.2.req == h.req && word w.2.fields 0 == stripe && w.2.awaited.contains h.src) with
      | none => s
      | some (id, w) => (if w.kind = 2 then s.freeCopies h.req stripe else s).ackWrite id h.src
    else
      let answer := fun (t : State) => t.tell { dst := h.src, tc := s.tra.classes.getD 3 1, code := 0, req := h.req, epoch := h.epoch, mapEpoch := h.mapEpoch, fields := [stripe, position] }
      match (Tbl.get s.prot.shards (h.req, stripe)).filter (fun da => ((s.arenaOf da).map (·.parity)).getD false) with
      | some da =>
        let p := s.pdesc da
        if sidecar.length = 8 then
          let d := Desc.ofWords sidecar
          let new := xorPad (s.rd p.slot p.bytes) delta
          let s1 := s.wrWords da ({ p with st := 2 } : PDesc).words
          answer (s1.putParity da { p with epoch := max p.epoch d.epoch } new (sidecarWith p.k (s.rd p.sidecar (48 * p.k)) d.shard sidecar))
        else answer (s.putParity da { p with epoch := max p.epoch h.epoch } delta (bytesOfWords sidecar))
      | none =>
        if sidecar.length = 8 then answer s else
          match (s.compMap comp h.mapEpoch).protection, (s.ctxFor comp).map (fun c => (s.ctx c).f) with
          | .ec k mm, some f =>
            match s.claimParity h.req stripe position k mm h.epoch f.headDim comp with
            | some (da, p, t) => answer (t.putParity da p delta (bytesOfWords sidecar))
            | none => s
          | _, _ => s)

/-! ### Regrow (R440, R441) -/

/-- Adds a shard to those that wait for regrow; at most one regrow runs per shard (R441). -/
def State.needShard (s : State) (rid stripe position fault : Nat) : State :=
  if s.prot.needs.any (fun n => n.1 == rid && n.2.1 == stripe) || s.prot.regrows.any (fun g => g.req == rid && g.stripe == stripe) then s
  else { s with prot := { s.prot with needs := s.prot.needs ++ [(rid, stripe, position, fault)] } }

/-- REGROW_NEED at the substitute of a position of a down member (R440). -/
def execRegrowNeed (h : MsgHdr) (stripe position down comp : Nat) (s : State) : Out :=
  .next (s.whenLive fun s =>
    let m := s.compMap comp h.mapEpoch
    if h.ver ≠ 1 ∨ stripe = 0 ∨ s.servedAt m comp h.req (stripe - 1) position ≠ some s.node ∨ Tbl.has s.prot.shards (h.req, stripe) then s
    else
      let (i, s1) := s.faultOf 1 down comp
      s1.needShard h.req stripe position i)

/-- Shards this node can no longer read: descriptors LOST, or lines without a channel (R56, R100, R440). -/
def State.lostShards (s : State) : List ((Nat × Nat) × Nat) :=
  s.prot.shards.filter (fun x =>
    if ((s.arenaOf x.2).map (·.parity)).getD false then (s.readFault (s.pdesc x.2).slot (s.pdesc x.2).bytes).isSome || (s.pdesc x.2).st == 3
    else let d := s.desc x.2
      d.st == dLost || (s.readFault d.slot (inUse d.repr (dimOf d.dim))).isSome)

/-- The order of background regrow: DECODING first, then PREFILL and PROTECTED, then HELD (R441); a request whose state this node does not know
counts as DECODING (log 22). -/
def State.regrowGroup (s : State) (rid : Nat) : Nat :=
  match s.entry rid with
  | some e => if e.st = .prefill ∨ e.st = .protected_ then 1 else if e.st = .held then 2 else 0
  | none => 0

/-- Background regrow starts the next shard: a slot is claimed and booked in transit, and the next start waits until `regrow_rate` allows the
reads of this one (R440, R441). -/
def execBackgroundRegrow (s : State) : Out :=
  .next (s.whenLive fun s =>
    let local_ := s.lostShards.foldl (fun (t : State) x =>
      match (Tbl.get t.tier.owners x.2) with
      | some (_, comp) =>
        let (i, t1) := t.faultOf 2 (dieMC (bits x.2 45 43)) comp
        t1.needShard x.1.1 x.1.2 (if ((t.arenaOf x.2).map (·.parity)).getD false then (t.pdesc x.2).position else (t.desc x.2).shard) i
      | none => t) s
    let s := local_
    if s.now < s.prot.regrowAt then s else
    let key := fun (n : Nat × Nat × Nat × Nat) =>
      let comp := ((s.prot.faults[n.2.2.2]?).map (·.composition)).getD 0
      let m := s.compMap comp (s.comp comp).cur.epoch
      let g := match m.protection, (s.ctxFor comp).map (fun c => (s.ctx c).f) with
        | .ec k _, some f => ceilDiv (f.layers * f.kvHeads) (max 1 k)
        | _, some f => f.layers * f.kvHeads
        | _, none => 1
      ((s.regrowGroup n.1 * 2 ^ 40 + (n.2.1 - 1) % max 1 g) * 64 + n.2.2.1) * 2 ^ 40 + (n.2.1 - 1) / max 1 g
    match minBy? key s.prot.needs with
    | none => s
    | some n =>
      let (rid, stripe, position, fault) := n
      let comp := ((s.prot.faults[fault]?).map (·.composition)).getD 0
      let rate := (Tbl.at s.tier.policies comp {}).regrowRate
      let m := s.compMap comp (s.comp comp).cur.epoch
      let (k, _, _) := protShape m.protection
      match (s.ctxFor comp).map (fun c => (s.ctx c).f) with
      | none => s
      | some f =>
        let slot := if position < k ∨ m.protection = .replica then
            (s.mcRanks.findSome? (fun die => s.freeSlot 1 die f.headDim)) else s.freeParity f.headDim
        match slot with
        | none => s
        | some da =>
          if rate = 0 then s else
          let s1 := s.claimSlot da 0 comp 4
          let s2 := if position < k ∨ m.protection = .replica then s1.setDesc da { slot := (s.slotAddr da).getD 0, req := rid, dim := dimCode f.headDim, st := dConverting }
            else s1.wrWords da ({ slot := (s.slotAddr da).getD 0, req := rid, position := position, k := k, dim := dimCode f.headDim, stripe := stripe, st := 2 } : PDesc).words
          { s2 with
            tier := { s2.tier with transit := s2.tier.transit ++ [da] }
            prot := { s2.prot with
              needs := s2.prot.needs.filter (· ≠ n), regrowAt := max s.now s.prot.regrowAt + ceilDiv (k * (160 * f.headDim)) rate
              regrows := s2.prot.regrows ++ [{ req := rid, stripe := stripe, position := position, desc := da, startAt := s.now, fault := fault, background := true }] } })

/-- What a regrow gives: the descriptor of a data shard or of a copy with its bytes, or a parity shard's bytes. -/
inductive Regrown where
  /-- A block. -/
  | block (d : Desc) (bytes : List Byte)
  /-- A parity shard with its sidecar. -/
  | parity (bytes side : List Byte)
deriving DecidableEq, Repr

/-- Rebuilds a shard from the surviving positions read, verifying each and the result (R440, steps 2 to 4). -/
def regrowShard (prot : Protection) (position dim : Nat) (shards : List (Nat × List Nat × List Byte)) (sidecar : List Nat) : Option Regrown :=
  match prot with
  | .none => none
  | .replica => (shards.find? (fun x => shardOk x.2.1 x.2.2)).map (fun x => .block (Desc.ofWords x.2.1) (x.2.2.take (inUse (Desc.ofWords x.2.1).repr dim)))
  | .ec k _ =>
    let entry := fun j => 0 :: ((sidecar.drop (6 * j)).take 6)
    let side := if sidecar.isEmpty then sidecarBytes ((List.range k).map (fun j => ((shards.find? (fun x => x.1 == j)).map (·.2.1)).getD [])) else
      sidecarBytes ((List.range k).map entry)
    let good := shards.filter (fun x =>
      if x.1 < k then shardOk x.2.1 x.2.2 && (sidecar.isEmpty || ((sidecar.drop (6 * x.1)).take 6) == (x.2.1.drop 1).take 6)
      else (PDesc.ofWords x.2.1).st != 3 && crc64 x.2.2 == (PDesc.ofWords x.2.1).crc)
    let empty_ := if sidecar.isEmpty then [] else (List.range k).filter (fun j => allZero (entry j) [(1, 63, 0), (2, 63, 0)])
    let have_ := (good.map (fun x => (x.1, if x.1 < k then x.2.2.take (inUse (Desc.ofWords x.2.1).repr dim) else x.2.2))) ++ empty_.map (fun j => (j, []))
    let len := (have_.map (fun x => ceilDiv x.2.length 64 * 64)).foldl max 0
    match rebuild k len (have_.take k) with
    | none => none
    | some data =>
      if position < k then
        let d := Desc.ofWords (entry position)
        let bytes := (data.getD position []).take (inUse d.repr dim)
        if sidecar.isEmpty || !imageOk d bytes then none else some (.block d bytes)
      else
        let ds := data.mapIdx (fun j b => (j, b))
        some (.parity (padTo len (if position = k then parityP ds else parityQ ds)) side)

/-- A regrow's reads and its Codec job have ended: the result is written and the shard-map entry switched, or, with fewer than k shards that
verify, the lost block is set LOST (R440, steps 4 and 5). -/
def execRegrowShardDone (req stripe position : Nat) (shards : List (Nat × List Nat × List Byte)) (sidecar : List Nat) (s : State) : Out :=
  .next (s.whenLive fun s =>
    match s.prot.regrows.find? (fun g => g.req == req && g.stripe == stripe && g.position == position) with
    | none => s
    | some g =>
      let comp := ((s.prot.faults[g.fault]?).map (·.composition)).getD 0
      let m := s.compMap comp (((s.req req).map (·.mapEpoch)).getD (s.comp comp).cur.epoch)
      let dim := ((s.arenaOf g.desc).map (·.headDim)).getD 128
      let old := Tbl.get s.prot.shards (req, stripe)
      let count := fun (t : State) (f : FaultRec → FaultRec) => ({ t with
        tier := { t.tier with transit := t.tier.transit.filter (· ≠ g.desc) }
        prot := { t.prot with regrows := t.prot.regrows.filter (· ≠ g), faults := t.prot.faults.mapIdx (fun i x => if i = g.fault then f x else x) } } : State)
      match regrowShard m.protection position dim shards sidecar with
      | some (.block d bytes) =>
        let slot := (s.slotAddr g.desc).getD 0
        let nd := { d with slot := slot, req := req, holder := s.node, shard := position, stripe := stripe, st := if d.committed = 64 then dFull else dOpen }
        let s1 := (((s.store slot bytes).setDesc g.desc nd).bookSlot g.desc 4 nd.book).descRefs g.desc true
        let s2 := match old with | some o => if o = g.desc then s1 else s1.freeOrWait o | none => s1
        count { s2 with prot := { s2.prot with shards := Tbl.set s2.prot.shards (req, stripe) g.desc } } (fun x => { x with regrown := x.regrown + 1 })
      | some (.parity bytes side) =>
        let (k, mm, _) := protShape m.protection
        let p : PDesc := { slot := (s.slotAddr g.desc).getD 0, req := req, position := position, k := k, m2 := mm == 2, dim := dimCode dim, stripe := stripe
                           epoch := ((shards.map (fun x => (Desc.ofWords x.2.1).epoch)).foldl max 0) }
        let s1 := (s.putParity g.desc p bytes side).bookSlot g.desc 4 3
        count { s1 with prot := { s1.prot with shards := Tbl.set s1.prot.shards (req, stripe) g.desc } } (fun x => { x with regrown := x.regrown + 1 })
      | none =>
        let s1 := s.dropClaim g.desc
        let s2 := match old with
          | some o => if ((s.arenaOf o).map (·.parity)).getD false then s1.wrWords o ({ s1.pdesc o with st := 3 } : PDesc).words else s1.setDesc o { s1.desc o with st := dLost }
          | none => s1
        count s2 (fun x => { x with failed := x.failed + 1 }))

/-! ### Stragglers and members down (R434 to R436) -/

/-- The straggle limit of a composition (R441). -/
def State.straggleLimit (s : State) (comp : Nat) : Nat := (Tbl.at s.tier.policies comp {}).straggleLimit

/-- A protection write unacknowledged for `straggle_limit`: each member awaited is reported to the protection node, and the event raised (R435). -/
def execStraggleTimer (write : Nat) (s : State) : Out :=
  .next (s.whenLive fun s =>
    match Tbl.get s.prot.writes write with
    | none => s
    | some w =>
      if w.reported ∨ s.now < w.sentAt + s.straggleLimit w.composition then s else
        let s1 : State := { s with prot := { s.prot with writes := Tbl.upd s.prot.writes write (fun w => { w with reported := true }) } }
        w.awaited.foldl (fun t x => (t.tell { dst := s.calibNode w.composition, tc := 7, code := 0x44, mapEpoch := w.mapEpoch
                                              fields := [w.composition, x, w.kind, s.now - w.sentAt] }).raise0 .protStraggler s.hubDie 0
          [w.composition, x, w.kind, s.now - w.sentAt]) s1)

/-- PROT_STALL at the protection node: the member is probed with a load of one of its shard-map lines (R435); which line is a free value
(log 3). -/
def execProtStall (h : MsgHdr) (comp member kind ns : Nat) (s : State) : Out :=
  let _ := (kind, ns)
  .next (s.whenLive fun s =>
    if h.ver ≠ 1 ∨ s.calibNode comp ≠ s.node ∨ Tbl.has s.prot.probes (comp, member) ∨ !(s.comp comp).cur.cache.contains member then s
    else
      let (v, s1) := s.draw
      let s2 : State := { s1 with prot := { s1.prot with probes := Tbl.set s1.prot.probes (comp, member) s.now } }
      s2.sendReq { ty := .load, dst := member, srcEp := 63, addr := mkAddr member 1 (bits v 45 6 * 64), winId := 0xFFF, tc := s.tra.classes.getD 3 1 : Packet } (.hub 6 (comp * 4096 + member)) none)

/-- In an unprotected composition a prefix handle with a FULL block on a lost member is released at once (R112, R452); at a home that holds no
context of the composition every member counts as holding one. -/
def State.releaseOn (s : State) (comp epoch member : Nat) : State :=
  let ms := (s.compMap comp epoch).cache
  let lh := ((s.ctxFor comp).map (fun c => (s.ctx c).f.layers * (s.ctx c).f.kvHeads)).getD ms.length
  let on := fun (h : PrefixHandle) => h.composition == comp && ((s.entry h.req).map (·.mapEpoch)) == some epoch &&
    (List.range (min ms.length (h.tokens / 64 * lh))).any (fun sigma => ms.getD (placeIdx h.req sigma 0 ms.length) 0 == member)
  { s with kv := { s.kv with handles := Tbl.mapVals s.kv.handles (fun _ h => if on h then { h with released := true } else h) } }

/-- What every node of a composition does when a member is down in an epoch: its down set takes it; writes that awaited it go to substitutes;
OPEN copies it held are sent again by the holder; and survivors ask substitutes to regrow the positions it held (R432, R434 to R436, R440). -/
def State.takeDown (s : State) (comp epoch member : Nat) : State :=
  let key := (comp, epoch)
  if (Tbl.at s.prot.down key []).contains member then s else
  let m := s.compMap comp epoch
  let (_, _, p) := protShape m.protection
  let oldDown := Tbl.at s.prot.down key []
  let s1 : State := { s with prot := { s.prot with down := Tbl.updD s.prot.down key [] (· ++ [member]) } }
  let was := fun rid sigma => placements m.cache oldDown rid sigma p
  let now_ := fun rid sigma => placements m.cache (oldDown ++ [member]) rid sigma p
  let subst := fun rid sigma => ((was rid sigma).zip (now_ rid sigma)).findSome? (fun x => if x.1 == some member then some x.2 else none)
  -- writes that awaited the member
  let s2 := (s1.prot.writes.filter (fun w => w.2.composition == comp && w.2.mapEpoch == epoch && w.2.awaited.contains member)).foldl (fun (t : State) x =>
    let w := x.2
    let sigma := match w.kind, (t.req w.req) with
      | 1, some r => (stripeOf (t.geom r) m.protection (word w.fields 0) (word w.fields 1) (word w.fields 2)).1
      | 4, some r => (stripeOf (t.geom r) m.protection (word w.fields 0) (word w.fields 1) (word w.fields 2)).1
      | _, _ => word w.fields 0 - 1
    let to_ := ((subst w.req sigma).join)
    let t1 : State := { t with prot := { t.prot with writes := Tbl.set t.prot.writes x.1 { w with
      awaited := (w.awaited.filter (· ≠ member)) ++ to_.toList, sentAt := t.now, reported := false } } }
    match to_, t1.req w.req with
    | none, _ => t1
    | some n, r =>
      if w.kind = 1 ∨ w.kind = 4 then
        (match r with | some r => t1.tell (t1.rowPutMsg w.req (word w.fields 0) (word w.fields 1) (word w.fields 2) 0 (word w.fields 4) n r) | none => t1)
      else
        let pos := ((was w.req sigma).idxOf? (some member)).getD 0
        let (k, _, _) := protShape m.protection
        let tail := if w.kind = 3 ∧ pos = k + 1 then gfScale (gfPow 2 (word w.fields 1)) w.data else w.data
        t1.tell { dst := n, tc := t1.tra.classes.getD 3 1, code := 0, req := w.req, mapEpoch := epoch, fields := [word w.fields 0, pos], tail := tail }) s1
  -- OPEN copies that the member held
  let s3 := (s2.kv.reqs.filter (fun r => r.2.composition == comp && r.2.mapEpoch == epoch)).foldl (fun (t : State) x =>
    (t.blocks x.2).foldl (fun (u : State) e =>
      let d := u.desc e.2
      let (sigma, i) := stripeOf (u.geom x.2) m.protection e.1.1 e.1.2.1 e.1.2.2
      let pos := ((was x.1 sigma).idxOf? (some member))
      match pos, (subst x.1 sigma).join with
      | some q, some n =>
        if u.ownBlock x.1 e.2 && d.st == dOpen && decide (0 < d.committed) && (openPositions m.protection i).contains q &&
            !(u.prot.writes.any (fun w => w.2.req == x.1 && w.2.awaited.contains n && w.2.fields.take 3 == [e.1.1, e.1.2.1, e.1.2.2])) then
          (u.addWrite { req := x.1, composition := comp, mapEpoch := epoch, kind := 4, awaited := [n], fields := [e.1.1, e.1.2.1, e.1.2.2, 0, d.committed, d.crcA, d.crcB]
                        sentAt := u.now }).tell (u.rowPutMsg x.1 e.1.1 e.1.2.1 e.1.2.2 0 d.committed n x.2)
        else u
      | _, _ => u) t) s2
  -- stripes whose lowest surviving position is here
  let s4 := s3.prot.shards.foldl (fun (t : State) x =>
    let (rid, stripe) := x.1
    let sigma := stripe - 1
    if ((Tbl.get t.tier.owners x.2).map (·.2)) ≠ some comp then t else
    let pl := now_ rid sigma
    let surv := ((was rid sigma).zip pl).filterMap (fun y => if y.1 == y.2 then y.1 else none)
    match ((was rid sigma).idxOf? (some member)), surv.head? with
    | some q, some first =>
      (match pl.getD q none with
       | some n => if first = t.node then t.tell { dst := n, tc := t.tra.classes.getD 3 1, code := 0x43, req := rid, mapEpoch := epoch, fields := [stripe, q, member] } else t
       | none => t)
    | _, _ => t) s3
  if m.protection = .none then s4.settleWrites.releaseOn comp epoch member else s4.settleWrites

/-- References a lost member last reported for a composition (R211, R450). -/
def State.lostRefs (s : State) (comp member : Nat) : Nat :=
  ((s.cb.reports.filter (fun r => r.1.1 == comp && r.1.2.2.2 == member)).map (·.2)).sum

/-- A lost member's last reported references enter fault transit at the calibration node (R450). -/
def State.refsLost (s : State) (comp member : Nat) : State :=
  let n := s.lostRefs comp member
  if n = 0 then s else { s with led := { s.led with transit := Tbl.updD s.led.transit (member, qRefs) {} (fun t => { t with fault := t.fault + n }) } }

/-- At EV_RECOVERY_DONE the references still in fault transit are freed with their ended requests (R450). -/
def State.refsEnded (s : State) (comp member : Nat) : State :=
  let n := s.lostRefs comp member
  if n = 0 then s else { s with
    led := { s.led with transit := Tbl.upd s.led.transit (member, qRefs) (fun t => { t with fault := t.fault - n }) }
    cb := { s.cb with reports := Tbl.mapVals s.cb.reports (fun k v => if k.1 = comp ∧ k.2.2.2 = member then 0 else v) } }

/-- The protection node declares a member down: MEMBER_DOWN to every node of the composition, for each held map epoch, and the event (R435);
reason 1 croak, 2 straggler. Its references enter fault transit (R450). -/
def State.declareDown (s : State) (comp member reason : Nat) : State :=
  let first := !((s.comp comp).maps.any (fun m => (Tbl.at s.prot.down (comp, m.epoch) []).contains member))
  (s.comp comp).maps.foldl (fun (t : State) m =>
    if !m.cache.contains member || (Tbl.at t.prot.down (comp, m.epoch) []).contains member then t else
      let n := t.prot.downSeq + 1
      let t1 : State := { t with prot := { t.prot with downSeq := n, probes := Tbl.del t.prot.probes (comp, member) } }
      let t2 := ((m.members ++ (t.comp comp).bridges).dedup.filter (· ≠ t.node)).foldl (fun u x => u.tell { dst := x, tc := 7, code := 0x45, mapEpoch := m.epoch, fields := [comp, member, n, reason] }) t1
      ((t2.faultOf 1 member comp).2.takeDown comp m.epoch member).raise0 .memberDown s.hubDie 0 [comp, member, m.epoch, n, reason]) (if first then s.refsLost comp member else s)

/-- A straggler's probe that has not completed within `straggle_limit`: the member is declared down (R435). -/
def execStragglerProbeTimeout (comp member : Nat) (s : State) : Out :=
  .next (s.whenLive fun s =>
    match Tbl.get s.prot.probes (comp, member) with
    | none => s
    | some t => if s.now < t + s.straggleLimit comp then s else s.declareDown comp member 2)

/-- MEMBER_DOWN at a node of the composition (R435). -/
def execMemberDown (h : MsgHdr) (comp member seq reason : Nat) (s : State) : Out :=
  let _ := reason
  .next (s.whenLive fun s =>
    if h.ver ≠ 1 ∨ h.src ≠ s.calibNode comp then s
    else let t := s.takeDown comp h.mapEpoch member
      { t with prot := { t.prot with downSeq := max t.prot.downSeq seq } })

/-- A fault's recovery is complete (R442): for a member down, once nothing waits for regrow here and, where no substitute exists, no request
placed on it is left; for a unit of this node, once its local regrow is done; for a lapse, kind 3, once no orphan of it is left. A member's references that regrow did not
bring back are freed (R450). -/
def execRecoveryDone (kind unit comp : Nat) (s : State) : Out :=
  .next (s.whenLive fun s =>
    let idx := s.prot.faults.findIdx? (fun f => f.kind == kind && f.unit == unit && f.composition == comp)
    let waits := match idx with
      | some i => s.prot.needs.any (fun n => n.2.2.2 == i) || s.prot.regrows.any (fun g => g.fault == i)
      | none => false
    let f := (idx.bind (fun i => s.prot.faults[i]?)).getD { kind := kind, unit := unit, composition := comp, startAt := s.now }
    let stuck := (s.comp comp).maps.any (fun m => (Tbl.at s.prot.down (comp, m.epoch) []).contains unit && decide (m.cache.length ≤ (protShape m.protection).2.2) &&
      (s.own.dir.any (fun e => e.2.composition == comp && e.2.mapEpoch == m.epoch && e.2.st != .failed) || s.kv.reqs.any (fun r => r.2.composition == comp && r.2.mapEpoch == m.epoch)))
    let ready := match kind with
      | 1 => idx.isSome && s.calibNode comp == s.node && !waits && !stuck
      | 2 => idx.isSome && !waits && !(s.lostShards.any (fun x => dieMC (bits x.2 45 43) == unit))
      | 3 => idx.isSome && !(s.own.dir.any (fun e => e.2.here && e.2.composition == comp && e.2.recoveryStep != 0 && (e.2.holder == unit || e.2.prevHolder == unit)))
      | _ => false
    if !ready then s else
      let s1 : State := { s with prot := { s.prot with faults := match idx with
        | some i => s.prot.faults.mapIdx (fun j x => if j = i then { x with kind := 0 } else x)
        | none => s.prot.faults } }
      (if kind = 1 then s1.refsEnded comp unit else s1).raise0 .recoveryDone s.hubDie 0 [kind, unit, comp, f.regrown, f.failed, f.ended, s.now - f.startAt])

/-! ### Codec operations (R438, R439) -/

/-- The fields of EC_ENCODE. -/
def ecFields (w : List Nat) : Nat × Nat × Nat × Nat × Nat × Nat := (64 * fld w 5 63 53, fld w 5 52 48, fld w 5 47 46, fld w 5 45 44, fld w 5 43 39, fld w 5 38 34)

/-- The positions whose entries EC_ENCODE reads. -/
def ecReads (k m mode : Nat) : List Nat := if mode = 0 then List.range k else if mode = 2 then [0, 1] else List.range (k + m)

/-- The check of EC_ENCODE (R10, R65, R438). -/
def State.ecEncodeCheck (s : State) (c : Cmd) : Option Bad :=
  let w := c.op
  let (len, k, m, mode, pa, pb) := ecFields w
  (firstOf [
    (len == 0 || decide (65536 < len) || k == 0 || decide (16 < k) || m == 0 || m == 3 || mode == 3 || !allZero w [(5, 33, 0), (7, 31, 0)], badField),
    (mode == 1 && (decide (k + m ≤ pa) || (pb != 31 && decide (k + m ≤ pb))), badField), (mode == 2 && decide (k ≤ pa), badField),
    (!s.covers c.vi (word w 2) 144 rRd, badRegion (word w 2)), (!s.covers c.vi (word w 3) len rWr, badRegion (word w 3)),
    (word w 4 != 0 && !s.covers c.vi (word w 4) len rWr, badRegion (word w 4)), (!s.covers c.vi (word w 6) 16 rWr, badRegion (word w 6))]).orElse fun _ =>
  let src := s.rdWords (word w 2) 18
  ((ecReads k m mode).filter (fun i => word src i ≠ 0)).findSome? (fun i =>
    if c.vi ≠ 0 ∧ addrNode (word src i) ≠ s.node then some badField
    else if addrNode (word src i) = s.node ∧ !s.covers c.vi (word src i) len rRd then some (badRegion (word src i)) else none)

/-- EC_ENCODE runs: encode, reconstruct or delta over GF(2^8) (R431, R438). `remote` is what the reads of shards on other nodes return. The
second check value without an output B is a free value (log 3). -/
def execEcEncode (cid : Nat) (remote : List (Nat × List Byte)) (s : State) : Out :=
  .next (s.whenLive fun s =>
    match s.running cid 3 4 with
    | none => s
    | some c =>
      let w := c.op
      let (len, k, m, mode, pa, pb) := ecFields w
      let src := s.rdWords (word w 2) 18
      let there := (ecReads k m mode).filter (fun i => word src i ≠ 0)
      let bytes := fun i => let a := word src i
        if a = 0 then List.replicate len 0#8
        else if addrNode a = s.node then s.rd a len
        else padTo len (((remote.find? (fun x => x.1 == a)).map (fun x => x.2.take len)).getD [])
      if mode = 1 ∧ there.length < k then s.finish cid .invalidField 0
      else match (there.filter (fun i => addrNode (word src i) = s.node)).findSome? (fun i => s.readFault (word src i) len) with
      | some st => s.finish cid st 0
      | none =>
        let out : Option (List Byte × Option (List Byte)) := match mode with
          | 0 => let ds := (List.range k).map (fun i => (i, bytes i))
                 some (parityP ds, some (parityQ ds))
          | 2 => let d := xorPad (bytes 0) (bytes 1)
                 some (d, some (gfScale (gfPow 2 pa) d))
          | _ => (rebuild k len (there.map (fun i => (i, bytes i)))).map (fun data =>
              let ds := data.mapIdx (fun j b => (j, b))
              let at_ := fun p => padTo len (if p < k then data.getD p [] else if p = k then parityP ds else parityQ ds)
              (at_ pa, if pb = 31 then none else some (at_ pb)))
        match out with
        | none => s.finish cid .invalidField 0
        | some (a, b) =>
          let b := if word w 4 = 0 then none else b
          let s1 := s.store (word w 3) a
          let s2 := (b.map (fun x => s1.store (word w 4) x)).getD s1
          let (v, s3) := s2.draw
          let s4 := s3.store (word w 6) (bytesOfWords [crc64 a, (b.map crc64).getD v])
          (s4.note cid [(0x0203, there.length * len)] (there.length * len / 64) (len / 64) k m).finish cid .ok (len + (b.map (·.length)).getD 0))

/-- The check of CHECK (R10, R65, R439). -/
def State.checkCheck (s : State) (c : Cmd) : Option Bad :=
  let w := c.op
  let n := fld w 3 63 32
  let sha := fld w 3 31 30 == 1
  let verify := fld w 3 29 29 == 1
  firstOf [
    (n == 0 || decide (2 ^ 24 < n) || decide (1 < fld w 3 31 30) || !allZero w [(3, 28, 0), (6, 63, 0), (7, 31, 0)], badField),
    ((!verify && word w 4 != 0) || (!sha && word w 5 != 0) || addrNode (word w 2) != s.node, badField),
    (!s.covers c.vi (word w 2) n rRd, badRegion (word w 2)), (verify && !s.covers c.vi (word w 4) (if sha then 64 else 8) rRd, badRegion (word w 4)),
    (sha && !s.covers c.vi (word w 5) 64 rWr, badRegion (word w 5))]

/-- CHECK runs: a CRC-64 or SHA-512 of a range, compared with an expected value where asked (R439). -/
def execCheck (cid : Nat) (s : State) : Out :=
  .next (s.whenLive fun s =>
    match s.running cid 3 5 with
    | none => s
    | some c =>
      let w := c.op
      let n := fld w 3 63 32
      let sha := fld w 3 31 30 == 1
      match (s.readFault (word w 2) n).orElse (fun _ => if fld w 3 29 29 = 1 then s.readFault (word w 4) (if sha then 64 else 8) else none) with
      | some st => s.finish cid st 0
      | none =>
        let bs := s.rd (word w 2) n
        let v := if sha then sha512 bs else bytesOf 8 (crc64 bs)
        let s1 := if sha then s.store (word w 5) v else s
        let bad := fld w 3 29 29 == 1 && s.rd (word w 4) v.length != v
        (s1.note cid [(if sha then 0x0205 else 0x0204, n)] (ceilDiv n 64) (if sha then 1 else 0) 0 0).finish cid (if bad then .checkMismatch else .ok) (valOf (v.take 8)))

end Sys2Proof.Machine
end

