-- ==== Sys2Proof/Machine/Admit.lean ====
section
/-! DEFINITION. Admission at the host bridges, the start of a request, client cancels, and the mailbox operations on requests, streams and
prefixes (R22 to R24, R27, R109 to R112, R338 to R345, R351, R354, R359, R363, R364). -/

namespace Sys2Proof.Machine
open Sys2Proof

/-! ### Quotas and capacity (R339, R340, R343) -/

/-- Admission at this bridge of a composition. -/
def State.admOf (s : State) (comp : Nat) : AdmComp := Tbl.at s.adm comp {}
/-- Changes it. -/
def State.updAdm (s : State) (comp : Nat) (f : AdmComp → AdmComp) : State := { s with adm := Tbl.updD s.adm comp {} f }

/-- This bridge's share of a class quota: divided evenly, the remainder to the lowest node ids (R339). -/
def State.share (s : State) (comp cls : Nat) : Nat :=
  let c := s.comp comp
  let n := c.bridges.length
  let q := c.cur.quotas.getD cls 0
  if n = 0 then 0 else q / n + (if (c.bridges.filter (· < s.node)).length < q % n then 1 else 0)

/-- Submissions of a class that wait. -/
def AdmComp.waits (a : AdmComp) (cls : Nat) : Nat := (a.queue.filter (fun w => w.sub.cls == cls)).length

/-- A member's report if it is no older than 5 ms (R340). -/
def State.fresh (s : State) (comp node : Nat) : Option CapReport :=
  (Tbl.get (s.admOf comp).reports node).filter (fun r => decide (s.now ≤ r.at_ + 5000000))

/-- Bytes of cache capacity that a prefill needs: blocks past the covered prefix, times slot size, times the overhead of the protection (R340). -/
def State.needOf (s : State) (comp prompt covered : Nat) : Nat :=
  match (s.ctxFor comp).map (fun c => (s.ctx c).f) with
  | none => 0
  | some f =>
    let n := f.layers * f.kvHeads * ceilDiv (prompt - covered) 64 * 256 * f.headDim
    match (s.comp comp).cur.protection with
    | .ec k m => ceilDiv (n * (k + m)) (max 1 k)
    | _ => n

/-- Prompt members with a free record, home members with a free entry, and free cache bytes not spoken for, by fresh reports (R340). -/
def State.capacity3 (s : State) (comp : Nat) : List (Nat × Nat) × List (Nat × Nat) × Nat :=
  let m := (s.comp comp).cur
  let of_ := fun (ns : List Nat) (f : CapReport → Nat) => (sortBy (fun a b => decide (a ≤ b)) ns.dedup).filterMap (fun n => (s.fresh comp n).map (fun r => (n, f r)))
  let prompts := (of_ m.prompt (·.records)).filter (fun x => decide (0 < x.2))
  let homes := (of_ m.home (·.dirFree)).filter (fun x => decide (0 < x.2) && x.2 != 0xFFFFFFFF)
  let dram := ((of_ m.cache (·.dram)).map (·.2)).sum
  (prompts, homes, dram - ((s.str.bridges.filter (fun b => b.2.composition == comp && b.2.primary)).map (fun b => b.2.need)).sum)

/-- Whether a submission of a class has capacity for N bytes (R340). -/
def State.hasCapacity (s : State) (comp cls n : Nat) : Bool :=
  let (p, h, d) := s.capacity3 comp
  !p.isEmpty && !h.isEmpty && decide (n + (if cls = 0 then 0 else (s.comp comp).gReserve) ≤ d)

/-- Time to the next beat boundary of a composition (R26). -/
def State.toBeat (s : State) (comp : Nat) : Nat := let b := max 1 (s.comp comp).cur.beat; b - s.now % b

/-- The wait estimate of a submission of a class (R343). -/
def State.waitEstimate (s : State) (comp cls : Nat) : Nat :=
  let c := s.comp comp
  let a := ((s.admOf comp).queue.filter (fun w => decide (w.sub.cls ≤ cls))).length
  let ms := c.meters.take 16
  let sum := (ms.map (fun m => (m.admitted.take (cls + 1)).sum)).sum
  s.toBeat comp + (if sum ≤ ms.length then a else a * ms.length / sum) * c.cur.beat

/-! ### Serving a submission (R22, R23, R341, R345, R351) -/

/-- The prefix a handle gives: length, digest, composition, model and whether it may be presented; from this node, or as its home answered
(R110). -/
def State.handleInfo (s : State) (sub : Submission) : Option (Nat × List Byte × Nat × Nat × Bool) :=
  match Tbl.get s.kv.handles sub.handle with
  | some h => some (h.tokens, h.digest, h.composition, h.model, !h.released && decide (s.now < h.expiry))
  | none => sub.answer

/-- Tokens a submission's handle covers. -/
def State.covered (s : State) (sub : Submission) : Nat := if sub.handle = 0 then 0 else ((s.handleInfo sub).map (·.1)).getD 0

/-- The next sequence of this home: counting up, wrapping at 2^36, past any live in an entry or a handle (R23). -/
def State.nextSequence (s : State) : Nat :=
  let live := (s.own.dir.map (·.1) ++ s.kv.handles.map (fun h => h.2.req) ++ s.kv.reqs.map (·.1)).map reqSeq
  (((List.range (live.length + 2)).map (fun i => (s.own.nextSeq + i) % 2 ^ 36)).find? (fun q => !live.contains q && mkReq s.node q != 0)).getD 0

/-- The standby of a bridge: the next in the policy's list, wrapping, or none (R351). -/
def State.standbyFor (s : State) (comp : Nat) : Nat :=
  let bs := (s.comp comp).bridges
  if bs.length < 2 then 0 else bs.getD (((bs.idxOf? s.node).getD 0 + 1) % bs.length) 0

/-- A request's entry at its home, from admission (R114, R115). -/
def admittedEntry (a : Admitted) (st : DirState) (holder backup now : Nat) : DirEntry :=
  { st := st, holder := holder, epoch := 1, mapEpoch := a.mapEpoch, composition := a.composition, backup := backup, stateTime := now
    keep := if a.spec.keep then a.spec.retain else 0 }

/-- The backup home of an entry that this node makes (R116). -/
def State.backupFor (s : State) (comp epoch : Nat) : Nat := (nextAbove (s.compMap comp epoch).home s.node).getD s.node

/-- Serves a submission: the request id, the prompt node and the home are chosen, the log is claimed, and the home, the prompt node, the standby
and the handle's home are told (R22, R23, R111, R339, R341, R345, R351, R449; log 12). A remote home's sequence is a free value (log 3). -/
def State.serveSub (s : State) (sub : Submission) (vi : Nat) : Nat × State :=
  let comp := sub.composition
  let m := (s.comp comp).cur
  let (prompts, homes, _) := s.capacity3 comp
  let prompt := ((maxBy? (·.2) prompts).map (·.1)).getD 0
  let home := ((maxBy? (·.2) homes).map (·.1)).getD 0
  let (seq, s1) : Nat × State := if home = s.node then
      let q := s.nextSequence
      (q, { s with own := { s.own with nextSeq := (q + 1) % 2 ^ 36 } })
    else let (v, t) := s.draw
      (v % 2 ^ 36, t)
  let rid := mkReq home seq
  let p := s.covered sub
  let standby := s.standbyFor comp
  let a : Admitted := { req := rid, composition := comp, model := m.model, mapEpoch := m.epoch, cls := sub.cls, ownerVi := vi, promptTokens := sub.prompt.length
                        limit := sub.limit, handle := sub.handle, prefixTokens := p, spec := sub.spec, bridge := s.node, standby := standby, promptNode := prompt
                        admitTime := s.now, tag := sub.tag, prompt := sub.prompt }
  let b : BridgeReq := { primary := true, bridge := s.node, standby := standby, vi := vi, composition := comp, model := m.model, tag := sub.tag, handle := sub.handle
                         promptTokens := sub.prompt.length, limit := sub.limit, home := home, spec := sub.spec, need := s.needOf comp sub.prompt.length p, log := sub.prompt }
  let s2 := (s1.setBridge rid b).updComp comp (fun c => { c with meterOpen := { c.meterOpen with
    admitted := (List.range 3).map (fun i => c.meterOpen.admitted.getD i 0 + (if i = sub.cls then 1 else 0)) } })
  let s3 := s2.updAdm comp (fun x => { x with admitted := (List.range 3).map (fun i => x.admitted.getD i 0 + (if i = sub.cls then 1 else 0)) })
  let s3 := if home = s.node then s3 else s3.transitOut home qRequests 1
  let s4 := if home = s.node then s3.commitEntry rid (admittedEntry a .admitted 0 (s.backupFor comp m.epoch) s.now) [] else s3
  let dsts := ([home, prompt] ++ (if standby = 0 then [] else [standby]) ++ (if sub.handle = 0 then [] else [reqHome (sub.handle / 2 ^ 16)])).dedup
  (rid, dsts.foldl (fun t n => t.tell (dirMsg n 0 rid 1 m.epoch [1, comp, sub.cls, vi, sub.prompt.length, sub.limit, sub.handle, p, s.node, standby, prompt]
    (sub.prompt.flatMap (bytesOf 4)))) s4)

/-- The queue head that is served next: Guaranteed before Standard before Opportunistic (R342). -/
def AdmComp.head (a : AdmComp) : Option Waiting :=
  ((a.queue.find? (fun w => w.sub.cls == 0)).orElse (fun _ => a.queue.find? (fun w => w.sub.cls == 1))).orElse (fun _ => a.queue.head?)

/-- Serves queue heads while the head has capacity; each receives its second reply (R338, R342). -/
def serveHeads (comp : Nat) : Nat → State → State
  | 0, s => s
  | n + 1, s =>
    match (s.admOf comp).head with
    | none => s
    | some w =>
      if !(s.hasCapacity comp w.sub.cls (s.needOf comp w.sub.prompt.length (s.covered w.sub))) then s
      else
        let s1 := s.updAdm comp (fun a => { a with queue := a.queue.erase w })
        let s1 := s1.telCount (2, comp, w.sub.cls) (fun x => { x with closedNs := x.closedNs + 1, delayMax := max x.delayMax (s.now - w.at_) })
        let (rid, s2) := s1.serveSub w.sub w.op.vi
        serveHeads comp n ((s2.bookMove qRequests comp 0 1 1).finishOp w.op .ok rid [w.sub.tag, rid])

/-- Serves what a composition's queues can have served. -/
def State.serveQueues (s : State) (comp : Nat) : State := serveHeads comp (s.admOf comp).queue.length s

/-- Whether a stop specification is within its limits, and its automaton too (R354, R355). -/
def stopSpecOk (sp : StopSpec) : Bool :=
  let st := trieStates sp.seqs
  decide (sp.eos.length ≤ 4) && decide (1 ≤ sp.maxNew) && decide (sp.maxNew ≤ 16777216) && decide (sp.seqs.length ≤ 16) &&
  sp.seqs.all (fun q => decide (1 ≤ q.length) && decide (q.length ≤ 64)) && decide (8 ≤ sp.ringLog2) && decide (sp.ringLog2 ≤ 12) &&
  decide (sp.stream ≤ 15) && (!sp.keep || (decide (1 ≤ sp.retain) && decide (sp.retain ≤ 2592000))) && decide (st.length ≤ 1025)

/-- Stripes a request of a composition could need, against 2^32 - 2 (R427). -/
def State.stripesOk (s : State) (comp limit : Nat) : Bool :=
  match (s.ctxFor comp).map (fun c => (s.ctx c).f), (s.comp comp).cur.protection with
  | some f, .ec k _ => decide (ceilDiv limit 64 * ceilDiv (f.layers * f.kvHeads) (max 1 k) ≤ 2 ^ 32 - 2)
  | some f, .replica => decide (ceilDiv limit 64 * (f.layers * f.kvHeads) ≤ 2 ^ 32 - 2)
  | _, _ => true

/-- The checks of a submission before admission is decided, in order: rights, fields, the stop specification, and the handle (R110, R338, R354,
R402, R427). -/
def State.submitFault (s : State) (vi : Nat) (sub : Submission) : Option Status :=
  let c := s.comp sub.composition
  if !s.hasRight vi 2 || !s.coversComp vi sub.composition then some .violation
  else if 3 ≤ sub.cls ∨ c.maps = [] ∨ !(c.bridges.contains s.node) ∨ sub.limit < 64 ∨ 16777216 < sub.limit ∨ sub.prompt = [] ∨ sub.limit ≤ sub.prompt.length ∨
      sub.prompt.contains 0xFFFFFFFF ∨ !(s.stripesOk sub.composition sub.limit) then some .invalidField
  else if !(stopSpecOk sub.spec) then some .stopSpec
  else if sub.handle = 0 then none
  else match s.handleInfo sub with
    | none => some .prefixExpired
    | some (p, digest, comp, model, live) =>
      if !live then some .prefixExpired
      else if comp ≠ sub.composition ∨ model ≠ c.cur.model ∨ sub.prompt.length < p ∨ prefixDigest (sub.prompt.take p) ≠ digest then some .prefixMismatch
      else none

/-- ADH_REQUEST_SUBMIT: served, delayed or refused by class, quota, capacity and wait estimate (R338 to R343, R345). A retry-after time of a class
without a quota is a free value (log 3). -/
def doRequestSubmit (c : Caller) (sub : Submission) (s : State) : AdhOut :=
  match s.submitFault c.vi sub with
  | some st => adhFail st s
  | none =>
    let comp := sub.composition
    let a := s.admOf comp
    let q := s.share comp sub.cls
    let w := a.waits sub.cls
    if q ≤ a.admitted.getD sub.cls 0 + w then
      let (v, s1) := s.draw
      let after := if q = 0 then v else w / q * (s.comp comp).cur.beat
      ⟨.refusedQuota, s.toBeat comp + after, [], (s1.bookNew qRequests comp 2 1).telCount (2, comp, sub.cls) (fun x => { x with sent := x.sent + 1 })⟩
    else if s.hasCapacity comp sub.cls (s.needOf comp sub.prompt.length (s.covered sub)) && !(a.queue.any (fun x => decide (x.sub.cls ≤ sub.cls))) then
      let (rid, s1) := (s.bookNew qRequests comp 1 1).serveSub sub c.vi
      ⟨.ok, rid, [sub.tag, rid], s1.telCount (2, comp, sub.cls) (fun x => { x with closedNs := x.closedNs + 1 })⟩
    else
      let est := s.waitEstimate comp sub.cls
      let limit := if sub.cls = 1 then (s.comp comp).waitS else (s.comp comp).waitO
      if sub.cls = 0 ∨ est ≤ limit then
        let s1 := (s.bookNew qRequests comp 0 1).telCount (2, comp, sub.cls) (fun x => { x with creditNs := x.creditNs + 1, depthMax := max x.depthMax (w + 1) })
        ⟨.delayed, est, [], s1.updAdm comp (fun x => { x with queue := x.queue ++ [{ sub := sub, op := s.refOf c 0x0405, at_ := s.now }] })⟩
      else ⟨.refusedCapacity, est, [], (s.bookNew qRequests comp 2 1).telCount (2, comp, sub.cls) (fun x => { x with sent := x.sent + 1 })⟩

/-- ADH_REQUEST_SUBMIT. -/
def execAdhRequestSubmit (c : Caller) (sub : Submission) (s : State) : Out := .next (s.adhRun 0x0405 .user c (doRequestSubmit c sub))

/-- Withdraws waiting submissions: each receives its second reply (R344, R345). -/
def State.withdraw (s : State) (f : Waiting → Bool) : State :=
  s.adm.foldl (fun (t : State) a =>
    (a.2.queue.filter f).foldl (fun (u : State) w =>
      ((u.updAdm a.1 (fun x => { x with queue := x.queue.erase w })).bookMove qRequests a.1 0 3 1).finishOp w.op .submitWithdrawn 0 [w.sub.tag, 0]) t) s

/-- ADH_REQUEST_CANCEL: a waiting submission is withdrawn; a served request's cancel enters at its primary bridge, which holds back tokens and
tells the home (R27, R344, R363). -/
def doRequestCancel (c : Caller) (tag : Option Nat) (req : Nat) (s : State) : AdhOut :=
  let mine := fun (w : Waiting) => w.op.vi == c.vi && some w.sub.tag == tag
  if s.adm.any (fun a => a.2.queue.any mine) then adhOk (s.withdraw mine)
  else
    match s.str.bridges.find? (fun b => if tag.isSome then b.2.vi == c.vi && some b.2.tag == tag else b.1 == req) with
    | none => adhFail .requestMoved s
    | some (rid, b) =>
      if !s.coversComp c.vi b.composition then adhRights s
      else if b.ended ∨ b.cancelAt.isSome then adhOk s
      else adhOk ((s.setBridge rid { b with cancelAt := some s.now }).tell (dirMsg (s.homeOf rid) 0 rid 0 0 [5] []))

/-- ADH_REQUEST_CANCEL. -/
def execAdhRequestCancel (c : Caller) (tag : Option Nat) (req : Nat) (s : State) : Out := .next (s.adhRun 0x0406 .user c (doRequestCancel c tag req))

/-- ADH_REQUEST_READ: the record, to a VI whose rights cover its composition (R89). -/
def doRequestRead (c : Caller) (req : Nat) (s : State) : AdhOut :=
  match s.req req with
  | none => adhFail .requestMoved s
  | some r => if c.session.isNone && !s.coversComp c.vi r.composition then adhRights s else ⟨.ok, 0, r.words req, s⟩
/-- ADH_REQUEST_READ. -/
def execAdhRequestRead (c : Caller) (req : Nat) (s : State) : Out := .next (s.adhRun 0x0407 .userRead c (doRequestRead c req))

/-- ADH_PREFIX_KEEP at the home, before STREAM_DONE (R109, R364). -/
def doPrefixKeep (c : Caller) (req retain : Nat) (s : State) : AdhOut :=
  match s.entry req with
  | none => adhFail .requestMoved s
  | some e =>
    if !e.here then adhFail .retryHomeMoving s
    else if !s.coversComp c.vi e.composition then adhRights s
    else if retain = 0 ∨ 2592000 < retain then adhFail .invalidField s
    else if e.st = .held ∨ e.st = .failed then adhFail .requestMoved s
    else adhOk (s.commitEntry req { e with keep := retain } [])
/-- ADH_PREFIX_KEEP. -/
def execAdhPrefixKeep (c : Caller) (req retain : Nat) (s : State) : Out := .next (s.adhRun 0x0408 .user c (doPrefixKeep c req retain))

/-- ADH_PREFIX_RELEASE: the handle may be presented no more (R112). -/
def doPrefixRelease (c : Caller) (handle : Nat) (s : State) : AdhOut :=
  match Tbl.get s.kv.handles handle with
  | none => adhFail .prefixExpired s
  | some h =>
    if !s.coversComp c.vi h.composition then adhRights s
    else adhOk { s with kv := { s.kv with handles := Tbl.set s.kv.handles handle { h with released := true } } }
/-- ADH_PREFIX_RELEASE. -/
def execAdhPrefixRelease (c : Caller) (handle : Nat) (s : State) : Out := .next (s.adhRun 0x0409 .user c (doPrefixRelease c handle))

/-- ADH_STREAM_CONFIG: a client stream of the VI (R359, R361, R402). -/
def doStreamConfig (c : Caller) (stream recBase recLog2 tail head flushNs : Nat) (s : State) : AdhOut :=
  if !s.hasRight c.vi 4 then adhRights s
  else if 15 < stream ∨ recLog2 < 6 ∨ 20 < recLog2 ∨ flushNs < 1000 ∨ 1000000 < flushNs ∨ recBase % 64 ≠ 0 ∨ tail % 64 ≠ 0 ∨ head % 64 ≠ 0 then adhFail .invalidField s
  else adhOk { s with str := { s.str with streams := Tbl.set s.str.streams (c.vi, stream) { recBase := recBase, recLog2 := recLog2, tail := tail, head := head, flushNs := flushNs } } }
/-- ADH_STREAM_CONFIG. -/
def execAdhStreamConfig (c : Caller) (stream recBase recLog2 tail head flushNs : Nat) (s : State) : Out :=
  .next (s.adhRun 0x040A .user c (doStreamConfig c stream recBase recLog2 tail head flushNs))

/-- ADH_ADMISSION_POLICY: the bridges, the reserve and the wait limits of a composition, times in ns (R339 to R341, R425). -/
def doAdmissionPolicy (comp : Nat) (bridges : List Nat) (gReserve waitS waitO : Nat) (s : State) : AdhOut :=
  let c := s.comp comp
  let ceiling := (Tbl.get s.tier.ceilings (1, comp, 1)).getD (s.tierCapacity 1)
  if c.maps = [] ∨ bridges = [] ∨ bridges.any (fun b => decide (4096 ≤ b)) ∨ ceiling < gReserve ∨ 60000000000 < waitS ∨ 60000000000 < waitO ∨
      (c.cur.protection ≠ .none ∧ bridges.dedup.length < 2) then adhFail .invalidField s
  else adhOk (s.updComp comp (fun c => { c with bridges := bridges.dedup, gReserve := gReserve, waitS := waitS, waitO := waitO }))
/-- ADH_ADMISSION_POLICY. -/
def execAdhAdmissionPolicy (c : Caller) (comp : Nat) (bridges : List Nat) (gReserve waitS waitO : Nat) (s : State) : Out :=
  .next (s.adhRun 0x0404 .oper c (doAdmissionPolicy comp bridges gReserve waitS waitO))

/-! ### The start of a request (R22, R23, R89, R111, R132, R351, R352) -/

/-- The home enters PREFILL: entry, GENESIS receipt, lease of the prompt node, and the count held (R121, R132, R144, R449). -/
def State.startAtHome (s : State) (a : Admitted) : State :=
  match s.entry a.req with
  | some e => if e.st ≠ .admitted then s else go s { e with st := .prefill, holder := a.promptNode, stateTime := s.now }
  | none => if 4194304 ≤ s.own.dir.length then s else go s (admittedEntry a .prefill a.promptNode (s.backupFor a.composition a.mapEpoch) s.now)
where
  /-- The entry with its receipt, mirrored. -/
  go (s : State) (e : DirEntry) : State :=
    let (e1, s1) := s.newReceipt a.req e 0 a.bridge a.promptNode a.prefixTokens 0 (sha512 [])
    let exp := s.now + s.own.leaseLen
    let s2 : State := { s1 with own := { s1.own with homeLeases := Tbl.updD s1.own.homeLeases a.promptNode { expiry := exp } (fun x => { x with expiry := max x.expiry exp }) } }
    let s3 := if a.bridge = s.node then s2 else s2.transitIn a.bridge qRequests 1
    (s3.commitEntry a.req e1 []).bookNew qRequests a.composition 4 1

/-- The prompt node's part: the record, a cleared block map with the prefix's full blocks, the copy of its last partial block on VI 0, and
RING_OPEN on VI 0 (R89, R91, R111, R352). Where map and ring lie is a free value (log 3). -/
def State.startAtPrompt (s : State) (a : Admitted) : State :=
  match s.ctxFor a.composition with
  | none => s
  | some ctx =>
    if (s.req a.req).isSome || s.freeRecords == 0 then s else
      let f := (s.ctx ctx).f
      let (v, s1) := s.draw
      let (w, s2) := s1.draw
      let at_ := fun x => mkAddr s.node 1 (bits x 45 12 * 4096)
      let r : Req := { admClass := a.cls, kvRepr := (s.compMap a.composition a.mapEpoch).kvRepr, ownerVi := a.ownerVi, composition := a.composition, ctxSlot := ctx
                       mapEpoch := a.mapEpoch, committed := a.prefixTokens, limit := a.limit, promptTokens := a.promptTokens, prefixTokens := a.prefixTokens
                       blockMap := at_ v, admitTime := a.admitTime, holdEpoch := 1 }
      let cells := f.layers * f.kvHeads * r.span
      let s3 := (s2.setReq a.req r).wr r.blockMap (List.replicate (8 * cells) 0#8)
      let held := a.handle / 2 ^ 16
      let here := fun (l h b : Nat) => (s.tier.owners.map (·.1)).find? (fun da => let d := s.desc da
        d.req == held && d.layer == l && d.head == h && d.base == 64 * b && d.committed != 0)
      let find := fun (l h b : Nat) => (here l h b).orElse (fun _ => (a.held.find? (fun x => x.1 == l && x.2.1 == h && x.2.2.1 == b)).map (fun x => x.2.2.2))
      let full := a.prefixTokens / 64
      let s4 := if a.handle = 0 then s3 else f.heads.foldl (fun (t : State) lh => (List.range full).foldl (fun (u : State) b =>
          match find lh.1 lh.2 b with
          | some da => u.setMapEntry r lh.1 lh.2 b da
          | none => u) t) s3
      let s5 := if a.handle = 0 then s4 else
        let t : State := { s4 with kv := { s4.kv with attached := Tbl.set s4.kv.attached a.req a.handle } }
        if a.prefixTokens % 64 = 0 then t else t.viZero 1 2 [a.req]
      let s6 : State := { s5 with str := { s5.str with opening := Tbl.set s5.str.opening a.req (a, at_ w) } }
      s6.viZero 5 1 [a.req]

/-- What an admitted request starts at a node: its entry at the home, its record and ring at the prompt node, its log at the standby bridge, and
its use of the handle at the handle's home (R22, R89, R111, R351, R352; log 12). -/
def execPrefillStart (a : Admitted) (s : State) : Out :=
  .next (s.whenLive fun s =>
    let s1 := if s.homeOf a.req = s.node then s.startAtHome a else s
    let s2 := if a.promptNode = s.node then s1.startAtPrompt a else s1
    let s3 := if a.standby = s.node && a.standby != 0 && (s2.bridgeReq a.req).isNone then
        s2.setBridge a.req { bridge := a.bridge, standby := a.standby, vi := a.ownerVi, composition := a.composition, model := a.model, tag := a.tag, handle := a.handle
                             promptTokens := a.promptTokens, limit := a.limit, home := reqHome a.req, spec := a.spec, log := a.prompt }
      else s2
    if a.handle = 0 then s3
    else
      let first := !(s.kv.attached.any (fun x => x.1 == a.req)) && Tbl.has s3.kv.handles a.handle
      let s4 : State := if first || decide (s.homeOf a.req = s.node) then { s3 with kv := { s3.kv with attached := Tbl.set s3.kv.attached a.req a.handle } } else s3
      if !first then s4
      else { s4 with kv := { s4.kv with handles := Tbl.upd s4.kv.handles a.handle (fun h => { h with users := h.users + 1 }) }
                     own := { s4.own with dir := Tbl.upd s4.own.dir (a.handle / 2 ^ 16) (fun e => { e with users := e.users + 1 }) } })

/-! ### Client cancels (R27, R363) -/

/-- A cancel arrives at the home: a leap in flight is aborted first, then the holder is told, with the arrival time, which also answers the bridge
(R27, R130, R363; log 12). -/
def execCancelArrivalAtHome (req arrival : Nat) (s : State) : Out :=
  .next (s.whenLive fun s =>
    match s.entry req with
    | none => s
    | some e =>
      if !e.here || !([DirState.prefill, .protected_, .leaping, .decoding].contains e.st) || e.cancelAt.isSome then s
      else
        let s1 := if e.st = .leaping then s.abortLeap req e 4 else s
        match s1.entry req with
        | none => s1
        | some e1 =>
          let e2 := { e1 with cancelAt := some arrival }
          let s2 := s1.setEntry req e2
          let s3 := if e2.recoveryStep = 0 then s2.deliverCancel req e2 else s2
          match e2.receipts.head? with
          | some g => s3.tell (dirMsg g.fromNode 0 req e2.epoch e2.mapEpoch [5, arrival] [])
          | none => s3)

/-- A cancel is applied at the holder: unless a stop committed before its arrival stands, the stop is the last position committed before it, with
reason 5, and tokens past it are booked cancelled (R27, R363, R364). -/
def execCancelApply (req arrival : Nat) (s : State) : Out :=
  .next (s.whenLive fun s =>
    match s.req req with
    | none => s
    | some r =>
      let t := s.tokRing r
      let marks := Tbl.at s.str.marks req []
      let stands := t.st == 2 && (t.reason == 5 || ((marks.head?).map (fun m => decide (m.1 < arrival))).getD false)
      if r.tokenRing = 0 ∨ t.st = 0 ∨ stands then s
      else
        let tok := ((marks.find? (fun m => decide (m.1 < arrival))).map (·.2)).getD t.prompt
        let t1 := { t with st := 2, tok := tok, acked := min t.acked tok, stopPos := tok - 1, reason := 5, stopSeq := 0, stopLen := 0 }
        let gone := t.tok - max t.acked tok
        let s1 := (s.setRing r t1).bookMove qTokens req 0 3 gone
        let s2 := (s1.liveBridges req t1).foldl (fun u b => u.tell { dst := b, tc := s.tra.classes.getD 0 6, code := 0x22, req := req, epoch := r.holdEpoch, mapEpoch := r.mapEpoch
                                                                     fields := [tok, tok - 1, 5, 0, 0, s.now] }) s1
        (s2.stopped req r).maybeDone req)

/-! ### Reports and beats (R21, R26, R339, R340, R342) -/

/-- CAPACITY_REPORT at a bridge: the newest report of the member is kept, and queues are served (R340, R342). -/
def execCapacityReport (h : MsgHdr) (comp records dirFree dram sendTime : Nat) (s : State) : Out :=
  .next (s.whenLive fun s =>
    if h.ver ≠ 1 ∨ !((s.comp comp).bridges.contains s.node) ∨ !((s.comp comp).cur.members.contains h.src) then s
    else if ((Tbl.get (s.admOf comp).reports h.src).map (fun r => decide (sendTime < r.at_))).getD false then s
    else (s.updAdm comp (fun a => { a with reports := Tbl.set a.reports h.src { at_ := sendTime, records := records, dirFree := dirFree, dram := dram } })).serveQueues comp)

/-- Free DRAM within a composition's ceiling, what is in transit counted as used (R220, R340). -/
def State.freeDram (s : State) (comp : Nat) : Nat := (Tbl.get s.tier.ceilings (1, comp, 1)).getD (s.tierCapacity 1) - s.tierUse 1 comp 1

/-- A prompt or cache member reports its capacity to every bridge each 1 ms (R340). -/
def execCapacityReportTimer (comp : Nat) (s : State) : Out :=
  .next (s.whenLive fun s =>
    let c := s.comp comp
    if !((c.cur.prompt ++ c.cur.cache).contains s.node) ∨ s.now < (s.admOf comp).reportAt then s
    else
      let dir := if c.cur.home.contains s.node then 4194304 - s.own.dir.length else 0xFFFFFFFF
      c.bridges.foldl (fun t b => t.tell { dst := b, tc := 7, code := 0x30, mapEpoch := c.cur.epoch, fields := [comp, s.freeRecords, dir, s.freeDram comp, s.now] })
        (s.updAdm comp (fun a => { a with reportAt := s.now + 1000000 })))

/-- A member whose last report is older than 5 ms: the event is raised once a second while this lasts (R340). -/
def execCapacityStaleTimer (comp node : Nat) (s : State) : Out :=
  .next (s.whenLive fun s =>
    let c := s.comp comp
    let a := s.admOf comp
    let last := ((Tbl.get a.reports node).map (·.at_)).getD 0
    let due := match Tbl.get a.staleAt node with
      | some t => decide (t + 1000000000 ≤ s.now)
      | none => true
    if !(c.bridges.contains s.node) ∨ !((c.cur.prompt ++ c.cur.cache).contains node) ∨ s.now ≤ last + 5000000 ∨ !due then s
    else (s.updAdm comp (fun a => { a with staleAt := Tbl.set a.staleAt node s.now })).raise0 .admitStale s.hubDie 0 [comp, node, s.now - last])

/-- Slots of a composition held on a tier on this node. -/
def State.slotsOf (s : State) (comp tier : Nat) : Nat :=
  (s.tier.owners.filter (fun o => o.2.2 == comp && ((s.arenaOf o.1).map (fun a => a.tier)) == some tier)).length

/-- A beat boundary of a composition: the metering record is closed with the boundary's time, the admitted counts return to zero, and queues are
served (R21, R26, R339, R342). Slot times count the slots held at the boundary over the beat (log 6). -/
def execBeatBoundary (comp : Nat) (s : State) : Out :=
  .next (s.whenLive fun s =>
    let c := s.comp comp
    let beat := c.cur.beat
    let t := s.now / max 1 beat * beat
    if beat = 0 ∨ c.maps = [] ∨ t ≤ c.beatAt then s
    else
      let ms := beat / 1000000
      let lt := c.meterOpen.linkTime.map (· / 1000)
      let m := { c.meterOpen with time := t, slotTimeDram := s.slotsOf comp 1 * ms, slotTimeFlash := s.slotsOf comp 2 * ms, linkTime := lt }
      let s1 := s.updComp comp (fun c => { c with meters := m :: c.meters.take 4095, meterOpen := {}, beatAt := t })
      (s1.updAdm comp (fun a => { a with admitted := [0, 0, 0] })).serveQueues comp)

end Sys2Proof.Machine
end

