-- ==== Sys2Proof/Machine/Ledger.lean ====
section
/-! DEFINITION. The audit of the conservation ledger, what a failed identity sets in motion, and the exchange of transit counts (R448 to R451). -/

namespace Sys2Proof.Machine
open Sys2Proof

/-! ### Recounts (R451) -/

/-- Replaces a book by counted states and reports the counts before and after. -/
def State.rebuild (s : State) (q scope : Nat) (states : List Nat) : State :=
  let b := Tbl.at s.led.books (q, scope) {}
  ({ s with led := { s.led with books := Tbl.set s.led.books (q, scope) { states := states, total := states.sum } } } : State).raise0
    .ledgerRebuilt s.hubDie 0 [q, scope, b.states.sum, states.sum]

/-- Buffer descriptors of a VI, from its receive lists and the reorder table; those returned stay returned. -/
def State.recountBuffers (s : State) (vi : Nat) : State :=
  let posted := ((s.fab.lists.filter (fun e => e.1.1 == vi)).map (fun e => e.2.length)).sum
  let claimed := (s.fab.reorder.filter (fun e => e.2.vi == vi && e.2.tomb.isNone)).length
  s.rebuild qBuffers vi [posted, claimed, (Tbl.at s.led.books (qBuffers, vi) {}).states.getD 2 0]

/-- The ledger state of a slot as its descriptor shows it. -/
def State.slotBook (s : State) (a : Arena) (da : Nat) : Nat :=
  let d := s.desc da
  if s.tier.transit.contains da || s.own.pulls.any (fun p => p.2.desc == da) || s.lingers da then 4
  else if d.st = dFree then 0 else if a.parity then 3 else d.book

/-- The slots of an arena, from its descriptors. -/
def State.recountSlots (s : State) (scope : Nat) : State :=
  match s.kv.arenas.find? (fun a => a.descBase == scope) with
  | none => s
  | some a =>
    let st := (List.range a.slots).map (fun i => s.slotBook a (a.descBase + 64 * i))
    s.rebuild qSlots scope ((List.range 5).map (fun k => st.count k))

/-- References a descriptor holds on a version of a set: none while it is BF16, free, or being pulled (R209). -/
def State.refsOn (s : State) (ctx e ver da : Nat) : Nat :=
  let d := s.desc da
  if d.st = dFree ∨ d.repr = 0 ∨ s.own.pulls.any (fun p => p.2.desc == da) then 0 else
    match s.blockSets da with
    | none => 0
    | some (c, ek, ev) => if c ≠ ctx then 0 else b2n (ek == e && d.kVer == ver) + b2n (ev == e && d.vVer == ver)

/-- References on a codebook version, from every descriptor of the node; the directory's count follows (R209). -/
def State.recountRefs (s : State) (scope : Nat) : State :=
  let ea := scope / 65536
  let ver := scope % 65536
  let owner := s.work.ctxs.find? (fun c => c.2.st != .empty && decide (c.2.f.codebookDir + 64 ≤ ea) && decide (ea < c.2.f.codebookDir + 64 + 64 * c.2.f.entries))
  match owner with
  | none => s
  | some c =>
    let e := (ea - c.2.f.codebookDir - 64) / 64
    let das := s.kv.arenas.flatMap (fun a => (List.range a.slots).map (fun i => a.descBase + 64 * i))
    let n := (das.map (fun da => s.refsOn c.1 e ver da)).sum
    let x := s.cbSet c.1 e
    let s1 := match x.slotOf ver with
      | some i => let v := x.slot i; s.setCbSet c.1 e (x.setSlot i (v.1, v.2.1, n))
      | none => s
    s1.rebuild qRefs scope [n]

/-! ### What a break sets in motion (R451) -/

/-- A bucket whose books do not balance: the held tokens are set to zero and the difference is booked capped. -/
def Bucket.settleBreak (b : Bucket) : Bucket := { b with held := 0, capped := b.minted - b.spent }

/-- The ledger scope of a policer's tokens. -/
def policerScope (k : Nat × Nat × Nat) : Nat := 0x10000 + (k.1 * 256 + k.2.1) * 8 + k.2.2
/-- The ledger scope of a shaper's tokens. -/
def shaperScope (k : Nat × Nat) : Nat := k.1 * 8 + k.2

/-- Ends the request named in a break with ST_LEDGER_BREAK: at its home, at its holder, and in its stream. -/
def State.endForBreak (s : State) (rid : Nat) : State :=
  let s1 := match s.entry rid with
    | some e => if e.here ∧ e.st ≠ DirState.failed ∧ e.st ≠ DirState.free then s.failReq rid e .ledgerBreak (if e.recoveryStep ≠ 0 ∨ e.st = DirState.leaping then 5 else 4) else s
    | none => s.tell (dirMsg (s.homeOf rid) 0 rid 0 0 [Status.ledgerBreak.code] [])
  let s2 := if (s1.req rid).isSome then ({ s1.failHeld rid .ledgerBreak with kv := { s1.kv with failed := Tbl.set s1.kv.failed rid .ledgerBreak } } : State) else s1
  match s2.bridgeReq rid with
  | none => s2
  | some b0 =>
    if b0.ended || !b0.primary then s2 else
      let s3 := s2.pump rid true
      let b := (s3.bridgeReq rid).getD b0
      let (ok, s4) := s3.tokenRecord rid b 6 0 Status.ledgerBreak.code []
      if ok then s4.setBridge rid { b with ended := true } else s4

/-- The action of R451 for a broken quantity. -/
def State.repairBook (s : State) (q scope : Nat) : State :=
  if q = qCredits then
    (if scope < 0x1000 ∧ (s.port (scope / 32)).st = .active then s.retrain (scope / 32) else s)
  else if q = qBuffers then s.recountBuffers scope
  else if q = qSlots then s.recountSlots scope
  else if q = qRefs then s.recountRefs scope
  else if q = qShaper then
    { s with tra := { s.tra with
      shapers := Tbl.mapVals s.tra.shapers (fun k x => if shaperScope k = scope then { x with b := x.b.settleBreak } else x)
      policers := Tbl.mapVals s.tra.policers (fun k x => if policerScope k = scope then { x with b := x.b.settleBreak } else x) } }
  else if q = qTokens then s.endForBreak scope
  else s

/-- Books of the node whose states do not sum to their total, or of which a die counted something else: quantity, scope, expected and found. -/
def State.brokenBooks (s : State) (counts : List (Nat × Nat × Nat)) : List (Nat × Nat × Nat × Nat) :=
  let own := (s.led.books.filter (fun e => e.2.states.sum != e.2.total)).map (fun e => (e.1.1, e.1.2, e.2.total, e.2.states.sum))
  let told := (counts.filter (fun c => c.1 != qShaper && (Tbl.at s.led.books (c.1, c.2.1) {}).total != c.2.2)).map
    (fun c => (c.1, c.2.1, (Tbl.at s.led.books (c.1, c.2.1) {}).total, c.2.2))
  let bucket := fun (n : Nat) (b : Bucket) => (qShaper, n, b.minted, b.held + b.spent + b.capped)
  let sh := (s.tra.shapers.filter (fun e => !e.2.b.balanced)).map (fun e => bucket (shaperScope e.1) e.2.b)
  let po := (s.tra.policers.filter (fun e => !e.2.b.balanced)).map (fun e => bucket (policerScope e.1) e.2.b)
  own ++ (told.filter (fun b => !own.any (fun o => o.1 == b.1 && o.2.1 == b.2.1))) ++ sh ++ po

/-! ### Transit between nodes (R449, R450) -/

/-- How long a sent count may exceed the received count: 2 × `msg_timeout` + the lease length. -/
def State.transitBound (s : State) : Nat := 2 * s.fab.msgTimeout + s.own.leaseLen

/-- Units sent toward a peer beyond those it has received, outside fault transit. -/
def TransitBook.excess (t : TransitBook) : Nat := t.sent - t.peerReceived - t.fault

/-- Whether a transit book is broken: more received than the peer sent, or an excess for longer than the bound. -/
def State.transitBroken (s : State) (t : TransitBook) (told : Bool) : Bool :=
  (told && decide (t.peerSent < t.received)) || (t.excessSince.any (fun a => decide (a + s.transitBound < s.now)))

/-- Raises the break of a transit book; an excess is watched anew. -/
def State.breakTransit (s : State) (peer q : Nat) (agree : Bool) : State :=
  let t := Tbl.at s.led.transit (peer, q) {}
  let up := decide (t.peerSent < t.received)
  let s1 := s.ledgerBroken q peer (if up then t.peerSent else t.sent - t.fault) (if up then t.received else t.peerReceived) agree
  { s1 with led := { s1.led with transit := Tbl.upd s1.led.transit (peer, q) (fun t => { t with excessSince := t.excessSince.map (fun _ => s.now) }) } }

/-! ### The commands -/

/-- The audit of a whole millisecond: the counts the dies contribute against the books, every node-local identity, and transits that have lasted too
long; each break is reported and acted on (R449, R451). -/
def execLedgerAudit (counts : List (Nat × Nat × Nat)) (agree : Bool) (s : State) : Out :=
  .next (s.whenLive fun s =>
    let t := s.now / 1000000 * 1000000
    if t ≤ s.led.auditAt then s
    else
      let bad := s.brokenBooks counts
      let s1 : State := { s with led := { s.led with auditAt := t } }
      let s2 := bad.foldl (fun (u : State) b => (u.ledgerBroken b.1 b.2.1 b.2.2.1 b.2.2.2 agree).repairBook b.1 b.2.1) s1
      (s.led.transit.filter (fun e => s.transitBroken e.2 false)).foldl (fun (u : State) e => u.breakTransit e.1.1 e.1.2 agree) s2)

/-- LEDGER_SYNC: a peer's counts of what it sent to this node and received from it, compared with this node's; a peer whose counts have
gone back has been reset, and the books with it reopen empty (R449, R450, R507; log 36). -/
def execLedgerSync (h : MsgHdr) (entries : List (Nat × Nat × Nat)) (s : State) : Out :=
  .next (s.whenLive fun s =>
    if h.ver ≠ 1 ∨ entries.any (fun e => decide (e.1 = 0 ∨ 7 < e.1)) then s else
      entries.foldl (fun (u : State) e =>
        let was := Tbl.at u.led.transit (h.src, e.1) {}
        let t0 := if e.2.1 < was.peerSent ∨ e.2.2 < was.peerReceived then {} else was
        let t1 := { t0 with peerSent := e.2.1, peerReceived := e.2.2 }
        let t2 := { t1 with excessSince := if t1.excess = 0 then none else t0.excessSince.orElse (fun _ => some u.now) }
        let u1 : State := { u with led := { u.led with transit := Tbl.set u.led.transit (h.src, e.1) t2 } }
        if u1.transitBroken t2 true then u1.breakTransit h.src e.1 true else u1) s)

/-- Every 1 ms the node sends each peer its transit counts (R449, R507). -/
def execLedgerSyncTimer (s : State) : Out :=
  .next (s.whenLive fun s =>
    if s.now < s.led.syncAt + 1000000 then s
    else
      let peers := (s.led.transit.map (fun e => e.1.1)).dedup
      let s1 : State := { s with led := { s.led with syncAt := s.now } }
      peers.foldl (fun (u : State) n =>
        let es := s.led.transit.filter (fun e => e.1.1 == n)
        u.tell { dst := n, tc := 7, code := 0x46, tail := bytesOfWords (es.flatMap (fun e => [e.1.2, u64 e.2.sent, u64 e.2.received])) }) s1)

end Sys2Proof.Machine
end

