-- ==== Sys2Proof/Machine/Dies.lean ====
section
/-! DEFINITION. Wiped jobs, and the loss of a die (R49, R51, R56, R85). -/

namespace Sys2Proof.Machine
open Sys2Proof

/-! ### Wiped jobs (R85) -/

/-- Wipes one job: counted as a pre-emption and a re-issue, awaiting dispatch again; at its third wipe it completes with
ST_ENGINE_FAULT. Its time and events so far are charged and counted and its slots are redone (R81, R85, R458, R462). -/
def State.wipeJob (s : State) (cid : Nat) : State :=
  match Tbl.get s.work.cmds cid with
  | none => s
  | some c =>
    let third := decide (2 ≤ c.wipes)
    let u := unitOf c.cls c.inst
    let ran := if c.resident then min (s.now - c.since) (Config.engineMeasured c.since) else 0
    let w := (s.settle u).chargeEnd c
    let evs := Tbl.set c.events 2 (Tbl.at (w.unit u).pend cid 0)
    let t := (w.tally { c with events := if c.cls = 2 then Tbl.set evs 0x010C 1 else evs }).closeJob u cid c.vi false
    let s1 := t.updCmd cid (fun c => { c with
      st := .wiped, wipes := c.wipes + 1, since := s.now, effects := [], split := false, events := [], engineNs := c.engineNs + ran, estimate := 0
      preempts := if third then c.preempts else sat 255 (c.preempts + 1),
      outcome := if third then some (.engineFault, 0) else none })
    if third then s1 else (s1.account c.vi c.cls 4 1).account c.vi c.cls 5 1

/-- Wipes every job of an instance (R85). -/
def State.wipeInst (s : State) (cls inst : Nat) : State := (s.wipable cls inst).foldl State.wipeJob s

/-- Retires an instance and wipes its jobs. -/
def State.retireInst (s : State) (cls i : Nat) : State := (s.updInst cls i (fun x => { x with st := .retired })).wipeInst cls i

/-! ### Fencing (R49, R51, R56) -/

/-- The units a die carries, whose slots in service its loss changes (R455, R458). -/
def State.dieUnits (s : State) (d : Nat) : List Nat :=
  if d < 2 then [0x900 + d] else if d < 6 then (0x500 + (d - 2)) :: s.allUnits.filter (fun u => u / 256 == 8)
  else if d < 14 then [0x100 + (d - 6), 0x700 + 2 * (d - 6), 0x701 + 2 * (d - 6)]
  else if d < 16 then (List.range 16).map (fun i => 0x600 + 16 * (d - 14) + i)
  else if d < 18 then [0x200 + (d - 16)] else []

/-- Fences a die: it leaves service with its instances and channels, its jobs are wiped and re-issued elsewhere, and
EV_DIE_FENCED carries the capacities and the jobs rebalanced. A second die of one pair puts the package out of
service (R56). -/
def State.fenceDie (s : State) (d : Nat) : State :=
  if s.isFenced d then s else
    let work := ((dieInsts d).flatMap (fun i => s.wipable i.1 i.2)).length
    let lostD := if 6 ≤ d ∧ d < 14 then (s.pkg.dramUp.filter (fun c => c / 2 == d - 6)) else []
    let lostF := if 14 ≤ d ∧ d < 16 then (s.pkg.flashUp.filter (fun c => c / 16 == d - 14)) else []
    let before := s.dieCapacity d
    let s := (s.dieUnits d).foldl State.settle s
    let s1 : State := { s with pkg := { s.pkg with fenced := d :: s.pkg.fenced, dramLost := s.pkg.dramLost ++ lostD,
                                                   flashLost := s.pkg.flashLost ++ lostF } }
    let s2 := (dieInsts d).foldl (fun t i => t.retireInst i.1 i.2) s1
    let dead := ((pairOf d).map s.isFenced).getD false
    let s3 := s2.raise0 .dieFenced (dieMG (if s2.isFenced 18 then 1 else 0)) 0 [d, before, s2.dieCapacity d, work]
    ({ s3 with pw := { s3.pw with capLost := true }, pkg := { s3.pkg with outOfService := s3.pkg.outOfService || dead } } : State).alert

end Sys2Proof.Machine
end

