-- ==== Sys2Proof/Machine/Power.lean ====
section
/-! DEFINITION. The supply, the discrete pins, the throttle and the TAP (chapter 17). -/

namespace Sys2Proof.Machine
open Sys2Proof

/-! ### The throttle and the reset cause -/

/-- Changes the power state, then reports a changed throttle step and ALERT_N. The cause is 1 temperature, 2 input
power, 3 SAFE_N (R497). The cycles of the arithmetic and encode clocks are settled before their rate changes (R455). -/
def State.setPower (s : State) (cause : Nat) (p : Power) : State :=
  let s0 := if p.step = s.pw.step then s else ((List.range 8).map (0x100 + ·) ++ [0x200, 0x201]).foldl State.settle s
  let s1 : State := { s0 with pw := p }
  (if s.live then s1.throttleEvent cause s.pw.step else s1).alert

/-- The reset cause a happening leaves: a thermal trip's stays latched with THERMTRIP_N (R483, R493). -/
def Power.causeAfter (p : Power) (c : Nat) : Nat := if p.tripped then 4 else c

/-! ### Losing and starting the package -/

/-- What remains when the dies lose their state: the always-on island and the pins, the TAP, the SPI NOR with its
image and trust sector, the fuses, the board's population, and the settings recorded for the next reset (R407, R475,
R479, R488, R491). -/
def State.cold (s : State) (p : Power) : State :=
  { State.reset with
    aon := s.aon, node := s.node, free := s.free, pending := s.pending, jt := s.jt,
    pw := { p with stepTemp := 0, stepPower := 0, stepSafe := if p.safeLow then 8 else 0, vinWarn := p.vinWarn, capLost := false },
    boot := { t0 := s.aon, spiImage := s.boot.spiImage, svnMin := s.boot.svnMin, raiseSvn := s.boot.raiseSvn, bootCount := s.boot.bootCount,
              hardRepairs := s.boot.hardRepairs, personality := s.boot.personalityNext, personalityNext := s.boot.personalityNext,
              interleave := s.boot.interleaveNext, interleaveNext := s.boot.interleaveNext, sramTier := s.boot.sramTier,
              flashOp := s.boot.flashOp },
    pkg := { dimmGiB := s.pkg.dimmGiB, flashUp := s.pkg.flashUp },
    adh := { trust := s.adh.trust } }

/-- t0 of R491: every die starts self-test with the node's counter at zero. -/
def State.startup (s : State) : State := s.cold { s.pw with resetHigh := true, resetHeld := false }

/-- Whether PWRGD has been recognised high for 10 ms (R479). -/
def State.pwrgdSettled (s : State) : Bool := s.pw.pwrgd && decide (s.pw.pwrgdAt + 10000000 ≤ s.aon)

/-! ### VIN (R475) -/

/-- The warning zones of R475, middle row. -/
def vinWarning (mv : Nat) : Bool := (decide (46000 ≤ mv) && decide (mv < 48000)) || (decide (60000 < mv) && decide (mv ≤ 63000))

/-- VIN leaves its window for 20 µs or more: a warning zone alerts, a shutdown zone stops every converter (R475). VIN
below 40 V takes the always-on island's supply as well, so that its next rise is a power-on (R493). -/
def execVinExcursion (mv : Nat) (s : State) : Out :=
  .next (
    if decide (48000 ≤ mv) && decide (mv ≤ 60000) then { s with pw := { s.pw with vin := mv } }
    else if vinWarning mv then
      let p := { s.pw with vin := mv, vinWarn := true, vinWorst :=
        if s.pw.vinWarn then (if mv < 48000 then min s.pw.vinWorst mv else max s.pw.vinWorst mv) else mv }
      let s1 : State := { s with pw := p }
      (if s.live && !s.pw.vinWarn then s1.raise0 .vinRange (dieMG s.adh.primary) 0 [1, 2, p.vinWorst] else s1).alert
    else
      s.cold { s.pw with vin := mv, vinWarn := false, converters := false, latchOff := true, downRunning := false, resetHeld := true,
                         pwrgdPend := false, tripped := s.pw.tripped && decide (40000 ≤ mv),
                         cause := if mv < 40000 then 1 else s.pw.causeAfter (if mv < 46000 then 5 else 6) })

/-- VIN comes back into the operating window (R475). -/
def execVinReturn (mv : Nat) (s : State) : Out :=
  .next (
    if s.pw.vinWarn && decide (48000 ≤ mv) && decide (mv ≤ 60000) then
      let s1 : State := { s with pw := { s.pw with vin := mv, vinWarn := false } }
      (if s.live then s1.raise0 .vinRange (dieMG s.adh.primary) 0 [2, 2, s.pw.vinWorst] else s1).alert
    else { s with pw := { s.pw with vin := mv } })

/-! ### PWRGD (R478, R495) -/

/-- PWRGD takes effect: the converters start with the reset held for 10 ms; a thermal trip stays latched unless PWRGD
was low for 10 ms (R478, R479, R483). -/
def State.powerUp (s : State) : State :=
  let low := decide (s.pw.pwrgdAt + 10000000 ≤ s.aon)
  let trip := s.pw.tripped && !low
  s.cold { s.pw with pwrgd := true, pwrgdAt := s.aon, converters := !trip, latchOff := false, tripped := trip,
                     downRunning := false, pwrgdPend := false, resetHeld := true, refclk := true }

/-- PWRGD recognised high (R478). -/
def execPwrgdRise (s : State) : Out :=
  .next (
    if s.pw.pwrgd then s
    else if s.pw.downRunning then { s with pw := { s.pw with pwrgdPend := true } }
    else s.powerUp)

/-- PWRGD recognised low: croaks, management ports and engines stop at once and the power-down runs (R495). -/
def execPwrgdFall (s : State) : Out :=
  .next (
    if s.pw.downRunning then { s with pw := { s.pw with pwrgdPend := false } }
    else if s.pw.pwrgd then
      { s with pw := { s.pw with pwrgd := false, pwrgdAt := s.aon, downRunning := s.pw.converters } }
    else s)

/-- The power-down ends with every converter stopped; a high PWRGD recognised meanwhile takes effect now (R478, R495). -/
def execPowerdownComplete (s : State) : Out :=
  .next (
    if s.pw.downRunning then
      let t := s.cold { s.pw with converters := false, downRunning := false, resetHeld := true }
      if s.pw.pwrgdPend then t.powerUp else t
    else s)

/-! ### RESET_N (R479, R491, R494) -/

/-- RESET_N recognised low: everything in SRAM and DRAM is lost and the cause becomes RESET_N; without PWRGD it has no
effect (R479). An assertion made while REFCLK is within limits recovers its loss (R477). -/
def execResetNAssert (refclkGood : Bool) (s : State) : Out :=
  .next (
    if s.pw.pwrgd then
      s.cold { s.pw with resetHigh := false, resetHeld := true, cause := s.pw.causeAfter 2, refclk := s.pw.refclk || refclkGood }
    else s)

/-- RESET_N recognised high: start-up begins once PWRGD has been high for 10 ms; before that the reset is held (R479). -/
def execResetNRelease (s : State) : Out :=
  .next (
    if s.pw.resetHigh && !s.pw.resetHeld then s
    else if s.pwrgdSettled && s.pw.converters && s.pw.refclk then s.startup
    else { s with pw := { s.pw with resetHigh := true, resetHeld := true } })

/-! ### SAFE_N (R480) -/

/-- SAFE_N recognised asserted: the step is at least 8; more than 16 assertions within 1 s are a storm. -/
def execSafeNAssert (s : State) : Out :=
  .next (
    if s.pw.safeLow then s else
      let hist := (s.aon :: s.pw.safeHist).filter (fun t => decide (s.aon < t + 1000000000))
      let storm := decide (16 < hist.length)
      let s1 := s.setPower 3 { s.pw with safeLow := true, safeAt := s.aon, safeHist := hist, safeStorm := s.pw.safeStorm || storm,
                                         safeStuckAt := s.aon + 60000000000, stepSafe := max 8 s.pw.stepSafe }
      if s.live && storm && !s.pw.safeStorm then s1.raise0 .safeStorm (dieMG s.adh.primary) 0 [hist.length] else s1)

/-- SAFE_N recognised released: from now on the steps fall by one each 1 ms, unless a storm holds them. -/
def execSafeNRelease (s : State) : Out :=
  .next (
    if s.pw.safeLow then
      ({ s with pw := { s.pw with safeLow := false, safeAt := s.aon, stepSafeAt := s.aon, safeStuck := false } } : State).alert
    else s)

/-- SAFE_N asserted for 60 s raises EV_SAFE_STUCK, then every hour. -/
def execSafeNStuckTimer (s : State) : Out :=
  .next (
    if s.pw.safeLow && decide (s.pw.safeStuckAt ≤ s.aon) then
      let s1 : State := { s with pw := { s.pw with safeStuck := true, safeStuckAt := s.pw.safeStuckAt + 3600000000000 } }
      (if s.live then s1.raise0 .safeStuck (dieMG s.adh.primary) 0 [s.aon - s.pw.safeAt] else s1).alert
    else s)

/-- SAFE_N high continuously for 1 s ends a storm. -/
def execSafeStormEndTimer (s : State) : Out :=
  .next (
    if s.pw.safeStorm && !s.pw.safeLow && decide (s.pw.safeAt + 1000000000 ≤ s.aon) then
      ({ s with pw := { s.pw with safeStorm := false, stepSafeAt := s.aon } } : State).alert
    else s)

/-- The steps that SAFE_N required fall by one per 1 ms after its release; the tick applies it. -/
def State.safeFall (s : State) : State :=
  if !s.pw.safeLow && !s.pw.safeStorm && decide (0 < s.pw.stepSafe) && decide (s.pw.stepSafeAt + 1000000 ≤ s.aon) then
    s.setPower 3 { s.pw with stepSafe := s.pw.stepSafe - 1, stepSafeAt := s.aon }
  else s

/-! ### Clocks and temperature -/

/-- Loss of REFCLK halts every die but the always-on island (R477). -/
def execRefclkLoss (s : State) : Out :=
  .next ({ s with pw := { s.pw with refclk := false, cause := s.pw.causeAfter 7 } } : State).alert

/-- A die trips at 120 °C: THERMTRIP_N falls and every converter stops; only the always-on island's latches stay
(R483). -/
def execThermalTrip (die : Nat) (s : State) : Out :=
  .next (
    if s.pw.converters then
      s.cold { s.pw with tripped := true, converters := false, latchOff := true, cause := 4, resetHeld := true,
                         temps := [(die, 120)], downRunning := false }
    else s)

/-- A die's temperature is known: on reaching 100 °C it raises EV_THERMAL_WARN (R482, R496). -/
def State.heat (s : State) (die temp : Nat) : State :=
  let was := Tbl.at s.pw.temps die 0
  let s1 : State := { s with pw := { s.pw with temps := Tbl.set s.pw.temps die temp } }
  if decide (100 ≤ temp) && decide (was < 100) then s1.raise0 .thermalWarn (dieMG s.adh.primary) 0 [die, temp, s.pw.step] else s1

/-- Every 1 ms at or above 95 °C the temperature step rises; every 10 ms below 90 °C it falls (R497). -/
def execThermalStepTimer (temps : List (Nat × Nat)) (s : State) : Out :=
  .next (s.whenLive fun s0 =>
    let s := temps.foldl (fun (t : State) e => t.heat e.1 e.2) s0
    let hot := s.pw.temps.any (fun t => decide (95 ≤ t.2))
    let cool := s.pw.temps.all (fun t => decide (t.2 < 90))
    if hot && decide (s.pw.stepTempAt + 1000000 ≤ s.aon) then
      s.setPower 1 { s.pw with stepTemp := min 12 (s.pw.stepTemp + 1), stepTempAt := s.aon }
    else if cool && decide (s.pw.stepTempAt + 10000000 ≤ s.aon) then
      s.setPower 1 { s.pw with stepTemp := s.pw.stepTemp - 1, stepTempAt := s.aon }
    else s.setPower 1 s.pw)

/-- Input power over the last 100 µs: above 1,050 W the step rises, below 1,000 W it falls each 10 ms (R497); while
SAFE_N is in force, power above 600 W adds steps up to 12 (R480). -/
def execInputPowerStep (watts : Nat) (s : State) : Out :=
  .next (s.whenLive fun s =>
    let p := { s.pw with watts := watts }
    let p := if (p.safeLow || p.safeStorm) && decide (600 < watts) then { p with stepSafe := min 12 (p.stepSafe + 1) } else p
    if 1050 < watts then s.setPower 2 { p with stepPower := min 12 (p.stepPower + 1), stepPowerAt := s.aon }
    else if watts < 1000 ∧ s.pw.stepPowerAt + 10000000 ≤ s.aon then
      s.setPower 2 { p with stepPower := p.stepPower - 1, stepPowerAt := s.aon }
    else s.setPower 2 p)

/-- A die reaches 100 °C: ALERT_N and EV_THERMAL_WARN (R482, R496). -/
def execThermalWarn (die temp : Nat) (s : State) : Out := .next (s.whenLive fun s => (s.heat die temp).alert)

/-- ALERT_N is released 1 ms after its last cause ended (R482). -/
def execAlertHoldTimer (s : State) : Out :=
  .next (
    if s.pw.alertLow && !(s.alertCauses.any id) && s.pw.alertEndAt != 0 && decide (s.pw.alertEndAt + 1000000 ≤ s.aon) then
      { s with pw := { s.pw with alertLow := false, alertEndAt := 0 } }
    else s.alert)

/-! ### The TAP (R484) -/

/-- The value of the identification register. -/
def idcodeValue : Nat := 0x04820A3B

/-- The length of the boundary register in cells. -/
def boundaryCells : Nat := 4078

/-- Loads an instruction that is always accepted. -/
def State.tapLoad (s : State) (ir : Nat) (r : JtagReg) : State := { s with jt := { s.jt with ir := ir, reg := r, mode := .functional } }

/-- Loads an instruction accepted only while RESET_N is recognised asserted; otherwise it acts as BYPASS. -/
def State.tapTest (s : State) (ir : Nat) (r : JtagReg) (m : JtagMode) : State :=
  if s.pw.resetHigh then { s with jt := { s.jt with ir := ir, reg := .bypass, mode := .functional } }
  else { s with jt := { s.jt with ir := ir, reg := r, mode := m } }

/-- IDCODE, code 0x01. -/
def execIdcode (s : State) : Out := .next (s.tapLoad 0x01 .idcode)

/-- SAMPLE/PRELOAD, code 0x02: the contacts are captured and the cells preloaded. -/
def execSamplePreload (captured preload : Nat) (s : State) : Out :=
  let t := s.tapLoad 0x02 .boundary
  .next { t with jt := { t.jt with sampled := captured % 2 ^ boundaryCells, preload := preload % 2 ^ boundaryCells } }

/-- EXTEST, code 0x03. -/
def execExtest (s : State) : Out := .next (s.tapTest 0x03 .boundary .extest)
/-- EXTEST_PULSE, code 0x04. -/
def execExtestPulse (s : State) : Out := .next (s.tapTest 0x04 .boundary .extestPulse)
/-- EXTEST_TRAIN, code 0x05. -/
def execExtestTrain (s : State) : Out := .next (s.tapTest 0x05 .boundary .extestTrain)
/-- HIGHZ, code 0x06: the bypass register is selected (IEEE 1149.1). -/
def execHighz (s : State) : Out := .next (s.tapTest 0x06 .bypass .highz)
/-- CLAMP, code 0x07: the bypass register is selected (IEEE 1149.1). -/
def execClamp (s : State) : Out := .next (s.tapTest 0x07 .bypass .clamp)

/-- BYPASS, code 0xFF and every unlisted code; a listed code is not this instruction. -/
def execBypass (code : Nat) (s : State) : Out :=
  .next (if 1 ≤ code % 256 ∧ code % 256 ≤ 7 then s else s.tapLoad (code % 256) .bypass)

end Sys2Proof.Machine
end

