-- ==== Sys2Proof/Machine/Boot.lean ====
section
/-! DEFINITION. The firmware image, self-test, training and the ordered reset (R411 to R416, R491). -/

namespace Sys2Proof.Machine
open Sys2Proof

/-! ### The image (R411, R412) -/

/-- A run of bytes cut from a byte string. -/
def cut (bs : List Byte) (off n : Nat) : List Byte := (bs.drop off).take n

/-- Whether the image's header and reserved bytes have the format of R411. -/
def imageFormatOk (img : List Byte) : Bool :=
  let w := wordsOf 2 img
  fld w 0 63 32 == 0x41444849 && fld w 0 31 24 == 1 && decide (fld w 0 23 16 < 64) && fld w 0 15 0 == 0 &&
    decide (fld w 1 63 32 ≤ 33550336) && fld w 1 15 0 == 0 && (cut img 0x480 2944).all (· == 0#8) &&
    decide (0x1000 + fld w 1 63 32 ≤ img.length)

/-- The bytes that the image's digest and signature cover (R411). -/
def imageSigned (img : List Byte) : List Byte := cut img 0 0x40 ++ cut img 0x1000 (fld (wordsOf 2 img) 1 63 32)

/-- Why an image is not accepted, by the reason codes of R414; none where every condition of R412 holds. -/
def imageFault (img : List Byte) (svnMin : Nat) : Option Nat :=
  if !imageFormatOk img then some 4
  else if sha512 (imageSigned img) ≠ cut img 0x40 64 then some 1
  else if sha512 (cut img 0x280 512) ≠ Config.imageKeyDigest ∨
      !pssVerify (valBE (cut img 0x280 512)) (imageSigned img) (cut img 0x80 512) then some 2
  else if fld (wordsOf 1 img) 0 23 16 < svnMin then some 3
  else none

/-- The facts of an accepted image. -/
def imageInfo (img : List Byte) : ImageInfo :=
  { svn := fld (wordsOf 1 img) 0 23 16, adhVersions := fld (wordsOf 2 img) 1 31 16, digest := cut img 0x40 64, build := cut img 0x10 48 }

/-! ### Measurements (R416) -/

/-- An extension of a measurement: SHA-512 of it followed by a digest. -/
def extend (m d : List Byte) : List Byte := sha512 (m ++ d)

/-- The bytes of a trust record: the domain authority's and the node operator's keys. -/
def trustBytes : Option (Nat × Nat) → List Byte
  | none => []
  | some (da, no) => bytesBE 512 da ++ bytesBE 512 no

/-- Adeah starts on a management die with the image it accepted: M1, M2 and M3 take their boot values, and a pending
raise of the minimum security version blows its fuses at the first such boot; the ports enter DETECT (R413, R415, R416,
R491). -/
def State.adeahStart (s : State) (die : Nat) (img : List Byte) : State :=
  let first := !s.adeahUp
  let info := imageInfo img
  { s with
    lnk := if first then { s.lnk with ports := (List.range 18).map (fun p => (p, { st := .detect, since := s.now, detectAt := s.now })) } else s.lnk
    boot := { s.boot with
      accepted := Tbl.set s.boot.accepted die true, image := info
      bootCount := if first then u64 (s.boot.bootCount + 1) else s.boot.bootCount
      svnMin := if s.boot.raiseSvn then max s.boot.svnMin info.svn else s.boot.svnMin
      raiseSvn := false }
    adh := if first then { s.adh with primary := die, m1 := info.digest, m2 := sha512 (trustBytes s.adh.trust),
                                      m3 := sha512 (Config.personalityBytes s.boot.personality) } else s.adh }

/-- The boot ROM of an MG die ends a read of the image: it accepts it, retries twice, or stays in its ROM and is
fenced; when both dies have failed the recovery loader runs (R412, R414). -/
def execImageVerify (die : Nat) (readOk : Bool) (s : State) : Out :=
  .next (
    if !s.live || decide (2 ≤ die) || Tbl.at s.boot.accepted die false || s.isFenced (dieMG die) || s.boot.recovery.running then s else
      match (if readOk then imageFault s.boot.spiImage s.boot.svnMin else some 5) with
      | none => s.adeahStart die s.boot.spiImage
      | some reason =>
        let n := Tbl.at s.boot.tries die 0 + 1
        let s1 : State := { s with boot := { s.boot with tries := Tbl.set s.boot.tries die n } }
        if n < 3 then s1
        else if s.isFenced (dieMG (1 - die)) then
          let r : Recovery := { running := true, reason := reason, attempts := s1.boot.recovery.attempts + 1, solicitAt := s.now }
          ({ s1 with boot := { s1.boot with recovery := r }, pkg := { s1.pkg with fenced := dieMG die :: s1.pkg.fenced } } : State).alert
        else { s1 with pkg := { s1.pkg with fenced := dieMG die :: s1.pkg.fenced } })

/-- Every 1 s the recovery loader sends RECOVERY_SOLICIT on both planes with the serial, the reason and the attempt
count (R414). -/
def execRecoverySolicit (s : State) : Out :=
  .next (
    if s.live && s.boot.recovery.running && decide (s.boot.recovery.solicitAt ≤ s.now) then
      let bs := bytesOfWords [Config.serial, s.boot.recovery.reason, s.boot.recovery.attempts]
      let s1 : State := { s with boot := { s.boot with recovery := { s.boot.recovery with solicitAt := s.now + 1000000000 } } }
      (s1.gram 49604 0 bs).gram 49604 1 bs
    else s)

/-- The image a loader has staged, in offset order, once every block below its header's length is present. -/
def stagedImage (blocks : Tbl Nat (List Byte)) : Option (List Byte) :=
  match Tbl.get blocks 0 with
  | none => none
  | some b0 =>
    let len := 0x1000 + fld (wordsOf 2 b0) 1 63 32
    let n := ceilDiv len 1024
    if (List.range n).all (fun i => Tbl.has blocks (1024 * i)) then
      some (((List.range n).flatMap (fun i => Tbl.at blocks (1024 * i) [])).take len)
    else none

/-- The loader stores an image block whose CRC-64 verifies; a complete and valid image is written to the SPI NOR and the
management dies are reset to boot it (R414). An invalid one is discarded. -/
def execRecoveryImageBlock (off : Nat) (data : List Byte) (crc : Nat) (s : State) : Out :=
  .next (
    if !s.live || !s.boot.recovery.running || crc64 data ≠ crc || off % 1024 ≠ 0 || data.length ≠ 1024 then s else
      let blocks := Tbl.set s.boot.recovery.blocks off data
      match stagedImage blocks with
      | none => { s with boot := { s.boot with recovery := { s.boot.recovery with blocks := blocks } } }
      | some img =>
        match imageFault img s.boot.svnMin with
        | some reason =>
          let r : Recovery := { s.boot.recovery with blocks := [], reason := reason, attempts := s.boot.recovery.attempts + 1 }
          { s with boot := { s.boot with recovery := r } }
        | none =>
          ({ s with boot := { s.boot with spiImage := img, tries := [], recovery := {} },
                    pkg := { s.pkg with fenced := s.pkg.fenced.filter (fun d => d ≠ 18 ∧ d ≠ 19) },
                    pw := { s.pw with cause := 8 } } : State).alert)

/-! ### Self-test, training and rebuild (R491) -/

/-- A start-up step of R491 over its limit is kept for EV_JOIN_FAILED, by its row in that table. -/
def State.overStep (s : State) (row limit : Nat) : State :=
  if s.aon ≤ s.boot.t0 + limit ∨ s.boot.overSteps.contains row then s
  else { s with boot := { s.boot with overSteps := s.boot.overSteps ++ [row] } }

/-- Self-test ends on a die: a failing die is fenced; on an MC die failed tiles take the four spares first, and below 48
tiles its compute is retired (R446, R491). -/
def execDieSelfTestDone (die : Nat) (pass : Bool) (badTiles : Nat) (s : State) : Out :=
  .next (s.whenLive fun s =>
    if decide (20 ≤ die) || s.boot.selfTested.contains die then s else
      let s1 := ({ s with boot := { s.boot with selfTested := s.boot.selfTested ++ [die] } } : State).overStep 3 400000000
      if !pass then s1.fenceDie die
      else if die < 6 ∨ 14 ≤ die ∨ badTiles = 0 then s1
      else
        let m := die - 6
        let n := min 64 (68 - badTiles)
        let s1 := s1.settle (0x100 + m)
        let s2 : State := { s1 with pkg := { s1.pkg with tiles := Tbl.set s1.pkg.tiles m n, tileSpares := Tbl.set s1.pkg.tileSpares m (4 - badTiles) } }
        let s3 := s2.spareUsed die (0x100 + m) 4 (4 - badTiles)
        let s4 := if n < 64 then s3.capReduced die (0x100 + m) 64 n 0 else s3
        if n < 48 then { s4 with pkg := { s4.pkg with compRetired := s4.pkg.compRetired ++ [m] } } else s4)

/-- The hub state areas: HB0's on the lowest-numbered MC die that trained and HB1's on the highest; on one die alone,
its even and odd channels (R48). -/
def stateAreas (up : List Nat) : Tbl Nat Area :=
  let ds := (up.map (· / 2)).dedup
  match minBy? id ds, maxBy? id ds with
  | some a, some b => [(0, { die := a, odd := false }), (1, { die := b, odd := decide (a = b) })]
  | _, _ => []

/-- DRAM training ends on a channel: pending hard repairs are applied and removed, every channel runs at the highest
common rate, and the state areas are set aside (R48, R485, R491). -/
def execDramTrainingDone (ch : Nat) (pass : Bool) (rate : Nat) (s : State) : Out :=
  .next (s.whenLive fun s =>
    if decide (16 ≤ ch) || s.boot.trainEnded.contains ch || s.isFenced (dieMC (ch / 2)) then s else
      let up := if pass then s.pkg.dramUp ++ [ch] else s.pkg.dramUp
      ({ s with
          boot := { s.boot with trainEnded := s.boot.trainEnded ++ [ch],
                                hardRepairs := if pass then s.boot.hardRepairs.filter (fun r => r.1 ≠ ch) else s.boot.hardRepairs }
          pkg := { s.pkg with dramUp := up, areas := stateAreas up,
                              dramRate := if !pass then s.pkg.dramRate else if s.pkg.dramRate = 0 then rate else min s.pkg.dramRate rate } } : State).overStep 11 8000000000)

/-- At an ordered reset's time the package runs from t0, without a power ramp (R495). -/
def execNodeResetTime (s : State) : Out :=
  .next (s.whenLive fun s =>
    match s.boot.resetAt with
    | some t => if t ≤ s.now then s.cold { s.pw with cause := 3 } else s
    | none => s)

end Sys2Proof.Machine
end

