-- ==== Sys2Proof/Machine/Hub.lean ====
section
/-! DEFINITION. The hub pair, losses of dies and channels, and joining (R43 to R56, R491, R492, R506). -/

namespace Sys2Proof.Machine
open Sys2Proof

/-! ### Losses (R48, R49, R51, R55, R56, R506) -/

/-- Wipes the saved jobs whose save records lay on a lost channel (R506). -/
def State.wipeSaved (s : State) (ch : Nat) : State :=
  ((s.work.cmds.filter (fun c => c.2.st == .saved && c.2.saveCh == ch && c.2.unfinished)).map (·.1)).foldl State.wipeJob s

/-- Blocks in the SRAM arenas become LOST when a hub, and with it half of the SRAM tier, is lost (R98, R216). -/
def State.loseSram (s : State) : State :=
  ((s.kv.arenas.filter (fun a => a.tier == 3)).flatMap (fun a => (List.range a.slots).map (fun i => a.descBase + 64 * i))).foldl
    (fun t da => if (t.desc da).st = dFree ∨ (t.desc da).st > dLost then t else t.setDesc da { t.desc da with st := dLost })
    { s with tier := { s.tier with sramWritten := [] } }

/-- Whether the DRAM that holds a hub's state area still serves (R48). -/
def State.areaServes (s : State) (a : Area) : Bool :=
  let chs := if a.odd then [2 * a.die + 1] else [2 * a.die, 2 * a.die + 1]
  chs.any (fun c => s.channelUp c)

/-- Marks the hub state areas whose DRAM is gone (R48). -/
def State.markAreas (s : State) : State :=
  { s with pkg := { s.pkg with areas := Tbl.mapVals s.pkg.areas (fun _ a => { a with lost := a.lost || !s.areaServes a }) } }

/-! ### Clusters on a lost FL die (R373, R387) -/

/-- Bytes of a record. -/
def Index.recLen (x : Index) : Nat := if x.wide then 128 else 64
/-- Where the centroid vectors start. -/
def Index.vecTab (x : Index) : Nat := x.centBase + 64 * x.nlist
/-- State codes of a centroid (R373). -/
def cEmpty : Nat := 0
/-- In use. -/
def cLive : Nat := 1
/-- Retired by a merge. -/
def cRetired : Nat := 2
/-- Some codeword of its segment was lost. -/
def cDamaged : Nat := 3
/-- The state of a centroid entry. -/
def centState (w : List Nat) : Nat := fld w 2 63 62
/-- Writes a centroid's state into its entry, with a new check value. -/
def State.setCentState (s : State) (x : Index) (c st : Nat) : State :=
  let a := x.centBase + 64 * c
  let w := s.rdWords a 8
  let ws := (w.take 7).set 2 (mkWord [(62, 2, st), (0, 62, word w 2)])
  s.wrWords a (ws ++ [crc64 (bytesOfWords ws ++ s.rd (x.vecTab + c * 2 * x.dim) (2 * x.dim))])

/-- Every LIVE cluster with a page on a fenced FL die becomes DAMAGED (R387); cluster c's pages are on die c mod 2 where none is mapped. -/
def State.loseClusters (s : State) (fl : Nat) : State :=
  s.srch.indexes.foldl (fun (t : State) e =>
    let x := e.2
    (List.range x.nlist).foldl (fun (u : State) c =>
      let w := u.rdWords (x.centBase + 64 * c) 8
      let on := (sectorsOf (word w 0) (x.recLen * fld w 1 63 32)).any (fun k => ((Tbl.get u.tier.map k).map (fun m => m.1 / 16)).getD (c % 2) == fl)
      if centState w = cLive ∧ on = true then u.setCentState x c cDamaged else u) t) s

/-- What else the loss of a die takes: an LK die its lanes, an MC die its channels' save records and state areas, a hub its half of
the SRAM tier, an FL die the clusters on it (R48, R51, R56, R216, R387, R506). -/
def State.dieAftermath (s : State) (d : Nat) : State :=
  if d < 2 then s.loseSram
  else if d < 6 then
    (((List.range 18).flatMap (fun n => [n, n + 32, n + 64])).filter (fun p => s.portExists p &&
      (portLanes p).any (fun k => globalLane p k / 36 == d - 2))).foldl State.widthCheck s
  else if d < 14 then ((s.wipeSaved (2 * (d - 6))).wipeSaved (2 * (d - 6) + 1)).markAreas
  else if d < 16 then s.loseClusters (d - 14)
  else s

/-- A die is lost (R56). -/
def State.loseDie (s : State) (d : Nat) : State := if s.isFenced d then s else (s.fenceDie d).dieAftermath d

/-- MG0 or MG1 fences a die after a fault its spares cannot absorb (R56). -/
def execDieFence (die : Nat) (s : State) : Out :=
  .next (s.whenLive fun s => if 20 ≤ die then s else s.loseDie die)

/-- A hub is fenced: the survivor carries the package; bulk transfers it has not acknowledged, given with their credit units, wait
to be re-sent, with those units booked in transit (R51). -/
def execHubFence (hub : Nat) (unacked : List (Nat × Nat × Nat × List Byte)) (s : State) : Out :=
  .next (s.whenLive fun s =>
    if 2 ≤ hub ∨ s.isFenced hub then s
    else
      let s1 := s.loseDie hub
      unacked.foldl (fun t u =>
        let b : Bulk := { hub := hub, sentAt := t.now, units := u.2.1, addr := u.2.2.1, data := u.2.2.2 }
        ({ t with pkg := { t.pkg with bulk := Tbl.set t.pkg.bulk u.1 b } } : State).bookNew qCredits (0x1000 + hub) 1 u.2.1) s1)

/-- 10 µs after it was sent, an unacknowledged bulk transfer is re-sent through the survivor, which discards one whose number it has
applied; the units it held are returned (R51). -/
def execHubBulkResend (seq : Nat) (s : State) : Out :=
  .next (s.whenLive fun s =>
    match Tbl.get s.pkg.bulk seq with
    | none => s
    | some b =>
      if s.now < b.sentAt + 10000 then s
      else
        let s1 : State := { s with pkg := { s.pkg with bulk := Tbl.del s.pkg.bulk seq, bulkApplied := s.pkg.bulkApplied ++ [seq] } }
        let s2 := if s.pkg.bulkApplied.contains seq then s1 else s1.store b.addr b.data
        s2.bookEnd qCredits (0x1000 + b.hub) 1 b.units)

/-- The MC die for a new state area: the next in service in rising number with wrap, passing over the other hub's die whenever
another is available (R48). -/
def State.nextAreaDie (s : State) (hub : Nat) : Option Nat :=
  let old := ((Tbl.get s.pkg.areas hub).map (·.die)).getD 0
  let other := (Tbl.get s.pkg.areas (1 - hub)).map (·.die)
  let ups := ((List.range 8).map (fun i => (old + 1 + i) % 8)).filter (fun m => s.channelUp (2 * m) || s.channelUp (2 * m + 1))
  (ups.find? (fun m => some m != other)).orElse (fun _ => ups.head?)

/-- A hub's state area is lost with its DRAM: a new one is set aside and the copy from the other hub begins (R48). -/
def execHubStateAreaLoss (hub : Nat) (s : State) : Out :=
  .next (s.whenLive fun s =>
    match Tbl.get s.pkg.areas hub, s.nextAreaDie hub with
    | some a, some m =>
      if (!a.lost && s.areaServes a) || a.copyStart.isSome then s
      else
        let other := (Tbl.get s.pkg.areas (1 - hub)).map (·.die)
        let a' : Area := { die := m, odd := (some m == other) && hub == 1, lost := true, copyStart := some s.now }
        { s with pkg := { s.pkg with areas := Tbl.set s.pkg.areas hub a' } }
    | _, _ => s)

/-- The copy of a hub's state area ends, no sooner than its 402,653,184 bytes take at 100 GB/s; EV_CAPACITY_REDUCED carries the DRAM
available to quotas before and after (R48). -/
def execHubStateAreaCopyDone (hub : Nat) (s : State) : Out :=
  .next (s.whenLive fun s =>
    match Tbl.get s.pkg.areas hub with
    | none => s
    | some a =>
      match a.copyStart with
      | none => s
      | some t =>
        if s.now < t + 4026532 then s
        else
          let before : State := { s with pkg := { s.pkg with areas := Tbl.del s.pkg.areas hub } }
          let s1 : State := { s with pkg := { s.pkg with areas := Tbl.set s.pkg.areas hub { a with lost := false, copyStart := none } } }
          s1.capReduced (dieHB hub) (0x900 + hub) (before.tierCapacity 1) (s1.tierCapacity 1) 0)

/-- A DRAM (kind 0) or flash (kind 1) channel is lost: its lines and sectors fail from then on, jobs saved on it are wiped, and
EV_CAPACITY_REDUCED carries the channels before and after (R55, R284, R446, R447, R506). -/
def execChannelLoss (kind ch : Nat) (s : State) : Out :=
  .next (s.whenLive fun s =>
    if kind = 0 then
      if !s.channelUp ch then s
      else
        let before := (s.pkg.dramUp.filter s.channelUp).length
        let work := (s.work.cmds.filter (fun c => c.2.st == .saved && c.2.saveCh == ch && c.2.unfinished)).length
        let s := s.settle (0x700 + ch)
        let s1 := (({ s with pkg := { s.pkg with dramLost := s.pkg.dramLost ++ [ch] } } : State).wipeSaved ch).markAreas
        s1.capReduced (dieMC (ch / 2)) (0x700 + ch) before (before - 1) work
    else if !s.flashChanUp ch then s
    else
      let before := (s.pkg.flashUp.filter s.flashChanUp).length
      let s := s.settle (0x600 + ch)
      ({ s with pkg := { s.pkg with flashLost := s.pkg.flashLost ++ [ch] } } : State).capReduced (dieFL (ch / 16)) (0x600 + ch) before (before - 1) 0)

/-! ### Rounds (R43, R46, R47, R49) -/

/-- Inputs of the round arbiter; its index is 0 (R43, R44; log 14). -/
def roundInputs : Nat := 24

/-- The operations of a round in source order from the rotating pointer; a fenced die is no source (R46, R51). -/
def State.roundOrder (s : State) (contrib : List (Nat × Option Packet)) : List (Nat × Packet) :=
  let p := s.ptr 0 roundInputs
  let live := contrib.filterMap (fun c => c.2.map (fun k => (c.1, k)))
  sortBy (fun a b => decide ((a.1 + roundInputs - p) % roundInputs ≤ (b.1 + roundInputs - p) % roundInputs)) live

/-- Atomics of a round that lose their line to an earlier one (R45, R289). -/
def roundLosers : List (Nat × Packet) → List Nat → List (Nat × Packet)
  | [], _ => []
  | e :: es, won =>
    let line := e.2.addr / 64
    if isAtomic e.2.ty then (if won.contains line then e :: roundLosers es won else roundLosers es (line :: won)) else roundLosers es won

/-- A round closes: both hubs apply its operations in one order; of the atomics that meet on a line one is granted and the others
are refused, and stores follow the atomic they met. The outputs are held back with their digest (R43, R45 to R47, R289). -/
def execHubRoundClose (contrib : List (Nat × Option Packet)) (s : State) : Out :=
  .next (s.whenLive fun s =>
    let order := s.roundOrder contrib
    let losers := roundLosers order []
    let lines := (order.filter (fun e => isAtomic e.2.ty)).map (fun e => e.2.addr / 64)
    let late := fun (e : Nat × Packet) => (e.2.ty == .store || e.2.ty == .storeFlag) && lines.contains (e.2.addr / 64)
    let first := (order.head?.map (·.1)).getD 0
    let run := (order.filter (fun e => !late e)) ++ order.filter late
    let s1 := run.foldl (fun t e =>
      if losers.contains e then (t.consume (e.1 % 256) e.2).refusePkt e.2 .retryContended else t.receive 0xFF e.2) s
    let out := s1.lnk.queue.drop s.lnk.queue.length
    let bytes := out.flatMap (fun q => q.pkt.bytes)
    let s2 : State := { s1 with
      lnk := { s1.lnk with queue := s1.lnk.queue.take s.lnk.queue.length }
      pkg := { s1.pkg with round := s.pkg.round + 1, heldOut := s1.pkg.heldOut ++ out, digest := crc64 bytes, reExecuted := false } }
    let s3 := [0, 1].foldl (fun (t : State) i => (t.unitEvent (0x900 + i) 0x0903 1 none).unitEvent (0x900 + i) 0x0902 losers.length none) s2
    if order.isEmpty then s3 else s3.granted 0 roundInputs first)

/-- Releases the outputs of a round. -/
def State.releaseRound (s : State) : State :=
  { s with lnk := { s.lnk with queue := s.lnk.queue ++ s.pkg.heldOut }, pkg := { s.pkg with heldOut := [] } }

/-- EV_HUB_MISCOMPARE with its outcome: 1 transient, 2 fenced, 3 double (R49; log 14). -/
def State.miscompare (s : State) (outcome : Nat) : State := s.raise0 .hubMiscompare s.hubDie 0 [outcome, s.pkg.round]

/-- The round is executed again once: equal digests now are a transient, else HB1 is fenced (R49). -/
def State.reExecute (s : State) (agree : Bool) : State :=
  let s0 : State := { s with pkg := { s.pkg with reExecuted := true } }
  let s1 := (s0.unitEvent 0x900 0x0904 1 none).unitEvent 0x901 0x0904 1 none
  if agree then s1.releaseRound.miscompare 1 else (s1.loseDie 1).releaseRound.miscompare 2

/-- A hub receives the pair's digest: equal ones release the round's outputs, different ones lead to the ECC checks of R49. A hub
that is alone has no pair to compare with (R47, R49, R51). -/
def execRoundDigestCompare (peer : Nat) (ecc0 ecc1 unreadable agreeAgain : Bool) (s : State) : Out :=
  .next (s.whenLive fun s =>
    if s.isFenced 0 || s.isFenced 1 || peer == s.pkg.digest then s.releaseRound
    else if ecc0 && ecc1 then
      if unreadable then
        let s1 := s.miscompare 3
        ({ s1 with pkg := { s1.pkg with heldOut := [] } } : State).loseDie 0 |>.loseDie 1
      else s.reExecute agreeAgain
    else if ecc0 then (s.loseDie 0).releaseRound
    else if ecc1 then (s.loseDie 1).releaseRound
    else s.reExecute agreeAgain)

/-! ### Rebuild and joining (R489, R491, R492) -/

/-- NAND rebuild ends on a flash die: its populated channels, with their sectors and NAND blocks, are known, every logical sector
is unmapped (R486, R491). -/
def execNandRebuildDone (die : Nat) (chans : List (Nat × Nat × Nat)) (s : State) : Out :=
  .next (s.whenLive fun s =>
    if s.isFenced die || s.boot.nandEnded.contains die || !(die == 14 || die == 15) then s else
      let mine := chans.filter (fun c => c.1 / 16 + 14 == die && decide (c.1 < 32))
      let s1 : State := { s with
        boot := { s.boot with nandEnded := s.boot.nandEnded ++ [die] }
        pkg := { s.pkg with flashUp := s.pkg.flashUp.filter (fun c => c / 16 + 14 ≠ die) ++ mine.map (·.1) }
        tier := { s.tier with chans := mine.foldl (fun t c => Tbl.set t c.1 { sectors := c.2.1, blocks := c.2.2, spare := c.2.2 / 8 }) s.tier.chans
                              map := s.tier.map.filter (fun e => e.2.1 / 16 + 14 ≠ die) } }
      s1.overStep 10 10000000000)

/-- ACTIVE ports whose partner has a role: 1 FABRIC, 2 ACCELERATOR, 4 HOST. -/
def State.activeRole (s : State) (role : Nat) : Nat :=
  (s.lnk.ports.filter (fun p => p.2.st == .active && (p.2.partnerRole == role || p.2.partners.any (fun e => e.2.role == role)))).length

/-- MC dies with both channels trained. -/
def State.mcTrained (s : State) : List Nat := (List.range 8).filter (fun m => s.channelUp (2 * m) && s.channelUp (2 * m + 1))

/-- Populated flash channels of a flash die. -/
def State.flashOn (s : State) (fl : Nat) : Nat := (s.pkg.flashUp.filter (fun c => s.flashChanUp c && c / 16 == fl)).length

/-- The population check of the personality (R489); without one there is nothing to need. -/
def State.populated (s : State) : Bool :=
  match s.boot.personality with
  | 1 | 2 => !s.mcTrained.isEmpty && decide (0 < s.activeRole 2) && decide (0 < s.activeRole 1)
  | 3 => s.mcTrained.contains 0 && (decide (8 ≤ s.flashOn 0) || decide (8 ≤ s.flashOn 1)) && decide (0 < s.activeRole 1)
  | _ => true

/-- The conditions of R492 that do not hold: 1 locked, 2 population, 3 a hub, 4 training and rebuild. -/
def State.unmet (s : State) : List Nat :=
  let trained := ((List.range 16).filter (fun c => decide (0 < s.dimmBytes c) && !s.isFenced (dieMC (c / 2)))).all s.boot.trainEnded.contains
  let rebuilt := ([14, 15].filter (fun d => !s.isFenced d)).all s.boot.nandEnded.contains
  (if s.timeLocked then [] else [1]) ++ (if s.populated then [] else [2]) ++ (if s.isFenced 0 && s.isFenced 1 then [3] else []) ++
    (if trained && rebuilt then [] else [4])

/-- The node joins as soon as its conditions hold (R492). -/
def execNodeJoin (s : State) : Out :=
  .next (s.whenLive fun s =>
    if s.boot.joined || !s.adeahUp || !s.unmet.isEmpty then s
    else
      ({ s with boot := { s.boot with joined := true } } : State).raise0 .nodeJoined (dieMG s.adh.primary) 0
        [s.pw.cause, s.aon - s.boot.t0, s.boot.personality, ((List.range 8).filter (fun m => s.channelUp (2 * m) || s.channelUp (2 * m + 1))).length,
         (s.pkg.flashUp.filter s.flashChanUp).length, (s.lnk.ports.filter (fun p => p.2.st == .active)).length,
         ((List.range 8).map s.tilesOf).sum])

/-- 60 s after t0 and every 60 s after, a node that has not joined says which conditions it lacks and which steps were late
(R4, R491, R492). -/
def execJoinFailedTimer (s : State) : Out :=
  .next (s.whenLive fun s =>
    let last := if s.boot.joinFailAt = 0 then s.boot.t0 else s.boot.joinFailAt
    if s.boot.joined || decide (s.aon < last + 60000000000) then s
    else
      let mask := fun (l : List Nat) => (l.map (fun i => 2 ^ i)).sum
      ({ s with boot := { s.boot with joinFailAt := s.aon } } : State).raise0 .joinFailed (dieMG s.adh.primary) 0 [mask s.unmet, mask s.boot.overSteps])

end Sys2Proof.Machine
end

