-- ==== Sys2Proof/Machine/Queues.lean ====
section
/-! DEFINITION. Command fetch, deadlines, saving, completion, engine faults, and the ends of queues, VIs and context slots
(R59, R66, R69, R71 to R76, R79 to R86, R44). -/

namespace Sys2Proof.Machine
open Sys2Proof

/-! ### Fetch (R71, R73, R75) -/

/-- The opcodes of R77 by class. -/
def opcodes (cls : Nat) : List Nat :=
  if cls = 1 then [1, 2, 3, 4, 5, 6] else if cls = 2 then [1, 2, 3] else if cls = 3 then [1, 2, 3, 4, 5]
  else if cls = 4 ∨ cls = 5 then [1, 2, 3] else if cls = 6 then [1, 2] else []

/-- Whether a command's header fails the checks made when it is fetched: class, opcode, reserved fields, and what format 1
reserves (R10, R63, R75). -/
def headerBad (cls fmt : Nat) (w : List Nat) : Bool :=
  fld w 0 47 44 != cls || !(opcodes cls).contains (fld w 0 43 36) || !allZero w [(0, 25, 24), (1, 63, 48)] ||
  (fmt == 1 && !allZero w [(0, 30, 30), (0, 28, 0)])

/-- A fetched command enters the hub: its acceptance time is that of the doorbell that exposed it, it is counted for sampling, and a
failed header check or a broken chain gives its outcome at once (R73, R75, R76, R468). -/
def State.admitCmd (s : State) (k : QKey) (index : Nat) (w : List Nat) (st : Option Status) : State :=
  let q := s.queue k
  let past := fun (a : Nat × Nat) => decide (0 < sub32 a.1 index) && decide (sub32 a.1 index < 2 ^ 31)
  let acceptT := ((q.accepts.find? past).map (·.2)).getD s.now
  let x := (s.vi k.1).sampling
  let count := Tbl.at x.counts k.2.1 0
  let st' := if q.abortAt = some index then some Status.chainAborted else st.orElse (fun _ => if headerBad k.2.1 q.fmt w then some .invalidField else none)
  let c : Cmd := { vi := k.1, cls := k.2.1, q := k.2.2, index := index, fmt := q.fmt, words := w, acceptT := acceptT, fetchT := s.now, since := s.now
                   samplers := s.samplersOf k.1 k.2.1 count, outcome := st'.map (fun x => (x, 0)) }
  let q' := { q with cmdHead := u32 (index + 1), reread := none, abortAt := if q.abortAt = some index then none else q.abortAt
                     accepts := q.accepts.filter (fun a => decide (0 < sub32 a.1 (index + 1)) && decide (sub32 a.1 (index + 1) < 2 ^ 31)) }
  let s1 := (s.setQueue k q').updVi k.1 (fun v => { v with sampling := { x with counts := Tbl.set x.counts k.2.1 (count + 1) } })
  { s1 with work := { s1.work with cmds := s1.work.cmds ++ [(s1.work.nextCid, c)], nextCid := s1.work.nextCid + 1 } }

/-- Reads the command at an index and admits it where its `seq` matches; `wrong` says what a mismatch means (R73). A ring no longer
covered puts the queue in ERROR (R66). -/
def State.readCmd (s : State) (k : QKey) (index : Nat) (wrong : List Nat → State) : State :=
  let q := s.queue k
  let a := q.ringBase + index % 2 ^ q.ringLog2 * 64
  if !s.covers k.1 a 64 (rRing + rRd) then s.queueError k 3
  else match s.readFault a 64 with
    | some st => s.admitCmd k index [mkWord [(48, 16, index), (44, 4, k.2.1)], 0, 0, 0, 0, 0, 0, 0] (some st)
    | none =>
      let w := s.rdWords a 8
      if fld w 0 63 48 = index % 2 ^ 16 then s.admitCmd k index w none else wrong w

/-- The hub fetches a queue's next command: one a doorbell has exposed, while its completion record has a place (R71, R73). -/
def execCommandFetch (vi cls q : Nat) (s : State) : Out :=
  .next (s.whenLive fun s =>
    let k : QKey := (vi, cls, q)
    let x := s.queue k
    if (s.vi vi).st ≠ .active ∨ x.st ≠ .active ∨ x.reread.isSome ∨ x.cmdHead = x.cmdTail ∨ 2 ^ x.ringLog2 ≤ sub32 x.cmdHead x.cplHead then s
    else s.readCmd k x.cmdHead (fun _ => s.setQueue k { x with reread := some { index := x.cmdHead, tries := 0, due := s.now + 1000 } }))

/-- 1 µs after a wrong `seq` the command is read again, up to three times; after that it completes with ST_CMD_NOT_READY (R73). -/
def execSeqRereadTimer (vi cls q : Nat) (s : State) : Out :=
  .next (s.whenLive fun s =>
    let k : QKey := (vi, cls, q)
    let x := s.queue k
    match x.reread with
    | none => s
    | some r =>
      if x.st ≠ .active ∨ (s.vi vi).st ≠ .active ∨ s.now < r.due then s
      else s.readCmd k r.index (fun w =>
        if 2 ≤ r.tries then s.admitCmd k r.index w (some .cmdNotReady)
        else s.setQueue k { x with reread := some { r with tries := r.tries + 1, due := s.now + 1000 } }))

/-- A command not dispatched `deadline_rel` µs after its doorbell was accepted completes with ST_DEADLINE_MISSED (R76). -/
def execDeadlineExpiry (cid : Nat) (s : State) : Out :=
  .next (s.whenLive fun s =>
    match Tbl.get s.work.cmds cid with
    | none => s
    | some c =>
      let rel := fld c.words 0 23 0
      if c.st ≠ .waiting ∨ c.dispT.isSome ∨ c.outcome.isSome ∨ c.fmt ≠ 2 ∨ rel = 0 ∨ s.now < c.acceptT + 1000 * rel then s
      else s.finish cid .deadlineMissed 0)

/-! ### Saving and completion (R78, R83, R84, R506) -/

/-- Trained channels on which an instance's save records lie (R506); which of them holds one record is open (log 3). -/
def State.saveChannels (s : State) (cls inst : Nat) : List Nat :=
  if cls = 2 then [2 * inst, 2 * inst + 1].filter s.channelUp else s.pkg.dramUp.filter s.channelUp

/-- A job's working state has been saved at its pre-emption boundary: its slot is free, and it is charged and counted (R83, R84,
R462). -/
def execJobSaveDone (cid : Nat) (s : State) : Out :=
  .next (s.whenLive fun s =>
    match Tbl.get s.work.cmds cid with
    | none => s
    | some c =>
      if c.st ≠ .stopping then s
      else if c.outcome.isSome then s.updCmd cid (fun c => { c with st := .running })
      else
        let (w, s0) := s.draw
        let chs := s.saveChannels c.cls c.inst
        let measured := min (s.now - c.since) (Config.engineMeasured c.since)
        let s1 := ((s0.settle (unitOf c.cls c.inst)).chargeEnd c).tally (if c.cls = 2 then { c with events := Tbl.set c.events 0x010B (Tbl.at c.events 0x010B 0 + 1) } else c)
        (s1.updCmd cid (fun c => { c with
          st := .saved, since := s.now, engineNs := c.engineNs + measured, preempts := sat 255 (c.preempts + 1), events := []
          estimate := 0, saveCh := chs.getD (w % max 1 chs.length) 0 })).account c.vi c.cls 4 1)

/-- A job's result has reached the hub: its effects, its record, and what follows them (R78). -/
def execJobCompletionStep (cid : Nat) (s : State) : Out := .next (s.whenLive fun s => s.completeCmd cid)

/-! ### Engine faults (R85, R86, R446) -/

/-- The capacity figure of an instance: its tiles for Attend, else one engine (R85). -/
def State.instCapacity (s : State) (cls i : Nat) : Nat :=
  if (s.inst cls i).st = .retired then 0 else if cls = 2 then s.tilesOf i else 1

/-- The die that carries an instance. -/
def instDie (cls i : Nat) : Nat := if cls = 2 then dieMC i else if cls = 3 then dieCX i else if cls = 6 then dieLK i else dieFL 0

/-- Whether an instance exists among the classes that fault by wiping (R67, R86). -/
def faultable (cls i : Nat) : Bool :=
  (cls == 2 && decide (i < 8)) || (cls == 3 && decide (i < 2)) || (cls == 4 && i == 0) || (cls == 6 && decide (i < 4))

/-- An instance faults: every job on it, running and saved, is wiped, and it resets and runs its self-test (R85). -/
def execEngineFault (cls inst : Nat) (s : State) : Out :=
  .next (s.whenLive fun s =>
    if !faultable cls inst || (s.inst cls inst).st != .service || s.isFenced (instDie cls inst) then s
    else
      let jobs := s.wipable cls inst
      let s1 := s.updInst cls inst (fun x => { x with st := .selfTest, wiped := jobs.length, capBefore := s.instCapacity cls inst, waiting := none })
      s1.wipeInst cls inst)

/-- The self-test after a fault ends: the instance returns to service, with failed tiles replaced by spares first, or is retired;
EV_ENGINE_FAULT carries the capacity before and after (R85, R446, R447). -/
def execEngineSelfTestDone (cls inst : Nat) (pass : Bool) (badTiles : Nat) (s : State) : Out :=
  .next (s.whenLive fun s =>
    let x := s.inst cls inst
    if x.st ≠ .selfTest then s
    else
      let unit := unitOf cls inst
      let die := instDie cls inst
      let spares := Tbl.at s.pkg.tileSpares inst 4
      let used := if cls = 2 then min spares badTiles else 0
      let n := Tbl.at s.pkg.tiles inst 64 - (badTiles - used)
      let dead := !pass || (cls == 2 && decide (n < 48))
      let s1 := (s.settle unit).updInst cls inst (fun x => { x with st := if dead then .retired else .service })
      let s2 : State := if cls = 2 then { s1 with pkg := { s1.pkg with
          tiles := Tbl.set s1.pkg.tiles inst n, tileSpares := Tbl.set s1.pkg.tileSpares inst (spares - used)
          compRetired := if dead && !s1.pkg.compRetired.contains inst then s1.pkg.compRetired ++ [inst] else s1.pkg.compRetired } } else s1
      let s3 := if used = 0 then s2 else s2.spareUsed die unit spares (spares - used)
      let after := s3.instCapacity cls inst
      let s4 := if after < x.capBefore then s3.capReduced die unit x.capBefore after x.wiped else s3
      s4.raise0 .engineFault die unit [unit, x.wiped, x.capBefore, after])

/-! ### Ends of queues, VIs, slots and regions (R59, R66, R69, R79, R80) -/

/-- Commands of a VI that are fetched and not complete. -/
def State.viBusy (s : State) (v : Nat) : Bool := s.work.cmds.any (fun c => c.2.vi == v)

/-- A DRAINING queue whose commands have all completed is freed, and its destruction completes with the `cmd_head` it had (R69). -/
def execQueueDrainDone (vi cls q : Nat) (s : State) : Out :=
  .next (s.whenLive fun s =>
    let k : QKey := (vi, cls, q)
    let x := s.queue k
    if x.st ≠ .draining ∨ s.outstanding k ≠ 0 then s
    else
      let s1 : State := { s with work := { s.work with queues := Tbl.del s.work.queues k } }
      (x.destroyOp.map (fun r => s1.finishOp r .ok x.destroyHead [])).getD s1)

/-- An accepted reset takes effect once nothing of the queue is outstanding (R69). -/
def execQueueResetApply (vi cls q : Nat) (s : State) : Out :=
  .next (s.whenLive fun s =>
    let k : QKey := (vi, cls, q)
    let x := s.queue k
    match x.resetOp with
    | none => s
    | some (cmd, cpl, r) =>
      if x.st ≠ .error ∨ s.outstanding k ≠ 0 then s
      else
        let s1 := s.setQueue k { x with st := .active, reason := 0, cmdHead := u32 cmd, cmdTail := u32 cmd, cplTail := u32 cpl, cplHead := u32 cpl
                                        resetOp := none, reread := none, abortAt := none, accepts := [] }
        s1.finishOp r .ok 0 [x.cmdHead, x.cmdTail, x.cplTail, x.cplHead])

/-- A slot with no binding left is UNLOADING (R80). -/
def State.unbound (s : State) (slot : Nat) : State :=
  if s.work.vis.any (fun v => v.2.ctxMap.any (fun b => b.2 == slot)) then s
  else { s with work := { s.work with ctxs := Tbl.upd s.work.ctxs slot (fun c => if c.st = .empty then c else { c with st := .unloading }) } }

/-- A QUIESCING VI with no command left is UNASSIGNED: its queues are destroyed, its slots unbound, its counters zeroed, and
ADH_VI_RELEASE completes (R59). -/
def execViQuiesceDone (vi : Nat) (s : State) : Out :=
  .next (s.whenLive fun s =>
    let x := s.vi vi
    if x.st ≠ .quiescing ∨ s.viBusy vi then s
    else
      let queues := s.work.queues.filter (fun q => q.1.1 == vi && q.2.st != .disabled)
      let s1 : State := { s with work := { s.work with
        queues := s.work.queues.filter (fun q => q.1.1 != vi), vis := Tbl.del s.work.vis vi } }
      let s2 := (x.ctxMap.map (·.2)).dedup.foldl State.unbound s1
      let s3 := queues.foldl (fun t q => (q.2.destroyOp.map (fun r => t.finishOp r .ok q.2.destroyHead [])).getD t) s2
      let s4 : State := { s3 with tra := { s3.tra with telemetry := Tbl.del s3.tra.telemetry vi }
                                  perf := { s3.perf with captures := s3.perf.captures.filter (fun c => c.vi != vi) } }
      (x.releaseOp.map (fun r => s4.finishOp r .ok 0 [])).getD s4)

/-- An UNLOADING slot that no dispatched command names is EMPTY, its factors dropped (R80, R187). -/
def execContextSlotEmpty (slot : Nat) (s : State) : Out :=
  .next (s.whenLive fun s =>
    if (s.ctx slot).st ≠ .unloading ∨ s.work.cmds.any (fun c => c.2.slot == some slot) then s
    else { s with
      work := { s.work with ctxs := Tbl.del s.work.ctxs slot }
      cb := { s.cb with reservoirs := s.cb.reservoirs.filter (fun r => r.1.1 != slot), snaps := s.cb.snaps.filter (fun r => r.1.1 != slot)
                        mutes := s.cb.mutes.filter (fun r => r.1.1 != slot), cache := s.cb.cache.filter (fun r => r.1.2.1 != slot)
                        windowAt := Tbl.del s.cb.windowAt slot } })

/-- The codebook directory of a newly loaded slot: its header, entries with no version, and statistics lines of zero (R188, R190, R191). -/
def State.newDirectory (s : State) (slot : Nat) : State :=
  let f := (s.ctx slot).f
  let s1 := s.wrWords f.codebookDir (f.dirHeader (s.calibNode f.composition))
  let s2 := (List.range f.entries).foldl (fun t e => (t.setCbSet slot e {}).wrWords (f.statsAddr e 0) (List.replicate 64 0)) s1
  { s2 with cb := { s2.cb with windowAt := Tbl.set s2.cb.windowAt slot s2.now } }

/-- A LOADING slot is READY: its directory is written, its load completes with its number, and the commands that waited for it may be
dispatched (R79, R81, R188). -/
def execContextLoadDone (slot : Nat) (s : State) : Out :=
  .next (s.whenLive fun s =>
    let c := s.ctx slot
    if c.st ≠ .loading then s
    else
      let s1 : State := { s with work := { s.work with
        ctxs := Tbl.set s.work.ctxs slot { c with st := .ready, loadOp := none }
        cmds := Tbl.mapVals s.work.cmds (fun _ d =>
          if d.st = .waiting ∧ Tbl.get (s.vi d.vi).ctxMap (fld d.words 0 35 32) = some slot then { d with since := s.now } else d) } }
      let s2 := s1.newDirectory slot
      (c.loadOp.map (fun r => s2.finishOp r .ok slot [])).getD s2)

/-- Commands of a VI dispatched under an older region table are gone: the change order no longer waits for them (R66, R405). -/
def execRegionDrainDone (vi : Nat) (s : State) : Out :=
  .next (s.whenLive fun s =>
    match s.adh.order with
    | none => s
    | some o =>
      let old := fun (g : Nat) => s.work.cmds.any (fun c => c.2.vi == vi && c.2.dispT.isSome && c.2.regionGen != g)
      { s with adh := { s.adh with order := some { o with regions := o.regions.filter (fun r => r.1 != vi || old r.2) } } })

/-! ### The fabric epoch (R44, R82, R468) -/

/-- Engine time estimated for the commands of a phase group that wait for an instance (R82). -/
def State.backlog (s : State) (cls i : Nat) (g : Bool) : Nat :=
  ((s.work.cmds.filter (fun c => c.2.cls == cls && c.2.outcome.isNone && [CmdSt.waiting, .saved, .wiped].contains c.2.st &&
    (let q := s.queue (c.2.vi, c.2.cls, c.2.q); q.phaseG == g && (q.inst.map (fun n => n == i)).getD true))).map
      (fun c => Config.engineEstimate c.2.op)).sum

/-- The G share at an epoch boundary (R82). -/
def nextShare (x : Inst) (backG backP : Nat) : Nat :=
  let g := x.usedG + backG
  let p := x.usedP + backP
  let target := if g + p = 0 then x.sG else 256 * g / (g + p)
  (3 * x.sG + max x.floorG (min (256 - x.floorP) target)) / 4

/-- Recomputes an instance's phase shares and opens its next interval. -/
def State.rephase (s : State) (cls i : Nat) : State :=
  s.updInst cls i (fun x => { x with sG := nextShare x (s.backlog cls i true) (s.backlog cls i false), usedG := 0, usedP := 0 })

/-- A fabric epoch boundary: every arbiter reloads its pointer, shared engines recompute their shares, and sampling offsets are
reloaded (R44, R82, R468). -/
def execFabricEpochBoundary (s : State) : Out :=
  .next (s.whenLive fun s =>
    if s.now % 1048576 ≠ 0 then s
    else
      let e := bits s.now 35 20
      let s1 : State := { s with pkg := { s.pkg with epoch := some s.now, ptrs := [] } }
      let s2 : State := ((List.range 16).map (fun i => (1, i)) ++ [(3, 0), (3, 1)]).foldl (fun (t : State) (i : Nat × Nat) => t.rephase i.1 i.2) s1
      { s2 with work := { s2.work with vis := s2.work.vis.map (fun v =>
        (v.1, { v.2 with sampling := { v.2.sampling with offsets := v.2.sampling.intervals.map (fun n => (n.1, (e + v.1) % max 1 n.2)) } })) } })

end Sys2Proof.Machine
end

