-- ==== Sys2Proof/Machine/AdhVi.lean ====
section
/-! DEFINITION. Mailbox operations of the interface, of virtual interfaces, queues, engines and context slots (R58 to R83, R397 to R402, R408). -/

namespace Sys2Proof.Machine
open Sys2Proof

/-- The reference of a deferred operation's final record; an action of a change order has none of its own (R405). -/
def State.refIf (s : State) (c : Caller) (op : Nat) : Option OpRef := if c.order.isSome then none else some (s.refOf c op)

/-! ### The interface (R397 to R401, R408) -/

/-- ADH_HELLO: the bitmaps of versions in the result, the build, `svn` and the last order sequence in the body (R399). -/
def doHello (s : State) : AdhOut :=
  ⟨.ok, mkWord [(0, 16, 12), (16, 8, 6), (24, 8, 2), (32, 8, 2)], wordsOf 6 (padTo 48 s.boot.image.build) ++ [s.boot.image.svn, u64 s.adh.lastOrder], s⟩
/-- ADH_HELLO. -/
def execAdhHello (c : Caller) (s : State) : Out := .next (s.adhRun 0x0101 .userRead c doHello)

/-- ADH_ASYNC_SET: the ring and its tail line lie in regions granting `wr` (R397). -/
def doAsyncSet (c : Caller) (base log2 tail : Nat) (s : State) : AdhOut :=
  if log2 < 4 ∨ 16 < log2 ∨ base % 64 ≠ 0 ∨ tail % 64 ≠ 0 then adhFail .invalidField s
  else if !s.covers c.vi base (2 ^ log2 * 64) rWr then adhRegion base s
  else if !s.covers c.vi tail 64 rWr then adhRegion tail s
  else adhOk (s.updVi c.vi (fun x => { x with asyncRing := some { base := base, log2 := log2, tail := tail }, asyncWait := [] }))
/-- ADH_ASYNC_SET. -/
def execAdhAsyncSet (c : Caller) (base log2 tail : Nat) (s : State) : Out := .next (s.adhRun 0x0102 .user c (doAsyncSet c base log2 tail))

/-- Events that concern the VIs whose work raised them (R401, R409). -/
def foreignEvents : List Ev := [.targetDead, .queueError, .streamBlocked, .msgTimeout, .violation]

/-- ADH_EVENT_SUBSCRIBE: adds event codes to the VI's ring; those that concern other VIs only for an OPERATOR (R401). -/
def doEventSubscribe (c : Caller) (codes : List Nat) (s : State) : AdhOut :=
  if codes.any (fun n => !Ev.all.any (fun e => e.code == n)) then adhFail .invalidField s
  else if !s.isOperator c && codes.any (fun n => foreignEvents.any (fun e => e.code == n)) then adhRights s
  else adhOk (s.updVi c.vi (fun x => { x with subscribed := (x.subscribed ++ codes).dedup }))
/-- ADH_EVENT_SUBSCRIBE. -/
def execAdhEventSubscribe (c : Caller) (codes : List Nat) (s : State) : Out := .next (s.adhRun 0x0103 .user c (doEventSubscribe c codes))

/-- Units, capacity before and after, of the last loss of capacity (R447). -/
def State.lastLoss (s : State) : List Nat :=
  match s.log.events.find? (fun e => e.code == .capacityReduced || e.code == .dieFenced) with
  | some e => e.payload.take 3
  | none => [0, 0, 0]

/-- The body of ADH_HEALTH_STATUS: the dies in service and the reset cause, the causes of ALERT_N, the last loss, the spares of every unit, and the
scopes the ledger marks suspect (R447, R451, R482, R493; the order of the words is open: log 31). -/
def State.healthBody (s : State) : List Nat :=
  [mkWord [(0, 20, ((List.range 20).map (fun d => if s.isFenced d then 0 else 2 ^ d)).sum), (32, 8, s.pw.cause), (40, 8, s.pw.step), (48, 1, b2n s.pkg.outOfService)],
   mkWord (s.alertCauses.zipIdx.map (fun x => (x.2, 1, b2n x.1)))] ++ s.lastLoss ++
  (List.range 8).map (fun m => mkWord [(0, 16, s.tilesOf m), (16, 16, Tbl.at s.pkg.tileSpares m 4)]) ++
  (List.range 16).map (fun ch => mkWord [(0, 32, Tbl.at s.tier.lineSpares ch 2048), (32, 31, Tbl.at s.tier.rowsRetired ch 0), (63, 1, b2n (s.channelUp ch))]) ++
  (List.range 32).map (fun ch => mkWord [(0, 62, (Tbl.at s.tier.chans ch {}).spare), (62, 1, b2n (Tbl.at s.tier.chans ch {}).readOnly), (63, 1, b2n (s.flashChanUp ch))]) ++
  [s.led.suspect.length] ++ s.led.suspect.flatMap (fun x => [x.1, x.2])

/-- ADH_HEALTH_STATUS: a read by an OPERATOR ends the alert's cause of capacity lost (R482). -/
def doHealthStatus (c : Caller) (s : State) : AdhOut :=
  ⟨.ok, 0, s.healthBody, if s.isOperator c then ({ s with pw := { s.pw with capLost := false } } : State).alert else s⟩
/-- ADH_HEALTH_STATUS. -/
def execAdhHealthStatus (c : Caller) (s : State) : Out := .next (s.adhRun 0x0104 .userRead c (doHealthStatus c))

/-- ADH_VIOLATION_READ: up to `count` entries from `seq` `first` on, oldest first (R408). -/
def doViolationRead (first count : Nat) (s : State) : AdhOut :=
  let es := ((s.adh.violations.reverse).filter (fun e => decide (first ≤ e.seq))).take count
  ⟨.ok, es.length, es.flatMap Violation.words, s⟩
/-- ADH_VIOLATION_READ. -/
def execAdhViolationRead (c : Caller) (first count : Nat) (s : State) : Out := .next (s.adhRun 0x0105 .oper c (doViolationRead first count))

/-- ADH_MGMT_CONFIG: management addresses, up to 256 watched nodes, collectors (R419, R421, R504). -/
def doMgmtConfig (addrs watch collectors : List Nat) (s : State) : AdhOut :=
  if 256 < watch.length ∨ watch.any (fun n => decide (4094 < n)) ∨ (addrs ++ collectors).any (fun a => decide (2 ^ 128 ≤ a)) then adhFail .invalidField s
  else adhOk { s with adh := { s.adh with mgmtAddrs := addrs, watchList := watch, collectors := collectors } }
/-- ADH_MGMT_CONFIG. -/
def execAdhMgmtConfig (c : Caller) (addrs watch collectors : List Nat) (s : State) : Out :=
  .next (s.adhRun 0x0106 .oper c (doMgmtConfig addrs watch collectors))

/-! ### Virtual interfaces (R58 to R60, R402) -/

/-- A rights record whose every field is in range (R402). -/
def rightsOk (sources : List SrcId) (comps models : List Nat) (maxPriority : Nat) (shares : List Nat) (bits : Nat) : Bool :=
  decide (sources.length ≤ 8) && sources.all (fun x => decide (x.1 < 4096) && decide (x.2 < 64)) && decide (comps.length ≤ 16) && decide (models.length ≤ 16) &&
  comps.all (fun n => decide (0 < n) && decide (n < 65535)) && models.all (fun n => decide (n < 2 ^ 32)) && decide (maxPriority ≤ 3) &&
  shares.length == 6 && shares.all (fun n => decide (1 ≤ n) && decide (n ≤ 255)) && decide (bits < 32)

/-- ADH_VI_ASSIGN: only of an UNASSIGNED VI other than 0 (R58, R402). -/
def doViAssign (vi : Nat) (sources : List SrcId) (comps models : List Nat) (maxPriority : Nat) (shares : List Nat) (bits : Nat) (s : State) : AdhOut :=
  if vi = 0 ∨ 255 < vi ∨ (s.vi vi).st ≠ .unassigned ∨ !rightsOk sources comps models maxPriority shares bits then adhFail .invalidField s
  else
    let r : Rights := { compositions := comps, models := models, maxPriority := maxPriority, shares := shares, sources := sources, bits := bits }
    adhOk (s.setVi vi { st := .active, rights := r })
/-- ADH_VI_ASSIGN, an action of a change order. -/
def execAdhViAssign (c : Caller) (vi : Nat) (sources : List SrcId) (comps models : List Nat) (maxPriority : Nat) (shares : List Nat) (bits : Nat) (s : State) : Out :=
  .next (s.adhRun 0x0201 .order c (doViAssign vi sources comps models maxPriority shares bits))

/-- ADH_RIGHTS_SET: replaces the record of an assigned VI (R402). -/
def doRightsSet (vi : Nat) (sources : List SrcId) (comps models : List Nat) (maxPriority : Nat) (shares : List Nat) (bits : Nat) (s : State) : AdhOut :=
  if vi = 0 ∨ 255 < vi ∨ (s.vi vi).st = .unassigned ∨ !rightsOk sources comps models maxPriority shares bits then adhFail .invalidField s
  else
    let r : Rights := { compositions := comps, models := models, maxPriority := maxPriority, shares := shares, sources := sources, bits := bits }
    adhOk (s.updVi vi (fun x => { x with rights := r }))
/-- ADH_RIGHTS_SET, an action of a change order. -/
def execAdhRightsSet (c : Caller) (vi : Nat) (sources : List SrcId) (comps models : List Nat) (maxPriority : Nat) (shares : List Nat) (bits : Nat) (s : State) : Out :=
  .next (s.adhRun 0x0B06 .order c (doRightsSet vi sources comps models maxPriority shares bits))

/-- Completes with ST_QUEUE_DESTROYED the fetched commands that were never dispatched, of a queue or of a VI (R59, R69). -/
def State.dropWaiting (s : State) (f : Cmd → Bool) : State :=
  { s with work := { s.work with cmds := Tbl.mapVals s.work.cmds (fun _ c =>
      if f c && c.dispT.isNone && c.outcome.isNone then { c with outcome := some (.queueDestroyed, 0) } else c) } }

/-- ADH_VI_RELEASE: a VI releases itself, an operator any; the VI is QUIESCING, its undispatched commands end and its waiting submissions are
withdrawn; it completes at UNASSIGNED (R59, R344). -/
def doViRelease (c : Caller) (vi : Nat) (s : State) : AdhOut :=
  if !s.isOperator c && vi != c.vi then adhRights s
  else if vi = 0 ∨ 255 < vi ∨ (s.vi vi).st ≠ .active then adhFail .invalidField s
  else
    let s1 := s.updVi vi (fun x => { x with st := .quiescing, releaseOp := s.refIf c 0x0202 })
    ⟨.adhAccepted, 0, [], (s1.dropWaiting (fun k => k.vi == vi)).withdraw (fun w => w.op.vi == vi)⟩
/-- ADH_VI_RELEASE, deferred. -/
def execAdhViRelease (c : Caller) (vi : Nat) (s : State) : Out := .next (s.adhRun 0x0202 .userOper c (doViRelease c vi))

/-! ### Queues (R69) -/

/-- Instances of a class, and queue contexts of the package (R67). -/
def classSize (cls : Nat) : Nat × Nat := [(0, 0), (16, 1024), (8, 1024), (2, 512), (1, 256), (2, 512), (4, 256)].getD cls (0, 0)

/-- ADH_QUEUE_CREATE: the queue keeps the format the VI has selected (R63, R69). -/
def doQueueCreate (c : Caller) (cls q ringBase ringLog2 cplBase priority : Nat) (phaseG : Bool) (inst : Option Nat) (notify : Nat) (s : State) : AdhOut :=
  let k : QKey := (c.vi, cls, q)
  let n := 2 ^ ringLog2
  if cls = 0 ∨ 6 < cls ∨ 15 < q ∨ (s.queue k).st ≠ .disabled ∨ ringLog2 < 6 ∨ 16 < ringLog2 ∨ ringBase % (64 * n) ≠ 0 ∨ cplBase % (32 * n) ≠ 0 ∨
      addrNode ringBase ≠ s.node ∨ addrNode cplBase ≠ s.node ∨ 3 < priority ∨ priority < (s.vi c.vi).rights.maxPriority ∨ notify % 64 ≠ 0 ∨
      inst.any (fun i => decide ((classSize cls).1 ≤ i)) then adhFail .invalidField s
  else if (classSize cls).2 ≤ (s.work.queues.filter (fun e => e.1.2.1 == cls && e.2.st != .disabled)).length then adhFail .refusedCapacity s
  else if !s.covers c.vi ringBase (64 * n) (rRing + rRd) then adhRegion ringBase s
  else if !s.covers c.vi cplBase (32 * n) (rRing + rWr) then adhRegion cplBase s
  else
    let x : Queue := { st := .active, ringBase := ringBase, ringLog2 := ringLog2, cplBase := cplBase, priority := priority, phaseG := phaseG, inst := inst
                       notifyAddr := notify, fmt := (s.vi c.vi).fmtSelect }
    adhOk (s.setQueue k x)
/-- ADH_QUEUE_CREATE. -/
def execAdhQueueCreate (c : Caller) (cls q ringBase ringLog2 cplBase priority : Nat) (phaseG : Bool) (inst : Option Nat) (notify : Nat) (s : State) : Out :=
  .next (s.adhRun 0x0203 .user c (doQueueCreate c cls q ringBase ringLog2 cplBase priority phaseG inst notify))

/-- ADH_QUEUE_DESTROY: the queue is DRAINING, and its undispatched commands end with ST_QUEUE_DESTROYED (R69). -/
def doQueueDestroy (c : Caller) (cls q : Nat) (s : State) : AdhOut :=
  let k : QKey := (c.vi, cls, q)
  let x := s.queue k
  if x.st = .disabled ∨ x.st = .draining then adhFail .queueState s
  else
    let s1 := s.setQueue k { x with st := .draining, destroyOp := s.refIf c 0x0204, destroyHead := x.cmdHead, resetOp := none, reread := none }
    ⟨.adhAccepted, 0, [], s1.dropWaiting (fun d => (d.vi, d.cls, d.q) == k)⟩
/-- ADH_QUEUE_DESTROY, deferred. -/
def execAdhQueueDestroy (c : Caller) (cls q : Nat) (s : State) : Out := .next (s.adhRun 0x0204 .user c (doQueueDestroy c cls q))

/-- ADH_QUEUE_RESET: accepted only in ERROR (R69). -/
def doQueueReset (c : Caller) (cls q cmdIndex cplIndex : Nat) (s : State) : AdhOut :=
  let k : QKey := (c.vi, cls, q)
  let x := s.queue k
  if x.st ≠ .error ∨ x.resetOp.isSome then adhFail .queueState s
  else ⟨.adhAccepted, 0, [], s.setQueue k { x with resetOp := some (cmdIndex, cplIndex, s.refOf c 0x0205) }⟩
/-- ADH_QUEUE_RESET, deferred. -/
def execAdhQueueReset (c : Caller) (cls q cmdIndex cplIndex : Nat) (s : State) : Out := .next (s.adhRun 0x0205 .user c (doQueueReset c cls q cmdIndex cplIndex))

/-! ### Engines (R82, R83) -/

/-- ADH_ENGINE_CONFIG: the pre-emption threshold in ns, 2 µs to 500 µs (R83). -/
def doEngineConfig (cls inst threshold : Nat) (s : State) : AdhOut :=
  if cls = 0 ∨ 4 < cls ∨ (classSize cls).1 ≤ inst ∨ threshold < 2000 ∨ 500000 < threshold then adhFail .invalidField s
  else adhOk (s.updInst cls inst (fun x => { x with threshold := threshold }))
/-- ADH_ENGINE_CONFIG. -/
def execAdhEngineConfig (c : Caller) (cls inst threshold : Nat) (s : State) : Out := .next (s.adhRun 0x0206 .oper c (doEngineConfig cls inst threshold))

/-- ADH_PHASE_SHARE: the floors of a Mover channel or a Codec instance, each 0 to 128 (R82). -/
def doPhaseShare (cls inst floorG floorP : Nat) (s : State) : AdhOut :=
  if (cls ≠ 1 ∧ cls ≠ 3) ∨ (classSize cls).1 ≤ inst ∨ 128 < floorG ∨ 128 < floorP then adhFail .invalidField s
  else adhOk (s.updInst cls inst (fun x => { x with floorG := floorG, floorP := floorP }))
/-- ADH_PHASE_SHARE. -/
def execAdhPhaseShare (c : Caller) (cls inst floorG floorP : Nat) (s : State) : Out := .next (s.adhRun 0x0207 .oper c (doPhaseShare cls inst floorG floorP))

/-! ### Context slots (R79, R80) -/

/-- ADH_CONTEXT_LOAD: the lowest EMPTY slot; a pair some slot already holds is refused with that slot's number (R79). -/
def doContextLoad (c : Caller) (model comp headDim layers kvHeads qPerKv cbDir wtDir : Nat) (s : State) : AdhOut :=
  let heldBy := s.work.ctxs.find? (fun x => x.2.st != .empty && x.2.f.model == model && x.2.f.composition == comp)
  if 2 ^ 32 ≤ model ∨ comp = 0 ∨ 65535 ≤ comp ∨ !(([64, 96, 128, 192, 256] : List Nat).contains headDim) ∨ layers = 0 ∨ 1024 < layers ∨ kvHeads = 0 ∨ 256 < kvHeads ∨ qPerKv = 0 ∨
      cbDir % 64 ≠ 0 ∨ wtDir % 64 ≠ 0 ∨ addrNode cbDir ≠ s.node then adhFail .invalidField s
  else match heldBy with
    | some x => ⟨.invalidField, x.1, [], s⟩
    | none =>
      match (List.range 64).find? (fun n => (s.ctx n).st == .empty) with
      | none => adhFail .refusedCapacity s
      | some n =>
        let f : CtxFields := { model := model, composition := comp, headDim := headDim, layers := layers, kvHeads := kvHeads, qPerKv := qPerKv
                               codebookDir := cbDir, weightDir := wtDir }
        let x : Ctx := { st := .loading, f := f, loadOp := s.refIf c 0x0301 }
        ⟨.adhAccepted, 0, [], { s with work := { s.work with ctxs := Tbl.set s.work.ctxs n x } }⟩
/-- ADH_CONTEXT_LOAD, deferred. -/
def execAdhContextLoad (c : Caller) (model comp headDim layers kvHeads qPerKv cbDir wtDir : Nat) (s : State) : Out :=
  .next (s.adhRun 0x0301 .oper c (doContextLoad c model comp headDim layers kvHeads qPerKv cbDir wtDir))

/-- ADH_CONTEXT_BIND (R79). -/
def doContextBind (c : Caller) (slot index : Nat) (s : State) : AdhOut :=
  let x := s.ctx slot
  if 63 < slot ∨ 15 < index ∨ x.st = .empty then adhFail .invalidField s
  else if c.vi ≠ 0 ∧ !(s.vi c.vi).rights.models.contains x.f.model then adhRights s
  else if x.st = .unloading then adhFail .contextUnloading s
  else if Tbl.has (s.vi c.vi).ctxMap index then adhFail .invalidField s
  else adhOk (s.updVi c.vi (fun v => { v with ctxMap := Tbl.set v.ctxMap index slot }))
/-- ADH_CONTEXT_BIND. -/
def execAdhContextBind (c : Caller) (slot index : Nat) (s : State) : Out := .next (s.adhRun 0x0302 .user c (doContextBind c slot index))

/-- ADH_CONTEXT_UNBIND: a slot's last binding removed makes it UNLOADING (R80). -/
def doContextUnbind (c : Caller) (index : Nat) (s : State) : AdhOut :=
  match Tbl.get (s.vi c.vi).ctxMap index with
  | none => adhFail .invalidField s
  | some slot => adhOk ((s.updVi c.vi (fun v => { v with ctxMap := Tbl.del v.ctxMap index })).unbound slot)
/-- ADH_CONTEXT_UNBIND. -/
def execAdhContextUnbind (c : Caller) (index : Nat) (s : State) : Out := .next (s.adhRun 0x0303 .user c (doContextUnbind c index))

end Sys2Proof.Machine
end

