-- ==== Sys2Proof/Machine/Leap.lean ====
section
/-! DEFINITION. The leap, step by step, at the old holder, the home and the new holder (R126 to R131, R134). -/

namespace Sys2Proof.Machine
open Sys2Proof

/-- Whether a COMMIT for a request is fetched and not completed (R127). -/
def State.commitPending (s : State) (rid : Nat) : Bool :=
  s.work.cmds.any (fun e => e.2.cls == 5 && fld e.2.words 0 43 36 == 2 && fld e.2.words 1 47 0 == rid && e.2.st != .waiting && e.2.outcome.isNone)

/-- The leap timeout of a request's composition (R130). -/
def State.leapTimeoutOf (s : State) (r : Req) : Nat := (s.comp r.composition).leapTimeout

/-- LEAP_REQUEST from a frozen holder to the home (R129, step 1). -/
def State.askLeap (s : State) (rid : Nat) (r : Req) (target : Option Nat) : State :=
  let hs := s.hold rid
  (s.setHold rid { hs with requestedAt := some s.now, retryAt := none }).tell
    (dirMsg (s.homeOf rid) 0x01 rid r.holdEpoch r.mapEpoch
      [hs.blocks, r.committed, (match target with | some t => t % 4096 + 2 ^ 15 | none => 0)] hs.digest)

/-- Whether every protection write of a request is acknowledged (R25, R434). -/
def State.protDone (s : State) (rid : Nat) : Bool := s.prot.writes.all (fun w => w.2.req != rid || w.2.awaited.isEmpty)

/-- The old holder freezes a request once no COMMIT is pending: tentative rows and empty blocks go, the manifest's digest
is computed, and LEAP_REQUEST leaves (R127). A prompt node freezes only once the request's protection is complete (R25);
a FENCED lease holds the leap back (R120). -/
def State.freezeReq (s : State) (req : Nat) (target : Option Nat) : State :=
  match s.req req with
  | none => s
  | some r =>
    if (s.hold req).frozen || s.commitPending req || s.fencedFor req || !s.protDone req || decide (r.committed < r.promptTokens) then s else
      let s1 := s.dropTentative req r
      let es := s1.manifest r
      let s2 := s1.setHold req { s1.hold req with frozen := true, digest := manifestDigest es, blocks := es.length }
      s2.askLeap req r target

/-- The old holder freezes a request and asks for its leap: when R25 allows it, when its membership is withdrawn, or where an operator's
ADH_LEAP_START waits for it (R126, R127). -/
def execLeapFreeze (req : Nat) (target : Option Nat) (s : State) : Out :=
  .next (s.whenLive fun s => s.freezeReq req (target.orElse (fun _ => (s.hold req).startTarget)))

/-- Answers an operator's ADH_LEAP_START when its leap has ended (R397). -/
def State.endStart (s : State) (rid : Nat) (st : Status) (result : Nat) : State :=
  let hs := s.hold rid
  (hs.startOp.map (fun r => (s.setHold rid { hs with startOp := none, startTarget := none }).finishOp r st result [])).getD s

/-- The home checks a leap request: holder, epoch, state and no recovery; it then sets LEAPING with the target, mirrors,
and holds LEAP_GRANT and LEAP_OFFER until the mirror is stored (R117, R118, R125, R126, R129, R131). A prompt node asks only once
its request's prefill is protected (R25), so an entry still in PREFILL goes through PROTECTED here (log 12). -/
def execLeapRequest (h : MsgHdr) (digest : List Byte) (blocks tokens : Nat) (target : Option Nat) (s : State) : Out :=
  .next (s.whenLive fun s =>
    if h.ver ≠ 1 then s.tell (dirMsg h.src 0x08 h.req h.epoch h.mapEpoch [3] []) else
    s.atHome h 0x01 fun e =>
      if e.st = .leaping ∨ e.recoveryStep ≠ 0 then s.refuse h 0x01 .retryLeapBusy
      else if e.epoch ≠ h.epoch ∨ e.holder ≠ h.src then s.refuse h 0x01 .staleEpoch
      else if e.st ≠ .protected_ ∧ e.st ≠ .decoding ∧ e.st ≠ .prefill then s.refuse h 0x01 .requestMoved
      else if e.epoch + 1 = 0xFFFFFFFF then s.refuse h 0x01 .refusedCapacity
      else
        match target.orElse (fun _ => s.choose ((s.comp e.composition).mapAt e.mapEpoch).gen e.holder) with
        | none => s.tell (dirMsg h.src 0x08 h.req e.epoch e.mapEpoch [3] [])
        | some b =>
          let e' := { e with
            st := .leaping, leapTarget := b, leapPhase := 1, leapFromDecode := e.st == .decoding, stateTime := s.now
            leapDigest := digest, leapBlocks := blocks, leapTokens := tokens, leapAt := s.now
            lastTarget := b, lastEpoch := e.epoch + 1, lastCommitted := false }
          let grant := dirMsg h.src 0x02 h.req (e.epoch + 1) e.mapEpoch [b] []
          let offer := dirMsg b 0x03 h.req (e.epoch + 1) e.mapEpoch [blocks, tokens, h.src, e.composition] digest
          (s.commitEntry h.req e' [grant, offer]).bookReq e 4 5)

/-- Words of an automaton object, by its header: 64 bytes, 16 a state and 8 an edge (R355). -/
def autoWords (w0 : Nat) : Nat := 8 + 2 * bits w0 63 48 + bits w0 47 32

/-- The token ring state of a manifest: the header, the automaton, and the entries from `acked` to `tok_count` - 1 (R365). -/
def State.ringState (s : State) (r : Req) : List Nat :=
  let h := s.rdWords r.tokenRing 8
  let acked := fld h 2 31 0
  let n := 2 ^ fld h 0 59 56
  h ++ s.rdWords (word h 5) (autoWords (word (s.rdWords (word h 5) 1) 0)) ++
    (List.range (fld h 2 63 32 - acked)).flatMap (fun i => s.rdWords (r.tokenRing + 64 + (acked + i) % n * 8) 1)

/-- Places a manifest's token ring state at a ring address: the automaton follows the entries, and the header names it there (R365). -/
def State.placeRing (s : State) (at_ : Nat) (ws : List Nat) : State :=
  let n := 2 ^ fld ws 0 59 56
  let spec := at_ + 64 + 8 * n
  let k := autoWords (word ws 8)
  let h := sealWords ((ws.take 5) ++ [u64 spec, word ws 6])
  let acked := fld ws 2 31 0
  (((ws.drop (8 + k)).mapIdx (fun i e => (acked + i, e))).foldl (fun (t : State) e => t.wrWords (at_ + 64 + e.1 % n * 8) [e.2])
    ((s.wrWords at_ h).wrWords spec ((ws.drop 8).take k)))

/-- The old holder receives LEAP_GRANT and sends LEAP_MANIFEST: the record, the token ring state and the entries (R128,
R129, step 3). -/
def execLeapGrant (h : MsgHdr) (newHolder : Nat) (s : State) : Out :=
  .next (s.whenLive fun s =>
    match s.req h.req with
    | none => s
    | some r =>
      let hs := s.hold h.req
      if h.ver ≠ 1 || !hs.frozen || h.epoch ≠ r.holdEpoch + 1 then s else
        let ring := s.ringState r
        (s.setHold h.req { hs with grant := some (newHolder, h.epoch, s.now), queryAt := s.now + s.leapTimeoutOf r }).tell
          (dirMsg newHolder 0x04 h.req h.epoch h.mapEpoch (r.words h.req ++ ring) (bytesOfWords (s.manifest r).flatten)))

/-- The new holder keeps a pending offer (R129, R130). -/
def execLeapOffer (h : MsgHdr) (digest : List Byte) (blocks tokens oldHolder comp : Nat) (s : State) : Out :=
  .next (s.whenLive fun s =>
    if h.ver ≠ 1 then s.tell (dirMsg h.src 0x08 h.req h.epoch h.mapEpoch [3] []) else
    if s.freeRecords = 0 then s.tell (dirMsg h.src 0x08 h.req h.epoch h.mapEpoch [3] []) else
      let o : Offer :=
        { digest := digest, blocks := blocks, tokens := tokens, oldHolder := oldHolder, composition := comp, epoch := h.epoch
          mapEpoch := h.mapEpoch, offeredAt := s.now }
      s.setHold h.req { s.hold h.req with offer := some o, queryAt := s.now + (s.comp comp).leapTimeout })

/-- The new holder receives the manifest, computes its digest, claims a record, block map and token ring, and sends
LEAP_ACCEPT with the digest as computed; it answers LEAP_ABORT where no record is free (R89, R129, step 4). Where its
block map and ring lie is a free value (log 3). -/
def execLeapManifest (h : MsgHdr) (record ring : List Nat) (entries : List (List Nat)) (s : State) : Out :=
  .next (s.whenLive fun s =>
    let hs := s.hold h.req
    match hs.offer with
    | none => s
    | some o =>
      if h.ver ≠ 1 ∨ h.src ≠ o.oldHolder ∨ h.epoch ≠ o.epoch then s
      else if s.freeRecords = 0 then s.tell (dirMsg (s.homeOf h.req) 0x08 h.req o.epoch o.mapEpoch [3] [])
      else
        let (v, s1) := s.draw
        let (w, s2) := s1.draw
        let at_ := fun x => mkAddr s.node 1 (bits x 45 12 * 4096)
        let r := { Req.ofWords record with blockMap := at_ v, tokenRing := at_ w, holdEpoch := o.epoch }
        let s3 := s2.placeRing (at_ w) ring
        (s3.setHold h.req { hs with offer := some { o with claimed := some r }, manifest := entries }).tell
          (dirMsg (s.homeOf h.req) 0x05 h.req o.epoch o.mapEpoch [] (manifestDigest entries)))

/-- The home checks the digest and commits the leap: receipt, holder, epoch and DECODING, mirrored before LEAP_COMMIT and
LEAP_RELEASE (R129, steps 5 and 6); digests that differ abort it with reason 2 (R130). -/
def execLeapAccept (h : MsgHdr) (digest : List Byte) (s : State) : Out :=
  .next (s.whenLive fun s => s.atHome h 0x05 fun e =>
    if e.st ≠ .leaping ∨ e.leapPhase ≠ 1 ∨ h.src ≠ e.leapTarget ∨ h.epoch ≠ e.epoch + 1 then s.refuse h 0x05 .staleEpoch
    else if digest ≠ e.leapDigest then s.abortLeap h.req e 2
    else
      let a := e.holder
      let b := e.leapTarget
      let e1 := { e with epoch := e.epoch + 1, leapPhase := 2 }
      let (e2, s1) := s.newReceipt h.req e1 1 a b e.leapTokens e.leapBlocks digest
      let e3 := { e2 with
        st := .decoding, holder := b, prevHolder := a, leapTarget := 0, leapPhase := 0, leapFromDecode := false
        stateTime := s.now, lastCommitted := true }
      let exp := s.now + s.own.leaseLen
      let idx := e2.receipts.length - 1
      let s2 : State := { s1 with own := { s1.own with homeLeases := Tbl.updD s1.own.homeLeases b { expiry := exp } (fun x => { x with expiry := max x.expiry exp, lapsed := false }) } }
      let commit := dirMsg b 0x06 h.req e3.epoch e3.mapEpoch [exp, idx] ((e2.receipts.getLast?.map (·.chain)).getD [])
      let release := dirMsg a 0x07 h.req e3.epoch e3.mapEpoch [idx] []
      (s2.commitEntry h.req e3 [commit, release]).bookReq e3 5 4)

/-- The lingering slots of a request that comes back to this node are its own again: in transit → committed (R134, R144). -/
def State.relinger (s : State) (rid : Nat) : State :=
  match (s.hold rid).lingering with
  | some (_, das, _) => das.foldl (fun (t : State) da => t.bookSlot da 4 2) s
  | none => s

/-- The new holder acts as holder at the new epoch from the arrival of LEAP_COMMIT, with its lease's expiry (R121,
R129, step 7). -/
def execLeapCommit (h : MsgHdr) (expiry receipt : Nat) (chain : List Byte) (s : State) : Out :=
  let _ := (receipt, chain)
  .next (s.whenLive fun s =>
    let hs := s.hold h.req
    match hs.offer with
    | none => s
    | some o =>
      match o.claimed with
      | none => s
      | some r =>
        if h.ver ≠ 1 ∨ h.epoch ≠ o.epoch then s else
          let s1 := ((s.relinger h.req).setReq h.req { r with holdEpoch := h.epoch }).setHold h.req
            { hs with offer := none, queryAt := 0, frozen := false, revoked := false, lingering := none }
          { s1 with own := { s1.own with leases := Tbl.updD s1.own.leases (s.homeOf h.req) {} (fun l => { l with expiry := max l.expiry expiry }) } })

/-- The old holder's part of a committed leap: the record is freed, its image and the manifest's slots on this node
linger for the new epoch, and held commands complete with ST_REQUEST_MOVED (R127, R134, R144). -/
def State.release (s : State) (rid epoch newHolder : Nat) : State :=
  match s.req rid with
  | none => s
  | some r =>
    let das := ((s.blocks r).map (·.2)).filter (s.ownBlock rid)
    let s1 := das.foldl (fun t da => t.bookSlot da 2 4) s
    let s2 := (s1.failHeld rid .requestMoved).freeReq rid
    (s2.setHold rid { s2.hold rid with frozen := false, grant := none, requestedAt := none, queryAt := 0, lingering := some (r, das, epoch) }).transitOut newHolder qSlots das.length |>.endStart rid .ok newHolder

/-- LEAP_RELEASE at the old holder (R129, step 8). -/
def execLeapRelease (h : MsgHdr) (receipt : Nat) (s : State) : Out :=
  let _ := receipt
  .next (s.whenLive fun s =>
    match (s.hold h.req).grant with
    | some (b, ep, _) => if h.ver = 1 ∧ h.epoch = ep then s.release h.req ep b else s
    | none => s)

/-- A holder's part of an aborted leap: the new holder frees its claims; the old holder resumes, and one that holds a
request returned to PROTECTED, a prompt node, asks again `leap_timeout` later except after a cancel (R130). -/
def State.leapAborted (s : State) (rid reason : Nat) : State :=
  let hs := s.hold rid
  match s.req rid with
  | some r =>
    let prompt := ((s.comp r.composition).mapAt r.mapEpoch).prompt.contains s.node
    (s.setHold rid { hs with frozen := false, grant := none, offer := none, requestedAt := none, queryAt := 0,
                             retryAt := if prompt && reason ≠ 4 then some (s.now + s.leapTimeoutOf r) else none }).endStart rid
      (if reason = 3 then .refusedCapacity else .retryLeapBusy) reason
  | none => s.setHold rid { hs with offer := none, manifest := [], queryAt := 0 }

/-- LEAP_ABORT at a holder (R130); at the home, a new holder's answer that it cannot claim a record aborts the leap with
reason 3. -/
def execLeapAbort (h : MsgHdr) (reason : Nat) (s : State) : Out :=
  .next (s.whenLive fun s =>
    if h.ver ≠ 1 then s else
    match s.entry h.req with
    | some e =>
      if e.here && e.st == .leaping && e.leapTarget == h.src && e.leapPhase == 1 && h.src != s.node then s.abortLeap h.req e 3
      else s.leapAborted h.req reason
    | none => s.leapAborted h.req reason)

/-- The home answers a holder's query: pending while LEAPING or recovering, and else what became of the last leap (R130,
R139). -/
def execLeapQuery (h : MsgHdr) (s : State) : Out :=
  .next (s.whenLive fun s => s.atHome h 0x09 fun e =>
    let st := if e.st = .leaping ∨ e.recoveryStep ≠ 0 then 0 else if e.lastCommitted then 1 else 2
    s.tell (dirMsg h.src 0x0A h.req e.epoch e.mapEpoch [st, e.holder] []))

/-- A holder acts on LEAP_STATE: committed is LEAP_RELEASE at the old holder and makes the new one act as holder; aborted
is LEAP_ABORT (R130). -/
def execLeapState (h : MsgHdr) (state holder : Nat) (s : State) : Out :=
  .next (s.whenLive fun s =>
    let hs := s.hold h.req
    if h.ver ≠ 1 then s
    else if state = 2 then s.leapAborted h.req 1
    else if state = 1 then
      match hs.grant, hs.offer with
      | some (b, ep, _), _ => s.release h.req ep b
      | none, some o =>
        if holder ≠ s.node then s.setHold h.req { hs with offer := none, manifest := [], queryAt := 0 } else
          match o.claimed with
          | none => s
          | some r => (s.setReq h.req { r with holdEpoch := o.epoch }).setHold h.req { hs with offer := none, queryAt := 0, frozen := false }
      | none, none => s
    else s)

/-- The home aborts a leap whose step 5 has not begun within `leap_timeout` of step 2 (R130). -/
def execLeapTimeout (req : Nat) (s : State) : Out :=
  .next (s.whenLive fun s =>
    match s.entry req with
    | some e =>
      if e.here && e.st == .leaping && e.leapPhase == 1 && decide (e.leapAt + (s.comp e.composition).leapTimeout ≤ s.now) then
        s.abortLeap req e 1
      else s
    | none => s)

/-- A holder that has heard no outcome sends LEAP_QUERY, and again every `leap_timeout` (R130). -/
def execLeapQueryTimer (req : Nat) (s : State) : Out :=
  .next (s.whenLive fun s =>
    let hs := s.hold req
    let due := hs.queryAt != 0 && decide (hs.queryAt ≤ s.now)
    match hs.grant, hs.offer, s.req req with
    | some _, _, some r =>
      if due then (s.setHold req { hs with queryAt := s.now + s.leapTimeoutOf r }).tell (dirMsg (s.homeOf req) 0x09 req r.holdEpoch r.mapEpoch [] [])
      else s
    | none, some o, _ =>
      if due then (s.setHold req { hs with queryAt := s.now + (s.comp o.composition).leapTimeout }).tell (dirMsg (s.homeOf req) 0x09 req o.epoch o.mapEpoch [] [])
      else s
    | _, _, _ => s)

/-- The holder of a request returned to PROTECTED freezes it and asks again (R130). -/
def execLeapRetryTimer (req : Nat) (s : State) : Out :=
  .next (s.whenLive fun s =>
    match (s.hold req).retryAt, s.req req with
    | some t, some r =>
      if decide (s.now < t) || s.commitPending req || s.fencedFor req then s else
        let s1 := s.dropTentative req r
        let es := s1.manifest r
        (s1.setHold req { s1.hold req with frozen := true, digest := manifestDigest es, blocks := es.length }).askLeap req r none
    | _, _ => s)

end Sys2Proof.Machine
end

