-- ==== Sys2Proof/Machine/AdhServe.lean ====
section
/-! DEFINITION. Mailbox operations of compositions, metering, the directory, leaps, codebooks and calibration (R18 to R21, R115, R126, R132, R135, R176, R187,
R189 to R212). -/

namespace Sys2Proof.Machine
open Sys2Proof

/-! ### Compositions (R18 to R21, R425, R445) -/

/-- The protection an operand names: 0 none, 1 replica, else 256 k + m for EC k+m (R18; log 31). -/
def protOf (n : Nat) : Option Protection :=
  if n = 0 then some .none else if n = 1 then some .replica
  else if 2 ≤ n / 256 ∧ n / 256 ≤ 16 ∧ (n % 256 = 1 ∨ n % 256 = 2) then some (.ec (n / 256) (n % 256)) else none

/-- The least cache members a protection needs (R425). -/
def Protection.least : Protection → Nat
  | .none => 1
  | .ec k m => k + m
  | .replica => 2

/-- Requests stamped with a map epoch that this node knows as home or holder and that have not retired, held ones among them (R20, R445). -/
def State.stamped (s : State) (comp epoch : Nat) : List Nat :=
  (((s.own.dir.filter (fun e => e.2.composition == comp && e.2.mapEpoch == epoch && e.2.st != .failed && e.2.st != .free)).map (·.1)) ++
    ((s.kv.reqs.filter (fun r => r.2.composition == comp && r.2.mapEpoch == epoch)).map (·.1))).dedup

/-- ADH_COMPOSITION_DEFINE: a definition, a change of fields under the current epoch, or a new map epoch; a third live epoch is refused while requests of the older
one are unretired (R18 to R20, R425). Beats are in ns. -/
def doCompositionDefine (comp model epoch : Nat) (prompt gen cache home : List Nat) (prot repr beat : Nat) (quotas : List Nat) (s : State) : AdhOut :=
  let c := s.comp comp
  let nodes := fun (l : List Nat) => l.all (fun n => decide (n < 4095)) && l.Nodup
  match protOf prot with
  | none => adhFail .invalidField s
  | some pr =>
    if comp = 0 ∨ 65535 ≤ comp ∨ 2 ^ 32 ≤ model ∨ 2 ^ 32 ≤ epoch ∨ !(nodes prompt && nodes gen && nodes cache && nodes home) ∨ home = [] ∨ 4096 < home.length ∨
        2 < repr ∨ beat < 5000000 ∨ 250000000 < beat ∨ quotas.length ≠ 3 ∨ (pr ≠ .none ∧ cache.length < pr.least) then adhFail .invalidField s
    else
      let m : CompMap := { epoch := epoch, model := model, prompt := prompt, gen := gen, cache := cache, home := home, protection := pr, kvRepr := repr, beat := beat, quotas := quotas }
      let member := fun (x : CompMap) => x.members.contains s.node
      if c.maps = [] then
        let mine := (s.comps.filter (fun x => member x.2.cur)).length
        if 4096 ≤ (s.comps.filter (fun x => !x.2.maps.isEmpty)).length ∨ (member m ∧ 64 ≤ mine) then adhFail .refusedCapacity s
        else adhOk { s with comps := Tbl.set s.comps comp { c with maps := [m], beatAt := s.now / beat * beat } }
      else if epoch = c.cur.epoch then
        if c.cur.prompt ≠ prompt ∨ c.cur.gen ≠ gen ∨ c.cur.cache ≠ cache ∨ c.cur.home ≠ home ∨ c.cur.model ≠ model ∨ c.cur.protection ≠ pr then adhFail .invalidField s
        else adhOk { s with comps := Tbl.set s.comps comp { c with maps := m :: c.maps.drop 1 } }
      else if epoch < c.cur.epoch ∨ c.cur.model ≠ model then adhFail .invalidField s
      else
        match c.maps[1]? with
        | some old =>
          let n := (s.stamped comp old.epoch).length
          if n ≠ 0 then ⟨.refusedEpochBusy, n, [], s⟩ else adhOk { s with comps := Tbl.set s.comps comp { c with maps := [m, c.cur] } }
        | none => adhOk { s with comps := Tbl.set s.comps comp { c with maps := [m, c.cur] } }
/-- ADH_COMPOSITION_DEFINE, an action of a change order. -/
def execAdhCompositionDefine (c : Caller) (comp model epoch : Nat) (prompt gen cache home : List Nat) (prot repr beat : Nat) (quotas : List Nat) (s : State) : Out :=
  .next (s.adhRun 0x0401 .order c (doCompositionDefine comp model epoch prompt gen cache home prot repr beat quotas))

/-- Runs a read of a composition a caller's rights cover; a management session reads any (R402, R422). -/
def State.onComp (s : State) (c : Caller) (comp : Nat) (f : Comp → AdhOut) : AdhOut :=
  if !s.coversComp c.vi comp then adhRights s
  else if (s.comp comp).maps = [] then adhFail .invalidField s
  else f (s.comp comp)

/-- ADH_COMPOSITION_STATUS: the epochs held, the requests still stamped with the older one, and the members (R20, R445). -/
def doCompositionStatus (c : Caller) (comp : Nat) (s : State) : AdhOut :=
  s.onComp c comp fun x =>
    let old := x.maps[1]?
    let n := (old.map (fun o => (s.stamped comp o.epoch).length)).getD 0
    let m := x.cur
    ⟨.ok, n, [m.epoch, (old.map (fun o => o.epoch)).getD m.epoch, n, m.prompt.length, m.gen.length, m.cache.length, m.home.length] ++ m.prompt ++ m.gen ++ m.cache ++ m.home, s⟩
/-- ADH_COMPOSITION_STATUS. -/
def execAdhCompositionStatus (c : Caller) (comp : Nat) (s : State) : Out := .next (s.adhRun 0x0402 .userRead c (doCompositionStatus c comp))

/-- The 18 words of a metering record (R21). -/
def Meter.words (m : Meter) : List Nat :=
  let n := fun (l : List Nat) (k : Nat) => (List.range k).map (fun i => l.getD i 0)
  ([m.time, m.attendTime, m.codecTime, m.movedBytes] ++ n m.linkTime 8 ++ [m.slotTimeDram, m.slotTimeFlash] ++ n m.admitted 3 ++ [m.tokensOut]).map u64

/-- ADH_METER_READ: closed records from the `first` retained on, oldest first (R21). -/
def doMeterRead (c : Caller) (comp first count : Nat) (s : State) : AdhOut :=
  s.onComp c comp fun x =>
    let rs := (x.meters.reverse.drop first).take count
    ⟨.ok, rs.length, rs.flatMap Meter.words, s⟩
/-- ADH_METER_READ. -/
def execAdhMeterRead (c : Caller) (comp first count : Nat) (s : State) : Out := .next (s.adhRun 0x0403 .userRead c (doMeterRead c comp first count))

/-! ### The directory and leaps (R115, R126, R132, R135) -/

/-- Runs a read of a request's entry for a VI whose rights cover its composition (R115, R132). -/
def State.onEntry (s : State) (c : Caller) (req : Nat) (f : DirEntry → AdhOut) : AdhOut :=
  match s.entry req with
  | none => adhFail .requestMoved s
  | some e => if !s.coversComp c.vi e.composition then adhRights s else f e

/-- ADH_DIRECTORY_READ. -/
def doDirectoryRead (c : Caller) (req : Nat) (s : State) : AdhOut := s.onEntry c req fun e => ⟨.ok, 0, e.words req, s⟩
/-- ADH_DIRECTORY_READ. -/
def execAdhDirectoryRead (c : Caller) (req : Nat) (s : State) : Out := .next (s.adhRun 0x0501 .userRead c (doDirectoryRead c req))

/-- ADH_RECEIPT_READ: receipts from index `first` on. -/
def doReceiptRead (c : Caller) (req first count : Nat) (s : State) : AdhOut :=
  s.onEntry c req fun e =>
    let rs := (e.receipts.drop first).take count
    ⟨.ok, rs.length, rs.flatMap (fun r => wordsOf 32 (r.bytes req)), s⟩
/-- ADH_RECEIPT_READ. -/
def execAdhReceiptRead (c : Caller) (req first count : Nat) (s : State) : Out := .next (s.adhRun 0x0502 .userRead c (doReceiptRead c req first count))

/-- ADH_LEAP_POLICY: the lease length of the node, and a composition's leap timeout, pull mode and pull deadline, all times in ns (R119, R130, R135, R136). -/
def doLeapPolicy (comp lease leapTimeout pullMode pullDeadline : Nat) (s : State) : AdhOut :=
  if (s.comp comp).maps = [] ∨ lease < 200000 ∨ 5000000 < lease ∨ leapTimeout < 200000 ∨ 10000000 < leapTimeout ∨ 2 < pullMode ∨ pullDeadline < 50000 ∨
      100000000 < pullDeadline then adhFail .invalidField s
  else
    let s1 := s.updComp comp (fun c => { c with leapTimeout := leapTimeout, pullMode := pullMode, pullDeadline := pullDeadline })
    adhOk { s1 with own := { s1.own with leaseLen := lease } }
/-- ADH_LEAP_POLICY. -/
def execAdhLeapPolicy (c : Caller) (comp lease leapTimeout pullMode pullDeadline : Nat) (s : State) : Out :=
  .next (s.adhRun 0x0503 .oper c (doLeapPolicy comp lease leapTimeout pullMode pullDeadline))

/-- ADH_LEAP_START on the holder: the request is frozen once it may be, and the outcome of its leap answers the operation (R126, R127). -/
def doLeapStart (c : Caller) (req : Nat) (target : Option Nat) (s : State) : AdhOut :=
  match s.req req with
  | none => adhFail .requestMoved s
  | some r =>
    let pool := ((s.comp r.composition).mapAt r.mapEpoch).gen
    let hs := s.hold req
    if target.any (fun t => !pool.contains t || t == s.node) then adhFail .invalidField s
    else if hs.frozen || hs.startOp.isSome then adhFail .retryLeapBusy s
    else ⟨.adhAccepted, 0, [], (s.setHold req { hs with startOp := s.refIf c 0x0504, startTarget := target }).freezeReq req target⟩
/-- ADH_LEAP_START, deferred. -/
def execAdhLeapStart (c : Caller) (req : Nat) (target : Option Nat) (s : State) : Out := .next (s.adhRun 0x0504 .oper c (doLeapStart c req target))

/-! ### Codebooks (R187, R212) -/

/-- An FP32 word that is finite and above zero. -/
def f32Positive (w : Nat) : Bool := decide (0 < w) && decide (w < 0x7F800000)

/-- ADH_CODEBOOK_FACTORS: one set's channel factors, K 0 or V 1; a set keeps the factors it has (R187). -/
def doCodebookFactors (slot layer head kv : Nat) (factors : List Nat) (s : State) : AdhOut :=
  let x := s.ctx slot
  if (x.st ≠ .loading ∧ x.st ≠ .ready) ∨ x.f.layers ≤ layer ∨ x.f.kvHeads ≤ head ∨ 1 < kv ∨ factors.length ≠ x.f.headDim ∨ !factors.all f32Positive then adhFail .invalidField s
  else match Tbl.get x.factors (layer, head, kv) with
    | some old => if old = factors then adhOk s else adhFail .invalidField s
    | none =>
      let s1 : State := { s with work := { s.work with ctxs := Tbl.set s.work.ctxs slot { x with factors := Tbl.set x.factors (layer, head, kv) factors } } }
      adhOk (s1.wr (x.f.factorBase + 4 * x.f.headDim * x.f.entry layer head kv) (factors.flatMap (bytesOf 4)))
/-- ADH_CODEBOOK_FACTORS. -/
def execAdhCodebookFactors (c : Caller) (slot layer head kv : Nat) (factors : List Nat) (s : State) : Out :=
  .next (s.adhRun 0x0304 .oper c (doCodebookFactors slot layer head kv factors))

/-- ADH_CODEBOOK_LOAD: a supplied set object is issued a version by the calibration node and published; another node forwards it there (R183, R212; log 12). -/
def doCodebookLoad (c : Caller) (slot : Nat) (obj : List Byte) (s : State) : AdhOut :=
  let f := (s.ctx slot).f
  let w := wordsOf 8 obj
  let l := fld w 0 46 37
  let h := fld w 0 36 29
  let kv := fld w 0 47 47
  let e := f.entry l h kv
  let op := s.refIf c 0x0305
  if (s.ctx slot).st ≠ .ready ∨ obj.length ≠ 64 + 512 * f.headDim ∨ fld w 0 28 26 ≠ dimCode f.headDim ∨ fld w 0 25 0 ≠ 0 ∨ f.layers ≤ l ∨ f.kvHeads ≤ h ∨
      fld w 1 63 32 ≠ f.model ∨ fld w 4 47 0 ≠ 0 ∨ word w 5 ≠ 0 ∨ word w 6 ≠ 0 then adhFail .invalidField s
  else if !objOk obj then adhFail .codebookCheck s
  else
    let calib := s.calibNode f.composition
    if calib ≠ s.node then
      if s.unreachable calib then ⟨.adhAccepted, 0, [], (op.map (fun r => s.finishOp r .targetDead 0 [])).getD s⟩
      else ⟨.adhAccepted, 0, [], s.tell { dst := calib, tc := 7, code := 0, fields := [0x0305, f.composition, e], tail := obj }⟩
    else if !s.hasFactors slot l h kv then adhFail .invalidField s
    else if 4 ≤ (s.liveVers f.composition e).length ∨ !((List.range 4).any (fun i => ((s.cbSet slot e).slot i).2.1 == 0)) then adhFail .refusedVersions s
    else
      let (ver, s1) := s.issueVer f.composition e
      let ws := [mkWord [(48, 16, ver), (47, 1, kv), (37, 10, l), (29, 8, h), (26, 3, dimCode f.headDim)], mkWord [(32, 32, f.model)],
        mkWord [(32, 32, fld w 2 63 32)], u64 s.now, mkWord [(48, 16, (s.cbSet slot e).cur)], 0, 0]
      ⟨.adhAccepted, 0, [], s1.publishSet slot e ver (mkObj ws (obj.drop 64)) op⟩
/-- ADH_CODEBOOK_LOAD, deferred. -/
def execAdhCodebookLoad (c : Caller) (slot : Nat) (obj : List Byte) (s : State) : Out := .next (s.adhRun 0x0305 .oper c (doCodebookLoad c slot obj))

/-! ### Policies (R176, R189, R191, R198 to R207) -/

/-- The ranges of the calibration policy's fields, in the order of `CalibPolicy`: window in ns, the four drift thresholds and `sat_ratio` in units of 2^-16, reservoir
rows, spawn samples, passes, `conv`, `gain_min`, `switch_lead` in ns, molt rate, `molt_code_only`, `auto_spawn`. -/
def calibRanges : List (Nat × Nat) :=
  [(100000000, 60000000000), (0, 2 ^ 32 - 1), (0, 2 ^ 32 - 1), (0, 2 ^ 32 - 1), (0, 2 ^ 32 - 1), (1024, 65536), (0, 16384), (4096, 262144), (1, 32),
   (16, 8192), (0, 32768), (1000000, 100000000), (0, 1000000), (0, 1), (0, 1)]

/-- ADH_CALIBRATION_POLICY: the calibration node, a cache member or the default, and every field of the policy. -/
def doCalibrationPolicy (comp : Nat) (node : Option Nat) (p : List Nat) (s : State) : AdhOut :=
  let c := s.comp comp
  if c.maps = [] ∨ p.length ≠ 15 ∨ !((p.zip calibRanges).all (fun x => decide (x.2.1 ≤ x.1) && decide (x.1 ≤ x.2.2))) ∨
      node.any (fun n => !c.cur.cache.contains n) then adhFail .invalidField s
  else
    let g := fun (i : Nat) => p.getD i 0
    let old := s.calib comp
    let q : CalibPolicy := { old with
      node := node, window := g 0, distRise := g 1, encSat := g 2, attendDist := g 3, scaleFloor := g 4, satRatio := g 5, reservoirRows := g 6
      spawnSamples := g 7, maxPasses := g 8, conv := g 9, gainMin := g 10, switchLead := g 11, moltRate := g 12, moltCodeOnly := g 13 == 1, autoSpawn := g 14 == 1 }
    adhOk { s with cb := { s.cb with policies := Tbl.set s.cb.policies comp q } }
/-- ADH_CALIBRATION_POLICY. -/
def execAdhCalibrationPolicy (c : Caller) (comp : Nat) (node : Option Nat) (p : List Nat) (s : State) : Out :=
  .next (s.adhRun 0x0306 .oper c (doCalibrationPolicy comp node p))

/-- ADH_ATTEND_POLICY: thresholds in units of 2^-16, each from 2^-8 to 16 (R176). -/
def doAttendPolicy (comp distHi epsHi dvHi : Nat) (s : State) : AdhOut :=
  if (s.comp comp).maps = [] ∨ [distHi, epsHi, dvHi].any (fun n => decide (n < 256 ∨ 1048576 < n)) then adhFail .invalidField s
  else
    let q : CalibPolicy := { s.calib comp with distHi := distHi, epsHi := epsHi, dvHi := dvHi }
    adhOk { s with cb := { s.cb with policies := Tbl.set s.cb.policies comp q } }
/-- ADH_ATTEND_POLICY. -/
def execAdhAttendPolicy (c : Caller) (comp distHi epsHi dvHi : Nat) (s : State) : Out := .next (s.adhRun 0x0307 .oper c (doAttendPolicy comp distHi epsHi dvHi))

end Sys2Proof.Machine
end

