-- ==== Sys2Proof/Machine/AdhTier.lean ====
section
/-! DEFINITION. Mailbox operations of arenas, tiers, regions and quotas (R64 to R66, R95, R216 to R222, R230, R233, R441). -/

namespace Sys2Proof.Machine
open Sys2Proof

/-- The DRAM die an address of the die-direct view lies on (R283). -/
def directDie (a : Nat) : Option Nat := if addrSpace a = 1 ∧ bit (addrOff a) 46 ∧ !bit (addrOff a) 47 then some (bits (addrOff a) 45 43) else none

/-- Whether an arena's slots and descriptors overlap a range. -/
def Arena.overlaps (x : Arena) (a n : Nat) : Bool :=
  (decide (a < x.base + x.slots * (256 * x.headDim)) && decide (x.base < a + n)) || (decide (a < x.descBase + x.slots * 64) && decide (x.descBase < a + n))

/-- ADH_ARENA_DEFINE: a run of slots with their descriptors behind them, every descriptor FREE; a DRAM arena lies in its die's direct view (R95, R283, R430;
where `desc_base` lies is open: log 31). -/
def doArenaDefine (tier die headDim base slots : Nat) (parity : Bool) (s : State) : AdhOut :=
  let size := 256 * headDim
  let len := slots * (size + 64)
  if tier = 0 ∨ 3 < tier ∨ !dimOk headDim ∨ slots = 0 ∨ base % 4096 ≠ 0 ∨ addrNode base ≠ s.node ∨ addrSpace base ≠ tier ∨
      (tier = 1 ∧ (7 < die ∨ directDie base ≠ some die ∨ directDie (base + len - 1) ≠ some die)) ∨ !s.offsetDefined base ∨ !s.offsetDefined (base + len - 1) ∨
      s.kv.arenas.any (fun x => x.overlaps base len) then adhFail .invalidField s
  else
    let x : Arena := { tier := tier, die := die, headDim := headDim, base := base, descBase := base + slots * size, slots := slots, parity := parity }
    let s1 : State := { s with kv := { s.kv with arenas := s.kv.arenas ++ [x] } }
    let s2 := (List.range slots).foldl (fun (t : State) i => t.setDesc (x.descBase + 64 * i) { slot := base + i * size }) s1
    adhOk (s2.bookNew qSlots x.descBase 0 slots)
/-- ADH_ARENA_DEFINE. -/
def execAdhArenaDefine (c : Caller) (tier die headDim base slots : Nat) (parity : Bool) (s : State) : Out :=
  .next (s.adhRun 0x0601 .oper c (doArenaDefine tier die headDim base slots parity))

/-- The largest interleave permitted: the smallest populated channel less its set-aside areas (R283). -/
def State.maxInterleave (s : State) : Nat :=
  match s.pkg.dramUp.map (fun c => s.dimmBytes c - s.setAside c) with
  | [] => 0
  | n :: ns => ns.foldl min n

/-- ADH_TIER_CONFIG: SRAM tier in bytes per hub, interleave in bytes for the next reset, `flash_op` in units of 1/256 (R216, R233, R283). -/
def doTierConfig (sramTier interleave flashOp : Nat) (s : State) : AdhOut :=
  if 32 * 2 ^ 20 < sramTier ∨ interleave % 2 ^ 30 ≠ 0 ∨ s.maxInterleave < interleave ∨ flashOp < 16 ∨ 128 < flashOp then adhFail .invalidField s
  else adhOk { s with boot := { s.boot with sramTier := sramTier, interleaveNext := interleave, flashOp := flashOp } }
/-- ADH_TIER_CONFIG. -/
def execAdhTierConfig (c : Caller) (sramTier interleave flashOp : Nat) (s : State) : Out :=
  .next (s.adhRun 0x0602 .oper c (doTierConfig sramTier interleave flashOp))

/-- The ranges of R222 and R441: shares in percent, times in ns, rates in blocks/s and GB/s. -/
def tierRanges : List (Nat × Nat) :=
  [(50, 99), (40, 98), (100000000, 86400000000000), (0, 1), (100000, 100000000), (0, 1000000), (0, 800), (200000, 50000000)]

/-- ADH_TIER_POLICY: the fields of R222 and R441 in their order. -/
def doTierPolicy (comp : Nat) (p : List Nat) (s : State) : AdhOut :=
  let g := fun (i : Nat) => p.getD i 0
  if (s.comp comp).maps = [] ∨ p.length ≠ 8 ∨ !((p.zip tierRanges).all (fun x => decide (x.2.1 ≤ x.1) && decide (x.1 ≤ x.2.2))) ∨ g 0 ≤ g 1 then adhFail .invalidField s
  else
    let x : TierPolicy := { dramHigh := g 0, dramLow := g 1, idleDemote := g 2, codeOnly := g 3 == 1, deadline := g 4, demoteRate := g 5, regrowRate := g 6, straggleLimit := g 7 }
    adhOk { s with tier := { s.tier with policies := Tbl.set s.tier.policies comp x } }
/-- ADH_TIER_POLICY. -/
def execAdhTierPolicy (c : Caller) (comp : Nat) (p : List Nat) (s : State) : Out := .next (s.adhRun 0x0603 .oper c (doTierPolicy comp p))

/-- Capacity of a tier that no VI is charged for (R220). -/
def State.tierFree (s : State) (tier : Nat) : Nat :=
  if tier = 2 then s.tierCapacity 2 - s.flashUsed else s.tierCapacity tier - (s.work.vis.map (fun v => s.tierUse 0 v.1 tier)).sum

/-- ADH_TIER_STATUS of a VI (kind 0) or a composition (kind 1): by tier the ceiling, the use, the use in transit, the capacity and what is free of it; then by flash
channel the erases, the programs and sector writes of the last hour, and the spare blocks (R220, R233). -/
def doTierStatus (c : Caller) (kind id : Nat) (s : State) : AdhOut :=
  if 1 < kind then adhFail .invalidField s
  else if !s.isOperator c && !(if kind = 0 then id == c.vi else s.coversComp c.vi id) then adhRights s
  else
    let tiers := ([1, 2, 3] : List Nat).flatMap (fun t =>
      [(Tbl.get s.tier.ceilings (kind, id, t)).getD (2 ^ 64 - 1), s.tierUse kind id t, s.tierTransit kind id t, s.tierCapacity t, s.tierFree t])
    let wear := s.tier.chans.flatMap (fun x => [x.1, x.2.erases, x.2.programs, x.2.writes, x.2.spare])
    ⟨.ok, 0, (tiers ++ [s.tier.demoteBlocked] ++ wear).map u64, s⟩
/-- ADH_TIER_STATUS. -/
def execAdhTierStatus (c : Caller) (kind id : Nat) (s : State) : Out := .next (s.adhRun 0x0604 .userRead c (doTierStatus c kind id))

/-- ADH_SCRUB_POLICY: the period in ns, 1 h to 168 h (R230). -/
def doScrubPolicy (period : Nat) (s : State) : AdhOut :=
  if period < 3600000000000 ∨ 604800000000000 < period then adhFail .invalidField s
  else adhOk { s with tier := { s.tier with scrubPeriod := period } }
/-- ADH_SCRUB_POLICY. -/
def execAdhScrubPolicy (c : Caller) (period : Nat) (s : State) : Out := .next (s.adhRun 0x0605 .oper c (doScrubPolicy period))

/-- The generation of a VI's region table rises once with each order that alters it, and the order waits for commands checked under an older one (R66). -/
def State.newRegionGen (s : State) (vi : Nat) : State :=
  let g := u16 ((s.vi vi).regionGen + 1)
  match s.adh.order with
  | some o =>
    if o.regions.any (fun r => r.1 == vi) then s
    else let s1 : State := { s with adh := { s.adh with order := some { o with regions := o.regions ++ [(vi, g)] } } }
         s1.updVi vi (fun x => { x with regionGen := g })
  | none => s.updVi vi (fun x => { x with regionGen := g })

/-- ADH_REGION_SET: one entry of a VI's region table; a region of the VI's own is charged from its definition (R64 to R66, R220, R221). -/
def doRegionSet (vi index base limit owner rights : Nat) (valid : Bool) (s : State) : AdhOut :=
  let e : Region := { base := base, limit := limit, owner := owner, valid := valid, rights := rights }
  let s1 := s.updVi vi (fun x => { x with regions := Tbl.set x.regions index e })
  let tier := tierOf base
  if vi = 0 ∨ 255 < vi ∨ (s.vi vi).st = .unassigned ∨ 63 < index ∨ 255 < owner ∨ 255 < rights then adhFail .invalidField s
  else if valid ∧ (base % 64 ≠ 0 ∨ limit % 64 ≠ 63 ∨ limit < base ∨ addrNode base ≠ s.node ∨ addrNode limit ≠ s.node ∨ addrSpace limit ≠ addrSpace base ∨
      !s.offsetDefined base ∨ !s.offsetDefined limit) then adhFail .invalidField s
  else if valid ∧ owner = vi ∧ (Tbl.get s.tier.ceilings (0, vi, tier)).any (fun n => decide (n < s1.tierUse 0 vi tier)) then adhFail .tierQuota s
  else if valid ∧ owner = vi ∧ (tier = 1 ∨ tier = 3) ∧ s1.tierCapacity tier < s1.tierUse 0 vi tier then adhFail .refusedCapacity s
  else adhOk (s1.newRegionGen vi)
/-- ADH_REGION_SET, an action of a change order. -/
def execAdhRegionSet (c : Caller) (vi index base limit owner rights : Nat) (valid : Bool) (s : State) : Out :=
  .next (s.adhRun 0x0606 .order c (doRegionSet vi index base limit owner rights valid))

/-- ADH_QUOTA_SET: the ceiling of a VI (kind 0) or composition (kind 1) in a tier, in bytes or flash sectors (R220). -/
def doQuotaSet (kind id tier ceiling : Nat) (s : State) : AdhOut :=
  if 1 < kind ∨ tier = 0 ∨ 3 < tier ∨ (if kind = 0 then 255 < id else (id = 0 ∨ 65535 ≤ id)) then adhFail .invalidField s
  else adhOk { s with tier := { s.tier with ceilings := Tbl.set s.tier.ceilings (kind, id, tier) ceiling } }
/-- ADH_QUOTA_SET, an action of a change order. -/
def execAdhQuotaSet (c : Caller) (kind id tier ceiling : Nat) (s : State) : Out := .next (s.adhRun 0x0607 .order c (doQuotaSet kind id tier ceiling))

end Sys2Proof.Machine
end

