-- ==== Sys2Proof/Machine/TimeSync.lean ====
section
/-! DEFINITION. Fabric time: IEEE 1588, the lock, corrections and PPS_IN (R275 to R279, R481). -/

namespace Sys2Proof.Machine
open Sys2Proof

/-- Changes the time fields. -/
def State.updTime (s : State) (f : Time → Time) : State := { s with time := f s.time }

/-- A node that locks again leaves the fallback of its gates: the guard ends, and an OPEN port resumes its list at the next
cycle start (R330). -/
def State.leaveFallback (s : State) : State :=
  s.tra.gates.foldl (fun t e =>
    if !e.2.inFallback then t else
      let g := e.2
      let next := ceilDiv t.now g.oper.period * g.oper.period
      (t.updGates e.1 (fun g => { g with inFallback := false, resumeAt := if g.fallbackOpen then some next else none })).raise0
        .gateFallback (lkOf e.1) 0 [portCode e.1, 2, 1 + b2n g.fallbackOpen, t.now - t.time.unlockedAt]) s

/-- Raises EV_TIME_LOCKED or EV_TIME_UNLOCKED where the node's lock differs from a state before (R277). -/
def timeWatch (before : State) (s : State) : State :=
  if before.timeLocked == s.timeLocked then s
  else if s.timeLocked then
    (s.leaveFallback).raise0 .timeLocked (dieLK 0) 0 [(s.time.offset / 65536).toNat, s.time.gm]
  else (s.updTime (fun t => { t with unlockedAt := s.now })).raise0 .timeUnlocked (dieLK 0) 0 [u64 (2 ^ 64 + (s.time.offset / 65536)).toNat, s.time.gm]

/-- Corrects fabric time by a number of ns: forward by more than 1 µs in one step; otherwise slewed at 10 µs per second. A
correction within the ±10 ns of the lock is the clock's own steering (R277, R278; log 10). -/
def State.correct (s : State) (n : Int) : State :=
  if n.natAbs ≤ 10 then s
  else if n > 1000 then { s.shiftUnits n.toNat with now := u64 (s.now + n.toNat) }
  else s.updTime (fun t => { t with slew := some { forward := decide (0 < n), left := n.natAbs } })

/-- What is still to be slewed, in 1/65,536 ns. -/
def Time.slewLeft (t : Time) : Int :=
  match t.slew with
  | none => 0
  | some w => if w.forward then (w.left : Int) * 65536 else -((w.left : Int) * 65536)

/-- One accepted Sync: the offset estimate; 16 in a row within ±10 ns lock the node, which then applies the correction it
has found; beyond ±20 ns a locked node is unlocked (R277, R278, R491). -/
def State.acceptSync (s : State) (raw : Int) : State :=
  let est := raw + s.time.phase + s.time.slewLeft
  let good := decide (est.natAbs ≤ 655360)
  let s1 := s.updTime (fun t => { t with offset := est, lastSync := s.now })
  if s.time.locked then
    if 1310720 < est.natAbs then s1.updTime (fun t => { t with locked := false, goodRun := 0, phase := t.phase - est }) else s1
  else if !good then s1.updTime (fun t => { t with goodRun := 0, phase := t.phase - est })
  else if s.time.goodRun + 1 < 16 then s1.updTime (fun t => { t with goodRun := t.goodRun + 1 })
  else (s1.updTime (fun t => { t with locked := true, goodRun := 16, phase := 0 })).correct (s.time.phase / 65536)

/-- The clock identity of this node: its node id (PRESUMED; log 10). -/
def State.clockId (s : State) : Nat := s.node

/-- The data set this node advertises (R276, R279). -/
def State.ownSet (s : State) : Announce := { p1 := s.time.advP1, p2 := s.time.advP2, gm := s.clockId }

/-- The fields of a data set in the order in which the standard compares them. -/
def Announce.key (a : Announce) : List Nat := [a.p1, a.cls, a.acc, a.var, a.p2, a.gm, a.steps]

/-- Lexicographic order of two keys. -/
def keyLe : List Nat → List Nat → Bool
  | a :: x, b :: y => decide (a < b) || (a == b && keyLe x y)
  | [], _ => true
  | _, [] => false

/-- The best master clock algorithm over the Announces of the fabric ports and the node's own set; a new grandmaster is
reported (R276). -/
def State.bmca (s : State) : State :=
  let heard := s.time.announces.filter (fun e => (s.port e.1).partnerRole == 1)
  let best := heard.foldl (fun (b : Option (Nat × Announce)) e =>
    match b with
    | none => some (e.1, e.2.1)
    | some (_, a) => if keyLe a.key e.2.1.key then b else some (e.1, e.2.1)) none
  let (gm, slave) : Nat × Option Nat := match best with
    | some (p, a) => if keyLe a.key s.ownSet.key then (a.gm, some p) else (s.clockId, none)
    | none => (s.clockId, none)
  let s1 := s.updTime (fun t => { t with gm := gm, slavePort := slave })
  if gm = s.time.gm then s1 else s1.raise0 .grandmasterChange (dieLK 0) 0 [s.time.gm, gm]

/-- Whether this node is grandmaster. -/
def State.isGm (s : State) : Bool := s.time.slavePort.isNone

/-- An IEEE 1588 message arrives on a port: a Sync of the slave port moves the offset, an Announce the choice of master, a
Pdelay_Resp the port's delay; a Pdelay_Req is answered (R275 to R278). Time is never taken from an accelerator or host. -/
def execPtpMessageReceive (port : Nat) (m : PtpMsg) (s : State) : Out :=
  .next (s.whenLive fun s =>
    if (s.port port).st ≠ .active then s else
    match m with
    | .sync arrival origin corr =>
      if s.time.slavePort = some port ∧ (s.port port).partnerRole = 1 then
        timeWatch s (s.acceptSync (arrival - origin - corr - Tbl.at s.time.delays port 0 - Tbl.at s.time.asymmetry port 0))
      else s
    | .announce p1 cls acc var p2 gm steps =>
      if (s.port port).partnerRole ≠ 1 then s else
        let a : Announce := { p1 := p1, cls := cls, acc := acc, var := var, p2 := p2, gm := gm, steps := steps + 1 }
        (s.updTime (fun t => { t with announces := Tbl.set t.announces port (a, s.now) })).bmca
    | .pdelayReq => s.control port [4, 4, s.now]
    | .pdelayResp t1 t2 t3 t4 => s.updTime (fun t => { t with delays := Tbl.set t.delays port (((t4 - t1) - (t3 - t2)) / 2) }))

/-- No Sync accepted for 100 ms unlocks a node that follows a master (R277). -/
def execSyncTimeout (s : State) : Out :=
  .next (s.whenLive fun s =>
    if s.time.locked ∧ !s.isGm ∧ s.time.lastSync + 100000000 ≤ s.now then
      timeWatch s (s.updTime (fun t => { t with locked := false, goodRun := 0 }))
    else s)

/-- No Announce on a port for three intervals of 125 ms: the choice of master runs again (R275, R276). -/
def execAnnounceTimeout (port : Nat) (s : State) : Out :=
  .next (s.whenLive fun s =>
    match Tbl.get s.time.announces port with
    | some (_, t) => if t + 375000000 ≤ s.now then (s.updTime (fun t => { t with announces := Tbl.del t.announces port })).bmca else s
    | none => s)

/-- The interval of a PTP message in half ns: 0 Sync, 1 Pdelay_Req, 2 Announce (R275). -/
def ptpInterval (mode kind : Nat) : Nat := if kind = 2 then 250000000 else if mode = 2 then 15625000 else 1953125

/-- At each interval a port sends its Sync, Pdelay_Req or Announce; Sync and Announce leave on master ports. An Announce
brings new settings into force (R275, R276, R279, R481). -/
def execPtpTransmitTimer (port kind : Nat) (s : State) : Out :=
  .next (s.whenLive fun s =>
    let x := s.port port
    let last := Tbl.get s.time.sentAt (port, kind)
    let due := (last.map (fun t => decide (ptpInterval x.cfg.mode kind ≤ 2 * (s.now - t)))).getD true
    if x.st ≠ .active ∨ 2 < kind ∨ !due ∨ (kind ≠ 1 ∧ s.time.slavePort = some port) then s else
      let s1 := s.updTime (fun t => { t with sentAt := Tbl.set t.sentAt (port, kind) s.now })
      let s2 := if kind ≠ 2 then s1 else
        (s1.updTime (fun t => { t with
          advP1 := if t.ppsEnable && t.ppsAcquired then t.priority1 else 255
          advP2 := t.priority2, advUtc := t.utcOffset, advDomain := t.domain })).bmca
      let a := s2.time
      let best := (a.slavePort.bind (Tbl.get a.announces)).map (·.1)
      let set := best.getD s2.ownSet
      let body := if kind = 2 then set.key ++ [a.advUtc] else [s2.now]
      if x.cfg.mode = 2 then s2.gram (if kind = 2 then 320 else 319) port (bytesOfWords ([kind, a.advDomain] ++ body))
      else s2.control port ([4, kind, a.advDomain] ++ body))

/-- A slew has been worked off: the node no longer counts as unlocked because of it (R278). -/
def execTimeSlewDone (s : State) : Out :=
  .next (s.whenLive fun s =>
    match s.time.slew with
    | some w => if w.left = 0 then timeWatch s (s.updTime (fun t => { t with slew := none })) else s
    | none => s)

/-- One tick of the node's own counter: 1 ns, with a slewed ns taken or given every 100,000 ticks (R278). -/
def State.tickTime (s : State) : State :=
  match s.time.slew with
  | none => { s with now := u64 (s.now + 1) }
  | some w =>
    if w.ticks + 1 < 100000 ∨ w.left = 0 then
      { s with now := u64 (s.now + 1), time := { s.time with slew := some { w with ticks := w.ticks + 1 } } }
    else { s with now := if w.forward then u64 (s.now + 2) else s.now, time := { s.time with slew := some { w with ticks := 0, left := w.left - 1 } } }

/-! ### PPS_IN (R481) -/

/-- Edges accepted and rejected in the last 10 s. -/
def State.ppsCounts (s : State) : List Nat :=
  [(s.time.ppsAccepted.filter (fun t => decide (s.now < t + 10000000000))).length,
   (s.time.ppsRejected.filter (fun t => decide (s.now < t + 10000000000))).length]

/-- The time an accepted edge stands for at a grandmaster: at an acquisition the written second count and the whole seconds
since it was written; otherwise the nearest whole second (R279, R481). -/
def State.ppsTarget (s : State) : Nat :=
  match s.time.timeOfDay with
  | some (v, t) => (v + (s.now - t) / 1000000000) * 1000000000
  | none => (s.now + 500000000) / 1000000000 * 1000000000

/-- PPS is acquired: the event, and a grandmaster takes its second count and phase and counts as locked (R279, R481; log
10); any other node discards the value. -/
def State.ppsAcquire (s : State) : State :=
  let s1 := (s.updTime (fun t => { t with ppsAcquired := true })).raise0 .ppsAcquired (dieLK 0) 0 (s.ppsCounts ++ [0])
  let s2 := if s1.isGm then (s1.updTime (fun t => { t with locked := true, phase := 0 })).correct ((s1.ppsTarget : Int) - s1.now) else s1
  timeWatch s (s2.updTime (fun t => { t with timeOfDay := none }))

/-- PPS is lost, or an acquisition begins again: the event for a PPS that was acquired, and 255 is advertised from the next Announce. The reason is 1
stuck high, 2 stuck low, 3 absent, 4 rejected edges. A grandmaster without PPS no longer counts as locked (R481; log 10). -/
def State.ppsLose (s : State) (reason : Nat) : State :=
  let s1 := s.updTime (fun t => { t with ppsLast := none, ppsRun := 0, ppsAcquired := false, locked := t.locked && !(t.ppsAcquired && s.isGm) })
  if s.time.ppsAcquired then timeWatch s (s1.raise0 .ppsLost (dieLK 0) 0 (s.ppsCounts ++ [reason])) else s1

/-- A rising edge after a low of at least 100 ns with a high pulse of 100 ns to 900 ms: accepted 1 s ± 200 µs after the
previous accepted edge, else rejected and counted; eight accepted in a row acquire PPS, and three rejected within 10 s lose it (R481). With no accepted edge to
measure from, an edge is the first of a run (log 10). -/
def execPpsInEdge (lowNs highNs : Nat) (s : State) : Out :=
  .next (s.whenLive fun s =>
    if !s.time.ppsEnable ∨ lowNs < 100 ∨ highNs < 100 ∨ 900000000 < highNs then s else
      let ok := match s.time.ppsLast with
        | none => true
        | some t => decide (t + 999800000 ≤ s.now) && decide (s.now ≤ t + 1000200000)
      if !ok then
        let s1 := s.updTime (fun t => { t with
          ppsRejected := s.now :: t.ppsRejected.filter (fun x => decide (s.now < x + 10000000000)), ppsRejects := t.ppsRejects + 1, ppsRun := 0 })
        if 3 ≤ s1.time.ppsRejected.length then s1.ppsLose 4 else s1
      else
        let s1 := s.updTime (fun t => { t with
          ppsAccepted := s.now :: t.ppsAccepted.filter (fun x => decide (s.now < x + 10000000000))
          ppsLast := some s.now, ppsRun := t.ppsRun + 1 })
        if s.time.ppsAcquired then (if s.isGm then timeWatch s1 (s1.correct (((s1.now + 500000000) / 1000000000 * 1000000000 : Nat) - (s1.now : Int))) else s1)
        else if 8 ≤ s1.time.ppsRun then s1.ppsAcquire else s1)

/-- No accepted edge for 3 s: PPS is lost (R481). -/
def execPpsLossTimer (reason : Nat) (s : State) : Out :=
  .next (s.whenLive fun s =>
    match s.time.ppsLast with
    | none => s
    | some t => if s.now < t + 3000000000 then s else s.ppsLose reason)

end Sys2Proof.Machine
end

