-- ==== Sys2Proof/Machine/AdhFab.lean ====
section
/-! DEFINITION. Mailbox operations of ports, partners, routes, fabric time and windows (R251, R259, R265, R267 to R271, R279, R280, R295, R298, R300 to R304). -/

namespace Sys2Proof.Machine
open Sys2Proof

/-! ### Ports (R265, R280) -/

/-- Takes a port out of service for a new configuration (R280). -/
def State.reconfigure (s : State) (p : Nat) (cfg : PortCfg) : State :=
  let s1 := s.leaveActive p 6 (if cfg.mode = 0 then .disabled else .detect)
  (s1.updPort p (fun x => { x with cfg := cfg, st := if cfg.mode = 0 then .disabled else .detect })).widthCheck p

/-- Splits a port into its halves, or joins them, where the port named asks for it; the ports that end leave service (R251, R280). -/
def State.setSplit (s : State) (p : Nat) : State :=
  let n := portBase p
  let half := decide (portHalf p ≠ 0)
  if half == s.lnk.split.contains n then s else
    let gone := if half then [n] else [n + 32, n + 64]
    let s1 := gone.foldl (fun (t : State) q => t.leaveActive q 6 .disabled) s
    let s2 : State := { s1 with lnk := { s1.lnk with
      split := if half then s1.lnk.split ++ [n] else s1.lnk.split.filter (fun q => q != n), ports := gone.foldl (fun (t : Tbl Nat Port) q => Tbl.del t q) s1.lnk.ports } }
    if half then [n + 32, n + 64].foldl (fun (t : State) q => t.updPort q (fun _ => { st := .detect, since := t.now, detectAt := t.now })) s2
    else s2.updPort n (fun _ => { st := .detect, since := s2.now, detectAt := s2.now })

/-- Whether a port's fields are in their ranges (R280): `eth` holds the type, `mtu`, `udp_port`, `vlan` (0 off) and the DSCP of each class; no pool values
stand for the default. -/
def portFieldsOk (port mode roles rate minWidth : Nat) (pools : List Nat) (endpoint : Option Nat) (eth : List Nat) : Bool :=
  let g := fun (i : Nat) => eth.getD i 0
  decide (portBase port < 18) && decide (portHalf port < 3) && decide (mode ≤ 2) && decide (roles < 8) && (mode == 2 || !bit roles 2) && decide (rate ≤ 2) &&
  ([1, 2, 4, 8] : List Nat).contains minWidth &&
  (pools.isEmpty || (pools.length == 16 && pools.all (fun n => decide (64 ≤ n)) && pools.sum == (if portHalf port = 0 then 65536 else 32768))) &&
  (endpoint.map (fun e => decide (e < 32) && mode == 1 && bit roles 1)).getD true &&
  eth.length == 12 && decide (g 0 ≤ 1) && decide (1500 ≤ g 1) && decide (g 1 ≤ 9000) && ((g 1 - 1500) % 8 == 0 || g 1 == 9000) &&
  decide (49152 ≤ g 2) && decide (g 2 ≤ 65535) && decide (g 3 ≤ 4094) && (eth.drop 4).all (fun n => decide (n < 64))

/-- ADH_PORT_CONFIG: the number of the port says whether it is whole or half; the port retrains with its new fields (R280). -/
def doPortConfig (port mode roles rate minWidth : Nat) (pools : List Nat) (endpoint : Option Nat) (eth : List Nat) (s : State) : AdhOut :=
  if !portFieldsOk port mode roles rate minWidth pools endpoint eth then adhFail .invalidField s
  else
    let g := fun (i : Nat) => eth.getD i 0
    let cfg : PortCfg := { mode := mode, roles := roles, rate := rate, minWidth := minWidth, poolUnits := pools, endpoint := endpoint, ethType := g 0, mtu := g 1
                           udpPort := g 2, vlan := if g 3 = 0 then none else some (g 3), dscp := eth.drop 4 }
    adhOk ((s.setSplit port).reconfigure port cfg)
/-- ADH_PORT_CONFIG. -/
def execAdhPortConfig (c : Caller) (port mode roles rate minWidth : Nat) (pools : List Nat) (endpoint : Option Nat) (eth : List Nat) (s : State) : Out :=
  .next (s.adhRun 0x0701 .oper c (doPortConfig port mode roles rate minWidth pools endpoint eth))

/-- A port's time role: slave where the node takes its time, else master, or passive where the port hears an Announce at least as good as the
one the node sends (R265, R276). -/
def State.timeRole (s : State) (p : Nat) : Nat :=
  let sent := ((s.time.slavePort.bind (Tbl.get s.time.announces)).map (·.1)).getD s.ownSet
  if (s.port p).st ≠ .active then 0
  else if s.time.slavePort = some p then 2
  else if (s.port p).partnerRole ≠ 1 then 1
  else if ((Tbl.get s.time.announces p).map (fun a => keyLe a.1.key sent.key)).getD false then 3 else 1

/-- A port's status word (R265). -/
def State.portWord (s : State) (p : Nat) : Nat :=
  let x := s.port p
  let st := match x.st with
    | .disabled => 0 | .detect => 1 | .equalize => 2 | .fecLock => 3 | .caps => 4 | .creditInit => 5 | .active => 6 | .hold => 7 | .refused => 8
  mkWord [(60, 4, st), (58, 2, x.cfg.mode), (56, 2, portHalf p), (52, 4, x.active.length), (44, 8, laneMask (s.lanesUp p)), (42, 2, x.rate), (40, 2, x.partnerRole),
    (36, 4, x.version), (24, 12, x.partner), (22, 2, s.timeRole p)]

/-- ADH_PORT_STATUS. -/
def doPortStatus (port : Nat) (s : State) : AdhOut :=
  if !s.portExists port then adhFail .invalidField s else ⟨.ok, s.portWord port, [s.portWord port], s⟩
/-- ADH_PORT_STATUS. -/
def execAdhPortStatus (c : Caller) (port : Nat) (s : State) : Out := .next (s.adhRun 0x0702 .userRead c (doPortStatus port))

/-- ADH_PARTNER_SET: one entry of an Ethernet-mode port's partner table, or its removal: IPv6 address, MAC address, role, source node and endpoint, endpoint
number (R270). -/
def doPartnerSet (port entry : Nat) (fields : Option (List Nat)) (s : State) : AdhOut :=
  if !s.portExists port ∨ (s.port port).cfg.mode ≠ 2 ∨ 63 < entry then adhFail .invalidField s
  else match fields with
    | none => adhOk (s.updPort port (fun x => { x with partners := Tbl.del x.partners entry }))
    | some f =>
      let g := fun (i : Nat) => f.getD i 0
      if f.length ≠ 6 ∨ 2 ^ 128 ≤ g 0 ∨ 2 ^ 48 ≤ g 1 ∨ g 2 = 0 ∨ 3 < g 2 ∨ 4094 < g 3 ∨ 63 < g 4 ∨ 31 < g 5 then adhFail .invalidField s
      else
        let e : Partner := { ipv6 := g 0, mac := g 1, role := g 2, src := (g 3, g 4), endpoint := g 5, mtu := (s.port port).cfg.mtu }
        adhOk (s.updPort port (fun x => { x with partners := Tbl.set x.partners entry e }))
/-- ADH_PARTNER_SET, an action of a change order. -/
def execAdhPartnerSet (c : Caller) (port entry : Nat) (fields : Option (List Nat)) (s : State) : Out :=
  .next (s.adhRun 0x0703 .order c (doPartnerSet port entry fields))

/-! ### Routes, bounds and time (R279, R295, R298) -/

/-- ADH_ROUTE_LOAD: entries of the forwarding table, each a destination, a path and an egress port or nothing; paths that leave or enter service are reported
(R295 to R297). -/
def doRouteLoad (routes : List (Nat × Nat × Option Nat)) (s : State) : AdhOut :=
  if routes.any (fun r => decide (4094 < r.1 ∨ 15 < r.2.1) || (r.2.2.map (fun p => decide (17 < portBase p ∨ 2 < portHalf p))).getD false) then adhFail .invalidField s
  else
    let tbl := routes.foldl (fun (t : Tbl (Nat × Nat) Nat) r => match r.2.2 with
      | some p => Tbl.set t (r.1, r.2.1) p
      | none => Tbl.del t (r.1, r.2.1)) s.fab.routes
    let t : State := { s with fab := { s.fab with routes := tbl } }
    let gone := (s.fab.routes.filter (fun e => !Tbl.has tbl e.1 && s.pathUp e.1.1 e.1.2)).map (·.1)
    adhOk (gone.foldl (fun (u : State) e => u.pathEvent e.1 e.2 false (s.paths e.1).length (t.paths e.1).length) (pathWatch s t))
/-- ADH_ROUTE_LOAD. -/
def execAdhRouteLoad (c : Caller) (routes : List (Nat × Nat × Option Nat)) (s : State) : Out := .next (s.adhRun 0x0704 .oper c (doRouteLoad routes))

/-- ADH_FABRIC_POLICY, in ns (R298). -/
def doFabricPolicy (deadBound msgTimeout rnrLimit : Nat) (s : State) : AdhOut :=
  if deadBound < 2000 ∨ 200000 < deadBound ∨ msgTimeout < 100000 ∨ 100000000 < msgTimeout ∨ rnrLimit < 10000 ∨ 10000000 < rnrLimit then adhFail .invalidField s
  else adhOk { s with fab := { s.fab with deadBound := deadBound, msgTimeout := msgTimeout, rnrLimit := rnrLimit } }
/-- ADH_FABRIC_POLICY. -/
def execAdhFabricPolicy (c : Caller) (deadBound msgTimeout rnrLimit : Nat) (s : State) : Out :=
  .next (s.adhRun 0x0705 .oper c (doFabricPolicy deadBound msgTimeout rnrLimit))

/-- ADH_TIME_CONFIG: the fields wait for the next Announce, `time_of_day` for the next acquisition of PPS_IN; asymmetries are in 1/65,536 ns (R279). -/
def doTimeConfig (domain : Nat) (asymmetry : List (Nat × Int)) (pps : Bool) (p1 p2 : Nat) (tod : Option Nat) (utc : Nat) (s : State) : AdhOut :=
  if 127 < domain ∨ 254 < p1 ∨ 255 < p2 ∨ 255 < utc ∨ (tod.map (fun t => decide (2 ^ 48 ≤ t))).getD false ∨
      asymmetry.any (fun a => decide (6553600000 < a.2.natAbs) || decide (17 < portBase a.1 ∨ 2 < portHalf a.1)) then adhFail .invalidField s
  else adhOk (s.updTime (fun t => { t with
    domain := domain, asymmetry := asymmetry.foldl (fun (m : Tbl Nat Int) a => Tbl.set m a.1 a.2) t.asymmetry
    ppsEnable := pps, ppsAcquired := t.ppsAcquired && pps, ppsRun := if pps then t.ppsRun else 0, ppsLast := if pps then t.ppsLast else none
    priority1 := p1, priority2 := p2, utcOffset := utc, timeOfDay := (tod.map (fun v => (v, s.now))).orElse (fun _ => t.timeOfDay) }))
/-- ADH_TIME_CONFIG. -/
def execAdhTimeConfig (c : Caller) (domain : Nat) (asymmetry : List (Nat × Int)) (pps : Bool) (p1 p2 : Nat) (tod : Option Nat) (utc : Nat) (s : State) : Out :=
  .next (s.adhRun 0x0706 .oper c (doTimeConfig domain asymmetry pps p1 p2 tod utc))

/-! ### Windows (R300 to R304) -/

/-- Whether a window may cover a range: DRAM, SRAM, flash or trigger counters of this node, whole lines (R300, R301). -/
def State.windowRange (s : State) (base limit : Nat) : Bool :=
  base % 64 == 0 && limit % 64 == 63 && decide (base ≤ limit) && addrNode base == s.node && addrNode limit == s.node && addrSpace base == addrSpace limit &&
  s.offsetDefined base && s.offsetDefined limit && ((([1, 2, 3] : List Nat).contains (addrSpace base)) || (addrSpace base == 4 && decide (0x1000000 ≤ addrOff base)))

/-- ADH_WINDOW_OPEN: opens a CLOSED window or gives an OPEN or REVOKED one a new entry (R302, R304). -/
def doWindowOpen (window base limit owner rights comp listMask : Nat) (srcs : List SrcId) (s : State) : AdhOut :=
  if 4094 < window ∨ 255 < owner ∨ 15 < rights ∨ 65534 < comp ∨ 65535 < listMask ∨ 8 < srcs.length ∨ srcs.any (fun x => decide (4094 < x.1 ∨ 63 < x.2)) ∨
      !s.windowRange base limit ∨ (s.window window).st = .draining then adhFail .invalidField s
  else
    let e : WinEntry := { base := base, limit := limit, owner := owner, rights := rights, composition := comp, listMask := listMask, srcs := srcs }
    let s1 := s.changeWindow window (.replace e)
    match s1.adh.order with
    | some o => adhOk { s1 with adh := { s1.adh with order := some { o with windows := (o.windows ++ [window]).dedup } } }
    | none => adhOk s1
/-- ADH_WINDOW_OPEN, an action of a change order. -/
def execAdhWindowOpen (c : Caller) (window base limit owner rights comp listMask : Nat) (srcs : List SrcId) (s : State) : Out :=
  .next (s.adhRun 0x0707 .order c (doWindowOpen window base limit owner rights comp listMask srcs))

/-- Whether a caller may act on a window: its owner, or a change order (R302). -/
def State.ownsWindow (s : State) (c : Caller) (w : Nat) : Bool := c.order.isSome || (s.window w).e.owner == c.vi

/-- ADH_WINDOW_REVOKE: an OPEN window is DRAINING with its generation raised; the revoke completes when the window is REVOKED (R302 to R304). -/
def doWindowRevoke (c : Caller) (window : Nat) (s : State) : AdhOut :=
  let w := s.window window
  let wait := fun (t : State) => t.updWindow window (fun x => { x with revokeOps := x.revokeOps ++ (s.refIf c 0x0708).toList })
  if 4094 < window then adhFail .invalidField s
  else if w.st = .closed then adhOk s
  else if !s.ownsWindow c window then adhRights s
  else if w.st = .revoked then adhOk s
  else if w.st = .draining then ⟨.adhAccepted, 0, [], wait s⟩
  else
    let s1 := wait (s.changeWindow window .revoke)
    match s1.adh.order with
    | some o => ⟨.adhAccepted, 0, [], if c.order.isSome then { s1 with adh := { s1.adh with order := some { o with windows := (o.windows ++ [window]).dedup } } } else s1⟩
    | none => ⟨.adhAccepted, 0, [], s1⟩
/-- ADH_WINDOW_REVOKE, deferred; an operation that completes at once answers with its outcome (R303). -/
def execAdhWindowRevoke (c : Caller) (window : Nat) (s : State) : Out :=
  .next (if c.order.isSome then s.adhRun 0x0708 .order c (doWindowRevoke c window) else s.adhRun 0x0708 .user c (doWindowRevoke c window))

/-- ADH_WINDOW_RENEW: a REVOKED window is OPEN again with its generation (R302). -/
def doWindowRenew (c : Caller) (window : Nat) (s : State) : AdhOut :=
  let w := s.window window
  if 4094 < window ∨ w.st = .closed then adhFail .invalidField s
  else if !s.ownsWindow c window then adhRights s
  else if w.st = .draining then adhFail .invalidField s
  else adhOk (s.updWindow window (fun x => { x with st := .opened }))
/-- ADH_WINDOW_RENEW. -/
def execAdhWindowRenew (c : Caller) (window : Nat) (s : State) : Out := .next (s.adhRun 0x0709 .user c (doWindowRenew c window))

/-- ADH_WINDOW_CLOSE (R302). -/
def doWindowClose (window : Nat) (s : State) : AdhOut :=
  if 4094 < window then adhFail .invalidField s
  else
    let s1 := s.changeWindow window .close
    match s1.adh.order with
    | some o => if (s1.window window).st = .closed then adhOk s1 else adhOk { s1 with adh := { s1.adh with order := some { o with windows := (o.windows ++ [window]).dedup } } }
    | none => adhOk s1
/-- ADH_WINDOW_CLOSE, an action of a change order. -/
def execAdhWindowClose (c : Caller) (window : Nat) (s : State) : Out := .next (s.adhRun 0x070A .order c (doWindowClose window))

/-- The window entry of R300 as its eight words. -/
def Window.words (w : Window) : List Nat :=
  let st := match w.st with | .closed => 0 | .opened => 1 | .draining => 2 | .revoked => 3
  let src := fun (i : Nat) => match w.e.srcs[i]? with
    | some x => mkWord [(31, 1, 1), (12, 12, x.1), (6, 6, x.2)]
    | none => 0
  [u64 w.e.base, u64 w.e.limit,
   mkWord [(48, 16, w.gen), (40, 8, w.e.owner), (37, 3, st), (36, 1, bits w.e.rights 3 3), (35, 1, bits w.e.rights 2 2), (34, 1, bits w.e.rights 1 1), (33, 1, bits w.e.rights 0 0),
     (16, 16, w.e.composition), (0, 16, w.e.listMask)],
   mkWord [(32, 32, w.admitted), (0, 32, w.refusedGen)]] ++
  (List.range 4).map (fun k => mkWord [(0, 32, src (2 * k)), (32, 32, src (2 * k + 1))])

/-- ADH_WINDOW_READ, for the owner (R300). -/
def doWindowRead (c : Caller) (window : Nat) (s : State) : AdhOut :=
  if 4094 < window then adhFail .invalidField s
  else if !s.ownsWindow c window then adhRights s
  else ⟨.ok, 0, (s.window window).words, s⟩
/-- ADH_WINDOW_READ; a management session owns no window (R422). -/
def execAdhWindowRead (c : Caller) (window : Nat) (s : State) : Out := .next (s.adhRun 0x070B .user c (doWindowRead c window))

end Sys2Proof.Machine
end

