-- ==== Sys2Proof/Machine/Packets.lean ====
section
/-! DEFINITION. Messages, responses, transit packets, re-sends, dead targets and windows as events (R288, R291, R295 to R304,
R309 to R313, R317). -/

namespace Sys2Proof.Machine
open Sys2Proof

/-- The port whose receive buffer holds a packet. -/
def State.arrivedAt (s : State) (p : Packet) : Nat := ((s.lnk.ports.find? (fun x => x.2.arrived.contains p)).map (·.1)).getD 0xFF

/-- Why a SEND_DATA packet may not be admitted (R292, R301). -/
def State.messageFault (s : State) (port : Nat) (p : Packet) : Option (Status × Nat × Nat) :=
  if p.src = s.node then
    if !s.bound p.srcVi (p.src, p.srcEp) then some (.violation, 2, 4)
    else if p.winId ≠ 0xFFF then (s.windowFault p).map (fun st => (st, 2, 2)) else none
  else if p.winId = 0xFFF then
    (if p.srcVi = 0 ∧ p.srcEp = 63 ∧ p.winGen = 0 ∧ s.fabricPort port then none else some (.violation, 2, 2))
  else (s.windowFault p).map (fun st => (st, 2, 2))

/-- A SEND_DATA packet at the hub: it claims or finds its message's entry, is placed and tallied, and is acknowledged; a repeat is
acknowledged only (R291, R310 to R313). -/
def State.messageIn (s : State) (port : Nat) (p : Packet) : State :=
  let s := (s.consume port p).heard p.src
  if !requestFormOk p then s.discard
  else if !p.crcOk then s.refusePkt p .packetCheck
  else if p.dst ≠ s.node then
    if p.src ≠ s.node then s
    else if !s.bound p.srcVi (p.src, p.srcEp) then (s.violate p.srcVi p.src p.srcEp p.addr 2 p.ty.code 4).refusePkt p .violation
    else s.issue p
  else if (s.kept p).isSome then s.answerPkt p .ok [] false
  else
    let (st, s1) := s.arriveMsg p (s.messageFault port p)
    (if st = .ok then s1.record p none else s1).answerPkt p st [] false

/-- A SEND_DATA packet arrives. -/
def execSendData (port : Nat) (p : Packet) (s : State) : Out :=
  .next (s.whenLive fun s =>
    if p.ty ≠ .sendData ∨ p.resp then s else s.ingress port p (fun t => t.messageIn port p))

/-- A request packet once its policer lets it pass: a message's piece, or a line operation. -/
def State.passIn (s : State) (port : Nat) (p : Packet) : State :=
  if p.ty = .sendData then s.messageIn port p else s.receiveIn port p

/-- MSG_CTRL arrives: the SEND it names completes (R311, R312). -/
def execMsgCtrl (p : Packet) (s : State) : Out :=
  .next (s.whenLive fun s =>
    if p.ty ≠ .msgCtrl then s else
    let s := (s.consume (s.arrivedAt p) p).heard p.src
    if !responseFormOk p then s.discard
    else if p.dst ≠ s.node ∨ !p.crcOk then s
    else
      let w := wordsOf 8 p.payload
      s.applyCtrl p.src p.msgId (fld w 0 63 56) (Status.ofCode (fld w 0 15 0)) (word w 1))

/-- A response arrives at the source of its request (R286, R288, R290, R298, R299). -/
def execPacketResponseReceive (p : Packet) (s : State) : Out :=
  .next (s.whenLive fun s =>
    if !p.resp || p.ty == .msgCtrl || p.dst != s.node then s else
    let key := if p.src = s.node then 4096 + p.srcEp else p.src
    let s := (s.consume (s.arrivedAt p) p).heard key
    if !responseFormOk p then s.discard
    else if !p.crcOk then s
    else match Tbl.get s.fab.out (key, p.tag), Status.ofCode p.status with
      | some o, some st =>
        if o.pkt.ty ≠ p.ty ∨ (p.ty = .read ∧ p.payloadLen ≠ o.pkt.payloadLen) then s.discard
        else
          let s1 := s.respondReq key p.tag st p.payload p.casHit
          match o.purpose with
          | .message m => s1.sendOnward m
          | _ => s1
      | _, _ => s.discard)

/-- A transit packet is forwarded on the port its path names here once that port has credit for it; one that has crossed 15 nodes
is discarded, and one whose check fails is answered or discarded (R288, R295). -/
def execPacketTransitForward (port : Nat) (p : Packet) (s : State) : Out :=
  .next (s.whenLive fun s =>
    if p.dst = s.node ∨ p.src = s.node then s else
    let known := s.fab.transit.find? (fun t => t.2.pkt == p && t.2.inPort == port)
    if port ≠ 0xFF ∧ !(s.port port).arrived.contains p then s
    else if port = 0xFF ∧ known.isNone then s
    else
      let drop : State → State := fun t => { t with fab := { t.fab with transit := t.fab.transit.filter (fun x => !(x.2.pkt == p && x.2.inPort == port)) } }
      let gone := (drop s).consume port p
      if !p.crcOk then (if p.resp then gone else gone.refusePkt p .packetCheck)
      else if 15 ≤ p.hops then gone.discard
      else
        let q := ({ p with hops := p.hops + 1 } : Packet).sealed
        match s.egress p.dst p.path with
        | some out =>
          if (s.port out).st = .active ∧ s.hasUnits p.dst p.path q then gone.enqueue out q
          else if known.isSome then s
          else { s with fab := { s.fab with transit := Tbl.set s.fab.transit s.fab.nextTransit { pkt := p, inPort := port, since := s.now },
                                            nextTransit := s.fab.nextTransit + 1 } }
        | none =>
          if known.isSome then s
          else { s with fab := { s.fab with transit := Tbl.set s.fab.transit s.fab.nextTransit { pkt := p, inPort := port, since := s.now },
                                            nextTransit := s.fab.nextTransit + 1 } })

/-- A transit packet that has waited 1 ms for credit is discarded and counted, its units returned (R295). -/
def execTransitCreditTimeout (id : Nat) (s : State) : Out :=
  .next (s.whenLive fun s =>
    match Tbl.get s.fab.transit id with
    | none => s
    | some t =>
      if s.now < t.since + 1000000 then s
      else (({ s with fab := { s.fab with transit := Tbl.del s.fab.transit id } } : State).consume t.inPort t.pkt).discard)

/-- A request with no response one retry interval after it was sent goes out again on the next path, and the path it left is marked
down (R298). A probe and a packet that waits for a buffer are not sent again. -/
def execRetryIntervalTimer (dst tag : Nat) (s : State) : Out :=
  .next (s.whenLive fun s =>
    match Tbl.get s.fab.out (dst, tag) with
    | none => s
    | some o =>
      if 4096 ≤ dst ∨ dst = s.node ∨ o.answered ∨ o.purpose = .probe ∨ s.now < o.lastSent + s.fab.deadBound / 10 then s
      else match s.nextPath o.pkt with
        | none => s
        | some x => (s.markDown dst o.pkt.path tag).resendOn dst tag x)

/-- An operation with no response `dead_bound` after it was first sent completes with ST_TARGET_DEAD, and its destination is marked
unreachable (R298, R299). -/
def execDeadBoundExpiry (dst tag : Nat) (s : State) : Out :=
  .next (s.whenLive fun s =>
    match Tbl.get s.fab.out (dst, tag) with
    | none => s
    | some o =>
      if o.answered ∨ s.now < o.firstSent + s.fab.deadBound then s
      else if o.purpose = .probe then s.completeReq dst tag .targetDead [] false
      else
        (s.deadFail dst o.pkt true).completeReq dst tag .targetDead (List.replicate (responseLen o.pkt) 0xFF#8) false)

/-- Every 100 µs a probe goes out on a path marked down, and to a destination marked unreachable; the probe is a LOAD of the
destination's first DRAM line on VI 0 (R298, R299; log 12). -/
def execPathProbeTimer (dst path : Nat) (s : State) : Out :=
  .next (s.whenLive fun s =>
    let x := s.peer dst
    if 4096 ≤ dst ∨ dst = s.node ∨ !(x.dead || x.down.contains path) ∨ !s.pathUsable dst path ∨
        s.now < Tbl.at x.probeAt path 0 + 100000 then s
    else
      let s1 := s.updPeer dst (fun x => { x with probeAt := Tbl.set x.probeAt path s.now })
      s1.sendOn { ty := .load, dst := dst, srcEp := 63, addr := mkAddr dst 1 0, winId := 0xFFF : Packet } (some path) .probe none)

/-- Path changes held back for 1 s are raised as one event of their kind, with the newest change and their count (R297). -/
def execPathEventHoldTimer (dst : Nat) (up : Bool) (s : State) : Out :=
  .next (s.whenLive fun s =>
    let x := s.peer dst
    let h := Tbl.at x.pathHeld up []
    if h.isEmpty ∨ s.now < Tbl.at x.pathEvAt up 0 + 1000000000 then s
    else
      let die := ((s.egress dst (word h 0)).map lkOf).getD (dieLK 0)
      (s.updPeer dst (fun x => { x with pathEvAt := Tbl.set x.pathEvAt up s.now, pathHeld := Tbl.del x.pathHeld up })).raise0
        (if up then .pathUp else .pathDown) die 0 [dst, word h 0, word h 1, word h 2, word h 3])

/-- A packet answered with ST_RETRY_NO_BUFFER goes out again every 10 µs; `rnr_limit` after the first such answer the SEND
completes with that status (R310). -/
def execRnrResendTimer (dst tag : Nat) (s : State) : Out :=
  .next (s.whenLive fun s =>
    match Tbl.get s.fab.out (dst, tag) with
    | none => s
    | some o =>
      if !o.answered then s
      else if (o.rnrFirst.map (fun t => decide (t + s.fab.rnrLimit ≤ s.now))).getD false then
        match o.purpose with
        | .message m => s.endSend m .retryNoBuffer
        | _ => s.completeReq dst tag .retryNoBuffer [] false
      else if s.now < o.rnrLast + 10000 then s
      else
        let s1 : State := { s with fab := { s.fab with out := Tbl.set s.fab.out (dst, tag) { o with firstSent := s.now, lastSent := s.now, answered := false } } }
        if dst = s.node then s1.localMsg tag
        else let (path, s2) := s1.pickPath o.pkt
             s2.resendOn dst tag (path.getD o.pkt.path))

/-- A message whose tally is not whole `msg_timeout` after its entry was claimed fails (R312). -/
def execMsgTimeout (src msg : Nat) (s : State) : Out :=
  .next (s.whenLive fun s =>
    match Tbl.get s.fab.reorder (src, msg) with
    | none => s
    | some r => if r.tomb.isSome ∨ s.now < r.firstT + s.fab.msgTimeout then s else s.failMessage src msg r .msgTimeout)

/-- A SEND whose packets are all acknowledged and that has no MSG_CTRL within `msg_timeout` completes with ST_MSG_TIMEOUT (R311). -/
def execSendCtrlTimeout (msg : Nat) (s : State) : Out :=
  .next (s.whenLive fun s =>
    match Tbl.get s.fab.msgs msg with
    | none => s
    | some x =>
      let len := ((Tbl.get s.work.cmds x.cid).map (fun c => fld c.op 4 31 7)).getD 0
      if x.unacked ≠ 0 ∨ x.next < len ∨ s.now < x.ackedAt + s.fab.msgTimeout then s else s.endSend msg .msgTimeout)

/-- A tombstone ends (R312). -/
def execTombstoneExpiry (src msg : Nat) (s : State) : Out :=
  .next (s.whenLive fun s =>
    match (Tbl.get s.fab.reorder (src, msg)).bind (·.tomb) with
    | some (_, t) => if s.now < t then s else { s with fab := { s.fab with reorder := Tbl.del s.fab.reorder (src, msg) } }
    | none => s)

/-- An arm not fired after `expire_us` completes with ST_TRIGGER_EXPIRED (R317). -/
def execTriggerExpire (cid : Nat) (s : State) : Out :=
  .next (s.whenLive fun s =>
    match s.fab.arms.find? (fun a => a.cid == cid) with
    | none => s
    | some a =>
      if (a.expireAt.map (fun t => decide (t ≤ s.now))).getD false then
        ({ s with fab := { s.fab with arms := s.fab.arms.filter (fun b => b.cid != cid) } } : State).finish cid .triggerExpired 0
      else s)

/-- A DRAINING window with no request admitted becomes REVOKED, or CLOSED where it is being closed, and the revokes that waited
complete (R302, R303). -/
def execWindowDrained (w : Nat) (s : State) : Out :=
  .next (s.whenLive fun s =>
    let x := s.window w
    if x.st ≠ .draining ∨ x.admitted ≠ 0 then s
    else
      let s1 := s.updWindow w (fun x => { x with st := if x.closing then .closed else .revoked, closing := false, revokeOps := [] })
      x.revokeOps.foldl (fun t r => t.finishOp r .ok 0 []) s1)

/-- Applies the changes a window holds until one would raise its generation too soon (R304). -/
def Window.release (now : Nat) : List WinHeld → Window → Window
  | [], w => { w with held := [] }
  | c :: cs, w => if w.raises c && !w.mayRise now then { w with held := c :: cs } else release now cs (w.change now c)

/-- Changes held for the 5 µs between two rises of a window's generation take effect (R304). -/
def execWindowGenHoldTimer (w : Nat) (s : State) : Out :=
  .next (s.whenLive fun s => s.updWindow w (fun x => x.release s.now x.held))

end Sys2Proof.Machine
end

