-- ==== Sys2Proof/Machine/Traffic.lean ====
section
/-! DEFINITION. Gates, shapers, policers and queue sampling: what time and packets do to them, and the operations that set them (chapter 11). -/

namespace Sys2Proof.Machine
open Sys2Proof

/-! ### Policing (R336, R337) -/

/-- A request packet arrives on an accelerator's or host's port: class-checked, and passed to the hub once its policer covers it (R320, R336, R337). -/
def execIngressRequestPacket (port : Nat) (pkt : Packet) (s : State) : Out :=
  .next (s.whenLive fun s =>
    if pkt.resp ∨ (s.policedBy port pkt).isNone ∨ !((s.port port).arrived.contains pkt) then s
    else s.ingress port pkt (fun t => t.passIn port pkt))

/-- Lets packets a policer keeps pass while its bucket covers them (R336). -/
def policerPass (port partner tc : Nat) : List Packet → Bucket → State → State
  | [], b, s => s.setPolicer port partner tc { b := b, kept := [] }
  | p :: ps, b, s =>
    if b.rate = 0 then policerPass port partner tc ps b (s.passIn port p)
    else if tokensOf p ≤ b.held then policerPass port partner tc ps (b.draw (tokensOf p)) (s.passIn port p)
    else s.setPolicer port partner tc { b := b, kept := p :: ps }

/-- The bucket of a policer covers what it keeps (R336). -/
def execPolicerRelease (port partner tc : Nat) (s : State) : Out :=
  .next (s.whenLive fun s =>
    let x := s.policer port partner tc
    if x.kept.isEmpty then s else policerPass port partner tc x.kept (x.b.accrue s.now) s)

/-! ### Shapers (R331 to R335) -/

/-- A slot boundary of 128 ns: every shaper parked in the slot releases head packets while its tokens cover them (R333). -/
def execShaperSlotBoundary (s : State) : Out :=
  .next (s.whenLive fun s =>
    if s.now % 128 ≠ 0 then s
    else (s.tra.shapers.filter (fun e => !e.2.parked.isEmpty && decide (e.2.slotAt ≤ s.now))).foldl
      (fun t e => State.releaseShaper e.1.1 e.1.2 e.2.parked (e.2.b.accrue s.now) t) s)

/-! ### Gates (R324 to R330) -/

/-- Telemetry of a port's classes is brought up to now before its gates change. -/
def State.settlePort (s : State) (port : Nat) : State := (List.range 8).foldl (fun (t : State) c => t.telSettle port c) s

/-- An interval of a port's list ends: the next entry's classes are open (R324, R325). -/
def execGateIntervalBoundary (port : Nat) (s : State) : Out :=
  .next (s.whenLive fun s =>
    if !s.portExists port then s else
      (s.settlePort port).updGates port (fun g => { g with
        open_ := g.oper.openAt s.now, resumeAt := g.resumeAt.filter (fun t => decide (s.now < t)) }))

/-- The first whole multiple of a period at or after a time (R325). -/
def cycleStart (period t : Nat) : Nat := ceilDiv t period * period

/-- The takeover time of a pending list has come: on a locked node it becomes the operational list, else it waits for the next cycle start; a test
list's end is known at once, and the last list that was no test resumes after it (R327, R328; log 26). -/
def execGateTakeover (port : Nat) (s : State) : Out :=
  .next (s.whenLive fun s =>
    let g := s.gates port
    match g.pending with
    | none => s
    | some (l, t) =>
      if s.now < t then s
      else if !s.timeLocked then s.updGates port (fun g => { g with pending := some (l, cycleStart l.period (s.now + 1)) })
      else
        let back := (g.testEnd.map (·.2)).getD g.oper
        let test := decide (l.cycles ≠ 0)
        let past := if test then some (cycleStart back.period (t + l.cycles * l.period), back) else none
        ((s.settlePort port).updGates port (fun g => { g with oper := l, pending := none, testEnd := past, open_ := l.openAt s.now })).raise0 .gateTakeover
          (lkOf port) 0 [portCode port, g.oper.crc, l.crc, t, b2n test])

/-- A test list's cycles are over, and the list before it resumes at its cycle start (R328). -/
def execGateTestListEnd (port : Nat) (s : State) : Out :=
  .next (s.whenLive fun s =>
    match (s.gates port).testEnd with
    | none => s
    | some (t, l) =>
      if s.now < t then s
      else (s.settlePort port).updGates port (fun g => { g with oper := l, testEnd := none, open_ := l.openAt s.now }))

/-- A port whose node has stayed unlocked for `fallback_after` enters its fallback (R330). -/
def execGateFallbackTimer (port : Nat) (s : State) : Out :=
  .next (s.whenLive fun s =>
    let g := s.gates port
    if !s.portExists port || s.timeLocked || g.inFallback || g.fallbackAfter == 0 || decide (s.now < s.time.unlockedAt + g.fallbackAfter) then s
    else
      ((s.settlePort port).updGates port (fun g => { g with inFallback := true })).raise0 .gateFallback (lkOf port) 0
        [portCode port, 1, 1 + b2n g.fallbackOpen, s.now - s.time.unlockedAt])

/-! ### Queue sampling (R346, R347) -/

/-- Packets of a class parked on shapers whose path leaves by a port. -/
def State.parkedFor (s : State) (port cls : Nat) : Nat :=
  (s.tra.shapers.filter (fun e => e.1.2 == cls)).foldl (fun n e => n + (e.2.parked.filter (fun p => s.egress p.dst p.path == some port)).length) 0

/-- The record of one sampled queue (R347). -/
def State.telRecord (s : State) (key : Nat × Nat × Nat) (x : TelQueue) (seq : Nat) : List Nat :=
  let (kind, id, cls) := key
  let s32 := sat 0xFFFFFFFF
  let depth := if kind = 1 then ((s.queued id cls).map (fun q => q.pkt.bytes.length)).sum else (s.admOf id).waits cls
  let head := if kind = 1 then ((s.queued id cls).head?).map (·.at_) else ((s.admOf id).queue.find? (fun w => w.sub.cls == cls)).map (·.at_)
  let wait := (head.map (fun t => s.now - t)).getD 0
  sealWords [u64 s.now,
    mkWord [(60, 4, kind), (54, 6, if kind = 1 then portCode id else 0), (51, 3, cls), (32, 16, if kind = 2 then id else 0), (0, 32, seq)],
    mkWord [(32, 32, s32 depth), (0, 32, s32 (max x.depthMax depth))], mkWord [(32, 32, s32 wait), (0, 32, s32 (max x.delayMax wait))],
    mkWord [(32, 32, s32 x.closedNs), (0, 32, s32 x.creditNs)],
    mkWord [(32, 32, s32 x.sent), (0, 32, if kind = 1 then s32 (s.parkedFor id cls) else 0)], mkWord [(32, 32, if kind = 1 then s32 x.overruns else 0)]]

/-- A VI's sample period ends: one record per selected queue; a full ring overwrites its oldest records (R346, R347). -/
def execTelemetrySample (vi : Nat) (s : State) : Out :=
  .next (s.whenLive fun s =>
    match Tbl.get s.tra.telemetry vi with
    | none => s
    | some t0 =>
      if s.now < t0.next then s
      else
        let s1 := t0.queues.foldl (fun (u : State) k => if k.1 = 1 then u.telSettle k.2.1 k.2.2 else u) s
        let t := Tbl.at s1.tra.telemetry vi t0
        let a := fun j => t.base + j % 2 ^ t.log2 * 64
        let s2 := (t.queues.zipIdx).foldl (fun (u : State) k =>
          if s.covers vi (a (t.seq + k.2)) 64 rWr then u.wrWords (a (t.seq + k.2)) (s1.telRecord k.1 (Tbl.at t.stats k.1 {}) (t.seq + k.2)) else u) s1
        let fresh : Tbl (Nat × Nat × Nat) TelQueue := t.queues.map (fun k => (k, { at_ := s.now }))
        let t' : Telemetry := { t with seq := t.seq + t.queues.length, next := s.now + t.period, stats := fresh }
        { s2 with tra := { s2.tra with telemetry := Tbl.set s2.tra.telemetry vi t' } })

/-! ### The operations (R321, R323, R327, R330, R332, R335, R337, R346) -/

/-- ADH_TRAFFIC_CLASSES: the four rows that may change, any class from 0 to 6 (R321). -/
def doTrafficClasses (classes : List Nat) (s : State) : AdhOut :=
  if classes.length ≠ 4 ∨ classes.any (fun c => decide (6 < c)) then adhFail .invalidField s
  else adhOk { s with tra := { s.tra with classes := classes } }
/-- ADH_TRAFFIC_CLASSES. -/
def execAdhTrafficClasses (c : Caller) (classes : List Nat) (s : State) : Out := .next (s.adhRun 0x0801 .oper c (doTrafficClasses classes))

/-- What a gate list object's fields and entries may be (R323, R324). -/
def gateListOk (h : List Nat) (es : List Nat) : Bool :=
  let period := fld h 0 63 32
  let iv := es.map (fun e => bits e 31 0)
  decide (5000000 ≤ period) && decide (period ≤ 250000000) && allZero h [(0, 22, 0), (2, 31, 0), (3, 63, 0), (4, 63, 0), (5, 63, 0), (6, 63, 0)] &&
  es.all (fun e => bit e 63 && bits e 55 32 == 0 && decide (1000 ≤ bits e 31 0) && decide (bits e 31 0 ≤ period)) && iv.sum == period &&
  (List.range 8).all (fun c => es.any (fun e => bit (bits e 63 56) c))

/-- ADH_GATE_LOAD: the object is copied, checked, and pending until T, which is answered; it replaces a pending list (R323, R324, R327). -/
def doGateLoad (c : Caller) (port obj : Nat) (s : State) : AdhOut :=
  if !s.hasRight c.vi 1 then adhRights s
  else if !s.covers c.vi obj 64 rRd then adhRegion obj s
  else
    let h := s.rdWords obj 8
    let n := fld h 0 31 23
    if !s.portExists port ∨ n = 0 ∨ 256 < n ∨ addrNode obj ≠ s.node then adhFail .invalidField s
    else if !s.covers c.vi obj (64 + 8 * n) rRd then adhRegion obj s
    else
      let es := s.rdWords (obj + 64) n
      if crc64 (bytesOfWords (h.take 7 ++ es)) ≠ word h 7 then adhFail .gateListCheck s
      else if !gateListOk h es then adhFail .invalidField s
      else
        let period := fld h 0 63 32
        let t := cycleStart period (max (word h 1) (s.now + 100000))
        let l : GateList := { period := period, entries := es.map (fun e => (bits e 63 56, bits e 31 0)), cycles := fld h 2 63 32, crc := word h 7 }
        ⟨.ok, t, [], s.updGates port (fun g => { g with pending := some (l, t) })⟩
/-- ADH_GATE_LOAD. -/
def execAdhGateLoad (c : Caller) (port obj : Nat) (s : State) : Out := .next (s.adhRun 0x0802 .user c (doGateLoad c port obj))

/-- ADH_GATE_POLICY, times in ns (R330). -/
def doGatePolicy (port guard after : Nat) (openFallback : Bool) (s : State) : AdhOut :=
  if !s.portExists port ∨ 100000 < guard ∨ (after ≠ 0 ∧ (after < 1000000 ∨ 60000000000 < after)) then adhFail .invalidField s
  else adhOk (s.updGates port (fun g => { g with guard := guard, fallbackAfter := after, fallbackOpen := openFallback }))
/-- ADH_GATE_POLICY. -/
def execAdhGatePolicy (c : Caller) (port guard after : Nat) (openFallback : Bool) (s : State) : Out :=
  .next (s.adhRun 0x0803 .oper c (doGatePolicy port guard after openFallback))

/-- ADH_SHAPER_SET: held tokens are kept up to the new burst; a parked packet is parked anew at the next slot boundary, and rate 0 releases at once
(R332, R335). A user VI sets only its own shapers. -/
def doShaperSet (c : Caller) (vi tc rate burst : Nat) (s : State) : AdhOut :=
  if !s.isOperator c ∧ vi ≠ c.vi then adhRights s
  else if 255 < vi ∨ 7 < tc ∨ 200000 < rate ∨ !burstOk rate burst then adhFail .invalidField s
  else
    let x := s.shaper vi tc
    let b := x.b.change s.now rate burst
    if rate = 0 then adhOk (State.releaseShaper vi tc x.parked b s)
    else adhOk (s.setShaper vi tc { x with b := b, slotAt := if x.parked.isEmpty then 0 else ceilDiv (s.now + 1) 128 * 128 })
/-- ADH_SHAPER_SET. -/
def execAdhShaperSet (c : Caller) (vi tc rate burst : Nat) (s : State) : Out := .next (s.adhRun 0x0804 .userOper c (doShaperSet c vi tc rate burst))

/-- ADH_POLICE_SET: an endpoint's policer for a class and the classes it may send; rate 0 lets what it keeps pass (R336, R337). The partner is 0xFF on
a native port. -/
def doPoliceSet (port partner tc rate burst classes : Nat) (s : State) : AdhOut :=
  if !s.portExists port ∨ 6 < tc ∨ 127 < classes ∨ 200000 < rate ∨ !burstOk rate burst ∨ (partner ≠ 0xFF ∧ !Tbl.has (s.port port).partners partner) then
    adhFail .invalidField s
  else
    let x := s.policer port partner tc
    let s1 : State := { s with tra := { s.tra with permitted := Tbl.set s.tra.permitted (port, partner) classes } }
    adhOk (policerPass port partner tc x.kept (x.b.change s.now rate burst) s1)
/-- ADH_POLICE_SET. -/
def execAdhPoliceSet (c : Caller) (port partner tc rate burst classes : Nat) (s : State) : Out :=
  .next (s.adhRun 0x0805 .oper c (doPoliceSet port partner tc rate burst classes))

/-- ADH_TELEMETRY_CONFIG: ring, period in ns, and the queues: port and class pairs, and admission queues of compositions the VI's rights cover at a
host bridge (R346). -/
def doTelemetryConfig (c : Caller) (base log2 period : Nat) (queues : List (Nat × Nat × Nat)) (s : State) : AdhOut :=
  let ok := fun (q : Nat × Nat × Nat) =>
    if q.1 = 1 then s.portExists q.2.1 && decide (q.2.2 < 8)
    else q.1 == 2 && decide (q.2.2 < 3) && (s.comp q.2.1).bridges.contains s.node
  if log2 < 6 ∨ 20 < log2 ∨ base % 64 ≠ 0 ∨ period < 1000 ∨ 1000000 < period ∨ !queues.all ok then adhFail .invalidField s
  else if !s.covers c.vi base (2 ^ log2 * 64) rWr then adhRegion base s
  else if queues.any (fun q => q.1 == 2 && !s.coversComp c.vi q.2.1) then adhRights s
  else
    let fresh : Tbl (Nat × Nat × Nat) TelQueue := queues.dedup.map (fun k => (k, { at_ := s.now }))
    let t : Telemetry := { base := base, log2 := log2, period := period, queues := queues.dedup, next := s.now + period, stats := fresh }
    adhOk { s with tra := { s.tra with telemetry := Tbl.set s.tra.telemetry c.vi t } }
/-- ADH_TELEMETRY_CONFIG. -/
def execAdhTelemetryConfig (c : Caller) (base log2 period : Nat) (queues : List (Nat × Nat × Nat)) (s : State) : Out :=
  .next (s.adhRun 0x0806 .user c (doTelemetryConfig c base log2 period queues))

end Sys2Proof.Machine
end

