-- ==== Sys2Proof/Machine/Tiers.lean ====
section
/-! DEFINITION. Memory tiers: demotion, migration and promotion of blocks, patrol scrub and row repair, and the flash dies' own work (R216 to
R233, R446, R447). -/

namespace Sys2Proof.Machine
open Sys2Proof

/-! ### Migration (R222 to R225) -/

/-- The tier policy of a composition. -/
def State.tierPolicy (s : State) (comp : Nat) : TierPolicy := Tbl.at s.tier.policies comp {}

/-- Whether a request is attached to, or held under, a live handle with users (R102, R225). -/
def State.heldLive (s : State) (rid : Nat) : Bool :=
  (Tbl.has s.kv.attached rid) || s.kv.handles.any (fun h => h.2.req == rid && !h.2.released && decide (s.now < h.2.expiry) && decide (0 < h.2.users))

/-- Whether a block may be demoted: FULL and idle in DRAM, a cache-pool copy or a block held without users, not lingering, and of no request that
this node holds (R222, R223). -/
def State.demotable (s : State) (comp da : Nat) : Bool :=
  let d := s.desc da
  let idle := decide (Tbl.at s.tier.lastRead da 0 + (s.tierPolicy comp).idleDemote ≤ s.now)
  let copy := s.prot.copies.any (fun c => c.2 == da) || s.prot.shards.any (fun x => x.2 == da)
  let held := ((s.entry d.req).map (fun e => e.st == .held && e.users == 0)).getD false ||
    s.kv.handles.any (fun h => h.2.req == d.req && h.2.users == 0)
  let lingering := ((s.hold d.req).lingering.map (fun x => x.2.1.contains da)).getD false
  d.st == dFull && idle && (copy || held) && !lingering && (s.req d.req).isNone && !(Tbl.has s.tier.migrations da) && !(s.tier.transit.contains da) &&
    ((s.arenaOf da).map (fun a => a.tier == 1 && !a.parity)).getD false

/-- DRAM use of a composition against its ceiling, in percent of the ceiling. -/
def State.dramPercent (s : State) (comp : Nat) : Nat :=
  100 * s.tierUse 1 comp 1 / max 1 ((Tbl.get s.tier.ceilings (1, comp, 1)).getD (s.tierCapacity 1))

/-- A demotion pass of a composition: above `dram_high`, and until `dram_low` is reached, the least recently read eligible block is sent to flash,
at most `demote_rate` blocks a second (R221, R222). -/
def execDemotionPass (comp : Nat) (s : State) : Out :=
  .next (s.whenLive fun s =>
    let p := s.tierPolicy comp
    let use := s.dramPercent comp
    let on := decide (p.dramHigh < use) || (s.tier.demoting.contains comp && decide (p.dramLow < use))
    let s0 : State := { s with tier := { s.tier with demoting := if on then (s.tier.demoting ++ [comp]).dedup else s.tier.demoting.filter (· ≠ comp) } }
    if !on || p.demoteRate == 0 || decide (s.now < s.tier.demotedAt) then s0
    else
      let mine := (s.tier.owners.filter (fun o => o.2.2 == comp && s.demotable comp o.1)).map (·.1)
      match minBy? (fun da => Tbl.at s.tier.lastRead da 0) mine with
      | none => s0
      | some da =>
        let s1 : State := { s0 with tier := { s0.tier with demotedAt := max s.now s.tier.demotedAt + ceilDiv 1000000000 p.demoteRate } }
        match s1.startMigration da 2 false (p.codeOnly && !s.heldLive (s.desc da).req) with
        | some t => t
        | none => { s1 with tier := { s1.tier with demoteBlocked := s1.tier.demoteBlocked + 1 } })

/-- A migration ends without a move: its claim is freed. -/
def State.dropMigration (s : State) (da dst : Nat) : State :=
  let s1 := s.dropClaim dst
  { s1 with tier := { s1.tier with migrations := Tbl.del s1.tier.migrations da } }

/-- A block migration's copy ends: the source is verified, the bytes in use are copied, the new descriptor is written, and the block map entry and
protection maps that name the block are switched; the source slot is freed once no dispatched read names it (R91, R100, R217, R223, R225). -/
def execMigrationComplete (desc : Nat) (s : State) : Out :=
  .next (s.whenLive fun s =>
    match Tbl.get s.tier.migrations desc with
    | none => s
    | some m =>
      let d := s.desc desc
      let comp := ((Tbl.get s.tier.owners desc).map (·.2)).getD 0
      let dd := dimOf d.dim
      if (s.readFault d.slot (inUse d.repr dd)).isSome then
        ((s.setDesc desc { d with st := dLost }).raise0 .planeCheck (dieMC (bits desc 45 43)) 0 [desc, 1]).dropMigration desc m.dst
      else match s.badPlane d with
      | some plane => (s.planeFail desc plane).dropMigration desc m.dst
      | none =>
        let codeOnly := !m.promotion && (s.tierPolicy comp).codeOnly && d.repr == 1 && !s.heldLive d.req
        let repr := if codeOnly then 2 else d.repr
        let slot := (s.slotAddr m.dst).getD 0
        let s1 := s.store slot (s.rd d.slot (inUse repr dd))
        let s2 := ((s1.setDesc m.dst { d with slot := slot, repr := repr, crcB := if codeOnly then 0 else d.crcB }).bookSlot m.dst 4 d.book).descRefs m.dst true
        let s3 := match s2.req d.req with
          | some r => if s2.mapEntry r d.layer d.head (d.base / 64) = desc then s2.setMapEntry r d.layer d.head (d.base / 64) m.dst else s2
          | none => s2
        let s4 : State := { s3 with
          tier := { s3.tier with migrations := Tbl.del s3.tier.migrations desc, transit := s3.tier.transit.filter (· ≠ m.dst)
                                 lastRead := Tbl.set s3.tier.lastRead m.dst (Tbl.at s3.tier.lastRead desc s.now) }
          prot := { s3.prot with shards := Tbl.mapVals s3.prot.shards (fun _ x => if x = desc then m.dst else x)
                                 copies := Tbl.mapVals s3.prot.copies (fun _ x => if x = desc then m.dst else x) } }
        s4.freeOrWait desc)

/-- A promotion that has not completed `tier_deadline` after it began is late: the block stays where it was, and it is read from its next copy
(R224, R227). -/
def execPromotionDeadline (desc : Nat) (s : State) : Out :=
  .next (s.whenLive fun s =>
    match Tbl.get s.tier.migrations desc with
    | none => s
    | some m =>
      let comp := ((Tbl.get s.tier.owners desc).map (·.2)).getD 0
      if !m.promotion || decide (s.now < m.startAt + (s.tierPolicy comp).deadline) then s
      else
        let s1 := s.dropMigration desc m.dst
        match s1.req m.req with
        | some r => (s1.startPull m.req m.layer m.head m.b none false (s.comp r.composition).pullDeadline 0).2
        | none => s1)

/-! ### DRAM (R228 to R231, R446) -/

/-- The row of a DRAM line: its channel, and which 8 KiB of the channel's share it lies in (log 24). -/
def rowOf (a : Nat) : Nat × Nat := (channelOf (addrOff a), addrOff a / 131072)
/-- A row as one number. -/
def rowKey (ch row : Nat) : Nat := ch * 2 ^ 40 + row

/-- The slot whose bytes include an address. -/
def State.slotAt (s : State) (a : Nat) : Option Nat :=
  (s.kv.arenas.find? (fun r => decide (r.base ≤ a) && decide (a < r.base + r.slots * (256 * r.headDim)))).map (fun r => r.descBase + (a - r.base) / (256 * r.headDim) * 64)

/-- What an uncorrectable line does to the block it lies in: a plane that fails verification (R100, R229). -/
def State.blockLineLost (s : State) (a : Nat) : State :=
  match s.slotAt a with
  | none => s
  | some da =>
    let d := s.desc da
    if ((s.arenaOf da).map (·.parity)).getD true || !(d.st == dOpen || d.st == dFull) || decide (inUse d.repr (dimOf d.dim) ≤ a - d.slot) then s
    else s.planeFail da (if d.repr = 1 ∧ 32 * dimOf d.dim ≤ a - d.slot then 2 else 1)

/-- The patrol scrub reads a line: 0 clean, 1 corrected and written back, 2 uncorrectable. Every 1,024 corrections on a channel raise the event;
an uncorrectable line is handled as a read of what it holds (R229 to R231). -/
def execScrubLine (line outcome : Nat) (s : State) : Out :=
  .next (s.whenLive fun s =>
    let a := 64 * line
    let (ch, row) := rowOf a
    if addrSpace a ≠ 1 ∨ addrNode a ≠ s.node ∨ !(s.offsetDefined a) ∨ !(s.channelUp ch) then s
    else
    let s := (s.unitEvent (0x700 + ch) 0x0705 1 none).unitEvent (0x700 + ch) 0x0703 (b2n (outcome == 1)) none
    if outcome = 1 then
      let n := Tbl.at s.tier.corrected ch 0 + 1
      let pass := s.now / max 1 s.tier.scrubPeriod + 1
      let s1 : State := { s with tier := { s.tier with
        corrected := Tbl.set s.tier.corrected ch n
        rowErrors := Tbl.updD s.tier.rowErrors (rowKey ch row) (0, 0) (fun x => if x.2 = pass then x else (x.1 + 1, pass)) } }
      if n % 1024 = 0 then s1.raise0 .dramError (dieMC (ch / 2)) (0x700 + ch) [ch, a, 1, n] else s1
    else if outcome = 2 ∧ !(s.lineBad a) then
      let s1 : State := { s with tier := { s.tier with badLines := s.tier.badLines ++ [line] } }
      (s1.dramError a).blockLineLost a
    else s)

/-- Spare rows of a bank row group, where training has not said: one (log 24). -/
def State.rowSpare (s : State) (ch group : Nat) : Nat := Tbl.at s.tier.rowSpares (ch, group) 1

/-- A row that holds an uncorrectable line, or that showed corrected errors on two passes, is repaired: its device's PPR row is used, to be made
permanent at the next reset (`hard` is that permanent repair), then the channel's line-spare area; with neither left the row's slots are retired
from use, and a channel with more than 1% of its rows retired is retired (R231, R446, R447). -/
def execRowRepair (ch group row : Nat) (hard : Bool) (s : State) : Out :=
  .next (s.whenLive fun s =>
    let key := rowKey ch row
    let due := decide (2 ≤ (Tbl.at s.tier.rowErrors key (0, 0)).1) || s.tier.badLines.any (fun l => addrSpace (64 * l) == 1 && rowOf (64 * l) == (ch, row))
    let die := dieMC (ch / 2)
    if 16 ≤ ch ∨ !(s.channelUp ch) then s
    else if hard then
      if s.boot.hardRepairs.contains (ch, row) then
        ({ s with boot := { s.boot with hardRepairs := s.boot.hardRepairs.filter (· ≠ (ch, row)) } } : State).raise0 .dramRepair die (0x700 + ch)
          [ch, group / 2 ^ 8, group % 2 ^ 8, row, s.rowSpare ch group, s.rowSpare ch group]
      else s
    else if !due then s
    else
      let b := s.rowSpare ch group
      let l := Tbl.at s.tier.lineSpares ch 2048
      let s0 : State := { s with tier := { s.tier with rowErrors := Tbl.del s.tier.rowErrors key } }
      if 0 < b then
        let s1 : State := { s0 with tier := { s0.tier with rowSpares := Tbl.set s0.tier.rowSpares (ch, group) (b - 1) }
                                    boot := { s0.boot with hardRepairs := s0.boot.hardRepairs ++ [(ch, row)] } }
        (s1.raise0 .dramRepair die (0x700 + ch) [ch, group / 2 ^ 8, group % 2 ^ 8, row, b, b - 1]).spareUsed die (0x700 + ch) b (b - 1)
      else if 0 < l then
        let s1 : State := { s0 with tier := { s0.tier with lineSpares := Tbl.set s0.tier.lineSpares ch (l - 1) } }
        (s1.raise0 .dramRepair die (0x700 + ch) [ch, group / 2 ^ 8, group % 2 ^ 8, row, l, l - 1]).spareUsed die (0x700 + ch) l (l - 1)
      else
        let n := Tbl.at s0.tier.rowsRetired ch 0
        let rows := s.dimmBytes ch / 8192
        let s1 : State := { s0 with tier := { s0.tier with rowsRetired := Tbl.set s0.tier.rowsRetired ch (n + 1) } }
        let s2 := s1.capReduced die (0x700 + ch) (rows - n) (rows - n - 1) 0
        if rows < 100 * (n + 1) then
          let s2 := s2.settle (0x700 + ch)
          ({ s2 with pkg := { s2.pkg with dramLost := s2.pkg.dramLost ++ [ch] } } : State).capReduced die (0x700 + ch) (rows - n - 1) 0 0
        else s2)

/-! ### Flash (R232, R233, R446) -/

/-- Moves a mapped sector to another physical place, where a channel takes writes: a program that is no write of a host (R233). -/
def State.moveSector (s : State) (sec : Nat) : State :=
  if !(Tbl.has s.tier.map sec) || !(s.pkg.flashUp.any (fun ch => s.flashChanUp ch && !(Tbl.at s.tier.chans ch {}).readOnly)) then s else
    let t := s.mapSector sec
    match Tbl.get t.tier.map sec with
    | some (ch, _) => { t with tier := { t.tier with chans := Tbl.upd t.tier.chans ch (fun c => { c with writes := c.writes - 1 }), rewrite := Tbl.del t.tier.rewrite sec } }
    | none => t

/-- A sector with heavy corrections is rewritten elsewhere (R233). -/
def execFlashRelocate (sector : Nat) (s : State) : Out :=
  .next (s.whenLive fun s => if Tbl.has s.tier.rewrite sector then s.moveSector sector else s)

/-- The mapped sectors that lie in a NAND block. -/
def State.inNandBlock (s : State) (ch block : Nat) : List Nat := (s.tier.map.filter (fun e => e.2 == (ch, block))).map (·.1)

/-- Garbage collection and wear levelling: a block's mapped sectors move, their logical addresses unchanged, and the block is erased (R233). -/
def execFlashGc (ch block : Nat) (s : State) : Out :=
  .next (s.whenLive fun s =>
    if !(s.flashChanUp ch) ∨ ((Tbl.at s.tier.chans ch {}).retired.contains block) then s
    else
      let s1 := (s.inNandBlock ch block).foldl State.moveSector s
      ({ s1 with tier := { s1.tier with chans := Tbl.upd s1.tier.chans ch (fun c => { c with erases := c.erases + 1 }) } } : State).unitEvent (0x600 + ch) 0x0606 1 none)

/-- A NAND block that fails a program or an erase is retired and its sectors are remapped; below 0.5% of free spare blocks the channel takes no
writes (R233, R446, R447). -/
def execNandBlockFail (ch block : Nat) (s : State) : Out :=
  .next (s.whenLive fun s =>
    let c := Tbl.at s.tier.chans ch {}
    if !(s.flashChanUp ch) ∨ c.retired.contains block then s
    else
      let die := dieFL (ch / 16)
      let before := s.flashCapacity
      let spare := c.spare - 1
      let low := decide (200 * spare < c.blocks)
      let s1 : State := { s with tier := { s.tier with chans := Tbl.set s.tier.chans ch { c with retired := c.retired ++ [block], spare := spare, readOnly := c.readOnly || low } } }
      let s2 := (s.inNandBlock ch block).foldl State.moveSector s1
      let s3 := if low && !c.readOnly then ((s2.tier.map.filter (fun e => e.2.1 == ch)).map (·.1)).foldl State.moveSector s2 else s2
      let s4 := (s3.raise0 .flashBlockRetired die (0x600 + ch) [ch, block, before, s3.flashCapacity]).spareUsed die (0x600 + ch) c.spare spare
      if low && !c.readOnly then s4.capReduced die (0x600 + ch) before s4.flashCapacity 0 else s4)

end Sys2Proof.Machine
end

