-- ==== Sys2Proof/Machine/Weights.lean ====
section
/-! DEFINITION. Weight tiles: the directory, encodings and layouts, streams of layer windows, decoding runs of tiles, and loading (R234 to
R246, R273, R274). -/

namespace Sys2Proof.Machine
open Sys2Proof

/-! ### Tiles and the directory (R234 to R237) -/

/-- Payload bytes of a tile by encoding, rows and columns (R235). -/
def tileBytes (enc rows cols : Nat) : Nat :=
  let n := rows * cols
  match enc with
  | 0 => 2 * n
  | 1 => n / 32 + n
  | 2 => n / 32 + n / 2
  | _ => 4096 + n / 8

/-- Elements of a tile by encoding and payload bytes (R235). -/
def tileElems (enc payload : Nat) : Nat :=
  match enc with
  | 0 => payload / 2
  | 1 => payload * 32 / 33
  | 2 => payload * 32 / 17
  | _ => (payload - 4096) * 8

/-- A stored tile's header fields: rows, columns, encoding, payload bytes (R234). -/
def tileHeader (ws : List Nat) : Nat × Nat × Nat × Nat := (fld ws 1 31 21, fld ws 1 20 10, fld ws 1 9 6, fld ws 2 63 32)

/-- Whether a stored tile is well formed: size, encoding, payload length, no scale of 0xFF, and its check value (R234, R235). -/
def tileFormed (bs : List Byte) : Bool :=
  let ws := wordsOf 8 bs
  let (rows, cols, enc, n) := tileHeader ws
  let scales := if enc = 1 ∨ enc = 2 then (bs.drop 64).take (rows * cols / 32) else []
  decide (16 ≤ rows) && decide (rows ≤ 1024) && rows % 16 == 0 && decide (32 ≤ cols) && decide (cols ≤ 1024) && cols % 32 == 0 && decide (enc ≤ 3) &&
    n == tileBytes enc rows cols && !(scales.contains 0xFF#8) && allZero ws [(0, 13, 0), (1, 5, 0), (2, 31, 0), (3, 63, 0), (4, 63, 0), (5, 63, 0), (6, 63, 0)]

/-- Whether a stored tile's check value verifies (R234, R236). -/
def tileChecks (bs : List Byte) : Bool := word (wordsOf 8 bs) 7 == crc64 (bs.take 56 ++ bs.drop 64)

/-- A directory entry's words, by its number (R237). -/
def State.tileEntry (s : State) (f : CtxFields) (e : Nat) : List Nat := s.rdWords (f.weightDir + 64 + 64 * e) 8

/-- The tiles of the directory (R237). -/
def State.tileCount (s : State) (f : CtxFields) : Nat := word (s.rdWords f.weightDir 1) 0

/-- The first entry of a layer, from the layer index (R237). -/
def State.layerFirst (s : State) (f : CtxFields) (l : Nat) : Nat := valOf (s.rd (word (s.rdWords f.weightDir 2) 1 + 4 * l) 4)

/-- The entries of a layer that fall to a part (R239). -/
def State.partTiles (s : State) (f : CtxFields) (l parts part : Nat) : List Nat :=
  let a := s.layerFirst f l
  let b := min (s.layerFirst f (l + 1)) (a + 16777216)
  ((List.range (b - a)).filter (fun i => i % 2 ^ parts == part)).map (a + ·)

/-- What the read of a tile copy gives. -/
inductive TileRead where
  /-- The stored tile. -/
  | got (bs : List Byte)
  /-- The copy failed. -/
  | failed
  /-- The copy failed its check value. -/
  | badCheck
  /-- The read of another node has not returned. -/
  | pending
deriving DecidableEq, Repr

/-- Reads a copy of a tile and verifies it against its own check value and the entry's; `remote` is what reads of other nodes returned (R236,
R238, R243). -/
def State.readTile (s : State) (ent : List Nat) (copy : Nat) (remote : List (Nat × List Byte)) : TileRead :=
  let a := word ent copy
  let n := 64 + fld ent 4 63 32
  let check := fun (bs : List Byte) =>
    if bs.length = n && tileChecks bs && word (wordsOf 8 bs) 7 == word ent 6 then TileRead.got bs else .badCheck
  if 4 ≤ copy ∨ a = 0 then .failed
  else if addrNode a = s.node then (if (s.readFault a n).isSome then .failed else check (s.rd a n))
  else match remote.find? (fun x => x.1 == a) with
    | some (_, bs) => if bs.isEmpty then .failed else check bs
    | none => .pending

/-! ### Encodings and layouts (R235, R244, R274) -/

/-- The code of a product as BF16; `none` where it is not finite (R235, R244). -/
def bf16Of (x : Option Dy) : Option Nat :=
  match x with
  | none => none
  | some v => let r := dyRound fBF16 v
    if dyOver fBF16 r then none else some (encBF16 v)

/-- The BF16 values of a tile in row-major order; `none` where one is not finite (R235, R244). -/
def decodeTile (enc rows cols : Nat) (p : List Byte) : Option (List Nat) :=
  let n := rows * cols
  let scale := fun i => dyPow2 ((p.getD (i / 32) 0#8).toNat - 127)
  match enc with
  | 0 => (List.range n).mapM (fun i => let w := valOf ((p.drop (2 * i)).take 2)
                                       if (decBF16 w).isSome then some w else none)
  | 1 => let e := p.drop (n / 32)
         (List.range n).mapM (fun i => bf16Of ((decE4M3 (e.getD i 0#8).toNat).map (dyMul (scale i))))
  | 2 => let e := p.drop (n / 32)
         (List.range n).mapM (fun i => bf16Of (some (dyMul (scale i) (decE2M1 ((e.getD (i / 2) 0#8).toNat / (if i % 2 = 1 then 16 else 1) % 16)))))
  | _ => let codes := p.drop 4096
         (List.range n).mapM (fun i => let w := valOf ((p.drop (((codes.getD (i / 8) 0#8).toNat * 8 + i % 8) * 2)).take 2)
                                       if (decBF16 w).isSome then some w else none)

/-- A layout of an accelerator's profile: sub-tile rows and columns, and whether sub-tiles and elements go by columns (R273). -/
structure TileLayout where
  subRows : Nat
  subCols : Nat
  subByCol : Bool
  elemByCol : Bool
deriving DecidableEq, Repr

/-- The layout of a number in a profile's words. -/
def layoutOf (profile : List Nat) (id : Nat) : Option TileLayout :=
  if word profile 0 / 2 ^ 56 < 2 then none else
    ((List.range (fld profile 2 63 48)).map (fun i => word profile (4 + i))).findSome? (fun w =>
      if bits w 63 56 = id then some { subRows := 2 ^ bits w 55 52, subCols := 2 ^ bits w 51 48, subByCol := bit w 47, elemByCol := bit w 46 } else none)

/-- The positions of a grid of rows and columns, by rows or by columns. -/
def gridOrder (rows cols : Nat) (byCol : Bool) : List (Nat × Nat) :=
  if byCol then (List.range cols).flatMap (fun c => (List.range rows).map (fun r => (r, c))) else (List.range rows).flatMap (fun r => (List.range cols).map (fun c => (r, c)))

/-- The positions of a tile in a layout's order, sub-tile by sub-tile; `w` columns of the tile make one unit (R274). -/
def TileLayout.order (y : TileLayout) (rows cols w : Nat) : List (List (Nat × Nat)) :=
  (gridOrder (rows / y.subRows) (cols / y.subCols) y.subByCol).map (fun t =>
    (gridOrder y.subRows (y.subCols / w) y.elemByCol).map (fun e => (t.1 * y.subRows + e.1, t.2 * (y.subCols / w) + e.2)))

/-- Pairs of nibbles as bytes, low nibble first. -/
def packNibbles : List Nat → List Byte
  | a :: b :: r => BitVec.ofNat 8 (a + 16 * b) :: packNibbles r
  | [a] => [BitVec.ofNat 8 a]
  | [] => []

/-- A stored payload in a declared layout: a codebook first, each sub-tile's scales before its elements; a group of 32 that spans sub-tiles gives
its scale to the one it begins in (R274; log 25). -/
def TileLayout.stored (y : TileLayout) (enc rows cols : Nat) (p : List Byte) : List Byte :=
  let n := rows * cols
  let scales := fun (t : List (Nat × Nat)) => (t.filter (fun e => e.2 % 32 == 0)).map (fun e => p.getD ((e.1 * cols + e.2) / 32) 0#8)
  match enc with
  | 0 => (y.order rows cols 1).flatten.flatMap (fun e => (p.drop (2 * (e.1 * cols + e.2))).take 2)
  | 1 => (y.order rows cols 1).flatMap (fun t => scales t ++ t.map (fun e => p.getD (n / 32 + e.1 * cols + e.2) 0#8))
  | 2 => (y.order rows cols 1).flatMap (fun t => scales t ++ packNibbles (t.map (fun e =>
      let i := e.1 * cols + e.2
      (p.getD (n / 32 + i / 2) 0#8).toNat / (if i % 2 = 1 then 16 else 1) % 16)))
  | _ => p.take 4096 ++ (y.order rows cols 8).flatten.map (fun e => p.getD (4096 + e.1 * (cols / 8) + e.2) 0#8)

/-- BF16 values in a layout, or row-major. -/
def bf16Bytes (y : Option TileLayout) (rows cols : Nat) (vs : List Nat) : List Byte :=
  match y with
  | none => vs.flatMap (bytesOf 2)
  | some y => let a := vs.toArray
    (y.order rows cols 1).flatten.flatMap (fun e => bytesOf 2 (a.getD (e.1 * cols + e.2) 0))

/-- A stored tile as it is delivered, or `none` where it decodes to a value that is not finite (R240, R244). -/
def deliverTile (bf16 : Bool) (y : Option TileLayout) (bs : List Byte) : Option (List Byte) :=
  let (rows, cols, enc, _) := tileHeader (wordsOf 8 bs)
  let p := bs.drop 64
  if bf16 then (decodeTile enc rows cols p).map (bf16Bytes y rows cols)
  else some (match y with | none => p | some y => y.stored enc rows cols p)

/-! ### WINDOW_STREAM (R239 to R243) -/

/-- The operands of WINDOW_STREAM. -/
structure WinOps where
  dst : Nat
  stride : Nat
  slots : Nat
  fmt : Nat
  lay : Nat
  first : Nat
  count : Nat
  parts : Nat
  part : Nat
  period : Nat
  start : Nat
  rel : Nat
  limit : Nat
deriving DecidableEq, Repr

/-- They come from the command's words (R239); times are in ns. -/
def winOps (w : List Nat) : WinOps :=
  { dst := word w 2, stride := 4096 * fld w 3 63 40, slots := fld w 3 39 35, fmt := fld w 3 34 32, lay := fld w 3 31 24, first := fld w 4 63 54, count := fld w 4 53 44
    parts := fld w 4 43 40, part := fld w 4 39 36, period := 1000 * fld w 4 35 12, start := word w 5, rel := word w 6
    limit := if fld w 7 31 0 = 0 then 4000 * fld w 4 35 12 else 1000 * fld w 7 31 0 }

/-- The profile of the accelerator whose aperture an address lies in (R271, R273). -/
def State.profileAt (s : State) (a : Nat) : List Nat :=
  match (apertureOf a).bind s.endpointPort with
  | none => []
  | some port =>
    let x := s.port port
    if x.cfg.mode = 1 then x.profile else ((x.partners.find? (fun q => some q.2.endpoint == apertureOf a)).map (fun q => q.2.profile)).getD []

/-- Delivered bytes of an entry's tile, padded to 64. -/
def deliveredBytes (fmt : Nat) (ent : List Nat) : Nat :=
  let p := fld ent 4 63 32
  ceilDiv (if fmt = 1 then 2 * tileElems (fld ent 4 13 10) p else p) 64 * 64

/-- The check of WINDOW_STREAM with its context slot's fields (R10, R65, R239, R274). -/
def State.windowStreamCheck (s : State) (c : Cmd) (f : CtxFields) : Option Bad :=
  let w := c.op
  let o := winOps w
  let prof := s.profileAt o.dst
  (firstOf [
    (o.stride == 0 || o.slots == 0 || decide (16 < o.slots) || decide (1 < o.fmt) || o.count == 0 || decide (4 < o.parts) || o.period == 0 ||
      !allZero w [(3, 23, 0), (4, 11, 0)] || o.dst % 4096 != 0 || o.rel % 64 != 0, badField),
    (decide (2 ^ o.parts ≤ o.part) || decide (f.layers < o.first + o.count), badField),
    (!s.covers c.vi o.rel 64 rRd, badRegion o.rel), (!s.covers c.vi o.dst (o.slots * o.stride) rWr, badRegion o.dst),
    (addrNode o.dst != s.node || (apertureOf o.dst).isNone || !(bit (word prof 0) (24 + o.fmt)) || (o.lay != 0 && (layoutOf prof o.lay).isNone), badField)]).orElse fun _ =>
  (List.range o.count).findSome? (fun i =>
    let ts := (s.partTiles f (o.first + i) o.parts o.part).map (s.tileEntry f)
    let size := (ts.map (deliveredBytes o.fmt)).sum
    let divides := fun (ent : List Nat) => match layoutOf prof o.lay, (List.range 4).find? (fun k => word ent k != 0 && addrNode (word ent k) == s.node) with
      | some y, some k => let (rows, cols, _, _) := tileHeader (s.rdWords (word ent k) 8)
                          rows % y.subRows == 0 && cols % y.subCols == 0
      | _, _ => true
    if o.stride < size + 8 * ts.length + 64 ∨ !(ts.all divides) ∨ (o.fmt = 0 ∧ !(ts.all (fun e => bit (word prof 0) (16 + fld e 4 13 10)))) then some badField else none)

/-- Writes bytes to an accelerator's memory in packets of at most 4,096 bytes, in the command's class (R239, R287). -/
def State.sendBytes (s : State) (c : Cmd) (tc a : Nat) (bs : List Byte) : State :=
  (List.range (ceilDiv bs.length 4096)).foldl (fun t i =>
    let part := (bs.drop (4096 * i)).take 4096
    t.sendReq { ty := .write, dst := s.node, srcVi := c.vi, srcEp := 63, tc := tc, addr := a + 4096 * i, winId := 0xFFF, payloadLen := part.length, payload := part : Packet } (.hub 5 0) none) s

/-- The traffic class of a command's own traffic; format 1 has none (R63, R75). -/
def Cmd.tc (c : Cmd) : Nat := if c.fmt = 1 then 0 else fld c.op 0 28 26

/-- Ends a stream with a status. -/
def State.endStream (s : State) (cid : Nat) (st : Status) (result : Nat) : State :=
  ({ s with tier := { s.tier with streams := Tbl.del s.tier.streams cid } } : State).finish cid st result

/-- Stores a stream. -/
def State.setStream (s : State) (cid : Nat) (x : WStream) : State := { s with tier := { s.tier with streams := Tbl.set s.tier.streams cid x } }

/-- The end of a layer: the check array, then the done line with store-with-flag, and EV_WINDOW_LATE for a late one (R240, R242). -/
def State.layerDone (s : State) (cid : Nat) (c : Cmd) (o : WinOps) (x : WStream) : State :=
  let base := o.dst + x.next % o.slots * o.stride
  let due := x.start + x.next * o.period
  let late := decide (due < s.now)
  let check := bytesOfWords x.crcs
  let tc := c.tc
  let s1 := s.sendBytes c tc (base + o.stride - 64 - check.length) check
  let line := bytesOfWords [mkWord [(54, 10, o.first + x.next), (32, 1, b2n late), (0, 32, x.crcs.length)], x.bytes, u64 s.now, crc64 check, 0, 0, 0, 0]
  let s2 := s1.sendReq { ty := .storeFlag, dst := s.node, srcVi := c.vi, srcEp := 63, tc := tc, addr := base + o.stride - 64, winId := 0xFFF, operand := 2 ^ 64 - 1
                         payloadLen := 64, payload := line : Packet } (.hub 5 0) none
  let s3 := if late then s2.raise0 .windowLate (dieLK (c.inst % 4)) (0x500 + c.inst) [c.vi, c.q, o.first + x.next, s.now - due] else s2
  let s4 := s3.updCmd cid (fun c => { c with events := Tbl.set (if late then Tbl.set c.events 0x0503 (Tbl.at c.events 0x0503 0 + 1) else c.events) 0x0501 (Tbl.at c.events 0x0501 0 + x.bytes) })
  s4.setStream cid { x with next := x.next + 1, late := x.late + b2n late, tile := 0, copy := 0, readAt := 0, crcs := [], bytes := 0, reported := x.reported.filter (· ≠ x.next) }

/-- Runs a stream until it must wait for a release or for the read of a copy on another node, or ends (R240 to R244). -/
def streamPump (cid : Nat) (remote : List (Nat × List Byte)) : Nat → State → State
  | 0, s => s
  | n + 1, s =>
    match Tbl.get s.work.cmds cid, Tbl.get s.tier.streams cid with
    | some c, some x =>
      let o := winOps c.op
      match c.slot with
      | none => s
      | some slot =>
        let f := (s.ctx slot).f
        let rel := fld (s.rdWords o.rel 1) 0 31 0
        if o.count ≤ x.next then s.endStream cid (if x.late = 0 then .ok else .windowLate) 0
        else if rel < x.released ∨ x.next < rel then s.endStream cid .invalidField 0
        else if rel + o.slots ≤ x.next then s.setStream cid { x with released := rel, pollAt := s.now + 1000 }
        else
          let x := { x with released := rel, pollAt := 0 }
          let ts := s.partTiles f (o.first + x.next) o.parts o.part
          match ts[x.tile]? with
          | none => streamPump cid remote n ((s.setStream cid x).layerDone cid c o x)
          | some e =>
            let ent := s.tileEntry f e
            let next := fun (t : State) => streamPump cid remote n ((t.setStream cid { x with copy := x.copy + 1, readAt := 0 }).updCmd cid (fun c =>
              { c with events := Tbl.set c.events 0x0504 (Tbl.at c.events 0x0504 0 + 1) }))
            if 4 ≤ x.copy then s.endStream cid .tierFailed (mkWord [(32, 32, e), (0, 32, o.first + x.next)])
            else match s.readTile ent x.copy remote with
              | .pending => s.setStream cid (if x.readAt = 0 then { x with readAt := s.now + 1 } else x)
              | .failed => next s
              | .badCheck => next (s.raise0 .tileCheck (dieLK (c.inst % 4)) (0x500 + c.inst) [f.model, e, word ent x.copy])
              | .got bs =>
                let y := layoutOf (s.profileAt o.dst) o.lay
                let (rows, cols, _, _) := tileHeader (wordsOf 8 bs)
                if (y.map (fun y => rows % y.subRows != 0 || cols % y.subCols != 0)).getD false then s.endStream cid .invalidField 0
                else match deliverTile (o.fmt == 1) y bs with
                  | none => s.endStream cid .tileFormat 0
                  | some out =>
                    let off := ((ts.take x.tile).map (fun t => deliveredBytes o.fmt (s.tileEntry f t))).sum
                    let s1 := s.sendBytes c (c.tc) (o.dst + x.next % o.slots * o.stride + off) out
                    let s2 := s1.updCmd cid (fun c => { c with events := Tbl.set c.events 0x0502 (Tbl.at c.events 0x0502 0 + 1) })
                    let x1 := { x with tile := x.tile + 1, copy := 0, readAt := 0, crcs := x.crcs ++ [crc64 out], bytes := x.bytes + out.length }
                    if x.cancelled then (s2.setStream cid x1).endStream cid .windowCancelled 0
                    else streamPump cid remote n (s2.setStream cid x1)
    | _, _ => s

/-- Steps enough for every tile, copy and layer of a stream. -/
def State.streamFuel (s : State) (cid : Nat) : Nat :=
  match Tbl.get s.work.cmds cid with
  | none => 0
  | some c =>
    let o := winOps c.op
    match c.slot with
    | none => 0
    | some slot => ((List.range o.count).map (fun i => 5 * (s.partTiles (s.ctx slot).f (o.first + i) o.parts o.part).length + 1)).sum + 2

/-- WINDOW_STREAM runs: layers are delivered in order into the ring of buffers as far as releases and tile reads allow; `remote` is what reads of
copies on other nodes returned, empty bytes where one failed (R239 to R244). -/
def execWindowStream (cid : Nat) (remote : List (Nat × List Byte)) (s : State) : Out :=
  .next (s.whenLive fun s =>
    match s.running cid 6 1 with
    | none => s
    | some c =>
      let o := winOps c.op
      let s1 := if Tbl.has s.tier.streams cid then s
        else s.setStream cid { start := if o.start = 0 then (c.dispT.getD s.now) + o.period else o.start }
      streamPump cid remote (s1.streamFuel cid) s1)

/-- WINDOW_CANCEL runs: a stream of the VI's Weights queue is marked to end after the tile it is writing; where none is being written it ends at
once (R245). -/
def execWindowCancel (cid : Nat) (s : State) : Out :=
  .next (s.whenLive fun s =>
    match s.running cid 6 2 with
    | none => s
    | some c =>
      let w := c.op
      match s.work.cmds.find? (fun x => x.2.vi == c.vi && x.2.cls == 6 && x.2.q == fld w 2 35 32 && x.2.index == fld w 2 31 0 && fld x.2.op 0 43 36 == 1 && x.2.outcome.isNone) with
      | none => s.finish cid .ok 0
      | some (k, _) =>
        match Tbl.get s.tier.streams k with
        | none => (s.finish k .windowCancelled 0).finish cid .ok 0
        | some x => (if x.readAt = 0 then s.endStream k .windowCancelled 0 else s.setStream k { x with cancelled := true }).finish cid .ok 0)

/-- A waiting engine reads the release line again, every 1 µs (R241). -/
def execReleasePoll (cid : Nat) (s : State) : Out :=
  .next (s.whenLive fun s =>
    match Tbl.get s.tier.streams cid with
    | some x => if x.pollAt = 0 ∨ s.now < x.pollAt then s else streamPump cid [] (s.streamFuel cid) s
    | none => s)

/-- A layer is due and not delivered: it is late (R242); the event follows when it is delivered. -/
def execLayerDue (cid : Nat) (s : State) : Out :=
  .next (s.whenLive fun s =>
    match Tbl.get s.work.cmds cid, Tbl.get s.tier.streams cid with
    | some c, some x =>
      if s.now < x.start + x.next * (winOps c.op).period ∨ (winOps c.op).count ≤ x.next ∨ x.reported.contains x.next then s
      else s.setStream cid { x with reported := x.reported ++ [x.next] }
    | _, _ => s)

/-- A layer undelivered `late_limit_us` after it was due, while the stream waits on tile reads: the stream is abandoned (R242). -/
def execLateLimitExpiry (cid : Nat) (s : State) : Out :=
  .next (s.whenLive fun s =>
    match Tbl.get s.work.cmds cid, Tbl.get s.tier.streams cid with
    | some c, some x =>
      let o := winOps c.op
      if x.readAt = 0 ∨ s.now < x.start + x.next * o.period + o.limit then s else s.endStream cid .tierLate 0
    | _, _ => s)

/-- A tile read not complete within half the layer period or 1 ms: the next copy is read (R243). -/
def execTileCopyTimeout (cid : Nat) (s : State) : Out :=
  .next (s.whenLive fun s =>
    match Tbl.get s.work.cmds cid, Tbl.get s.tier.streams cid with
    | some c, some x =>
      if x.readAt = 0 ∨ s.now + 1 < x.readAt + min ((winOps c.op).period / 2) 1000000 then s
      else
        let s1 := (s.setStream cid { x with copy := x.copy + 1, readAt := 0 }).updCmd cid (fun c => { c with events := Tbl.set c.events 0x0504 (Tbl.at c.events 0x0504 0 + 1) })
        streamPump cid [] (s1.streamFuel cid) s1
    | _, _ => s)

/-! ### DECODE_TILES (R246) -/

/-- The check of DECODE_TILES with its context slot's fields (R10, R65, R246). -/
def State.decodeTilesCheck (s : State) (c : Cmd) (f : CtxFields) : Option Bad :=
  let w := c.op
  let first := word w 2
  let n := fld w 3 63 32
  firstOf [
    (n == 0 || decide (65536 < n) || !allZero w [(3, 31, 0), (5, 63, 0), (6, 63, 0), (7, 31, 0)] || word w 4 % 64 != 0 || addrNode (word w 4) != s.node, badField),
    (decide (s.tileCount f < first + n), badField),
    (!s.covers c.vi (word w 4) (((List.range n).map (fun i => deliveredBytes 1 (s.tileEntry f (first + i)))).sum) rWr, badRegion (word w 4))]

/-- The first copy of a tile that verifies, with the copies whose check failed and whether every copy tried did. -/
def State.bestTile (s : State) (ent : List Nat) (remote : List (Nat × List Byte)) : Option (List Byte) × List Nat × Bool :=
  let rs := ((List.range 4).filter (fun k => word ent k ≠ 0)).map (fun k => (k, s.readTile ent k remote))
  let i := rs.findIdx (fun r => match r.2 with | .got _ => true | _ => false)
  let bad := ((rs.take i).filter (fun r => r.2 == .badCheck)).map (fun r => word ent r.1)
  ((rs[i]?).bind (fun r => match r.2 with | .got bs => some bs | _ => none), bad, bad.length == rs.length)

/-- One tile of a run: its bytes after those before it, or the status that ends the run (R236, R243, R246). -/
def Cmd.decodeTile (c : Cmd) (f : CtxFields) (remote : List (Nat × List Byte)) (acc : List Byte × Option Status × State) (i : Nat) : List Byte × Option Status × State :=
  let (bs, st, t) := acc
  if st.isSome then acc else
    let e := word c.op 2 + i
    let ent := t.tileEntry f e
    let (tile, bad, allBad) := t.bestTile ent remote
    let t1 := bad.foldl (fun (u : State) a => u.raise0 .tileCheck (dieCX (c.inst % 2)) (0x200 + c.inst) [f.model, e, a]) t
    match tile with
    | none => (bs, some (if allBad then .tileCheck else .tierFailed), t1)
    | some b => match deliverTile true none b with
      | none => (bs, some .tileFormat, t1)
      | some o => (bs ++ padTo (ceilDiv o.length 64 * 64) o, none, t1)

/-- A run of tiles in order (R246). -/
def State.decodeRun (s : State) (c : Cmd) (f : CtxFields) (remote : List (Nat × List Byte)) (n : Nat) : List Byte × Option Status × State :=
  (List.range n).foldl (c.decodeTile f remote) ([], none, s)

/-- DECODE_TILES runs (R236, R243, R246). -/
def execDecodeTiles (cid : Nat) (remote : List (Nat × List Byte)) (s : State) : Out :=
  .next (s.whenLive fun s =>
    match s.running cid 3 3 with
    | none => s
    | some c =>
      match c.slot with
      | none => s.finish cid .contextUnbound 0
      | some slot =>
        let n := fld c.op 3 63 32
        match s.decodeRun c (s.ctx slot).f remote n with
        | (_, some st, s1) => s1.finish cid st 0
        | (out, none, s1) => ((s1.store (word c.op 4) out).note cid [(0x0206, n)] 0 (out.length / 64) n 0).finish cid .ok (crc64 out))

/-! ### ADH_WEIGHTS_LOAD (R234 to R238, R425) -/

/-- The 64 bytes of a directory entry are right: its check value, an encoding, a payload length, a first copy (R237). -/
def entryFormed (ent : List Nat) : Bool :=
  ent.length == 8 && word ent 7 == crc64 (bytesOfWords (ent.take 7)) && word ent 0 != 0 && decide (fld ent 4 13 10 ≤ 3) && allZero ent [(4, 9, 0), (5, 31, 0)]

/-- ADH_WEIGHTS_LOAD: the tiles given are checked and written, and the directory and its layer index are built; the index follows the entries
(log 23). -/
def doWeightsLoad (c : Caller) (slot : Nat) (entries : List (List Nat)) (tiles : List (Nat × List Byte)) (s : State) : AdhOut :=
  let x := s.ctx slot
  let f := x.f
  let prot := (s.comp f.composition).cur.protection
  let nodes := fun (e : List Nat) => ((((e.take 4).filter (· ≠ 0)).map addrNode).dedup).length
  let held := fun (a n : Nat) => c.order.isSome || c.session.isSome || s.covers c.vi a n rWt
  if x.st = .empty ∨ 16777216 < entries.length ∨ !(entries.all (fun e => entryFormed e && decide (fld e 4 31 22 < f.layers))) then adhFail .invalidField s
  else if prot ≠ .none ∧ entries.any (fun e => decide (nodes e < 2)) then adhFail .invalidField s
  else if !(tiles.all (fun t => tileFormed t.2)) then adhFail .tileFormat s
  else if !(tiles.all (fun t => held t.1 t.2.length)) then adhRegion (((tiles.find? (fun t => !held t.1 t.2.length)).map (·.1)).getD 0) s
  else if !(tiles.all (fun t => tileChecks t.2)) then adhFail .tileCheck s
  else
    let s1 := tiles.foldl (fun t x => t.store x.1 x.2) s
    let es := (List.range f.layers).flatMap (fun l => entries.filter (fun e => fld e 4 31 22 == l))
    let index := f.weightDir + 64 + 64 * es.length
    let firsts := (List.range (f.layers + 1)).map (fun l => (entries.filter (fun e => decide (fld e 4 31 22 < l))).length)
    let s2 := s1.wrWords f.weightDir (sealWords [es.length, index, 0, 0, 0, 0, 0] ++ es.flatten)
    adhOk (s2.wr index (firsts.flatMap (bytesOf 4)))

/-- ADH_WEIGHTS_LOAD, deferred. -/
def execAdhWeightsLoad (c : Caller) (slot : Nat) (entries : List (List Nat)) (tiles : List (Nat × List Byte)) (s : State) : Out :=
  .next (s.adhRunD 0x0308 .oper c (doWeightsLoad c slot entries tiles))

end Sys2Proof.Machine
end

