-- ==== Sys2Proof/Machine/AdhTrust.lean ====
section
/-! DEFINITION. Trust, change orders, attestation, management sessions, croaks and Adeah's failover (R391, R392, R403 to R407, R415 to R422, R495). -/

namespace Sys2Proof.Machine
open Sys2Proof

/-! ### The trust record (R407, R416) -/

/-- A modulus of an RSA-4096 key. -/
def keyOk (n : Nat) : Bool := decide (2 ^ 4095 ≤ n) && decide (n < 2 ^ 4096) && n % 2 == 1

/-- Changes the trust record; the change extends M2 (R407, R416). -/
def State.setTrust (s : State) (t : Option (Nat × Nat)) : State :=
  { s with adh := { s.adh with trust := t, m2 := extend s.adh.m2 (sha512 (trustBytes t)) } }

/-- ADH_TRUST_INSTALL: both keys, only while the record is empty (R407). -/
def doTrustInstall (da no : Nat) (s : State) : AdhOut :=
  if s.adh.trust.isSome || !keyOk da || !keyOk no then adhFail .invalidField s else adhOk (s.setTrust (some (da, no)))
/-- ADH_TRUST_INSTALL, from a management session only (R407). -/
def execAdhTrustInstall (c : Caller) (da no : Nat) (s : State) : Out := .next (s.adhRun 0x0B03 .mgmt c (doTrustInstall da no))

/-- ADH_TRUST_ROTATE: replaces either key or both (R407). -/
def doTrustRotate (da no : Option Nat) (s : State) : AdhOut :=
  match s.adh.trust with
  | none => adhFail .invalidField s
  | some (a, b) =>
    if (da.isNone && no.isNone) || !keyOk (da.getD a) || !keyOk (no.getD b) then adhFail .invalidField s
    else adhOk (s.setTrust (some (da.getD a, no.getD b)))
/-- ADH_TRUST_ROTATE, an action of a change order. -/
def execAdhTrustRotate (c : Caller) (da no : Option Nat) (s : State) : Out := .next (s.adhRun 0x0B04 .order c (doTrustRotate da no))

/-- ADH_TRUST_CLEAR (R407). -/
def doTrustClear (s : State) : AdhOut := adhOk (s.setTrust none)
/-- ADH_TRUST_CLEAR, an action of a change order. -/
def execAdhTrustClear (c : Caller) (s : State) : Out := .next (s.adhRun 0x0B05 .order c doTrustClear)

/-! ### Firmware, personality, reset and the croak key (R4, R415, R420, R495) -/

/-- ADH_FIRMWARE_UPDATE: an image that passes R412 is written to the SPI NOR for the next reset (R415). -/
def doFirmwareUpdate (image : List Byte) (raiseSvn : Bool) (s : State) : AdhOut :=
  if 33554432 < image.length ∨ (imageFault image s.boot.svnMin).isSome then adhFail .invalidField s
  else adhOk { s with boot := { s.boot with spiImage := image, raiseSvn := raiseSvn } }
/-- ADH_FIRMWARE_UPDATE, an action of a change order. -/
def execAdhFirmwareUpdate (c : Caller) (image : List Byte) (raiseSvn : Bool) (s : State) : Out :=
  .next (s.adhRun 0x0B07 .order c (doFirmwareUpdate image raiseSvn))

/-- ADH_PERSONALITY_SET: 1 prompt, 2 generation, 3 cache, for the next reset (R4). -/
def doPersonalitySet (p : Nat) (s : State) : AdhOut :=
  if p = 0 ∨ 3 < p then adhFail .invalidField s else adhOk { s with boot := { s.boot with personalityNext := p } }
/-- ADH_PERSONALITY_SET, an action of a change order. -/
def execAdhPersonalitySet (c : Caller) (p : Nat) (s : State) : Out := .next (s.adhRun 0x0B08 .order c (doPersonalitySet p))

/-- ADH_NODE_RESET: the package runs from t0 at the time given (R495). -/
def doNodeReset (time : Nat) (s : State) : AdhOut := adhOk { s with boot := { s.boot with resetAt := some time } }
/-- ADH_NODE_RESET, an action of a change order. -/
def execAdhNodeReset (c : Caller) (time : Nat) (s : State) : Out := .next (s.adhRun 0x0B09 .order c (doNodeReset time))

/-- ADH_CROAK_KEY (R420). -/
def doCroakKey (key : List Byte) (s : State) : AdhOut := adhOk { s with adh := { s.adh with croakKey := some key } }
/-- ADH_CROAK_KEY, an action of a change order. -/
def execAdhCroakKey (c : Caller) (key : List Byte) (s : State) : Out := .next (s.adhRun 0x0B0A .order c (doCroakKey key))

/-! ### Change orders (R403 to R406) -/

/-- The operation code of an action (R400). -/
def actionCode : Action → Nat
  | .mgmtConfig .. => 0x0106
  | .violationRead .. => 0x0105
  | .viAssign .. => 0x0201
  | .viRelease .. => 0x0202
  | .engineConfig .. => 0x0206
  | .phaseShare .. => 0x0207
  | .contextLoad .. => 0x0301
  | .codebookFactors .. => 0x0304
  | .codebookLoad .. => 0x0305
  | .calibrationPolicy .. => 0x0306
  | .attendPolicy .. => 0x0307
  | .weightsLoad .. => 0x0308
  | .compositionDefine .. => 0x0401
  | .admissionPolicy .. => 0x0404
  | .leapPolicy .. => 0x0503
  | .leapStart .. => 0x0504
  | .arenaDefine .. => 0x0601
  | .tierConfig .. => 0x0602
  | .tierPolicy .. => 0x0603
  | .scrubPolicy .. => 0x0605
  | .regionSet .. => 0x0606
  | .quotaSet .. => 0x0607
  | .portConfig .. => 0x0701
  | .partnerSet .. => 0x0703
  | .routeLoad .. => 0x0704
  | .fabricPolicy .. => 0x0705
  | .timeConfig .. => 0x0706
  | .windowOpen .. => 0x0707
  | .windowRevoke .. => 0x0708
  | .windowClose .. => 0x070A
  | .trafficClasses .. => 0x0801
  | .gatePolicy .. => 0x0803
  | .shaperSet .. => 0x0804
  | .policeSet .. => 0x0805
  | .trustRotate .. => 0x0B04
  | .trustClear => 0x0B05
  | .rightsSet .. => 0x0B06
  | .firmwareUpdate .. => 0x0B07
  | .personalitySet .. => 0x0B08
  | .nodeReset .. => 0x0B09
  | .croakKey .. => 0x0B0A

/-- The target VI of an action, or 0 for none (R403). -/
def actionVi : Action → Nat
  | .viAssign vi .. => vi
  | .viRelease vi => vi
  | .rightsSet vi .. => vi
  | .regionSet vi .. => vi
  | .shaperSet vi .. => vi
  | .quotaSet kind id .. => if kind = 0 then id else 0
  | _ => 0

/-- Carries out one action (R404, R405). -/
def runAction (c : Caller) (a : Action) (s : State) : AdhOut :=
  match a with
  | .mgmtConfig addrs watch collectors => doMgmtConfig addrs watch collectors s
  | .violationRead first count => doViolationRead first count s
  | .viAssign vi sources comps models maxPriority shares bits => doViAssign vi sources comps models maxPriority shares bits s
  | .viRelease vi => doViRelease c vi s
  | .engineConfig cls inst threshold => doEngineConfig cls inst threshold s
  | .phaseShare cls inst floorG floorP => doPhaseShare cls inst floorG floorP s
  | .contextLoad model comp headDim layers kvHeads qPerKv cbDir wtDir => doContextLoad c model comp headDim layers kvHeads qPerKv cbDir wtDir s
  | .codebookFactors slot layer head kv factors => doCodebookFactors slot layer head kv factors s
  | .codebookLoad slot obj => doCodebookLoad c slot obj s
  | .calibrationPolicy comp node p => doCalibrationPolicy comp node p s
  | .attendPolicy comp distHi epsHi dvHi => doAttendPolicy comp distHi epsHi dvHi s
  | .weightsLoad slot entries tiles => doWeightsLoad c slot entries tiles s
  | .compositionDefine comp model epoch prompt gen cache home prot repr beat quotas => doCompositionDefine comp model epoch prompt gen cache home prot repr beat quotas s
  | .admissionPolicy comp bridges gReserve waitS waitO => doAdmissionPolicy comp bridges gReserve waitS waitO s
  | .leapPolicy comp lease leapTimeout pullMode pullDeadline => doLeapPolicy comp lease leapTimeout pullMode pullDeadline s
  | .leapStart req target => doLeapStart c req target s
  | .arenaDefine tier die headDim base slots parity => doArenaDefine tier die headDim base slots parity s
  | .tierConfig sramTier interleave flashOp => doTierConfig sramTier interleave flashOp s
  | .tierPolicy comp p => doTierPolicy comp p s
  | .scrubPolicy period => doScrubPolicy period s
  | .regionSet vi index base limit owner rights valid => doRegionSet vi index base limit owner rights valid s
  | .quotaSet kind id tier ceiling => doQuotaSet kind id tier ceiling s
  | .portConfig port mode roles rate minWidth pools endpoint eth => doPortConfig port mode roles rate minWidth pools endpoint eth s
  | .partnerSet port entry fields => doPartnerSet port entry fields s
  | .routeLoad routes => doRouteLoad routes s
  | .fabricPolicy deadBound msgTimeout rnrLimit => doFabricPolicy deadBound msgTimeout rnrLimit s
  | .timeConfig domain asymmetry pps p1 p2 tod utc => doTimeConfig domain asymmetry pps p1 p2 tod utc s
  | .windowOpen window base limit owner rights comp listMask srcs => doWindowOpen window base limit owner rights comp listMask srcs s
  | .windowRevoke window => doWindowRevoke c window s
  | .windowClose window => doWindowClose window s
  | .trafficClasses classes => doTrafficClasses classes s
  | .gatePolicy port guard after openFallback => doGatePolicy port guard after openFallback s
  | .shaperSet vi tc rate burst => doShaperSet c vi tc rate burst s
  | .policeSet port partner tc rate burst classes => doPoliceSet port partner tc rate burst classes s
  | .trustRotate da no => doTrustRotate da no s
  | .trustClear => doTrustClear s
  | .rightsSet vi sources comps models maxPriority shares bits => doRightsSet vi sources comps models maxPriority shares bits s
  | .firmwareUpdate image raiseSvn => doFirmwareUpdate image raiseSvn s
  | .personalitySet p => doPersonalitySet p s
  | .nodeReset time => doNodeReset time s
  | .croakKey key => doCroakKey key s

/-- Carries out the actions of an order, each on the state the earlier ones leave; the first that fails stops the order with its outcome and its
index (R404, R405). -/
def runActions (c : Caller) : List Action → Nat → State → Option (AdhOut × Nat) × State
  | [], _, s => (none, s)
  | a :: as, n, s =>
    let o := runAction c a s
    if o.st ≠ .ok ∧ o.st ≠ .adhAccepted then (some (o, n), s)
    else
      let t := match a, o.s.adh.order with
        | .viRelease vi, some d => { o.s with adh := { o.s.adh with order := some { d with vis := d.vis ++ [vi] } } }
        | _, _ => o.s
      runActions c as (n + 1) t

/-- The actions of an order's body: operation code, target VI and parameters of each, where they fill the body exactly, and reserved bits and padding
are zero (R403). -/
def actionHeaders : Nat → List Byte → Option (List (Nat × Nat × List Byte))
  | 0, _ => none
  | n + 1, bs =>
    if bs.isEmpty then some []
    else
      let w := wordsOf 2 bs
      let len := 16 + ceilDiv (fld w 0 31 0) 8 * 8
      if bs.length < len ∨ fld w 0 39 32 ≠ 0 ∨ word w 1 ≠ 0 ∨ valOf ((bs.take len).drop (16 + fld w 0 31 0)) ≠ 0 then none
      else (actionHeaders n (bs.drop len)).map (fun t => (fld w 0 63 48, fld w 0 47 40, cut bs 16 (fld w 0 31 0)) :: t)

/-- Whether an action's parameters spell its operands, where the manual lays them out: an entry index and an entry, a window number and the fields of
an entry image that an order sets, a principal, a tier and a ceiling (R64, R300, R403). -/
def paramsSpell (a : Action) (bs : List Byte) : Bool :=
  let w := wordsOf 9 bs
  match a with
  | .regionSet _ index base limit owner rights valid =>
    bs == bytesOfWords (index :: ({ base := base, limit := limit, owner := owner, rights := rights, valid := valid } : Region).words)
  | .windowOpen window base limit owner rights comp listMask srcs =>
    let x := ({ e := { base := base, limit := limit, owner := owner, rights := rights, composition := comp, listMask := listMask, srcs := srcs } } : Window).words
    bs.length == 72 && w.take 3 == window :: x.take 2 && fld w 3 47 40 == fld x 2 47 40 && fld w 3 36 33 == fld x 2 36 33 && fld w 3 31 0 == fld x 2 31 0 &&
      w.drop 5 == x.drop 4
  | .quotaSet _ _ tier ceiling => bs.length == 24 && (w.drop 1).take 2 == [tier, ceiling]
  | _ => true

/-- Whether an order has the format of R403 and its body names the actions. -/
def orderFormatOk (order : List Byte) (actions : List Action) : Bool :=
  let w := wordsOf 8 order
  let body := fld w 4 47 16
  fld w 0 63 32 == 0x41444F31 && fld w 0 31 24 == 1 && fld w 0 11 0 == 0 && fld w 4 15 0 == 0 && word w 7 == 0 &&
  decide (1 ≤ fld w 4 63 48) && decide (fld w 4 63 48 ≤ 256) && decide (16 ≤ body) && decide (body ≤ 65536) && body % 8 == 0 &&
  order.length == 64 + body + 1024 && fld w 4 63 48 == actions.length &&
  (match actionHeaders 257 (cut order 64 body) with
    | none => false
    | some hs => hs.map (fun h => (h.1, h.2.1)) == actions.map (fun a => (actionCode a, actionVi a)) && (hs.zip actions).all (fun h => paramsSpell h.2 h.1.2.2))

/-- Whether both key ids match the trust record and both signatures verify (R403, R404). -/
def orderSigned (trust : Option (Nat × Nat)) (order : List Byte) : Bool :=
  match trust with
  | none => false
  | some (da, no) =>
    let n := order.length - 1024
    let id := fun (k : Nat) => (sha512 (bytesBE 512 k)).take 8
    cut order 40 8 == id da && cut order 48 8 == id no && pssVerify da (order.take n) (cut order n 512) && pssVerify no (order.take n) (cut order (n + 512) 512)

/-- ADH_CHANGE_ORDER: the checks of R404 in their order; then every action at one step, the last applied sequence, M3 and the event (R405). -/
def doChangeOrder (c : Caller) (order : List Byte) (actions : List Action) (s : State) : AdhOut :=
  let w := wordsOf 8 order
  let seq := word w 1
  let msg := order.take (order.length - 1024)
  if !orderFormatOk order actions then adhFail .invalidField s
  else if fld w 0 23 12 ≠ s.node ∧ fld w 0 23 12 ≠ 0xFFF then adhFail .invalidField s
  else if !orderSigned s.adh.trust order then adhFail .orderSignature (s.violate c.vi s.node 63 0 4 0x0B01 5)
  else if !s.timeLocked ∨ s.now < word w 2 ∨ word w 3 < s.now then adhFail .orderExpired s
  else if seq ≤ s.adh.lastOrder then adhFail .orderStale s
  else if s.adh.order.isSome then adhFail .retryOrderBusy s
  else
    let d : OrderDrain := { op := s.refOf c 0x0B01, seq := seq }
    match runActions { c with order := some seq } actions 0 { s with adh := { s.adh with order := some d } } with
    | (some (o, n), _) => ⟨o.st, n, o.body, s⟩
    | (none, s1) =>
      let m3 := extend s1.adh.m3 (sha512 msg)
      let s2 : State := { s1 with adh := { s1.adh with lastOrder := seq, m3 := m3 } }
      ⟨.adhAccepted, 0, [], s2.raise0 .orderApplied (dieMG s.adh.primary) 0 ([seq, actions.length, c.session.getD c.vi] ++ wordsOf 8 m3)⟩
/-- ADH_CHANGE_ORDER, deferred. -/
def execAdhChangeOrder (c : Caller) (order : List Byte) (actions : List Action) (s : State) : Out :=
  .next (s.adhRun 0x0B01 .oper c (doChangeOrder c order actions))

/-- Whether every drain an order started has reached zero: commands under an older region table, requests of replaced or ending windows, QUIESCING VIs
(R405). -/
def State.orderDrained (s : State) (o : OrderDrain) : Bool :=
  o.regions.all (fun r => !s.work.cmds.any (fun c => c.2.vi == r.1 && c.2.dispT.isSome && c.2.regionGen != r.2)) &&
  o.windows.all (fun w => let x := s.window w; x.held.isEmpty && x.admittedOld == 0 && x.st != .draining) &&
  o.vis.all (fun v => (s.vi v).st == .unassigned)

/-- The drains of an applied order have reached zero: its final record is written (R405). -/
def execOrderDrainDone (s : State) : Out :=
  .next (s.whenLive fun s =>
    match s.adh.order with
    | none => s
    | some o => if !s.orderDrained o then s else ({ s with adh := { s.adh with order := none } } : State).finishOp o.op .ok 0 [])

/-! ### Attestation (R416 to R418) -/

/-- The digest of the rights records and region tables of VIs 1 to 255 (R418; the record's bytes are open: log 7). -/
def State.rightsDigest (s : State) : List Byte :=
  sha512 ((List.range 255).flatMap (fun i =>
    let x := s.vi (i + 1)
    if x.st = .unassigned then List.replicate 2112 0#8
    else
      let r := x.rights
      let fields := [r.compositions.length] ++ r.compositions ++ [r.models.length] ++ r.models ++ [r.maxPriority] ++ r.shares ++
        [r.sources.length] ++ r.sources.flatMap (fun y => [y.1, y.2]) ++ [r.bits]
      (padTo 64 (Config.rightsBytes fields)).take 64 ++ (List.range 64).flatMap (fun n => bytesOfWords (Tbl.at x.regions n {}).words)))

/-- The signed part of a quote, 512 bytes (R418). -/
def State.quote (s : State) (nonce : List Byte) : List Byte :=
  padTo 512 (bytesOfWords [mkWord [(32, 32, 0x41445131), (24, 8, 1), (12, 12, s.node)], u64 s.now, u64 s.boot.bootCount, u64 s.adh.lastOrder,
      mkWord [(56, 8, s.boot.image.svn), (48, 8, s.boot.svnMin), (40, 8, s.adh.primary)]] ++
    nonce ++ Config.romDigest ++ s.adh.m1 ++ s.adh.m2 ++ s.adh.m3 ++ s.rightsDigest)

/-- ADH_ATTEST: the signed quote and the certificate chain (R417, R418). -/
def doAttest (nonce : List Byte) (s : State) : AdhOut :=
  if nonce.length ≠ 64 then adhFail .invalidField s
  else
    let q := s.quote nonce
    let key := Config.romDigest ++ s.adh.m1
    let bs := q ++ (padTo 512 (Config.attestSign s.adh.primary key q)).take 512 ++ (Config.certificates s.adh.primary key).take 4096
    ⟨.ok, 0, wordsOf (ceilDiv bs.length 8) bs, s⟩
/-- ADH_ATTEST. -/
def execAdhAttest (c : Caller) (nonce : List Byte) (s : State) : Out := .next (s.adhRun 0x0B02 .userRead c (doAttest nonce))

/-! ### Management sessions (R422) -/

/-- Draws `8 n` fresh bytes. -/
def State.drawBytes (s : State) : Nat → List Byte × State
  | 0 => ([], s)
  | n + 1 =>
    let (w, s1) := s.draw
    let (bs, s2) := s1.drawBytes n
    (bytesOf 8 w ++ bs, s2)

/-- ADH_SESSION_OPEN: a node challenge signed by the trust key of a principal (0 domain authority, 1 node operator) opens a session, whose key is answered under
RSAES-OAEP; 16 sessions at most (R422). -/
def execAdhSessionOpen (c : Caller) (principal : Nat) (challenge sig : List Byte) (s : State) : Out :=
  let _ := c
  .next (
    if !(s.live && s.primaryUp) then s else s.keeping (
    let answer := fun (t : State) (st : Status) (result : Nat) (body : List Byte) => t.gram 49602 0 (bytesOfWords [0, 0x0B0B, st.code, u64 result] ++ body)
    match s.adh.trust with
    | none => answer (s.violate 0 s.node 63 0 3 0x0B0B 5) .violation 0 []
    | some (da, no) =>
      let key := if principal = 0 then da else no
      if 1 < principal then answer s .invalidField 0 []
      else if !pssVerify key challenge sig then answer (s.violate 0 s.node 63 0 3 0x0B0B 5) .violation 0 []
      else if 16 ≤ s.adh.sessions.length then answer s .refusedCapacity 0 []
      else
        let (k, s1) := s.drawBytes 8
        let (seed, s2) := s1.drawBytes 8
        let id := s2.adh.nextSession
        let x : Session := { key := k, lastAt := s2.now }
        answer { s2 with adh := { s2.adh with sessions := Tbl.set s2.adh.sessions id x, nextSession := id + 1 } } .ok id (oaepEncrypt key seed k)))

/-- ADH_UPLOAD: bytes of the session's upload area of up to 32 MiB (R422). -/
def doUpload (c : Caller) (off : Nat) (bytes : List Byte) (s : State) : AdhOut :=
  match c.session with
  | none => adhRights s
  | some id =>
    if 33554432 < off + bytes.length then adhFail .invalidField s
    else adhOk { s with adh := { s.adh with sessions := Tbl.upd s.adh.sessions id (fun x =>
      let old := Tbl.at x.upload 0 []
      { x with upload := [(0, (padTo off old).take off ++ bytes ++ old.drop (off + bytes.length))] }) } }
/-- ADH_UPLOAD, from a management session only. -/
def execAdhUpload (c : Caller) (off : Nat) (bytes : List Byte) (s : State) : Out := .next (s.adhRun 0x0B0C .mgmt c (doUpload c off bytes))

/-- What a session's request header gets at once, if anything (R394, R395, R398, R400, R422): further request bytes come from the upload area. -/
def Session.headerFault (x : Session) (w : List Nat) (body : List Byte) : Option (Status × Nat) :=
  let op := fld w 0 63 48
  let ver := fld w 0 47 40
  let ext := (padTo (fld w 2 63 32) (Tbl.at x.upload 0 [])).take (fld w 2 63 32)
  if ver ≠ 2 ∧ ver ≠ 3 ∧ op ≠ 0x101 then some (.adhVersion, 12)
  else if fld w 0 39 32 ≠ 0 ∨ fld w 2 31 0 ≠ 0 ∨ word w 1 ≠ 0 ∨ 16777216 < fld w 2 63 32 then some (.invalidField, 0)
  else if crc64 (bytesOfWords (w.take 7) ++ body ++ ext) ≠ word w 7 then some (.mailboxCheck, 0)
  else if !adhCodes.contains op then some (.invalidField, 0)
  else none

/-- A management datagram arrives: the session id, a sequence number above the last, the HMAC under the session key, then a request header and a body of up to
8,192 bytes. A sound one is the session's request until it has run; any other is discarded (R422). -/
def execMgmtSessionDatagram (bytes : List Byte) (s : State) : Out :=
  .next (s.whenLive fun s =>
    let h := wordsOf 2 bytes
    match Tbl.get s.adh.sessions (word h 0) with
    | none => s
    | some x =>
      let rest := bytes.drop 48
      let w := wordsOf 8 rest
      let body := rest.drop 64
      if !s.primaryUp ∨ bytes.length < 112 ∨ 8192 < body.length ∨ word h 1 ≤ x.seq ∨ x.header ≠ [] ∨ (hmacSha512 x.key (bytes.take 16 ++ rest)).take 32 ≠ cut bytes 16 32 then s
      else
        let y := { x with seq := word h 1, lastAt := s.now }
        match x.headerFault w body with
        | some (st, r) =>
          ({ s with adh := { s.adh with sessions := Tbl.set s.adh.sessions (word h 0) y } } : State).gram 49602 0 (bytesOfWords [word h 0, fld w 0 63 48, st.code, u64 r])
        | none => { s with adh := { s.adh with sessions := Tbl.set s.adh.sessions (word h 0) { y with header := w } } })

/-- A session idle for 60 s is closed (R422). -/
def execSessionIdleTimer (id : Nat) (s : State) : Out :=
  .next (s.whenLive fun s =>
    match Tbl.get s.adh.sessions id with
    | none => s
    | some x => if s.now < x.lastAt + 60000000000 then s else { s with adh := { s.adh with sessions := Tbl.del s.adh.sessions id } })

/-! ### Failover (R391, R392) -/

/-- MG0 is fenced: MG1 becomes primary. Of the BUSY mailboxes, those whose operation the hub's record shows applied are not run again; the others still are to
run (R392). -/
def execAdeahFailover (s : State) : Out :=
  .next (s.whenLive fun s =>
    if s.adh.primary ≠ 0 ∨ !s.isFenced (dieMG 0) ∨ s.isFenced (dieMG 1) ∨ !(Tbl.at s.boot.accepted 1 false) then s
    else
      let busy := (s.adh.mailboxes.filter (fun m => m.2.busy)).map (·.2)
      let done_ := busy.filter (fun m => (m.applied.map (fun a => a.mbSeq == fld m.header 0 31 16)).getD false)
      ({ s with adh := { s.adh with primary := 1 } } : State).raise0 .adeahFailover (dieMG 1) 0 [busy.length - done_.length, done_.length])

/-! ### Croaks (R420, R421) -/

/-- A croak of a management die on a plane (R420). -/
def State.croakBytes (s : State) (mg plane count : Nat) : List Byte :=
  let st := if s.boot.resetAt.isSome then 3 else if s.boot.joined then 2 else 1
  let map_ := ((List.range 20).map (fun d => if s.isFenced d then 0 else 2 ^ d)).sum
  let h := bytesOfWords [mkWord [(56, 8, 1), (44, 12, s.node), (42, 2, mg), (40, 2, plane), (32, 8, st), (0, 32, count)], u64 s.now, u64 s.boot.bootCount, map_,
    u64 s.adh.lastOrder, 0, 0, 0, 0, 0, 0, 0, 0]
  let t := h ++ (match s.adh.croakKey with | some k => (hmacSha512 k h).take 16 | none => List.replicate 16 0#8)
  t ++ bytesOf 8 (crc64 t)

/-- Every 1 ms a management die that runs Adeah sends a croak on both its ports, MG1 500 µs after MG0 (R420). -/
def execCroakSendTimer (mg : Nat) (s : State) : Out :=
  .next (s.whenLive fun s =>
    let due := match Tbl.get s.adh.croakAt mg, Tbl.get s.adh.croakAt (1 - mg) with
      | some t, _ => decide (t + 1000000 ≤ s.now)
      | none, some t => decide (t + 500000 ≤ s.now)
      | none, none => true
    if 1 < mg ∨ !(Tbl.at s.boot.accepted mg false) ∨ s.isFenced (dieMG mg) ∨ !due then s
    else
      let n := u32 (Tbl.at s.adh.croakCount mg 0 + 1)
      let s1 : State := { s with adh := { s.adh with croakCount := Tbl.set s.adh.croakCount mg n, croakAt := Tbl.set s.adh.croakAt mg s.now } }
      (s1.gram 49603 0 (s.croakBytes mg 0 n)).gram 49603 1 (s.croakBytes mg 1 n))

/-- Whether this node listens to another's croaks: a home it backs up, a primary bridge it stands by for, the calibration node it succeeds, or a node
named (R421). -/
def State.watches (s : State) (n : Nat) : Bool :=
  s.adh.watchList.contains n || s.own.dir.any (fun e => e.2.mirror && Tbl.at s.own.acting (reqHome e.1) (reqHome e.1) == n) ||
  s.str.bridges.any (fun b => !b.2.primary && b.2.bridge == n) ||
  s.comps.any (fun x => s.calibNode x.1 == n && nextAbove (x.2.cur.cache.filter (fun m => m ≠ n)) n == some s.node)

/-- A croak arrives on a plane: one that does not verify is discarded and counted (R420, R421). -/
def execCroakReceive (plane : Nat) (bytes : List Byte) (s : State) : Out :=
  .next (s.whenLive fun s =>
    let w := wordsOf 16 bytes
    let n := fld w 0 55 44
    let tagBad := match s.adh.croakKey with | some k => (hmacSha512 k (bytes.take 104)).take 16 != cut bytes 104 16 | none => false
    if bytes.length != 128 || word w 15 != crc64 (bytes.take 120) || fld w 0 63 56 != 1 || tagBad then { s with adh := { s.adh with croakDiscards := s.adh.croakDiscards + 1 } }
    else if !s.watches n ∨ 1 < plane then s
    else
      let x := (Tbl.get s.adh.watched n).getD { planeAt := [(0, s.now), (1, s.now)] }
      let planes := Tbl.set x.planeAt plane s.now
      let both := decide (s.now < Tbl.at planes (1 - plane) 0 + 10000000)
      let y : Watched := { x with lastAt := s.now, lastCount := fld w 0 31 0, misses := 0, lost := false, planeAt := planes, planeRaised := x.planeRaised && !both }
      { s with adh := { s.adh with watched := Tbl.set s.adh.watched n y } })

/-- The croak condition of R142 at a protection node: a member whose croaks are lost and whose loads fail is declared down (R435). -/
def State.croakDown (s : State) (node : Nat) : State :=
  if !((s.fab.peers.filter (fun p => p.1 == node)).any (fun p => p.2.dead)) then s
  else (s.comps.filter (fun x => s.calibNode x.1 == s.node && x.2.cur.cache.contains node)).foldl (fun (t : State) x => t.declareDown x.1 node 1) s

/-- 1.1 ms after a watched node's croak without another, and a croak period later again, a croak is missed; two misses in a row raise EV_CROAK_LOST (R142,
R421). -/
def execCroakMiss (node : Nat) (s : State) : Out :=
  .next (s.whenLive fun s =>
    match Tbl.get s.adh.watched node with
    | none => s
    | some x =>
      if x.lost then s.croakDown node
      else if s.now < x.lastAt + 1100000 + 1000000 * x.misses then s
      else
        let lost := decide (1 ≤ x.misses)
        let s1 : State := { s with adh := { s.adh with watched := Tbl.set s.adh.watched node { x with misses := x.misses + 1, lost := lost } } }
        if !lost then s1 else (s1.raise0 .croakLost (dieMG s.adh.primary) 0 [node, x.lastAt, x.lastCount]).croakDown node)

/-- A watched node heard on one plane only for 10 ms raises EV_CROAK_PLANE (R421). -/
def execCroakPlaneTimer (node plane : Nat) (s : State) : Out :=
  .next (s.whenLive fun s =>
    match Tbl.get s.adh.watched node with
    | none => s
    | some x =>
      if 1 < plane ∨ x.planeRaised ∨ x.lost ∨ s.now < Tbl.at x.planeAt (1 - plane) 0 + 10000000 ∨ Tbl.at x.planeAt plane 0 + 10000000 ≤ s.now then s
      else ({ s with adh := { s.adh with watched := Tbl.set s.adh.watched node { x with planeRaised := true } } } : State).raise0
        .croakPlane (dieMG s.adh.primary) 0 [node, plane])

end Sys2Proof.Machine
end

