-- ==== Sys2Proof/Machine/AttendOps.lean ====
section
/-! DEFINITION. The arithmetic of the Attend engine (R147 to R176): query rows, tables, scores, margin sets, accumulation, the end step, the
checks and the bounds. Every number is exact until the manual rounds it. -/

namespace Sys2Proof.Machine
open Sys2Proof

/-! ### Rows and keys (R152, R158) -/

/-- A query row: its elements as BF16 values or unsigned bytes, `q_scale`, `q_zero`, and its Euclidean norm in FP32. -/
structure QRow where
  x : List Dy
  qs : Dy
  qz : Dy
  nrm : Dy

/-- The query rows of a job; none where a value is not finite or a `q_scale` is out of range (R152). -/
def State.queryRows (s : State) (a n d fmt : Nat) : Option (List QRow) :=
  ((List.range n).map (fun r =>
    if fmt = 0 then
      (bf16s d (s.rd (a + r * 2 * d) (2 * d))).map (fun x => { x := x, qs := dyNat 1, qz := dyZero, nrm := r32 (dySqrt (norm2 x)) })
    else
      let base := a + r * (64 + ceilDiv d 64 * 64)
      match decF32 (valOf (s.rd base 4)) with
      | none => none
      | some qs =>
        if qs.m ≤ 0 then none else
          let z := dyNat (s.rd1 (base + 4)).toNat
          let x := (s.rd (base + 64) d).map (fun b => dyNat b.toNat)
          some { x := x, qs := qs, qz := z, nrm := r32 (dyMul qs (dySqrt (norm2 (x.map (fun u => dySub u z))))) })).mapM id

/-- A key: how its rows may be read, and what the slot stores for it (R93, R94). -/
structure Key where
  /-- 0 BF16, 1 FP8-plus-code, 2 code-only. -/
  repr : Nat
  kVer : Nat
  vVer : Nat
  kCodes : List Nat
  vCodes : List Nat
  kScale : Dy
  vScale : Dy
  kSum : Dy
  vSum : Dy
  kRes : Dy
  vRes : Dy
  /-- Exact K and V elements, empty for a code-only key. -/
  kEx : List Dy
  vEx : List Dy
  /-- Whether its scale record holds finite, positive scales (R169). -/
  ok : Bool

/-- Token t of a block as a key. -/
def State.keyOf (s : State) (d : Desc) (t : Nat) : Key :=
  let dd := dimOf d.dim
  let by_ := fun o n => s.rd (d.slot + o) n
  if d.repr = 0 then
    { repr := 0, kVer := 0, vVer := 0, kCodes := [], vCodes := [], kScale := dyNat 1, vScale := dyNat 1, kSum := dyZero, vSum := dyZero, kRes := dyZero
      vRes := dyZero, kEx := (bf16s dd (by_ (t * 2 * dd) (2 * dd))).getD [], vEx := (bf16s dd (by_ (128 * dd + t * 2 * dd) (2 * dd))).getD [], ok := true }
  else
    let rec_ := 16 * dd + t * (dd / 4)
    let h := fun o => decBF16 (valOf (by_ (rec_ + o) 2))
    let f := fun o => (decF32 (valOf (by_ (rec_ + o) 4))).getD dyZero
    let pos := fun (v : Option Dy) => (v.map (fun x => decide (0 < x.m))).getD false
    let e8 := fun o => if d.repr = 1 then (by_ o dd).map (fun b => (decE4M3 b.toNat).getD dyZero) else []
    { repr := d.repr, kVer := d.kVer, vVer := d.vVer, kCodes := (by_ (t * (dd / 8)) (dd / 8)).map (·.toNat)
      vCodes := (by_ (8 * dd + t * (dd / 8)) (dd / 8)).map (·.toNat), kScale := (h 0).getD dyZero, vScale := (h 2).getD dyZero
      kSum := f 4, vSum := f 8, kRes := (h 12).getD dyZero, vRes := (h 14).getD dyZero
      kEx := e8 (32 * dd + t * dd), vEx := e8 (96 * dd + t * dd), ok := pos (h 0) && pos (h 2) }

/-- A query table: its scale s_t and its INT16 entries by subspace (R158). -/
structure QTab where
  st : Dy
  tab : List (List Int)

/-- Builds a row's table for the centroids of a K version (R158). -/
def buildTab (x : List Dy) (cb : List Byte) (d : Nat) : QTab :=
  let t := (List.range (d / 8)).map (fun j => (List.range 256).map (fun c =>
    r32 (dySum (List.zipWith dyMul ((x.drop (8 * j)).take 8) (centroid cb j c)))))
  let top := t.flatten.foldl (fun a v => dyMax a (dyAbs v)) dyZero
  let st := if top.m = 0 then dyNat 1 else r32 (dyDiv top (dyNat 32767))
  { st := st, tab := t.map (fun l => l.map (fun v => dyRne (dyDiv v st))) }

/-! ### Accumulation (R159 to R163, R165) -/

/-- What a tile keeps for a row: whether it has met a key, the running maximum, the reference, and the accumulators (R160, R162, R163). -/
structure Tile where
  any : Bool := false
  run : Option Dy := none
  ref : Dy := dyZero
  l : Dy := dyZero
  c : Dy := dyZero
  csC : Dy := dyZero
  csE : Dy := dyZero
  caE : Dy := dyZero
  acc : List Dy := []
  hist : Tbl Nat (List (List Dy)) := []
  /-- The sum of the code-domain terms by V version (R169). -/
  terms : Tbl Nat Dy := []
  kap : Dy := dyZero
  xi : Dy := dyZero
  dv : Dy := dyZero
  vmax : Dy := dyZero
  rescaled : Bool := false
  over_ : Bool := false

/-- What a row keeps across its tiles: the margin set's size, the counts, and the statistics by K version (R160, R176). -/
structure RowSt where
  tiles : List Tile
  margin : Nat := 0
  /-- Positions in the job of the keys in the margin set. -/
  marginKeys : List Nat := []
  capHit : Bool := false
  exact_ : Nat := 0
  code : Nat := 0
  /-- (K version or V version, counter, amount). -/
  stats : List (Nat × Nat × Nat) := []
  over_ : Bool := false

/-- The job's constants: beta, margin, cap, the centroids of each version, D, the thresholds. -/
structure JobK where
  beta : Dy
  delta : Dy
  cap : Nat
  d : Nat
  kcb : Tbl Nat (List Byte)
  vcb : Tbl Nat (List Byte)
  pol : CalibPolicy

/-- Scales every accumulator of a tile by a factor, each rounded in its format (R162, R164). -/
def Tile.scale (t : Tile) (f : Dy) : Tile :=
  let m48 := fun v => r48 (dyMul v f)
  { t with l := m48 t.l, c := m48 t.c, csC := m48 t.csC, csE := m48 t.csE, caE := m48 t.caE, acc := t.acc.map (fun v => r32 (dyMul v f))
           hist := t.hist.map (fun h => (h.1, h.2.map (fun r => r.map m48))), terms := t.terms.map (fun h => (h.1, dyMul h.2 f)) }

/-- The score error bound of one key, or of a row for its largest scale and residual (R170). -/
def epsOf (k : JobK) (q : QRow) (st kap xi : Dy) : Dy :=
  r32 (dyMul k.beta (dyAdd (dyMul (dyMul (dyMul q.qs (dyNat (k.d / 16))) st) kap) (dyMul q.nrm xi)))

/-- Sums accumulated in FP32, in order. -/
def sum32 (l : List Dy) : Dy := l.foldl (fun a v => r32 (dyAdd a v)) dyZero

/-- Whether any of some FP32 and FP48 results overflowed (R165). -/
def overs (f32 f48 : List Dy) : Bool := f32.any (dyOver fF32) || f48.any (dyOver fF48)

/-- One key of one row on a tile (R159 to R163). -/
def keyStep (k : JobK) (q : QRow) (tabs : Tbl Nat QTab) (pos : Nat) (y : Key) (row : RowSt) (i : Nat) : RowSt :=
  let t := row.tiles.getD i {}
  let bqs := dyMul k.beta q.qs
  let exScore := fun (_ : Unit) =>
    r32 (dyMul (dyMul bqs y.kScale) (dySub (sum32 (List.zipWith dyMul q.x y.kEx)) (dyMul q.qz (sum32 y.kEx))))
  let tb := (Tbl.get tabs y.kVer).getD { st := dyNat 1, tab := [] }
  let sint := (y.kCodes.mapIdx (fun j c => (tb.tab.getD j []).getD c 0)).foldl (· + ·) 0
  let sc := r32 (dyMul (dyMul bqs y.kScale) (dySub (dyMul tb.st (dyInt sint)) (dyMul q.qz y.kSum)))
  let run := if y.repr = 0 then t.run else some (match t.run with | none => sc | some m => dyMax m sc)
  let cand := decide (y.repr = 1) && decide (0 < k.cap) && (match run with | some m => dyLe (dySub m k.delta) sc | none => false)
  let joins := cand && decide (row.margin < k.cap)
  let exact_ := y.repr == 0 || joins
  let se := if exact_ then exScore () else dyZero
  let sco := if exact_ then se else sc
  let t0 := { t with run := run, ref := if t.any then t.ref else sco, any := true }
  let rescale := t.any && dyLt (dyNat 64) (dySub sco t0.ref)
  let t1 := if rescale then { t0.scale (exp2F (r32 (dySub t0.ref sco))) with ref := sco, rescaled := true } else t0
  let w0 := exp2F (r32 (dySub sco t1.ref))
  let w := if dyLt w0 (dyPow2 (-126)) then dyZero else w0
  let a := r32 (dyMul w y.vScale)
  let l := r48 (dyAdd t1.l w)
  let fma48 := fun (acc p q : Dy) => r48 (dyAdd acc (dyMul p q))
  let big := fun (l : List Dy) => l.foldl (fun m v => dyMax m (dyAbs v)) dyZero
  if exact_ then
    let acc := (List.range k.d).map (fun d => r32 (dyAdd (t1.acc.getD d dyZero) (dyMul a (y.vEx.getD d dyZero))))
    let csE := fma48 t1.csE a (dySum y.vEx)
    let caE := fma48 t1.caE a (dySum (y.vEx.map dyAbs))
    let t2 := { t1 with l := l, acc := acc, csE := csE, caE := caE, vmax := dyMax t1.vmax (r32 (dyMul y.vScale (big y.vEx)))
                        over_ := t1.over_ || overs ([se, a] ++ acc) [l, csE, caE] }
    let dist := dyAbs (dySub se sc)
    let stats := if joins then [(y.kVer, 0, 1), (y.kVer, 1, (dyFloor (dyMul dist (dyPow2 16))).toNat)] ++
      (if dyLt ⟨k.pol.distHi, -16⟩ dist then [(y.kVer, 2, 1)] else []) else []
    { row with tiles := row.tiles.set i t2, exact_ := row.exact_ + 1, margin := row.margin + b2n joins
               marginKeys := if joins then row.marginKeys ++ [pos] else row.marginKeys, stats := row.stats ++ stats }
  else
    let h := Tbl.at t1.hist y.vVer (List.replicate (k.d / 8) (List.replicate 256 dyZero))
    let h' := h.mapIdx (fun j bins => let c := y.vCodes.getD j 0; bins.set c (r48 (dyAdd (bins.getD c dyZero) a)))
    let c := r48 (dyAdd t1.c w)
    let csC := fma48 t1.csC a y.vSum
    let kx := r32 (dyMul y.kScale (dySqrt y.kRes))
    let vx := r32 (dyMul y.vScale (dySqrt y.vRes))
    let amax := big (((List.range (k.d / 8)).flatMap (fun j => (List.range 256).flatMap (centroid ((Tbl.get k.vcb y.vVer).getD []) j))))
    let t2 := { t1 with l := l, c := c, csC := csC, hist := Tbl.set t1.hist y.vVer h', terms := Tbl.updD t1.terms y.vVer dyZero (fun v => dyAdd v a)
                        kap := dyMax t1.kap y.kScale, xi := dyMax t1.xi kx, dv := dyMax t1.dv vx
                        vmax := dyMax t1.vmax (r32 (dyMul y.vScale (dyAdd amax (dySqrt y.vRes))))
                        over_ := t1.over_ || overs [sc, a] ([l, c, csC] ++ (h'.mapIdx (fun j bins => bins.getD (y.vCodes.getD j 0) dyZero))) }
    let stats := (if dyLt ⟨k.pol.epsHi, -16⟩ (epsOf k q tb.st y.kScale kx) then [(y.kVer, 3, 1)] else []) ++
      (if dyLt ⟨k.pol.dvHi, -16⟩ vx then [(y.vVer, 6, 1)] else [])
    { row with tiles := row.tiles.set i t2, code := row.code + 1, capHit := row.capHit || (cand && !joins), stats := row.stats ++ stats }

/-! ### The end step (R164, R167 to R171) -/

/-- A result row before it is laid out. -/
structure ResRow where
  any : Bool := false
  capHit : Bool := false
  rescaled : Bool := false
  exact_ : Nat := 0
  code : Nat := 0
  m : Dy := dyZero
  l : Dy := dyZero
  c : Dy := dyZero
  cs : Dy := dyZero
  csAbs : Dy := dyZero
  eps : Dy := dyZero
  vmax : Dy := dyZero
  dv : Dy := dyZero
  u : List Dy := []
  /-- The check of R169 that failed, if any. -/
  fail : Option Nat := none

/-- The tail mass C / L (R170). -/
def ResRow.tau (r : ResRow) : Dy := if r.l.m = 0 then dyZero else r32 (dyDiv r.c r.l)

/-- The bound on each output element's deviation (R170). -/
def ResRow.bound (r : ResRow) : Dy :=
  let t := r.tau
  r32 (dyAdd (dyAdd (dyMul (dyMul (dySub (exp2F (r32 (dyMul (dyNat 3) r.eps))) (dyNat 1)) t) r.vmax) (dyMul t r.dv)) (dyMul (dyPow2 (-18)) r.vmax))

/-- Merges a row's tiles, multiplies its histograms by the V codebooks and checks the row (R164, R168, R169). The order in which tiles are
added is open (R179; log 5). -/
def endRow (k : JobK) (q : QRow) (tabs : Tbl Nat QTab) (row : RowSt) (kap xi : Dy) : ResRow :=
  let ts := (sortBy (fun a b => decide (Config.mergeRank a.1 ≤ Config.mergeRank b.1)) (row.tiles.mapIdx (fun i t => (i, t)))).map (·.2) |>.filter (·.any)
  match ts with
  | [] => { exact_ := 0 }
  | t0 :: _ =>
    let m := ts.foldl (fun a t => dyMax a t.ref) t0.ref
    let sc := ts.map (fun t => t.scale (exp2F (r32 (dySub t.ref m))))
    let sum48 := fun (f : Tile → Dy) => sc.foldl (fun a t => r48 (dyAdd a (f t))) dyZero
    let vers := ((sc.flatMap (fun t => t.hist.map (·.1))).dedup)
    let hist := vers.map (fun v => (v, (List.range (k.d / 8)).map (fun j => (List.range 256).map (fun c =>
      sc.foldl (fun a t => r48 (dyAdd a (((Tbl.at t.hist v []).getD j []).getD c dyZero))) dyZero))))
    let cb := fun v => (Tbl.get k.vcb v).getD []
    let acc := (List.range k.d).map (fun d => sc.foldl (fun a t => r32 (dyAdd a (t.acc.getD d dyZero))) dyZero)
    let ocode := (List.range k.d).map (fun d => hist.foldl (fun a h => (List.range 256).foldl (fun a c =>
      r32 (dyAdd a (dyMul (r32 (((h.2.getD (d / 8) []).getD c dyZero))) ((centroid (cb h.1) (d / 8) c).getD (d % 8) dyZero)))) a) dyZero)
    let u := (List.range k.d).map (fun d => r32 (dyAdd (ocode.getD d dyZero) (acc.getD d dyZero)))
    let l := sum48 (·.l)
    let csC := sum48 (·.csC)
    let csum := fun v j c => r32 (dySum (centroid (cb v) j c))
    let cabs := fun v j c => r32 (dySum ((centroid (cb v) j c).map dyAbs))
    let path := dySum (hist.flatMap (fun h => (List.range (k.d / 8)).flatMap (fun j => (List.range 256).map (fun c => dyMul (((h.2.getD j []).getD c dyZero)) (csum h.1 j c)))))
    let absS := dySum (hist.flatMap (fun h => (List.range (k.d / 8)).flatMap (fun j => (List.range 256).map (fun c => dyMul (((h.2.getD j []).getD c dyZero)) (cabs h.1 j c)))))
    let csAbs := r48 (dyAdd absS (sum48 (·.caE)))
    let terms := vers.map (fun v => (v, dySum (sc.map (fun t => Tbl.at t.terms v dyZero))))
    let binBad := hist.any (fun h => h.2.any (fun bins => let want := Tbl.at terms h.1 dyZero
      dyLt (dyMul (dyPow2 (-30)) (dyAbs want)) (dyAbs (dySub (dySum bins) want))))
    let pathBad := dyLt (dyMul (dyPow2 (-20)) csAbs) (dyAbs (dySub path csC))
    let st := tabs.foldl (fun a t => dyMax a t.2.st) dyZero
    let eps := epsOf k q st kap xi
    let over_ := row.over_ || sc.any (·.over_) || overs (u ++ acc ++ ocode ++ [eps]) [l, csC, csAbs]
    { any := true, capHit := row.capHit, rescaled := ts.any (·.rescaled), exact_ := row.exact_, code := row.code, m := m, l := l, c := sum48 (·.c)
      cs := r48 (dyAdd csC (sum48 (·.csE))), csAbs := csAbs, eps := eps, vmax := ts.foldl (fun a t => dyMax a t.vmax) dyZero
      dv := ts.foldl (fun a t => dyMax a t.dv) dyZero, u := u
      fail := if over_ then some 4 else if binBad then some 1 else if pathBad then some 2 else none }

/-- A result row laid out: the header of R167 and the vector; final results are divided by L (R164). -/
def ResRow.bytes (r : ResRow) (d row : Nat) (final bf16 tailHigh : Bool) (layer head : Nat) : List Byte :=
  let dv := fun (v : Dy) => if final && r.l.m != 0 then r32 (dyDiv v r.l) else r32 v
  let vec := if !r.any then List.replicate (if bf16 then 2 * d else 4 * d) 0#8
    else r.u.flatMap (fun v => if bf16 then bytesOf 2 (encBF16 (dv v)) else bytesOf 4 (encF32 (dv v)))
  let h := [mkWord [(57, 7, row), (56, 1, b2n (!final)), (55, 1, b2n bf16), (54, 1, b2n r.capHit), (53, 1, b2n r.rescaled), (52, 1, b2n tailHigh),
      (26, 26, r.exact_), (0, 26, r.code)],
    mkWord [(32, 32, if r.any then encF32 r.m else 0xFF800000), (0, 32, encF32 r.l)], mkWord [(32, 32, encF32 r.c), (0, 32, encF32 r.tau)],
    mkWord [(32, 32, encF32 (dv r.cs)), (0, 32, encF32 (dv r.csAbs))],
    mkWord [(32, 32, if r.any then encF32 r.eps else 0), (0, 32, if r.any then encF32 r.bound else 0)],
    mkWord [(32, 32, encF32 r.vmax), (0, 32, encF32 r.dv)], mkWord [(54, 10, layer), (46, 8, head)]]
  bytesOfWords h ++ bytesOf 8 (crc64 (bytesOfWords h ++ vec)) ++ vec

/-- Whether a row's tail mass exceeds the warning level (R171). -/
def ResRow.tailHigh (r : ResRow) (warn : Nat) : Bool := warn != 0 && dyLt ⟨warn, -16⟩ r.tau

/-- floor(τ × 65,536), saturating (R150). -/
def ResRow.tauFix (r : ResRow) : Nat := sat 0xFFFF (dyFloor (dyMul r.tau (dyPow2 16))).toNat

/-! ### A whole job (R156, R157) -/

/-- A block a job attends: its descriptor address and fields, and the tokens attended. -/
structure JobBlock where
  da : Nat
  d : Desc
  t0 : Nat
  t1 : Nat

/-- Blocks grouped by version pair in order of each group's first block (R157). -/
def groupBlocks (bs : List JobBlock) : List JobBlock :=
  let ks := (bs.map (fun b => (b.d.kVer, b.d.vVer))).dedup
  let order := (bs.map (fun b => (b.d.kVer, b.d.vVer))).foldl (fun (acc : List (Nat × Nat)) k => if acc.contains k then acc else acc ++ [k]) []
  if ks.length ≤ 1 then bs else order.flatMap (fun k => bs.filter (fun b => (b.d.kVer, b.d.vVer) == k))

/-- What a job computes: its rows, the keys attended, the margin union, and statistics. -/
structure JobRes where
  rows : List ResRow
  keys : Nat
  union : Nat
  pairs : Nat
  stats : List (Nat × Nat × Nat)
  badScale : Bool

/-- Runs a job's rows over its blocks on n tiles (R157 to R164). -/
def State.runRows (s : State) (k : JobK) (qs : List QRow) (bs : List JobBlock) (n : Nat) : JobRes :=
  let order := groupBlocks bs
  let nrows := qs.length
  let per := if n < nrows then 1 else max 1 (n / max 1 nrows)
  let keys : List (Nat × Nat × Key) := (order.mapIdx (fun b x => (runOf x.t0 (x.t1 - 1)).map (fun t => (b, t, s.keyOf x.d t)))).flatten
  let keys := keys.mapIdx (fun i x => (x.1, i, x.2.2))
  let kvers := (keys.filter (fun x => x.2.2.repr != 0)).map (fun x => x.2.2.kVer) |>.dedup
  let rows := qs.map (fun q =>
    let tabs : Tbl Nat QTab := kvers.map (fun v => (v, buildTab q.x ((Tbl.get k.kcb v).getD []) k.d))
    let st := keys.foldl (fun (r : RowSt) x => keyStep k q tabs x.2.1 x.2.2 r (x.1 % per)) { tiles := List.replicate per { acc := List.replicate k.d dyZero } }
    (q, tabs, st))
  let mx := fun (f : Tile → Dy) (r : RowSt) => r.tiles.foldl (fun a t => dyMax a (f t)) dyZero
  let shared := fun (i : Nat) (f : Tile → Dy) =>
    (rows.mapIdx (fun j r => (j, r))).foldl (fun a j => if j.1 = i ∨ (n < nrows ∧ j.1 % max 1 n = i % max 1 n) then dyMax a (mx f j.2.2.2) else a) dyZero
  let out := rows.mapIdx (fun i r => endRow k r.1 r.2.1 r.2.2 (shared i (·.kap)) (shared i (·.xi)))
  { rows := out, keys := keys.length, union := ((rows.flatMap (fun r => r.2.2.marginKeys)).dedup).length, pairs := keys.length * nrows
    stats := rows.flatMap (fun r => r.2.2.stats), badScale := keys.any (fun x => !x.2.2.ok) }

end Sys2Proof.Machine
end

