-- ==== Sys2Proof/Machine/Attend.lean ====
section
/-! DEFINITION. The Attend commands (R147 to R182) and their preparation before dispatch (R135, R137, R138, R154, R224). -/

namespace Sys2Proof.Machine
open Sys2Proof

/-! ### Checks before dispatch (R151, R154, R155, R173) -/

/-- Fields of an Attend command that no context slot is needed to refuse (R10, R151, R173). -/
def attendFields (w : List Nat) : Bool :=
  let op := fld w 0 43 36
  if op = 3 then
    decide (fld w 4 63 59 < 2) || decide (16 < fld w 4 63 59) || fld w 4 58 52 == 0 || decide (64 < fld w 4 58 52) || (fld w 4 51 51 == 1 && fld w 4 50 50 == 1) ||
      !allZero w [(4, 33, 0), (5, 63, 0), (6, 63, 0), (7, 31, 0)]
  else
    let ss := decF32 (fld w 6 63 32)
    word w 2 % 64 != 0 || word w 3 % 64 != 0 || fld w 5 45 39 == 0 || decide (64 < fld w 5 45 39) || decide (4096 < fld w 5 27 15) ||
      (fld w 5 37 37 == 1 && fld w 5 36 36 == 1) || !((ss.map (fun x => decide (0 < x.m) && dyLe x (dyNat 65536))).getD false) || fld w 7 15 0 != 0 ||
      (op == 1 && (decide (fld w 4 31 0 < fld w 4 63 32) || fld w 5 14 0 != 0)) ||
      (op == 2 && (fld w 5 37 37 == 0 || fld w 5 14 0 == 0 || decide (16384 < fld w 5 14 0)))

/-- Bytes of query rows (R152). -/
def queryBytes (rows d fmt : Nat) : Nat := if fmt = 0 then rows * 2 * d else rows * (64 + ceilDiv d 64 * 64)
/-- Bytes of result rows (R167). -/
def resultBytes (rows d bf16 : Nat) : Nat := rows * (64 + (if bf16 = 1 then 2 * d else 4 * d))

/-- Whether a block may be attended for a request: its own, or the held request's of a handle it is attached to (R111, R155). -/
def State.mayAttend (s : State) (rid da : Nat) : Bool :=
  let owner := (s.desc da).req
  owner == rid || ((Tbl.get s.kv.attached rid).map (fun h => h / 2 ^ 16 == owner)).getD false

/-- The checks of an Attend command that its context slot's fields take part in, in the order of R181. -/
def State.attendCheck (s : State) (c : Cmd) (f : CtxFields) : Option Bad :=
  let w := c.op
  let d := f.headDim
  let rid := fld w 1 47 0
  let op := fld w 0 43 36
  let ep := fld w 6 31 0
  if op = 3 then
    let n := fld w 4 63 59 * resultBytes (fld w 4 58 52) d 0
    firstOf [(!s.covers c.vi (word w 2) n rRd, badRegion (word w 2)),
             (!s.covers c.vi (word w 3) (resultBytes (fld w 4 58 52) d (fld w 4 50 50)) rWr, badRegion (word w 3))]
  else
    let l := fld w 5 63 54
    let h := fld w 5 53 46
    let listOk := op != 2 || s.covers c.vi (word w 4) (8 * fld w 5 14 0) rRd
    let das := if op = 2 && listOk then s.listed (word w 4) (fld w 5 14 0) else []
    let r := s.req rid
    let hold := (r.map (·.holdEpoch)).getD 0
    firstOf [
      (decide (f.layers ≤ l) || decide (f.kvHeads ≤ h), badField),
      (das.any (fun da => addrNode da == s.node && ((s.desc da).layer != l || (s.desc da).head != h)), badField),
      (op == 1 && r.isSome && ep != 0 && decide (hold < ep), badField),
      (!s.covers c.vi (word w 2) (queryBytes (fld w 5 45 39) d (fld w 5 38 38)) rRd, badRegion (word w 2)),
      (!s.covers c.vi (word w 3) (resultBytes (fld w 5 45 39) d (fld w 5 36 36)) rWr, badRegion (word w 3)),
      (!listOk, badRegion (word w 4)),
      (!s.coversComp c.vi f.composition, (.violation, 0, 3)),
      (op == 2 && das.any (fun da => addrNode da != s.node || !s.mayAttend rid da), (.violation, (das.find? (fun da => addrNode da != s.node || !s.mayAttend rid da)).getD 0, 8)),
      (op == 1 && r.isNone, (.requestMoved, 0, 0)),
      (op == 1 && ep != 0 && decide (ep < hold), (.staleEpoch, 0, 0)),
      (op == 2 && das.any (fun da => decide (ep < (s.desc da).epoch)), (.staleEpoch, 0, 0))]

/-! ### Blocks a job needs before it runs (R137, R153, R154, R224) -/

/-- The block positions of an ATTEND's token range. -/
def attendRange (w : List Nat) (span : Nat) : List Nat :=
  (List.range (min (fld w 4 31 0 / 64 + 1) span)).filter (fun b => decide (fld w 4 63 32 / 64 ≤ b))

/-- Whether a pull of a block an ATTEND names still runs. -/
def State.pullsWaiting (s : State) (c : Cmd) : Bool :=
  let w := c.op
  s.own.pulls.any (fun p => p.1.1 == fld w 1 47 0 && p.1.2.1 == fld w 5 63 54 && p.1.2.2.1 == fld w 5 53 46 &&
    decide (fld w 4 63 32 / 64 ≤ p.1.2.2.2) && decide (p.1.2.2.2 ≤ fld w 4 31 0 / 64))

/-- Gives a node one more remote part of a command: an ATTEND_PARTIAL over a list of its blocks, with its deadline (R138, R154; the message has
no code: log 12). -/
def State.askPart (s : State) (cid : Nat) (c : Cmd) (r : Req) (node : Nat) (das : List Nat) : State :=
  (s.tell { dst := node, tc := s.tra.classes.getD 1 5, code := 0, req := fld c.op 1 47 0, epoch := r.holdEpoch, fields := c.op ++ das }).updCmd cid
    (fun c => { c with parts := Tbl.set c.parts node (s.now + (s.comp r.composition).pullDeadline), split := true })

/-- What one block of a job still needs before dispatch: a pull or a promotion is started, or its node is asked for a part; `none` says that no
slot could be claimed. The flag says that the job must wait (R137, R138, R154, R224). -/
def State.prepBlock (s : State) (rid l h b da : Nat) (r : Req) : Option (Bool × Option Nat × State) :=
  if Tbl.has s.own.pulls (rid, l, h, b) then some (true, none, s)
  else
    let away := addrNode da != s.node
    let m := s.comp r.composition
    if away || (s.desc da).st == dLost then
      if away && m.pullMode == 2 then some (false, some (addrNode da), s)
      else match s.startPull rid l h b none false m.pullDeadline 0 with
        | (true, t) => some (true, none, t)
        | (false, t) => if away then some (false, some (addrNode da), t) else none
    else if ((s.arenaOf da).map (·.tier)) != some 1 then
      if Tbl.has s.tier.migrations da then some (true, none, s) else (s.startMigration da 1 true false).map (fun t => (true, none, t))
    else some (false, none, s)

/-- Prepares the blocks of an ATTEND for dispatch: whether it must wait, the remote blocks by node, and the state; a claim without room ends
the command with ST_TIER_QUOTA. -/
def prepBlocks (cid rid l h : Nat) (r : Req) : List Nat → Bool → Tbl Nat (List Nat) → State → Except State (Bool × Tbl Nat (List Nat) × State)
  | [], w, far, s => .ok (w, far, s)
  | b :: bs, w, far, s =>
    let da := s.mapEntry r l h b
    if da = 0 then prepBlocks cid rid l h r bs w far s
    else match s.prepBlock rid l h b da r with
      | none => .error (s.finish cid .tierQuota 0)
      | some (w1, node, t) =>
        prepBlocks cid rid l h r bs (w || w1) (match node with | some n => Tbl.updD far n [] (fun x => x ++ [da]) | none => far) t

/-- Prepares a job's blocks: `true` once it may be dispatched. An ATTEND asks for its remote parts when nothing else is awaited; the listed
blocks of an ATTEND_PARTIAL are promoted where they lie in flash or SRAM (R154, R224). -/
def State.attendPrep (s : State) (cid : Nat) (c : Cmd) : Bool × State :=
  let w := c.op
  let rid := fld w 1 47 0
  match fld w 0 43 36, s.req rid with
  | 1, some r =>
    match prepBlocks cid rid (fld w 5 63 54) (fld w 5 53 46) r (attendRange w r.span) false [] s with
    | .error t => (false, t)
    | .ok (true, _, t) => (false, t)
    | .ok (false, far, t) => (true, far.foldl (fun u x => u.askPart cid c r x.1 x.2) t)
  | 2, _ =>
    (s.listed (word w 4) (fld w 5 14 0)).foldl (fun (acc : Bool × State) da =>
      if ((acc.2.arenaOf da).map (·.tier)) == some 1 then acc
      else if Tbl.has acc.2.tier.migrations da then (false, acc.2)
      else match acc.2.startMigration da 1 true false with
        | some t => (false, t)
        | none => (false, acc.2.finish cid .tierQuota 0)) (true, s)
  | _, _ => (true, s)

/-! ### The job (R147 to R172) -/

/-- The blocks of a job on this node, with the tokens of each it attends: rows committed at dispatch (R107, R153). -/
def State.jobBlocks (s : State) (c : Cmd) : List JobBlock :=
  let w := c.op
  let count := fun (da : Nat) => Tbl.at (c.snap.getD []) da (s.desc da).committed
  if fld w 0 43 36 = 2 then
    (s.listed (word w 4) (fld w 5 14 0)).map (fun da => { da := da, d := s.desc da, t0 := 0, t1 := count da })
  else
    match s.req (fld w 1 47 0) with
    | none => []
    | some r =>
      let h := fun b => s.mapEntry r (fld w 5 63 54) (fld w 5 53 46) b
      ((attendRange w r.span).filter (fun b => h b != 0 && addrNode (h b) == s.node)).map (fun b =>
        { da := h b, d := s.desc (h b), t0 := fld w 4 63 32 - 64 * b, t1 := min (fld w 4 31 0 + 1 - 64 * b) (count (h b)) })

/-- The first block that fails a check: its descriptor, or its first plane; an uncorrectable line counts as a plane that fails (R96, R172,
R229). -/
def State.blockFault (s : State) (bs : List JobBlock) : Option (Status × State) :=
  (bs.find? (fun b => !s.descOk b.da)).elim
    ((bs.find? (fun b => s.crcA b.d b.d.committed != b.d.crcA || (s.readFault b.d.slot (inUse b.d.repr (dimOf b.d.dim))).isSome)).map
      (fun b => (.planeCheck, s.planeFail b.da 1)))
    (fun b => some (.descCheck, s.descFail b.da))

/-- A partial record read back as a row; none where its `res_crc` fails or a value is not finite (R167, R174). -/
def ResRow.ofBytes (d : Nat) (bs : List Byte) : Option ResRow :=
  let w := wordsOf 8 bs
  let vec := (bs.drop 64).take (4 * d)
  let f := fun i hi lo => decF32 (fld w i hi lo)
  let none_ := fld w 1 63 32 == 0xFF800000
  if crc64 (bs.take 56 ++ vec) ≠ word w 7 then none else
  match (chunks 4 d vec).mapM (fun b => decF32 (valOf b)), if none_ then some dyZero else f 1 63 32, f 1 31 0, f 2 63 32, f 3 63 32, f 3 31 0 with
  | some u, some m, some l, some c, some cs, some ca =>
    some { any := !none_, capHit := fld w 0 54 54 == 1, rescaled := fld w 0 53 53 == 1, exact_ := fld w 0 51 26, code := fld w 0 25 0, m := m, l := l, c := c
           cs := cs, csAbs := ca, eps := (f 4 63 32).getD dyZero, vmax := (f 5 63 32).getD dyZero, dv := (f 5 31 0).getD dyZero, u := u }
  | _, _, _, _, _, _ => none

/-- The checksum of an unnormalised row (R168, R174). -/
def ResRow.sumOk (r : ResRow) : Bool :=
  dyLe (dyAbs (dySub (dySum r.u) r.cs)) (dyAdd (dyMul (dyPow2 (-12)) r.csAbs) (dyMul (dyPow2 (-23)) (dySum (r.u.map dyAbs))))

/-- Combines the parts of one row (R174), in the formats of R165. -/
def mergeRow (d : Nat) (ps : List ResRow) : ResRow :=
  let live := ps.filter (·.any)
  match live with
  | [] => {}
  | p0 :: _ =>
    let m := live.foldl (fun a p => dyMax a p.m) p0.m
    let fs := live.map (fun p => (exp2F (r32 (dySub p.m m)), p))
    let sum := fun (rnd : Dy → Dy) (g : ResRow → Dy) => fs.foldl (fun a x => rnd (dyAdd a (dyMul x.1 (g x.2)))) dyZero
    let u := (List.range d).map (fun i => sum r32 (fun p => p.u.getD i dyZero))
    let mx := fun (g : ResRow → Dy) => live.foldl (fun a p => dyMax a (g p)) dyZero
    let l := sum r48 (·.l)
    let c := sum r48 (·.c)
    let cs := sum r48 (·.cs)
    let ca := sum r48 (·.csAbs)
    { any := true, capHit := live.any (·.capHit), rescaled := live.any (·.rescaled), exact_ := (live.map (·.exact_)).sum, code := (live.map (·.code)).sum
      m := m, l := l, c := c, cs := cs, csAbs := ca, eps := mx (·.eps), vmax := mx (·.vmax), dv := mx (·.dv), u := u
      fail := if overs u [l, c, cs, ca] then some 4 else none }

/-- Lays out and writes result rows up to the first that failed its check (R167, R169). -/
def State.writeRows (s : State) (a d : Nat) (final bf16 : Bool) (warn layer head : Nat) (rows : List ResRow) : State :=
  let good := rows.takeWhile (fun r => r.fail.isNone)
  (good.mapIdx (fun i r => (i, r))).foldl (fun t x =>
    t.store (a + x.1 * (64 + (if bf16 then 2 * d else 4 * d))) (x.2.bytes d x.1 final bf16 (x.2.tailHigh warn) layer head)) s

/-- The largest tail mass of some rows, as R150 codes it. -/
def topTau (rows : List ResRow) : Nat := rows.foldl (fun a r => max a r.tauFix) 0

/-- Ends a job with its rows: a failed check, no key under a final result, a tail above the warning, or ST_OK (R169, R171, R174). -/
def State.endRows (s : State) (cid rid a d : Nat) (final bf16 : Bool) (warn layer head result : Nat) (rows : List ResRow) : State :=
  match (rows.mapIdx (fun i r => (i, r))).find? (fun x => x.2.fail.isSome) with
  | some x =>
    let die := dieMC (((Tbl.get s.work.cmds cid).map (·.inst)).getD 0)
    ((s.writeRows a d final bf16 warn layer head rows).raise0 .attendCheck die 0 [rid, layer, head, x.1, x.2.fail.getD 0]).finish cid .attendCheck 0
  | none =>
    if final && rows.any (fun r => !r.any) then s.finish cid .attendNoKeys 0
    else (s.writeRows a d final bf16 warn layer head rows).finish cid (if rows.any (·.tailHigh warn) then .attendTailHigh else .ok) result

/-- Lines a job reads: the code planes and scale records, or the BF16 rows, of committed rows, and two exact rows for each key of the margin
union (R172, R177). -/
def jobLines (d union : Nat) (bs : List JobBlock) : Nat :=
  (bs.map (fun b => let n := b.d.committed
    if b.d.repr = 0 then 2 * ceilDiv (2 * d * n) 64 else 2 * ceilDiv (n * d / 8) 64 + ceilDiv (n * d / 4) 64)).sum + 2 * union * ceilDiv d 64

/-- A job's events (R463). -/
def jobEvents (d lines : Nat) (res : JobRes) : List (Nat × Nat) :=
  let re := ((res.stats.filter (fun x => x.2.1 == 0)).map (·.2.2)).sum
  let ex := (res.rows.map (·.exact_)).sum
  let co := (res.rows.map (·.code)).sum
  [(0x0101, (re + co) * (d / 8)), (0x0102, co * (d / 8)), (0x0103, re * 2 * d), (0x0104, (ex - re) * 2 * d), (0x0106, res.pairs), (0x0107, re),
   (0x0108, (res.rows.filter (·.capHit)).length), (0x0109, lines)]

/-- The effects a job's counts have at its completion step (R176, R191). -/
def statPosts (ctx ek ev warn : Nat) (bs : List JobBlock) (res : JobRes) : List Post :=
  let coded := bs.filter (fun b => b.d.repr != 0)
  let kvs := (coded.map (fun b => b.d.kVer)).dedup
  let vvs := (coded.map (fun b => b.d.vVer)).dedup
  let n := fun (p : ResRow → Bool) => (res.rows.filter p).length
  res.stats.map (fun x => Post.stat ctx (if 6 ≤ x.2.1 then ev else ek) x.1 x.2.1 x.2.2) ++
    kvs.flatMap (fun v => [Post.stat ctx ek v 4 (n (·.capHit)), Post.stat ctx ek v 5 (n (·.tailHigh warn))]) ++
    vvs.map (fun v => Post.stat ctx ev v 7 (n (·.rescaled)))

/-- Runs the rows of a job over its local blocks, once its query rows and blocks are verified; what it computes, or how it ends. -/
def State.attendLocal (s : State) (c : Cmd) (ctx : Nat) (bs : List JobBlock) : Except (Status × State) JobRes :=
  let w := c.op
  let f := (s.ctx ctx).f
  let d := f.headDim
  let a := word w 2
  match s.readFault a (queryBytes (fld w 5 45 39) d (fld w 5 38 38)) with
  | some st => .error (st, s)
  | none =>
    match s.queryRows a (fld w 5 45 39) d (fld w 5 38 38) with
    | none => .error (.attendQuery, s)
    | some qs =>
      match s.blockFault bs with
      | some e => .error e
      | none =>
        let run := bs.filter (fun b => decide (b.t0 < b.t1))
        let ek := f.entry (fld w 5 63 54) (fld w 5 53 46) 0
        let ev := f.entry (fld w 5 63 54) (fld w 5 53 46) 1
        let cbs := fun e (vs : List Nat) => vs.dedup.map (fun v => (v, ((s.verObj ctx e v).getD []).drop 64))
        let k : JobK := { beta := r32 (dyMul ((decF32 (fld w 6 63 32)).getD dyZero) log2E), delta := ⟨fld w 5 35 28, -4⟩, cap := fld w 5 27 15, d := d
                          kcb := cbs ek (run.map (fun b => b.d.kVer)), vcb := cbs ev (run.map (fun b => b.d.vVer)), pol := s.calib f.composition }
        .ok (s.runRows k qs run (max 1 (s.tilesOf c.inst)))

/-- Bytes of blocks that lie on another die than the one that attends them: moved there first, and metered (R53, R68; log 16). -/
def stagedBytes (inst : Nat) (bs : List JobBlock) : Nat :=
  ((bs.filter (fun b => bits b.d.slot 45 43 != inst)).map (fun b => inUse b.d.repr (dimOf b.d.dim))).sum

/-- A job's blocks were read now (R222), and its details, events and statistics are kept for its completion step. -/
def State.attendNote (s : State) (cid ctx : Nat) (c : Cmd) (bs : List JobBlock) (res : JobRes) : State :=
  let w := c.op
  let f := (s.ctx ctx).f
  let lines := jobLines f.headDim res.union bs
  let posts := statPosts ctx (f.entry (fld w 5 63 54) (fld w 5 53 46) 0) (f.entry (fld w 5 63 54) (fld w 5 53 46) 1) (fld w 7 31 16) bs res
  let s1 : State := { s with tier := { s.tier with lastRead := bs.foldl (fun t b => Tbl.set t b.da s.now) s.tier.lastRead } }
  let tables := res.rows.length * ((bs.filter (fun b => b.d.repr != 0)).map (fun b => b.d.kVer)).dedup.length
  let s2 := s1.note cid ((0x0105, tables) :: jobEvents f.headDim lines res) lines (resultBytes res.rows.length f.headDim (fld w 5 36 36) / 64) res.pairs res.union
  (s2.meter f.composition (fun m => { m with movedBytes := m.movedBytes + stagedBytes c.inst bs })).updCmd cid (fun c => { c with effects := c.effects ++ posts })

/-- The result word of R150. -/
def attendResult (keys union : Nat) (rows : List ResRow) : Nat := mkWord [(32, 32, keys), (16, 16, sat 0xFFFF union), (0, 16, topTau rows)]

/-- Ends the wait for a remote part: its blocks are pulled and attended here; without room for one the command ends with ST_TIER_QUOTA (R138,
R154). -/
def State.replacePart (s : State) (cid node : Nat) : State :=
  match Tbl.get s.work.cmds cid with
  | none => s
  | some c =>
    let w := c.op
    let rid := fld w 1 47 0
    let s0 := s.updCmd cid (fun c => { c with parts := Tbl.del c.parts node })
    match s.req rid with
    | none => s0.finish cid .requestMoved 0
    | some r =>
      let l := fld w 5 63 54
      let h := fld w 5 53 46
      let mine := (attendRange w r.span).filter (fun b => let da := s.mapEntry r l h b; da != 0 && addrNode da == node)
      let (ok, t) := mine.foldl (fun (acc : Bool × State) b =>
        let (started, u) := acc.2.startPull rid l h b (some cid) false (s.comp r.composition).pullDeadline 0
        (acc.1 && started, u)) (true, s0)
      if ok then t else t.finish cid .tierQuota 0

/-- The rows of each remote part, checked as a merge checks them (R174); `error` names a node whose part does not verify. -/
def partRows (d n : Nat) (parts : List (Nat × List Byte)) : Except Nat (List (List ResRow)) :=
  parts.mapM (fun p =>
    let rows := (List.range n).map (fun i => ResRow.ofBytes d ((p.2.drop (i * (64 + 4 * d))).take (64 + 4 * d)))
    match rows.mapM id with
    | some rs => if rs.all (·.sumOk) then .ok rs else .error p.1
    | none => .error p.1)

/-- ATTEND runs: the local part and, once every remote part has come back, their merge, in the form the command asks for; a remote part outside
the Done class is replaced by pulls (R147 to R172, R154, R174). `remote` gives each part that came back: node, status and partial records. -/
def execAttend (cid : Nat) (remote : List (Nat × Nat × List Byte)) (s : State) : Out :=
  .next (s.whenLive fun s =>
    match s.running cid 2 1 with
    | none => s
    | some c =>
      let w := c.op
      let rid := fld w 1 47 0
      match s.req rid with
      | none => s.finish cid .requestMoved 0
      | some r =>
        let ctx := c.slot.getD r.ctxSlot
        let d := (s.ctx ctx).f.headDim
        let back := remote.filter (fun p => Tbl.has c.parts p.1)
        match back.find? (fun p => decide (4096 ≤ p.2.1)) with
        | some p => s.replacePart cid p.1
        | none =>
          if s.pullsWaiting c || c.parts.any (fun p => !back.any (fun q => q.1 == p.1)) then s
          else
            let bs := s.jobBlocks c
            let final := fld w 5 37 37 == 0
            let bf16 := fld w 5 36 36 == 1
            let l := fld w 5 63 54
            let h := fld w 5 53 46
            match s.attendLocal c ctx bs, partRows d (fld w 5 45 39) (back.map (fun p => (p.1, p.2.2))) with
            | .error (st, t), _ => t.finish cid st 0
            | .ok _, .error node => (s.updCmd cid (fun c => { c with parts := Tbl.del c.parts node })).finish cid .partialCheck 0
            | .ok res, .ok ps =>
              let s1 := s.attendNote cid ctx c bs res
              if res.badScale then (s1.raise0 .attendCheck (dieMC c.inst) 0 [rid, l, h, 0, 3]).finish cid .attendCheck 0
              else
                let rows := if ps.isEmpty then res.rows else res.rows.mapIdx (fun i x => mergeRow d ([x] ++ ps.map (fun p => p.getD i {})))
                let fails := res.rows.mapIdx (fun i x => { (rows.getD i {}) with fail := x.fail.orElse (fun _ => (rows.getD i {}).fail) })
                let far := (ps.map (fun p => ((p.head?).map (fun x => x.exact_ + x.code)).getD 0)).sum
                s1.endRows cid rid (word w 3) d final bf16 (fld w 7 31 16) l h (attendResult (res.keys + far) res.union rows) fails)

/-- ATTEND_PARTIAL runs over its list of blocks; rows of no key are written as partial rows (R155, R174). -/
def execAttendPartial (cid : Nat) (s : State) : Out :=
  .next (s.whenLive fun s =>
    match s.running cid 2 2 with
    | none => s
    | some c =>
      let w := c.op
      let rid := fld w 1 47 0
      let ctx := c.slot.getD 0
      let d := (s.ctx ctx).f.headDim
      let bs := s.jobBlocks c
      let l := fld w 5 63 54
      let h := fld w 5 53 46
      match s.attendLocal c ctx bs with
      | .error (st, t) => t.finish cid st 0
      | .ok res =>
        let s1 := s.attendNote cid ctx c bs res
        if res.badScale then (s1.raise0 .attendCheck (dieMC c.inst) 0 [rid, l, h, 0, 3]).finish cid .attendCheck 0
        else s1.endRows cid rid (word w 3) d false false (fld w 7 31 16) l h (attendResult res.keys res.union res.rows) res.rows)

/-- The index of the first part of which some row's header is not a partial FP32 one (R173). -/
def State.badForm (s : State) (a parts rows size : Nat) : Option Nat :=
  (List.range parts).find? (fun p => (List.range rows).any (fun r =>
    let w := s.rdWords (a + (p * rows + r) * size) 1
    fld w 0 56 56 == 0 || fld w 0 55 55 == 1))

/-- ATTEND_MERGE runs: the forms, then each part's check value and checksum, then the merge (R173, R174). -/
def execAttendMerge (cid : Nat) (s : State) : Out :=
  .next (s.whenLive fun s =>
    match s.running cid 2 3 with
    | none => s
    | some c =>
      let w := c.op
      let f := (s.ctx (c.slot.getD 0)).f
      let d := f.headDim
      let parts := fld w 4 63 59
      let n := fld w 4 58 52
      let size := 64 + 4 * d
      let a := word w 2
      match s.readFault a (parts * n * size) with
      | some st => s.finish cid st 0
      | none =>
        match s.badForm a parts n size with
        | some p => s.finish cid .invalidField (p * 2 ^ 32)
        | none =>
          match partRows d n ((List.range parts).map (fun p => (p, s.rd (a + p * n * size) (n * size)))) with
          | .error p => s.finish cid .partialCheck (p * 2 ^ 32)
          | .ok ps =>
            let rows := (List.range n).map (fun i => mergeRow d (ps.map (fun p => p.getD i {})))
            let h := s.rdWords a 8
            let s1 := s.note cid [] (parts * n * size / 64) (resultBytes n d (fld w 4 50 50) / 64) 0 0
            s1.endRows cid (fld w 1 47 0) (word w 3) d (fld w 4 51 51 == 0) (fld w 4 50 50 == 1) (fld w 4 49 34) (fld h 6 63 54) (fld h 6 53 46)
              (mkWord [(16, 16, parts), (0, 16, topTau rows)]) rows)

/-- A remote part that misses its deadline is replaced by pulling its blocks (R138, R154). -/
def execRemotePartDeadline (cid node : Nat) (s : State) : Out :=
  .next (s.whenLive fun s =>
    match Tbl.get s.work.cmds cid with
    | none => s
    | some c =>
      match Tbl.get c.parts node with
      | some t => if s.now < t ∨ c.outcome.isSome then s else s.replacePart cid node
      | none => s)

end Sys2Proof.Machine
end

