-- ==== Sys2Proof/Machine/Links.lean ====
section
/-! DEFINITION. Native links: flits, credits, training, lanes and width (R253 to R266). -/

namespace Sys2Proof.Machine
open Sys2Proof

/-! ### Receiving (R254, R255, R260) -/

/-- Acknowledges the flits before a place of the replay buffer. -/
def Port.ackTo (x : Port) (n : Nat) : Port :=
  { x with replay := x.replay.drop n, replayAt := x.replayAt.map (fun i => i - n) }

/-- Applies the acknowledgement of a flit: cumulative, or with `nak` a replay from the flit it names (R255, R256). -/
def Port.applyAck (x : Port) (f : Flit) : Port :=
  match x.replay with
  | [] => x
  | r :: _ =>
    let k := (f.ackSeq + 4096 - r.flit.seq) % 4096
    if f.nak then (if k < x.replay.length then { x.ackTo k with replayAt := some 0 } else x)
    else if k < x.replay.length then x.ackTo (k + 1) else x

/-- The count a partial credit total stands for: congruent, at or above the last one applied, and within the units in
transit (R260). -/
def TxPool.apply (t : TxPool) (total width : Nat) : TxPool :=
  let step := (total + 2 ^ width - t.returned % 2 ^ width) % 2 ^ width
  if step ≤ t.sent - t.returned then { t with returned := t.returned + step } else t

/-- Applies a pool's total on a port (R260). -/
def State.credit (s : State) (p pool total width : Nat) : State :=
  let t := Tbl.at (s.port p).tx pool {}
  let t' := t.apply total width
  let s := s.telSettle p (pool / 2)
  (s.updPort p (fun x => { x with tx := Tbl.upd x.tx pool (fun _ => t') })).bookMove qCredits (poolScope p pool 0) 1 0 (t'.returned - t.returned)

/-- A packet as the LK die passes it in: on an accelerator port the source is the port's configuration (R288). -/
def State.stampSource (s : State) (p : Nat) (q : Packet) : Packet :=
  let x := s.port p
  if x.partnerRole = 1 ∨ x.partnerRole = 0 then q
  else
    let r : Packet := { q with src := s.node, srcEp := x.cfg.endpoint.getD 0 }
    if q.crcOk then r.sealed else r

/-- Takes whole packets out of a VC's byte stream into the receive buffer; where no packet starts, the rest is filler
(R254, R259). -/
def arrive (p vc : Nat) : Nat → List Byte → State → State
  | 0, bs, s => s.updPort p (fun x => { x with part := Tbl.set x.part vc bs })
  | n + 1, bs, s =>
    if (wordsOf 1 bs).headD 0 >>> 60 = 0 then s.updPort p (fun x => { x with part := Tbl.del x.part vc }) else
    match Packet.take? bs with
    | none => s.updPort p (fun x => { x with part := Tbl.set x.part vc bs })
    | some (q, rest) =>
      let i := poolOf q
      let s1 := s.updPort p (fun x => { x with
        arrived := x.arrived ++ [s.stampSource p q]
        rx := Tbl.upd x.rx i (fun r => { r with occupied := r.occupied + q.units }) })
      arrive p vc n rest (s1.bookMove qCredits (poolScope p i 1) 0 1 q.units)

/-- A port receives a flit: it accepts it in order, or discards it and sends a NAK; the acknowledgement and the credit
total of an accepted flit, and of a sound IDLE flit, are applied (R255, R256, R260). -/
def execFlitReceive (port : Nat) (correctable : Bool) (f : Flit) (s : State) : Out :=
  .next (s.whenLive fun s =>
    let x := s.port port
    if x.st ≠ .active ∨ x.retraining ∨ x.cfg.mode ≠ 1 then s else
      let sound := correctable && f.crc == f.crcOf
      let idle := f.ftype == 0
      if !sound || (!idle && f.seq != x.rxSeq) then
        let s := s.unitEvent (portUnit port) 0x0807 (b2n !correctable) none
        if x.nak then s else s.updPort port (fun x => { x with nak := true, nakDue := true })
      else
        let unit := portUnit port
        let s0 := s.updPort port (fun x => { x.applyAck f with lastAccept := s.now })
        let s1 := (s0.unitEvent unit 0x0803 (b2n f.nak) none).closeSlots unit true (x.replay.length - (s0.port port).replay.length)
        let s2 := s1.credit port f.pool f.total 24
        if idle then s2 else
          let s3 := s2.updPort port (fun x => { x with rxSeq := (x.rxSeq + 1) % 4096, nak := false, nakDue := false })
          if f.ftype ≠ 1 then s3 else
            let part := Tbl.at (s3.port port).part f.vc []
            let bs := if part.isEmpty then (if f.firstUnit = 31 then [] else f.payload.drop (16 * f.firstUnit)) else part ++ f.payload
            if bs.isEmpty then s3 else arrive port f.vc 31 bs s3)

/-- A receiver still without the flit it asked for repeats its NAK every 4 µs (R255). -/
def execNakRepeatTimer (port : Nat) (s : State) : Out :=
  .next (s.whenLive fun s =>
    let x := s.port port
    if x.st = .active ∧ x.nak ∧ !x.nakDue ∧ x.nakAt + 4000 ≤ s.now then s.updPort port (fun x => { x with nakDue := true }) else s)

/-! ### Sending (R254, R256, R259, R260, R326) -/

/-- The header fields every outgoing flit carries anew: the acknowledgement or the NAK, and the total of the pool whose turn
it is (R255, R260). -/
def Port.stamp (x : Port) (f : Flit) : Flit :=
  ({ f with ackSeq := if x.nakDue then x.rxSeq else (x.rxSeq + 4095) % 4096, nak := x.nakDue, pool := x.flits % 16,
            total := (Tbl.at x.rx (x.flits % 16) {}).returned % 2 ^ 24 } : Flit).sealed

/-- Sends a flit: counted since ACTIVE, and a NAK it carries is no longer due. -/
def State.sendFlit (s : State) (p : Nat) (f : Flit) : State :=
  let s1 : State := { s with log := { s.log with flits := s.log.flits ++ [(p, f)] } }
  s1.updPort p (fun x => { x with flits := x.flits + 1, nakDue := false, nakAt := if x.nakDue then s.now else x.nakAt })

/-- The packet at the head of a class on a port, if it may start: its pool has the units and its gate lets it end, sent
from a unit of the flit on (R259, R326). -/
def State.startable (s : State) (p vc unit : Nat) : Option TxPkt :=
  match s.lnk.queue.find? (fun q => q.port == p && q.pkt.tc == vc) with
  | none => none
  | some q =>
    let x := s.port p
    let t := Tbl.at x.tx (poolOf q.pkt) {}
    let units := ceilDiv (48 + q.pkt.payload.length) 16
    if t.sent + q.pkt.units ≤ t.returned + t.size && s.gateFits p vc (ceilDiv (unit + units) 31 * x.flitPs) then some q else none

/-- Fills a DATA flit of a VC: bytes of the packet in progress, then further packets of the class that may start. The
answer is the bytes beyond the flit's end, the first unit at which a packet starts, and the packets that end. -/
def fillFlit (p vc : Nat) : Nat → List Byte → Option Packet → Nat → List Packet → State → (List Byte × Option Packet × Nat × List Packet × State)
  | 0, bs, cur, first, ends, s => (bs, cur, first, ends, s)
  | n + 1, bs, cur, first, ends, s =>
    if 496 < bs.length then (bs, cur, first, ends, s) else
      let ends := ends ++ cur.toList
      if bs.length = 496 then (bs, none, first, ends, s) else
        match s.startable p vc (bs.length / 16) with
        | none => (bs, none, first, ends, s)
        | some q =>
          let s1 := (s.dequeue q).linkMeter q.pkt (ceilDiv (48 + q.pkt.payload.length) 16 * (s.port p).flitPs / 31)
          let s2 := s1.updPort p (fun x => { x with tx := Tbl.upd x.tx (poolOf q.pkt) (fun t => { t with sent := t.sent + q.pkt.units }) })
          let s3 := s2.bookMove qCredits (poolScope p (poolOf q.pkt) 0) 0 1 q.pkt.units
          fillFlit p vc n (bs ++ q.pkt.bytes) (some q.pkt) (if first = 31 then bs.length / 16 else first) ends s3

/-- The arbiter index of an egress port. -/
def portArbiter (p : Nat) : Nat := 64 + p

/-- The VCs a port may serve now: a packet in progress, or a head that may start. -/
def State.readyVcs (s : State) (p : Nat) : List Nat :=
  (List.range 8).filter (fun v => Tbl.has (s.port p).cur v || (s.startable p v 0).isSome)

/-- Sends the next DATA flit of a VC (R254). -/
def State.sendData (s : State) (p vc : Nat) : State :=
  let c := Tbl.get (s.port p).cur vc
  let (bs, cur, first, ends, s1) := fillFlit p vc 32 ((c.map (·.1)).getD []) (c.map (·.2)) 31 [] s
  let x := s1.port p
  let f := x.stamp { ftype := 1, vc := vc, firstUnit := first, seq := x.txSeq, payload := padTo 496 (bs.take 496) }
  let s2 := s1.updPort p (fun x => { x with
    txSeq := (x.txSeq + 1) % 4096
    replay := x.replay ++ [{ flit := f, sends := 1, ends := ends }]
    cur := match cur with | some q => Tbl.set x.cur vc (bs.drop 496, q) | none => Tbl.del x.cur vc })
  s2.sendFlit p f

/-- The one's complement sum of 16-bit words in network order. -/
def onesSum : List Byte → Nat
  | a :: b :: r => let x := a.toNat * 256 + b.toNat + onesSum r; x % 65536 + x / 65536
  | [a] => a.toNat * 256
  | [] => 0

/-- The Ethernet FCS, the CRC-32 of IEEE 802.3 (R268; log 9). -/
def crc32 (bs : List Byte) : Nat :=
  let c := bs.foldl (fun (c : Nat) b => (List.range 8).foldl (fun (c : Nat) _ => if c % 2 = 1 then (c / 2) ^^^ 0xEDB88320 else c / 2) (c ^^^ b.toNat)) 0xFFFFFFFF
  c ^^^ 0xFFFFFFFF

/-- A frame with its FCS, from the open bits `v` of its entropies and tag, the port, the partner, the path, the shim and the packets (R268). -/
def ethBytes (v p : Nat) (c : PortCfg) (e : Partner) (path tc : Nat) (shim body : List Byte) : List Byte :=
  let len := 8 + shim.length + body.length
  let ips := bytesBE 16 (Config.portIp p).toNat ++ bytesBE 16 e.ipv6
  let ports := bytesBE 2 (0xC000 + path * 0x400 + bits v 25 16) ++ bytesBE 2 c.udpPort ++ bytesBE 2 len
  let sum := 65535 - onesSum (ips ++ bytesBE 4 len ++ bytesBE 4 17 ++ ports ++ bytesBE 2 0 ++ shim ++ body)
  let tag := match c.vlan with | some n => bytesBE 2 0x8100 ++ bytesBE 2 (bits v 29 26 * 2 ^ 12 + n) | none => []
  let frame := bytesBE 6 e.mac ++ bytesBE 6 (Config.portMac p).toNat ++ tag ++ bytesBE 2 0x86DD ++
    bytesBE 4 (6 * 2 ^ 28 + word c.dscp tc * 2 ^ 22 + path * 2 ^ 16 + bits v 15 0) ++ bytesBE 2 len ++ bytesBE 1 17 ++ bytesBE 1 64 ++ ips ++
    ports ++ bytesBE 2 (if sum = 0 then 65535 else sum) ++ shim ++ body
  frame ++ bytesOf 4 (crc32 frame)

/-- Sends a frame of a path to a partner: the shim carries its sequence number, the acknowledgement or the NAK, and the total of the pool whose
turn it is among the partner's (R260, R268, R269). -/
def State.ethFrame (s : State) (p n path seq : Nat) (ps : List Packet) : State :=
  let x := s.port p
  let e := Tbl.at x.partners n {}
  let w := Tbl.at e.paths path {}
  let tc := (ps.head?.map (·.tc)).getD 0
  let pool := e.frames % 16
  let body := ps.flatMap (fun q => bytesOfWords (q.head ++ [q.crc]) ++ q.payload)
  let shim := bytesOfWords [mkWord [(32, 32, seq), (0, 32, if w.nak then w.rxSeq else u32 (w.rxSeq + 2 ^ 32 - 1))],
    mkWord [(60, 4, x.version), (57, 3, tc), (56, 1, b2n w.nak), (51, 4, pool), (32, 19, (Tbl.at e.rx pool {}).returned), (28, 4, path), (0, 16, body.length)]]
  let (v, s1) := s.draw
  (s1.updPort p (fun y => { y with flits := y.flits + 1, partners := Tbl.upd y.partners n (fun z => { z with frames := z.frames + 1 }) })).gram x.cfg.udpPort p
    (ethBytes v p x.cfg e path tc shim body)

/-- One frame of an Ethernet-mode port: whole packets of one class, at most `mtu` - 64 bytes, on one path within its window
of 256 frames (R268, R269, R270). -/
def State.sendFrame (s : State) (p : Nat) : State :=
  let x := s.port p
  match s.lnk.queue.find? (fun q => q.port == p && s.gateFits p q.pkt.tc ((q.pkt.bytes.length + 146) * (if (portLanes p).length = 8 then 5 else 10))) with
  | none => s
  | some q =>
    match x.partners.find? (fun e => e.2.src == (q.pkt.dst, q.pkt.srcEp) || e.2.endpoint == q.pkt.srcEp) with
    | none => s
    | some (n, e) =>
      let w := Tbl.at e.paths q.pkt.path {}
      let t := Tbl.at e.tx (poolOf q.pkt) {}
      if w.out || decide (256 ≤ w.window.length) || decide (t.returned + t.size < t.sent + q.pkt.units) then s else
        let e' := { e with
          tx := Tbl.upd e.tx (poolOf q.pkt) (fun t => { t with sent := t.sent + q.pkt.units })
          paths := Tbl.set e.paths q.pkt.path { w with
            txSeq := u32 (w.txSeq + 1), window := w.window ++ [(w.txSeq, [q.pkt])], sentAt := if w.window.isEmpty then s.now else w.sentAt } }
        let s1 := ((s.unitEvent (portUnit p) 0x0801 1 none).dequeue q).linkMeter q.pkt ((q.pkt.bytes.length + 146) * (if (portLanes p).length = 8 then 5 else 10))
        let s2 := s1.updPort p (fun x => { x with partners := Tbl.set x.partners n e' })
        s2.ethFrame p n q.pkt.path w.txSeq [q.pkt]

/-- A flit time in which a port's waiting packets may not start: blocked by a closed gate, or by credit (R463). -/
def State.blockedTime (s : State) (p : Nat) : State :=
  let heads := (List.range 8).filterMap (fun vc => (s.queued p vc).head?)
  let shut := fun (q : TxPkt) => !(s.gatesForced p || bit (s.gates p).open_ q.pkt.tc)
  let s1 := if heads.any shut then s.unitEvent (portUnit p) 0x0804 1 none else s
  if heads.any (fun q => !shut q) then s1.unitEvent (portUnit p) 0x0805 1 none else s1

/-- A port transmits: a replay that is due, else a CONTROL flit, else a DATA flit of the VC the arbiter grants, else IDLE;
only IDLE while 1,024 flits are unacknowledged (R254, R256). An Ethernet-mode port sends its next frame. -/
def execFlitSend (port : Nat) (s : State) : Out :=
  .next (s.whenLive fun s =>
    let x := s.port port
    if x.st ≠ .active ∨ x.retraining then s
    else if x.cfg.mode = 2 then s.sendFrame port
    else
      match x.replayAt.bind (fun i => x.replay[i]?.map (fun r => (i, r))) with
      | some (i, r) =>
        let f := x.stamp r.flit
        let s1 := s.updPort port (fun x => { x with
          replay := x.replay.set i { r with sends := r.sends + 1 }, replayAt := if i + 1 < x.replay.length then some (i + 1) else none })
        ((s1.unitEvent (portUnit port) 0x0802 1 none).closeSlots (portUnit port) false 1).sendFlit port f
      | none =>
        if 1024 ≤ x.replay.length then s.sendFlit port (x.stamp {})
        else match x.control with
          | c :: cs =>
            let f := x.stamp { ftype := 2, seq := x.txSeq, ctl := c, payload := padTo 496 (Config.controlBytes c) }
            (s.updPort port (fun x => { x with control := cs, txSeq := (x.txSeq + 1) % 4096, replay := x.replay ++ [{ flit := f, sends := 1 }] })).sendFlit port f
          | [] =>
            let ptr := s.ptr (portArbiter port) 8
            match (rotate (List.range 8) (ptr % 8)).find? (s.readyVcs port).contains with
            | some vc => ((s.granted (portArbiter port) 8 vc).unitEvent (portUnit port) 0x0801 1 none).sendData port vc
            | none => (s.blockedTime port).sendFlit port (x.stamp {}))

/-! ### Fast retrain (R257) -/

/-- No flit accepted for 4 µs, or a flit sent nine times without acknowledgement, starts a fast retrain. -/
def execNoFlitTimeout (port : Nat) (s : State) : Out :=
  .next (s.whenLive fun s =>
    let x := s.port port
    if x.st = .active ∧ x.cfg.mode = 1 ∧ !x.retraining ∧ (x.lastAccept + 4000 ≤ s.now ∨ x.replay.any (fun r => decide (9 ≤ r.sends))) then
      s.retrain port
    else s)

/-- A fast retrain ends: credit totals are exchanged and the replay resumes; on failure, or as the third within 10 ms, the
port trains from EQUALIZE (R257, R260). -/
def execFastRetrainDone (port : Nat) (ok : Bool) (totals : List Nat) (s : State) : Out :=
  .next (s.whenLive fun s =>
    let x := s.port port
    if x.st ≠ .active ∨ !x.retraining then s
    else if !ok then s.leaveActive port 1 .equalize
    else if 3 ≤ x.retrains.length then s.leaveActive port 2 .equalize
    else
      let s1 := (List.range 16).foldl (fun t i => t.credit port i (word totals i) 32) s
      s1.updPort port (fun x => { x with
        retraining := false, lastAccept := s.now, nak := false, nakDue := false
        replay := x.replay.map (fun r => { r with sends := 1 }), replayAt := if x.replay.isEmpty then none else some 0 }))

/-! ### Training (R261 to R263) -/

/-- A state of the training begins. -/
def State.train (s : State) (p : Nat) (st : PortSt) : State := s.updPort p (fun x => { x with st := st, since := s.now })

/-- The partner's signal: the port enters EQUALIZE, at 224 Gb/s unless only 112 Gb/s is allowed (R261). -/
def execSignalDetect (port : Nat) (s : State) : Out :=
  .next (s.whenLive fun s =>
    let x := s.port port
    if x.st = .detect ∧ x.cfg.mode = 1 then
      (s.updPort port (fun x => { x with rate := if x.cfg.rate = 2 then 1 else 0, fecBack := false })).train port .equalize
    else s)

/-- Every 100 ms a port in DETECT makes another attempt (R261). -/
def execDetectRetryTimer (port : Nat) (s : State) : Out :=
  .next (s.whenLive fun s =>
    let x := s.port port
    if x.st = .detect ∧ x.detectAt + 100000000 ≤ s.now then s.updPort port (fun x => { x with detectAt := s.now }) else s)

/-- Lanes that failed equalisation enter hold-down; the port trains on the rest, or is in HOLD (R261, R264). -/
def State.equalized (s : State) (p : Nat) (failed : List Nat) : State :=
  let s1 := ((portLanes p).filter (fun k => failed.contains k && (s.lanesUp p).contains k)).foldl (fun t k => t.laneFail p k 5 false) s
  if (s1.bestSet p).isEmpty then s1.train p .hold
  else (s1.updPort p (fun x => { x with active := s1.bestSet p })).train p .fecLock

/-- Equalisation reaches its target (R261). -/
def execEqualizeComplete (port : Nat) (failed : List Nat) (s : State) : Out :=
  .next (s.whenLive fun s => if (s.port port).st = .equalize then s.equalized port failed else s)

/-- Codeword alignment and deskew: the port enters CAPS and sends its record (R253, R261, R262). -/
def execFecLockComplete (port : Nat) (s : State) : Out :=
  .next (s.whenLive fun s =>
    let x := s.port port
    if x.st = .fecLock then
      (s.train port .caps).control port ([1, 12, s.node, portBase port, portHalf port, 1, x.rate, x.active.length] ++ s.ownPools port ++ [1024, 1])
    else s)

/-- Whether a profile verifies and its fields lie in the ranges of R273. -/
def profileOk (w : List Nat) (linkVersion : Nat) : Bool :=
  let ver := fld w 0 63 56
  decide (w.length = 32) && word w 31 == crc64 (bytesOfWords (w.take 31)) &&
    (ver == 1 || (ver == 2 && linkVersion == 3)) && decide (1 ≤ fld w 0 55 40) && fld w 0 15 0 == 0 && decide (word w 1 ≤ 2 ^ 42) &&
    decide (fld w 0 39 32 < 4) && decide (fld w 0 31 24 < 4) && fld w 2 47 0 == 0 && word w 3 == 0 &&
    (if ver = 1 then fld w 2 63 48 == 0 else
      decide (fld w 2 63 48 ≤ 15) && (List.range (fld w 2 63 48)).all (fun i =>
        decide (1 ≤ fld w (4 + i) 63 56) && decide (3 ≤ fld w (4 + i) 55 52) && decide (fld w (4 + i) 55 52 ≤ 7) &&
        decide (4 ≤ fld w (4 + i) 51 48) && decide (fld w (4 + i) 51 48 ≤ 8) && fld w (4 + i) 45 0 == 0))

/-- A refused partner (R262): REFUSED with EV_PORT_DOWN and the reason. -/
def State.refusePort (s : State) (p reason : Nat) : State := (s.train p .refused).raise0 .portDown (lkOf p) 0 [portCode p, reason, 0, 0]

/-- The partner's record: loopback, a role not permitted, a foreign id and a bad profile are refused; the highest common
version is taken (R262, R263, R273). -/
def execCapsRecordReceive (port : Nat) (r : CapsRecord) (s : State) : Out :=
  .next (s.whenLive fun s =>
    let x := s.port port
    if x.st ≠ .caps then s
    else if r.node = s.node ∧ r.role = 1 then s.refusePort port 4
    else if !(bit x.cfg.roles (r.role - 1)) ∨ r.role = 0 ∨ (r.role = 1 ∧ 4096 ≤ r.node) then s.refusePort port 5
    else if r.versions &&& 12 = 0 then (s.train port .refused).raise0 .linkVersion (lkOf port) 0 [portCode port, r.versions]
    else
      let ver := if bit r.versions 3 then 3 else 2
      if ver = 2 ∧ portHalf port ≠ 0 then s.refusePort port 5
      else if r.role = 2 ∧ !profileOk r.profile ver then s.refusePort port 5
      else if ver = 2 ∧ x.rate = 0 then (s.updPort port (fun x => { x with rate := 1 })).train port .equalize
      else
        (s.updPort port (fun x => { x with
          version := ver, partner := if r.role = 1 then r.node else x.cfg.endpoint.getD 0, partnerRole := r.role
          partnerPools := r.pools, profile := r.profile })).train port .creditInit)

/-- The pools open with the advertised sizes and the port is ACTIVE (R259, R261). -/
def execCreditInitComplete (port : Nat) (s : State) : Out :=
  .next (s.whenLive fun s => if (s.port port).st = .creditInit then (s.openPools port).enterActive port else s)

/-- A training state exceeds its limit: EQUALIZE tries 112 Gb/s where allowed and then trains on the lanes that reached the
target; FEC_LOCK goes back once; CAPS and CREDIT_INIT return to DETECT (R261). A second FEC_LOCK failure also returns to
DETECT (log 9). -/
def execTrainingTimeout (port : Nat) (failed : List Nat) (s : State) : Out :=
  .next (s.whenLive fun s =>
    let x := s.port port
    let due := fun limit => decide (x.since + limit ≤ s.now)
    match x.st with
    | .equalize =>
      if !due 250000000 then s
      else if x.rate = 0 ∧ x.cfg.rate = 0 then (s.updPort port (fun x => { x with rate := 1 })).train port .equalize
      else s.equalized port failed
    | .fecLock =>
      if !due 1000000 then s
      else if x.fecBack then (s.updPort port (fun x => { x with fecBack := false, detectAt := s.now })).train port .detect
      else (s.updPort port (fun x => { x with fecBack := true })).train port .equalize
    | .caps => if due 100000 then (s.updPort port (fun x => { x with control := [], detectAt := s.now })).train port .detect else s
    | .creditInit => if due 10000 then (s.updPort port (fun x => { x with detectAt := s.now })).train port .detect else s
    | _ => s)

/-! ### Lanes (R264) and width (R266) -/

/-- A lane goes down: hold-down and EV_LANE_DOWN; the width falls at once, and the width master orders the largest set that
is left, a slave reports the lane. The reason is 1 signal, 2 clock recovery, 3 symbol errors, 4 deskew. -/
def execLaneDown (port lane reason : Nat) (s : State) : Out :=
  .next (s.whenLive fun s =>
    if !s.portExists port || !(s.lanesUp port).contains lane then s else
      let s1 := (s.laneFail port lane reason false).widthCheck port
      let x := s1.port port
      if x.st = .active ∧ x.active.contains lane then
        if s1.widthMaster port then s1.control port [2, laneMask (s1.bestSet port), (x.txSeq + 1) % 4096]
        else s1.control port [3, lane]
      else s1)

/-- A hold-down ends and the lane's 1 ms PRBS31 test begins (R264). -/
def execHoldDownExpiry (port lane : Nat) (s : State) : Out :=
  .next (s.whenLive fun s =>
    let g := globalLane port lane
    let l := s.lane g
    if s.portExists port && (portLanes port).contains lane && l.down && !l.testing && decide (l.holdUntil ≤ s.now) then
      s.updLane g (fun l => { l with testing := true })
    else s)

/-- A lane's test ends: back in service at a bit error rate of at most 10^-5, else down again as a further failure. A port in
HOLD trains again (R261, R264). -/
def execPrbsTestDone (port lane : Nat) (pass : Bool) (s : State) : Out :=
  .next (s.whenLive fun s =>
    let g := globalLane port lane
    if !(s.portExists port && (portLanes port).contains lane && (s.lane g).testing) then s
    else if !pass then s.laneFail port lane 6 true
    else
      let s1 := s.updLane g (fun l => { l with down := false, testing := false, upAt := s.now })
      if (s1.port port).st = .hold then s1.train port .equalize else s1)

/-- A lane in service for 300 s has its failure count reset (R264). -/
def execLaneServiceTimer (port lane : Nat) (s : State) : Out :=
  .next (s.whenLive fun s =>
    let g := globalLane port lane
    let l := s.lane g
    if s.portExists port && (portLanes port).contains lane && !l.down && decide (l.upAt + 300000000000 ≤ s.now) then
      s.updLane g (fun l => { l with j := 0, upAt := 0 })
    else s)

/-- Counts the packets in progress whose transmission a narrower width carries past their gate's close (R326, R347). -/
def State.widthOverruns (s : State) (p : Nat) : State :=
  (s.port p).cur.foldl (fun (t : State) e =>
    let ps := ceilDiv e.2.1.length 496 * (s.port p).flitPs
    let late := match closeOver e.1 s.now (s.gates p).oper (s.gates p).coming with
      | some x => decide (x * 1000 < s.now * 1000 + ps)
      | none => false
    if late && !s.gatesForced p then
      (t.updGates p (fun g => { g with overruns := Tbl.updD g.overruns e.1 0 (· + 1) })).telCount (1, p, e.1) (fun x => { x with overruns := x.overruns + 1 })
    else t) s

/-- Both ends switch to a lane set: EV_PORT_WIDTH with the capacities, and the replay resumes from the lowest unacknowledged
flit; below the minimum width the port leaves ACTIVE (R266). -/
def State.setWidth (s : State) (p : Nat) (set : List Nat) : State :=
  let x := s.port p
  let s1 := (s.settle (portUnit p)).updPort p (fun x => { x with active := set, widthAt := some s.now, replayAt := if x.replay.isEmpty then none else some 0 })
  let s2 := s1.raise0 .portWidth (lkOf p) 0 [portCode p, x.active.length, set.length, x.capacity, (s1.port p).capacity]
  if set.length < x.cfg.minWidth then s2.leaveActive p 3 .equalize
  else if set.length < x.active.length then s2.widthOverruns p else s2

/-- A WIDTH CONTROL flit takes effect: the width master's own choice is the largest aligned set in service; a slave follows the
set its partner names (R266). -/
def execWidthChange (port mask : Nat) (fromPartner : Bool) (s : State) : Out :=
  .next (s.whenLive fun s =>
    let x := s.port port
    let set := (portLanes port).filter (bit mask)
    if x.st ≠ .active ∨ x.cfg.mode ≠ 1 ∨ !laneSets.contains set ∨ !set.all (s.lanesUp port).contains ∨ set = x.active then s
    else if fromPartner then (if s.widthMaster port then s else s.setWidth port set)
    else if !s.widthMaster port ∨ (x.active.length < set.length ∧ ((x.widthAt.map (fun t => decide (s.now < t + 1000000000))).getD false)) then s
    else s.setWidth port set)

/-- A port with a returned lane rises to its largest set, at most once per second; the width master orders it (R266). -/
def execWidthRiseTimer (port : Nat) (s : State) : Out :=
  .next (s.whenLive fun s =>
    let x := s.port port
    let best := s.bestSet port
    if x.st = .active ∧ x.cfg.mode = 1 ∧ s.widthMaster port ∧ x.active.length < best.length ∧
        !((x.widthAt.map (fun t => decide (s.now < t + 1000000000))).getD false) then
      (s.control port [2, laneMask best, (x.txSeq + 1) % 4096]).setWidth port best
    else s)

end Sys2Proof.Machine
end

