-- ==== Sys2Proof/Machine/Ethernet.lean ====
section
/-! DEFINITION. Ports in Ethernet mode (R267 to R270). -/

namespace Sys2Proof.Machine
open Sys2Proof

/-- What a received frame holds, by the offsets of R268. -/
structure EthFrame where
  etherType : Nat
  nextHeader : Nat
  srcIp : Nat
  udpDst : Nat
  shim : List Nat
  body : List Byte
  udpOk : Bool

/-- A frame's headers, without its FCS; an 802.1Q tag shifts the offsets by 4 (R268). -/
def EthFrame.ofBytes (bs : List Byte) : EthFrame :=
  let tag := if valBE ((bs.drop 12).take 2) = 0x8100 then 4 else 0
  let at_ := fun off n => (bs.drop (off + tag)).take n
  let udp := (bs.drop (54 + tag)).take (valBE (at_ 58 2))
  { etherType := valBE (at_ 12 2), nextHeader := valBE (at_ 20 1), srcIp := valBE (at_ 22 16), udpDst := valBE (at_ 56 2),
    shim := wordsOf 2 (at_ 62 16), body := (bs.drop (78 + tag)).take (fld (wordsOf 2 (at_ 62 16)) 1 15 0)
    udpOk := onesSum (at_ 22 32 ++ bytesBE 4 udp.length ++ bytesBE 4 17 ++ udp) == 65535 }

/-- The whole packets of a frame's body. -/
def framePackets : Nat → List Byte → List Packet
  | 0, _ => []
  | n + 1, bs =>
    if bs.length < 48 then [] else
      let w := wordsOf 6 bs
      Packet.ofWords w ((bs.drop 48).take (carriedLen w)) :: framePackets n (bs.drop (48 + carriedLen w))

/-- Acknowledges the frames up to a sequence number, or before it with a NAK, whose resend begins at once (R269). -/
def EthPath.ack (w : EthPath) (seq : Nat) (nak : Bool) (now : Nat) : EthPath :=
  match w.window with
  | [] => w
  | (first, _) :: _ =>
    let k := sub32 seq first
    if nak then (if k < w.window.length then { w with window := w.window.drop k, sends := w.sends + 1, sentAt := now } else w)
    else if k < w.window.length then { w with window := w.window.drop (k + 1), sends := 0, sentAt := now } else w

/-- A newer 19-bit total by modular comparison (R269). -/
def TxPool.newer (t : TxPool) (total : Nat) : TxPool :=
  let step := (total + 2 ^ 19 - t.returned % 2 ^ 19) % 2 ^ 19
  if step < 2 ^ 18 ∧ step ≤ t.sent - t.returned then { t with returned := t.returned + step } else t

/-- Sends the frames of a path's window again (R269). -/
def State.resendWindow (s : State) (p n path : Nat) (w : EthPath) : State := w.window.foldl (fun t f => t.ethFrame p n path f.1 f.2) s

/-- An Ethernet-mode port receives a frame: a bad, fragmented or oversized frame is dropped and counted, a frame of no
partner entry is also logged, and an accepted one gives its packets in path order (R267 to R270). A control frame's
contents have no layout: it is accepted without further effect (log 9). -/
def execEthFrameReceive (port : Nat) (frame : List Byte) (fcsOk : Bool) (s : State) : Out :=
  .next (s.whenLive fun s =>
    let x := s.port port
    let f := EthFrame.ofBytes frame
    if x.st ≠ .active ∨ x.cfg.mode ≠ 2 then s
    else if f.etherType = 0x8808 then s.updPort port (fun x => { x with pauseFrames := x.pauseFrames + 1 })
    else if !fcsOk ∨ !f.udpOk ∨ f.nextHeader ≠ 17 ∨ f.etherType ≠ 0x86DD ∨ x.cfg.mtu + (if valBE ((frame.drop 12).take 2) = 0x8100 then 18 else 14) < frame.length ∨ f.udpDst ≠ x.cfg.udpPort then
      s.updPort port (fun x => { x with dropped := x.dropped + 1 })
    else
      match x.partners.find? (fun e => e.2.ipv6 == f.srcIp) with
      | none => (s.updPort port (fun x => { x with dropped := x.dropped + 1 })).violate 0 s.node 63 (f.srcIp % 2 ^ 64) 5 port 4
      | some (n, e) =>
        let path := fld f.shim 1 31 28
        let w0 := (Tbl.at e.paths path {}).ack (fld f.shim 0 31 0) (fld f.shim 1 56 56 == 1) s.now
        let s0 := if fld f.shim 1 56 56 = 1 then s.resendWindow port n path w0 else s
        let pool := fld f.shim 1 54 51
        let e0 := { e with tx := Tbl.upd e.tx pool (fun t => t.newer (fld f.shim 1 50 32)) }
        let inOrder := fld f.shim 0 63 32 == w0.rxSeq
        let w1 := if inOrder then { w0 with rxSeq := u32 (w0.rxSeq + 1), nak := false } else { w0 with nak := true }
        let ps := if inOrder && fld f.shim 1 55 55 == 0 then framePackets 64 f.body else []
        let stamped := ps.map (fun q =>
          let r : Packet := { q with src := e.src.1, srcEp := e.src.2 }
          if q.crcOk then r.sealed else r)
        let rx := ps.foldl (fun t q => Tbl.upd t (poolOf q) (fun r => { r with occupied := r.occupied + q.units })) e0.rx
        s0.updPort port (fun x => { x with
          arrived := x.arrived ++ stamped
          partners := Tbl.set x.partners n { e0 with rx := rx, paths := Tbl.set e0.paths path w1 } }))

/-- A path without acknowledgement for 50 µs sends again from its oldest frame; after eight resends it leaves service, its
packets go back to the spray stage, and its hold-down runs (R264, R269). -/
def execEthPathResendTimer (port partner path : Nat) (s : State) : Out :=
  .next (s.whenLive fun s =>
    match Tbl.get (s.port port).partners partner with
    | none => s
    | some e =>
      let w := Tbl.at e.paths path {}
      if w.window.isEmpty ∨ w.out ∨ s.now < w.sentAt + 50000 then s
      else if 8 ≤ w.sends then
        let j := if w.upAt ≠ 0 ∧ s.now < w.upAt + 300000000000 then min 8 (w.j + 1) else 0
        let w' := { w with window := [], sends := 0, out := true, j := j, holdUntil := s.now + 250000000 * 2 ^ j }
        let s1 := s.updPort port (fun x => { x with partners := Tbl.set x.partners partner { e with paths := Tbl.set e.paths path w' } })
        (pathWatch s s1).respray (w.window.flatMap (·.2))
      else
        let e' := { e with paths := Tbl.set e.paths path { w with sends := w.sends + 1, sentAt := s.now } }
        (s.updPort port (fun x => { x with partners := Tbl.set x.partners partner e' })).resendWindow port partner path w)

/-- A path's hold-down ends and the sender tries it again (R269). -/
def execEthPathHoldDownExpiry (port partner path : Nat) (s : State) : Out :=
  .next (s.whenLive fun s =>
    match Tbl.get (s.port port).partners partner with
    | none => s
    | some e =>
      let w := Tbl.at e.paths path {}
      if w.out ∧ w.holdUntil ≤ s.now then
        let e' := { e with paths := Tbl.set e.paths path { w with out := false, upAt := s.now } }
        pathWatch s (s.updPort port (fun x => { x with partners := Tbl.set x.partners partner e' }))
      else s)

/-- Auto-negotiation and link training end: the port is ACTIVE on all its lanes, with pools per partner (R267, R269). A
partner's pools have the sizes of the port's own until its control exchange says otherwise (log 9). -/
def execEthernetLinkUp (port : Nat) (s : State) : Out :=
  .next (s.whenLive fun s =>
    let x := s.port port
    if x.cfg.mode ≠ 2 ∨ x.st = .active ∨ x.st = .disabled ∨ !s.portExists port ∨ (s.lanesUp port).length ≠ (portLanes port).length then s else
      let own := s.ownPools port
      (s.updPort port (fun x => { x with
        active := portLanes port, rate := 2, version := 3, partnerRole := 3
        partners := Tbl.mapVals x.partners (fun _ e => { e with
          paths := [], frames := 0, tx := (List.range 16).map (fun i => (i, { size := word own i })), rx := (List.range 16).map (fun i => (i, { size := word own i })) }) })).enterActive port)

end Sys2Proof.Machine
end

