-- ==== Sys2Proof/Machine/Lease.lean ====
section
/-! DEFINITION. Leases, asserted and revoked holdings, orphan recovery, mirrors and home takeover (R116, R119 to R123,
R139 to R143). -/

namespace Sys2Proof.Machine
open Sys2Proof

/-! ### Leases -/

/-- Every 125 µs a holder renews its lease at each home whose requests it holds (R119, R122). -/
def execLeaseRenewTimer (home : Nat) (s : State) : Out :=
  .next (s.whenLive fun s =>
    let l := Tbl.at s.own.leases home {}
    let held := s.heldFor home
    if held.isEmpty || (l.sentAt != 0 && decide (s.now < l.sentAt + 125000)) then s else
      (s.setLease home { l with sentAt := s.now, revokesSeen := 0 }).tell
        (dirMsg home 0x10 0 0 0 [s.now, held.length, s.freeRecords] []))

/-- The home answers a renewal with the new expiry; after a lapse it first revokes every request it no longer credits to
the holder (R119, R122). A backup that has not taken over answers ST_RETRY_HOME_MOVING (R125). -/
def execLeaseRenew (h : MsgHdr) (sendTime heldCount freeRecords : Nat) (s : State) : Out :=
  .next (s.whenLive fun s =>
    let _ := heldCount
    if h.ver ≠ 1 then s
    else if s.own.dir.any (fun x => x.2.mirror && !x.2.acting && x.2.holder == h.src) && !(s.own.dir.any (fun x => x.2.here)) then
      s.refuse h 0x10 .retryHomeMoving
    else
      let l := Tbl.at s.own.homeLeases h.src {}
      let gone := if l.lapsed then l.revokes else []
      let s1 := gone.foldl (fun t rid =>
        t.tell (dirMsg h.src 0x15 rid (((t.entry rid).map (·.epoch)).getD 0) (((t.entry rid).map (·.mapEpoch)).getD 0) [] [])) s
      let exp := sendTime + s.own.leaseLen
      let s2 := s1.setHomeLease h.src { l with expiry := exp, lapsed := false, freeRecords := freeRecords, revokes := [] }
      s2.tell (dirMsg h.src 0x11 0 0 0 [exp, (s2.credited h.src).length, gone.length] []))

/-- The holder's lease is VALID again once the announced revokes have arrived; counts that differ in two exchanges in a
row send HOLD_LIST (R120, R122). -/
def execLeaseAck (h : MsgHdr) (expiry homeCount revokeCount : Nat) (s : State) : Out :=
  .next (s.whenLive fun s =>
    if h.ver ≠ 1 then s else
      let l := Tbl.at s.own.leases h.src {}
      let held := s.heldFor h.src
      let mis := if held.length = homeCount then 0 else l.mismatches + 1
      let s1 := s.setLease h.src { l with
        expiry := expiry, revokesDue := revokeCount, fenced := l.fenced && decide (l.revokesSeen < revokeCount)
        mismatches := if 2 ≤ mis then 0 else mis }
      if 2 ≤ mis then
        s1.tell (dirMsg h.src 0x16 0 0 0 [held.length] (bytesOfWords (held.flatMap (fun rid => [rid, ((s.req rid).map (·.holdEpoch)).getD 0]))))
      else s1)

/-- At expiry - g without a valid ack the lease is FENCED (R120). -/
def execLeaseFenceTimer (home : Nat) (s : State) : Out :=
  .next (s.whenLive fun s =>
    match Tbl.get s.own.leases home with
    | some l =>
      if l.expiry ≤ s.now + s.guard then s.setLease home { l with fenced := true }
      else s
    | none => s)

/-- At expiry + g the home marks a lease LAPSED, raises EV_LEASE_LAPSED, and every request of the holder is an orphan;
the lapse is a fault of each composition concerned until its orphans are settled (R121, R139, R442). -/
def execLeaseLapse (holder : Nat) (s : State) : Out :=
  .next (s.whenLive fun s =>
    match Tbl.get s.own.homeLeases holder with
    | some l =>
      if l.lapsed || decide (s.now < l.expiry + s.guard) then s else
        let rids := s.credited holder
        let s1 := s.setHomeLease holder { l with lapsed := true }
        let comps := (rids.filterMap (fun r => (s.entry r).map (·.composition))).dedup
        let s2 := comps.foldl (fun (t : State) c => (t.faultOf 3 holder c).2) s1
        rids.foldl State.orphan (s2.raise0 .leaseLapsed s.hubDie 0 [holder, rids.length])
    | none => s)

/-! ### Asserted and revoked holdings (R122, R123) -/

/-- The record by which a node can act as holder at an asserted epoch: the one it holds at that epoch, one claimed
for a pending offer, or a lingering image or a rebuilt record (R123, R140). -/
def State.assertable (s : State) (rid epoch : Nat) : Option Req :=
  let hs := s.hold rid
  match s.req rid with
  | some r => if r.holdEpoch = epoch ∨ r.holdEpoch = 0 then some r else none
  | none => match hs.offer.bind (fun o => if o.epoch = epoch then o.claimed else none) with
    | some r => some r
    | none => hs.lingering.map (·.1)

/-- The home receives HOLD_CONFIRM: a recovery ends with EV_ORPHAN_RECOVERED (R140, R144). -/
def execHoldConfirm (h : MsgHdr) (s : State) : Out :=
  .next (s.whenLive fun s => s.atHome h 0x13 fun e =>
    if e.holder ≠ h.src ∨ e.epoch ≠ h.epoch then s.refuse h 0x13 .staleEpoch
    else if e.recoveryStep = 0 then s.setEntry h.req { e with assertAt := none }
    else
      ((s.commitEntry h.req { e with recoveryStep := 0, assertAt := none, probe := none } []).bookReq e 5 4).raise0 .orphanRecovered
        s.hubDie 0 [h.req, e.recoveryStep, e.epoch, e.cRec])

/-- The home receives HOLD_NONE: the request is an orphan at once (R123, R139). -/
def execHoldNone (h : MsgHdr) (s : State) : Out :=
  .next (s.whenLive fun s => s.atHome h 0x14 fun e =>
    if e.holder ≠ h.src then s
    else (s.setEntry h.req { e with assertAt := none, recoveryStep := 0 }).orphan h.req)

/-- A stale claimant frees its record; commands held for the request, and later ones, complete with ST_STALE_EPOCH
(R123). -/
def execHoldRevoke (h : MsgHdr) (s : State) : Out :=
  .next (s.whenLive fun s =>
    if h.ver ≠ 1 then s else
      let s1 := (s.failHeld h.req .staleEpoch).freeReq h.req
      let s2 := s1.setHold h.req { s1.hold h.req with revoked := true, frozen := false, offer := none, grant := none }
      let l := Tbl.at s2.own.leases h.src {}
      let seen := l.revokesSeen + 1
      s2.setLease h.src { l with revokesSeen := seen, fenced := l.fenced && decide (seen < l.revokesDue) })

/-- The home answers a holder's list: HOLD_REVOKE for each request it credits elsewhere, HOLD_ASSERT for each credited
one the list lacks (R122). -/
def execHoldList (h : MsgHdr) (held : List (Nat × Nat)) (s : State) : Out :=
  .next (s.whenLive fun s =>
    if h.ver ≠ 1 then s else
      let mine := s.credited h.src
      let wrong := held.filter (fun x => !mine.contains x.1)
      let lack := mine.filter (fun rid => !(held.any (fun x => x.1 == rid)))
      let s1 := wrong.foldl (fun t x => t.tell (dirMsg h.src 0x15 x.1 (((t.entry x.1).map (·.epoch)).getD x.2) (((t.entry x.1).map (·.mapEpoch)).getD 0) [] [])) s
      lack.foldl (fun t rid => match t.entry rid with
        | some e => (t.setEntry rid { e with assertAt := some t.now }).tell
            (dirMsg h.src 0x12 rid e.epoch e.mapEpoch [e.receipts.length - 1] ((e.receipts.getLast?.map (·.chain)).getD []))
        | none => t) s1)

/-- A HOLD_ASSERT unanswered for 100 µs makes the request an orphan (R139). -/
def execHoldAssertTimeout (req : Nat) (s : State) : Out :=
  .next (s.whenLive fun s =>
    match s.entry req with
    | some e => (match e.assertAt with
      | some t => if t + 100000 ≤ s.now then (s.setEntry req { e with assertAt := none, recoveryStep := 0 }).orphan req else s
      | none => s)
    | none => s)

/-! ### Orphan recovery (R140, R141) -/

/-- Probes a candidate of the step being tried. -/
def State.probe (s : State) (rid : Nat) (e : DirEntry) (cand newHolder : Nat) : State :=
  (s.setEntry rid { e with probe := some (cand, s.now) }).tell
    (dirMsg cand 0x18 rid e.epoch e.mapEpoch [e.receipts.length - 1, newHolder] [])

/-- The live prefix handle a request is attached to. -/
def State.liveHandle (s : State) (rid : Nat) : Bool :=
  ((Tbl.get s.kv.attached rid).bind (fun hd => Tbl.get s.kv.handles hd)).any (fun x => !x.released && decide (s.now < x.expiry))

/-- The home tries the next orphan recovery step: the next candidate of step 1, a new holder, a prompt node that prefills
again from a live handle, or the end with ST_ORPHAN_LOST (R140). -/
def execOrphanRecoveryStep (req : Nat) (s : State) : Out :=
  .next (s.whenLive fun s =>
    match s.entry req with
    | none => s
    | some e =>
      if !e.here || e.probe.isSome || e.assertAt.isSome || e.recoveryStep == 0 then s
      else if e.recoveryStep = 1 then
        match e.candidates with
        | c :: cs => s.probe req { e with candidates := cs } c 0
        | [] => s.commitEntry req { e with recoveryStep := 2 } []
      else if e.recoveryStep = 2 then
        match s.choose (s.poolFor e) e.holder with
        | some b => s.probe req e b b
        | none => s.commitEntry req { e with recoveryStep := 3 } []
      else if e.recoveryStep = 3 then
        match (if s.liveHandle req then s.choose ((s.comp e.composition).mapAt e.mapEpoch).prompt e.holder else none) with
        | some b => s.probe req e b b
        | none => s.commitEntry req { e with recoveryStep := 4 } []
      else s.failReq req e .orphanLost 5)

/-- The verified committed count of one block at this node: its committed rows where descriptor and planes verify and the
descriptor's epoch does not exceed the lost holding's (R141). -/
def State.verifiedRows (s : State) (da epoch : Nat) : Nat :=
  let d := s.desc da
  if da ≠ 0 ∧ s.descOk da ∧ d.epoch ≤ epoch ∧ d.st ≠ dLost ∧ s.badPlane d = none then d.committed else 0

/-- The recovered count: the largest count such that, in every layer and head, each block below it verifies at some
reachable copy; `remote` lists rows that verify at other nodes (R141). -/
def State.cRec (s : State) (r : Req) (epoch : Nat) (remote : List (Nat × Nat × Nat × Nat)) : Nat :=
  let rows := fun (l h b : Nat) =>
    let far := (remote.filter (fun x => x.1 == l && x.2.1 == h && x.2.2.1 == b)).map (fun x => x.2.2.2)
    far.foldl max (s.verifiedRows (s.mapEntry r l h b) epoch)
  let upTo := fun (l h : Nat) => ((List.range r.span).foldl (fun (acc : Nat × Bool) b =>
    if acc.2 then (let n := rows l h b; (acc.1 + n, n == 64)) else acc) (0, true)).1
  ((minBy? id ((s.geom r).heads.map (fun x => upTo x.1 x.2))).getD 0)

/-- The step after a failed candidate: step 1 goes on to the next candidate, a later step fails. -/
def DirEntry.candidateFailed (e : DirEntry) : DirEntry :=
  { e with probe := none, recoveryStep := if e.recoveryStep = 1 then 1 else e.recoveryStep + 1 }

/-- The home receives a candidate's reply: "verified" with a count not below the newest receipt's issues a new epoch, a
RECOVER receipt and HOLD_ASSERT; any other reply fails the candidate (R117, R140, R141). -/
def execRecoverReply (h : MsgHdr) (result cRec : Nat) (s : State) : Out :=
  .next (s.whenLive fun s => s.atHome h 0x19 fun e =>
    match e.probe with
    | none => s
    | some (c, _) =>
      if c ≠ h.src then s
      else if result ≠ 0 ∨ cRec < e.receiptTokens ∨ e.epoch + 1 = 0xFFFFFFFF then s.setEntry h.req e.candidateFailed
      else
        let old := e.holder
        let (e1, s1) := s.newReceipt h.req { e with epoch := e.epoch + 1 } 2 old c cRec 0 (sha512 [])
        let e2 := { e1 with holder := c, prevHolder := old, probe := none, assertAt := some s.now, cRec := cRec, stateTime := s.now }
        let lost := Tbl.get s1.own.homeLeases old
        let s2 : State := match lost with
          | some l => s1.setHomeLease old { l with revokes := l.revokes ++ [h.req] }
          | none => s1
        let s3 : State := { s2 with own := { s2.own with homeLeases := Tbl.updD s2.own.homeLeases c { expiry := s.now + s.own.leaseLen } id } }
        s3.commitEntry h.req e2 [dirMsg c 0x12 h.req e2.epoch e2.mapEpoch [e2.receipts.length - 1] ((e2.receipts.getLast?.map (·.chain)).getD [])])

/-- A probe of step 1 not verified within 200 µs fails that candidate (R140). -/
def execRecoverProbeTimeout (req : Nat) (s : State) : Out :=
  .next (s.whenLive fun s =>
    match s.entry req with
    | some e => (match e.probe with
      | some (_, t) => if e.recoveryStep = 1 ∧ t + 200000 ≤ s.now then s.setEntry req e.candidateFailed else s
      | none => s)
    | none => s)

/-! ### Mirrors and takeover (R114, R116, R142) -/

/-- The backup stores a mirrored entry and receipt and answers MIRROR_ACK, within the limit of 4,194,304 entries (R114,
R116). -/
def execMirror (h : MsgHdr) (image receipt : List Nat) (receiptAddr : Nat) (s : State) : Out :=
  .next (s.whenLive fun s =>
    if h.ver ≠ 1 then s
    else if (s.entry h.req).isNone && decide (4194304 ≤ s.own.dir.length) then s.refuse h 0x1A .refusedCapacity
    else
      let old := ((s.entry h.req).map (·.receipts)).getD []
      let rs := if receiptAddr = 0 then old else
        let r := Receipt.ofWords receiptAddr receipt
        if old.any (fun x => x.index == r.index) then old else old ++ [r]
      (s.setEntry h.req { DirEntry.ofWords image with receipts := rs }).tell (dirMsg h.src 0x1B h.req h.epoch h.mapEpoch [] []))

/-- The home receives MIRROR_ACK and sends the messages that depended on the change (R116). -/
def execMirrorAck (h : MsgHdr) (s : State) : Out :=
  .next (s.whenLive fun s =>
    match s.entry h.req with
    | some e =>
      if h.ver ≠ 1 ∨ h.src ≠ e.backup ∨ e.mirrorWait = 0 then s
      else if e.mirrorWait = 1 then e.heldMsgs.foldl State.tell (s.setEntry h.req { e with mirrorWait := 0, heldMsgs := [] })
      else s.setEntry h.req { e with mirrorWait := e.mirrorWait - 1 }
    | none => s)

/-- The replacement for a failed backup: the next member above it that is neither the home nor down (R116). -/
def State.newBackup (s : State) (e : DirEntry) (failed : Nat) : Option Nat :=
  let down := Tbl.at s.prot.down (e.composition, e.mapEpoch) []
  nextAbove ((s.homeSet e).filter (fun n => n ≠ s.node && n ≠ failed && !down.contains n)) failed

/-- The home replaces a failed backup in every entry that named it: entries with waiting messages are mirrored first, the
others by the copy that follows; where no member can replace it, the held messages leave without a mirror (R116). -/
def execBackupReplace (failed : Nat) (s : State) : Out :=
  .next (s.whenLive fun s =>
    let mine := s.own.dir.filter (fun x => x.2.here && x.2.backup == failed && failed != s.node)
    if mine.isEmpty then s else
      let s1 := mine.foldl (fun t x =>
        match s.newBackup x.2 failed with
        | some b =>
          let e := { x.2 with backup := b, mirrorWait := if x.2.heldMsgs.isEmpty then 0 else 1 }
          if x.2.heldMsgs.isEmpty then t.setEntry x.1 e else (t.setEntry x.1 e).tell (e.mirrorMsg x.1)
        | none => x.2.heldMsgs.foldl State.tell (t.setEntry x.1 { x.2 with backup := s.node, mirrorWait := 0, heldMsgs := [] })) s
      match (mine.filterMap (fun x => s.newBackup x.2 failed)).head? with
      | some b => { s1 with own := { s1.own with mirrorCopy := some { backup := b, entries := mine.map (·.1), startAt := s.now } } }
      | none => s1)

/-- The copy of all entries and receipts to a new backup ends (R116, R142): each is sent, and EV_HOME_MIRROR_DONE names
the backup and the counts. -/
def execHomeMirrorCopyDone (s : State) : Out :=
  .next (s.whenLive fun s =>
    match s.own.mirrorCopy with
    | none => s
    | some c =>
      let es := c.entries.filterMap (fun rid => (s.entry rid).map (fun e => (rid, e)))
      let s1 := es.foldl (fun t x => t.tell (x.2.mirrorMsg x.1)) s
      let n := (es.map (fun x => x.2.receipts.length)).sum
      ({ s1 with own := { s1.own with mirrorCopy := none } } : State).raise0 .homeMirrorDone s.hubDie 0 [c.backup, es.length, n])

/-- A backup whose home has missed two croaks and does not answer a load takes over: entries become acting, leases run
anew, leaps abort with reason 5, and holders whose last change was a leap commit are asserted (R142). -/
def execHomeTakeover (failed : Nat) (s : State) : Out :=
  .next (s.whenLive fun s =>
    let mine := s.own.dir.filter (fun x => x.2.mirror && !x.2.acting && (Tbl.at s.own.acting (reqHome x.1) (reqHome x.1) == failed))
    let lost := ((Tbl.get s.adh.watched failed).map (·.lost)).getD false
    let dead := ((Tbl.get s.fab.peers failed).map (·.dead)).getD false
    if !(lost && dead) || mine.isEmpty then s else
      let holders := (mine.map (fun x => x.2.holder)).dedup
      let exp := s.now + s.own.leaseLen
      let s1 : State := { s with own := { s.own with
        acting := Tbl.set s.own.acting failed s.node
        homeLeases := holders.foldl (fun t n => Tbl.updD t n {} (fun l => { l with expiry := exp, lapsed := false })) s.own.homeLeases } }
      let backup := (mine.head?.bind (fun x => nextAbove ((s.homeSet x.2).filter (fun n => n ≠ s.node && n ≠ failed)) s.node)).getD s.node
      let s2 := mine.foldl (fun t x => t.setEntry x.1 { x.2 with acting := true, mirror := false, backup := s.node }) s1
      let leaping := mine.filter (fun x => x.2.st == .leaping)
      let s3 := leaping.foldl (fun t x => match t.entry x.1 with | some e => t.abortLeap x.1 e 5 | none => t) s2
      let moved := mine.filter (fun x => x.2.st != .leaping && (x.2.receipts.getLast?.map (fun r => r.kind == 1 && r.time == x.2.stateTime)).getD false)
      let s4 := moved.foldl (fun t x => match t.entry x.1 with
        | some e => (t.setEntry x.1 { e with assertAt := some t.now }).tell
            (dirMsg e.holder 0x12 x.1 e.epoch e.mapEpoch [e.receipts.length - 1] ((e.receipts.getLast?.map (·.chain)).getD []))
        | none => t) s3
      let s5 := s4.raise0 .homeTakeover s.hubDie 0 [failed, mine.length, leaping.length]
      let s6 := mine.foldl (fun t x => match t.entry x.1 with | some e => t.setEntry x.1 { e with backup := backup } | none => t) s5
      if backup = s.node then s6
      else { s6 with own := { s6.own with mirrorCopy := some { backup := backup, entries := mine.map (·.1), startAt := s.now } } })

end Sys2Proof.Machine
end

