-- ==== Sys2Proof/Machine/LineOps.lean ====
section
/-! DEFINITION. Line operations, bulk packets and register writes as they arrive at their target (R61 to R63, R70, R286 to
R294, R314). -/

namespace Sys2Proof.Machine
open Sys2Proof

/-- A request packet of a type at the hub; a packet of another type is not this command's. -/
def State.receiveAs (s : State) (t : PktType) (port : Nat) (p : Packet) : State :=
  if p.ty = t ∧ !p.resp then s.receive port p else s

/-- A LOAD arrives and its line is returned (R289, R290). -/
def execLoad (port : Nat) (p : Packet) (s : State) : Out := .next (s.whenLive fun s => s.receiveAs .load port p)
/-- A STORE arrives: its enabled bytes are written and it is answered once visible (R289, R290). -/
def execStore (port : Nat) (p : Packet) (s : State) : Out := .next (s.whenLive fun s => s.receiveAs .store port p)
/-- A STORE_FLAG arrives at its target, or is held at its source behind earlier writes (R289, R294). -/
def execStoreFlag (port : Nat) (p : Packet) (s : State) : Out := .next (s.whenLive fun s => s.receiveAs .storeFlag port p)
/-- A CAS compares the line and writes the new one on equality (R289). -/
def execCas (port : Nat) (p : Packet) (s : State) : Out := .next (s.whenLive fun s => s.receiveAs .cas port p)
/-- A FETCH_ADD adds to a word and returns the line before (R289). -/
def execFetchAdd (port : Nat) (p : Packet) (s : State) : Out := .next (s.whenLive fun s => s.receiveAs .fetchAdd port p)
/-- A SWAP writes the line and returns the old one (R289). -/
def execSwap (port : Nat) (p : Packet) (s : State) : Out := .next (s.whenLive fun s => s.receiveAs .swap port p)
/-- A WRITE writes whole lines (R286). -/
def execWrite (port : Nat) (p : Packet) (s : State) : Out := .next (s.whenLive fun s => s.receiveAs .write port p)
/-- A READ returns whole lines (R286). -/
def execRead (port : Nat) (p : Packet) (s : State) : Out := .next (s.whenLive fun s => s.receiveAs .read port p)

/-- A held STORE_FLAG: it fails with ST_FLAG_ORDER if a write it waited for failed, and leaves once every write it waited for
has its response (R294). -/
def execStoreFlagRelease (flag : Nat) (s : State) : Out :=
  .next (s.whenLive fun s =>
    match Tbl.get s.fab.flags flag with
    | none => s
    | some h =>
      let s1 : State := { s with fab := { s.fab with flags := Tbl.del s.fab.flags flag } }
      if h.failed then s1.refusePkt h.pkt .flagOrder
      else if h.waits.any (fun t => Tbl.has s.fab.out (h.pkt.dst, t)) || h.moves.any (fun m => Tbl.has s.work.cmds m) then s
      else if s.unreachable h.pkt.dst then (s1.deadFail h.pkt.dst h.pkt false).refusePkt h.pkt .targetDead
      else s1.sendReq h.pkt .endpoint (some h.pkt))

/-- Whether an address lies in the doorbells of a VI page (R61). -/
def isDoorbell (a : Nat) : Bool :=
  addrSpace a == 4 && decide (addrOff a < 0x1000000) && decide (0x2000 ≤ addrOff a % 0x10000) && decide (addrOff a % 0x10000 < 0x3800)

/-- Whether a packet is a store. -/
def isStore (p : Packet) : Bool := !p.resp && [PktType.store, .storeFlag].contains p.ty

/-- A store to a queue's doorbell: both hubs judge its two indices (R70 to R72). -/
def execDoorbellStore (p : Packet) (s : State) : Out :=
  .next (s.whenLive fun s => if isStore p && isDoorbell p.addr then s.receive 0xFF p else s)

/-- A store to the line that holds `fmt_select` (R62, R63). -/
def execFmtSelectWrite (p : Packet) (s : State) : Out :=
  .next (s.whenLive fun s =>
    if isStore p && addrSpace p.addr == 4 && decide (addrOff p.addr < 0x1000000) && addrOff p.addr % 0x10000 == 0 then s.receive 0xFF p else s)

/-- Whether an address is a mailbox's request header line, in a page or in the mailbox space (R61, R393). -/
def isHeaderLine (a : Nat) : Bool :=
  (addrSpace a == 5 && addrOff a % 0x1000 / 64 == 0) ||
  (addrSpace a == 4 && decide (addrOff a < 0x1000000) && decide (0xC000 ≤ addrOff a % 0x10000) && addrOff a % 0x1000 / 64 == 0)

/-- A store to a mailbox's request header: Adeah accepts it, or it is discarded and counted (R394, R395). -/
def execMailboxHeaderStore (p : Packet) (s : State) : Out :=
  .next (s.whenLive fun s => if isStore p && isHeaderLine p.addr then s.receive 0xFF p else s)

/-- Whether an address lies in the trigger counters (R314). -/
def isCounter (a : Nat) : Bool := addrSpace a == 4 && decide (0x1000000 ≤ addrOff a)

/-- A store of mask 0xFF sets a trigger counter (R314); arms it reaches fire (R317). -/
def execTriggerCounterStore (p : Packet) (s : State) : Out :=
  .next (s.whenLive fun s => if isStore p && isCounter p.addr then s.receive 0xFF p else s)

/-- A FETCH_ADD adds to a trigger counter (R314). -/
def execTriggerCounterFetchAdd (p : Packet) (s : State) : Out :=
  .next (s.whenLive fun s => if p.ty = .fetchAdd ∧ !p.resp ∧ isCounter p.addr then s.receive 0xFF p else s)

/-- A store to any other line of the register space: read-only and reserved words keep their values (R9, R10, R61, R62). -/
def execRegisterWriteOther (p : Packet) (s : State) : Out :=
  .next (s.whenLive fun s =>
    if isStore p && addrSpace p.addr == 4 && !isDoorbell p.addr && !isHeaderLine p.addr && !isCounter p.addr &&
        addrOff p.addr % 0x10000 != 0 then s.receive 0xFF p else s)

end Sys2Proof.Machine
end

