-- ==== Sys2Proof/Machine/Search.lean ====
section
/-! DEFINITION. Retrieval search: SEARCH, INSERT, DELETE, corrections, merges, mirrors and the operations on indexes (chapter 13). Where the manual
gives FP32 results of several terms, the exact value is rounded once (log 27). -/

namespace Sys2Proof.Machine
open Sys2Proof

/-! ### The parts of an index (R369 to R374) -/

/-- Bits of a sketch. -/
def Index.skBits (x : Index) : Nat := if x.wide then 960 else 448
/-- Where the side list starts. -/
def Index.sideBase (x : Index) : Nat := x.itemBase + 32 * x.itemMax
/-- Where the projection matrix starts. -/
def Index.projBase (x : Index) : Nat := x.vecTab + 2 * x.dim * x.nlist
/-- Where a slot of the vector arena lies (R374). -/
def Index.slotAt (x : Index) (slot : Nat) : Nat := x.vecBase + slot * (2 * x.dim + 64)
/-- Where an item's table entry lies. -/
def Index.itemAt (x : Index) (i : Nat) : Nat := x.itemBase + 32 * (i - 1)

/-- An index of this node. -/
def State.index (s : State) (i : Nat) : Option Index := (Tbl.get s.srch.indexes i).filter (fun x => x.destroyOp.isNone)
/-- Changes an index. -/
def State.updIndex (s : State) (i : Nat) (f : Index → Index) : State := { s with srch := { s.srch with indexes := Tbl.upd s.srch.indexes i f } }

/-- An item's table entry, its four words (R372). -/
def State.item (s : State) (x : Index) (i : Nat) : List Nat := s.rdWords (x.itemAt i) 4
/-- The `cluster` field of an item in the side list. -/
def inSide : Nat := 0x1FFFF

/-- A record: its item, its sequence and its sketch (R371). -/
structure Rec where
  item : Nat
  seq : Nat
  sketch : Nat

/-- A record of its bytes. -/
def Rec.ofBytes (bs : List Byte) : Rec :=
  let n := bs.length - 8
  { item := valOf ((bs.drop n).take 4), seq := valOf ((bs.drop (n + 4)).take 4), sketch := valOf (bs.take n) }
/-- The bytes of a record of a length. -/
def Rec.bytes (r : Rec) (len : Nat) : List Byte := bytesOf (len - 8) r.sketch ++ bytesOf 4 r.item ++ bytesOf 4 r.seq

/-- A vector of BF16 values. -/
def vecOf (d : Nat) (bs : List Byte) : List Dy := (bf16s d bs).getD (List.replicate d dyZero)
/-- The dot product, exactly. -/
def dotDy (a b : List Dy) : Dy := dySum (List.zipWith dyMul a b)

/-- The sketch of a vector: bit b tells whether row b of the projection matrix has a dot product of at least zero with it (R371). -/
def State.sketchOf (s : State) (x : Index) (v : List Dy) : Nat :=
  ((List.range x.skBits).map (fun b =>
    if dyLe dyZero (r32 (dotDy (vecOf x.dim (s.rd (x.projBase + b * 2 * x.dim) (2 * x.dim))) v)) then 2 ^ b else 0)).sum

/-- Bits in which two sketches of a width differ. -/
def hamming (n a b : Nat) : Nat := ((List.range n).filter (fun i => a.testBit i != b.testBit i)).length

/-- A base as a search sees it: centroid entries and vectors by number, and the side list (R387). -/
structure Base where
  cent : Nat → List Nat
  vec : Nat → List Dy
  side : List Byte

/-- The base of a generation: the current one, or an old one that is kept (R378, R387). -/
def State.baseOf (s : State) (x : Index) (gen : Nat) : Base :=
  match (if gen = x.baseGen then none else x.olds.find? (fun o => o.gen == gen)) with
  | some o => { cent := fun c => wordsOf 8 ((o.cents.drop (64 * c)).take 64), vec := fun c => vecOf x.dim ((o.vecs.drop (2 * x.dim * c)).take (2 * x.dim)), side := o.side }
  | none => { cent := fun c => s.rdWords (x.centBase + 64 * c) 8, vec := fun c => vecOf x.dim (s.rd (x.vecTab + c * 2 * x.dim) (2 * x.dim)),
              side := s.rd x.sideBase (x.recLen * x.sideCount) }

/-- The edges of a centroid entry. -/
def centNbrs (w : List Nat) : List Nat := (List.range (min 16 (fld w 2 36 32))).map (fun i => fld w (3 + i / 4) (16 * (i % 4) + 15) (16 * (i % 4)))

/-- A centroid entry with its check value over its vector (R373). -/
def mkCent (seg n norm st : Nat) (nbrs : List Nat) (vec : List Byte) : List Nat :=
  let ws := [seg, mkWord [(32, 32, n), (0, 32, norm)], mkWord [(62, 2, st), (32, 5, nbrs.length)]] ++
    (List.range 4).map (fun k => mkWord ((List.range 4).map (fun i => (16 * i, 16, nbrs.getD (4 * k + i) 0))))
  ws ++ [crc64 (bytesOfWords ws ++ vec)]

/-! ### Sequences and visibility (R375 to R377) -/

/-- `visible_seq`: every INSERT and DELETE up to it has reached its completion step (R376). -/
def State.visibleSeq (s : State) (x : Index) : Nat :=
  match minBy? id ((x.seqs.filter (fun e => Tbl.has s.work.cmds e.1)).map (fun e => e.2.1)) with
  | some q => q - 1
  | none => x.nextSeq - 1

/-- What a Search command takes at its dispatch, once: a SEARCH its generation and snapshot, an INSERT or DELETE its sequence; the sequence
0xFFFF_FFFF is refused (R375, R378, R387). -/
def State.searchTake (s : State) (cid : Nat) (c : Cmd) : Option Status × State :=
  let i := fld c.op 4 63 56
  match s.index i with
  | none => (none, s)
  | some x =>
    if fld c.op 0 43 36 = 1 then
      if Tbl.has x.searches cid then (none, s)
      else
        let snap := if fld c.op 5 63 32 = 0 then s.visibleSeq x else fld c.op 5 63 32
        (none, s.updIndex i (fun x => { x with searches := Tbl.set (x.searches.filter (fun e => Tbl.has s.work.cmds e.1)) cid (x.baseGen, snap) }))
    else if Tbl.has x.seqs cid then (none, s)
    else if x.nextSeq = 0xFFFFFFFF then (some .refusedCapacity, s)
    else (none, s.updIndex i (fun x => { x with
      seqs := Tbl.set (x.seqs.filter (fun e => Tbl.has s.work.cmds e.1)) cid (x.nextSeq, 0, []), nextSeq := x.nextSeq + 1 }))

/-! ### Checks (R10, R65, R378, R383, R384) -/

/-- The check of SEARCH. -/
def State.searchCheck (s : State) (c : Cmd) : Option Bad :=
  let w := c.op
  let snap := fld w 5 63 32
  match s.index (fld w 4 63 56) with
  | none => some badField
  | some x => firstOf [
    (fld w 4 55 44 == 0 || decide (2048 < fld w 4 55 44) || decide (fld w 4 43 32 < fld w 4 55 44) || decide (2048 < fld w 4 43 32) ||
      fld w 4 31 21 == 0 || decide (1024 < fld w 4 31 21) || fld w 4 20 12 == 0 || decide (256 < fld w 4 20 12) || decide (fld w 4 31 21 < fld w 4 20 12) ||
      !allZero w [(4, 3, 0), (5, 15, 0), (6, 63, 0), (7, 31, 0)] || decide (word w 2 % 64 ≠ 0) || decide (word w 3 % 64 ≠ 0), badField),
    (!s.coversComp c.vi x.composition, (.violation, 0, 3)),
    (!s.covers c.vi (word w 2) (2 * x.dim) rRd, badRegion (word w 2)), (!s.covers c.vi (word w 3) (64 + 32 * fld w 4 20 12) rWr, badRegion (word w 3)),
    (snap != 0 && c.dispT.isNone && (decide (snap < x.baseSeq) || decide (s.visibleSeq x < snap)), (.searchSnapshot, 0, 0))]

/-- The check of INSERT. -/
def State.insertCheck (s : State) (c : Cmd) : Option Bad :=
  let w := c.op
  let n := fld w 4 55 43
  match s.index (fld w 4 63 56) with
  | none => some badField
  | some x => firstOf [
    (n == 0 || decide (4096 < n) || !allZero w [(4, 42, 0), (5, 63, 0), (6, 63, 0), (7, 31, 0)] || decide (word w 2 % 64 ≠ 0) || decide (word w 3 % 64 ≠ 0), badField),
    (!s.coversComp c.vi x.composition, (.violation, 0, 3)),
    (!s.covers c.vi (word w 2) (32 * n) (rRd + rWr), badRegion (word w 2)), (!s.covers c.vi (word w 3) (2 * x.dim * n) rRd, badRegion (word w 3))]

/-- The check of DELETE. -/
def State.deleteCheck (s : State) (c : Cmd) : Option Bad :=
  let w := c.op
  let n := fld w 4 55 43
  match s.index (fld w 4 63 56) with
  | none => some badField
  | some x => firstOf [
    (n == 0 || decide (4096 < n) || !allZero w [(3, 63, 0), (4, 41, 0), (5, 63, 0), (6, 63, 0), (7, 31, 0)], badField),
    (!s.coversComp c.vi x.composition, (.violation, 0, 3)),
    (!s.covers c.vi (word w 2) (4 * n) rRd, badRegion (word w 2))]

/-! ### SEARCH (R379 to R382) -/

/-- The squared distance of a vector to a centroid, from its vector and `norm2`, rounded once (R379). -/
def centDist (q v : List Dy) (norm : Nat) : Dy :=
  r32 (dySub (dyAdd (norm2 q) ((decF32 norm).getD dyZero)) (dyMul (dyNat 2) (dotDy q v)))

/-- The centroids of some states with their distances, nearest first, ties to the lower number (R379). -/
def Base.ranked (b : Base) (nlist : Nat) (states : List Nat) (q : List Dy) : List (Nat × Dy) :=
  sortBy (fun a b => dyLt a.2 b.2 || (dyEq a.2 b.2 && decide (a.1 ≤ b.1)))
    (((List.range nlist).filter (fun c => states.contains (centState (b.cent c)))).map (fun c => (c, centDist q (b.vec c) (fld (b.cent c) 1 31 0))))

/-- The probe set and the edges skipped: the nearest centroids, widened by one hop of their edges (R379). -/
def Base.probes (b : Base) (nlist nprobe probeMax widen : Nat) (q : List Dy) : List Nat × Nat :=
  let all := b.ranked nlist [cLive, cDamaged] q
  let p0 := all.take nprobe
  let dn := ((p0.getLast?).map (·.2)).getD dyZero
  let dist := fun n => ((all.find? (fun e => e.1 == n)).map (·.2))
  p0.foldl (fun acc c => (centNbrs (b.cent c.1)).foldl (fun (a : List Nat × Nat) n =>
    match dist n with
    | none => (a.1, a.2 + 1)
    | some d =>
      if !(a.1.contains n) && dyLe (dyMul (dyNat 64) d) (dyMul (dyNat (64 + widen)) dn) && decide (a.1.length < probeMax) then (a.1 ++ [n], a.2) else a) acc) (p0.map (·.1), 0)

/-- Whether a record in flash cannot be read: its codeword stayed uncorrectable or its channel is lost (R381, R387). -/
def State.recLost (s : State) (a n : Nat) : Bool := s.srch.lostWords.contains (addrOff a / 1024) || (s.readFault a n).isSome

/-- The records of a segment with the channel that reads each, and how many are lost (R371, R380, R381). -/
def State.segRecs (s : State) (x : Index) (c : Nat) (w : List Nat) : List (Nat × Rec) × Nat :=
  let len := x.recLen
  (List.range (fld w 1 63 32)).foldl (fun acc i =>
    let a := word w 0 + i * len
    if s.recLost a len then (acc.1, acc.2 + 1)
    else
      let ch := ((Tbl.get s.tier.map (addrOff a / 4096)).map (·.1)).getD (16 * (c % 2) + i * len / 16384 % 16)
      (acc.1 ++ [(ch, Rec.ofBytes (s.rd a len))], acc.2)) ([], 0)

/-- The records of a side list, dealt to the channels in 16 KiB runs (R380). -/
def sideRecs (len : Nat) (bs : List Byte) : List (Nat × Rec) :=
  (List.range (bs.length / len)).map (fun i => (i * len / 16384 % 32, Rec.ofBytes ((bs.drop (i * len)).take len)))

/-- The `k` smallest of a list by distance, ties to the lower item (R380). -/
def nearestRecs (k : Nat) (l : List (Nat × Rec)) : List (Nat × Rec) :=
  (sortBy (fun a b => decide (a.1 < b.1) || (a.1 == b.1 && decide (a.2.item ≤ b.2.item))) l).take k

/-- Whether an item is visible to a snapshot (R377). -/
def State.itemVisible (s : State) (x : Index) (item seq snap : Nat) : Bool := decide (seq ≤ snap) && decide (snap < fld (s.item x item) 2 31 0)

/-- The vector in a slot, if its trailer names the item and its check value holds (R374, R382). -/
def State.slotVec (s : State) (x : Index) (item : Nat) : Option (List Byte) :=
  let a := x.slotAt (fld (s.item x item) 3 46 0)
  let n := 2 * x.dim
  let t := s.rdWords (a + n) 8
  if (s.readFault a (n + 64)).isNone && fld t 0 31 0 == item && word t 7 == crc64 (s.rd a n ++ bytesOfWords (t.take 7)) then some (s.rd a n) else none

/-- SEARCH: probe selection, comparison of the sketches, the candidates, their exact scores, and the result block, at the snapshot and generation of
its dispatch (R378 to R382). -/
def execSearch (cid : Nat) (s : State) : Out :=
  .next (s.whenLive fun s =>
    match s.running cid 4 1 with
    | none => s
    | some c =>
      let w := c.op
      let i := fld w 4 63 56
      match Tbl.get s.srch.indexes i with
      | none => s.finish cid .invalidField 0
      | some x =>
        let (gen, snap) := Tbl.at x.searches cid (x.baseGen, s.visibleSeq x)
        match s.readFault (word w 2) (2 * x.dim), bf16s x.dim (s.rd (word w 2) (2 * x.dim)) with
        | some st, _ => s.finish cid st 0
        | none, none => s.finish cid .invalidField 0
        | none, some q =>
          let b := s.baseOf x gen
          let (ps, skipped) := b.probes x.nlist (fld w 4 55 44) (fld w 4 43 32) (fld w 4 11 4) q
          let qs := s.sketchOf x q
          let segs := ps.map (fun c => (c, s.segRecs x c (b.cent c)))
          let lost0 := (segs.map (fun e => e.2.2)).sum
          let side := sideRecs x.recLen b.side
          let maxD := fld w 5 31 16
          let pick := fun (r : Nat × Rec) => r.2.item != 0 && decide (r.2.seq ≤ snap)
          let comp := fun (l : List (Nat × Rec)) => (l.filter pick).map (fun r => (r.1, hamming x.skBits qs r.2.sketch, r.2))
          let flashC := comp (segs.flatMap (fun e => e.2.1))
          let sideC := comp side
          let all := flashC ++ sideC
          let kept := all.filter (fun r => maxD == 0 || decide (r.2.1 ≤ maxD))
          let k := fld w 4 31 21
          let lists := (List.range 32).flatMap (fun ch => nearestRecs k ((kept.filter (fun r => r.1 == ch)).map (·.2)))
          let cands := nearestRecs k (lists.filter (fun r => s.itemVisible x r.2.item r.2.seq snap))
          let scored := cands.map (fun r => (r, (s.slotVec x r.2.item).map (fun v =>
            let v := vecOf x.dim v
            if x.l2 then r32 (dist2 q v) else r32 (dotDy q v))))
          let good := scored.filterMap (fun e => e.2.map (fun d => (e.1, d)))
          let bad := scored.filter (fun e => e.2.isNone)
          let order := fun (a b : (Nat × Rec) × Dy) =>
            (if x.l2 then dyLt a.2 b.2 else dyLt b.2 a.2) || (dyEq a.2 b.2 && decide (a.1.2.item ≤ b.1.2.item))
          let best := (sortBy order good).take (fld w 4 20 12)
          let skip := sat 65535 skipped
          let lost := lost0 + bad.length
          let entries := best.flatMap (fun e =>
            let t := s.item x e.1.2.item
            [word t 0, word t 1, mkWord [(32, 32, encF32 e.2), (16, 16, e.1.1)], mkWord [(32, 32, e.1.2.item), (0, 32, e.1.2.seq)]])
          let h := [mkWord [(32, 32, snap), (16, 16, best.length), (0, 16, skip)], mkWord [(32, 32, ps.length), (0, 32, good.length)], all.length,
            mkWord [(32, 32, sideC.length), (0, 32, sat 0xFFFFFFFF lost)], mkWord [(48, 16, gen)], 0, 0]
          let out := h ++ [crc64 (bytesOfWords (h ++ entries))] ++ entries
          let s1 := bad.foldl (fun (t : State) e => t.raise0 .searchVector (dieCX 0) 0x200 [i, fld (s.item x e.1.2.item) 3 46 0, e.1.2.item]) s
          let s2 := (segs.filter (fun e => e.2.2 != 0 && gen == x.baseGen && centState (b.cent e.1) == cLive)).foldl (fun (t : State) e => t.setCentState x e.1 cDamaged) s1
          let s3 := s2.updIndex i (fun x => { x with edgesStale := sat 0xFFFFFFFF (x.edgesStale + skipped) })
          let s4 := (s3.updCmd cid (fun c => { c with effects := [Post.write (word w 3) (bytesOfWords out)] })).note cid []
            (ceilDiv (segs.map (fun e => x.recLen * fld (b.cent e.1) 1 63 32)).sum 64) (ceilDiv (8 * out.length) 64) all.length cands.length
          let s5 := (List.range 32).foldl (fun (t : State) ch =>
            let n := (flashC.filter (fun r => r.1 == ch)).length
            (t.unitEvent (0x600 + ch) 0x0601 (ceilDiv (n * x.recLen) 16384) none).unitEvent (0x600 + ch) 0x0602 n none) s4
          s5.finish cid (if lost = 0 then .ok else .searchPartial) (mkWord [(32, 32, snap), (16, 16, best.length), (0, 16, skip)]))

/-! ### INSERT, DELETE and the mirror (R383 to R385) -/

/-- The lowest free item numbers from one on, none claimed by a command that runs (R372, R383). -/
def freeItems (s : State) (x : Index) (taken : List Nat) : Nat → Nat → Nat → List Nat
  | 0, _, _ => []
  | _, 0, _ => []
  | fuel + 1, n + 1, i =>
    if taken.contains i || fld (s.item x i) 2 63 32 != 0 then freeItems s x taken fuel (n + 1) (i + 1) else i :: freeItems s x taken fuel n (i + 1)

/-- Enters items: vectors with their trailers, records in the side list, item table entries; a vector's slot has its item's number less one (R372,
R374, R383; log 28). -/
def State.enterItems (s : State) (i : Nat) (x : Index) (seq : Nat) (items : List (Nat × Nat × Nat × List Byte)) : State :=
  let s1 := (items.zipIdx).foldl (fun (t : State) e =>
    let (item, pid, handle, v) := e.1
    let trailer := [mkWord [(0, 32, item)], 0, 0, 0, 0, 0, 0]
    let t1 := t.store (x.slotAt (item - 1)) (v ++ bytesOfWords (trailer ++ [crc64 (v ++ bytesOfWords trailer)]))
    let r : Rec := { item := item, seq := seq, sketch := s.sketchOf x (vecOf x.dim v) }
    let t2 := t1.store (x.sideBase + (x.sideCount + e.2) * x.recLen) (r.bytes x.recLen)
    t2.store (x.itemAt item) (bytesOfWords [u64 pid, u64 handle, mkWord [(32, 32, seq), (0, 32, 0xFFFFFFFF)], mkWord [(47, 17, inSide), (0, 47, item - 1)]])) s
  s1.updIndex i (fun x => { x with sideCount := x.sideCount + items.length })

/-- Marks items deleted at a sequence: those in use and not yet deleted. The answer is the handles of those (R384). -/
def State.deleteItems (s : State) (x : Index) (seq : Nat) (dels : List Nat) : List Nat × State :=
  dels.foldl (fun (acc : List Nat × State) d =>
    let t := acc.2.item x d
    if d = 0 ∨ x.itemMax < d ∨ fld t 2 63 32 = 0 ∨ fld t 2 31 0 ≠ 0xFFFFFFFF then acc
    else (acc.1 ++ [word t 1], acc.2.store (x.itemAt d + 16) (bytesOfWords [mkWord [(32, 32, fld t 2 63 32), (0, 32, seq)]]))) ([], s)

/-- Sends a sequence's items or deletions to the mirror in class 1 (R385; the message has no code: log 12). -/
def State.tellMirror (s : State) (i : Nat) (x : Index) (seq : Nat) (items : List (Nat × Nat × Nat × List Byte)) (dels : List Nat) : State :=
  s.tell { dst := x.mirror, tc := 1, code := 0, req := 0, epoch := 0, mapEpoch := (s.comp x.composition).cur.epoch
           fields := [6, i, seq, items.length, dels.length] ++ items.flatMap (fun e => [e.1, e.2.1, e.2.2.1]) ++ dels, tail := items.flatMap (fun e => e.2.2.2) }

/-- An INSERT or DELETE and its mirror: sent once, awaited, and dropped with an event when its node is dead. The answer is whether the command goes
on now (R385). -/
def State.mirrored (s : State) (cid i : Nat) (x : Index) (items : List (Nat × Nat × Nat × List Byte)) (dels : List Nat) : Bool × State :=
  let (seq, phase, _) := Tbl.at x.seqs cid (0, 0, [])
  if x.mirror = 0 ∨ phase = 2 then (true, s)
  else if s.unreachable x.mirror then (true, (s.updIndex i (fun x => { x with mirror := 0 })).raise0 .indexMirrorLost s.hubDie 0 [i, x.mirror])
  else if phase = 1 then (false, s)
  else (false, (s.updIndex i (fun x => { x with seqs := Tbl.set x.seqs cid (seq, 1, items.map (·.1)) })).tellMirror i x seq items dels)

/-- INSERT: room is claimed, the mirror applies it first, and at its completion step its items exist (R383, R385). -/
def execInsert (cid : Nat) (s : State) : Out :=
  .next (s.whenLive fun s =>
    match s.running cid 4 2 with
    | none => s
    | some c =>
      let w := c.op
      let i := fld w 4 63 56
      let n := fld w 4 55 43
      match Tbl.get s.srch.indexes i with
      | none => s.finish cid .invalidField 0
      | some x =>
        let (seq, _, mine) := Tbl.at x.seqs cid (0, 0, [])
        let others := x.seqs.filter (fun e => e.1 != cid && Tbl.has s.work.cmds e.1)
        let taken := others.flatMap (fun e => e.2.2.2)
        let nums := if mine.isEmpty then freeItems s x taken x.itemMax n 1 else mine
        let vecs := chunks (2 * x.dim) n (s.rd (word w 3) (2 * x.dim * n))
        let fail : Option Status :=
          match s.readFault (word w 2) (32 * n), s.readFault (word w 3) (2 * x.dim * n) with
          | some st, _ => some st
          | none, some st => some st
          | none, none =>
            if vecs.any (fun v => (bf16s x.dim v).isNone) then some .invalidField
            else if nums.length < n ∨ x.sideMax < x.sideCount + taken.length + n then some .refusedCapacity
            else none
        match fail with
        | some st => (if x.mirror = 0 then s else s.tellMirror i x seq [] []).finishNow cid st 0
        | none =>
          let items := ((List.range n).zip (nums.zip vecs)).map (fun e =>
            let t := s.rdWords (word w 2 + 32 * e.1) 2
            (e.2.1, word t 0, word t 1, e.2.2))
          let (go, s1) := s.mirrored cid i x items []
          if !go then s1
          else
            let s2 := s1.enterItems i x seq items
            let s3 := ((List.range n).zip nums).foldl (fun (t : State) e => t.store (word w 2 + 32 * e.1 + 16) (bytesOf 8 e.2)) s2
            (s3.note cid [] (ceilDiv (2 * x.dim * n) 64) (ceilDiv ((2 * x.dim + 64 + x.recLen + 32) * n) 64) 0 0).finishNow cid .ok (mkWord [(32, 32, seq), (0, 32, n)]))

/-- DELETE: named items not yet deleted are deleted at its sequence, and their handles wait for release where asked (R384, R385). -/
def execDelete (cid : Nat) (s : State) : Out :=
  .next (s.whenLive fun s =>
    match s.running cid 4 3 with
    | none => s
    | some c =>
      let w := c.op
      let i := fld w 4 63 56
      let n := fld w 4 55 43
      match Tbl.get s.srch.indexes i with
      | none => s.finish cid .invalidField 0
      | some x =>
        let seq := (Tbl.at x.seqs cid (0, 0, [])).1
        match s.readFault (word w 2) (4 * n) with
        | some st => (if x.mirror = 0 then s else s.tellMirror i x seq [] []).finishNow cid st 0
        | none =>
          let dels := (chunks 4 n (s.rd (word w 2) (4 * n))).map valOf
          let (go, s1) := s.mirrored cid i x [] dels
          if !go then s1
          else
            let (hs, s2) := s1.deleteItems x seq dels
            let s3 := if fld w 4 42 42 = 1 then s2.updIndex i (fun x => { x with releases := x.releases ++ (hs.filter (· ≠ 0)).map (fun h => (h, seq)) }) else s2
            (s3.note cid [] (ceilDiv (4 * n) 64) hs.length 0 0).finishNow cid .ok (mkWord [(32, 32, seq), (0, 32, hs.length)]))

/-- A mirror's next awaited sequence after some more have been applied. -/
def advanceSeq : Nat → Nat → List Nat → Nat × List Nat
  | 0, n, l => (n, l)
  | fuel + 1, n, l => if l.contains n then advanceSeq fuel (n + 1) (l.filter (· ≠ n)) else (n, l)

/-- An INSERT or DELETE reaches the mirror and is applied there with its sequence, or its acknowledgement reaches the home (R385). -/
def execIndexMirrorApply (h : MsgHdr) (idx seq : Nat) (ack : Bool) (items : List (Nat × Nat × Nat × List Byte)) (dels : List Nat) (s : State) : Out :=
  .next (s.whenLive fun s =>
    match s.index idx with
    | none => s
    | some x =>
      if ack then
        if h.src ≠ x.mirror then s
        else s.updIndex idx (fun x => { x with seqs := Tbl.mapVals x.seqs (fun _ e => if e.1 = seq ∧ e.2.1 = 1 then (e.1, 2, e.2.2) else e) })
      else
        let answer := fun (t : State) => t.tell { dst := h.src, tc := 1, code := 0, req := 0, epoch := 0, mapEpoch := h.mapEpoch, fields := [7, idx, seq], tail := [] }
        if seq < x.nextSeq ∨ x.ahead.contains seq then answer s
        else
          let s1 := s.enterItems idx x seq items
          let s2 := (s1.deleteItems x seq dels).2
          let (n, l) := advanceSeq (x.ahead.length + 1) x.nextSeq (x.ahead ++ [seq])
          answer (s2.updIndex idx (fun x => { x with nextSeq := n, ahead := l })))

/-- Handles of deleted items are released on VI 0 once no SEARCH of an older snapshot remains: here, or at the handle's home (R112, R384; log 12). -/
def execDeleteHandleRelease (idx : Nat) (s : State) : Out :=
  .next (s.whenLive fun s =>
    match Tbl.get s.srch.indexes idx with
    | none => s
    | some x =>
      let snaps := (x.searches.filter (fun e => Tbl.has s.work.cmds e.1)).map (fun e => e.2.2)
      let due := x.releases.filter (fun r => !(snaps.any (fun n => decide (n < r.2))))
      let s1 := s.updIndex idx (fun x => { x with releases := x.releases.filter (fun r => snaps.any (fun n => decide (n < r.2))) })
      due.foldl (fun (t : State) r =>
        if Tbl.has t.kv.handles r.1 then { t with kv := { t.kv with handles := Tbl.upd t.kv.handles r.1 (fun h => { h with released := true }) } }
        else t.tell (dirMsg (reqHome (r.1 / 2 ^ 16)) 0 (r.1 / 2 ^ 16) 0 0 [8, r.1] [])) s1)

/-! ### Corrections (R232, R233, R381) -/

/-- A CX die returns a flash codeword's corrected bits: the comparator adjusts the distances of its records, so that they are exact; a sector with
more than 48 corrected bits is rewritten within 1 s; an uncorrectable codeword fails its sector, and a cluster it belongs to is DAMAGED. -/
def execCodewordCorrections (cw : Nat) (corrected : List Nat) (lost : Bool) (s : State) : Out :=
  .next (s.whenLive fun s =>
    let sector := cw / 4
    match Tbl.get s.tier.map sector with
    | none => s
    | some (ch, _) =>
      let s := (s.unitEvent (0x600 + ch) 0x0603 (b2n (!lost && !corrected.isEmpty)) none).unitEvent (0x200 + b2n (decide (16 ≤ ch))) 0x0207 1 none
      if !lost then
        let s1 : State := { s with srch := { s.srch with corrections := Tbl.set s.srch.corrections cw corrected, lostWords := s.srch.lostWords.filter (· ≠ cw) } }
        if corrected.length ≤ 48 ∨ Tbl.has s1.tier.rewrite sector then s1
        else { s1 with tier := { s1.tier with rewrite := Tbl.set s1.tier.rewrite sector (s.now + 1000000000) } }
      else
        let a := mkAddr s.node 2 (1024 * cw)
        let s1 : State := { s with
          srch := { s.srch with lostWords := if s.srch.lostWords.contains cw then s.srch.lostWords else s.srch.lostWords ++ [cw] }
          tier := { s.tier with badLines := s.tier.badLines ++ ((List.range 16).map (fun i => a / 64 + i)).filter (fun l => !s.tier.badLines.contains l) } }
        let s2 := s1.raise0 .flashError (dieFL (ch / 16)) (0x600 + ch) [mkAddr s.node 2 (4096 * sector), ch, 8]
        s2.srch.indexes.foldl (fun (t : State) e =>
          let x := e.2
          (List.range x.nlist).foldl (fun (u : State) c =>
            let w := s2.rdWords (x.centBase + 64 * c) 8
            if centState w = cLive ∧ word w 0 < a + 1024 ∧ a < word w 0 + x.recLen * fld w 1 63 32 then u.setCentState x c cDamaged else u) t) s2)

end Sys2Proof.Machine
end

