-- ==== Sys2Proof/Machine/Merge.lean ====
section
/-! DEFINITION. Merges of an index, the end of old generations, and the operations on indexes (R369, R370, R386, R387, R400). -/

namespace Sys2Proof.Machine
open Sys2Proof

/-! ### The merge as a computation (R386) -/

/-- A centroid while a merge works on it; `recs` holds the records of a cluster that is rewritten. -/
structure MCent where
  st : Nat
  seg : Nat
  n : Nat
  vec : List Byte
  nbrs : List Nat
  recs : Option (List Rec)
  made : Bool := false

/-- The centroids as a merge finds them. -/
def State.mergeStart (s : State) (x : Index) : List MCent :=
  (List.range x.nlist).map (fun c =>
    let w := s.rdWords (x.centBase + 64 * c) 8
    { st := centState w, seg := word w 0, n := fld w 1 63 32, vec := s.rd (x.vecTab + c * 2 * x.dim) (2 * x.dim), nbrs := centNbrs w, recs := none })

/-- Changes one centroid. -/
def updCent (ms : List MCent) (c : Nat) (f : MCent → MCent) : List MCent := ms.mapIdx (fun i m => if i = c then f m else m)

/-- The vector of an item, as it stands where its check fails. -/
def State.itemVec (s : State) (x : Index) (item : Nat) : List Byte :=
  (s.slotVec x item).getD (s.rd (x.slotAt (fld (s.item x item) 3 46 0)) (2 * x.dim))

/-- The nearest LIVE centroid to a vector, one excepted; ties to the lower number (R386). -/
def nearestLive (d : Nat) (ms : List MCent) (but : Option Nat) (v : List Dy) : Option Nat :=
  (minBy? (fun e => e.2) ((sortBy (fun (a b : Nat × Dy) => dyLt a.2 b.2 || (dyEq a.2 b.2 && decide (a.1 ≤ b.1)))
    (((ms.zipIdx).filter (fun e => e.1.st == cLive && some e.2 != but)).map (fun e => (e.2, r32 (dist2 v (vecOf d e.1.vec)))))).zipIdx)).map (fun e => e.1.1)

/-- The records of a cluster as they stand, read from its segment or already rewritten. -/
def State.recsOf (s : State) (x : Index) (c : Nat) (m : MCent) : List Rec :=
  m.recs.getD ((s.segRecs x c [m.seg, mkWord [(32, 32, m.n)]]).1.map (·.2))

/-- Step 2: side-list items visible at the snapshot go to their nearest LIVE centroids; the answer also lists the sequences' items that could not. -/
def State.mergeGain (s : State) (x : Index) (snap : Nat) (ms : List MCent) : List MCent :=
  ((sideRecs x.recLen (s.rd x.sideBase (x.recLen * x.sideCount))).map (·.2)).foldl (fun ms r =>
    if r.item = 0 ∨ !s.itemVisible x r.item r.seq snap then ms
    else match nearestLive x.dim ms none (vecOf x.dim (s.itemVec x r.item)) with
      | none => ms
      | some c => ms.mapIdx (fun i m => if i = c then { m with recs := some (s.recsOf x i m ++ [r]) } else m)) ms

/-- Step 3: clusters that hold items deleted by the snapshot lose them, and DAMAGED ones are rebuilt from their items' vectors, or from the
mirror's records where a vector fails its check; one that cannot be rebuilt whole stays DAMAGED. -/
def State.mergeClean (s : State) (x : Index) (snap : Nat) (mirror : List (Nat × List Byte)) (ms : List MCent) : List MCent :=
  ms.mapIdx (fun c m =>
    if m.st = cDamaged ∨ (m.st = cLive ∧ (s.segRecs x c [m.seg, mkWord [(32, 32, m.n)]]).2 ≠ 0) then
      let gains := ((m.recs.getD []).filter (fun r => fld (s.item x r.item) 3 63 47 == inSide))
      let mine := ((List.range x.itemMax).map (· + 1)).filter (fun i =>
        let t := s.item x i
        fld t 2 63 32 != 0 && fld t 3 63 47 == c && s.itemVisible x i (fld t 2 63 32) snap)
      let built := mine.map (fun i => match s.slotVec x i with
        | some v => some { item := i, seq := fld (s.item x i) 2 63 32, sketch := s.sketchOf x (vecOf x.dim v) : Rec }
        | none => (mirror.find? (fun e => e.1 == i)).map (fun e => Rec.ofBytes e.2))
      { m with recs := some (built.filterMap id ++ gains), st := if built.all (·.isSome) then cLive else cDamaged }
    else if m.st = cLive then
      let rs := s.recsOf x c m
      let keep := rs.filter (fun r => r.item != 0 && decide (snap < fld (s.item x r.item) 2 31 0))
      if m.recs.isNone && keep.length == (rs.filter (fun r => r.item != 0)).length then m else { m with recs := some keep }
    else m)

/-- The two-centroid run of the spawn loop on a cluster's vectors (R201, R386). -/
def splitLoop (d conv : Nat) (xs : List (List Dy)) : Nat → Nat → Nat → List (List Dy) → List (List Dy)
  | 0, _, _, cs => cs
  | fuel + 1, pass, prev, cs =>
    let (cs', now) := kmPass 2 d xs cs
    let v := fun n => (decF32 n).getD dyZero
    if 2 ≤ pass ∧ dyLt (dySub (v prev) (v now)) (dyMul ⟨conv, -16⟩ (v prev)) then cs' else splitLoop d conv xs fuel (pass + 1) now cs'

/-- Step 4: a cluster above `split_at` is split in two; the new centroid takes the lowest EMPTY entry. The count is of clusters split. -/
def State.mergeSplit (s : State) (x : Index) (p : CalibPolicy) (ms : List MCent) : List MCent × Nat :=
  (List.range x.nlist).foldl (fun (acc : List MCent × Nat) c =>
    match acc.1[c]?, (acc.1.zipIdx).find? (fun e => e.1.st == cEmpty) with
    | some m, some (_, e) =>
      let rs := s.recsOf x c m
      if m.st ≠ cLive ∨ rs.length ≤ x.splitAt ∨ rs.length < 2 then acc
      else
        let xs := rs.map (fun r => vecOf x.dim (s.itemVec x r.item))
        let cs := splitLoop x.dim p.conv xs p.maxPasses 1 0 [xs.headD [], xs.getD (xs.length / 2) []]
        let side := xs.map (nearest cs)
        let part := fun k => ((rs.zip side).filter (fun q => q.2 == k)).map (·.1)
        let bytes := fun k => (cs.getD k []).flatMap (fun v => bytesOf 2 (encBF16 v))
        let m1 := updCent acc.1 c (fun m => { m with recs := some (part 0), vec := bytes 0 })
        (updCent m1 e (fun _ => { st := cLive, seg := 0, n := 0, vec := bytes 1, nbrs := [], recs := some (part 1), made := true }), acc.2 + 1)
    | _, _ => acc) (ms, 0)

/-- Step 5: a cluster below `retire_at` is retired and its records move to their nearest other LIVE centroids; the last LIVE centroid stays. -/
def State.mergeRetire (s : State) (x : Index) (ms : List MCent) : List MCent × Nat :=
  (List.range x.nlist).foldl (fun (acc : List MCent × Nat) c =>
    match acc.1[c]? with
    | none => acc
    | some m =>
      let rs := s.recsOf x c m
      let others := (acc.1.zipIdx).any (fun e => e.1.st == cLive && e.2 != c)
      if m.st ≠ cLive ∨ x.retireAt ≤ rs.length ∨ !others then acc
      else
        let gone := updCent acc.1 c (fun m => { m with st := cRetired, recs := some [], nbrs := [] })
        (rs.foldl (fun ms r => match nearestLive x.dim ms (some c) (vecOf x.dim (s.itemVec x r.item)) with
          | none => ms
          | some d => ms.mapIdx (fun i m => if i = d then { m with recs := some (s.recsOf x i m ++ [r]) } else m)) gone, acc.2 + 1)) (ms, 0)

/-- The nearest LIVE centroids to one, itself excepted, nearest first. -/
def nearLive (d : Nat) (ms : List MCent) (c : Nat) : List Nat :=
  let v := vecOf d ((ms[c]?).map (·.vec) |>.getD [])
  (sortBy (fun (a b : Nat × Dy) => dyLt a.2 b.2 || (dyEq a.2 b.2 && decide (a.1 ≤ b.1)))
    (((ms.zipIdx).filter (fun e => e.1.st == cLive && e.2 != c)).map (fun e => (e.2, r32 (dist2 v (vecOf d e.1.vec)))))).map (·.1)

/-- Step 6: the graph of each centroid made or rewritten, and every other edge that names a RETIRED one; the count is of the edges repaired. -/
def mergeGraph (d : Nat) (ms : List MCent) : List MCent × Nat :=
  let gone := fun n => ((ms[n]?).map (fun m => m.st == cRetired)).getD true
  let stale := (ms.map (fun m => (m.nbrs.filter gone).length)).sum
  (ms.mapIdx (fun c m =>
    if m.st ≠ cLive ∧ m.st ≠ cDamaged then m
    else if m.recs.isSome then { m with nbrs := (nearLive d ms c).take 16 }
    else if m.nbrs.any gone then
      let near := nearLive d ms c
      { m with nbrs := m.nbrs.foldl (fun l n => if gone n then (match near.find? (fun k => !(l.contains k) && !(m.nbrs.contains k)) with | some k => l ++ [k] | none => l)
                                                else l ++ [n]) [] }
    else m), stale)

/-! ### The merge on the node (R386, R387) -/

/-- A merge starts: `side_count` has reached `merge_at` and none runs; its snapshot is `visible_seq` (R386, step 1). -/
def execIndexMerge (idx : Nat) (s : State) : Out :=
  .next (s.whenLive fun s =>
    match s.index idx with
    | none => s
    | some x => if x.merge.isSome ∨ x.sideCount < x.mergeAt then s else s.updIndex idx (fun x => { x with merge := some { m := s.visibleSeq x } }))

/-- Whether two address ranges overlap. -/
def overlaps (a b : Nat × Nat) : Bool := decide (a.1 < b.1 + b.2) && decide (b.1 < a.1 + a.2)

/-- The lowest room of whole pages in an index's flash that no range in use overlaps (log 29). -/
def findRoom (used : List (Nat × Nat)) (lo hi len : Nat) : Nat → Nat → Option Nat
  | 0, _ => none
  | fuel + 1, a =>
    if hi < a + len then none
    else match used.find? (fun u => overlaps u (a, len)) with
      | none => some a
      | some u => findRoom used lo hi len fuel (ceilDiv (u.1 + u.2 - lo) 16384 * 16384 + lo)

/-- Bytes of a segment of some records: whole 16 KiB pages (R369). -/
def segBytesOf (x : Index) (n : Nat) : Nat := ceilDiv (n * x.recLen) 16384 * 16384

/-- Room for each new segment, in centroid order; none where some does not fit. -/
def placeSegs (x : Index) (used : List (Nat × Nat)) : List Nat → Option (List Nat)
  | [] => some []
  | n :: ns =>
    if n = 0 then (placeSegs x used ns).map (0 :: ·)
    else
      let len := segBytesOf x n
      (findRoom used x.segBase (x.segBase + x.segBytes) len (used.length + 2) x.segBase).bind (fun a => (placeSegs x (used ++ [(a, len)]) ns).map (a :: ·))

/-- Writes a segment's pages: cluster c on FL die c mod 2, dealt over that die's 16 channels, or over the other die's where a channel is out of service
(R369, R387); blocks are the flash die's choice (log 3). -/
def State.writeSeg (s : State) (x : Index) (c a : Nat) (rs : List Rec) : State :=
  let s1 := s.wr a (padTo (segBytesOf x rs.length) (rs.flatMap (fun r => r.bytes x.recLen)))
  (List.range (segBytesOf x rs.length / 4096)).foldl (fun (t : State) k =>
    let sec := addrOff a / 4096 + k
    let ch := 16 * (c % 2) + k / 4 % 16
    let other := 16 * (1 - c % 2) + k / 4 % 16
    let ok := fun ch => t.flashChanUp ch && !(Tbl.at t.tier.chans ch {}).readOnly
    if !(ok ch || ok other) then t.mapSector sec
    else
      let (w, t1) := t.draw
      let to_ := if ok ch then ch else other
      { t1 with tier := { t1.tier with
          map := Tbl.set t1.tier.map sec (to_, w / 64)
          chans := Tbl.updD t1.tier.chans to_ {} (fun q => { q with writes := q.writes + 1, programs := q.programs + 1 }) } }) s1

/-- EV_INDEX_MERGED: the outcome is 1 installed, 2 failed (R387, R503). -/
def State.merged (s : State) (idx outcome : Nat) (p : List Nat) : State := s.raise0 .indexMerged s.hubDie 0 ([idx, outcome] ++ p)

/-- A merge installs its centroid table and segments at one completion step, or, where its flash quota or its room does not suffice, nothing (R386,
R387). `mirror` gives the records fetched from the mirror for items whose vectors failed. -/
def execMergeInstall (idx : Nat) (mirror : List (Nat × List Byte)) (s : State) : Out :=
  .next (s.whenLive fun s =>
    match s.index idx with
    | none => s
    | some x =>
      match x.merge with
      | none => s
      | some g =>
        let old := s.mergeStart x
        let (ms1, nSplit) := s.mergeSplit x (s.calib x.composition) (s.mergeClean x g.m mirror (s.mergeGain x g.m old))
        let (ms2, nRetire) := s.mergeRetire x ms1
        let (ms, repaired) := mergeGraph x.dim ms2
        let sizes := ms.map (fun m => (m.recs.getD []).length)
        let used := (old.filter (fun m => m.n != 0)).map (fun m => (m.seg, segBytesOf x m.n)) ++ x.olds.flatMap (·.segs)
        let sectors := ((sizes.map (segBytesOf x)).sum) / 4096
        let done := fun (t : State) (st : Status) => (g.op.map (fun r => t.finishOp r st 0 [])).getD t
        match s.claimFault x.owner x.composition 2 sectors, placeSegs x used sizes with
        | none, some segs =>
          let new := (ms.zip segs).map (fun e => if e.1.recs.isSome then { e.1 with seg := e.2, n := (e.1.recs.getD []).length } else e.1)
          let side := sideRecs x.recLen (s.rd x.sideBase (x.recLen * x.sideCount))
          let moved := (new.zipIdx).flatMap (fun e => ((e.1.recs.getD []).filter (fun r => fld (s.item x r.item) 3 63 47 != e.2)).map (fun r => (r.item, e.2)))
          let placed := new.flatMap (fun m => (m.recs.getD []).map (·.item))
          let stays := (side.map (·.2)).filter (fun r => decide (g.m < r.seq) || (s.itemVisible x r.item r.seq g.m && !placed.contains r.item))
          let dropped := ((List.range x.itemMax).map (· + 1)).filter (fun i => let t := s.item x i; fld t 2 63 32 != 0 && decide (fld t 2 31 0 ≤ g.m) &&
            !(x.olds.any (fun o => o.items.contains i)))
          let base : OldBase := { gen := x.baseGen, cents := s.rd x.centBase (64 * x.nlist), vecs := s.rd x.vecTab (2 * x.dim * x.nlist)
                                  side := s.rd x.sideBase (x.recLen * x.sideCount), items := dropped
                                  segs := ((old.zip new).filter (fun e => e.2.recs.isSome && e.1.n != 0)).map (fun e => (e.1.seg, segBytesOf x e.1.n)) }
          let s1 := (new.zipIdx).foldl (fun (t : State) e =>
            let m := e.1
            let t1 := match m.recs with | some rs => t.writeSeg x e.2 m.seg rs | none => t
            let norm := encF32 (norm2 (vecOf x.dim m.vec))
            (t1.store (x.vecTab + e.2 * 2 * x.dim) m.vec).store (x.centBase + 64 * e.2) (bytesOfWords (mkCent m.seg m.n norm m.st m.nbrs m.vec))) s
          let s2 := moved.foldl (fun (t : State) e =>
            let a := x.itemAt e.1 + 24
            t.store a (bytesOfWords [mkWord [(47, 17, e.2), (0, 47, bits (word (t.rdWords a 1) 0) 46 0)]])) s1
          let s3 := s2.store x.sideBase (stays.flatMap (fun r => r.bytes x.recLen))
          let gen := (x.baseGen + 1) % 65536
          let s4 := s3.updIndex idx (fun x => { x with
            merge := none, baseSeq := g.m, baseGen := gen, sideCount := stays.length, edgesStale := 0, olds := x.olds ++ [base] })
          (done s4 .ok).merged idx 1 [gen, g.m, moved.length, dropped.length, nSplit, nRetire, repaired, 0]
        | _, _ => (done (s.updIndex idx (fun x => { x with merge := none })) .tierQuota).merged idx 2 [x.baseGen, g.m, 0, 0, 0, 0, 0, x.edgesStale])

/-- Clears a range of memory. -/
def State.zeroRange (s : State) (a n : Nat) : State := { s with mem := s.mem.filter (fun c => !(decide (a ≤ c.1) && decide (c.1 < a + n))) }

/-- An old generation no SEARCH reads any more is freed: its segments, and the numbers and slots of the items deleted with it; an index being destroyed
ends with its last SEARCH (R387, R400). -/
def execOldGenerationFree (idx gen : Nat) (s : State) : Out :=
  .next (s.whenLive fun s =>
    match Tbl.get s.srch.indexes idx with
    | none => s
    | some x =>
      let live := x.searches.filter (fun e => Tbl.has s.work.cmds e.1)
      match x.destroyOp with
      | some r =>
        if !live.isEmpty then s
        else ({ s with srch := { s.srch with indexes := Tbl.del s.srch.indexes idx } } : State).finishOp r .ok 0 []
      | none =>
        match x.olds.find? (fun o => o.gen == gen) with
        | none => s
        | some o =>
          if live.any (fun e => e.2.1 == gen) || ((x.olds.head?).map (fun f => f.gen != gen)).getD true then s
          else
            let s1 := (o.segs.flatMap (fun e => sectorsOf e.1 e.2)).foldl State.unmapSector (o.segs.foldl (fun (t : State) e => t.zeroRange e.1 e.2) s)
            let s2 := o.items.foldl (fun (t : State) i => (t.zeroRange (x.slotAt (fld (t.item x i) 3 46 0)) (2 * x.dim + 64)).zeroRange (x.itemAt i) 32) s1
            s2.updIndex idx (fun x => { x with olds := x.olds.filter (fun p => p.gen != gen), searches := live }))

/-! ### Operations (R369, R370, R386, R400) -/

/-- ADH_INDEX_CREATE: ranges, rights, regions that grant `idx`, and quota; the item table starts free, the centroid table, its vectors and the
projection matrix are those the owner has written (R369; log 30). -/
def doIndexCreate (c : Caller) (idx comp dim nlist itemMax sideMax : Nat) (wide l2 : Bool) (mirror itemBase centBase vecBase segBase segBytes : Nat) (s : State) : AdhOut :=
  let x : Index := { owner := c.vi, composition := comp, dim := dim, nlist := nlist, itemMax := itemMax, sideMax := sideMax, wide := wide, l2 := l2, mirror := mirror
                     itemBase := itemBase, centBase := centBase, vecBase := vecBase, segBase := segBase, segBytes := segBytes, mergeAt := sideMax / 4 }
  let here := fun (a sp : Nat) => addrNode a == s.node && addrSpace a == sp
  if !s.hasRight c.vi 3 || !s.coversComp c.vi comp then adhRights s
  else if 63 < idx ∨ Tbl.has s.srch.indexes idx ∨ dim < 64 ∨ 4096 < dim ∨ dim % 64 ≠ 0 ∨ nlist < 16 ∨ 65536 < nlist ∨ itemMax = 0 ∨ 4294967295 < itemMax ∨
      sideMax < 4096 ∨ 1048576 < sideMax ∨ 4096 ≤ mirror ∨ (mirror = s.node ∧ mirror ≠ 0) ∨ !here itemBase 1 ∨ !here centBase 1 ∨ !here segBase 2 ∨
      !(here vecBase 1 || here vecBase 2) ∨ itemBase % 64 ≠ 0 ∨ centBase % 64 ≠ 0 ∨ vecBase % 64 ≠ 0 ∨ segBase % 16384 ≠ 0 ∨ segBytes % 16384 ≠ 0 then
    adhFail .invalidField s
  else if !(s.covers c.vi itemBase (32 * itemMax + x.recLen * sideMax) rIdx && s.covers c.vi centBase ((64 + 2 * dim) * nlist + 2 * dim * x.skBits) rIdx &&
      s.covers c.vi vecBase (itemMax * (2 * dim + 64)) rIdx && s.covers c.vi segBase segBytes rIdx) then adhRegion itemBase s
  else if !s.quotaRoom 1 comp 1 x.dramBytes then adhFail .tierQuota s
  else
    let s1 := s.zeroRange itemBase (32 * itemMax)
    adhOk { s1 with srch := { s1.srch with indexes := Tbl.set s1.srch.indexes idx x } }
/-- ADH_INDEX_CREATE. -/
def execAdhIndexCreate (c : Caller) (idx comp dim nlist itemMax sideMax : Nat) (wide l2 : Bool) (mirror itemBase centBase vecBase segBase segBytes : Nat) (s : State) : Out :=
  .next (s.adhRun 0x0A01 .user c (doIndexCreate c idx comp dim nlist itemMax sideMax wide l2 mirror itemBase centBase vecBase segBase segBytes))

/-- An index's header (R370). -/
def State.indexHeader (s : State) (idx : Nat) (x : Index) : List Nat :=
  [mkWord [(56, 8, idx), (50, 6, x.dim / 64 - 1), (49, 1, b2n x.wide), (48, 1, b2n x.l2), (32, 16, x.composition), (0, 17, x.nlist)],
   mkWord [(32, 32, x.itemMax), (0, 32, x.sideMax)], mkWord [(32, 32, x.nextSeq), (0, 32, s.visibleSeq x)],
   mkWord [(32, 32, x.baseSeq), (16, 16, x.baseGen), (0, 12, x.mirror)], x.itemBase, x.centBase, x.vecBase,
   mkWord [(32, 32, x.sideCount), (0, 32, x.edgesStale)]]

/-- Runs an operation on an index the caller's rights reach. -/
def State.onIndex (s : State) (c : Caller) (idx : Nat) (f : Index → AdhOut) : AdhOut :=
  match s.index idx with
  | none => adhFail .invalidField s
  | some x => if s.coversComp c.vi x.composition then f x else adhRights s

/-- ADH_INDEX_STATUS. -/
def execAdhIndexStatus (c : Caller) (idx : Nat) (s : State) : Out :=
  .next (s.adhRun 0x0A02 .user c (fun s => s.onIndex c idx (fun x => ⟨.ok, 0, s.indexHeader idx x, s⟩)))

/-- ADH_INDEX_POLICY: `merge_at` from 1,024 to `side_max` (R386). -/
def doIndexPolicy (c : Caller) (idx mergeAt splitAt retireAt : Nat) (s : State) : AdhOut :=
  s.onIndex c idx (fun x =>
    if mergeAt < 1024 ∨ x.sideMax < mergeAt ∨ splitAt = 0 ∨ 4294967295 < splitAt ∨ 4294967295 < retireAt then adhFail .invalidField s
    else adhOk (s.updIndex idx (fun x => { x with mergeAt := mergeAt, splitAt := splitAt, retireAt := retireAt })))
/-- ADH_INDEX_POLICY. -/
def execAdhIndexPolicy (c : Caller) (idx mergeAt splitAt retireAt : Nat) (s : State) : Out :=
  .next (s.adhRun 0x0A03 .user c (doIndexPolicy c idx mergeAt splitAt retireAt))

/-- ADH_INDEX_MERGE: accepted unless a merge runs; its final outcome comes at the installation (R386). -/
def doIndexMerge (c : Caller) (idx : Nat) (s : State) : AdhOut :=
  s.onIndex c idx (fun x =>
    if x.merge.isSome then adhFail .retryMergeBusy s
    else ⟨.adhAccepted, 0, [], s.updIndex idx (fun x => { x with merge := some { m := s.visibleSeq x, op := some (s.refOf c 0x0A04) } })⟩)
/-- ADH_INDEX_MERGE. -/
def execAdhIndexMerge (c : Caller) (idx : Nat) (s : State) : Out := .next (s.adhRun 0x0A04 .user c (doIndexMerge c idx))

/-- ADH_INDEX_DESTROY: no command names the index from now on; it completes once no SEARCH does (R400). -/
def doIndexDestroy (c : Caller) (idx : Nat) (s : State) : AdhOut :=
  s.onIndex c idx (fun _ => ⟨.adhAccepted, 0, [], s.updIndex idx (fun x => { x with destroyOp := some (s.refOf c 0x0A05) })⟩)
/-- ADH_INDEX_DESTROY. -/
def execAdhIndexDestroy (c : Caller) (idx : Nat) (s : State) : Out := .next (s.adhRun 0x0A05 .user c (doIndexDestroy c idx))

end Sys2Proof.Machine
end

