-- ==== Sys2Proof/Machine/Mover.lean ====
section
/-! DEFINITION. The Mover's line and message commands (R305 to R317). -/

namespace Sys2Proof.Machine
open Sys2Proof

/-! ### Checks (R10, R65, R292, R305 to R308, R316) -/

/-- Whether a space holds lines that bulk commands move: DRAM, flash or SRAM. -/
def bulkSpace (a : Nat) : Bool := addrSpace a == 1 || addrSpace a == 2 || addrSpace a == 3

/-- The check of one end of a MOVE_LINES: window fields, offsets, regions (R292, R305, R306). -/
def State.endCheck (s : State) (vi a n win right : Nat) : Option Bad :=
  if addrNode a = s.node then firstOf [
    (decide (win ≠ 0xFFF) || !bulkSpace a || !s.offsetDefined a || !s.offsetDefined (a + n - 1), badField),
    (!s.covers vi a n right, badRegion a),
    (((apertureOf a).map (fun e => decide (s.apertureBytes e < (addrOff a - 2 ^ 47) % 2 ^ 42 + n))).getD false, (.violation, a, 7))]
  else firstOf [(win == 0xFFF, (.violation, a, 2))]

/-- The check of MOVE_LINES. -/
def State.moveLinesCheck (s : State) (c : Cmd) : Option Bad :=
  let w := c.op
  let src := word w 2
  let dst := word w 3
  let n := 64 * fld w 4 63 40
  let al := fun a => if addrSpace a = 2 then 4096 else 64
  (firstOf [
    (n == 0 || !allZero w [(4, 15, 0), (5, 24, 0), (6, 63, 0), (7, 31, 0)], badField),
    (decide (src % al src ≠ 0) || decide (dst % al dst ≠ 0) ||
      ((addrSpace src == 2 || addrSpace dst == 2) && decide (fld w 4 63 40 % 64 ≠ 0)), badField),
    (addrNode src == addrNode dst && decide (src < dst + n) && decide (dst < src + n), badField)]).orElse fun _ =>
  (s.endCheck c.vi src n (fld w 4 39 28) rRd).orElse fun _ => s.endCheck c.vi dst n (fld w 4 27 16) rWr

/-- The check of SEND (R308). -/
def State.sendCheck (s : State) (c : Cmd) : Option Bad :=
  let w := c.op
  let a := word w 2
  let n := fld w 4 31 7
  firstOf [
    (n == 0 || decide (16777216 < n) || !allZero w [(3, 11, 0), (4, 6, 0), (5, 63, 32), (5, 24, 0), (6, 63, 0), (7, 31, 0)], badField),
    (decide (a % 64 ≠ 0) || decide (addrNode a ≠ s.node) || !(addrSpace a == 1 || addrSpace a == 3), badField),
    (fld w 3 63 52 == s.node && decide (fld w 3 39 28 ≠ 0xFFF), badField),
    (fld w 3 63 52 != s.node && fld w 3 39 28 == 0xFFF, (.violation, word w 3, 2)),
    (!s.covers c.vi a n rRd, badRegion a)]

/-- The check of RECV_POST; a full list refuses the post (R307). -/
def State.recvPostCheck (s : State) (c : Cmd) : Option Bad :=
  let w := c.op
  let a := word w 2
  let info := word w 3
  let n := fld w 4 63 39
  let here := fun x => x % 64 == 0 && addrNode x == s.node && (addrSpace x == 1 || addrSpace x == 3)
  firstOf [
    (decide (n < 64) || decide (16777216 < n) || n % 64 != 0 || !allZero w [(4, 27, 0), (5, 63, 0), (6, 63, 0), (7, 31, 0)], badField),
    (!here a || !here info, badField),
    (!s.covers c.vi a n rWr, badRegion a), (!s.covers c.vi info 64 rWr, badRegion info),
    (decide (4096 ≤ (Tbl.at s.fab.lists (c.vi, fld w 4 38 35) []).length), (.refusedCapacity, 0, 0))]

/-- The check of TRIGGER_ARM with that of its pre-posted command (R316). -/
def State.triggerArmCheck (s : State) (c : Cmd) : Option Bad :=
  let w := c.words
  let a := word w 2
  let work := s.rdWords a 8
  let d := { c with work := some work }
  (firstOf [
    (!allZero w [(4, 57, 32), (5, 63, 0), (6, 63, 0), (7, 31, 0)], badField),
    (a % 64 != 0 || decide (addrNode a ≠ s.node) || !(addrSpace a == 1 || addrSpace a == 3), badField),
    (!s.covers c.vi a 64 (rRing + rRd), badRegion a),
    (fld work 0 47 44 != 1 || !(fld work 0 43 36 == 1 || fld work 0 43 36 == 4) ||
      !allZero work [(0, 25, 24), (1, 63, 48)], badField)]).orElse fun _ =>
  (if fld work 0 43 36 = 1 then s.moveLinesCheck d else s.sendCheck d).orElse fun _ =>
  firstOf [(decide (1024 ≤ (s.fab.arms.filter (fun x => x.vi == c.vi)).length), (.refusedCapacity, 0, 0))]

/-! ### MOVE_LINES (R305, R306) -/

/-- Flash sectors that a move would map for the first time. -/
def State.newSectors (s : State) (a n : Nat) : Nat := ((sectorsOf a n).filter (fun x => !Tbl.has s.tier.map x)).length

/-- Copies lines within this node until one fails (R306). -/
def moveLocal : Nat → Nat → Nat → Nat → State → Nat × Option Status × State
  | 0, _, _, done, s => (done, none, s)
  | n + 1, src, dst, done, s =>
    match s.readFault src 64 with
    | some st => (done, some st, if st = .memUncorrectable then s.dramError src else s)
    | none => if s.lineLost dst false then (done, some .tierFailed, s) else moveLocal n (src + 64) (dst + 64) (done + 1) (s.store dst (s.rd src 64))

/-- MOVE_LINES runs: lines on this node move through the hub, other ends by READ and WRITE packets; at the first failure nothing
more is issued (R306). New flash sectors are claimed under the owner's quota first (R221). -/
def execMoveLines (cid : Nat) (s : State) : Out :=
  .next (s.whenLive fun s =>
    match s.running cid 1 1 with
    | none => s
    | some c =>
      if Tbl.has s.fab.jobs cid then s else
      let w := c.op
      let src := word w 2
      let dst := word w 3
      let lines := fld w 4 63 40
      let owner := ((s.regionOf c.vi dst (64 * lines) rWr).map (fun r => r.owner)).getD c.vi
      let need := if addrNode dst = s.node ∧ addrSpace dst = 2 then s.newSectors dst (64 * lines) else 0
      let quota := if need = 0 then none else if !s.quotaRoom 0 owner 2 need then some Status.tierQuota
        else if s.flashCapacity < s.flashUsed + need then some .refusedCapacity else none
      match quota with
      | some st => s.finish cid st 0
      | none =>
        if !s.byPacket src && !s.byPacket dst then
          let (n, st, s1) := moveLocal lines src dst 0 s
          (s1.updCmd cid (fun c => { c with linesRead := n, linesWritten := n })).finish cid (st.getD .ok) n
        else
          ({ s with fab := { s.fab with jobs := Tbl.set s.fab.jobs cid {} } } : State).moveOn cid)

/-! ### SEND (R308, R309) -/

/-- SEND runs: the message takes an id, is cut into packets and sprayed; bytes that cannot be read end it before any is sent
(R308, R309). -/
def execSend (cid : Nat) (s : State) : Out :=
  .next (s.whenLive fun s =>
    match s.running cid 1 4 with
    | none => s
    | some c =>
      if s.fab.msgs.any (fun m => m.2.cid == cid) then s else
      let w := c.op
      let n := fld w 4 31 7
      let dst := fld w 3 63 52
      match s.readFault (word w 2) n with
      | some st => (if st = .memUncorrectable then s.dramError ((s.firstBad (word w 2) n).getD 0) else s).finish cid st 0
      | none =>
        if dst ≠ s.node ∧ s.unreachable dst then
          (s.deadFail dst { ty := .sendData, addr := word w 3, srcVi := c.vi } false).finish cid .targetDead (crc64 (s.rd (word w 2) n))
        else
          let m := s.fab.nextMsg
          let x : OutMsg := { cid := cid, dst := dst, size := if dst = s.node then 4096 else s.pathLimit dst }
          ({ s with fab := { s.fab with nextMsg := u32 (m + 1), msgs := Tbl.set s.fab.msgs m x } } : State).sendOnward m)

/-! ### RECV_POST (R307, R313) -/

/-- RECV_POST runs: its buffer joins its list, booked posted, and the command holds no resident-job slot from then on (R307, R313). -/
def execRecvPost (cid : Nat) (s : State) : Out :=
  .next (s.whenLive fun s =>
    match s.running cid 1 5 with
    | none => s
    | some c =>
      let w := c.op
      let k := (c.vi, fld w 4 38 35)
      let l := Tbl.at s.fab.lists k []
      if 4096 ≤ l.length then s.finish cid .refusedCapacity 0
      else
        let b : Buffer := { cid := cid, addr := word w 2, info := word w 3, len := fld w 4 63 39 }
        let s1 : State := { s with fab := { s.fab with lists := Tbl.set s.fab.lists k (l ++ [b]) } }
        (s1.updCmd cid (fun c => { c with st := .parked })).bookNew qBuffers c.vi 0 1)

/-! ### TRIGGER_ARM (R316, R317) -/

/-- TRIGGER_ARM runs: the hub keeps the pre-posted command as it stands now; an arm whose count is reached fires at once, another
is held without a resident-job slot (R316, R317). -/
def execTriggerArm (cid : Nat) (s : State) : Out :=
  .next (s.whenLive fun s =>
    match s.running cid 1 6 with
    | none => s
    | some c =>
      let w := c.op
      let ctr := fld w 4 63 58
      let us := fld w 4 31 0
      let s1 := s.updCmd cid (fun c => { c with work := some (s.rdWords (word w 2) 8) })
      if armReached (s.counter c.vi ctr) (word w 3) then s1
      else if 1024 ≤ (s.fab.arms.filter (fun x => x.vi == c.vi)).length then s.finish cid .refusedCapacity 0
      else
        let a : Arm := { cid := cid, vi := c.vi, ctr := ctr, threshold := word w 3, expireAt := if us = 0 then none else some (s.now + 1000 * us) }
        (({ s1 with fab := { s1.fab with arms := s1.fab.arms ++ [a] } } : State).updCmd cid (fun c => { c with st := .parked })))

end Sys2Proof.Machine
end

