-- ==== Sys2Proof/Machine/Perf.lean ====
section
/-! DEFINITION. Selecting, capturing and sampling performance counters (R455 to R470). -/

namespace Sys2Proof.Machine
open Sys2Proof

/-! ### Units and events (R455, R463) -/

/-- How many events a unit type lists from its code 1 on, and which of them no VI may choose (R463). -/
def eventTable : Nat → Nat × List Nat
  | 1 => (12, [])
  | 2 => (7, [7])
  | 3 => (6, [])
  | 4 => (4, [])
  | 5 => (4, [])
  | 6 => (6, [1, 2, 3, 4, 5, 6])
  | 7 => (5, [1, 2, 3, 4, 5])
  | 8 => (7, [1, 2, 3, 4, 5, 6, 7])
  | 9 => (4, [1, 2, 3, 4])
  | _ => (0, [])

/-- Whether R463 lists an event code, and whether a VI may choose it. -/
def eventListed (ev : Nat) : Option Bool :=
  let t := ev / 256
  let n := ev % 256
  if t = 0 then
    (if 1 ≤ n ∧ n ≤ 5 then some (n != 3) else if 0x10 ≤ n ∧ n ≤ 0x17 then some true else none)
  else if 1 ≤ n ∧ n ≤ (eventTable t).1 then some (!(eventTable t).2.contains n) else none

/-! ### ADH_COUNTER_CONFIG (R457, R461) -/

/-- Selects events for a unit's counters (counter, event, VI or 256 for all) or, without a unit, for the VI's own (counter, event, queue mask). Each selected
counter is zeroed; event 0 leaves a counter unused. -/
def doCounterConfig (c : Caller) (unit : Option Nat) (sels : List (Nat × Nat × Nat)) (s : State) : AdhOut :=
  match unit with
  | some u =>
    if !s.isOperator c then adhRights s
    else if !s.allUnits.contains u ∨ sels.any (fun e => decide (7 < e.1 ∨ 256 < e.2.2) || !(e.2.1 == 0 || ((eventListed e.2.1).isSome && (e.2.1 / 256 == 0 || e.2.1 / 256 == u / 256)))) then
      adhFail .invalidField s
    else
      let s := s.settle u
      let x := s.unit u
      let p0 := x.prog ++ List.replicate (8 - x.prog.length) {}
      let p1 := sels.foldl (fun (p : List ProgCounter) e => p.set e.1 { event := e.2.1, vi := if e.2.2 = 256 then none else some e.2.2, count := 0 }) p0
      adhOk (s.setUnit u { x with prog := p1, selectSeq := u32 (x.selectSeq + 1) })
  | none =>
    if sels.any (fun e => decide (31 < e.1 ∨ 65535 < e.2.2) || !(e.2.1 == 0 || eventListed e.2.1 == some true)) then adhFail .invalidField s
    else adhOk (s.updVi c.vi (fun v => { v with perf := sels.foldl (fun (t : Tbl Nat ViCounter) e =>
      Tbl.updD t e.1 {} (fun k => { k with event := e.2.1, queueMask := e.2.2, selectSeq := u16 (k.selectSeq + 1), count := 0 })) v.perf }))
/-- ADH_COUNTER_CONFIG; unit counters also from a management session (R457). -/
def execAdhCounterConfig (c : Caller) (unit : Option Nat) (sels : List (Nat × Nat × Nat)) (s : State) : Out :=
  .next (s.adhRun 0x0901 (if unit.isSome then .userOper else .user) c (doCounterConfig c unit sels))

/-! ### ADH_COUNTER_SNAPSHOT and the capture (R464 to R466) -/

/-- Schedules a capture: mode 0 snapshot, 1 freeze, 2 thaw; time 0 stands for now + 10 µs rounded up to a µs. The answer's result is the operation's
sequence number (R464). -/
def doCounterSnapshot (c : Caller) (units : Bool) (mode : Nat) (ids : List Nat) (time out : Nat) (s : State) : AdhOut :=
  let us := if ids = [0xFFF] then s.allUnits else s.allUnits.filter ids.contains
  let t := if time = 0 then ceilDiv (s.now + 10000) 1000 * 1000 else time
  if units && !s.isOperator c then adhRights s
  else if 2 < mode ∨ (time ≠ 0 ∧ (time < s.now + 10000 ∨ s.now + 60000000000 < time)) then adhFail .invalidField s
  else if units ∧ (ids = [] ∨ 64 < ids.length ∨ (ids ≠ [0xFFF] ∧ !ids.all s.allUnits.contains) ∨ (mode = 0 ∧ out % 64 ≠ 0)) then adhFail .invalidField s
  else if units && mode == 0 && !s.covers c.vi out (256 * us.length) rWr then adhRegion out s
  else
    let held := if units then (s.perf.captures.filter (fun k => k.units)).length else (s.perf.captures.filter (fun k => !k.units && k.vi == c.vi)).length
    if (if units then 16 else 4) ≤ held then adhFail .refusedCapacity s
    else
      let n := u32 ((s.vi c.vi).snapIssued + 1)
      let k : Capture := { vi := c.vi, units := units, mode := mode, ids := us, time := t, outAddr := out, seq := n }
      let s1 := s.updVi c.vi (fun v => { v with snapIssued := n })
      ⟨.ok, n, [], { s1 with perf := { s1.perf with captures := s1.perf.captures ++ [k] } }⟩
/-- ADH_COUNTER_SNAPSHOT; a scope of units also from a management session (R464, R470). -/
def execAdhCounterSnapshot (c : Caller) (units : Bool) (mode : Nat) (ids : List Nat) (time out : Nat) (s : State) : Out :=
  .next (s.adhRun 0x0902 (if units then .userOper else .user) c (doCounterSnapshot c units mode ids time out))

/-- Settles a unit up to the capture time, where it is not settled beyond it. -/
def State.settleAt (s : State) (t u : Nat) : State :=
  if t ≤ (s.unit u).at_ then s else { (({ s with now := t } : State).settle u) with now := s.now }

/-- A unit's snapshot record (R466). -/
def State.unitRecord (s : State) (u t seq : Nat) : List Nat :=
  let x := s.unit u
  let eight := fun (l : List Nat) => (List.range 8).map (fun i => l.getD i 0)
  sealWords ([mkWord [(52, 12, u), (51, 1, b2n x.frozen), (50, 1, b2n !s.timeLocked), (49, 1, b2n (s.unitOut u)), (0, 32, seq)], u64 t, x.cycles, x.slotCycles,
    x.kept, x.redone, x.unfilled, x.empty] ++ eight x.waits ++ eight (x.prog.map (fun (p : ProgCounter) => p.count)) ++ [u32 x.selectSeq] ++ List.replicate 6 0)

/-- Takes a snapshot: the records of units in order, or the VI's own counter lines; then the status line's `snap_seq` (R466). -/
def State.takeSnapshot (s : State) (k : Capture) : State :=
  let s1 :=
    if k.units then
      (k.ids.zipIdx).foldl (fun (t : State) e =>
        let t1 := t.settleAt k.time e.1
        if t1.covers k.vi (k.outAddr + 256 * e.2) 256 rWr then t1.wrWords (k.outAddr + 256 * e.2) (t1.unitRecord e.1 k.time k.seq) else t1) s
    else s.updVi k.vi (fun v => { v with perf := Tbl.mapVals v.perf (fun _ x => { x with snapCount := x.count, snapTime := k.time }) })
  s1.updVi k.vi (fun v => { v with snapSeq := k.seq })

/-- Freezes a unit at the capture time; one already frozen stays (R465). -/
def State.freezeUnit (s : State) (t u : Nat) : State :=
  if (s.unit u).frozen then s else let s1 := s.settleAt t u; s1.setUnit u { s1.unit u with frozen := true }

/-- Thaws a unit: the completion transfers held are applied in the order they arose (R465). -/
def State.thawUnit (s : State) (t u : Nat) : State :=
  let x := s.unit u
  if !x.frozen then s else
    s.setUnit u (x.held.foldl (fun (y : UnitCtr) h => y.close h.1 h.2.1 h.2.2) { x with frozen := false, held := [], at_ := max t x.at_ })

/-- A freeze or a thaw takes effect (R465). -/
def State.takeMode (s : State) (k : Capture) : State :=
  if k.mode = 0 then s
  else if k.units then k.ids.foldl (fun (t : State) u => if k.mode = 1 then t.freezeUnit k.time u else t.thawUnit k.time u) s
  else s.updVi k.vi (fun v => { v with perf := Tbl.mapVals v.perf (fun _ x => { x with frozen := k.mode == 1 }) })

/-- The capture time of the earliest operations is reached: the snapshots of that time see the values as they stood, then freezes and thaws take effect
in the order they were issued (R465, R466). -/
def execCounterCapture (s : State) : Out :=
  .next (s.whenLive fun s =>
    match minBy? (fun (k : Capture) => k.time) s.perf.captures with
    | none => s
    | some k0 =>
      if s.now < k0.time then s
      else
        let batch := s.perf.captures.filter (fun k => k.time == k0.time)
        let s1 : State := { s with perf := { s.perf with captures := s.perf.captures.filter (fun k => k.time != k0.time) } }
        batch.foldl State.takeMode ((batch.filter (fun k => k.mode == 0)).foldl State.takeSnapshot s1))

/-! ### ADH_SAMPLE_CONFIG (R467, R468) -/

/-- Configures a VI's sampling ring: the ring, its tail line, and the intervals by class; with OPERATOR also of every VI's commands. The offsets are those
of the epoch the node is in. -/
def doSampleConfig (c : Caller) (base log2 tail : Nat) (intervals : List (Nat × Nat)) (node : Bool) (s : State) : AdhOut :=
  if node && !s.isOperator c then adhRights s
  else if log2 < 6 ∨ 20 < log2 ∨ base % 64 ≠ 0 ∨ tail % 64 ≠ 0 ∨ intervals.any (fun e => decide (e.1 = 0 ∨ 6 < e.1 ∨ 65536 < e.2)) then adhFail .invalidField s
  else if !s.covers c.vi base (2 ^ log2 * 64) rWr then adhRegion base s
  else if !s.covers c.vi tail 128 (rRd + rWr) then adhRegion tail s
  else
    let e := bits s.now 35 20
    adhOk (s.updVi c.vi (fun v => { v with sampling := { v.sampling with
      ring := some { base := base, log2 := log2, tail := tail, written := 0 }
      node := node, intervals := intervals, offsets := intervals.map (fun n => (n.1, (e + c.vi) % max 1 n.2)), lost := 0 } }))
/-- ADH_SAMPLE_CONFIG; the node scope also from a management session (R467, R470). -/
def execAdhSampleConfig (c : Caller) (base log2 tail : Nat) (intervals : List (Nat × Nat)) (node : Bool) (s : State) : Out :=
  .next (s.adhRun 0x0903 (if node then .userOper else .user) c (doSampleConfig c base log2 tail intervals node))

end Sys2Proof.Machine
end

