-- ==== Sys2Proof/Machine/Recover.lean ====
section
/-! DEFINITION. A request recovered on a new holder: its record and block map, and its token ring (R123, R140, R141, R365). -/

namespace Sys2Proof.Machine
open Sys2Proof

/-- The record of a request whose state is rebuilt on this node, and its block map from the slots that other nodes list; where the map lies is a
free value (R140, step 2; log 3). -/
def State.rebuildRecord (s : State) (mapEpoch : Nat) (x : Rebuild) : Option (Req × State) :=
  match x.known with
  | none => none
  | some a => (s.ctxFor a.composition).map (fun ctx =>
      let (v, s1) := s.draw
      let r : Req := { admClass := a.cls, kvRepr := (s.compMap a.composition mapEpoch).kvRepr, ownerVi := a.ownerVi, composition := a.composition, ctxSlot := ctx
                       mapEpoch := mapEpoch, limit := a.limit, promptTokens := a.promptTokens, prefixTokens := a.prefixTokens
                       blockMap := mkAddr s.node 1 (bits v 45 12 * 4096), admitTime := a.admitTime }
      let f := (s.ctx ctx).f
      let s2 := s1.wr r.blockMap (List.replicate (8 * (f.layers * f.kvHeads * r.span)) 0#8)
      (r, x.blocks.foldl (fun (t : State) e => t.setMapEntry r e.1 e.2.1 e.2.2.1 e.2.2.2.2) s2))

/-- A candidate verifies its state against the named receipt and answers with `c_rec`: 0 verified, 1 no state, 2 check failed. A new holder that
has no state of the request rebuilds its record and block map first (R140, R141). -/
def execRecoverProbe (h : MsgHdr) (receipt newHolder : Nat) (x : Rebuild) (s : State) : Out :=
  let _ := receipt
  .next (s.whenLive fun s =>
    if h.ver ≠ 1 then s else
    let rebuilt := newHolder ≠ 0 && newHolder == s.node
    let remote := x.blocks.map (fun e => (e.1, e.2.1, e.2.2.1, e.2.2.2.1))
    match (s.req h.req).orElse (fun _ => (s.hold h.req).lingering.map (·.1)) with
    | some r =>
      let c := s.cRec r h.epoch remote
      let ok := decide (c = r.committed) || rebuilt
      s.tell (dirMsg h.src 0x19 h.req h.epoch h.mapEpoch [if ok then 0 else 2, c] [])
    | none =>
      match (if rebuilt && s.freeRecords != 0 then s.rebuildRecord h.mapEpoch x else none) with
      | some (r, s1) =>
        let c := s1.cRec r h.epoch remote
        (s1.setHold h.req { s1.hold h.req with lingering := some ({ r with committed := c }, [], h.epoch) }).tell (dirMsg h.src 0x19 h.req h.epoch h.mapEpoch [0, c] [])
      | none => s.tell (dirMsg h.src 0x19 h.req h.epoch h.mapEpoch [1, 0] []))

/-- `tok_count` of a recovered ring: `c_rec` + 1, or `prompt_tokens` below it, or `c_rec` where the log holds a committed stop at `c_rec` - 1
(R350, R365). -/
def rebuiltTok (c prompt : Nat) (stopped : Bool) : Nat := if c < prompt then prompt else if stopped then c else c + 1

/-- The token ring of a recovered request: header and automaton are written anew from what the bridge knows, with every id up to `tok_count`
acknowledged, the automaton stepped from its root over the last 64 output ids at most, and provisional ids past the count discarded at the
bridges (R365). Where a new ring lies is a free value (log 3). -/
def State.rebuildRing (s : State) (rid : Nat) (r : Req) (x : Rebuild) : State :=
  match x.known with
  | none => s
  | some a =>
    let stop := x.stop.filter (fun p => decide (p.1 + 1 = r.committed))
    let tok := rebuiltTok r.committed r.promptTokens stop.isSome
    let (w, s1) := if r.tokenRing = 0 then s.draw else (0, s)
    let at_ := if r.tokenRing = 0 then mkAddr s.node 1 (bits w 45 12 * 4096) else r.tokenRing
    let spec := at_ + 64 + 8 * 2 ^ a.spec.ringLog2
    let s2 := s1.wrWords spec (autoObject a.spec)
    let outs := (x.ids.take tok).drop r.promptTokens
    let st := (outs.drop (outs.length - 64)).foldl (fun q i => s2.autoStep spec 66 q i) 0
    let p := stop.getD (0xFFFFFFFF, 0, 0, 0)
    let t : TokRing := { st := if stop.isSome then 2 else 1, log2 := a.spec.ringLog2, req := rid, prompt := r.promptTokens, maxNew := a.spec.maxNew, tok := tok, acked := tok
                         stopPos := p.1, reason := p.2.1, stopSeq := p.2.2.1, stopLen := p.2.2.2, mstate := st, mdepth := (s2.autoState spec st).1, spec := spec
                         bridge := a.bridge, standby := a.standby }
    let s3 := (s2.updReq rid (fun r => { r with tokenRing := at_ })).wrWords at_ t.words
    let s4 := match s3.bridgeReq rid with
      | some b => s3.setBridge rid { b with prov := b.prov.filter (fun e => decide (e.1 < tok)) }
      | none => s3
    (([a.bridge] ++ (if a.standby = 0 then [] else [a.standby])).filter (fun b => b != s.node)).foldl (fun (t : State) b =>
      t.tell { dst := b, tc := s.tra.classes.getD 0 6, code := 0, req := rid, epoch := r.holdEpoch, mapEpoch := r.mapEpoch, fields := [tok] }) s4

/-- A holder answers HOLD_ASSERT: it confirms and acts as holder where it can, its token ring rebuilt where the request was recovered, and answers
HOLD_NONE otherwise (R123, R140, R365). -/
def execHoldAssert (h : MsgHdr) (chain : List Byte) (receipt : Nat) (x : Rebuild) (s : State) : Out :=
  let _ := (chain, receipt)
  .next (s.whenLive fun s =>
    if h.ver ≠ 1 then s else
    match s.assertable h.req h.epoch with
    | some r =>
      let r1 := { r with holdEpoch := h.epoch }
      let s1 := ((s.relinger h.req).setReq h.req r1).setHold h.req { s.hold h.req with offer := none, lingering := none, frozen := false, revoked := false }
      let s2 : State := { s1 with own := { s1.own with leases := Tbl.updD s1.own.leases h.src {} (fun l => { l with expiry := max l.expiry (s.now + s.own.leaseLen) }) } }
      (s2.rebuildRing h.req r1 x).tell (dirMsg h.src 0x13 h.req h.epoch h.mapEpoch [] [])
    | none => s.tell (dirMsg h.src 0x14 h.req h.epoch h.mapEpoch [] []))

end Sys2Proof.Machine
end

