-- ==== Sys2Proof/Machine/Sched.lean ====
section
/-! DEFINITION. The schedulers: instances in service, checks before dispatch, the choice of the next command, dispatch and pre-emption (R67, R68,
R79 to R83, R181, R197). -/

namespace Sys2Proof.Machine
open Sys2Proof

/-! ### Instances (R5, R51, R67, R68) -/

/-- Resident jobs an instance holds (R67). -/
def residentLimit (cls : Nat) : Nat := [0, 8, 32, 64, 16, 256, 64].getD cls 0

/-- Save records of an instance; Stream and Weights jobs are never pre-empted (R83, R506). -/
def saveRecords (cls : Nat) : Nat := [0, 8, 32, 64, 16, 0, 0].getD cls 0

/-- Whether the dies of an instance carry it: a fenced hub's channels and Stream instance move to the survivor, Attend needs a trained channel
and Search a NAND channel (R5, R51, R67, R68). -/
def State.instHoused (s : State) (cls i : Nat) : Bool :=
  match cls with
  | 1 => decide (i < 16) && !(s.isFenced 0 && s.isFenced 1)
  | 2 => decide (i < 8) && !s.isFenced (dieMC i) && !s.pkg.compRetired.contains i && (s.channelUp (2 * i) || s.channelUp (2 * i + 1))
  | 3 => decide (i < 2) && !s.isFenced (dieCX i)
  | 4 => i == 0 && s.pkg.flashUp.any s.flashChanUp
  | 5 => decide (i < 2) && !(s.isFenced 0 && s.isFenced 1)
  | 6 => decide (i < 4) && !s.isFenced (dieLK i)
  | _ => false

/-- Whether an instance is in service. -/
def State.instUp (s : State) (cls i : Nat) : Bool := s.instHoused cls i && (s.inst cls i).st == .service

/-- Instances of a class in service, in number order. -/
def State.instsUp (s : State) (cls : Nat) : List Nat := (List.range (classSize cls).1).filter (s.instUp cls)

/-- Whether no instance of a class is in service; one in its self-test is about to return, and its work waits (R68, R85). -/
def State.noEngine (s : State) (cls : Nat) : Bool :=
  !((List.range (classSize cls).1).any (fun i => s.instHoused cls i && (s.inst cls i).st != .retired))

/-- Jobs resident on an instance. -/
def State.residents (s : State) (cls i : Nat) : List (Nat × Cmd) :=
  s.work.cmds.filter (fun e => e.2.cls == cls && e.2.inst == i && e.2.resident)

/-- Whether an instance has a free resident-job slot (R67). -/
def State.slotFree (s : State) (cls i : Nat) : Bool := decide ((s.residents cls i).length < residentLimit cls)

/-! ### The instance of a command (R67, R68) -/

/-- Blocks of a command that lie in the DRAM of each MC die (R68). -/
def State.blocksOn (s : State) (c : Cmd) (die : Nat) : Nat :=
  ((s.cmdBlocks c).filter (fun da => addrNode da == s.node && ((s.arenaOf da).map (fun a => a.tier)) == some 1 && bits (s.desc da).slot 45 43 == die)).length

/-- The backlog of an instance in estimated engine time (R67, R81). -/
def State.jobTime (s : State) (cls i : Nat) : Nat :=
  ((s.work.cmds.filter (fun e => e.2.cls == cls && e.2.inst == i && e.2.dispT.isSome && e.2.outcome.isNone)).map (fun e => Config.engineEstimate e.2.op)).sum

/-- The LK die of the lowest-numbered in-service lane of the port a stream goes to (R39, R67). -/
def State.streamDie (s : State) (dst : Nat) : Option Nat :=
  ((apertureOf dst).bind s.endpointPort).bind (fun p => (s.lanesUp p).head?.map (fun k => globalLane p k / 36))

/-- The instance a command of a queue bound to "any" goes to (R67, R68). -/
def State.anyInst (s : State) (c : Cmd) : Option Nat :=
  let up := s.instsUp c.cls
  match c.cls with
  | 1 => (rotate (List.range 16) (s.ptr 0x200 16)).find? (fun i => s.instUp 1 i && s.slotFree 1 i)
  | 2 => maxBy? (s.blocksOn c) up
  | 3 => minBy? (s.jobTime 3) up
  | 5 => some (fld c.op 1 47 0 % 2)
  | 6 =>
    if fld c.op 0 43 36 = 1 then ((s.streamDie (word c.op 2)).filter (s.instUp 6)).orElse (fun _ => up.head?)
    else ((s.work.cmds.find? (fun x => x.2.vi == c.vi && x.2.cls == 6 && x.2.q == fld c.op 2 35 32 && x.2.index == fld c.op 2 31 0 && x.2.resident)).map
      (fun x => x.2.inst)).orElse (fun _ => up.head?)
  | _ => up.head?

/-- The instance a command may be dispatched to: a saved job's own, a bound queue's, else by R67 and R68. -/
def State.instFor (s : State) (c : Cmd) : Option Nat :=
  if c.st = .saved then some c.inst else ((s.queue (c.vi, c.cls, c.q)).inst).orElse (fun _ => s.anyInst c)

/-! ### Checks before dispatch (R65, R68, R79, R80, R181) -/

/-- Whether an opcode uses a model, so that its `ctx` must name a usable slot (R75, R79). -/
def usesModel (cls op : Nat) : Bool := cls == 2 || (cls == 3 && (op == 1 || op == 3)) || (cls == 6 && op == 1)

/-- The context slot a command names. -/
def State.slotOfCmd (s : State) (c : Cmd) : Option Nat := Tbl.get (s.vi c.vi).ctxMap (fld c.words 0 35 32)

/-- Whether a command waits for a LOADING slot (R79, R81). -/
def State.slotLoading (s : State) (c : Cmd) : Bool :=
  usesModel c.cls (fld c.op 0 43 36) && ((s.slotOfCmd c).map (fun n => (s.ctx n).st == .loading)).getD false

/-- The checks of an opcode with its context slot's fields. -/
def State.modelCheck (s : State) (c : Cmd) (f : CtxFields) : Option Bad :=
  match c.cls, fld c.op 0 43 36 with
  | 2, _ => s.attendCheck c f
  | 3, 1 => s.encodeKvCheck c
  | 3, _ => s.decodeTilesCheck c f
  | _, _ => s.windowStreamCheck c f

/-- The checks of an opcode that uses no model. -/
def State.plainCheck (s : State) (c : Cmd) : Option Bad :=
  match c.cls, fld c.op 0 43 36 with
  | 1, 1 => s.moveLinesCheck c
  | 1, 2 => s.moveBlocksCheck c
  | 1, 3 => s.pullBlocksCheck c
  | 1, 4 => s.sendCheck c
  | 1, 5 => s.recvPostCheck c
  | 1, 6 => s.triggerArmCheck c
  | 3, 2 => s.recodeBlocksCheck c
  | 3, 4 => s.ecEncodeCheck c
  | 3, 5 => s.checkCheck c
  | 4, 1 => s.searchCheck c
  | 4, 2 => s.insertCheck c
  | 4, 3 => s.deleteCheck c
  | 5, 2 => s.commitCheck c
  | 5, _ => ringCheck c
  | _, _ => none

/-- Why a command may not be dispatched, if it may not: traffic class 7 belongs to the Rongar itself, then the class's own order, then the
status of a request that failed here (R68, R132, R181, R327). -/
def State.refusal (s : State) (c : Cmd) : Option Bad :=
  let op := fld c.op 0 43 36
  let own : Option Bad :=
    if c.fmt == 2 && c.vi != 0 && c.tc == 7 then some badField
    else if usesModel c.cls op then
      if c.cls == 2 && attendFields c.op then some badField
      else match s.slotOfCmd c with
        | none => some (.contextUnbound, 0, 0)
        | some n =>
          match (s.ctx n).st with
          | .empty => some (.contextUnbound, 0, 0)
          | .unloading => some (.contextUnloading, 0, 0)
          | _ => s.modelCheck c (s.ctx n).f
    else s.plainCheck c
  match own with
  | some (.requestMoved, a, r) => some ((Tbl.get s.kv.failed (fld c.op 1 47 0)).getD .requestMoved, a, r)
  | x => x

/-! ### Commands that are held back (R76, R81, R103, R106, R120, R127, R137, R197, R223) -/

/-- Whether a KV write of the same request has been dispatched and is not complete (R106). -/
def State.writesPending (s : State) (c : Cmd) : Bool :=
  s.work.cmds.any (fun e => e.2.cls == 3 && e.2.writesKv && e.2.dispT.isSome && fld e.2.op 1 47 0 == fld c.op 1 47 0 && e.2.vi == c.vi)

/-- Whether a command must wait although its turn has come. -/
def State.heldBack (s : State) (c : Cmd) : Bool :=
  let rid := fld c.op 1 47 0
  let commit := c.cls == 5 && fld c.op 0 43 36 == 2
  let pull := c.cls == 1 && fld c.op 0 43 36 == 3
  let away := c.cls == 2 && (s.cmdBlocks c).any (fun da => addrNode da != s.node)
  (c.dispT.isNone && rid != 0 && (s.hold rid).frozen) || (rid != 0 && s.fencedFor rid && (c.writesKv || commit || pull || away)) ||
    s.blockHeld c || (commit && s.writesPending c) || (c.cls == 2 && c.st != .saved && s.pullsWaiting c)

/-- Whether every codebook version a command names is cached on a die (R197). -/
def State.versCached (s : State) (c : Cmd) (die : Nat) : Bool :=
  c.cls != 2 || (s.cmdVers c).all (fun v => Tbl.has s.cb.cache (die, v))

/-- Whether a command's turn has come in its queue's index order, its `fence` and `chain` conditions met (R76, R81). -/
def State.turn (s : State) (c : Cmd) : Bool :=
  s.ordered c && !(s.work.cmds.any (fun e => (e.2.vi, e.2.cls, e.2.q) == (c.vi, c.cls, c.q) && e.2.st == .waiting && e.2.outcome.isNone &&
    decide (0 < sub32 c.index e.2.index) && decide (sub32 c.index e.2.index < 2 ^ 31)))

/-- Whether a command may be dispatched, on any instance. A saved job may be resumed and a wiped one re-issued out of its queue's order; a waiting one
that fails its checks needs no instance (R68, R81, R83, R85). -/
def State.dispatchable (s : State) (c : Cmd) : Bool :=
  c.outcome.isNone && (match c.st with
    | .saved => true
    | .wiped => !s.heldBack c
    | .waiting => s.turn c && !s.slotLoading c && ((s.refusal c).isSome || !s.heldBack c)
    | _ => false)

/-- Whether a command is one for an instance to take: by R67 and R68, with its versions cached; with no instance of the class left, any number
takes it (R68, R81). -/
def State.isFor (s : State) (c : Cmd) (i : Nat) : Bool :=
  s.noEngine c.cls || (c.st == .waiting && (s.refusal c).isSome) || (s.instUp c.cls i && s.instFor c == some i && (c.st == .saved || s.versCached c i))

/-- The priority level of a command's queue: 0 for work the Rongar issues itself (R69, R81). -/
def State.levelOf (s : State) (c : Cmd) : Nat := (s.queue (c.vi, c.cls, c.q)).priority

/-! ### The choice (R43, R44, R81, R82) -/

/-- A VI's quantum in ns (R58, R81). -/
def State.quantum (s : State) (vi cls : Nat) : Nat := 256 * (if vi = 0 then 255 else (s.vi vi).rights.shares.getD (cls - 1) 0)

/-- Of the commands of the chosen level: those of the phase group whose use, divided by its share, is smaller; G wins a tie (R82). -/
def State.phaseGroup (s : State) (cls i : Nat) (l : List (Nat × Cmd)) : List (Nat × Cmd) :=
  if cls ≠ 1 ∧ cls ≠ 3 then l else
    let isG := fun (e : Nat × Cmd) => (s.queue (e.2.vi, e.2.cls, e.2.q)).phaseG
    let x := s.inst cls i
    let g := l.filter isG
    let p := l.filter (fun e => !isG e)
    if g.isEmpty then p else if p.isEmpty then g else if x.usedG * (256 - x.sG) ≤ x.usedP * x.sG then g else p

/-- A VI's next command: saved and wiped jobs in their order of dispatch first, then its queues from the rotating pointer (R43, R81, R83, R85). -/
def State.viNext (s : State) (cls i vi : Nat) (l : List (Nat × Cmd)) : Option (Nat × Cmd) :=
  let mine := l.filter (fun e => e.2.vi == vi)
  (minBy? (fun e => (e.2.dispT.getD 0)) (mine.filter (fun e => e.2.st != .waiting))).orElse fun _ =>
    (rotate (List.range 16) (s.ptr (0x400 + 16 * cls + i) 16)).findSome? (fun q => mine.find? (fun e => e.2.q == q))

/-- Rounds of quanta until a VI's deficit covers its next command (R81). -/
def roundsFor (deficit quantum need : Nat) : Nat := if quantum = 0 then 0 else ceilDiv (need - deficit) quantum

/-- The command a scheduler chooses, with the deficits it leaves (R81): a command that waits for the slot of a stopped job goes first (R83). -/
def State.pickCmd (s : State) (cls i : Nat) : Option (Nat × Cmd × Tbl Nat Nat) :=
  let x := s.inst cls i
  let all := s.work.cmds.filter (fun e => e.2.cls == cls && s.dispatchable e.2 && s.isFor e.2 i)
  match all.find? (fun e => x.waiting == some e.1) with
  | some (n, c) => some (n, c, Tbl.upd x.deficits c.vi (fun d => d - Config.engineEstimate c.op))
  | none =>
    let level := ((minBy? (fun e => s.levelOf e.2) all).map (fun e => s.levelOf e.2)).getD 0
    let l := s.phaseGroup cls i (all.filter (fun e => s.levelOf e.2 == level))
    let vis := (rotate (List.range 256) (s.ptr (0x300 + 16 * cls + i) 256)).filter (fun v => l.any (fun e => e.2.vi == v))
    let next := vis.filterMap (fun v => (s.viNext cls i v l).map (fun e => (v, e)))
    let need := fun (e : Nat × Nat × Cmd) => roundsFor (Tbl.at x.deficits e.1 0) (s.quantum e.1 cls) (Config.engineEstimate e.2.2.op)
    match minBy? need next with
    | none => none
    | some w =>
      let kept := (x.deficits.filter (fun d => all.any (fun e => e.2.vi == d.1)))
      let topped := vis.foldl (fun t v => Tbl.set t v (Tbl.at t v 0 + need w * s.quantum v cls)) kept
      some (w.2.1, w.2.2, Tbl.upd topped w.1 (fun d => d - Config.engineEstimate w.2.2.op))

/-! ### Dispatch (R66, R80, R84, R107, R153, R197, R315) -/

/-- Ends a command that fails a check before dispatch; a violation is logged (R65, R68, R408). -/
def State.refuseCmd (s : State) (cid : Nat) (c : Cmd) (b : Bad) : State :=
  let s1 := s.finish cid b.1 0
  if b.1 = .violation then s1.violate c.vi s.node 63 b.2.1 1 (c.cls * 256 + fld c.op 0 43 36) b.2.2 else s1

/-- Gives a command its slot on an instance. -/
def State.place (s : State) (cid : Nat) (c : Cmd) (i : Nat) : State :=
  let slot := if usesModel c.cls (fld c.op 0 43 36) then c.slot.orElse (fun _ => s.slotOfCmd c) else none
  let snap := if c.cls = 2 ∧ c.snap.isNone then some ((s.cmdBlocks c).map (fun da => (da, (s.desc da).committed))) else c.snap
  let used := s.cmdVers c
  let waited := s.now - (if c.dispT.isSome then c.since else c.acceptT)
  let s1 := (s.settle (unitOf c.cls i)).updCmd cid (fun c =>
    { c with
      st := .running, inst := i, dispT := c.dispT.orElse (fun _ => some s.now), since := s.now, waitNs := c.waitNs + waited
      regionGen := if c.dispT.isSome then c.regionGen else (s.vi c.vi).regionGen, slot := slot, snap := snap, estimate := Config.engineEstimate c.op })
  let s2 : State := if c.cls = 2 then { s1 with cb := { s1.cb with
    cache := s1.cb.cache.map (fun e => if e.1.1 == i && used.contains e.1.2 then (e.1, { e.2 with usedAt := s.now }) else e) } } else s1
  (s2.account c.vi c.cls 2 waited).updInst c.cls i (fun x => { x with waiting := if x.waiting = some cid then none else x.waiting })

/-- Dispatches the chosen command: it is refused, or has no engine, or starts once its blocks are at hand; the arbiters' pointers move (R43, R68,
R79, R81). -/
def State.dispatch (s : State) (cls i cid : Nat) (c : Cmd) (deficits : Tbl Nat Nat) : State :=
  match (if c.st = .waiting then s.refusal c else none) with
  | some b => s.refuseCmd cid c b
  | none =>
    if s.noEngine cls then s.finish cid .noEngine 0
    else
      let (ready, s1) := if cls = 2 ∧ c.st ≠ .saved then s.attendPrep cid c else (true, s)
      if !ready then s1
      else
        let (bad, s2) := if cls = 4 then s1.searchTake cid c else (none, s1)
        match bad with
        | some st => s2.finish cid st 0
        | none =>
          let s3 := (s2.updInst cls i (fun x => { x with deficits := deficits })).place cid ((Tbl.get s2.work.cmds cid).getD c) i
          let s4 := (s3.granted (0x300 + 16 * cls + i) 256 c.vi).granted (0x400 + 16 * cls + i) 16 c.q
          if cls = 1 then s4.granted 0x200 16 i else s4

/-- One decision of a scheduler: an instance with a free resident-job slot takes the command R81 chooses. -/
def execSchedulerDispatch (cls inst : Nat) (s : State) : Out :=
  .next (s.whenLive fun s =>
    if !s.noEngine cls && !(s.instUp cls inst && s.slotFree cls inst) then s
    else match s.pickCmd cls inst with
      | none => s
      | some (cid, c, d) => s.dispatch cls inst cid c d)

/-! ### Pre-emption (R83) -/

/-- A command of a strictly higher level that has been dispatchable for longer than the instance's threshold stops the lowest-priority job, the most
recently dispatched among equals, once every slot runs a job of a lower level and a save record is free (R83). -/
def execPreemptionThreshold (cls inst : Nat) (s : State) : Out :=
  .next (s.whenLive fun s =>
    let x := s.inst cls inst
    let jobs := s.residents cls inst
    let awaited := (x.waiting.bind (Tbl.get s.work.cmds)).any (fun c => c.outcome.isNone && !c.resident)
    let saved := (s.work.cmds.filter (fun e => e.2.cls == cls && e.2.inst == inst && e.2.st == .saved)).length
    let over_ := s.work.cmds.filter (fun e => e.2.cls == cls && e.2.st != .running && s.dispatchable e.2 && s.isFor e.2 inst && decide (e.2.since + x.threshold < s.now))
    match minBy? (fun e => s.levelOf e.2) over_ with
    | none => s
    | some (n, c) =>
      let level := s.levelOf c
      if saveRecords cls = 0 || awaited || !s.instUp cls inst || s.slotFree cls inst || decide (saveRecords cls ≤ saved) ||
          !(jobs.all (fun j => decide (level < s.levelOf j.2))) then s
      else
        match maxBy? (fun j => s.levelOf j.2 * 2 ^ 64 + j.2.since) (jobs.filter (fun j => j.2.st == .running)) with
        | none => s
        | some (v, _) => (s.updCmd v (fun c => { c with st := .stopping })).updInst cls inst (fun y => { y with waiting := some n }))

end Sys2Proof.Machine
end

