-- ==== Sys2Proof/Machine/Dispatch.lean ====
section
/-! DEFINITION. One arm per command: a direct call of its meaning. -/

namespace Sys2Proof.Machine
open Sys2Proof

/-- The effect of a command on everything but the queue. -/
def exec (i : Instr) (s : State) : Host.Outcome State Fault Refusal :=
  match i with
  | .moveLines cid => Sys2Proof.Machine.execMoveLines cid s
  | .moveBlocks cid src => Sys2Proof.Machine.execMoveBlocks cid src s
  | .pullBlocks cid => Sys2Proof.Machine.execPullBlocks cid s
  | .send cid => Sys2Proof.Machine.execSend cid s
  | .recvPost cid => Sys2Proof.Machine.execRecvPost cid s
  | .triggerArm cid => Sys2Proof.Machine.execTriggerArm cid s
  | .attend cid remote => Sys2Proof.Machine.execAttend cid remote s
  | .attendPartial cid => Sys2Proof.Machine.execAttendPartial cid s
  | .attendMerge cid => Sys2Proof.Machine.execAttendMerge cid s
  | .encodeKv cid => Sys2Proof.Machine.execEncodeKv cid s
  | .recodeBlocks cid => Sys2Proof.Machine.execRecodeBlocks cid s
  | .decodeTiles cid remote => Sys2Proof.Machine.execDecodeTiles cid remote s
  | .ecEncode cid remote => Sys2Proof.Machine.execEcEncode cid remote s
  | .check cid => Sys2Proof.Machine.execCheck cid s
  | .search cid => Sys2Proof.Machine.execSearch cid s
  | .insert cid => Sys2Proof.Machine.execInsert cid s
  | .delete cid => Sys2Proof.Machine.execDelete cid s
  | .ringOpen cid => Sys2Proof.Machine.execRingOpen cid s
  | .commit cid => Sys2Proof.Machine.execCommit cid s
  | .ringClose cid held => Sys2Proof.Machine.execRingClose cid held s
  | .windowStream cid remote => Sys2Proof.Machine.execWindowStream cid remote s
  | .windowCancel cid => Sys2Proof.Machine.execWindowCancel cid s
  | .doorbellStore p => Sys2Proof.Machine.execDoorbellStore p s
  | .fmtSelectWrite p => Sys2Proof.Machine.execFmtSelectWrite p s
  | .mailboxHeaderStore p => Sys2Proof.Machine.execMailboxHeaderStore p s
  | .triggerCounterStore p => Sys2Proof.Machine.execTriggerCounterStore p s
  | .triggerCounterFetchAdd p => Sys2Proof.Machine.execTriggerCounterFetchAdd p s
  | .registerWriteOther p => Sys2Proof.Machine.execRegisterWriteOther p s
  | .commandFetch vi cls q => Sys2Proof.Machine.execCommandFetch vi cls q s
  | .seqRereadTimer vi cls q => Sys2Proof.Machine.execSeqRereadTimer vi cls q s
  | .schedulerDispatch cls inst => Sys2Proof.Machine.execSchedulerDispatch cls inst s
  | .deadlineExpiry cid => Sys2Proof.Machine.execDeadlineExpiry cid s
  | .preemptionThreshold cls inst => Sys2Proof.Machine.execPreemptionThreshold cls inst s
  | .jobSaveDone cid => Sys2Proof.Machine.execJobSaveDone cid s
  | .jobCompletionStep cid => Sys2Proof.Machine.execJobCompletionStep cid s
  | .engineFault cls inst => Sys2Proof.Machine.execEngineFault cls inst s
  | .engineSelfTestDone cls inst pass badTiles => Sys2Proof.Machine.execEngineSelfTestDone cls inst pass badTiles s
  | .queueDrainDone vi cls q => Sys2Proof.Machine.execQueueDrainDone vi cls q s
  | .queueResetApply vi cls q => Sys2Proof.Machine.execQueueResetApply vi cls q s
  | .viQuiesceDone vi => Sys2Proof.Machine.execViQuiesceDone vi s
  | .contextSlotEmpty slot => Sys2Proof.Machine.execContextSlotEmpty slot s
  | .regionDrainDone vi => Sys2Proof.Machine.execRegionDrainDone vi s
  | .fabricEpochBoundary => Sys2Proof.Machine.execFabricEpochBoundary s
  | .hubRoundClose contrib => Sys2Proof.Machine.execHubRoundClose contrib s
  | .roundDigestCompare peer ecc0 ecc1 unreadable agreeAgain => Sys2Proof.Machine.execRoundDigestCompare peer ecc0 ecc1 unreadable agreeAgain s
  | .hubFence hub unacked => Sys2Proof.Machine.execHubFence hub unacked s
  | .hubBulkResend seq => Sys2Proof.Machine.execHubBulkResend seq s
  | .hubStateAreaLoss hub => Sys2Proof.Machine.execHubStateAreaLoss hub s
  | .hubStateAreaCopyDone hub => Sys2Proof.Machine.execHubStateAreaCopyDone hub s
  | .dieFence die => Sys2Proof.Machine.execDieFence die s
  | .ledgerAudit counts agree => Sys2Proof.Machine.execLedgerAudit counts agree s
  | .ledgerSync h entries => Sys2Proof.Machine.execLedgerSync h entries s
  | .ledgerSyncTimer => Sys2Proof.Machine.execLedgerSyncTimer s
  | .flitReceive port correctable f => Sys2Proof.Machine.execFlitReceive port correctable f s
  | .nakRepeatTimer port => Sys2Proof.Machine.execNakRepeatTimer port s
  | .flitSend port => Sys2Proof.Machine.execFlitSend port s
  | .noFlitTimeout port => Sys2Proof.Machine.execNoFlitTimeout port s
  | .fastRetrainDone port ok totals => Sys2Proof.Machine.execFastRetrainDone port ok totals s
  | .signalDetect port => Sys2Proof.Machine.execSignalDetect port s
  | .detectRetryTimer port => Sys2Proof.Machine.execDetectRetryTimer port s
  | .equalizeComplete port failed => Sys2Proof.Machine.execEqualizeComplete port failed s
  | .fecLockComplete port => Sys2Proof.Machine.execFecLockComplete port s
  | .capsRecordReceive port r => Sys2Proof.Machine.execCapsRecordReceive port r s
  | .creditInitComplete port => Sys2Proof.Machine.execCreditInitComplete port s
  | .trainingTimeout port failed => Sys2Proof.Machine.execTrainingTimeout port failed s
  | .laneDown port lane reason => Sys2Proof.Machine.execLaneDown port lane reason s
  | .holdDownExpiry port lane => Sys2Proof.Machine.execHoldDownExpiry port lane s
  | .prbsTestDone port lane pass => Sys2Proof.Machine.execPrbsTestDone port lane pass s
  | .laneServiceTimer port lane => Sys2Proof.Machine.execLaneServiceTimer port lane s
  | .widthChange port mask fromPartner => Sys2Proof.Machine.execWidthChange port mask fromPartner s
  | .widthRiseTimer port => Sys2Proof.Machine.execWidthRiseTimer port s
  | .ethFrameReceive port frame fcsOk => Sys2Proof.Machine.execEthFrameReceive port frame fcsOk s
  | .ethPathResendTimer port partner path => Sys2Proof.Machine.execEthPathResendTimer port partner path s
  | .ptpMessageReceive port m => Sys2Proof.Machine.execPtpMessageReceive port m s
  | .syncTimeout => Sys2Proof.Machine.execSyncTimeout s
  | .announceTimeout port => Sys2Proof.Machine.execAnnounceTimeout port s
  | .ppsInEdge lowNs highNs => Sys2Proof.Machine.execPpsInEdge lowNs highNs s
  | .ppsLossTimer reason => Sys2Proof.Machine.execPpsLossTimer reason s
  | .load port p => Sys2Proof.Machine.execLoad port p s
  | .store port p => Sys2Proof.Machine.execStore port p s
  | .storeFlag port p => Sys2Proof.Machine.execStoreFlag port p s
  | .storeFlagRelease flag => Sys2Proof.Machine.execStoreFlagRelease flag s
  | .cas port p => Sys2Proof.Machine.execCas port p s
  | .fetchAdd port p => Sys2Proof.Machine.execFetchAdd port p s
  | .swap port p => Sys2Proof.Machine.execSwap port p s
  | .write port p => Sys2Proof.Machine.execWrite port p s
  | .read port p => Sys2Proof.Machine.execRead port p s
  | .sendData port p => Sys2Proof.Machine.execSendData port p s
  | .msgCtrl p => Sys2Proof.Machine.execMsgCtrl p s
  | .packetResponseReceive p => Sys2Proof.Machine.execPacketResponseReceive p s
  | .packetTransitForward port p => Sys2Proof.Machine.execPacketTransitForward port p s
  | .transitCreditTimeout id => Sys2Proof.Machine.execTransitCreditTimeout id s
  | .retryIntervalTimer dst tag => Sys2Proof.Machine.execRetryIntervalTimer dst tag s
  | .deadBoundExpiry dst tag => Sys2Proof.Machine.execDeadBoundExpiry dst tag s
  | .pathProbeTimer dst path => Sys2Proof.Machine.execPathProbeTimer dst path s
  | .pathEventHoldTimer dst up => Sys2Proof.Machine.execPathEventHoldTimer dst up s
  | .rnrResendTimer dst tag => Sys2Proof.Machine.execRnrResendTimer dst tag s
  | .msgTimeout src msg => Sys2Proof.Machine.execMsgTimeout src msg s
  | .sendCtrlTimeout msg => Sys2Proof.Machine.execSendCtrlTimeout msg s
  | .tombstoneExpiry src msg => Sys2Proof.Machine.execTombstoneExpiry src msg s
  | .triggerExpire cid => Sys2Proof.Machine.execTriggerExpire cid s
  | .windowDrained w => Sys2Proof.Machine.execWindowDrained w s
  | .windowGenHoldTimer w => Sys2Proof.Machine.execWindowGenHoldTimer w s
  | .ingressRequestPacket port pkt => Sys2Proof.Machine.execIngressRequestPacket port pkt s
  | .policerRelease port partner tc => Sys2Proof.Machine.execPolicerRelease port partner tc s
  | .shaperSlotBoundary => Sys2Proof.Machine.execShaperSlotBoundary s
  | .gateIntervalBoundary port => Sys2Proof.Machine.execGateIntervalBoundary port s
  | .gateTakeover port => Sys2Proof.Machine.execGateTakeover port s
  | .gateTestListEnd port => Sys2Proof.Machine.execGateTestListEnd port s
  | .gateFallbackTimer port => Sys2Proof.Machine.execGateFallbackTimer port s
  | .beatBoundary comp => Sys2Proof.Machine.execBeatBoundary comp s
  | .capacityReport h comp records dirFree dram sendTime => Sys2Proof.Machine.execCapacityReport h comp records dirFree dram sendTime s
  | .capacityReportTimer comp => Sys2Proof.Machine.execCapacityReportTimer comp s
  | .capacityStaleTimer comp node => Sys2Proof.Machine.execCapacityStaleTimer comp node s
  | .telemetrySample vi => Sys2Proof.Machine.execTelemetrySample vi s
  | .leapFreeze req target => Sys2Proof.Machine.execLeapFreeze req target s
  | .leapRequest h digest blocks tokens target => Sys2Proof.Machine.execLeapRequest h digest blocks tokens target s
  | .leapGrant h newHolder => Sys2Proof.Machine.execLeapGrant h newHolder s
  | .leapOffer h digest blocks tokens oldHolder comp => Sys2Proof.Machine.execLeapOffer h digest blocks tokens oldHolder comp s
  | .leapManifest h record ring entries => Sys2Proof.Machine.execLeapManifest h record ring entries s
  | .leapAccept h digest => Sys2Proof.Machine.execLeapAccept h digest s
  | .leapCommit h expiry receipt chain => Sys2Proof.Machine.execLeapCommit h expiry receipt chain s
  | .leapRelease h receipt => Sys2Proof.Machine.execLeapRelease h receipt s
  | .leapAbort h reason => Sys2Proof.Machine.execLeapAbort h reason s
  | .leapQuery h => Sys2Proof.Machine.execLeapQuery h s
  | .leapState h state holder => Sys2Proof.Machine.execLeapState h state holder s
  | .leapTimeout req => Sys2Proof.Machine.execLeapTimeout req s
  | .leapQueryTimer req => Sys2Proof.Machine.execLeapQueryTimer req s
  | .leapRetryTimer req => Sys2Proof.Machine.execLeapRetryTimer req s
  | .leaseRenewTimer home => Sys2Proof.Machine.execLeaseRenewTimer home s
  | .leaseRenew h sendTime heldCount freeRecords => Sys2Proof.Machine.execLeaseRenew h sendTime heldCount freeRecords s
  | .leaseAck h expiry homeCount revokeCount => Sys2Proof.Machine.execLeaseAck h expiry homeCount revokeCount s
  | .leaseFenceTimer home => Sys2Proof.Machine.execLeaseFenceTimer home s
  | .leaseLapse holder => Sys2Proof.Machine.execLeaseLapse holder s
  | .holdAssert h chain receipt x => Sys2Proof.Machine.execHoldAssert h chain receipt x s
  | .holdConfirm h => Sys2Proof.Machine.execHoldConfirm h s
  | .holdNone h => Sys2Proof.Machine.execHoldNone h s
  | .holdRevoke h => Sys2Proof.Machine.execHoldRevoke h s
  | .holdList h held => Sys2Proof.Machine.execHoldList h held s
  | .holdAssertTimeout req => Sys2Proof.Machine.execHoldAssertTimeout req s
  | .orphanRecoveryStep req => Sys2Proof.Machine.execOrphanRecoveryStep req s
  | .recoverProbe h receipt newHolder x => Sys2Proof.Machine.execRecoverProbe h receipt newHolder x s
  | .recoverReply h result cRec => Sys2Proof.Machine.execRecoverReply h result cRec s
  | .recoverProbeTimeout req => Sys2Proof.Machine.execRecoverProbeTimeout req s
  | .mirror h image receipt receiptAddr => Sys2Proof.Machine.execMirror h image receipt receiptAddr s
  | .mirrorAck h => Sys2Proof.Machine.execMirrorAck h s
  | .backupReplace failed => Sys2Proof.Machine.execBackupReplace failed s
  | .homeMirrorCopyDone => Sys2Proof.Machine.execHomeMirrorCopyDone s
  | .homeTakeover failed => Sys2Proof.Machine.execHomeTakeover failed s
  | .pullBlockArrival req layer head b desc planes objs => Sys2Proof.Machine.execPullBlockArrival req layer head b desc planes objs s
  | .pullArriveDeadline req layer head b => Sys2Proof.Machine.execPullArriveDeadline req layer head b s
  | .remotePartDeadline cid part => Sys2Proof.Machine.execRemotePartDeadline cid part s
  | .cancelArrivalAtHome req arrival => Sys2Proof.Machine.execCancelArrivalAtHome req arrival s
  | .cancelApply req arrival => Sys2Proof.Machine.execCancelApply req arrival s
  | .prefixRetentionExpiry handle => Sys2Proof.Machine.execPrefixRetentionExpiry handle s
  | .prefixBlocksFree handle => Sys2Proof.Machine.execPrefixBlocksFree handle s
  | .tokenPush h first ids => Sys2Proof.Machine.execTokenPush h first ids s
  | .tokenAck h first n => Sys2Proof.Machine.execTokenAck h first n s
  | .tokenAckTimeout cid bridge => Sys2Proof.Machine.execTokenAckTimeout cid bridge s
  | .tokenCommit h tokCount stopPos reason seq len time => Sys2Proof.Machine.execTokenCommit h tokCount stopPos reason seq len time s
  | .streamDone h tokCount delivered cancelled reason digest => Sys2Proof.Machine.execStreamDone h tokCount delivered cancelled reason digest s
  | .streamFlushTimer req => Sys2Proof.Machine.execStreamFlushTimer req s
  | .streamBlockedTimer vi stream => Sys2Proof.Machine.execStreamBlockedTimer vi stream s
  | .bridgeTakeover lost totals tails => Sys2Proof.Machine.execBridgeTakeover lost totals tails s
  | .rowPut h layer head block first n comp repr kVer vVer rows => Sys2Proof.Machine.execRowPut h layer head block first n comp repr kVer vVer rows s
  | .rowAck h layer head block count crcA crcB => Sys2Proof.Machine.execRowAck h layer head block count crcA crcB s
  | .shardFull h stripe index crcA crcB comp shards => Sys2Proof.Machine.execShardFull h stripe index crcA crcB comp shards s
  | .parityDelta h stripe position comp ack delta sidecar => Sys2Proof.Machine.execParityDelta h stripe position comp ack delta sidecar s
  | .regrowNeed h stripe position down comp => Sys2Proof.Machine.execRegrowNeed h stripe position down comp s
  | .regrowShardDone req stripe position shards sidecar => Sys2Proof.Machine.execRegrowShardDone req stripe position shards sidecar s
  | .backgroundRegrow => Sys2Proof.Machine.execBackgroundRegrow s
  | .protStall h comp member kind ns => Sys2Proof.Machine.execProtStall h comp member kind ns s
  | .straggleTimer write => Sys2Proof.Machine.execStraggleTimer write s
  | .stragglerProbeTimeout comp member => Sys2Proof.Machine.execStragglerProbeTimeout comp member s
  | .memberDown h comp member seq reason => Sys2Proof.Machine.execMemberDown h comp member seq reason s
  | .recoveryDone kind unit comp => Sys2Proof.Machine.execRecoveryDone kind unit comp s
  | .driftWindowClose ctx => Sys2Proof.Machine.execDriftWindowClose ctx s
  | .spawnStart comp e members => Sys2Proof.Machine.execSpawnStart comp e members s
  | .spawnPassDone comp e => Sys2Proof.Machine.execSpawnPassDone comp e s
  | .spawnEnd comp e => Sys2Proof.Machine.execSpawnEnd comp e s
  | .publish h e slot ver addr crc comp => Sys2Proof.Machine.execPublish h e slot ver addr crc comp s
  | .publishAnswer h e slot ver status => Sys2Proof.Machine.execPublishAnswer h e slot ver status s
  | .cbSwitch h e slot ver time => Sys2Proof.Machine.execCbSwitch h e slot ver time s
  | .switchTime ctx e => Sys2Proof.Machine.execSwitchTime ctx e s
  | .refReport h entries => Sys2Proof.Machine.execRefReport h entries s
  | .retire h e ver => Sys2Proof.Machine.execRetire h e ver s
  | .moltPace => Sys2Proof.Machine.execMoltPace s
  | .moltRetryTimer da => Sys2Proof.Machine.execMoltRetryTimer da s
  | .codebookFill die ctx e ver fetched src => Sys2Proof.Machine.execCodebookFill die ctx e ver fetched src s
  | .codebookFillTimeout cid => Sys2Proof.Machine.execCodebookFillTimeout cid s
  | .calibrationSuccession comp lost dirs => Sys2Proof.Machine.execCalibrationSuccession comp lost dirs s
  | .demotionPass comp => Sys2Proof.Machine.execDemotionPass comp s
  | .migrationComplete desc => Sys2Proof.Machine.execMigrationComplete desc s
  | .promotionDeadline desc => Sys2Proof.Machine.execPromotionDeadline desc s
  | .scrubLine line outcome => Sys2Proof.Machine.execScrubLine line outcome s
  | .rowRepair ch group row hard => Sys2Proof.Machine.execRowRepair ch group row hard s
  | .flashRelocate sector => Sys2Proof.Machine.execFlashRelocate sector s
  | .flashGc ch block => Sys2Proof.Machine.execFlashGc ch block s
  | .nandBlockFail ch block => Sys2Proof.Machine.execNandBlockFail ch block s
  | .releasePoll cid => Sys2Proof.Machine.execReleasePoll cid s
  | .layerDue cid => Sys2Proof.Machine.execLayerDue cid s
  | .lateLimitExpiry cid => Sys2Proof.Machine.execLateLimitExpiry cid s
  | .tileCopyTimeout cid => Sys2Proof.Machine.execTileCopyTimeout cid s
  | .codewordCorrections word bits lost => Sys2Proof.Machine.execCodewordCorrections word bits lost s
  | .indexMerge idx => Sys2Proof.Machine.execIndexMerge idx s
  | .mergeInstall idx mirror => Sys2Proof.Machine.execMergeInstall idx mirror s
  | .oldGenerationFree idx gen => Sys2Proof.Machine.execOldGenerationFree idx gen s
  | .deleteHandleRelease idx => Sys2Proof.Machine.execDeleteHandleRelease idx s
  | .indexMirrorApply h idx seq ack items dels => Sys2Proof.Machine.execIndexMirrorApply h idx seq ack items dels s
  | .adhHello c => Sys2Proof.Machine.execAdhHello c s
  | .adhAsyncSet c base log2 tail => Sys2Proof.Machine.execAdhAsyncSet c base log2 tail s
  | .adhEventSubscribe c codes => Sys2Proof.Machine.execAdhEventSubscribe c codes s
  | .adhHealthStatus c => Sys2Proof.Machine.execAdhHealthStatus c s
  | .adhViolationRead c first count => Sys2Proof.Machine.execAdhViolationRead c first count s
  | .adhMgmtConfig c addrs watch collectors => Sys2Proof.Machine.execAdhMgmtConfig c addrs watch collectors s
  | .adhViAssign c vi sources comps models maxPriority shares bits => Sys2Proof.Machine.execAdhViAssign c vi sources comps models maxPriority shares bits s
  | .adhViRelease c vi => Sys2Proof.Machine.execAdhViRelease c vi s
  | .adhQueueCreate c cls q ringBase ringLog2 cplBase priority phaseG inst notify => Sys2Proof.Machine.execAdhQueueCreate c cls q ringBase ringLog2 cplBase priority phaseG inst notify s
  | .adhQueueDestroy c cls q => Sys2Proof.Machine.execAdhQueueDestroy c cls q s
  | .adhQueueReset c cls q cmdIndex cplIndex => Sys2Proof.Machine.execAdhQueueReset c cls q cmdIndex cplIndex s
  | .adhEngineConfig c cls inst threshold => Sys2Proof.Machine.execAdhEngineConfig c cls inst threshold s
  | .adhPhaseShare c cls inst floorG floorP => Sys2Proof.Machine.execAdhPhaseShare c cls inst floorG floorP s
  | .adhContextLoad c model comp headDim layers kvHeads qPerKv cbDir wtDir => Sys2Proof.Machine.execAdhContextLoad c model comp headDim layers kvHeads qPerKv cbDir wtDir s
  | .adhContextBind c slot index => Sys2Proof.Machine.execAdhContextBind c slot index s
  | .adhContextUnbind c index => Sys2Proof.Machine.execAdhContextUnbind c index s
  | .adhCodebookFactors c slot layer head kv factors => Sys2Proof.Machine.execAdhCodebookFactors c slot layer head kv factors s
  | .adhCodebookLoad c slot obj => Sys2Proof.Machine.execAdhCodebookLoad c slot obj s
  | .adhCalibrationPolicy c comp node p => Sys2Proof.Machine.execAdhCalibrationPolicy c comp node p s
  | .adhAttendPolicy c comp distHi epsHi dvHi => Sys2Proof.Machine.execAdhAttendPolicy c comp distHi epsHi dvHi s
  | .adhWeightsLoad c slot entries tiles => Sys2Proof.Machine.execAdhWeightsLoad c slot entries tiles s
  | .adhCompositionDefine c comp model epoch prompt gen cache home prot repr beat quotas => Sys2Proof.Machine.execAdhCompositionDefine c comp model epoch prompt gen cache home prot repr beat quotas s
  | .adhCompositionStatus c comp => Sys2Proof.Machine.execAdhCompositionStatus c comp s
  | .adhMeterRead c comp first count => Sys2Proof.Machine.execAdhMeterRead c comp first count s
  | .adhAdmissionPolicy c comp bridges gReserve waitS waitO => Sys2Proof.Machine.execAdhAdmissionPolicy c comp bridges gReserve waitS waitO s
  | .adhRequestSubmit c sub => Sys2Proof.Machine.execAdhRequestSubmit c sub s
  | .adhRequestCancel c tag req => Sys2Proof.Machine.execAdhRequestCancel c tag req s
  | .adhRequestRead c req => Sys2Proof.Machine.execAdhRequestRead c req s
  | .adhPrefixKeep c req retain => Sys2Proof.Machine.execAdhPrefixKeep c req retain s
  | .adhPrefixRelease c handle => Sys2Proof.Machine.execAdhPrefixRelease c handle s
  | .adhStreamConfig c stream recBase recLog2 tail head flushNs => Sys2Proof.Machine.execAdhStreamConfig c stream recBase recLog2 tail head flushNs s
  | .adhDirectoryRead c req => Sys2Proof.Machine.execAdhDirectoryRead c req s
  | .adhReceiptRead c req first count => Sys2Proof.Machine.execAdhReceiptRead c req first count s
  | .adhLeapPolicy c comp lease leapTimeout pullMode pullDeadline => Sys2Proof.Machine.execAdhLeapPolicy c comp lease leapTimeout pullMode pullDeadline s
  | .adhLeapStart c req target => Sys2Proof.Machine.execAdhLeapStart c req target s
  | .adhArenaDefine c tier die headDim base slots parity => Sys2Proof.Machine.execAdhArenaDefine c tier die headDim base slots parity s
  | .adhTierConfig c sramTier interleave flashOp => Sys2Proof.Machine.execAdhTierConfig c sramTier interleave flashOp s
  | .adhTierPolicy c comp p => Sys2Proof.Machine.execAdhTierPolicy c comp p s
  | .adhTierStatus c kind id => Sys2Proof.Machine.execAdhTierStatus c kind id s
  | .adhScrubPolicy c period => Sys2Proof.Machine.execAdhScrubPolicy c period s
  | .adhRegionSet c vi index base limit owner rights valid => Sys2Proof.Machine.execAdhRegionSet c vi index base limit owner rights valid s
  | .adhQuotaSet c kind id tier ceiling => Sys2Proof.Machine.execAdhQuotaSet c kind id tier ceiling s
  | .adhPortConfig c port mode roles rate minWidth pools endpoint eth => Sys2Proof.Machine.execAdhPortConfig c port mode roles rate minWidth pools endpoint eth s
  | .adhPortStatus c port => Sys2Proof.Machine.execAdhPortStatus c port s
  | .adhPartnerSet c port entry fields => Sys2Proof.Machine.execAdhPartnerSet c port entry fields s
  | .adhRouteLoad c routes => Sys2Proof.Machine.execAdhRouteLoad c routes s
  | .adhFabricPolicy c deadBound msgTimeout rnrLimit => Sys2Proof.Machine.execAdhFabricPolicy c deadBound msgTimeout rnrLimit s
  | .adhTimeConfig c domain asymmetry pps p1 p2 tod utc => Sys2Proof.Machine.execAdhTimeConfig c domain asymmetry pps p1 p2 tod utc s
  | .adhWindowOpen c window base limit owner rights comp listMask srcs => Sys2Proof.Machine.execAdhWindowOpen c window base limit owner rights comp listMask srcs s
  | .adhWindowRevoke c window => Sys2Proof.Machine.execAdhWindowRevoke c window s
  | .adhWindowRenew c window => Sys2Proof.Machine.execAdhWindowRenew c window s
  | .adhWindowClose c window => Sys2Proof.Machine.execAdhWindowClose c window s
  | .adhWindowRead c window => Sys2Proof.Machine.execAdhWindowRead c window s
  | .adhTrafficClasses c classes => Sys2Proof.Machine.execAdhTrafficClasses c classes s
  | .adhGateLoad c port obj => Sys2Proof.Machine.execAdhGateLoad c port obj s
  | .adhGatePolicy c port guard after openFallback => Sys2Proof.Machine.execAdhGatePolicy c port guard after openFallback s
  | .adhShaperSet c vi tc rate burst => Sys2Proof.Machine.execAdhShaperSet c vi tc rate burst s
  | .adhPoliceSet c port partner tc rate burst classes => Sys2Proof.Machine.execAdhPoliceSet c port partner tc rate burst classes s
  | .adhTelemetryConfig c base log2 period queues => Sys2Proof.Machine.execAdhTelemetryConfig c base log2 period queues s
  | .adhCounterConfig c unit sels => Sys2Proof.Machine.execAdhCounterConfig c unit sels s
  | .adhCounterSnapshot c units mode ids time out => Sys2Proof.Machine.execAdhCounterSnapshot c units mode ids time out s
  | .adhSampleConfig c base log2 tail intervals node => Sys2Proof.Machine.execAdhSampleConfig c base log2 tail intervals node s
  | .adhIndexCreate c idx comp dim nlist itemMax sideMax wide l2 mirror itemBase centBase vecBase segBase segBytes => Sys2Proof.Machine.execAdhIndexCreate c idx comp dim nlist itemMax sideMax wide l2 mirror itemBase centBase vecBase segBase segBytes s
  | .adhIndexStatus c idx => Sys2Proof.Machine.execAdhIndexStatus c idx s
  | .adhIndexPolicy c idx mergeAt splitAt retireAt => Sys2Proof.Machine.execAdhIndexPolicy c idx mergeAt splitAt retireAt s
  | .adhIndexMerge c idx => Sys2Proof.Machine.execAdhIndexMerge c idx s
  | .adhIndexDestroy c idx => Sys2Proof.Machine.execAdhIndexDestroy c idx s
  | .adhChangeOrder c order actions => Sys2Proof.Machine.execAdhChangeOrder c order actions s
  | .orderDrainDone => Sys2Proof.Machine.execOrderDrainDone s
  | .adhAttest c nonce => Sys2Proof.Machine.execAdhAttest c nonce s
  | .adhTrustInstall c da no => Sys2Proof.Machine.execAdhTrustInstall c da no s
  | .adhTrustRotate c da no => Sys2Proof.Machine.execAdhTrustRotate c da no s
  | .adhTrustClear c => Sys2Proof.Machine.execAdhTrustClear c s
  | .adhRightsSet c vi sources comps models maxPriority shares bits => Sys2Proof.Machine.execAdhRightsSet c vi sources comps models maxPriority shares bits s
  | .adhFirmwareUpdate c image raiseSvn => Sys2Proof.Machine.execAdhFirmwareUpdate c image raiseSvn s
  | .adhPersonalitySet c p => Sys2Proof.Machine.execAdhPersonalitySet c p s
  | .adhNodeReset c time => Sys2Proof.Machine.execAdhNodeReset c time s
  | .nodeResetTime => Sys2Proof.Machine.execNodeResetTime s
  | .adhCroakKey c key => Sys2Proof.Machine.execAdhCroakKey c key s
  | .adhSessionOpen c principal challenge sig => Sys2Proof.Machine.execAdhSessionOpen c principal challenge sig s
  | .adhUpload c off bytes => Sys2Proof.Machine.execAdhUpload c off bytes s
  | .mgmtSessionDatagram bytes => Sys2Proof.Machine.execMgmtSessionDatagram bytes s
  | .sessionIdleTimer id => Sys2Proof.Machine.execSessionIdleTimer id s
  | .adeahFailover => Sys2Proof.Machine.execAdeahFailover s
  | .croakSendTimer mg => Sys2Proof.Machine.execCroakSendTimer mg s
  | .croakReceive plane bytes => Sys2Proof.Machine.execCroakReceive plane bytes s
  | .croakMiss node => Sys2Proof.Machine.execCroakMiss node s
  | .croakPlaneTimer node plane => Sys2Proof.Machine.execCroakPlaneTimer node plane s
  | .recoverySolicit => Sys2Proof.Machine.execRecoverySolicit s
  | .recoveryImageBlock off data crc => Sys2Proof.Machine.execRecoveryImageBlock off data crc s
  | .counterCapture => Sys2Proof.Machine.execCounterCapture s
  | .vinExcursion mv => Sys2Proof.Machine.execVinExcursion mv s
  | .pwrgdRise => Sys2Proof.Machine.execPwrgdRise s
  | .pwrgdFall => Sys2Proof.Machine.execPwrgdFall s
  | .powerdownComplete => Sys2Proof.Machine.execPowerdownComplete s
  | .resetNAssert refclkGood => Sys2Proof.Machine.execResetNAssert refclkGood s
  | .resetNRelease => Sys2Proof.Machine.execResetNRelease s
  | .safeNAssert => Sys2Proof.Machine.execSafeNAssert s
  | .safeNRelease => Sys2Proof.Machine.execSafeNRelease s
  | .safeNStuckTimer => Sys2Proof.Machine.execSafeNStuckTimer s
  | .safeStormEndTimer => Sys2Proof.Machine.execSafeStormEndTimer s
  | .refclkLoss => Sys2Proof.Machine.execRefclkLoss s
  | .thermalTrip die => Sys2Proof.Machine.execThermalTrip die s
  | .thermalStepTimer temps => Sys2Proof.Machine.execThermalStepTimer temps s
  | .inputPowerStep watts => Sys2Proof.Machine.execInputPowerStep watts s
  | .thermalWarn die temp => Sys2Proof.Machine.execThermalWarn die temp s
  | .alertHoldTimer => Sys2Proof.Machine.execAlertHoldTimer s
  | .idcode => Sys2Proof.Machine.execIdcode s
  | .samplePreload captured preload => Sys2Proof.Machine.execSamplePreload captured preload s
  | .extest => Sys2Proof.Machine.execExtest s
  | .extestPulse => Sys2Proof.Machine.execExtestPulse s
  | .extestTrain => Sys2Proof.Machine.execExtestTrain s
  | .highz => Sys2Proof.Machine.execHighz s
  | .clamp => Sys2Proof.Machine.execClamp s
  | .bypass code => Sys2Proof.Machine.execBypass code s
  | .imageVerify die readOk => Sys2Proof.Machine.execImageVerify die readOk s
  | .dieSelfTestDone die pass badTiles => Sys2Proof.Machine.execDieSelfTestDone die pass badTiles s
  | .dramTrainingDone ch pass rate => Sys2Proof.Machine.execDramTrainingDone ch pass rate s
  | .nandRebuildDone die chans => Sys2Proof.Machine.execNandRebuildDone die chans s
  | .nodeJoin => Sys2Proof.Machine.execNodeJoin s
  | .joinFailedTimer => Sys2Proof.Machine.execJoinFailedTimer s
  | .prefillStart a => Sys2Proof.Machine.execPrefillStart a s
  | .contextLoadDone slot => Sys2Proof.Machine.execContextLoadDone slot s
  | .channelLoss kind ch => Sys2Proof.Machine.execChannelLoss kind ch s
  | .vinReturn mv => Sys2Proof.Machine.execVinReturn mv s
  | .ptpTransmitTimer port kind => Sys2Proof.Machine.execPtpTransmitTimer port kind s
  | .timeSlewDone => Sys2Proof.Machine.execTimeSlewDone s
  | .ethernetLinkUp port => Sys2Proof.Machine.execEthernetLinkUp port s
  | .ethPathHoldDownExpiry port partner path => Sys2Proof.Machine.execEthPathHoldDownExpiry port partner path s

end Sys2Proof.Machine
end

