-- ==== Sys2Proof/Machine/Tick.lean ====
section
/-! DEFINITION. What one nanosecond without a command does (R8, R275, R479, R480; log 2): the table has no row for it. -/

namespace Sys2Proof.Machine
open Sys2Proof

/-- Whether a held reset may end: RESET_N is high, PWRGD has been high for 10 ms, the converters and REFCLK are good (R479). -/
def State.resetEnds (s : State) : Bool :=
  s.pw.resetHeld && s.pw.resetHigh && s.pwrgdSettled && s.pw.converters && s.pw.refclk && !s.pw.tripped

/-- The always-on clock advances, the step SAFE_N required falls, a held reset ends, and fabric time counts on a package that runs (R275, R479,
R480; log 2). -/
def State.tick (s : State) : State :=
  let s1 := ({ s with aon := s.aon + 1 } : State).safeFall
  if s1.resetEnds then s1.startup else if s1.live then s1.tickTime else s1

end Sys2Proof.Machine
end

