-- ==== Sys2Proof/Safety.lean ====
section
/-! DEFINITION. The terms the statements use: a running package, what a command does, the always-on commands, and the invariants of every step. -/

namespace Sys2Proof

/-- The commands of the always-on island and of the pins, which act on a package that does not run (R475, R478 to R484). -/
def Instr.alwaysOn (c : Instr) : Bool :=
  match c with
  | .vinExcursion _ | .vinReturn _ | .pwrgdRise | .pwrgdFall | .powerdownComplete | .resetNAssert _ | .resetNRelease | .safeNAssert | .safeNRelease => true
  | .safeNStuckTimer | .safeStormEndTimer | .refclkLoss | .thermalTrip _ | .alertHoldTimer => true
  | .idcode | .samplePreload _ _ | .extest | .extestPulse | .extestTrain | .highz | .clamp | .bypass _ => true
  | _ => false

/-- The commands that can start the converters: PWRGD recognised high, and the end of a power-down with PWRGD high again (R478, R495). -/
def Instr.wakes (c : Instr) : Bool :=
  match c with
  | .pwrgdRise | .powerdownComplete => true
  | _ => false

end Sys2Proof

namespace Sys2Proof.Machine
open Sys2Proof

/-- The canonical form of memory: addresses strictly rise and no listed byte is the zero an unlisted address reads as (log 1). -/
abbrev Memory.wf (m : List Host.Cell) : Prop := memWf m = true

/-- The package runs: converters, reset, REFCLK, no trip, and no pair of dies lost (R56, R477 to R479, R483). -/
abbrev Up (s : State) : Prop := s.live = true ∧ s.pkg.outOfService = false

/-- Carrying out a command on a state answers a next state. -/
abbrev Does (c : Instr) (s t : State) : Prop := exec c s = .next t

/-- The converters are off, memory is lost, and no waiting command can start the converters. -/
abbrev State.off (s : State) : Prop := s.pw.converters = false ∧ s.mem = [] ∧ s.pending.all (fun c => !c.wakes) = true

/-- The TAP's register and mode are those its instruction register selects; a test instruction not accepted stands as BYPASS (R484). -/
def Jtag.ok (j : Jtag) : Bool :=
  decide (j.sampled < 2 ^ boundaryCells) && decide (j.preload < 2 ^ boundaryCells) && (match j.ir with
    | 1 => j.reg == .idcode && j.mode == .functional
    | 2 => j.reg == .boundary && j.mode == .functional
    | 3 => (j.reg == .boundary && j.mode == .extest) || (j.reg == .bypass && j.mode == .functional)
    | 4 => (j.reg == .boundary && j.mode == .extestPulse) || (j.reg == .bypass && j.mode == .functional)
    | 5 => (j.reg == .boundary && j.mode == .extestTrain) || (j.reg == .bypass && j.mode == .functional)
    | 6 => j.reg == .bypass && (j.mode == .highz || j.mode == .functional)
    | 7 => j.reg == .bypass && (j.mode == .clamp || j.mode == .functional)
    | n => decide (n < 256) && j.reg == .bypass && j.mode == .functional)

/-- The state once a request packet has left its receive buffer and its source has been heard (R259, R299). -/
def State.taken (s : State) (port : Nat) (p : Packet) : State := (s.consume port p).heard p.src

/-- A request packet for this node passes every check before its effect: not policed, sound, new, permitted, of a form its space
takes, and not for an endpoint's aperture (R286 to R292, R336). -/
abbrev Admitted (port : Nat) (p : Packet) (s : State) : Prop :=
  s.policedBy port p = none ∧ requestFormOk p = true ∧ p.crcOk = true ∧ p.dst = s.node ∧ (s.taken port p).kept p = none ∧
  (s.taken port p).carried p = false ∧ (s.taken port p).targetFault port p = none ∧ (s.taken port p).formFault p = false ∧ apertureOf p.addr = none

/-- The memory lines a request touches exist and can be read (R229, R284). -/
abbrev Readable (port : Nat) (p : Packet) (s : State) : Prop :=
  (addrSpace p.addr = 1 ∨ addrSpace p.addr = 3) ∧ (s.taken port p).readFault (p.addr / 64 * 64) (max (touchLen p) 64) = none ∧
  (s.taken port p).lineLost p.addr false = false

/-- A command has its outcome, and completes at its next completion step. -/
abbrev State.ended (s : State) (cid : Nat) (st : Status) (result : Nat) : Prop := (Tbl.get s.work.cmds cid).bind (·.outcome) = some (st, result)

/-- A mailbox operation whose request Adeah holds, from a caller its form admits (R392, R400). -/
abbrev Asked (s : State) (op : Nat) (f : Form) (c : Caller) : Prop :=
  s.live = true ∧ s.primaryUp = true ∧ s.holdsReq c op = true ∧ s.admits f c = true

/-- The last message sent goes to a node, with a code, about a request (R124). -/
abbrev State.sent (t : State) (dst code rid : Nat) : Prop := t.log.msgs.getLast?.map (fun m => (m.dst, m.code, m.req)) = some (dst, code, rid)

/-- The mailbox of a caller is answered, and IDLE again (R395, R396). -/
abbrev State.replied (t : State) (c : Caller) (st : Status) (result : Nat) (body : List Nat) : Prop :=
  (t.mbox c.vi c.mbox).busy = false ∧ (t.mbox c.vi c.mbox).applied = some { mbSeq := c.mbSeq, status := st, result := result, body := body }

/-- A mailbox operation whose request Adeah holds, made through a mailbox (R392, R393, R400). -/
abbrev AskedBox (s : State) (op : Nat) (f : Form) (c : Caller) : Prop := Asked s op f c ∧ c.session = none ∧ c.order = none

/-- The sample rows a spawn gathers on its calibration node (R199, R201). -/
def State.gathered (s : State) (ctx comp e : Nat) (members : List (Nat × Nat × List (List Byte))) : List (List Byte) :=
  let r := Tbl.at s.cb.reservoirs (ctx, e) {}
  let own := (s.node, (s.counters ctx e (s.cbSet ctx e).curSlot).getD 8 0, r.newRows ++ r.oldRows)
  let all := own :: members.filter (fun m => (s.comp comp).cur.members.contains m.1 && m.1 != s.node)
  let total := (all.map (fun m => m.2.1)).sum
  all.flatMap (fun m => m.2.2.take (if total = 0 then (s.calib comp).spawnSamples / max 1 all.length else (s.calib comp).spawnSamples * m.2.1 / total))

/-- A directory entry whose versions, states, counts and times fit their fields (R190). -/
abbrev CbSet.fits (x : CbSet) : Prop :=
  x.cur < 2 ^ 16 ∧ x.curSlot < 4 ∧ x.nextSlot < 4 ∧ x.switchAt < 2 ^ 64 ∧ x.lastDrift < 2 ^ 64 ∧ x.slots.length = 4 ∧
  x.slots.all (fun v => decide (v.1 < 2 ^ 16) && decide (v.2.1 < 8) && decide (v.2.2 < 2 ^ 32)) = true

/-- The bytes of two memories agree but for a run. -/
def sameBut (m n : List Host.Cell) (base len : Nat) : Prop := ∀ a, (a < base ∨ base + len ≤ a) → memGet n a = memGet m a

end Sys2Proof.Machine
end

