-- ==== Sys2Proof/WellFormed.lean ====
section
/-! DEFINITION. Well-formed commands: every operand that numbers a unit, a node, an identifier or a field of a packet header lies in the range the
manual gives it. The operands of a mailbox operation are checked by the operation itself (R10), so that only its caller is checked here. -/

namespace Sys2Proof

/-- A VI number (R58). -/
def okVi (n : Nat) : Bool := decide (n < 256)
/-- An engine class (R67). -/
def okCls (n : Nat) : Bool := decide (1 ≤ n) && decide (n ≤ 6)
/-- A queue number (R69). -/
def okQ (n : Nat) : Bool := decide (n < 16)
/-- An instance or channel number of any class (R67). -/
def okInst (n : Nat) : Bool := decide (n < 16)
/-- A port: n whole, n + 32 its half L, n + 64 its half H (R251). -/
def okPort (n : Nat) : Bool := decide (n < 96) && decide (n % 32 < 18)
/-- A port's lane. -/
def okLane (n : Nat) : Bool := decide (n < 8)
/-- One of a pair: a hub, a management die or a management plane (R38, R391). -/
def okPair (n : Nat) : Bool := decide (n < 2)
/-- A path index (R295). -/
def okPath (n : Nat) : Bool := decide (n < 16)
/-- A traffic class (R75). -/
def okTc (n : Nat) : Bool := decide (n < 8)
/-- A node id (R282). -/
def okNode (n : Nat) : Bool := decide (n < 4096)
/-- A request id (R75). -/
def okReq (n : Nat) : Bool := decide (n < 2 ^ 48)
/-- A context slot (R79). -/
def okSlot (n : Nat) : Bool := decide (n < 64)
/-- A version slot of a codebook set (R190). -/
def okVSlot (n : Nat) : Bool := decide (n < 4)
/-- An MC die by its number in its kind (R33). -/
def okMc (n : Nat) : Bool := decide (n < 8)
/-- A die (R33). -/
def okDie (n : Nat) : Bool := decide (n < 20)
/-- A DRAM channel (R283). -/
def okChan (n : Nat) : Bool := decide (n < 16)
/-- A NAND channel (R216). -/
def okFlash (n : Nat) : Bool := decide (n < 32)
/-- A window (R285). -/
def okWin (n : Nat) : Bool := decide (n < 4095)
/-- An index (R369). -/
def okIdx (n : Nat) : Bool := decide (n < 64)

/-- The header's fields fit their bits, and the payload has its length (R285). -/
def Packet.wf (p : Packet) : Bool :=
  okTc p.tc && okNode p.dst && okNode p.src && okVi p.srcVi && decide (p.srcEp < 64) && okPath p.path && decide (p.hops < 16) && decide (p.addr < 2 ^ 64) &&
    decide (p.tag < 2 ^ 32) && decide (p.winGen < 2 ^ 16) && okNode p.winId && decide (p.operand < 2 ^ 64) && decide (p.status < 2 ^ 16) &&
    decide (p.payloadLen ≤ 4096) && decide (p.msgId < 2 ^ 32) && decide (p.crc < 2 ^ 64) && decide (p.payload.length ≤ 4096)
/-- The header's fields fit their bits (R124). -/
def MsgHdr.wf (h : MsgHdr) : Bool := okNode h.src && okReq h.req && decide (h.epoch < 2 ^ 32) && decide (h.mapEpoch < 2 ^ 32)
/-- The VI and the mailbox exist (R61). -/
def Caller.wf (c : Caller) : Bool := okVi c.vi && decide (c.mbox < 4)
/-- The header's fields fit their bits (R254). -/
def Flit.wf (f : Flit) : Bool := okTc f.vc && decide (f.firstUnit < 32) && decide (f.seq < 2 ^ 12) && decide (f.ackSeq < 2 ^ 12)

/-- Whether a command is well-formed. -/
def Instr.wf (i : Instr) : Bool :=
  match i with
  | .vinExcursion _ => true
  | .vinReturn _ => true
  | .pwrgdRise => true
  | .pwrgdFall => true
  | .powerdownComplete => true
  | .resetNAssert _ => true
  | .resetNRelease => true
  | .safeNAssert => true
  | .safeNRelease => true
  | .safeNStuckTimer => true
  | .safeStormEndTimer => true
  | .refclkLoss => true
  | .thermalTrip die => okDie die
  | .thermalStepTimer _ => true
  | .inputPowerStep _ => true
  | .thermalWarn die _ => okDie die
  | .alertHoldTimer => true
  | .idcode => true
  | .samplePreload _ _ => true
  | .extest => true
  | .extestPulse => true
  | .extestTrain => true
  | .highz => true
  | .clamp => true
  | .bypass _ => true
  | .imageVerify die _ => okPair die
  | .dieSelfTestDone die _ _ => okDie die
  | .dramTrainingDone ch _ _ => okChan ch
  | .nandRebuildDone _ _ => true
  | .nodeJoin => true
  | .joinFailedTimer => true
  | .nodeResetTime => true
  | .recoverySolicit => true
  | .recoveryImageBlock _ _ _ => true
  | .dieFence die => okDie die
  | .hubFence hub _ => okPair hub
  | .hubBulkResend _ => true
  | .hubStateAreaLoss hub => okPair hub
  | .hubStateAreaCopyDone hub => okPair hub
  | .hubRoundClose _ => true
  | .roundDigestCompare peer _ _ _ _ => okNode peer
  | .ledgerAudit _ _ => true
  | .ledgerSync h _ => h.wf
  | .ledgerSyncTimer => true
  | .channelLoss _ _ => true
  | .fabricEpochBoundary => true
  | .doorbellStore p => p.wf
  | .fmtSelectWrite p => p.wf
  | .mailboxHeaderStore p => p.wf
  | .triggerCounterStore p => p.wf
  | .triggerCounterFetchAdd p => p.wf
  | .registerWriteOther p => p.wf
  | .commandFetch vi cls q => okVi vi && okCls cls && okQ q
  | .seqRereadTimer vi cls q => okVi vi && okCls cls && okQ q
  | .schedulerDispatch cls inst => okCls cls && okInst inst
  | .deadlineExpiry _ => true
  | .preemptionThreshold cls inst => okCls cls && okInst inst
  | .jobSaveDone _ => true
  | .jobCompletionStep _ => true
  | .engineFault cls inst => okCls cls && okInst inst
  | .engineSelfTestDone cls inst _ _ => okCls cls && okInst inst
  | .queueDrainDone vi cls q => okVi vi && okCls cls && okQ q
  | .queueResetApply vi cls q => okVi vi && okCls cls && okQ q
  | .viQuiesceDone vi => okVi vi
  | .contextSlotEmpty slot => okSlot slot
  | .contextLoadDone slot => okSlot slot
  | .regionDrainDone vi => okVi vi
  | .load port p => okPort port && p.wf
  | .store port p => okPort port && p.wf
  | .storeFlag port p => okPort port && p.wf
  | .storeFlagRelease _ => true
  | .cas port p => okPort port && p.wf
  | .fetchAdd port p => okPort port && p.wf
  | .swap port p => okPort port && p.wf
  | .write port p => okPort port && p.wf
  | .read port p => okPort port && p.wf
  | .sendData port p => okPort port && p.wf
  | .msgCtrl p => p.wf
  | .packetResponseReceive p => p.wf
  | .packetTransitForward port p => okPort port && p.wf
  | .transitCreditTimeout _ => true
  | .retryIntervalTimer dst _ => okNode dst
  | .deadBoundExpiry dst _ => okNode dst
  | .pathProbeTimer dst path => okNode dst && okPath path
  | .pathEventHoldTimer dst _ => okNode dst
  | .rnrResendTimer dst _ => okNode dst
  | .msgTimeout src _ => okNode src
  | .sendCtrlTimeout _ => true
  | .tombstoneExpiry src _ => okNode src
  | .triggerExpire _ => true
  | .windowDrained w => okWin w
  | .windowGenHoldTimer w => okWin w
  | .moveLines _ => true
  | .moveBlocks _ _ => true
  | .pullBlocks _ => true
  | .send _ => true
  | .recvPost _ => true
  | .triggerArm _ => true
  | .attend _ _ => true
  | .attendPartial _ => true
  | .attendMerge _ => true
  | .encodeKv _ => true
  | .recodeBlocks _ => true
  | .decodeTiles _ _ => true
  | .ecEncode _ _ => true
  | .check _ => true
  | .search _ => true
  | .insert _ => true
  | .delete _ => true
  | .ringOpen _ => true
  | .commit _ => true
  | .ringClose _ _ => true
  | .windowStream _ _ => true
  | .windowCancel _ => true
  | .leapFreeze req _ => okReq req
  | .leapRequest h _ _ _ _ => h.wf
  | .leapGrant h newHolder => h.wf && okNode newHolder
  | .leapOffer h _ _ _ oldHolder _ => h.wf && okNode oldHolder
  | .leapManifest h _ _ _ => h.wf
  | .leapAccept h _ => h.wf
  | .leapCommit h _ _ _ => h.wf
  | .leapRelease h _ => h.wf
  | .leapAbort h _ => h.wf
  | .leapQuery h => h.wf
  | .leapState h _ holder => h.wf && okNode holder
  | .leapTimeout req => okReq req
  | .leapQueryTimer req => okReq req
  | .leapRetryTimer req => okReq req
  | .leaseRenewTimer home => okNode home
  | .leaseRenew h _ _ _ => h.wf
  | .leaseAck h _ _ _ => h.wf
  | .leaseFenceTimer home => okNode home
  | .leaseLapse holder => okNode holder
  | .holdAssert h _ _ _ => h.wf
  | .holdConfirm h => h.wf
  | .holdNone h => h.wf
  | .holdRevoke h => h.wf
  | .holdList h _ => h.wf
  | .holdAssertTimeout req => okReq req
  | .orphanRecoveryStep req => okReq req
  | .recoverProbe h _ newHolder _ => h.wf && okNode newHolder
  | .recoverReply h _ _ => h.wf
  | .recoverProbeTimeout req => okReq req
  | .mirror h _ _ _ => h.wf
  | .mirrorAck h => h.wf
  | .backupReplace failed => okNode failed
  | .homeMirrorCopyDone => true
  | .homeTakeover failed => okNode failed
  | .pullBlockArrival req _ _ _ _ _ _ => okReq req
  | .pullArriveDeadline req _ _ _ => okReq req
  | .remotePartDeadline _ _ => true
  | .cancelArrivalAtHome req _ => okReq req
  | .cancelApply req _ => okReq req
  | .flitReceive port _ f => okPort port && f.wf
  | .nakRepeatTimer port => okPort port
  | .flitSend port => okPort port
  | .noFlitTimeout port => okPort port
  | .fastRetrainDone port _ _ => okPort port
  | .signalDetect port => okPort port
  | .detectRetryTimer port => okPort port
  | .equalizeComplete port _ => okPort port
  | .fecLockComplete port => okPort port
  | .capsRecordReceive port _ => okPort port
  | .creditInitComplete port => okPort port
  | .trainingTimeout port _ => okPort port
  | .laneDown port lane _ => okPort port && okLane lane
  | .holdDownExpiry port lane => okPort port && okLane lane
  | .prbsTestDone port lane _ => okPort port && okLane lane
  | .laneServiceTimer port lane => okPort port && okLane lane
  | .widthChange port _ _ => okPort port
  | .widthRiseTimer port => okPort port
  | .ethFrameReceive port _ _ => okPort port
  | .ethPathResendTimer port _ path => okPort port && okPath path
  | .ethPathHoldDownExpiry port _ path => okPort port && okPath path
  | .ethernetLinkUp port => okPort port
  | .ptpMessageReceive port _ => okPort port
  | .syncTimeout => true
  | .announceTimeout port => okPort port
  | .ptpTransmitTimer port _ => okPort port
  | .timeSlewDone => true
  | .ppsInEdge _ _ => true
  | .ppsLossTimer _ => true
  | .driftWindowClose ctx => okSlot ctx
  | .spawnStart _ _ _ => true
  | .spawnPassDone _ _ => true
  | .spawnEnd _ _ => true
  | .publish h _ slot _ _ _ _ => h.wf && okVSlot slot
  | .publishAnswer h _ slot _ _ => h.wf && okVSlot slot
  | .cbSwitch h _ slot _ _ => h.wf && okVSlot slot
  | .switchTime ctx _ => okSlot ctx
  | .refReport h _ => h.wf
  | .retire h _ _ => h.wf
  | .moltPace => true
  | .moltRetryTimer _ => true
  | .codebookFill die ctx _ _ _ _ => okMc die && okSlot ctx
  | .codebookFillTimeout _ => true
  | .calibrationSuccession _ lost _ => okNode lost
  | .ingressRequestPacket port pkt => okPort port && pkt.wf
  | .policerRelease port _ tc => okPort port && okTc tc
  | .shaperSlotBoundary => true
  | .gateIntervalBoundary port => okPort port
  | .gateTakeover port => okPort port
  | .gateTestListEnd port => okPort port
  | .gateFallbackTimer port => okPort port
  | .beatBoundary _ => true
  | .capacityReport h _ _ _ _ _ => h.wf
  | .capacityReportTimer _ => true
  | .capacityStaleTimer _ node => okNode node
  | .telemetrySample vi => okVi vi
  | .prefixRetentionExpiry _ => true
  | .prefixBlocksFree _ => true
  | .prefillStart _ => true
  | .tokenPush h _ _ => h.wf
  | .tokenAck h _ _ => h.wf
  | .tokenAckTimeout _ bridge => okNode bridge
  | .tokenCommit h _ _ _ _ _ _ => h.wf
  | .streamDone h _ _ _ _ _ => h.wf
  | .streamFlushTimer req => okReq req
  | .streamBlockedTimer vi _ => okVi vi
  | .bridgeTakeover lost _ _ => okNode lost
  | .rowPut h _ _ _ _ _ _ _ _ _ _ => h.wf
  | .rowAck h _ _ _ _ _ _ => h.wf
  | .shardFull h _ _ _ _ _ _ => h.wf
  | .parityDelta h _ _ _ _ _ _ => h.wf
  | .regrowNeed h _ _ down _ => h.wf && okNode down
  | .regrowShardDone req _ _ _ _ => okReq req
  | .backgroundRegrow => true
  | .protStall h _ member _ _ => h.wf && okNode member
  | .straggleTimer _ => true
  | .stragglerProbeTimeout _ member => okNode member
  | .memberDown h _ member _ _ => h.wf && okNode member
  | .recoveryDone _ _ _ => true
  | .demotionPass _ => true
  | .migrationComplete _ => true
  | .promotionDeadline _ => true
  | .scrubLine _ _ => true
  | .rowRepair ch _ _ _ => okChan ch
  | .flashRelocate _ => true
  | .flashGc ch _ => okFlash ch
  | .nandBlockFail ch _ => okFlash ch
  | .releasePoll _ => true
  | .layerDue _ => true
  | .lateLimitExpiry _ => true
  | .tileCopyTimeout _ => true
  | .codewordCorrections _ _ _ => true
  | .indexMerge idx => okIdx idx
  | .mergeInstall idx _ => okIdx idx
  | .oldGenerationFree idx _ => okIdx idx
  | .deleteHandleRelease idx => okIdx idx
  | .indexMirrorApply h idx _ _ _ _ => h.wf && okIdx idx
  | .adhHello c => c.wf
  | .adhAsyncSet c _ _ _ => c.wf
  | .adhEventSubscribe c _ => c.wf
  | .adhHealthStatus c => c.wf
  | .adhViolationRead c _ _ => c.wf
  | .adhMgmtConfig c _ _ _ => c.wf
  | .adhViAssign c _ _ _ _ _ _ _ => c.wf
  | .adhViRelease c _ => c.wf
  | .adhQueueCreate c _ _ _ _ _ _ _ _ _ => c.wf
  | .adhQueueDestroy c _ _ => c.wf
  | .adhQueueReset c _ _ _ _ => c.wf
  | .adhEngineConfig c _ _ _ => c.wf
  | .adhPhaseShare c _ _ _ _ => c.wf
  | .adhContextLoad c _ _ _ _ _ _ _ _ => c.wf
  | .adhContextBind c _ _ => c.wf
  | .adhContextUnbind c _ => c.wf
  | .adhCodebookFactors c _ _ _ _ _ => c.wf
  | .adhCodebookLoad c _ _ => c.wf
  | .adhCalibrationPolicy c _ _ _ => c.wf
  | .adhAttendPolicy c _ _ _ _ => c.wf
  | .adhWeightsLoad c _ _ _ => c.wf
  | .adhCompositionDefine c _ _ _ _ _ _ _ _ _ _ _ => c.wf
  | .adhCompositionStatus c _ => c.wf
  | .adhMeterRead c _ _ _ => c.wf
  | .adhAdmissionPolicy c _ _ _ _ _ => c.wf
  | .adhRequestSubmit c _ => c.wf
  | .adhRequestCancel c _ _ => c.wf
  | .adhRequestRead c _ => c.wf
  | .adhPrefixKeep c _ _ => c.wf
  | .adhPrefixRelease c _ => c.wf
  | .adhStreamConfig c _ _ _ _ _ _ => c.wf
  | .adhDirectoryRead c _ => c.wf
  | .adhReceiptRead c _ _ _ => c.wf
  | .adhLeapPolicy c _ _ _ _ _ => c.wf
  | .adhLeapStart c _ _ => c.wf
  | .adhArenaDefine c _ _ _ _ _ _ => c.wf
  | .adhTierConfig c _ _ _ => c.wf
  | .adhTierPolicy c _ _ => c.wf
  | .adhTierStatus c _ _ => c.wf
  | .adhScrubPolicy c _ => c.wf
  | .adhRegionSet c _ _ _ _ _ _ _ => c.wf
  | .adhQuotaSet c _ _ _ _ => c.wf
  | .adhPortConfig c _ _ _ _ _ _ _ _ => c.wf
  | .adhPortStatus c _ => c.wf
  | .adhPartnerSet c _ _ _ => c.wf
  | .adhRouteLoad c _ => c.wf
  | .adhFabricPolicy c _ _ _ => c.wf
  | .adhTimeConfig c _ _ _ _ _ _ _ => c.wf
  | .adhWindowOpen c _ _ _ _ _ _ _ _ => c.wf
  | .adhWindowRevoke c _ => c.wf
  | .adhWindowRenew c _ => c.wf
  | .adhWindowClose c _ => c.wf
  | .adhWindowRead c _ => c.wf
  | .adhTrafficClasses c _ => c.wf
  | .adhGateLoad c _ _ => c.wf
  | .adhGatePolicy c _ _ _ _ => c.wf
  | .adhShaperSet c _ _ _ _ => c.wf
  | .adhPoliceSet c _ _ _ _ _ _ => c.wf
  | .adhTelemetryConfig c _ _ _ _ => c.wf
  | .adhCounterConfig c _ _ => c.wf
  | .adhCounterSnapshot c _ _ _ _ _ => c.wf
  | .adhSampleConfig c _ _ _ _ _ => c.wf
  | .adhIndexCreate c _ _ _ _ _ _ _ _ _ _ _ _ _ _ => c.wf
  | .adhIndexStatus c _ => c.wf
  | .adhIndexPolicy c _ _ _ _ => c.wf
  | .adhIndexMerge c _ => c.wf
  | .adhIndexDestroy c _ => c.wf
  | .adhChangeOrder c _ _ => c.wf
  | .orderDrainDone => true
  | .adhAttest c _ => c.wf
  | .adhTrustInstall c _ _ => c.wf
  | .adhTrustRotate c _ _ => c.wf
  | .adhTrustClear c => c.wf
  | .adhRightsSet c _ _ _ _ _ _ _ => c.wf
  | .adhFirmwareUpdate c _ _ => c.wf
  | .adhPersonalitySet c _ => c.wf
  | .adhNodeReset c _ => c.wf
  | .adhCroakKey c _ => c.wf
  | .adhSessionOpen c _ _ _ => c.wf
  | .adhUpload c _ _ => c.wf
  | .mgmtSessionDatagram _ => true
  | .sessionIdleTimer _ => true
  | .adeahFailover => true
  | .croakSendTimer mg => okPair mg
  | .croakReceive plane _ => okPair plane
  | .croakMiss node => okNode node
  | .croakPlaneTimer node plane => okNode node && okPair plane
  | .counterCapture => true

end Sys2Proof
end

