-- ==== Sys2Proof/Certificates/Slice0/Obligations.lean ====
section
/-! DEFINITION. The statements of this model for its provers. -/

open Sys2Proof Sys2Proof.Machine

/-- A step runs the command at the front of the queue. For every command and state, a step of a state with that command at the front of its queue is exec of it on the state with the queue's rest. -/
def Obligations.StepRunsFront : Prop :=
  ∀ (c : Instr) (rest : List Instr) (s : State), s.pending = c :: rest → step s = exec c { s with pending := rest }

/-- An empty queue lets a nanosecond pass. The model's choice (log 2): on an empty queue the always-on clock rises by one and the queue stays empty; on a package that runs, with no slew and no SAFE_N step to fall, fabric time rises by one modulo 2^64 and nothing else changes. -/
def Obligations.IdleStep : Prop :=
  (∀ s : State, s.pending = [] → ∃ t, step s = .next t ∧ t.aon = s.aon + 1 ∧ t.pending = []) ∧
  (∀ s : State, s.pending = [] → s.live = true → s.pw.stepSafe = 0 → s.time.slew = none →
    step s = .next { s with aon := s.aon + 1, now := (s.now + 1) % 2 ^ 64 })

/-- No command ends in a fault or a refusal. Every failure of this hardware is a status or an event, so that exec of every command on every state answers a next state. The model's own choices in it are those of log 33. -/
def Obligations.EveryCommandCompletes : Prop :=
  ∀ (c : Instr) (s : State), ∃ t, Does c s t

/-- A command changes everything but the queue. For every command and state, the queue of the next state is the queue exec was given. The model's own choices in it are those of log 33, 50. -/
def Obligations.QueueUntouched : Prop :=
  ∀ (c : Instr) (s t : State), Does c s t → t.pending = s.pending

/-- No command moves the always-on clock. The always-on island's time moves with the idle step alone; no command changes it. The model's own choices in it are those of log 50. -/
def Obligations.AlwaysOnClockKept : Prop :=
  ∀ (c : Instr) (s t : State), Does c s t → t.aon = s.aon

/-- A package that does not run takes only the pins' and the TAP's commands. While the converters, REFCLK, RESET_N or the trip keep the package from running, every command but those of the pins, the TAP and the always-on island leaves the state as it stands. The model's own choices in it are those of log 33. -/
def Obligations.DeadPackageTakesNothing : Prop :=
  ∀ (c : Instr) (s : State), s.live = false → c.alwaysOn = false → Does c s s

/-- A package without converters stays off and its memory stays lost until PWRGD starts it. Invariant of every step: with the converters off, memory lost and no waiting command that recognises PWRGD or ends a power-down, the next state is such a state again, whatever else is commanded. The model's own choices in it are those of log 1, 50. -/
def Obligations.OffStaysOff : Prop :=
  ∀ s t : State, s.off → step s = .next t → t.off

/-- The TAP's register and mode are always those its instruction selects. Invariant of every step: the selected register and the mode of the TAP are those of the instruction register's code, or BYPASS where a test instruction was not accepted, and the boundary cells number 4,078; no other command reaches the TAP. -/
def Obligations.TapConsistent : Prop :=
  ∀ s t : State, s.jt.ok = true → step s = .next t → t.jt.ok = true

/-- The TAP is consistent at reset. The TAP of the state right after reset has the invariant of TapConsistent. -/
def Obligations.TapConsistentAtReset : Prop :=
  State.reset.jt.ok = true

/-- Every step keeps memory in its canonical form. Invariant of every step: the listed addresses rise strictly and no listed byte equals what an unlisted address reads as, so that equal memories are equal data. -/
def Obligations.MemoryCanonical : Prop :=
  ∀ s t : State, Memory.wf s.mem → step s = .next t → Memory.wf t.mem

/-- What reset leaves. Right after reset fabric time is zero, memory lists nothing and is in its canonical form, the package runs, nothing waits, VI 0 is ACTIVE with share 255 in every class, an engine has threshold 20 µs, G share 160 and floors 96 and 32, the SRAM tier is 16 MiB per hub, and no other VI is assigned. -/
def Obligations.ResetValues : Prop :=
  State.reset.now = 0 ∧ State.reset.mem = [] ∧ Memory.wf State.reset.mem ∧ Up State.reset ∧ State.reset.pending = [] ∧ State.reset.boot.sramTier = 16777216 ∧
  (State.reset.vi 0).st = .active ∧ (∀ cls, 1 ≤ cls → cls ≤ 6 → State.reset.quantum 0 cls = 255 * 256) ∧ (∀ v, v ≠ 0 → (State.reset.vi v).st = .unassigned) ∧
  (∀ cls i, (State.reset.inst cls i).threshold = 20000 ∧ (State.reset.inst cls i).sG = 160 ∧ (State.reset.inst cls i).floorG = 96 ∧ (State.reset.inst cls i).floorP = 32)

/-- The supply, PWRGD, RESET_N, REFCLK and the trip. A VIN outside 46 V to 63 V stops every converter with its cause and loses memory; a return to the window clears the warning; PWRGD's rise starts the converters under a held reset unless a trip is still latched; its fall starts the power-down, whose end stops them; RESET_N's assertion loses memory and its release starts the package once PWRGD has been high for 10 ms; REFCLK's loss and a trip stop it; the cause of a latched trip stays. The trust record, the SPI image and the TAP stay. The model's own choices in it are those of log 2, 51. -/
def Obligations.PowerPins : Prop :=
  (∀ (mv : Nat) (s : State), mv < 46000 ∨ 63000 < mv → ∃ t, Does (.vinExcursion mv) s t ∧ t.pw.vin = mv ∧ t.pw.converters = false ∧ t.pw.latchOff = true ∧
    t.mem = [] ∧ t.pw.cause = (if mv < 40000 then 1 else if s.pw.tripped = true then 4 else if mv < 46000 then 5 else 6) ∧ t.adh.trust = s.adh.trust ∧ t.boot.spiImage = s.boot.spiImage ∧ t.jt = s.jt) ∧
  (∀ (mv : Nat) (s : State), s.pw.vinWarn = true → 48000 ≤ mv → mv ≤ 60000 → ∃ t, Does (.vinReturn mv) s t ∧ t.pw.vin = mv ∧ t.pw.vinWarn = false ∧
    t.kv = s.kv ∧ t.jt = s.jt) ∧
  (∀ s : State, s.pw.pwrgd = false → s.pw.downRunning = false → ∃ t, Does .pwrgdRise s t ∧ t.pw.pwrgd = true ∧ t.pw.pwrgdAt = s.aon ∧ t.pw.resetHeld = true ∧
    t.mem = [] ∧ t.pw.tripped = (s.pw.tripped && decide (s.aon < s.pw.pwrgdAt + 10000000)) ∧ t.pw.converters = !t.pw.tripped ∧ t.adh.trust = s.adh.trust) ∧
  (∀ s : State, s.pw.pwrgd = true → s.pw.downRunning = false →
    Does .pwrgdFall s { s with pw := { s.pw with pwrgd := false, pwrgdAt := s.aon, downRunning := s.pw.converters } }) ∧
  (∀ s : State, s.pw.downRunning = true → s.pw.pwrgdPend = false → ∃ t, Does .powerdownComplete s t ∧ t.pw.converters = false ∧ t.pw.downRunning = false ∧
    t.mem = [] ∧ t.adh.trust = s.adh.trust ∧ t.jt = s.jt) ∧
  (∀ (b : Bool) (s : State), s.pw.pwrgd = true → ∃ t, Does (.resetNAssert b) s t ∧ t.live = false ∧ t.mem = [] ∧ t.pw.cause = (if s.pw.tripped = true then 4 else 2) ∧ t.pw.resetHigh = false ∧
    t.pw.refclk = (s.pw.refclk || b) ∧ t.adh.trust = s.adh.trust ∧ t.boot.svnMin = s.boot.svnMin) ∧
  (∀ s : State, s.pw.resetHigh = false → s.pw.pwrgd = true → s.pw.pwrgdAt + 10000000 ≤ s.aon → s.pw.converters = true → s.pw.refclk = true →
    ∃ t, Does .resetNRelease s t ∧ t.pw.resetHigh = true ∧ t.pw.resetHeld = false ∧ t.now = 0 ∧ t.mem = [] ∧ t.boot.t0 = s.aon ∧ t.work = State.reset.work) ∧
  (∀ s : State, ∃ t, Does .refclkLoss s t ∧ t.live = false ∧ t.pw.refclk = false ∧ t.pw.cause = (if s.pw.tripped = true then 4 else 7) ∧ t.pw.alertLow = true ∧ t.mem = s.mem ∧ t.work = s.work) ∧
  (∀ (die : Nat) (s : State), s.pw.converters = true → ∃ t, Does (.thermalTrip die) s t ∧ t.pw.tripped = true ∧ t.pw.converters = false ∧ t.pw.cause = 4 ∧
    t.mem = [] ∧ t.jt = s.jt)

/-- SAFE_N, the throttle steps and ALERT_N. SAFE_N's assertion requires step 8 at least; its release starts the fall; its timers mark a stuck pin and end a storm; heat and power move their steps by one up to 12; a die at 100 °C pulls ALERT_N, which is released 1 ms after its last cause. The model's own choices in it are those of log 51. -/
def Obligations.ThrottlePins : Prop :=
  (∀ s : State, s.pw.safeLow = false → ∃ t, Does .safeNAssert s t ∧ t.pw.safeLow = true ∧ t.pw.safeAt = s.aon ∧ t.pw.stepSafe = max 8 s.pw.stepSafe ∧
    t.kv = s.kv ∧ t.jt = s.jt) ∧
  (∀ s : State, s.pw.safeLow = true → ∃ t, Does .safeNRelease s t ∧ t.pw.safeLow = false ∧ t.pw.stepSafeAt = s.aon ∧ t.pw.safeStuck = false ∧ t.mem = s.mem ∧ t.work = s.work) ∧
  (∀ s : State, s.pw.safeLow = true → s.pw.safeStuckAt ≤ s.aon → ∃ t, Does .safeNStuckTimer s t ∧ t.pw.safeStuck = true ∧ t.pw.alertLow = true ∧
    t.pw.safeStuckAt = s.pw.safeStuckAt + 3600000000000 ∧ t.kv = s.kv) ∧
  (∀ s : State, s.pw.safeStorm = true → s.pw.safeLow = false → s.pw.safeAt + 1000000000 ≤ s.aon → ∃ t, Does .safeStormEndTimer s t ∧ t.pw.safeStorm = false ∧
    t.pw.stepSafeAt = s.aon ∧ t.mem = s.mem ∧ t.work = s.work) ∧
  (∀ (die temp : Nat) (s : State), Up s → 95 ≤ temp → s.pw.stepTempAt + 1000000 ≤ s.aon → ∃ t, Does (.thermalStepTimer [(die, temp)]) s t ∧
    t.pw.stepTemp = min 12 (s.pw.stepTemp + 1) ∧ t.pw.stepTempAt = s.aon ∧ t.kv = s.kv) ∧
  (∀ (watts : Nat) (s : State), Up s → 1050 < watts → s.pw.safeLow = false → s.pw.safeStorm = false → ∃ t, Does (.inputPowerStep watts) s t ∧
    t.pw.stepPower = min 12 (s.pw.stepPower + 1) ∧ t.pw.watts = watts ∧ t.pw.stepSafe = s.pw.stepSafe ∧ t.kv = s.kv) ∧
  (∀ (die temp : Nat) (s : State), Up s → 100 ≤ temp → ∃ t, Does (.thermalWarn die temp) s t ∧ Tbl.get t.pw.temps die = some temp ∧ t.pw.alertLow = true ∧ t.kv = s.kv) ∧
  (∀ s : State, s.pw.alertLow = true → s.alertCauses.any id = false → s.pw.alertEndAt ≠ 0 → s.pw.alertEndAt + 1000000 ≤ s.aon →
    Does .alertHoldTimer s { s with pw := { s.pw with alertLow := false, alertEndAt := 0 } })

/-- Each instruction of the TAP selects its register and mode and changes nothing else. IDCODE, SAMPLE/PRELOAD and BYPASS are always accepted; the five test instructions only while RESET_N is recognised asserted, and act as BYPASS otherwise. Only the TAP changes. -/
def Obligations.TapInstructions : Prop :=
  (∀ s : State, Does .idcode s { s with jt := { s.jt with ir := 1, reg := .idcode, mode := .functional } }) ∧
  (∀ (a b : Nat) (s : State), Does (.samplePreload a b) s { s with jt := { ir := 2, reg := .boundary, mode := .functional, sampled := a % 2 ^ 4078, preload := b % 2 ^ 4078 } }) ∧
  (∀ s : State, Does .extest s { s with jt := { s.jt with ir := 3, reg := if s.pw.resetHigh then .bypass else .boundary, mode := if s.pw.resetHigh then .functional else .extest } }) ∧
  (∀ s : State, Does .extestPulse s { s with jt := { s.jt with ir := 4, reg := if s.pw.resetHigh then .bypass else .boundary, mode := if s.pw.resetHigh then .functional else .extestPulse } }) ∧
  (∀ s : State, Does .extestTrain s { s with jt := { s.jt with ir := 5, reg := if s.pw.resetHigh then .bypass else .boundary, mode := if s.pw.resetHigh then .functional else .extestTrain } }) ∧
  (∀ s : State, Does .highz s { s with jt := { s.jt with ir := 6, reg := .bypass, mode := if s.pw.resetHigh then .functional else .highz } }) ∧
  (∀ s : State, Does .clamp s { s with jt := { s.jt with ir := 7, reg := .bypass, mode := if s.pw.resetHigh then .functional else .clamp } }) ∧
  (∀ (code : Nat) (s : State), code % 256 = 0 ∨ 8 ≤ code % 256 → Does (.bypass code) s { s with jt := { s.jt with ir := code % 256, reg := .bypass, mode := .functional } })

/-- Losses of dies, hubs, channels and state areas. A fenced die is out of service from then on; a lost hub's unacknowledged transfers wait, and one already applied is discarded at its re-send; a lost state area is placed on the next die and serves again when its copy ends; a lost channel serves no more. The model's own choices in it are those of log 24. -/
def Obligations.DiesAndChannels : Prop :=
  (∀ (die : Nat) (s : State), Up s → die < 20 → ∃ t, Does (.dieFence die) s t ∧ t.isFenced die = true) ∧
  (∀ (hub : Nat) (s : State), Up s → hub < 2 → ∃ t, Does (.hubFence hub []) s t ∧ t.isFenced hub = true) ∧
  (∀ (seq : Nat) (b : Bulk) (s : State), Up s → Tbl.get s.pkg.bulk seq = some b → b.sentAt + 10000 ≤ s.now → s.pkg.bulkApplied.contains seq = true →
    ∃ t, Does (.hubBulkResend seq) s t ∧ Tbl.get t.pkg.bulk seq = none ∧ t.mem = s.mem ∧ t.kv = s.kv) ∧
  (∀ (hub m : Nat) (a : Area) (s : State), Up s → Tbl.get s.pkg.areas hub = some a → s.nextAreaDie hub = some m → a.lost = true → a.copyStart = none →
    ∃ t b, Does (.hubStateAreaLoss hub) s t ∧ Tbl.get t.pkg.areas hub = some b ∧ b.die = m ∧ b.lost = true ∧ b.copyStart = some s.now ∧ t = { s with pkg := t.pkg }) ∧
  (∀ (hub t0 : Nat) (a : Area) (s : State), Up s → Tbl.get s.pkg.areas hub = some a → a.copyStart = some t0 → t0 + 4026532 ≤ s.now →
    ∃ t b, Does (.hubStateAreaCopyDone hub) s t ∧ Tbl.get t.pkg.areas hub = some b ∧ b.die = a.die ∧ b.lost = false ∧ b.copyStart = none ∧ t.kv = s.kv) ∧
  (∀ (ch : Nat) (s : State), Up s → s.channelUp ch = true → ∃ t, Does (.channelLoss 0 ch) s t ∧ t.channelUp ch = false) ∧
  (∀ (ch : Nat) (s : State), Up s → s.flashChanUp ch = true → ∃ t, Does (.channelLoss 1 ch) s t ∧ t.flashChanUp ch = false ∧ t.kv = s.kv)

/-- A round counts, and equal digests release its outputs. A round's close raises the round number by one whatever it carries; an equal digest of the pair puts the outputs held back into the port queues in their order and changes nothing else. The model's own choices in it are those of log 14. -/
def Obligations.HubRounds : Prop :=
  (∀ (contrib : List (Nat × Option Packet)) (s : State), Up s → ∃ t, Does (.hubRoundClose contrib) s t ∧ t.pkg.round = s.pkg.round + 1 ∧ t.pkg.reExecuted = false) ∧
  (∀ (a b c d : Bool) (s : State), Up s → Does (.roundDigestCompare s.pkg.digest a b c d) s
    { s with lnk := { s.lnk with queue := s.lnk.queue ++ s.pkg.heldOut }, pkg := { s.pkg with heldOut := [] } })

/-- The image, self-test, training, joining and the ordered reset. A management die runs Adeah after a read of the image exactly when the image verifies; the recovery loader solicits on both planes each second and keeps a sound block; self-test, training and rebuild are recorded, a die that fails self-test is fenced; a node whose conditions hold joins, one that has not joined says so; an ordered reset starts from t0 with cause 3. The model's own choices in it are those of log 7, 40, 55. -/
def Obligations.BootSteps : Prop :=
  (∀ (die : Nat) (s : State) (ok : Bool), s.live = true → die < 2 → Tbl.at s.boot.accepted die false = false → s.isFenced (dieMG die) = false → s.boot.recovery.running = false →
    ∃ t, Does (.imageVerify die ok) s t ∧ (Tbl.at t.boot.accepted die false = true ↔ ok = true ∧ imageFault s.boot.spiImage s.boot.svnMin = none) ∧ t.mem = s.mem ∧ t.work = s.work) ∧
  (∀ s : State, s.live = true → s.boot.recovery.running = true → s.boot.recovery.solicitAt ≤ s.now →
    ∃ t, Does .recoverySolicit s t ∧ t.boot.recovery.solicitAt = s.now + 1000000000 ∧ t.log.grams.length = s.log.grams.length + 2 ∧ t = { s with boot := t.boot, log := t.log }) ∧
  (∀ (off : Nat) (data : List Byte) (s : State), s.live = true → s.boot.recovery.running = true → off % 1024 = 0 → data.length = 1024 →
    stagedImage (Tbl.set s.boot.recovery.blocks off data) = none →
    ∃ t, Does (.recoveryImageBlock off data (crc64 data)) s t ∧ Tbl.get t.boot.recovery.blocks off = some data ∧ t = { s with boot := t.boot }) ∧
  (∀ (die : Nat) (s : State), Up s → die < 20 → s.boot.selfTested.contains die = false →
    ∃ t, Does (.dieSelfTestDone die true 0) s t ∧ t.boot.selfTested = s.boot.selfTested ++ [die] ∧ t = { s with boot := t.boot }) ∧
  (∀ (die bad : Nat) (s : State), Up s → die < 20 → s.boot.selfTested.contains die = false → ∃ t, Does (.dieSelfTestDone die false bad) s t ∧ t.isFenced die = true) ∧
  (∀ (ch rate : Nat) (s : State), Up s → ch < 16 → s.boot.trainEnded.contains ch = false → s.isFenced (dieMC (ch / 2)) = false →
    ∃ t, Does (.dramTrainingDone ch true rate) s t ∧ t.boot.trainEnded = s.boot.trainEnded ++ [ch] ∧ t.pkg.dramUp = s.pkg.dramUp ++ [ch] ∧
      t.pkg.dramRate = (if s.pkg.dramRate = 0 then rate else min s.pkg.dramRate rate) ∧ t = { s with boot := t.boot, pkg := t.pkg }) ∧
  (∀ (die : Nat) (s : State), Up s → die = 14 ∨ die = 15 → s.isFenced die = false → s.boot.nandEnded.contains die = false →
    ∃ t, Does (.nandRebuildDone die []) s t ∧ t.boot.nandEnded = s.boot.nandEnded ++ [die] ∧ t.pkg.flashUp = s.pkg.flashUp.filter (fun c => c / 16 + 14 ≠ die) ∧
      t = { s with boot := t.boot, pkg := t.pkg, tier := t.tier }) ∧
  (∀ s : State, Up s → s.boot.joined = false → s.adeahUp = true → s.unmet = [] → ∃ t, Does .nodeJoin s t ∧ t.boot = { s.boot with joined := true } ∧ t.pkg = s.pkg) ∧
  (∀ s : State, Up s → s.boot.joined = false → (if s.boot.joinFailAt = 0 then s.boot.t0 else s.boot.joinFailAt) + 60000000000 ≤ s.aon →
    ∃ t, Does .joinFailedTimer s t ∧ t.boot = { s.boot with joinFailAt := s.aon } ∧ t.pkg = s.pkg) ∧
  (∀ (at_ : Nat) (s : State), Up s → s.boot.resetAt = some at_ → at_ ≤ s.now → ∃ t, Does .nodeResetTime s t ∧ t.now = 0 ∧ t.mem = [] ∧ t.pw.cause = 3 ∧ t.boot.t0 = s.aon ∧
    t.work = State.reset.work ∧ t.kv = State.reset.kv ∧ t.adh.trust = s.adh.trust ∧ t.boot.personality = s.boot.personalityNext)

/-- A port's training states. A partner's signal starts EQUALIZE, at 112 Gb/s where only that rate is allowed; a retry is timed; equalisation leads to FEC_LOCK on the largest lane set, or HOLD; alignment to CAPS with its record sent; a partner's record of another node with version 3 to CREDIT_INIT; the pools' opening to ACTIVE; a state over its limit goes back; a fast retrain starts and ends. The model's own choices in it are those of log 9. -/
def Obligations.PortTraining : Prop :=
  (∀ (p : Nat) (s : State), Up s → (s.port p).st = .detect → (s.port p).cfg.mode = 1 → ∃ t, Does (.signalDetect p) s t ∧ (t.port p).st = .equalize ∧
    (t.port p).rate = (if (s.port p).cfg.rate = 2 then 1 else 0) ∧ (t.port p).since = s.now ∧ t = { s with lnk := t.lnk }) ∧
  (∀ (p : Nat) (s : State), Up s → (s.port p).st = .detect → (s.port p).detectAt + 100000000 ≤ s.now → ∃ t, Does (.detectRetryTimer p) s t ∧
    (t.port p).detectAt = s.now ∧ t = { s with lnk := t.lnk }) ∧
  (∀ (p : Nat) (s : State), Up s → (s.port p).st = .equalize → s.bestSet p ≠ [] → ∃ t, Does (.equalizeComplete p []) s t ∧ (t.port p).st = .fecLock ∧
    (t.port p).active = s.bestSet p ∧ t = { s with lnk := t.lnk }) ∧
  (∀ (p : Nat) (s : State), Up s → (s.port p).st = .fecLock → ∃ t, Does (.fecLockComplete p) s t ∧ (t.port p).st = .caps ∧
    (t.port p).control.length = (s.port p).control.length + 1 ∧ t = { s with lnk := t.lnk }) ∧
  (∀ (p n : Nat) (r : CapsRecord) (s : State), Up s → (s.port p).st = .caps → r.role = 1 → r.node = n → n ≠ s.node → n < 4096 → bit (s.port p).cfg.roles 0 = true → r.versions = 8 →
    ∃ t, Does (.capsRecordReceive p r) s t ∧ (t.port p).st = .creditInit ∧ (t.port p).version = 3 ∧ (t.port p).partner = n ∧ (t.port p).partnerPools = r.pools ∧ t = { s with lnk := t.lnk }) ∧
  (∀ (p : Nat) (s : State), Up s → (s.port p).st = .creditInit → ∃ t, Does (.creditInitComplete p) s t ∧ (t.port p).st = .active ∧ (t.port p).txSeq = 0 ∧ (t.port p).rxSeq = 0 ∧
    (t.port p).replay = []) ∧
  (∀ (p : Nat) (s : State), Up s → (s.port p).st = .creditInit → (s.port p).since + 10000 ≤ s.now → ∃ t, Does (.trainingTimeout p []) s t ∧ (t.port p).st = .detect ∧
    (t.port p).detectAt = s.now ∧ t = { s with lnk := t.lnk }) ∧
  (∀ (p : Nat) (s : State), Up s → (s.port p).st = .active → (s.port p).cfg.mode = 1 → (s.port p).retraining = false → (s.port p).lastAccept + 4000 ≤ s.now →
    ∃ t, Does (.noFlitTimeout p) s t ∧ (t.port p).retraining = true ∧ t = { s with lnk := t.lnk }) ∧
  (∀ (p : Nat) (totals : List Nat) (s : State), Up s → (s.port p).st = .active → (s.port p).retraining = true → (s.port p).retrains.length < 3 →
    ∃ t, Does (.fastRetrainDone p true totals) s t ∧ (t.port p).retraining = false ∧ (t.port p).lastAccept = s.now ∧ (t.port p).nak = false)

/-- Flits received and sent. A sound CONTROL flit in order raises the expected sequence number and clears the NAK; a damaged flit asks for a replay once; a missing flit is asked for again every 4 µs; a port with 1,024 unacknowledged flits sends an IDLE flit. The model's own choices in it are those of log 8. -/
def Obligations.Flits : Prop :=
  (∀ (p : Nat) (f : Flit) (s : State), Up s → (s.port p).st = .active → (s.port p).retraining = false → (s.port p).cfg.mode = 1 → f.ftype = 2 → f.crc = f.crcOf →
    f.seq = (s.port p).rxSeq → ∃ t, Does (.flitReceive p true f) s t ∧ (t.port p).rxSeq = ((s.port p).rxSeq + 1) % 4096 ∧ (t.port p).nak = false) ∧
  (∀ (p : Nat) (f : Flit) (s : State), Up s → (s.port p).st = .active → (s.port p).retraining = false → (s.port p).cfg.mode = 1 → (s.port p).nak = false →
    ∃ t, Does (.flitReceive p false f) s t ∧ (t.port p).nak = true ∧ (t.port p).nakDue = true ∧ (t.port p).rxSeq = (s.port p).rxSeq ∧ t.mem = s.mem) ∧
  (∀ (p : Nat) (s : State), Up s → (s.port p).st = .active → (s.port p).nak = true → (s.port p).nakDue = false → (s.port p).nakAt + 4000 ≤ s.now →
    ∃ t, Does (.nakRepeatTimer p) s t ∧ (t.port p).nakDue = true ∧ t = { s with lnk := t.lnk }) ∧
  (∀ (p : Nat) (s : State), Up s → (s.port p).st = .active → (s.port p).retraining = false → (s.port p).cfg.mode = 1 → (s.port p).replayAt = none → 1024 ≤ (s.port p).replay.length →
    ∃ t f, Does (.flitSend p) s t ∧ t.log.flits = s.log.flits ++ [(p, f)] ∧ f.ftype = 0 ∧ (t.port p).flits = (s.port p).flits + 1 ∧ t = { s with lnk := t.lnk, log := t.log })

/-- Lanes that fail, are tested and return, and widths. A lane that goes down is held down for 250 ms and its failures double that; at the hold-down's end it is tested; a passed test returns it; 300 s of service reset its failure count; a slave takes the set its partner names and the width master rises to the largest set. -/
def Obligations.Lanes : Prop :=
  (∀ (p k reason : Nat) (s : State), Up s → s.portExists p = true → (s.lanesUp p).contains k = true → (s.port p).st = .detect →
    ∃ t, Does (.laneDown p k reason) s t ∧ (t.lane (globalLane p k)).down = true ∧ s.now + 250000000 ≤ (t.lane (globalLane p k)).holdUntil) ∧
  (∀ (p k : Nat) (s : State), Up s → s.portExists p = true → (portLanes p).contains k = true → (s.lane (globalLane p k)).down = true → (s.lane (globalLane p k)).testing = false →
    (s.lane (globalLane p k)).holdUntil ≤ s.now → ∃ t, Does (.holdDownExpiry p k) s t ∧ (t.lane (globalLane p k)).testing = true ∧ t = { s with lnk := t.lnk }) ∧
  (∀ (p k : Nat) (s : State), Up s → s.portExists p = true → (portLanes p).contains k = true → (s.lane (globalLane p k)).testing = true →
    ∃ t, Does (.prbsTestDone p k true) s t ∧ (t.lane (globalLane p k)).down = false ∧ (t.lane (globalLane p k)).testing = false ∧ (t.lane (globalLane p k)).upAt = s.now ∧ t = { s with lnk := t.lnk }) ∧
  (∀ (p k : Nat) (s : State), Up s → s.portExists p = true → (portLanes p).contains k = true → (s.lane (globalLane p k)).down = false → (s.lane (globalLane p k)).upAt + 300000000000 ≤ s.now →
    ∃ t, Does (.laneServiceTimer p k) s t ∧ (t.lane (globalLane p k)).j = 0 ∧ t = { s with lnk := t.lnk }) ∧
  (∀ (p mask : Nat) (s : State), Up s → (s.port p).st = .active → (s.port p).cfg.mode = 1 → laneSets.contains ((portLanes p).filter (bit mask)) = true →
    ((portLanes p).filter (bit mask)).all (s.lanesUp p).contains = true → (portLanes p).filter (bit mask) ≠ (s.port p).active → s.widthMaster p = false →
    (s.port p).active.length ≤ ((portLanes p).filter (bit mask)).length → (s.port p).cfg.minWidth ≤ ((portLanes p).filter (bit mask)).length →
    ∃ t, Does (.widthChange p mask true) s t ∧ (t.port p).active = (portLanes p).filter (bit mask) ∧ (t.port p).widthAt = some s.now) ∧
  (∀ (p : Nat) (s : State), Up s → (s.port p).st = .active → (s.port p).cfg.mode = 1 → s.widthMaster p = true → (s.port p).active.length < (s.bestSet p).length → (s.port p).widthAt = none →
    (s.port p).cfg.minWidth ≤ (s.bestSet p).length → ∃ t, Does (.widthRiseTimer p) s t ∧ (t.port p).active = s.bestSet p ∧ (t.port p).widthAt = some s.now)

/-- Ethernet-mode ports. A PAUSE frame is counted and a damaged one dropped and counted; a path silent for 50 µs counts a resend; its hold-down's end returns it; link up makes the port ACTIVE on all its lanes. The model's own choices in it are those of log 9. -/
def Obligations.EthernetPorts : Prop :=
  (∀ (p : Nat) (frame : List Byte) (ok : Bool) (s : State), Up s → (s.port p).st = .active → (s.port p).cfg.mode = 2 → (EthFrame.ofBytes frame).etherType = 0x8808 →
    ∃ t, Does (.ethFrameReceive p frame ok) s t ∧ (t.port p).pauseFrames = (s.port p).pauseFrames + 1 ∧ t = { s with lnk := t.lnk }) ∧
  (∀ (p : Nat) (frame : List Byte) (s : State), Up s → (s.port p).st = .active → (s.port p).cfg.mode = 2 → (EthFrame.ofBytes frame).etherType ≠ 0x8808 →
    ∃ t, Does (.ethFrameReceive p frame false) s t ∧ (t.port p).dropped = (s.port p).dropped + 1 ∧ t = { s with lnk := t.lnk }) ∧
  (∀ (p n x : Nat) (e : Partner) (s : State), Up s → Tbl.get (s.port p).partners n = some e → (Tbl.at e.paths x {}).window ≠ [] → (Tbl.at e.paths x {}).out = false →
    (Tbl.at e.paths x {}).sentAt + 50000 ≤ s.now → (Tbl.at e.paths x {}).sends < 8 →
    ∃ t e', Does (.ethPathResendTimer p n x) s t ∧ Tbl.get (t.port p).partners n = some e' ∧ (Tbl.at e'.paths x {}).sends = (Tbl.at e.paths x {}).sends + 1 ∧ t.mem = s.mem) ∧
  (∀ (p n x : Nat) (e : Partner) (s : State), Up s → Tbl.get (s.port p).partners n = some e → (Tbl.at e.paths x {}).out = true → (Tbl.at e.paths x {}).holdUntil ≤ s.now → s.fab.routes = [] →
    ∃ t e', Does (.ethPathHoldDownExpiry p n x) s t ∧ Tbl.get (t.port p).partners n = some e' ∧ (Tbl.at e'.paths x {}).out = false ∧ t = { s with lnk := t.lnk }) ∧
  (∀ (p : Nat) (s : State), Up s → (s.port p).cfg.mode = 2 → (s.port p).st = .detect → s.portExists p = true → (s.lanesUp p).length = (portLanes p).length →
    ∃ t, Does (.ethernetLinkUp p) s t ∧ (t.port p).st = .active ∧ (t.port p).active = portLanes p ∧ (t.port p).rate = 2)

/-- Messages of IEEE 1588, PPS and the loss of time. A peer's delay answer sets the port's delay and a delay request is answered; no Sync for 100 ms unlocks a slave; an old Announce is dropped; a port sends its due message once an interval; a finished slew ends; a PPS edge out of its window is rejected, the third within 10 s loses PPS, and one without a predecessor starts a run; three seconds without one lose PPS. The model's own choices in it are those of log 10. -/
def Obligations.FabricTime : Prop :=
  (∀ (p : Nat) (t1 t2 t3 t4 : Int) (s : State), Up s → (s.port p).st = .active → ∃ t, Does (.ptpMessageReceive p (.pdelayResp t1 t2 t3 t4)) s t ∧
    Tbl.get t.time.delays p = some (((t4 - t1) - (t3 - t2)) / 2) ∧ t = { s with time := t.time }) ∧
  (∀ (p : Nat) (s : State), Up s → (s.port p).st = .active → ∃ t, Does (.ptpMessageReceive p .pdelayReq) s t ∧ (t.port p).control = (s.port p).control ++ [[4, 4, s.now]] ∧ t = { s with lnk := t.lnk }) ∧
  (∀ s : State, Up s → s.time.locked = true → s.isGm = false → s.time.lastSync + 100000000 ≤ s.now → ∃ t, Does .syncTimeout s t ∧ t.time.locked = false ∧ t.time.goodRun = 0) ∧
  (∀ (p at_ : Nat) (a : Announce) (s : State), Up s → Tbl.get s.time.announces p = some (a, at_) → at_ + 375000000 ≤ s.now →
    ∃ t, Does (.announceTimeout p) s t ∧ Tbl.get t.time.announces p = none) ∧
  (∀ (p : Nat) (s : State), Up s → (s.port p).st = .active → (s.port p).cfg.mode = 1 → Tbl.get s.time.sentAt (p, 1) = none →
    ∃ t, Does (.ptpTransmitTimer p 1) s t ∧ Tbl.get t.time.sentAt (p, 1) = some s.now ∧ (t.port p).control.length = (s.port p).control.length + 1 ∧ t.mem = s.mem) ∧
  (∀ (w : Slew) (s : State), Up s → s.time.slew = some w → w.left = 0 → ∃ t, Does .timeSlewDone s t ∧ t.time.slew = none) ∧
  (∀ (low high at_ : Nat) (s : State), Up s → s.time.ppsEnable = true → 100 ≤ low → 100 ≤ high → high ≤ 900000000 → s.time.ppsLast = some at_ → s.now < at_ + 999800000 →
    ∃ t, Does (.ppsInEdge low high) s t ∧ t.time.ppsRejects = s.time.ppsRejects + 1 ∧ t.time.ppsRun = 0 ∧ t.mem = s.mem ∧ t.work = s.work ∧
      (if 2 ≤ (s.time.ppsRejected.filter (fun x => decide (s.now < x + 10000000000))).length then t.time.ppsLast = none ∧ t.time.ppsAcquired = false
        else t = { s with time := t.time })) ∧
  (∀ (low high : Nat) (s : State), Up s → s.time.ppsEnable = true → 100 ≤ low → 100 ≤ high → high ≤ 900000000 → s.time.ppsLast = none → s.time.ppsAcquired = false → s.time.ppsRun = 0 →
    ∃ t, Does (.ppsInEdge low high) s t ∧ t.time.ppsRun = 1 ∧ t.time.ppsLast = some s.now ∧ t = { s with time := t.time }) ∧
  (∀ (reason at_ : Nat) (s : State), Up s → s.time.ppsLast = some at_ → at_ + 3000000000 ≤ s.now → ∃ t, Does (.ppsLossTimer reason) s t ∧ t.time.ppsLast = none ∧ t.time.ppsAcquired = false)

/-- What each request packet does to memory. A request that passes its checks, on readable lines of DRAM or SRAM: LOAD and READ change no memory; STORE and STORE_FLAG write the bytes their mask enables and no other; CAS writes the line of its second half exactly when the line equals its first; FETCH_ADD adds to its 8-byte word modulo 2^64; SWAP and WRITE write their payload; every other byte of memory reads as before. The model's own choices in it are those of log 1. -/
def Obligations.LineOperations : Prop :=
  (∀ (port : Nat) (p : Packet) (s : State), Up s → p.ty = .load → Admitted port p s → Readable port p s → ∃ t, Does (.load port p) s t ∧ t.mem = s.mem) ∧
  (∀ (port : Nat) (p : Packet) (s : State), Up s → p.ty = .store → Memory.wf s.mem → Admitted port p s → Readable port p s → ∃ t, Does (.store port p) s t ∧
    ∀ a, t.rd1 a = if p.addr ≤ a ∧ a < p.addr + 64 ∧ bit p.operand (a - p.addr) = true then p.payload.getD (a - p.addr) 0#8 else s.rd1 a) ∧
  (∀ (port : Nat) (p : Packet) (s : State), Up s → p.ty = .storeFlag → Memory.wf s.mem → Admitted port p s → Readable port p s → ∃ t, Does (.storeFlag port p) s t ∧
    ∀ a, t.rd1 a = if p.addr ≤ a ∧ a < p.addr + 64 ∧ bit p.operand (a - p.addr) = true then p.payload.getD (a - p.addr) 0#8 else s.rd1 a) ∧
  (∀ (port : Nat) (p : Packet) (s : State), Up s → p.ty = .cas → Memory.wf s.mem → Admitted port p s → Readable port p s → ∃ t, Does (.cas port p) s t ∧
    ∀ a, t.rd1 a = if s.rd p.addr 64 = p.payload.take 64 ∧ p.addr ≤ a ∧ a < p.addr + 64 then p.payload.getD (64 + (a - p.addr)) 0#8 else s.rd1 a) ∧
  (∀ (port : Nat) (p : Packet) (s : State), Up s → p.ty = .fetchAdd → Memory.wf s.mem → Admitted port p s → Readable port p s → ∃ t, Does (.fetchAdd port p) s t ∧
    t.rdWords p.addr 1 = [(word (s.rdWords p.addr 1) 0 + p.operand) % 2 ^ 64] ∧ ∀ a, ¬(p.addr ≤ a ∧ a < p.addr + 8) → t.rd1 a = s.rd1 a) ∧
  (∀ (port : Nat) (p : Packet) (s : State), Up s → p.ty = .swap → Memory.wf s.mem → Admitted port p s → Readable port p s → ∃ t, Does (.swap port p) s t ∧
    ∀ a, t.rd1 a = if p.addr ≤ a ∧ a < p.addr + 64 then p.payload.getD (a - p.addr) 0#8 else s.rd1 a) ∧
  (∀ (port : Nat) (p : Packet) (s : State), Up s → p.ty = .write → Memory.wf s.mem → Admitted port p s → Readable port p s → ∃ t, Does (.write port p) s t ∧
    ∀ a, t.rd1 a = if p.addr ≤ a ∧ a < p.addr + p.payloadLen then p.payload.getD (a - p.addr) 0#8 else s.rd1 a) ∧
  (∀ (port : Nat) (p : Packet) (s : State), Up s → p.ty = .read → Admitted port p s → Readable port p s → ∃ t, Does (.read port p) s t ∧ t.mem = s.mem)

/-- Requests of endpoints of this node are answered on their port. A request of an endpoint of this node that passes its checks is answered on the endpoint's port, as the last packet queued there: LOAD, FETCH_ADD and SWAP with the line as it stood, CAS with that line and whether it matched, READ with the bytes asked for, STORE, STORE_FLAG and WRITE with no data, each with ST_OK. The model's own choices in it are those of log 1. -/
def Obligations.LineOpsAnswered : Prop :=
  (∀ (port q : Nat) (p : Packet) (s : State), Up s → p.ty = .load → p.src = s.node → Admitted port p s → Readable port p s → (s.taken port p).endpointPort p.srcEp = some q →
    ∃ t, Does (.load port p) s t ∧ t.lnk.queue = s.lnk.queue ++ [{ port := q, pkt := p.answer .ok (s.rd p.addr 64) false, at_ := s.now }]) ∧
  (∀ (port q : Nat) (p : Packet) (s : State), Up s → p.ty = .fetchAdd → p.src = s.node → Admitted port p s → Readable port p s → (s.taken port p).endpointPort p.srcEp = some q →
    ∃ t, Does (.fetchAdd port p) s t ∧ t.lnk.queue = s.lnk.queue ++ [{ port := q, pkt := p.answer .ok (s.rd (p.addr / 64 * 64) 64) false, at_ := s.now }]) ∧
  (∀ (port q : Nat) (p : Packet) (s : State), Up s → p.ty = .swap → p.src = s.node → Admitted port p s → Readable port p s → (s.taken port p).endpointPort p.srcEp = some q →
    ∃ t, Does (.swap port p) s t ∧ t.lnk.queue = s.lnk.queue ++ [{ port := q, pkt := p.answer .ok (s.rd p.addr 64) false, at_ := s.now }]) ∧
  (∀ (port q : Nat) (p : Packet) (s : State), Up s → p.ty = .cas → p.src = s.node → Admitted port p s → Readable port p s → (s.taken port p).endpointPort p.srcEp = some q →
    ∃ t, Does (.cas port p) s t ∧
      t.lnk.queue = s.lnk.queue ++ [{ port := q, pkt := p.answer .ok (s.rd p.addr 64) (s.rd p.addr 64 == p.payload.take 64), at_ := s.now }]) ∧
  (∀ (port q : Nat) (p : Packet) (s : State), Up s → p.ty = .read → p.src = s.node → Admitted port p s → Readable port p s → (s.taken port p).endpointPort p.srcEp = some q →
    ∃ t, Does (.read port p) s t ∧ t.lnk.queue = s.lnk.queue ++ [{ port := q, pkt := p.answer .ok (s.rd p.addr p.payloadLen) false, at_ := s.now }]) ∧
  (∀ (port q : Nat) (p : Packet) (s : State), Up s → p.ty = .store → p.src = s.node → Admitted port p s → Readable port p s → (s.taken port p).endpointPort p.srcEp = some q →
    ∃ t, Does (.store port p) s t ∧ t.lnk.queue = s.lnk.queue ++ [{ port := q, pkt := p.answer .ok [] false, at_ := s.now }]) ∧
  (∀ (port q : Nat) (p : Packet) (s : State), Up s → p.ty = .storeFlag → p.src = s.node → Admitted port p s → Readable port p s → (s.taken port p).endpointPort p.srcEp = some q →
    ∃ t, Does (.storeFlag port p) s t ∧ t.lnk.queue = s.lnk.queue ++ [{ port := q, pkt := p.answer .ok [] false, at_ := s.now }]) ∧
  (∀ (port q : Nat) (p : Packet) (s : State), Up s → p.ty = .write → p.src = s.node → Admitted port p s → Readable port p s → (s.taken port p).endpointPort p.srcEp = some q →
    ∃ t, Does (.write port p) s t ∧ t.lnk.queue = s.lnk.queue ++ [{ port := q, pkt := p.answer .ok [] false, at_ := s.now }])

/-- Stores to doorbells, pages, mailboxes and trigger counters. An admitted store to a doorbell moves each of its two indices that is not stale and puts the queue in ERROR on an index out of range; a store to a page's first line takes format 1 or 2 alone; a header stored to a busy mailbox is counted as dropped, and a new one is accepted with its sequence and time; a trigger counter takes the word stored, or the sum of a FETCH_ADD modulo 2^64; a store to another line of a page's registers changes neither work, management nor memory, and one to a mailbox's request body sets that line alone. The model's own choices in it are those of log 11. -/
def Obligations.RegisterStores : Prop :=
  (∀ (v c q : Nat) (p : Packet) (s : State), Up s → p.ty = .store → addrSpace p.addr = 4 → v < 256 → 1 ≤ c → c ≤ 6 → q < 16 → addrOff p.addr = v * 65536 + 8192 + ((c - 1) * 16 + q) * 64 →
    Admitted 255 p s → (s.vi v).st = .active → (s.queue (v, c, q)).st = .active → ∃ t, Does (.doorbellStore p) s t ∧
      (t.queue (v, c, q)).cmdTail = (if 2 ^ 31 ≤ sub32 (fld (wordsOf 8 p.payload) 0 31 0) (s.queue (v, c, q)).cmdTail then (s.queue (v, c, q)).cmdTail
        else fld (wordsOf 8 p.payload) 0 31 0) ∧
      (t.queue (v, c, q)).cplHead = (if 2 ^ 31 ≤ sub32 (fld (wordsOf 8 p.payload) 0 63 32) (s.queue (v, c, q)).cplHead then (s.queue (v, c, q)).cplHead
        else fld (wordsOf 8 p.payload) 0 63 32) ∧
      ((t.queue (v, c, q)).st = .error ↔ 2 ^ (s.queue (v, c, q)).ringLog2 < sub32 (t.queue (v, c, q)).cmdTail (s.queue (v, c, q)).cmdHead ∨
        sub32 (s.queue (v, c, q)).cplTail (s.queue (v, c, q)).cplHead < sub32 (t.queue (v, c, q)).cplHead (s.queue (v, c, q)).cplHead)) ∧
  (∀ (v : Nat) (p : Packet) (s : State), Up s → p.ty = .store → addrSpace p.addr = 4 → v < 256 → addrOff p.addr = v * 65536 → Admitted 255 p s →
    ∃ t, Does (.fmtSelectWrite p) s t ∧ t.mem = s.mem ∧
      (t.vi v).fmtSelect = (if fld (wordsOf 8 p.payload) 3 1 0 = 1 ∨ fld (wordsOf 8 p.payload) 3 1 0 = 2 then fld (wordsOf 8 p.payload) 3 1 0 else (s.vi v).fmtSelect)) ∧
  (∀ (v m : Nat) (p : Packet) (s : State), Up s → p.ty = .store → addrSpace p.addr = 5 → v < 256 → m < 4 → addrOff p.addr = v * 16384 + m * 4096 → Admitted 255 p s →
    (s.mbox v m).busy = true → ∃ t, Does (.mailboxHeaderStore p) s t ∧ (t.mbox v m).busy = true ∧ (t.mbox v m).dropped = min 255 ((s.mbox v m).dropped + 1) ∧ t.mem = s.mem) ∧
  (∀ (v m : Nat) (p : Packet) (s : State), Up s → p.ty = .store → addrSpace p.addr = 5 → v < 256 → m < 4 → addrOff p.addr = v * 16384 + m * 4096 → Admitted 255 p s →
    (s.mbox v m).busy = false → s.adeahUp = true → (s.mbox v m).lastSeq ≠ some (fld (wordsOf 8 p.payload) 0 31 16) → ∃ t, Does (.mailboxHeaderStore p) s t ∧
      (t.mbox v m).lastSeq = some (fld (wordsOf 8 p.payload) 0 31 16) ∧ (t.mbox v m).header = wordsOf 8 p.payload ∧ (t.mbox v m).acceptT = s.now) ∧
  (∀ (v n : Nat) (p : Packet) (s : State), Up s → p.ty = .store → addrSpace p.addr = 4 → v < 256 → n < 64 → addrOff p.addr = 16777216 + v * 4096 + n * 64 → Admitted 255 p s →
    ∃ t, Does (.triggerCounterStore p) s t ∧ t.counter v n = word (wordsOf 1 p.payload) 0 ∧ t.mem = s.mem) ∧
  (∀ (v n : Nat) (p : Packet) (s : State), Up s → p.ty = .fetchAdd → addrSpace p.addr = 4 → v < 256 → n < 64 → addrOff p.addr = 16777216 + v * 4096 + n * 64 → Admitted 255 p s →
    ∃ t, Does (.triggerCounterFetchAdd p) s t ∧ t.counter v n = (s.counter v n + p.operand) % 2 ^ 64 ∧ t.mem = s.mem) ∧
  (∀ (v off : Nat) (p : Packet) (s : State), Up s → p.ty = .store → addrSpace p.addr = 4 → v < 256 → 64 ≤ off → off < 8192 → addrOff p.addr = v * 65536 + off → Admitted 255 p s →
    ∃ t, Does (.registerWriteOther p) s t ∧ t.work = s.work ∧ t.adh = s.adh ∧ t.mem = s.mem) ∧
  (∀ (v m l : Nat) (p : Packet) (s : State), Up s → p.ty = .store → addrSpace p.addr = 4 → v < 256 → m < 4 → 0 < l → l < 32 → addrOff p.addr = v * 65536 + 49152 + m * 4096 + l * 64 →
    Admitted 255 p s → ∃ t, Does (.registerWriteOther p) s t ∧ t.mboxLine v m l = p.payload ∧ (t.mbox v m).busy = (s.mbox v m).busy ∧ t.work = s.work ∧ t.mem = s.mem)

/-- Held flags, responses, transit packets, retries, dead targets and paths. A held STORE_FLAG whose writes are answered leaves; a response ends the request it answers; a transit packet goes on one hop further while its path has credit and is discarded after 1 ms without it; a request without response goes out again on the next path and its path is marked down; dead_bound marks the destination unreachable and ends the request; a probe goes out every 100 µs; held path events are raised after 1 s. The model's own choices in it are those of log 12, 56. -/
def Obligations.PacketsAndPaths : Prop :=
  (∀ (flag : Nat) (h : HeldFlag) (s : State), Up s → Tbl.get s.fab.flags flag = some h →
    h.failed = true ∨ (h.waits.all (fun x => !Tbl.has s.fab.out (h.pkt.dst, x)) = true ∧ h.moves.all (fun m => !Tbl.has s.work.cmds m) = true) →
    ∃ t, Does (.storeFlagRelease flag) s t ∧ Tbl.get t.fab.flags flag = none) ∧
  (∀ (p : Packet) (o : OutReq) (st : Status) (s : State), Up s → p.resp = true → p.ty ≠ .msgCtrl → p.dst = s.node → p.src ≠ s.node → responseFormOk p = true → p.crcOk = true →
    Tbl.get s.fab.out (p.src, p.tag) = some o → o.purpose = .endpoint ∨ o.purpose = .probe → o.pkt.ty = p.ty → o.pkt.payloadLen = p.payloadLen ∨ p.ty ≠ .read →
    Status.ofCode p.status = some st → st ≠ .packetCheck → st ≠ .retryNoBuffer → ∃ t, Does (.packetResponseReceive p) s t ∧ Tbl.get t.fab.out (p.src, p.tag) = none) ∧
  (∀ (port out : Nat) (p : Packet) (s : State), Up s → p.dst ≠ s.node → p.src ≠ s.node → (s.port port).arrived.contains p = true → p.crcOk = true → p.hops < 15 →
    s.egress p.dst p.path = some out → (s.port out).st = .active → s.hasUnits p.dst p.path ({ p with hops := p.hops + 1 } : Packet).sealed = true → port ≠ 255 →
    ∃ t, Does (.packetTransitForward port p) s t ∧ t.lnk.queue = s.lnk.queue ++ [{ port := out, pkt := ({ p with hops := p.hops + 1 } : Packet).sealed, at_ := s.now }] ∧ t.mem = s.mem) ∧
  (∀ (id : Nat) (x : Transit) (s : State), Up s → Tbl.get s.fab.transit id = some x → x.since + 1000000 ≤ s.now →
    ∃ t, Does (.transitCreditTimeout id) s t ∧ Tbl.get t.fab.transit id = none ∧ t.fab.discards = s.fab.discards + 1 ∧ t.mem = s.mem) ∧
  (∀ (dst tag x : Nat) (o : OutReq) (s : State), Up s → Tbl.get s.fab.out (dst, tag) = some o → dst < 4096 → dst ≠ s.node → o.answered = false → o.purpose ≠ .probe →
    o.lastSent + s.fab.deadBound / 10 ≤ s.now → s.nextPath o.pkt = some x → ∃ t o', Does (.retryIntervalTimer dst tag) s t ∧ Tbl.get t.fab.out (dst, tag) = some o' ∧
      o'.pkt.path = x ∧ o'.lastSent = s.now ∧ (t.peer dst).down.contains o.pkt.path = true) ∧
  (∀ (dst tag : Nat) (o : OutReq) (s : State), Up s → Tbl.get s.fab.out (dst, tag) = some o → o.answered = false → o.purpose = .endpoint → o.firstSent + s.fab.deadBound ≤ s.now →
    ∃ t, Does (.deadBoundExpiry dst tag) s t ∧ Tbl.get t.fab.out (dst, tag) = none ∧ (t.peer dst).dead = true) ∧
  (∀ (dst path : Nat) (s : State), Up s → dst < 4096 → dst ≠ s.node → (s.peer dst).dead = true ∨ (s.peer dst).down.contains path = true → s.pathUsable dst path = true →
    Tbl.at (s.peer dst).probeAt path 0 + 100000 ≤ s.now → ∃ t o, Does (.pathProbeTimer dst path) s t ∧ Tbl.get t.fab.out (dst, (s.peer dst).nextTag) = some o ∧ o.purpose = .probe ∧
      o.pkt.ty = .load ∧ o.pkt.path = path ∧ Tbl.get (t.peer dst).probeAt path = some s.now) ∧
  (∀ (dst : Nat) (up : Bool) (s : State), Up s → Tbl.at (s.peer dst).pathHeld up [] ≠ [] → Tbl.at (s.peer dst).pathEvAt up 0 + 1000000000 ≤ s.now →
    ∃ t, Does (.pathEventHoldTimer dst up) s t ∧ Tbl.get (t.peer dst).pathHeld up = none ∧ Tbl.get (t.peer dst).pathEvAt up = some s.now ∧ t.log.evSeq = s.log.evSeq + 1)

/-- Messages, their control and their timeouts. A first packet of a longer message claims the oldest buffer of its list, places its bytes and counts them; MSG_CTRL done with the message's CRC completes the SEND with ST_OK; a packet that waited for a buffer goes out again after 10 µs, and rnr_limit ends the SEND; a message not whole after msg_timeout becomes a tombstone for max(2 × msg_timeout, 20 ms), which ends; a SEND without MSG_CTRL ends with ST_MSG_TIMEOUT. The model's own choices in it are those of log 12. -/
def Obligations.Messages : Prop :=
  (∀ (port : Nat) (p : Packet) (b : Buffer) (bs : List Buffer) (s : State), Up s → p.ty = .sendData → p.resp = false → s.policedBy port p = none → requestFormOk p = true → p.crcOk = true →
    p.dst = s.node → (s.taken port p).kept p = none → (s.taken port p).messageFault port p = none → Tbl.get s.fab.reorder (p.src, p.msgId) = none → s.fab.reorder.length < 16384 →
    Tbl.at s.fab.lists (bits p.addr 63 56, bits p.addr 55 52) [] = b :: bs → bits p.addr 51 27 ≤ b.len → bits p.addr 26 8 * 64 + p.payloadLen ≤ bits p.addr 51 27 →
    p.payloadLen < bits p.addr 51 27 → ∃ t r, Does (.sendData port p) s t ∧ Tbl.get t.fab.reorder (p.src, p.msgId) = some r ∧ r.buf = b ∧ r.tally = p.payloadLen ∧
      r.msgLen = bits p.addr 51 27 ∧ Tbl.at t.fab.lists (bits p.addr 63 56, bits p.addr 55 52) [] = bs ∧ t.mem = memPuts s.mem (b.addr + bits p.addr 26 8 * 64) p.payload) ∧
  (∀ (p : Packet) (x : OutMsg) (c : Cmd) (s : State), Up s → p.ty = .msgCtrl → responseFormOk p = true → p.crcOk = true → p.dst = s.node → Tbl.get s.fab.msgs p.msgId = some x →
    x.dst = p.src → Tbl.get s.work.cmds x.cid = some c → fld (wordsOf 8 p.payload) 0 63 56 = 1 → word (wordsOf 8 p.payload) 1 = x.crc →
    ∃ t, Does (.msgCtrl p) s t ∧ t.ended x.cid .ok x.crc ∧ Tbl.get t.fab.msgs p.msgId = none ∧ t.mem = s.mem) ∧
  (∀ (dst tag m first : Nat) (o : OutReq) (x : OutMsg) (c : Cmd) (s : State), Up s → Tbl.get s.fab.out (dst, tag) = some o → o.answered = true → o.rnrFirst = some first →
    first + s.fab.rnrLimit ≤ s.now → o.purpose = .message m → Tbl.get s.fab.msgs m = some x → Tbl.get s.work.cmds x.cid = some c →
    ∃ t, Does (.rnrResendTimer dst tag) s t ∧ t.ended x.cid .retryNoBuffer x.crc ∧ Tbl.get t.fab.msgs m = none ∧ t.mem = s.mem) ∧
  (∀ (dst tag first : Nat) (o : OutReq) (s : State), Up s → dst ≠ s.node → Tbl.get s.fab.out (dst, tag) = some o → o.answered = true → o.rnrFirst = some first →
    s.now < first + s.fab.rnrLimit → o.rnrLast + 10000 ≤ s.now → ∃ t o', Does (.rnrResendTimer dst tag) s t ∧ Tbl.get t.fab.out (dst, tag) = some o' ∧ o'.answered = false ∧
      o'.lastSent = s.now ∧ t.mem = s.mem) ∧
  (∀ (src msg : Nat) (r : Reorder) (s : State), Up s → Tbl.get s.fab.reorder (src, msg) = some r → r.tomb = none → r.firstT + s.fab.msgTimeout ≤ s.now →
    ∃ t r', Does (.msgTimeout src msg) s t ∧ Tbl.get t.fab.reorder (src, msg) = some r' ∧ r'.tomb = some (.msgTimeout, s.now + max (2 * s.fab.msgTimeout) 20000000)) ∧
  (∀ (msg : Nat) (x : OutMsg) (c : Cmd) (s : State), Up s → Tbl.get s.fab.msgs msg = some x → Tbl.get s.work.cmds x.cid = some c → x.unacked = 0 → fld c.op 4 31 7 ≤ x.next →
    x.ackedAt + s.fab.msgTimeout ≤ s.now → ∃ t, Does (.sendCtrlTimeout msg) s t ∧ t.ended x.cid .msgTimeout x.crc ∧ Tbl.get t.fab.msgs msg = none ∧ t.mem = s.mem) ∧
  (∀ (src msg at_ : Nat) (st : Status) (r : Reorder) (s : State), Up s → Tbl.get s.fab.reorder (src, msg) = some r → r.tomb = some (st, at_) → at_ ≤ s.now →
    ∃ t, Does (.tombstoneExpiry src msg) s t ∧ Tbl.get t.fab.reorder (src, msg) = none ∧ t = { s with fab := t.fab })

/-- Windows drain and change, and arms expire. A draining window with nothing admitted becomes REVOKED, or CLOSED where it is being closed; a revoke held back starts draining with the next generation once the generation may rise; an arm not fired in its time completes with ST_TRIGGER_EXPIRED and leaves. -/
def Obligations.WindowsAndArms : Prop :=
  (∀ (w : Nat) (s : State), Up s → (s.window w).st = .draining → (s.window w).admitted = 0 →
    ∃ t, Does (.windowDrained w) s t ∧ (t.window w).st = (if (s.window w).closing then .closed else .revoked) ∧ (t.window w).gen = (s.window w).gen) ∧
  (∀ (w : Nat) (s : State), Up s → (s.window w).st = .opened → (s.window w).held = [.revoke] → (s.window w).mayRise s.now = true →
    ∃ t, Does (.windowGenHoldTimer w) s t ∧ (t.window w).st = .draining ∧ (t.window w).gen = nextGen (s.window w).gen ∧ (t.window w).held = [] ∧ t = { s with fab := t.fab }) ∧
  (∀ (cid e : Nat) (a : Arm) (c : Cmd) (s : State), Up s → s.fab.arms.find? (fun x => x.cid == cid) = some a → a.expireAt = some e → e ≤ s.now → Tbl.get s.work.cmds cid = some c →
    ∃ t, Does (.triggerExpire cid) s t ∧ t.ended cid .triggerExpired 0 ∧ t.fab.arms = s.fab.arms.filter (fun b => b.cid != cid) ∧ t.mem = s.mem)

/-- MOVE_LINES, SEND, RECV_POST and TRIGGER_ARM. MOVE_LINES between disjoint line ranges of this node outside flash copies the source to the destination, changes no other byte, and ends with ST_OK and its lines; SEND takes the next message id; RECV_POST joins its buffer to its list and parks; TRIGGER_ARM keeps its pre-posted command as memory holds it and parks below its threshold. The model's own choices in it are those of log 1. -/
def Obligations.MoverCommands : Prop :=
  (∀ (cid : Nat) (c : Cmd) (s : State), Up s → Memory.wf s.mem → s.running cid 1 1 = some c → Tbl.has s.fab.jobs cid = false → s.byPacket (word c.op 2) = false →
    s.byPacket (word c.op 3) = false → addrSpace (word c.op 3) ≠ 2 → word c.op 2 % 64 = 0 → word c.op 3 % 64 = 0 →
    word c.op 2 + 64 * fld c.op 4 63 40 ≤ word c.op 3 ∨ word c.op 3 + 64 * fld c.op 4 63 40 ≤ word c.op 2 →
    (∀ i, i < fld c.op 4 63 40 → s.readFault (word c.op 2 + 64 * i) 64 = none ∧ s.lineLost (word c.op 3 + 64 * i) false = false) →
    ∃ t, Does (.moveLines cid) s t ∧ t.ended cid .ok (fld c.op 4 63 40) ∧
      ∀ a, t.rd1 a = if word c.op 3 ≤ a ∧ a < word c.op 3 + 64 * fld c.op 4 63 40 then s.rd1 (word c.op 2 + (a - word c.op 3)) else s.rd1 a) ∧
  (∀ (cid : Nat) (c : Cmd) (s : State), Up s → s.running cid 1 4 = some c → s.fab.msgs.any (fun m => m.2.cid == cid) = false → s.readFault (word c.op 2) (fld c.op 4 31 7) = none →
    fld c.op 3 63 52 = s.node ∨ s.unreachable (fld c.op 3 63 52) = false → ∃ t, Does (.send cid) s t ∧ t.fab.nextMsg = (s.fab.nextMsg + 1) % 2 ^ 32) ∧
  (∀ (cid : Nat) (c : Cmd) (s : State), Up s → s.running cid 1 5 = some c → (Tbl.at s.fab.lists (c.vi, fld c.op 4 38 35) []).length < 4096 →
    ∃ t, Does (.recvPost cid) s t ∧ (Tbl.get t.work.cmds cid).map (·.st) = some .parked ∧ t.mem = s.mem ∧
      Tbl.at t.fab.lists (c.vi, fld c.op 4 38 35) [] = Tbl.at s.fab.lists (c.vi, fld c.op 4 38 35) [] ++
        [{ cid := cid, addr := word c.op 2, info := word c.op 3, len := fld c.op 4 63 39 }]) ∧
  (∀ (cid : Nat) (c : Cmd) (s : State), Up s → s.running cid 1 6 = some c → armReached (s.counter c.vi (fld c.op 4 63 58)) (word c.op 3) = false →
    (s.fab.arms.filter (fun x => x.vi == c.vi)).length < 1024 → ∃ t, Does (.triggerArm cid) s t ∧ (Tbl.get t.work.cmds cid).map (·.st) = some .parked ∧
      (Tbl.get t.work.cmds cid).bind (·.work) = some (s.rdWords (word c.op 2) 8) ∧ t.fab.arms.length = s.fab.arms.length + 1 ∧ t.mem = s.mem)

/-- Mailbox operations are answered. An operation whose request Adeah holds and whose form admits its caller: made through a mailbox and completed at once, its mailbox is answered with the operation's status, result and body and is IDLE; made in a management session, one datagram answers it; not admitted, it changes nothing but the violation log and is answered ST_VIOLATION. An operation Adeah does not hold changes nothing. The model's own choices in it are those of log 31, 34. -/
def Obligations.OperationAnswers : Prop :=
  (∀ (op : Nat) (f : Form) (c : Caller) (g : State → AdhOut) (s : State), AskedBox s op f c → (g s).st ≠ .violation → (g s).st ≠ .adhAccepted → (g s).st ≠ .delayed →
    (s.adhRun op f c g).replied c (g s).st (g s).result (g s).body) ∧
  (∀ (op id : Nat) (f : Form) (c : Caller) (g : State → AdhOut) (s : State), Asked s op f c → c.session = some id → c.order = none → (g s).st ≠ .violation →
    ∃ d, (s.adhRun op f c g).log.grams = (g s).s.log.grams ++ [d] ∧ d.kind = 49602 ∧ d.bytes.take 24 = bytesOfWords [id, op, (g s).st.code]) ∧
  (∀ (op : Nat) (f : Form) (c : Caller) (g : State → AdhOut) (s : State), s.live = true → s.primaryUp = true → s.holdsReq c op = true → s.admits f c = false →
    c.session = none → c.order = none → (s.adhRun op f c g).replied c .violation 0 [] ∧ (s.adhRun op f c g).adh.violations ≠ []) ∧
  (∀ (op : Nat) (f : Form) (c : Caller) (g : State → AdhOut) (s : State), s.holdsReq c op = false → s.adhRun op f c g = s)

/-- ADH_HELLO to ADH_MGMT_CONFIG. ADH_HELLO answers the versions, the build, svn and the last order; ADH_ASYNC_SET sets the ring; ADH_EVENT_SUBSCRIBE adds the codes; an operator's ADH_HEALTH_STATUS ends the alert's cause of capacity lost; ADH_VIOLATION_READ answers the entries from a sequence on, oldest first; ADH_MGMT_CONFIG sets the addresses, the watch list and the collectors. The model's own choices in it are those of log 31. -/
def Obligations.InterfaceOperations : Prop :=
  (∀ (c : Caller) (s : State), AskedBox s 257 .userRead c → ∃ t, Does (.adhHello c) s t ∧
    t.replied c .ok (12 + 6 * 2 ^ 16 + 2 * 2 ^ 24 + 2 * 2 ^ 32) (wordsOf 6 (padTo 48 s.boot.image.build) ++ [s.boot.image.svn, u64 s.adh.lastOrder]) ∧ t.work = s.work ∧ t.mem = s.mem) ∧
  (∀ (c : Caller) (base log2 tail : Nat) (s : State), AskedBox s 258 .user c → 4 ≤ log2 → log2 ≤ 16 → base % 64 = 0 → tail % 64 = 0 →
    s.covers c.vi base (2 ^ log2 * 64) rWr = true → s.covers c.vi tail 64 rWr = true → ∃ t, Does (.adhAsyncSet c base log2 tail) s t ∧
      (t.vi c.vi).asyncRing = some { base := base, log2 := log2, tail := tail } ∧ t.mem = s.mem) ∧
  (∀ (c : Caller) (codes : List Nat) (s : State), AskedBox s 259 .user c → s.isOperator c = true → codes.all (fun n => Ev.all.any (fun e => e.code == n)) = true →
    ∃ t, Does (.adhEventSubscribe c codes) s t ∧ (∀ n, n ∈ codes → n ∈ (t.vi c.vi).subscribed) ∧ t.mem = s.mem) ∧
  (∀ (c : Caller) (s : State), AskedBox s 260 .userRead c → s.isOperator c = true → ∃ t, Does (.adhHealthStatus c) s t ∧ t.pw.capLost = false ∧ t.work = s.work) ∧
  (∀ (c : Caller) (first count : Nat) (s : State), AskedBox s 261 .oper c → ∃ t, Does (.adhViolationRead c first count) s t ∧ t.adh.violations = s.adh.violations ∧
    t.replied c .ok (((s.adh.violations.reverse).filter (fun e => decide (first ≤ e.seq))).take count).length
      ((((s.adh.violations.reverse).filter (fun e => decide (first ≤ e.seq))).take count).flatMap Violation.words)) ∧
  (∀ (c : Caller) (addrs watch collectors : List Nat) (s : State), Asked s 262 .oper c → watch.length ≤ 256 → watch.all (fun n => decide (n ≤ 4094)) = true →
    (addrs ++ collectors).all (fun a => decide (a < 2 ^ 128)) = true → ∃ t, Does (.adhMgmtConfig c addrs watch collectors) s t ∧
      t.adh.mgmtAddrs = addrs ∧ t.adh.watchList = watch ∧ t.adh.collectors = collectors ∧ t.work = s.work ∧ t.mem = s.mem)

/-- ADH_VI_ASSIGN to ADH_CONTEXT_UNBIND, and ADH_RIGHTS_SET. An order's ADH_VI_ASSIGN makes an UNASSIGNED VI ACTIVE with its rights, and ADH_RIGHTS_SET replaces those of an assigned VI; ADH_VI_RELEASE of an ACTIVE VI makes it QUIESCING; ADH_QUEUE_CREATE makes a queue ACTIVE with the VI's format; ADH_QUEUE_DESTROY makes it DRAINING; ADH_QUEUE_RESET keeps the two indices of a queue in ERROR; ADH_ENGINE_CONFIG and ADH_PHASE_SHARE set their instance; ADH_CONTEXT_LOAD takes the lowest EMPTY slot; ADH_CONTEXT_BIND maps a slot and ADH_CONTEXT_UNBIND removes the mapping. The model's own choices in it are those of log 14, 31, 34. -/
def Obligations.ViAndQueueOperations : Prop :=
  (∀ (c : Caller) (vi : Nat) (sources : List SrcId) (comps models : List Nat) (maxPriority : Nat) (shares : List Nat) (rb : Nat) (s : State), Asked s 513 .order c → 0 < vi → vi ≤ 255 →
    (s.vi vi).st = .unassigned → rightsOk sources comps models maxPriority shares rb = true → ∃ t, Does (.adhViAssign c vi sources comps models maxPriority shares rb) s t ∧
      (t.vi vi).st = .active ∧ (t.vi vi).rights = { compositions := comps, models := models, maxPriority := maxPriority, shares := shares, sources := sources, bits := rb } ∧ t.mem = s.mem) ∧
  (∀ (c : Caller) (vi : Nat) (sources : List SrcId) (comps models : List Nat) (maxPriority : Nat) (shares : List Nat) (rb : Nat) (s : State), Asked s 2822 .order c → 0 < vi → vi ≤ 255 →
    (s.vi vi).st ≠ .unassigned → rightsOk sources comps models maxPriority shares rb = true → ∃ t, Does (.adhRightsSet c vi sources comps models maxPriority shares rb) s t ∧
      (t.vi vi).st = (s.vi vi).st ∧ (t.vi vi).rights = { compositions := comps, models := models, maxPriority := maxPriority, shares := shares, sources := sources, bits := rb } ∧ t.mem = s.mem) ∧
  (∀ (c : Caller) (vi : Nat) (s : State), Asked s 514 .userOper c → s.isOperator c = true ∨ vi = c.vi → 0 < vi → vi ≤ 255 → (s.vi vi).st = .active →
    ∃ t, Does (.adhViRelease c vi) s t ∧ (t.vi vi).st = .quiescing) ∧
  (∀ (c : Caller) (cls q ringBase ringLog2 cplBase priority : Nat) (phaseG : Bool) (notify : Nat) (s : State), AskedBox s 515 .user c → 1 ≤ cls → cls ≤ 6 → q ≤ 15 →
    (s.queue (c.vi, cls, q)).st = .disabled → 6 ≤ ringLog2 → ringLog2 ≤ 16 → ringBase % (64 * 2 ^ ringLog2) = 0 → cplBase % (32 * 2 ^ ringLog2) = 0 → addrNode ringBase = s.node →
    addrNode cplBase = s.node → priority ≤ 3 → (s.vi c.vi).rights.maxPriority ≤ priority → notify % 64 = 0 →
    (s.work.queues.filter (fun e => e.1.2.1 == cls && e.2.st != .disabled)).length < (classSize cls).2 → s.covers c.vi ringBase (64 * 2 ^ ringLog2) (rRing + rRd) = true →
    s.covers c.vi cplBase (32 * 2 ^ ringLog2) (rRing + rWr) = true → ∃ t, Does (.adhQueueCreate c cls q ringBase ringLog2 cplBase priority phaseG none notify) s t ∧
      t.queue (c.vi, cls, q) = { st := .active, ringBase := ringBase, ringLog2 := ringLog2, cplBase := cplBase, priority := priority, phaseG := phaseG, inst := none, notifyAddr := notify, fmt := (s.vi c.vi).fmtSelect } ∧ t.mem = s.mem) ∧
  (∀ (c : Caller) (cls q : Nat) (s : State), AskedBox s 516 .user c → (s.queue (c.vi, cls, q)).st = .active ∨ (s.queue (c.vi, cls, q)).st = .error →
    ∃ t, Does (.adhQueueDestroy c cls q) s t ∧ (t.queue (c.vi, cls, q)).st = .draining ∧ t.mem = s.mem) ∧
  (∀ (c : Caller) (cls q cmdIndex cplIndex : Nat) (s : State), AskedBox s 517 .user c → (s.queue (c.vi, cls, q)).st = .error → (s.queue (c.vi, cls, q)).resetOp = none →
    ∃ t, Does (.adhQueueReset c cls q cmdIndex cplIndex) s t ∧ (t.queue (c.vi, cls, q)).resetOp.map (fun r => (r.1, r.2.1)) = some (cmdIndex, cplIndex) ∧ t.mem = s.mem) ∧
  (∀ (c : Caller) (cls i threshold : Nat) (s : State), Asked s 518 .oper c → 1 ≤ cls → cls ≤ 4 → i < (classSize cls).1 → 2000 ≤ threshold → threshold ≤ 500000 →
    ∃ t, Does (.adhEngineConfig c cls i threshold) s t ∧ t.inst cls i = { s.inst cls i with threshold := threshold } ∧ t.mem = s.mem) ∧
  (∀ (c : Caller) (cls i floorG floorP : Nat) (s : State), Asked s 519 .oper c → cls = 1 ∨ cls = 3 → i < (classSize cls).1 → floorG ≤ 128 → floorP ≤ 128 →
    ∃ t, Does (.adhPhaseShare c cls i floorG floorP) s t ∧ t.inst cls i = { s.inst cls i with floorG := floorG, floorP := floorP } ∧ t.mem = s.mem) ∧
  (∀ (c : Caller) (model comp headDim layers kvHeads qPerKv cbDir wtDir n : Nat) (s : State), Asked s 769 .oper c → model < 2 ^ 32 → 0 < comp → comp < 65535 →
    ([64, 96, 128, 192, 256] : List Nat).contains headDim = true → 0 < layers → layers ≤ 1024 → 0 < kvHeads → kvHeads ≤ 256 → 0 < qPerKv → cbDir % 64 = 0 → wtDir % 64 = 0 →
    addrNode cbDir = s.node → s.work.ctxs.all (fun x => x.2.st == .empty || x.2.f.model != model || x.2.f.composition != comp) = true →
    n < 64 → (s.ctx n).st = .empty → (∀ k, k < n → (s.ctx k).st ≠ .empty) → ∃ t, Does (.adhContextLoad c model comp headDim layers kvHeads qPerKv cbDir wtDir) s t ∧
      (t.ctx n).st = .loading ∧ (t.ctx n).f = { model := model, composition := comp, headDim := headDim, layers := layers, kvHeads := kvHeads, qPerKv := qPerKv, codebookDir := cbDir, weightDir := wtDir } ∧ t.mem = s.mem) ∧
  (∀ (c : Caller) (slot index : Nat) (s : State), AskedBox s 770 .user c → slot < 64 → index < 16 → (s.ctx slot).st = .ready ∨ (s.ctx slot).st = .loading →
    c.vi = 0 ∨ (s.vi c.vi).rights.models.contains (s.ctx slot).f.model = true → Tbl.has (s.vi c.vi).ctxMap index = false →
    ∃ t, Does (.adhContextBind c slot index) s t ∧ Tbl.get (t.vi c.vi).ctxMap index = some slot ∧ t.mem = s.mem) ∧
  (∀ (c : Caller) (slot index : Nat) (s : State), AskedBox s 771 .user c → Tbl.get (s.vi c.vi).ctxMap index = some slot →
    ∃ t, Does (.adhContextUnbind c index) s t ∧ Tbl.get (t.vi c.vi).ctxMap index = none)

/-- ADH operations of compositions, the directory, leaps and codebooks. An order's ADH_COMPOSITION_DEFINE defines a composition of the first epoch with its pools and fields; the status, meter, directory and receipt reads answer and change no work; ADH_LEAP_POLICY sets the lease length and the composition's leap fields; ADH_LEAP_START keeps the operation and its target; ADH_CODEBOOK_FACTORS keeps a set's factors; ADH_CODEBOOK_LOAD at the calibration node issues the next version to a sound object; ADH_CALIBRATION_POLICY and ADH_ATTEND_POLICY set their fields. The model's own choices in it are those of log 12, 31, 34, 35. -/
def Obligations.ServiceOperations : Prop :=
  (∀ (c : Caller) (comp model epoch : Nat) (prompt gen cache home : List Nat) (prot repr beat : Nat) (quotas : List Nat) (pr : Protection) (s : State), Asked s 1025 .order c →
    protOf prot = some pr → 0 < comp → comp < 65535 → model < 2 ^ 32 → epoch < 2 ^ 32 → [prompt, gen, cache, home].all (fun l => l.all (fun n => decide (n < 4095)) && decide l.Nodup) = true →
    home ≠ [] → home.length ≤ 4096 → repr ≤ 2 → 5000000 ≤ beat → beat ≤ 250000000 → quotas.length = 3 → pr = .none ∨ pr.least ≤ cache.length → (s.comp comp).maps = [] → s.comps.length < 64 →
    ∃ t, Does (.adhCompositionDefine c comp model epoch prompt gen cache home prot repr beat quotas) s t ∧ (t.comp comp).maps = [{ epoch := epoch, model := model, prompt := prompt, gen := gen, cache := cache, home := home, protection := pr, kvRepr := repr, beat := beat, quotas := quotas }] ∧ t.work = s.work ∧ t.mem = s.mem) ∧
  (∀ (c : Caller) (comp : Nat) (s : State), AskedBox s 1026 .userRead c → s.coversComp c.vi comp = true → (s.comp comp).maps ≠ [] → (s.comp comp).maps.length = 1 →
    ∃ t, Does (.adhCompositionStatus c comp) s t ∧ t.work = s.work ∧ t.comps = s.comps ∧
      t.replied c .ok 0 ([(s.comp comp).cur.epoch, (s.comp comp).cur.epoch, 0, (s.comp comp).cur.prompt.length, (s.comp comp).cur.gen.length, (s.comp comp).cur.cache.length,
        (s.comp comp).cur.home.length] ++ (s.comp comp).cur.prompt ++ (s.comp comp).cur.gen ++ (s.comp comp).cur.cache ++ (s.comp comp).cur.home)) ∧
  (∀ (c : Caller) (comp first count : Nat) (s : State), AskedBox s 1027 .userRead c → s.coversComp c.vi comp = true → (s.comp comp).maps ≠ [] →
    ∃ t, Does (.adhMeterRead c comp first count) s t ∧ t.work = s.work ∧ t.comps = s.comps ∧
      t.replied c .ok (((s.comp comp).meters.reverse.drop first).take count).length ((((s.comp comp).meters.reverse.drop first).take count).flatMap Meter.words)) ∧
  (∀ (c : Caller) (req : Nat) (e : DirEntry) (s : State), AskedBox s 1281 .userRead c → s.entry req = some e → s.coversComp c.vi e.composition = true →
    ∃ t, Does (.adhDirectoryRead c req) s t ∧ t.work = s.work ∧ t.own = s.own ∧ t.replied c .ok 0 (e.words req)) ∧
  (∀ (c : Caller) (req first count : Nat) (e : DirEntry) (s : State), AskedBox s 1282 .userRead c → s.entry req = some e → s.coversComp c.vi e.composition = true →
    ∃ t, Does (.adhReceiptRead c req first count) s t ∧ t.work = s.work ∧ t.own = s.own ∧
      t.replied c .ok ((e.receipts.drop first).take count).length (((e.receipts.drop first).take count).flatMap (fun r => wordsOf 32 (r.bytes req)))) ∧
  (∀ (c : Caller) (comp lease leapTimeout pullMode pullDeadline : Nat) (s : State), Asked s 1283 .oper c → (s.comp comp).maps ≠ [] → 200000 ≤ lease → lease ≤ 5000000 → 200000 ≤ leapTimeout →
    leapTimeout ≤ 10000000 → pullMode ≤ 2 → 50000 ≤ pullDeadline → pullDeadline ≤ 100000000 → ∃ t, Does (.adhLeapPolicy c comp lease leapTimeout pullMode pullDeadline) s t ∧
      t.own.leaseLen = lease ∧ t.comp comp = { s.comp comp with leapTimeout := leapTimeout, pullMode := pullMode, pullDeadline := pullDeadline } ∧ t.mem = s.mem) ∧
  (∀ (c : Caller) (req : Nat) (target : Option Nat) (r : Req) (s : State), AskedBox s 1284 .oper c → s.req req = some r → (s.hold req).frozen = false → (s.hold req).startOp = none →
    target.all (fun x => ((s.comp r.composition).mapAt r.mapEpoch).gen.contains x && x != s.node) = true →
    ∃ t, Does (.adhLeapStart c req target) s t ∧ (t.hold req).startOp.isSome = true ∧ (t.hold req).startTarget = target) ∧
  (∀ (c : Caller) (slot layer head kv : Nat) (factors : List Nat) (s : State), Asked s 772 .oper c → (s.ctx slot).st = .ready ∨ (s.ctx slot).st = .loading → layer < (s.ctx slot).f.layers →
    head < (s.ctx slot).f.kvHeads → kv ≤ 1 → factors.length = (s.ctx slot).f.headDim → factors.all f32Positive = true → Tbl.get (s.ctx slot).factors (layer, head, kv) = none →
    ∃ t, Does (.adhCodebookFactors c slot layer head kv factors) s t ∧ Tbl.get (t.ctx slot).factors (layer, head, kv) = some factors ∧
      t.mem = memPuts s.mem ((s.ctx slot).f.factorBase + 4 * (s.ctx slot).f.headDim * (((layer * (s.ctx slot).f.kvHeads) + head) * 2 + kv)) (factors.flatMap (bytesOf 4))) ∧
  (∀ (c : Caller) (slot e l h kv : Nat) (obj : List Byte) (s : State), Asked s 773 .oper c → (s.ctx slot).st = .ready → obj.length = 64 + 512 * (s.ctx slot).f.headDim →
    fld (wordsOf 8 obj) 0 28 26 = dimCode (s.ctx slot).f.headDim → fld (wordsOf 8 obj) 0 25 0 = 0 → l = fld (wordsOf 8 obj) 0 46 37 → h = fld (wordsOf 8 obj) 0 36 29 →
    kv = fld (wordsOf 8 obj) 0 47 47 → l < (s.ctx slot).f.layers → h < (s.ctx slot).f.kvHeads → fld (wordsOf 8 obj) 1 63 32 = (s.ctx slot).f.model → fld (wordsOf 8 obj) 4 47 0 = 0 →
    word (wordsOf 8 obj) 5 = 0 → word (wordsOf 8 obj) 6 = 0 → s.calibNode (s.ctx slot).f.composition = s.node → s.hasFactors slot l h kv = true → e = (s.ctx slot).f.entry l h kv →
    (s.liveVers (s.ctx slot).f.composition e).length < 4 → (List.range 4).any (fun i => ((s.cbSet slot e).slot i).2.1 == 0) = true → ∃ t, Does (.adhCodebookLoad c slot obj) s t ∧
      Tbl.at t.cb.issued ((s.ctx slot).f.composition, e) 0 = (if objOk obj = true then nextVer (Tbl.at s.cb.issued ((s.ctx slot).f.composition, e) 0) (s.liveVers (s.ctx slot).f.composition e)
        else Tbl.at s.cb.issued ((s.ctx slot).f.composition, e) 0)) ∧
  (∀ (c : Caller) (comp : Nat) (node : Option Nat) (p : List Nat) (s : State), Asked s 774 .oper c → (s.comp comp).maps ≠ [] → p.length = 15 →
    (p.zip calibRanges).all (fun x => decide (x.2.1 ≤ x.1) && decide (x.1 ≤ x.2.2)) = true → node.all (fun n => (s.comp comp).cur.cache.contains n) = true →
    ∃ t, Does (.adhCalibrationPolicy c comp node p) s t ∧ (t.calib comp).node = node ∧ (t.calib comp).window = word p 0 ∧ (t.calib comp).moltRate = word p 12 ∧
      (t.calib comp).distHi = (s.calib comp).distHi ∧ t.work = s.work ∧ t.mem = s.mem) ∧
  (∀ (c : Caller) (comp distHi epsHi dvHi : Nat) (s : State), Asked s 775 .oper c → (s.comp comp).maps ≠ [] → [distHi, epsHi, dvHi].all (fun n => decide (256 ≤ n) && decide (n ≤ 1048576)) = true →
    ∃ t, Does (.adhAttendPolicy c comp distHi epsHi dvHi) s t ∧ t.calib comp = { s.calib comp with distHi := distHi, epsHi := epsHi, dvHi := dvHi } ∧ t.work = s.work ∧ t.mem = s.mem)

/-- ADH operations of arenas, tiers, regions and quotas. ADH_ARENA_DEFINE adds an arena whose descriptors lie behind its slots; ADH_TIER_CONFIG sets the SRAM tier, the next interleave and flash_op; ADH_TIER_POLICY, ADH_SCRUB_POLICY and an order's ADH_QUOTA_SET set their fields; ADH_TIER_STATUS answers and changes no tier; an order's ADH_REGION_SET writes its entry and raises the region generation. The model's own choices in it are those of log 13, 24, 31, 34. -/
def Obligations.TierOperations : Prop :=
  (∀ (c : Caller) (tier die headDim base slots : Nat) (parity : Bool) (s : State), Asked s 1537 .oper c → 1 ≤ tier → tier ≤ 3 → dimOk headDim = true → 0 < slots → base % 4096 = 0 →
    addrNode base = s.node → addrSpace base = tier → tier ≠ 1 ∨ (die ≤ 7 ∧ directDie base = some die ∧ directDie (base + slots * (256 * headDim + 64) - 1) = some die) →
    s.offsetDefined base = true → s.offsetDefined (base + slots * (256 * headDim + 64) - 1) = true → s.kv.arenas.all (fun x => !x.overlaps base (slots * (256 * headDim + 64))) = true →
    ∃ t, Does (.adhArenaDefine c tier die headDim base slots parity) s t ∧ t.kv.arenas = s.kv.arenas ++ [{ tier := tier, die := die, headDim := headDim, base := base, descBase := base + slots * (256 * headDim), slots := slots, parity := parity }] ∧ t.work = s.work) ∧
  (∀ (c : Caller) (sramTier interleave flashOp : Nat) (s : State), Asked s 1538 .oper c → sramTier ≤ 33554432 → interleave % 2 ^ 30 = 0 → interleave ≤ s.maxInterleave → 16 ≤ flashOp →
    flashOp ≤ 128 → ∃ t, Does (.adhTierConfig c sramTier interleave flashOp) s t ∧ t.boot = { s.boot with sramTier := sramTier, interleaveNext := interleave, flashOp := flashOp } ∧ t.mem = s.mem) ∧
  (∀ (c : Caller) (comp : Nat) (p : List Nat) (s : State), Asked s 1539 .oper c → (s.comp comp).maps ≠ [] → p.length = 8 →
    (p.zip tierRanges).all (fun x => decide (x.2.1 ≤ x.1) && decide (x.1 ≤ x.2.2)) = true → word p 1 < word p 0 → ∃ t, Does (.adhTierPolicy c comp p) s t ∧
      Tbl.get t.tier.policies comp = some { dramHigh := word p 0, dramLow := word p 1, idleDemote := word p 2, codeOnly := word p 3 == 1, deadline := word p 4, demoteRate := word p 5, regrowRate := word p 6, straggleLimit := word p 7 } ∧ t.mem = s.mem) ∧
  (∀ (c : Caller) (kind id : Nat) (s : State), AskedBox s 1540 .userRead c → kind ≤ 1 → s.isOperator c = true → ∃ t, Does (.adhTierStatus c kind id) s t ∧ t.tier = s.tier ∧ t.work = s.work ∧
    (t.mbox c.vi c.mbox).busy = false ∧ (t.mbox c.vi c.mbox).applied.map (fun a => a.body.take 3) =
      some [u64 ((Tbl.get s.tier.ceilings (kind, id, 1)).getD (2 ^ 64 - 1)), u64 (s.tierUse kind id 1), u64 (s.tierTransit kind id 1)]) ∧
  (∀ (c : Caller) (period : Nat) (s : State), Asked s 1541 .oper c → 3600000000000 ≤ period → period ≤ 604800000000000 → ∃ t, Does (.adhScrubPolicy c period) s t ∧
    t.tier = { s.tier with scrubPeriod := period } ∧ t.mem = s.mem) ∧
  (∀ (c : Caller) (vi index base limit owner rights : Nat) (s : State), Asked s 1542 .order c → 0 < vi → vi ≤ 255 → (s.vi vi).st ≠ .unassigned → index ≤ 63 → owner ≤ 255 → owner ≠ vi →
    rights ≤ 255 → base % 64 = 0 → limit % 64 = 63 → base ≤ limit → addrNode base = s.node → addrNode limit = s.node → addrSpace limit = addrSpace base → s.offsetDefined base = true →
    s.offsetDefined limit = true → s.adh.order = none → ∃ t, Does (.adhRegionSet c vi index base limit owner rights true) s t ∧
      Tbl.get (t.vi vi).regions index = some { base := base, limit := limit, owner := owner, valid := true, rights := rights } ∧ (t.vi vi).regionGen = ((s.vi vi).regionGen + 1) % 2 ^ 16 ∧ t.mem = s.mem) ∧
  (∀ (c : Caller) (kind id tier ceiling : Nat) (s : State), Asked s 1543 .order c → 1 ≤ tier → tier ≤ 3 → (kind = 0 ∧ id ≤ 255) ∨ (kind = 1 ∧ 0 < id ∧ id < 65535) →
    ∃ t, Does (.adhQuotaSet c kind id tier ceiling) s t ∧ Tbl.get t.tier.ceilings (kind, id, tier) = some ceiling ∧ t.work = s.work ∧ t.mem = s.mem)

/-- ADH operations of ports, routes, time and windows. ADH_PORT_CONFIG sets a port's fields; ADH_PORT_STATUS answers its status word; an order's ADH_PARTNER_SET sets an entry; ADH_ROUTE_LOAD sets or removes a forwarding entry; ADH_FABRIC_POLICY and ADH_TIME_CONFIG set their fields; an order's ADH_WINDOW_OPEN opens a window with the next generation and ADH_WINDOW_CLOSE starts to close one; ADH_WINDOW_REVOKE of an OPEN window starts its draining with the next generation; ADH_WINDOW_RENEW opens a REVOKED window with its generation; ADH_WINDOW_READ answers its entry. The model's own choices in it are those of log 31, 34. -/
def Obligations.FabricOperations : Prop :=
  (∀ (c : Caller) (port mode roles rate minWidth : Nat) (pools : List Nat) (endpoint : Option Nat) (eth : List Nat) (s : State), Asked s 1793 .oper c →
    portFieldsOk port mode roles rate minWidth pools endpoint eth = true → ∃ t, Does (.adhPortConfig c port mode roles rate minWidth pools endpoint eth) s t ∧ t.portExists port = true ∧
      (t.port port).cfg = { mode := mode, roles := roles, rate := rate, minWidth := minWidth, poolUnits := pools, endpoint := endpoint, ethType := word eth 0, mtu := word eth 1, udpPort := word eth 2, vlan := if word eth 3 = 0 then none else some (word eth 3), dscp := eth.drop 4 }) ∧
  (∀ (c : Caller) (port : Nat) (s : State), AskedBox s 1794 .userRead c → s.portExists port = true → ∃ t, Does (.adhPortStatus c port) s t ∧
    t.replied c .ok (s.portWord port) [s.portWord port] ∧ t.lnk = s.lnk ∧ t.mem = s.mem) ∧
  (∀ (c : Caller) (port entry : Nat) (f : List Nat) (s : State), Asked s 1795 .order c → s.portExists port = true → (s.port port).cfg.mode = 2 → entry ≤ 63 → f.length = 6 → word f 0 < 2 ^ 128 →
    word f 1 < 2 ^ 48 → 1 ≤ word f 2 → word f 2 ≤ 3 → word f 3 ≤ 4094 → word f 4 ≤ 63 → word f 5 ≤ 31 → ∃ t, Does (.adhPartnerSet c port entry (some f)) s t ∧
      Tbl.get (t.port port).partners entry = some { ipv6 := word f 0, mac := word f 1, role := word f 2, src := (word f 3, word f 4), endpoint := word f 5, mtu := (s.port port).cfg.mtu } ∧
      t = { s with lnk := t.lnk }) ∧
  (∀ (c : Caller) (dst path : Nat) (p : Option Nat) (s : State), Asked s 1796 .oper c → dst ≤ 4094 → path ≤ 15 → p.all (fun x => decide (portBase x ≤ 17) && decide (portHalf x ≤ 2)) = true →
    ∃ t, Does (.adhRouteLoad c [(dst, path, p)]) s t ∧ Tbl.get t.fab.routes (dst, path) = p) ∧
  (∀ (c : Caller) (deadBound msgTimeout rnrLimit : Nat) (s : State), Asked s 1797 .oper c → 2000 ≤ deadBound → deadBound ≤ 200000 → 100000 ≤ msgTimeout → msgTimeout ≤ 100000000 →
    10000 ≤ rnrLimit → rnrLimit ≤ 10000000 → ∃ t, Does (.adhFabricPolicy c deadBound msgTimeout rnrLimit) s t ∧
      t.fab = { s.fab with deadBound := deadBound, msgTimeout := msgTimeout, rnrLimit := rnrLimit } ∧ t.mem = s.mem) ∧
  (∀ (c : Caller) (domain : Nat) (pps : Bool) (p1 p2 utc : Nat) (s : State), Asked s 1798 .oper c → domain ≤ 127 → p1 ≤ 254 → p2 ≤ 255 → utc ≤ 255 →
    ∃ t, Does (.adhTimeConfig c domain [] pps p1 p2 none utc) s t ∧ t.time.domain = domain ∧ t.time.ppsEnable = pps ∧ t.time.priority1 = p1 ∧ t.time.priority2 = p2 ∧ t.time.utcOffset = utc ∧
      t.now = s.now ∧ t.mem = s.mem) ∧
  (∀ (c : Caller) (w base limit owner rights comp listMask : Nat) (srcs : List SrcId) (s : State), Asked s 1799 .order c → w ≤ 4094 → owner ≤ 255 → rights ≤ 15 → comp ≤ 65534 →
    listMask ≤ 65535 → srcs.length ≤ 8 → srcs.all (fun x => decide (x.1 ≤ 4094) && decide (x.2 ≤ 63)) = true → s.windowRange base limit = true → (s.window w).st ≠ .draining →
    (s.window w).held = [] → (s.window w).mayRise s.now = true → ∃ t, Does (.adhWindowOpen c w base limit owner rights comp listMask srcs) s t ∧ (t.window w).st = .opened ∧
      (t.window w).gen = nextGen (s.window w).gen ∧ (t.window w).e = { base := base, limit := limit, owner := owner, rights := rights, composition := comp, listMask := listMask, srcs := srcs } ∧
      t.mem = s.mem) ∧
  (∀ (c : Caller) (w : Nat) (s : State), AskedBox s 1800 .user c → w ≤ 4094 → (s.window w).st = .opened → (s.window w).e.owner = c.vi → (s.window w).held = [] →
    (s.window w).mayRise s.now = true → ∃ t, Does (.adhWindowRevoke c w) s t ∧ (t.window w).st = .draining ∧ (t.window w).gen = nextGen (s.window w).gen ∧
      (t.window w).revokeOps.length = (s.window w).revokeOps.length + 1 ∧ t.mem = s.mem) ∧
  (∀ (c : Caller) (w : Nat) (s : State), AskedBox s 1801 .user c → w ≤ 4094 → (s.window w).st = .revoked → (s.window w).e.owner = c.vi →
    ∃ t, Does (.adhWindowRenew c w) s t ∧ t.window w = { s.window w with st := .opened } ∧ t.mem = s.mem) ∧
  (∀ (c : Caller) (w : Nat) (s : State), Asked s 1802 .order c → w ≤ 4094 → (s.window w).st = .opened → (s.window w).held = [] → (s.window w).mayRise s.now = true →
    ∃ t, Does (.adhWindowClose c w) s t ∧ (t.window w).st = .draining ∧ (t.window w).closing = true ∧ (t.window w).gen = nextGen (s.window w).gen ∧ t.mem = s.mem) ∧
  (∀ (c : Caller) (w : Nat) (s : State), AskedBox s 1803 .user c → w ≤ 4094 → (s.window w).e.owner = c.vi → ∃ t, Does (.adhWindowRead c w) s t ∧ t.replied c .ok 0 (s.window w).words ∧
    t.fab = s.fab ∧ t.mem = s.mem)

/-- Trust, change orders, attestation and sessions. ADH_TRUST_INSTALL of a session sets an empty trust record; an order's ADH_TRUST_ROTATE and ADH_TRUST_CLEAR change it, ADH_FIRMWARE_UPDATE writes a verified image alone, and ADH_PERSONALITY_SET, ADH_NODE_RESET and ADH_CROAK_KEY set their fields; a change order of one action is applied exactly when every check of R404 passes, and its operation completes once its drains are zero; ADH_ATTEST answers the quote; a session opens exactly on a sound signature, takes an upload and a datagram with a sound HMAC, and closes after 60 s. The model's own choices in it are those of log 7, 31. -/
def Obligations.TrustOperations : Prop :=
  (∀ (c : Caller) (da no : Nat) (s : State), Asked s 2819 .mgmt c → s.adh.trust = none → keyOk da = true → keyOk no = true → ∃ t, Does (.adhTrustInstall c da no) s t ∧
    t.adh.trust = some (da, no) ∧ t.adh.m2 = extend s.adh.m2 (sha512 (trustBytes (some (da, no)))) ∧ t.mem = s.mem) ∧
  (∀ (c : Caller) (da no : Nat) (o : Nat × Nat) (s : State), Asked s 2820 .order c → s.adh.trust = some o → keyOk da = true → keyOk no = true →
    ∃ t, Does (.adhTrustRotate c (some da) (some no)) s t ∧ t.adh.trust = some (da, no) ∧ t.mem = s.mem) ∧
  (∀ (c : Caller) (s : State), Asked s 2821 .order c → ∃ t, Does (.adhTrustClear c) s t ∧ t.adh.trust = none ∧ t.mem = s.mem) ∧
  (∀ (c : Caller) (image : List Byte) (up : Bool) (s : State), Asked s 2823 .order c → image.length ≤ 33554432 → ∃ t, Does (.adhFirmwareUpdate c image up) s t ∧
    t.boot = (if imageFault image s.boot.svnMin = none then { s.boot with spiImage := image, raiseSvn := up } else s.boot) ∧ t.mem = s.mem) ∧
  (∀ (c : Caller) (p : Nat) (s : State), Asked s 2824 .order c → 1 ≤ p → p ≤ 3 → ∃ t, Does (.adhPersonalitySet c p) s t ∧ t.boot = { s.boot with personalityNext := p } ∧ t.mem = s.mem) ∧
  (∀ (c : Caller) (time : Nat) (s : State), Asked s 2825 .order c → ∃ t, Does (.adhNodeReset c time) s t ∧ t.boot = { s.boot with resetAt := some time } ∧ t.mem = s.mem) ∧
  (∀ (c : Caller) (key : List Byte) (s : State), Asked s 2826 .order c → ∃ t, Does (.adhCroakKey c key) s t ∧ t.adh = { s.adh with croakKey := some key } ∧ t.mem = s.mem) ∧
  (∀ (c : Caller) (order : List Byte) (p : Nat) (s : State), AskedBox s 2817 .oper c → 1 ≤ p → p ≤ 3 → ∃ t, Does (.adhChangeOrder c order [.personalitySet p]) s t ∧
    t.boot.personalityNext = (if orderFormatOk order [.personalitySet p] = true ∧ (fld (wordsOf 8 order) 0 23 12 = s.node ∨ fld (wordsOf 8 order) 0 23 12 = 4095) ∧
      orderSigned s.adh.trust order = true ∧ s.timeLocked = true ∧ word (wordsOf 8 order) 2 ≤ s.now ∧ s.now ≤ word (wordsOf 8 order) 3 ∧ s.adh.lastOrder < word (wordsOf 8 order) 1 ∧
      s.adh.order = none then p else s.boot.personalityNext)) ∧
  (∀ (o : OrderDrain) (s : State), Up s → s.adh.order = some o → s.orderDrained o = true → ∃ t, Does .orderDrainDone s t ∧ t.adh.order = none) ∧
  (∀ (c : Caller) (nonce : List Byte) (s : State), AskedBox s 2818 .userRead c → nonce.length = 64 → ∃ t body, Does (.adhAttest c nonce) s t ∧ t.replied c .ok 0 body ∧
    body.take 64 = wordsOf 64 (s.quote nonce) ∧ t.work = s.work) ∧
  (∀ (c : Caller) (principal da no : Nat) (challenge sig : List Byte) (s : State), s.live = true → s.primaryUp = true → s.adh.trust = some (da, no) → principal ≤ 1 → s.adh.sessions.length < 16 →
    ∃ t, Does (.adhSessionOpen c principal challenge sig) s t ∧ t.adh.nextSession = s.adh.nextSession + (if pssVerify (if principal = 0 then da else no) challenge sig = true then 1 else 0)) ∧
  (∀ (c : Caller) (id : Nat) (bytes : List Byte) (x : Session) (s : State), Asked s 2828 .mgmt c → c.session = some id → Tbl.get s.adh.sessions id = some x → Tbl.at x.upload 0 [] = [] →
    bytes.length ≤ 33554432 → ∃ t, Does (.adhUpload c 0 bytes) s t ∧ (Tbl.get t.adh.sessions id).map (fun y => Tbl.at y.upload 0 []) = some bytes ∧ t.mem = s.mem) ∧
  (∀ (bytes : List Byte) (x : Session) (s : State), Up s → s.primaryUp = true → Tbl.get s.adh.sessions (word (wordsOf 2 bytes) 0) = some x → 112 ≤ bytes.length → bytes.length ≤ 8304 →
    x.seq < word (wordsOf 2 bytes) 1 → x.header = [] → ∃ t, Does (.mgmtSessionDatagram bytes) s t ∧ (Tbl.get t.adh.sessions (word (wordsOf 2 bytes) 0)).map (·.seq) =
      some (if (hmacSha512 x.key (bytes.take 16 ++ bytes.drop 48)).take 32 = cut bytes 16 32 then word (wordsOf 2 bytes) 1 else x.seq)) ∧
  (∀ (id : Nat) (x : Session) (s : State), Up s → Tbl.get s.adh.sessions id = some x → x.lastAt + 60000000000 ≤ s.now → ∃ t, Does (.sessionIdleTimer id) s t ∧
    Tbl.get t.adh.sessions id = none ∧ t = { s with adh := t.adh })

/-- Croaks and Adeah's failover. With MG0 fenced and MG1 running Adeah, MG1 becomes primary; a due management die sends one croak on each port and counts it; a croak of another length is discarded and counted; a sound one of a watched node sets when it was last heard and clears its misses; the second miss in a row raises EV_CROAK_LOST; a plane silent for 10 ms is raised once. The model's own choices in it are those of log 39. -/
def Obligations.CroaksAndFailover : Prop :=
  (∀ s : State, Up s → s.adh.primary = 0 → s.isFenced (dieMG 0) = true → s.isFenced (dieMG 1) = false → Tbl.at s.boot.accepted 1 false = true →
    ∃ t, Does .adeahFailover s t ∧ t.adh.primary = 1 ∧ t.log.evSeq = s.log.evSeq + 1) ∧
  (∀ (mg : Nat) (s : State), Up s → mg ≤ 1 → Tbl.at s.boot.accepted mg false = true → s.isFenced (dieMG mg) = false → Tbl.at s.adh.croakAt mg 0 + 1000000 ≤ s.now →
    Tbl.has s.adh.croakAt mg = true → ∃ t, Does (.croakSendTimer mg) s t ∧ Tbl.get t.adh.croakAt mg = some s.now ∧ Tbl.at t.adh.croakCount mg 0 = (Tbl.at s.adh.croakCount mg 0 + 1) % 2 ^ 32 ∧
      t.log.grams.length = s.log.grams.length + 2 ∧ t.mem = s.mem) ∧
  (∀ (plane : Nat) (bytes : List Byte) (s : State), Up s → bytes.length ≠ 128 → ∃ t, Does (.croakReceive plane bytes) s t ∧ t.adh = { s.adh with croakDiscards := s.adh.croakDiscards + 1 } ∧
    t = { s with adh := t.adh }) ∧
  (∀ (plane n : Nat) (bytes : List Byte) (s : State), Up s → bytes.length = 128 → s.adh.croakKey = none → word (wordsOf 16 bytes) 15 = crc64 (bytes.take 120) → fld (wordsOf 16 bytes) 0 63 56 = 1 →
    fld (wordsOf 16 bytes) 0 55 44 = n → s.adh.watchList.contains n = true → plane ≤ 1 → ∃ t x, Does (.croakReceive plane bytes) s t ∧ Tbl.get t.adh.watched n = some x ∧ x.lastAt = s.now ∧
      x.lastCount = fld (wordsOf 16 bytes) 0 31 0 ∧ x.misses = 0 ∧ x.lost = false ∧ t = { s with adh := t.adh }) ∧
  (∀ (node : Nat) (x : Watched) (s : State), Up s → Tbl.get s.adh.watched node = some x → x.lost = false → x.misses = 1 → x.lastAt + 2100000 ≤ s.now →
    (s.fab.peers.filter (fun p => p.1 == node)).any (fun p => p.2.dead) = false → ∃ t y, Does (.croakMiss node) s t ∧ Tbl.get t.adh.watched node = some y ∧ y.misses = 2 ∧ y.lost = true ∧
      t.log.evSeq = s.log.evSeq + 1) ∧
  (∀ (node plane : Nat) (x : Watched) (s : State), Up s → Tbl.get s.adh.watched node = some x → plane ≤ 1 → x.planeRaised = false → x.lost = false →
    Tbl.at x.planeAt (1 - plane) 0 + 10000000 ≤ s.now → s.now < Tbl.at x.planeAt plane 0 + 10000000 → ∃ t y, Does (.croakPlaneTimer node plane) s t ∧ Tbl.get t.adh.watched node = some y ∧
      y.planeRaised = true ∧ t.log.evSeq = s.log.evSeq + 1)

/-- The steps of a leap. The old holder freezes a request it may freeze and asks its home; the home sets LEAPING with the target; the old holder keeps the grant and sends the manifest; the new holder keeps the offer, then the manifest with a claimed record, and answers with the digest it computed; on equal digests the home makes the target the holder of the next epoch in DECODING, on others it aborts; LEAP_COMMIT makes the claimed record the holder's; LEAP_RELEASE frees the old one and keeps its image lingering. The model's own choices in it are those of log 3, 12, 35. -/
def Obligations.LeapSteps : Prop :=
  (∀ (req : Nat) (target : Option Nat) (r : Req) (s : State), Up s → s.req req = some r → (s.hold req).frozen = false → s.commitPending req = false → s.fencedFor req = false →
    s.protDone req = true → r.promptTokens ≤ r.committed → ∃ t, Does (.leapFreeze req target) s t ∧ (t.hold req).frozen = true ∧ (t.hold req).requestedAt = some s.now ∧ t.sent (s.homeOf req) 1 req) ∧
  (∀ (h : MsgHdr) (digest : List Byte) (blocks tokens b : Nat) (e : DirEntry) (s : State), Up s → h.ver = 1 → s.entry h.req = some e → e.here = true → e.st = .decoding ∨ e.st = .protected_ ∨ e.st = .prefill →
    e.recoveryStep = 0 → e.epoch = h.epoch → e.holder = h.src → e.epoch + 1 ≠ 4294967295 → ∃ t e', Does (.leapRequest h digest blocks tokens (some b)) s t ∧ t.entry h.req = some e' ∧
      e'.st = .leaping ∧ e'.leapTarget = b ∧ e'.epoch = e.epoch ∧ e'.holder = e.holder ∧ e'.leapDigest = digest ∧ t.mem = s.mem) ∧
  (∀ (h : MsgHdr) (b : Nat) (r : Req) (s : State), Up s → s.req h.req = some r → h.ver = 1 → (s.hold h.req).frozen = true → h.epoch = r.holdEpoch + 1 →
    ∃ t, Does (.leapGrant h b) s t ∧ (t.hold h.req).grant = some (b, h.epoch, s.now) ∧ t.sent b 4 h.req ∧ t.mem = s.mem ∧ t.kv = s.kv) ∧
  (∀ (h : MsgHdr) (digest : List Byte) (blocks tokens old comp : Nat) (s : State), Up s → h.ver = 1 → s.freeRecords ≠ 0 → ∃ t o, Does (.leapOffer h digest blocks tokens old comp) s t ∧
    (t.hold h.req).offer = some o ∧ o.digest = digest ∧ o.oldHolder = old ∧ o.epoch = h.epoch ∧ o.offeredAt = s.now ∧ t = { s with own := t.own }) ∧
  (∀ (h : MsgHdr) (record ring : List Nat) (entries : List (List Nat)) (o : Offer) (s : State), Up s → (s.hold h.req).offer = some o → h.ver = 1 → h.src = o.oldHolder → h.epoch = o.epoch →
    s.freeRecords ≠ 0 → ∃ t, Does (.leapManifest h record ring entries) s t ∧ ((t.hold h.req).offer.bind (·.claimed)).map (·.holdEpoch) = some o.epoch ∧ (t.hold h.req).manifest = entries ∧
      t.sent (s.homeOf h.req) 5 h.req ∧ t.log.msgs.getLast?.map (·.tail) = some (manifestDigest entries)) ∧
  (∀ (h : MsgHdr) (e : DirEntry) (s : State), Up s → h.ver = 1 → s.entry h.req = some e → e.here = true → e.st = .leaping → e.leapPhase = 1 → h.src = e.leapTarget → h.epoch = e.epoch + 1 →
    ∃ t e', Does (.leapAccept h e.leapDigest) s t ∧ t.entry h.req = some e' ∧ e'.st = .decoding ∧ e'.holder = e.leapTarget ∧ e'.prevHolder = e.holder ∧ e'.epoch = e.epoch + 1 ∧
      e'.receipts.length = e.receipts.length + 1 ∧ t.mem = s.mem) ∧
  (∀ (h : MsgHdr) (digest : List Byte) (e : DirEntry) (s : State), Up s → h.ver = 1 → s.entry h.req = some e → e.here = true → e.st = .leaping → e.leapPhase = 1 → h.src = e.leapTarget →
    h.epoch = e.epoch + 1 → digest ≠ e.leapDigest → ∃ t e', Does (.leapAccept h digest) s t ∧ t.entry h.req = some e' ∧
      e'.st = (if e.leapFromDecode then .decoding else .protected_) ∧ e'.holder = e.holder ∧ e'.epoch = e.epoch ∧ t.log.evSeq = s.log.evSeq + 1) ∧
  (∀ (h : MsgHdr) (expiry receipt : Nat) (chain : List Byte) (o : Offer) (r : Req) (s : State), Up s → (s.hold h.req).offer = some o → o.claimed = some r → h.ver = 1 → h.epoch = o.epoch →
    ∃ t, Does (.leapCommit h expiry receipt chain) s t ∧ t.req h.req = some { r with holdEpoch := h.epoch } ∧ (t.hold h.req).offer = none ∧ t.mem = s.mem ∧ t.work = s.work) ∧
  (∀ (h : MsgHdr) (receipt b at_ : Nat) (r : Req) (s : State), Up s → (s.hold h.req).grant = some (b, h.epoch, at_) → h.ver = 1 → s.req h.req = some r →
    ∃ t, Does (.leapRelease h receipt) s t ∧ t.req h.req = none ∧ (t.hold h.req).grant = none ∧ (t.hold h.req).lingering.isSome = true)

/-- Aborts, queries and timeouts of a leap. LEAP_ABORT makes a holder go on with its request; a query is answered with what became of the leap; LEAP_STATE aborted is LEAP_ABORT, committed is LEAP_RELEASE at the old holder; a leap not accepted in leap_timeout is aborted at the home with its event; a holder without an outcome asks again every leap_timeout; a request returned to PROTECTED is frozen again when its time comes. The model's own choices in it are those of log 12, 35. -/
def Obligations.LeapEnds : Prop :=
  (∀ (h : MsgHdr) (reason : Nat) (r : Req) (s : State), Up s → h.ver = 1 → s.entry h.req = none → s.req h.req = some r → ∃ t, Does (.leapAbort h reason) s t ∧
    (t.hold h.req).frozen = false ∧ (t.hold h.req).grant = none ∧ (t.hold h.req).offer = none ∧ t.req h.req = some r) ∧
  (∀ (h : MsgHdr) (e : DirEntry) (s : State), Up s → h.ver = 1 → s.entry h.req = some e → e.here = true → ∃ t, Does (.leapQuery h) s t ∧ t.sent h.src 10 h.req ∧
    t.log.msgs.getLast?.map (·.fields) = some [if e.st = .leaping ∨ e.recoveryStep ≠ 0 then 0 else if e.lastCommitted then 1 else 2, e.holder] ∧ t = { s with log := t.log }) ∧
  (∀ (h : MsgHdr) (holder : Nat) (r : Req) (s : State), Up s → h.ver = 1 → s.req h.req = some r → ∃ t, Does (.leapState h 2 holder) s t ∧
    (t.hold h.req).frozen = false ∧ (t.hold h.req).grant = none ∧ t.req h.req = some r) ∧
  (∀ (h : MsgHdr) (b ep at_ holder : Nat) (r : Req) (s : State), Up s → h.ver = 1 → (s.hold h.req).grant = some (b, ep, at_) → s.req h.req = some r →
    ∃ t, Does (.leapState h 1 holder) s t ∧ t.req h.req = none ∧ (t.hold h.req).lingering.isSome = true) ∧
  (∀ (req : Nat) (e : DirEntry) (s : State), Up s → s.entry req = some e → e.here = true → e.st = .leaping → e.leapPhase = 1 → e.leapAt + (s.comp e.composition).leapTimeout ≤ s.now →
    ∃ t e', Does (.leapTimeout req) s t ∧ t.entry req = some e' ∧ e'.st = (if e.leapFromDecode then .decoding else .protected_) ∧ e'.leapPhase = 0 ∧ t.log.evSeq = s.log.evSeq + 1) ∧
  (∀ (req b ep at_ : Nat) (r : Req) (s : State), Up s → (s.hold req).grant = some (b, ep, at_) → s.req req = some r → (s.hold req).queryAt ≠ 0 → (s.hold req).queryAt ≤ s.now →
    ∃ t, Does (.leapQueryTimer req) s t ∧ (t.hold req).queryAt = s.now + s.leapTimeoutOf r ∧ t.sent (s.homeOf req) 9 req ∧ t.mem = s.mem) ∧
  (∀ (req at_ : Nat) (r : Req) (s : State), Up s → (s.hold req).retryAt = some at_ → at_ ≤ s.now → s.req req = some r → s.commitPending req = false → s.fencedFor req = false →
    ∃ t, Does (.leapRetryTimer req) s t ∧ (t.hold req).frozen = true ∧ (t.hold req).retryAt = none ∧ t.sent (s.homeOf req) 1 req)

/-- Leases and asserted holds. A holder renews every 125 µs; the home answers with the send time plus the lease length; an acknowledgement sets the expiry; g before it the lease is FENCED, and g after it the home marks it LAPSED; a holder that has the record confirms an assertion and another answers HOLD_NONE; a holder whose request was recovered writes its token ring anew, with the count and the acknowledged count at c_rec + 1 (or the prompt's length, or c_rec after a committed stop) and the automaton stepped over the last output ids; a confirmation ends a recovery with its event; HOLD_NONE and an unanswered assertion make the request an orphan; HOLD_REVOKE frees the record; a list's uncredited requests are revoked. The model's own choices in it are those of log 12, 48. -/
def Obligations.Leases : Prop :=
  (∀ (home : Nat) (s : State), Up s → s.heldFor home ≠ [] → (Tbl.at s.own.leases home {}).sentAt = 0 ∨ (Tbl.at s.own.leases home {}).sentAt + 125000 ≤ s.now →
    ∃ t, Does (.leaseRenewTimer home) s t ∧ (Tbl.at t.own.leases home {}).sentAt = s.now ∧ t.sent home 16 0 ∧ t.mem = s.mem ∧ t.work = s.work) ∧
  (∀ (h : MsgHdr) (sendTime n free : Nat) (s : State), Up s → h.ver = 1 → s.own.dir.all (fun x => x.2.here) = true → ∃ t, Does (.leaseRenew h sendTime n free) s t ∧
    (Tbl.at t.own.homeLeases h.src {}).expiry = sendTime + s.own.leaseLen ∧ (Tbl.at t.own.homeLeases h.src {}).lapsed = false ∧
    (Tbl.at t.own.homeLeases h.src {}).freeRecords = free ∧ t.sent h.src 17 0 ∧ t.mem = s.mem) ∧
  (∀ (h : MsgHdr) (expiry n k : Nat) (s : State), Up s → h.ver = 1 → (s.heldFor h.src).length = n → ∃ t, Does (.leaseAck h expiry n k) s t ∧
    (Tbl.at t.own.leases h.src {}).expiry = expiry ∧ (Tbl.at t.own.leases h.src {}).revokesDue = k ∧ t = { s with own := t.own }) ∧
  (∀ (home : Nat) (l : Lease) (s : State), Up s → Tbl.get s.own.leases home = some l → l.expiry ≤ s.now + s.fab.deadBound + 5000 → ∃ t, Does (.leaseFenceTimer home) s t ∧
    Tbl.get t.own.leases home = some { l with fenced := true } ∧ t = { s with own := t.own }) ∧
  (∀ (holder : Nat) (l : HomeLease) (s : State), Up s → Tbl.get s.own.homeLeases holder = some l → l.lapsed = false → l.expiry + (s.fab.deadBound + 5000) ≤ s.now →
    ∃ t, Does (.leaseLapse holder) s t ∧ (Tbl.get t.own.homeLeases holder).map (·.lapsed) = some true) ∧
  (∀ (h : MsgHdr) (chain : List Byte) (receipt : Nat) (x : Rebuild) (r : Req) (s : State), Up s → h.ver = 1 → x.known = none → s.assertable h.req h.epoch = some r → ∃ t, Does (.holdAssert h chain receipt x) s t ∧
    t.req h.req = some { r with holdEpoch := h.epoch } ∧ (t.hold h.req).frozen = false ∧ t.sent h.src 19 h.req ∧ t.mem = s.mem) ∧
  (∀ (h : MsgHdr) (chain : List Byte) (receipt tok spec st : Nat) (x : Rebuild) (a : Admitted) (p : Nat × Nat × Nat × Nat) (stopped : Bool) (outs : List Nat) (r : Req) (u s : State), Up s → h.ver = 1 →
    x.known = some a → s.assertable h.req h.epoch = some r → r.tokenRing ≠ 0 → stopped = (x.stop.filter (fun p => decide (p.1 + 1 = r.committed))).isSome →
    p = (if stopped then x.stop.getD (4294967295, 0, 0, 0) else (4294967295, 0, 0, 0)) → tok = (if r.committed < r.promptTokens then r.promptTokens else if stopped then r.committed else r.committed + 1) →
    spec = r.tokenRing + 64 + 8 * 2 ^ a.spec.ringLog2 → u = s.wrWords spec (autoObject a.spec) → outs = (x.ids.take tok).drop r.promptTokens →
    st = (outs.drop (outs.length - 64)).foldl (fun q i => u.autoStep spec 66 q i) 0 → ∃ t, Does (.holdAssert h chain receipt x) s t ∧ t.sent h.src 19 h.req ∧
      t.req h.req = some { r with holdEpoch := h.epoch } ∧ t.mem = (u.wrWords r.tokenRing ({ st := (if stopped then 2 else 1), log2 := a.spec.ringLog2, req := h.req, prompt := r.promptTokens, maxNew := a.spec.maxNew, tok := tok, acked := tok, stopPos := p.1, reason := p.2.1, stopSeq := p.2.2.1, stopLen := p.2.2.2, mstate := st, mdepth := (u.autoState spec st).1, spec := spec, bridge := a.bridge, standby := a.standby } : TokRing).words).mem) ∧
  (∀ (h : MsgHdr) (chain : List Byte) (receipt : Nat) (x : Rebuild) (s : State), Up s → h.ver = 1 → s.assertable h.req h.epoch = none → ∃ t, Does (.holdAssert h chain receipt x) s t ∧
    t.sent h.src 20 h.req ∧ t = { s with log := t.log }) ∧
  (∀ (h : MsgHdr) (e : DirEntry) (s : State), Up s → h.ver = 1 → s.entry h.req = some e → e.here = true → e.holder = h.src → e.epoch = h.epoch → e.recoveryStep ≠ 0 →
    ∃ t e', Does (.holdConfirm h) s t ∧ t.entry h.req = some e' ∧ e'.recoveryStep = 0 ∧ e'.assertAt = none ∧ t.log.evSeq = s.log.evSeq + 1) ∧
  (∀ (h : MsgHdr) (e : DirEntry) (s : State), Up s → h.ver = 1 → s.entry h.req = some e → e.here = true → e.holder = h.src → ∃ t, Does (.holdNone h) s t ∧
    (t.entry h.req).map (fun x => (x.recoveryStep, x.assertAt)) = some (1, none)) ∧
  (∀ (req at_ : Nat) (e : DirEntry) (s : State), Up s → s.entry req = some e → e.assertAt = some at_ → at_ + 100000 ≤ s.now → ∃ t, Does (.holdAssertTimeout req) s t ∧
    (t.entry req).map (fun x => (x.recoveryStep, x.assertAt)) = some (1, none)) ∧
  (∀ (h : MsgHdr) (s : State), Up s → h.ver = 1 → ∃ t, Does (.holdRevoke h) s t ∧ t.req h.req = none ∧ (t.hold h.req).revoked = true ∧ (t.hold h.req).frozen = false ∧ t.mem = s.mem) ∧
  (∀ (h : MsgHdr) (held : List (Nat × Nat)) (rid ep : Nat) (s : State), Up s → h.ver = 1 → (rid, ep) ∈ held → rid ∉ s.credited h.src → ∃ t m, Does (.holdList h held) s t ∧
    m ∈ t.log.msgs ∧ m.dst = h.src ∧ m.code = 21 ∧ m.req = rid ∧ t.mem = s.mem ∧ t.kv = s.kv)

/-- Orphan recovery, mirrors and takeover. Step 1 probes the next candidate; a step past the last ends the request with ST_ORPHAN_LOST; a probed node answers; a new holder without the record rebuilds it from what the log says and answers; a verified reply makes the candidate holder of the next epoch with an assertion; a candidate silent for 200 µs has failed; a mirrored entry is stored and acknowledged; the last acknowledgement sends the held messages; a failed backup is replaced in every entry; the end of a copy and a takeover are events. The model's own choices in it are those of log 3, 48, 52. -/
def Obligations.RecoveryAndMirrors : Prop :=
  (∀ (req c : Nat) (cs : List Nat) (e : DirEntry) (s : State), Up s → s.entry req = some e → e.here = true → e.probe = none → e.assertAt = none → e.recoveryStep = 1 → e.candidates = c :: cs →
    ∃ t e', Does (.orphanRecoveryStep req) s t ∧ t.entry req = some e' ∧ e'.probe = some (c, s.now) ∧ e'.candidates = cs ∧ t.mem = s.mem) ∧
  (∀ (req : Nat) (e : DirEntry) (s : State), Up s → s.entry req = some e → e.here = true → e.probe = none → e.assertAt = none → e.recoveryStep = 4 →
    ∃ t e', Does (.orphanRecoveryStep req) s t ∧ t.entry req = some e' ∧ e'.st = .failed ∧ e'.endStatus = some .orphanLost ∧ e'.holder = 0) ∧
  (∀ (h : MsgHdr) (receipt newHolder : Nat) (x : Rebuild) (s : State), Up s → h.ver = 1 → x.known = none → ∃ t, Does (.recoverProbe h receipt newHolder x) s t ∧
    t.sent h.src 25 h.req ∧ t.mem = s.mem ∧ t.kv = s.kv) ∧
  (∀ (h : MsgHdr) (receipt : Nat) (x : Rebuild) (a : Admitted) (ctx : Nat) (s : State), Up s → h.ver = 1 → x.known = some a → s.node ≠ 0 → s.req h.req = none → (s.hold h.req).lingering = none →
    s.freeRecords ≠ 0 → s.ctxFor a.composition = some ctx → ∃ t r, Does (.recoverProbe h receipt s.node x) s t ∧ t.sent h.src 25 h.req ∧ t.kv = s.kv ∧ (t.hold h.req).lingering = some (r, [], h.epoch) ∧
      r.composition = a.composition ∧ r.ctxSlot = ctx ∧ r.limit = a.limit ∧ r.promptTokens = a.promptTokens ∧ r.ownerVi = a.ownerVi ∧ r.mapEpoch = h.mapEpoch) ∧
  (∀ (h : MsgHdr) (cRec at_ : Nat) (e : DirEntry) (s : State), Up s → h.ver = 1 → s.entry h.req = some e → e.here = true → e.probe = some (h.src, at_) → e.receiptTokens ≤ cRec →
    e.epoch + 1 ≠ 4294967295 → ∃ t e', Does (.recoverReply h 0 cRec) s t ∧ t.entry h.req = some e' ∧ e'.holder = h.src ∧ e'.prevHolder = e.holder ∧ e'.epoch = e.epoch + 1 ∧ e'.probe = none ∧
      e'.assertAt = some s.now) ∧
  (∀ (req c at_ : Nat) (e : DirEntry) (s : State), Up s → s.entry req = some e → e.probe = some (c, at_) → e.recoveryStep = 1 → at_ + 200000 ≤ s.now →
    ∃ t, Does (.recoverProbeTimeout req) s t ∧ t.entry req = some e.candidateFailed ∧ t = { s with own := t.own }) ∧
  (∀ (h : MsgHdr) (image receipt : List Nat) (s : State), Up s → h.ver = 1 → (s.entry h.req).isSome = true ∨ s.own.dir.length < 4194304 → ∃ t, Does (.mirror h image receipt 0) s t ∧
    t.entry h.req = some { DirEntry.ofWords image with receipts := ((s.entry h.req).map (·.receipts)).getD [] } ∧ t.sent h.src 27 h.req ∧ t.mem = s.mem) ∧
  (∀ (h : MsgHdr) (e : DirEntry) (s : State), Up s → s.entry h.req = some e → h.ver = 1 → h.src = e.backup → e.mirrorWait = 1 → ∃ t, Does (.mirrorAck h) s t ∧
    t.entry h.req = some { e with mirrorWait := 0, heldMsgs := [] } ∧ t.log.msgs = s.log.msgs ++ e.heldMsgs ∧ t.mem = s.mem) ∧
  (∀ (failed : Nat) (s : State), Up s → failed ≠ s.node → (s.own.dir.map (·.1)).Nodup → s.own.dir.any (fun x => x.2.here && x.2.backup == failed) = true →
    ∃ t, Does (.backupReplace failed) s t ∧ t.own.dir.all (fun x => !(x.2.here && x.2.backup == failed)) = true ∧ t.mem = s.mem ∧ t.kv = s.kv) ∧
  (∀ (c : MirrorCopy) (s : State), Up s → s.own.mirrorCopy = some c → ∃ t, Does .homeMirrorCopyDone s t ∧ t.own.mirrorCopy = none ∧ t.own.dir = s.own.dir ∧ t.log.evSeq = s.log.evSeq + 1) ∧
  (∀ (failed rid : Nat) (e : DirEntry) (w : Watched) (p : Peer) (s : State), Up s → s.own.dir = [(rid, e)] → e.mirror = true → e.acting = false → Tbl.at s.own.acting (reqHome rid) (reqHome rid) = failed →
    Tbl.get s.adh.watched failed = some w → w.lost = true → Tbl.get s.fab.peers failed = some p → p.dead = true → ∃ t, Does (.homeTakeover failed) s t ∧
      Tbl.get t.own.acting failed = some s.node ∧ (t.entry rid).map (fun x => (x.acting, x.mirror)) = some (true, false))

/-- Fetch, deadlines, completion and the ends of queues, VIs and slots. A queue's next command is fetched as memory holds it and the head moves; a wrong sequence is read again 1 µs later; an overdue command ends with ST_DEADLINE_MISSED; a stopped job is SAVED and counted; the completion step writes the record, moves the completion tail and removes the command; a drained queue is DISABLED and a reset one ACTIVE at its new indices; a quiescent VI is UNASSIGNED; a slot's load makes it READY and its last use EMPTY; an order stops waiting for drained regions. The model's own choices in it are those of log 14, 33, 49. -/
def Obligations.QueuesAndCommands : Prop :=
  (∀ (vi cls q : Nat) (s : State), Up s → (s.vi vi).st = .active → (s.queue (vi, cls, q)).st = .active → (s.queue (vi, cls, q)).reread = none →
    (s.queue (vi, cls, q)).cmdHead ≠ (s.queue (vi, cls, q)).cmdTail → sub32 (s.queue (vi, cls, q)).cmdHead (s.queue (vi, cls, q)).cplHead < 2 ^ (s.queue (vi, cls, q)).ringLog2 →
    s.covers vi ((s.queue (vi, cls, q)).ringBase + (s.queue (vi, cls, q)).cmdHead % 2 ^ (s.queue (vi, cls, q)).ringLog2 * 64) 64 (rRing + rRd) = true →
    s.readFault ((s.queue (vi, cls, q)).ringBase + (s.queue (vi, cls, q)).cmdHead % 2 ^ (s.queue (vi, cls, q)).ringLog2 * 64) 64 = none →
    fld (s.rdWords ((s.queue (vi, cls, q)).ringBase + (s.queue (vi, cls, q)).cmdHead % 2 ^ (s.queue (vi, cls, q)).ringLog2 * 64) 8) 0 63 48 = (s.queue (vi, cls, q)).cmdHead % 2 ^ 16 →
    ∃ t c, Does (.commandFetch vi cls q) s t ∧ t.work.cmds = s.work.cmds ++ [(s.work.nextCid, c)] ∧ c.index = (s.queue (vi, cls, q)).cmdHead ∧
      c.words = s.rdWords ((s.queue (vi, cls, q)).ringBase + (s.queue (vi, cls, q)).cmdHead % 2 ^ (s.queue (vi, cls, q)).ringLog2 * 64) 8 ∧
      (t.queue (vi, cls, q)).cmdHead = ((s.queue (vi, cls, q)).cmdHead + 1) % 2 ^ 32 ∧ t.mem = s.mem) ∧
  (∀ (vi cls q : Nat) (r : Reread) (s : State), Up s → (s.vi vi).st = .active → (s.queue (vi, cls, q)).st = .active → (s.queue (vi, cls, q)).reread = some r → r.due ≤ s.now → r.tries < 2 →
    s.covers vi ((s.queue (vi, cls, q)).ringBase + r.index % 2 ^ (s.queue (vi, cls, q)).ringLog2 * 64) 64 (rRing + rRd) = true →
    s.readFault ((s.queue (vi, cls, q)).ringBase + r.index % 2 ^ (s.queue (vi, cls, q)).ringLog2 * 64) 64 = none →
    fld (s.rdWords ((s.queue (vi, cls, q)).ringBase + r.index % 2 ^ (s.queue (vi, cls, q)).ringLog2 * 64) 8) 0 63 48 ≠ r.index % 2 ^ 16 →
    ∃ t, Does (.seqRereadTimer vi cls q) s t ∧ (t.queue (vi, cls, q)).reread = some { r with tries := r.tries + 1, due := s.now + 1000 } ∧ t.work.cmds = s.work.cmds ∧ t.mem = s.mem) ∧
  (∀ (cid : Nat) (c : Cmd) (s : State), Up s → Tbl.get s.work.cmds cid = some c → c.st = .waiting → c.dispT = none → c.outcome = none → c.fmt = 2 → fld c.words 0 23 0 ≠ 0 →
    c.acceptT + 1000 * fld c.words 0 23 0 ≤ s.now → ∃ t, Does (.deadlineExpiry cid) s t ∧ t.ended cid .deadlineMissed 0 ∧ t.mem = s.mem) ∧
  (∀ (cid : Nat) (c : Cmd) (s : State), Up s → Tbl.get s.work.cmds cid = some c → c.st = .stopping → c.outcome = none →
    ∃ t, Does (.jobSaveDone cid) s t ∧ (Tbl.get t.work.cmds cid).map (fun d => (d.st, d.preempts, d.since)) = some (.saved, min 255 (c.preempts + 1), s.now) ∧ t.mem = s.mem) ∧
  (∀ (cid result : Nat) (st : Status) (c : Cmd) (s : State), Up s → Tbl.get s.work.cmds cid = some c → c.outcome = some (st, result) → (s.queue (c.vi, c.cls, c.q)).st = .active →
    (c.effects.foldl State.applyPost s).covers c.vi ((s.queue (c.vi, c.cls, c.q)).cplBase + (s.queue (c.vi, c.cls, c.q)).cplTail % 2 ^ (s.queue (c.vi, c.cls, c.q)).ringLog2 * 32) 32 (rRing + rWr) = true →
    ∃ t, Does (.jobCompletionStep cid) s t ∧ Tbl.get t.work.cmds cid = none ∧ (t.queue (c.vi, c.cls, c.q)).cplTail = ((s.queue (c.vi, c.cls, c.q)).cplTail + 1) % 2 ^ 32) ∧
  (∀ (cid result : Nat) (st : Status) (c : Cmd) (s : State), Up s → Tbl.get s.work.cmds cid = some c → c.outcome = some (st, result) → (s.queue (c.vi, c.cls, c.q)).st = .active →
    c.effects = [] → c.samplers = [] → s.kv.toFree = [] → fld c.words 0 29 29 = 0 →
    s.covers c.vi ((s.queue (c.vi, c.cls, c.q)).cplBase + (s.queue (c.vi, c.cls, c.q)).cplTail % 2 ^ (s.queue (c.vi, c.cls, c.q)).ringLog2 * 32) 32 (rRing + rWr) = true →
    ∃ t, Does (.jobCompletionStep cid) s t ∧ t.mem = memPuts s.mem ((s.queue (c.vi, c.cls, c.q)).cplBase + (s.queue (c.vi, c.cls, c.q)).cplTail % 2 ^ (s.queue (c.vi, c.cls, c.q)).ringLog2 * 32)
      (bytesOfWords (cplRecord c st result s.now (s.queue (c.vi, c.cls, c.q)).cplTail (2 ^ (s.queue (c.vi, c.cls, c.q)).ringLog2)))) ∧
  (∀ (vi cls q : Nat) (s : State), Up s → (s.queue (vi, cls, q)).st = .draining → s.outstanding (vi, cls, q) = 0 → ∃ t, Does (.queueDrainDone vi cls q) s t ∧ (t.queue (vi, cls, q)).st = .disabled) ∧
  (∀ (vi cls q cmd cpl : Nat) (r : OpRef) (s : State), Up s → (s.queue (vi, cls, q)).st = .error → (s.queue (vi, cls, q)).resetOp = some (cmd, cpl, r) → s.outstanding (vi, cls, q) = 0 →
    ∃ t, Does (.queueResetApply vi cls q) s t ∧ (t.queue (vi, cls, q)).st = .active ∧ (t.queue (vi, cls, q)).cmdHead = cmd % 2 ^ 32 ∧ (t.queue (vi, cls, q)).cmdTail = cmd % 2 ^ 32 ∧
      (t.queue (vi, cls, q)).cplTail = cpl % 2 ^ 32 ∧ (t.queue (vi, cls, q)).cplHead = cpl % 2 ^ 32) ∧
  (∀ (vi : Nat) (s : State), Up s → (s.vi vi).st = .quiescing → s.viBusy vi = false → ∃ t, Does (.viQuiesceDone vi) s t ∧ (t.vi vi).st = .unassigned) ∧
  (∀ (slot : Nat) (s : State), Up s → (s.ctx slot).st = .unloading → s.work.cmds.any (fun c => c.2.slot == some slot) = false → ∃ t, Does (.contextSlotEmpty slot) s t ∧
    (t.ctx slot).st = .empty ∧ t.mem = s.mem ∧ t.kv = s.kv) ∧
  (∀ (slot : Nat) (s : State), Up s → (s.ctx slot).st = .loading → ∃ t, Does (.contextLoadDone slot) s t ∧ (t.ctx slot).st = .ready ∧ (t.ctx slot).f = (s.ctx slot).f) ∧
  (∀ (vi : Nat) (o : OrderDrain) (s : State), Up s → s.adh.order = some o → s.work.cmds.any (fun c => c.2.vi == vi) = false → ∃ t o', Does (.regionDrainDone vi) s t ∧
    t.adh.order = some o' ∧ o'.regions = o.regions.filter (fun r => r.1 != vi) ∧ t = { s with adh := t.adh })

/-- Schedulers, pre-emption, engine faults and the epoch boundary. The command a scheduler picks runs on its instance, or ends with the check it fails; the highest-level command past the threshold stops the lowest-priority job; a fault puts an instance in its self-test, whose end returns or retires it; at an epoch boundary every arbiter's pointer is (epoch + node + arbiter) mod inputs and the phase groups' use starts again. The model's own choices in it are those of log 6, 49. -/
def Obligations.EnginesAndSchedulers : Prop :=
  (∀ (cls i cid : Nat) (c : Cmd) (d : Tbl Nat Nat) (s : State), Up s → cls = 1 ∨ cls = 3 ∨ cls = 5 ∨ cls = 6 → s.noEngine cls = false → s.instUp cls i = true → s.slotFree cls i = true →
    s.pickCmd cls i = some (cid, c, d) → c.st = .waiting → s.refusal c = none → ∃ t, Does (.schedulerDispatch cls i) s t ∧
      (Tbl.get t.work.cmds cid).map (fun x => (x.st, x.inst)) = some (.running, i) ∧ t.mem = s.mem) ∧
  (∀ (cls i cid : Nat) (c : Cmd) (d : Tbl Nat Nat) (b : Bad) (s : State), Up s → s.instUp cls i = true → s.slotFree cls i = true →
    s.pickCmd cls i = some (cid, c, d) → c.st = .waiting → s.refusal c = some b → ∃ t, Does (.schedulerDispatch cls i) s t ∧ t.ended cid b.1 0) ∧
  (∀ (cls i n v : Nat) (c d : Cmd) (s : State), Up s → saveRecords cls ≠ 0 → s.instUp cls i = true → s.slotFree cls i = false → (s.inst cls i).waiting = none →
    (s.work.cmds.filter (fun e => e.2.cls == cls && e.2.inst == i && e.2.st == .saved)).length < saveRecords cls →
    s.work.cmds.filter (fun e => e.2.cls == cls && e.2.st != .running && s.dispatchable e.2 && s.isFor e.2 i && decide (e.2.since + (s.inst cls i).threshold < s.now)) = [(n, c)] →
    (s.residents cls i).all (fun j => decide (s.levelOf c < s.levelOf j.2)) = true →
    maxBy? (fun (j : Nat × Cmd) => s.levelOf j.2 * 2 ^ 64 + j.2.since) ((s.residents cls i).filter (fun j => j.2.st == .running)) = some (v, d) →
    ∃ t, Does (.preemptionThreshold cls i) s t ∧ (Tbl.get t.work.cmds v).map (·.st) = some .stopping ∧ (t.inst cls i).waiting = some n ∧ t.mem = s.mem) ∧
  (∀ (cls i : Nat) (s : State), Up s → faultable cls i = true → (s.inst cls i).st = .service → s.isFenced (instDie cls i) = false → ∃ t, Does (.engineFault cls i) s t ∧
    (t.inst cls i).st = .selfTest ∧ (t.inst cls i).wiped = (s.wipable cls i).length) ∧
  (∀ (cls i badTiles : Nat) (pass : Bool) (s : State), Up s → cls ≠ 2 → (s.inst cls i).st = .selfTest → ∃ t, Does (.engineSelfTestDone cls i pass badTiles) s t ∧
    (t.inst cls i).st = (if pass then .service else .retired)) ∧
  (∀ (i badTiles : Nat) (pass : Bool) (s : State), Up s → (s.inst 2 i).st = .selfTest → ∃ t, Does (.engineSelfTestDone 2 i pass badTiles) s t ∧
    Tbl.get t.pkg.tiles i = some (Tbl.at s.pkg.tiles i 64 - (badTiles - min (Tbl.at s.pkg.tileSpares i 4) badTiles)) ∧
    (t.inst 2 i).st = (if pass = true ∧ 48 ≤ Tbl.at s.pkg.tiles i 64 - (badTiles - min (Tbl.at s.pkg.tileSpares i 4) badTiles) then .service else .retired)) ∧
  (∀ s : State, Up s → s.now % 1048576 = 0 → ∃ t, Does .fabricEpochBoundary s t ∧ (∀ a n, t.ptr a n = (bits s.now 35 20 + s.node + a) % max 1 n) ∧
    (∀ i, i < 16 → (t.inst 1 i).usedG = 0 ∧ (t.inst 1 i).usedP = 0) ∧ t.mem = s.mem ∧ t.kv = s.kv)

/-- The ledger's audit and the performance counters. An audit that finds nothing broken changes only its own time; a broken request count raises one event and is remembered; a peer's counts that did not fall are kept beside the node's own, and counts that fell open the peer's book again with the node's own at 0; every 1 ms counts leave; ADH_COUNTER_CONFIG zeroes and selects; ADH_COUNTER_SNAPSHOT schedules a capture under the next number; a capture whose time is reached is taken; ADH_SAMPLE_CONFIG sets the ring. The model's own choices in it are those of log 6, 36, 37, 38. -/
def Obligations.LedgerAndCounters : Prop :=
  (∀ (counts : List (Nat × Nat × Nat)) (agree : Bool) (s : State), Up s → s.led.auditAt < s.now / 1000000 * 1000000 → s.brokenBooks counts = [] →
    s.led.transit.all (fun e => !s.transitBroken e.2 false) = true → Does (.ledgerAudit counts agree) s { s with led := { s.led with auditAt := s.now / 1000000 * 1000000 } }) ∧
  (∀ (counts : List (Nat × Nat × Nat)) (agree : Bool) (scope e f : Nat) (s : State), Up s → s.led.auditAt < s.now / 1000000 * 1000000 → s.brokenBooks counts = [(7, scope, e, f)] →
    s.led.transit.all (fun e => !s.transitBroken e.2 false) = true → ∃ t, Does (.ledgerAudit counts agree) s t ∧ t.log.evSeq = s.log.evSeq + 1 ∧ Tbl.get t.led.breaks (7, scope) = some s.now) ∧
  (∀ (h : MsgHdr) (q a b : Nat) (s : State), Up s → h.ver = 1 → 1 ≤ q → q ≤ 7 → (Tbl.at s.led.transit (h.src, q) {}).peerSent ≤ a → (Tbl.at s.led.transit (h.src, q) {}).peerReceived ≤ b →
    ∃ t, Does (.ledgerSync h [(q, a, b)]) s t ∧ (Tbl.at t.led.transit (h.src, q) {}).peerSent = a ∧
    (Tbl.at t.led.transit (h.src, q) {}).peerReceived = b ∧ (Tbl.at t.led.transit (h.src, q) {}).sent = (Tbl.at s.led.transit (h.src, q) {}).sent ∧
    (Tbl.at t.led.transit (h.src, q) {}).received = (Tbl.at s.led.transit (h.src, q) {}).received) ∧
  (∀ (h : MsgHdr) (q a b : Nat) (s : State), Up s → h.ver = 1 → 1 ≤ q → q ≤ 7 → a < (Tbl.at s.led.transit (h.src, q) {}).peerSent ∨ b < (Tbl.at s.led.transit (h.src, q) {}).peerReceived →
    ∃ t, Does (.ledgerSync h [(q, a, b)]) s t ∧ (Tbl.at t.led.transit (h.src, q) {}).peerSent = a ∧ (Tbl.at t.led.transit (h.src, q) {}).peerReceived = b ∧
    (Tbl.at t.led.transit (h.src, q) {}).sent = 0 ∧ (Tbl.at t.led.transit (h.src, q) {}).received = 0) ∧
  (∀ s : State, Up s → s.led.syncAt + 1000000 ≤ s.now → ∃ t, Does .ledgerSyncTimer s t ∧ t.led.syncAt = s.now ∧
    t.log.msgs.length = s.log.msgs.length + (s.led.transit.map (fun e => e.1.1)).dedup.length ∧ t.mem = s.mem) ∧
  (∀ (c : Caller) (n ev mask : Nat) (s : State), AskedBox s 2305 .user c → n ≤ 31 → mask ≤ 65535 → eventListed ev = some true → ∃ t, Does (.adhCounterConfig c none [(n, ev, mask)]) s t ∧
    (Tbl.at (t.vi c.vi).perf n {}).event = ev ∧ (Tbl.at (t.vi c.vi).perf n {}).queueMask = mask ∧ (Tbl.at (t.vi c.vi).perf n {}).count = 0 ∧ t.mem = s.mem) ∧
  (∀ (c : Caller) (u n ev : Nat) (s : State), Asked s 2305 .userOper c → s.isOperator c = true → s.allUnits.contains u = true → n ≤ 7 → (eventListed ev).isSome = true → ev / 256 = u / 256 →
    ∃ t, Does (.adhCounterConfig c (some u) [(n, ev, 256)]) s t ∧ (t.unit u).selectSeq = ((s.unit u).selectSeq + 1) % 2 ^ 32 ∧ t.work = s.work ∧ t.mem = s.mem) ∧
  (∀ (c : Caller) (s : State), AskedBox s 2306 .user c → (s.perf.captures.filter (fun k => !k.units && k.vi == c.vi)).length < 4 → ∃ t, Does (.adhCounterSnapshot c false 0 [] 0 0) s t ∧
    t.perf.captures.length = s.perf.captures.length + 1 ∧ (t.vi c.vi).snapIssued = ((s.vi c.vi).snapIssued + 1) % 2 ^ 32 ∧ t.replied c .ok (((s.vi c.vi).snapIssued + 1) % 2 ^ 32) []) ∧
  (∀ (k0 : Capture) (s : State), Up s → minBy? (fun (k : Capture) => k.time) s.perf.captures = some k0 → k0.time ≤ s.now → ∃ t, Does .counterCapture s t ∧
    t.perf.captures = s.perf.captures.filter (fun k => k.time != k0.time)) ∧
  (∀ (c : Caller) (base log2 tail cls n : Nat) (s : State), AskedBox s 2307 .user c → 6 ≤ log2 → log2 ≤ 20 → base % 64 = 0 → tail % 64 = 0 → 1 ≤ cls → cls ≤ 6 → n ≤ 65536 →
    s.covers c.vi base (2 ^ log2 * 64) rWr = true → s.covers c.vi tail 128 (rRd + rWr) = true → ∃ t, Does (.adhSampleConfig c base log2 tail [(cls, n)] false) s t ∧
      (t.vi c.vi).sampling.ring = some { base := base, log2 := log2, tail := tail, written := 0 } ∧ (t.vi c.vi).sampling.intervals = [(cls, n)] ∧ t.mem = s.mem)

/-- Publication, switch, retirement and the codebook caches. A directory entry written reads back and no byte outside its line changes; a member that verifies a published set object fills the slot and answers ST_OK, else it raises EV_CODEBOOK_CHECK and answers ST_CODEBOOK_CHECK; a failed copy is published again up to three times; the last ST_OK sets the switch time; SWITCH schedules the version; at the switch time it is CURRENT; reports are kept, and a version all members reported at none is retired; RETIRE frees its slot; a fill that verifies is cached; a command that waited 1 ms ends with ST_CODEBOOK_CHECK. The model's own choices in it are those of log 12, 15. -/
def Obligations.CodebookVersions : Prop :=
  (∀ (ctx e : Nat) (x : CbSet) (s : State), Memory.wf s.mem → x.fits → (s.setCbSet ctx e x).cbSet ctx e = x ∧ sameBut s.mem (s.setCbSet ctx e x).mem ((s.ctx ctx).f.codebookDir + 64 + e * 64) 64) ∧
  (∀ (h : MsgHdr) (e slot ver addr crc comp ctx : Nat) (s : State), Up s → h.ver = 1 → s.ctxFor comp = some ctx → ∃ t, Does (.publish h e slot ver addr crc comp) s t ∧
    (if ((((s.cbSet ctx e).slot slot).2.1 = 0 ∨ ((s.cbSet ctx e).slot slot).1 = ver) ∧ addr = (s.ctx ctx).f.objAddr e slot ∧ objOk (s.setObj ctx e slot) = true ∧
        word (wordsOf 8 (s.setObj ctx e slot)) 7 = crc ∧ fld (wordsOf 8 (s.setObj ctx e slot)) 0 63 48 = ver)
      then t = (s.fillSlot ctx e slot ver (if ((s.cbSet ctx e).slot slot).2.1 = 0 then 2 else ((s.cbSet ctx e).slot slot).2.1) (s.setObj ctx e slot)).tell
        { dst := h.src, tc := 7, code := 50, mapEpoch := h.mapEpoch, fields := [e, slot, ver, Status.ok.code] }
      else t.log.evSeq = s.log.evSeq + 1 ∧ t.sent h.src 50 0 ∧ t.cb = s.cb ∧ t.kv = s.kv)) ∧
  (∀ (h : MsgHdr) (e slot ver st ctx n : Nat) (p : Publication) (s : State), Up s → h.ver = 1 → s.setCtx s.node e ver = some ctx →
    Tbl.get s.cb.pubs ((s.ctx ctx).f.composition, e, ver) = some p → p.slot = slot → Tbl.get p.awaited h.src = some n → n < 3 → st ≠ Status.ok.code → st ≠ Status.targetDead.code →
    ∃ t, Does (.publishAnswer h e slot ver st) s t ∧ Tbl.get t.cb.pubs ((s.ctx ctx).f.composition, e, ver) = some { p with awaited := Tbl.set p.awaited h.src (n + 1) } ∧ t.sent h.src 49 0) ∧
  (∀ (h : MsgHdr) (e slot ver ctx n : Nat) (p : Publication) (s : State), Up s → h.ver = 1 → s.setCtx s.node e ver = some ctx →
    Tbl.get s.cb.pubs ((s.ctx ctx).f.composition, e, ver) = some p → p.slot = slot → p.awaited = [(h.src, n)] → p.switchAt = none →
    ∃ t, Does (.publishAnswer h e slot ver Status.ok.code) s t ∧ (Tbl.get t.cb.pubs ((s.ctx ctx).f.composition, e, ver)).map (fun q => (q.awaited, q.ok, q.switchAt)) =
      some ([], p.ok ++ [h.src], some (s.now + (s.calib (s.ctx ctx).f.composition).switchLead))) ∧
  (∀ (h : MsgHdr) (e slot ver time ctx : Nat) (s : State), Up s → h.ver = 1 → s.setCtx h.src e ver = some ctx → (s.cbSet ctx e).slotOf ver = some slot → ((s.cbSet ctx e).slot slot).2.1 ≠ 3 →
    Does (.cbSwitch h e slot ver time) s (s.setCbSet ctx e { s.cbSet ctx e with pend := true, nextSlot := slot, switchAt := time })) ∧
  (∀ (ctx e : Nat) (s : State), Up s → (s.ctx ctx).st = .ready → (s.cbSet ctx e).pend = true → (s.cbSet ctx e).switchAt ≤ s.now →
    s.work.vis.all (fun v => !v.2.subscribed.contains Ev.codebookSwitch.code) = true → ∃ t x, Does (.switchTime ctx e) s t ∧
      x.cur = ((s.cbSet ctx e).slot (s.cbSet ctx e).nextSlot).1 ∧ x.curSlot = (s.cbSet ctx e).nextSlot ∧ x.pend = false ∧ x.lastDrift = 0 ∧
      x.slot (s.cbSet ctx e).nextSlot = (((s.cbSet ctx e).slot (s.cbSet ctx e).nextSlot).1, 3, ((s.cbSet ctx e).slot (s.cbSet ctx e).nextSlot).2.2) ∧
      ((s.cbSet ctx e).cur ≠ 0 → (s.cbSet ctx e).curSlot ≠ (s.cbSet ctx e).nextSlot → (x.slot (s.cbSet ctx e).curSlot).2.1 = 4) ∧
      t.mem = ((s.setCbSet ctx e x).openWindow ctx e x.curSlot).mem ∧ (Tbl.get t.cb.molts (ctx, e)).map (·.ver) = some x.cur ∧ t.log.evSeq = s.log.evSeq + 1) ∧
  (∀ (h : MsgHdr) (e ver n m ctx : Nat) (s : State), Up s → h.ver = 1 → s.setCtx s.node e ver = some ctx → 0 < n + m →
    (s.comp (s.ctx ctx).f.composition).cur.members.contains h.src = true → s.led.transit.all (fun x => x.2.fault == 0) = true → ∃ t, Does (.refReport h [(e, ver, n, m)]) s t ∧
      t = { s with cb := { s.cb with reports := Tbl.set s.cb.reports ((s.ctx ctx).f.composition, e, ver, h.src) (n + m) } }) ∧
  (∀ (h : MsgHdr) (e ver ctx i : Nat) (s : State), Up s → h.ver = 1 → s.setCtx s.node e ver = some ctx → (s.cbSet ctx e).slotOf ver = some i → ((s.cbSet ctx e).slot i).2.1 = 4 →
    (s.comp (s.ctx ctx).f.composition).cur.members.all (fun k => k == h.src || Tbl.get s.cb.reports ((s.ctx ctx).f.composition, e, ver, k) == some 0) = true →
    ∃ t, Does (.refReport h [(e, ver, 0, 0)]) s t ∧ Tbl.get t.cb.live ((s.ctx ctx).f.composition, e) = some ((s.liveVers (s.ctx ctx).f.composition e).filter (fun v => v ≠ ver)) ∧
      t.log.evSeq = s.log.evSeq + 1 ∧ Tbl.get t.cb.pubs ((s.ctx ctx).f.composition, e, ver) = none) ∧
  (∀ (h : MsgHdr) (e ver ctx i : Nat) (s : State), Up s → h.ver = 1 → s.setCtx h.src e ver = some ctx → (s.cbSet ctx e).cur ≠ ver → (s.cbSet ctx e).slotOf ver = some i →
    ∃ t, Does (.retire h e ver) s t ∧ t.mem = (s.setCbSet ctx e ((s.cbSet ctx e).setSlot i (0, 0, 0))).mem ∧
      t.cb = { s.cb with cache := s.cb.cache.filter (fun c => c.1.2 != (ctx, e, ver)) } ∧ t.work = s.work ∧ t.log = s.log) ∧
  (∀ (die ctx e ver slot src : Nat) (s : State), Up s → (s.cbSet ctx e).slotOf ver = some slot → (s.ctx ctx).st = .ready → die < 8 → s.isFenced (dieMC die) = false →
    Tbl.has s.cb.cache (die, ctx, e, ver) = false → s.cacheUse die + cachedBytes (s.ctx ctx).f.headDim e ≤ 26 * 2 ^ 20 → ∃ t, Does (.codebookFill die ctx e ver none src) s t ∧
      (if objOk (s.setObj ctx e slot) = true then Tbl.get t.cb.cache (die, ctx, e, ver) = some { obj := s.setObj ctx e slot, usedAt := s.now } ∧ t.mem = s.mem ∧ t.log = s.log
        else t.cb.cache = s.cb.cache ∧ t.log.evSeq = s.log.evSeq + 1 ∧ Tbl.has t.cb.fillFails (die, ctx, e, ver) = true)) ∧
  (∀ (cid : Nat) (c : Cmd) (s : State), Up s → Tbl.get s.work.cmds cid = some c → c.st = .waiting → c.outcome = none →
    s.cb.fillFails.any (fun f => (s.cmdVers c).contains f.1.2 && decide (f.2 + 1000000 ≤ s.now)) = true → ∃ t, Does (.codebookFillTimeout cid) s t ∧ t.ended cid .codebookCheck 0 ∧
      t.mem = s.mem ∧ t.cb = s.cb)

/-- Drift windows, spawns, molt and the succession. A window that is over closes for every set of its context slot; a spawn with too few rows raises EV_SPAWN_DONE and starts none, and with enough it holds its rows; a pass counts and keeps the samples; a spawn whose loops all stopped ends, and one without the gain only raises its event; molt takes the next block within its rate: a busy one waits, and what recoding it comes to is applied; its retry time passes; the successor of a lost calibration node takes the duty and drops the spawns. The model's own choices in it are those of log 3, 15, 44. -/
def Obligations.LiveCalibration : Prop :=
  (∀ (ctx : Nat) (s : State), Up s → (s.ctx ctx).st = .ready → Tbl.at s.cb.windowAt ctx 0 + (s.calib (s.ctx ctx).f.composition).window ≤ s.now →
    ∃ t, Does (.driftWindowClose ctx) s t ∧ Tbl.get t.cb.windowAt ctx = some s.now ∧ t.kv = s.kv ∧ t.work.cmds = s.work.cmds) ∧
  (∀ (comp e ctx : Nat) (members : List (Nat × Nat × List (List Byte))) (s : State), Up s → s.ctxFor comp = some ctx → s.calibNode comp = s.node → (s.calib comp).autoSpawn = true → e < (s.ctx ctx).f.entries →
    Tbl.has s.cb.spawns (comp, e) = false → (s.liveVers comp e).length < 4 → ∃ t, Does (.spawnStart comp e members) s t ∧
      (if (s.gathered ctx comp e members).length < 4096 then t.log.evSeq = s.log.evSeq + 1 ∧ t.cb = s.cb
        else (Tbl.get t.cb.spawns (comp, e)).map (fun x => (x.samples, x.passes, x.stopped.length)) = some (s.gathered ctx comp e members, 0, (s.ctx ctx).f.headDim / 8) ∧ t.log = s.log)) ∧
  (∀ (comp e : Nat) (sp : Spawn) (s : State), Up s → Tbl.get s.cb.spawns (comp, e) = some sp → sp.stopped.all id = false → ∃ t, Does (.spawnPassDone comp e) s t ∧
    (Tbl.get t.cb.spawns (comp, e)).map (fun x => (x.samples, x.passes, x.stopped.length)) = some (sp.samples, sp.passes + 1, sp.stopped.length) ∧ t.mem = s.mem ∧ t.log = s.log) ∧
  (∀ (comp e ctx : Nat) (sp : Spawn) (s : State), Up s → Tbl.get s.cb.spawns (comp, e) = some sp → s.ctxFor comp = some ctx → sp.stopped.all id = true →
    ∃ t, Does (.spawnEnd comp e) s t ∧ Tbl.get t.cb.spawns (comp, e) = none) ∧
  (∀ (comp e ctx : Nat) (sp : Spawn) (s : State), Up s → Tbl.get s.cb.spawns (comp, e) = some sp → s.ctxFor comp = some ctx → sp.stopped.all id = true → (s.cbSet ctx e).cur ≠ 0 →
    dyLt ((decF32 (relDist ((s.ctx ctx).f.headDim / 8) sp.samples sp.cb)).getD dyZero) (dyMul ⟨65536 - (s.calib comp).gainMin, -16⟩
      ((decF32 (relDist ((s.ctx ctx).f.headDim / 8) sp.samples ((s.setObj ctx e (s.cbSet ctx e).curSlot).drop 64))).getD dyZero)) = false →
    ∃ t, Does (.spawnEnd comp e) s t ∧ t.cb = { s.cb with spawns := Tbl.del s.cb.spawns (comp, e) } ∧ t.log.evSeq = s.log.evSeq + 1) ∧
  (∀ (da want : Nat) (full : Bool) (s : State), Up s → s.cb.molts = [] → s.shardOf da = none →
    s.moltOrder.findSome? (fun d => (s.moltNeed d).bind (fun n => if (s.moltSkip d n.2).isNone then some (d, n) else none)) = some (da, want, full) →
    ((s.blockComp da).map (fun c => (s.calib c).moltRate)).getD 0 ≠ 0 →
    s.cb.moltAt + ceilDiv 1000000000 (((s.blockComp da).map (fun c => (s.calib c).moltRate)).getD 0) ≤ s.now → ∃ t, Does .moltPace s t ∧ t.cb.moltAt = s.now ∧
      (match ({ s with cb := { s.cb with moltAt := s.now } } : State).recodeOne 0 da want true false with
        | .go _ (p :: ps) => t.mem = ((p :: ps).foldl State.applyPost ({ s with cb := { s.cb with moltAt := s.now } } : State)).mem
        | .bad .retryBlockBusy => Tbl.get t.cb.moltRetry da = some (s.now + 1000000) ∧ t.mem = s.mem
        | .bad .planeCheck => t.log.evSeq = s.log.evSeq + 1
        | .bad .descCheck => t.log.evSeq = s.log.evSeq + 1
        | .bad _ => Tbl.get t.cb.moltRetry da = some (s.now + 1000000) ∧ t.mem = s.mem
        | .go _ [] => Tbl.get t.cb.moltRetry da = some (s.now + 1000000) ∧ t.mem = s.mem
        | .same => t.mem = s.mem)) ∧
  (∀ (da at_ : Nat) (s : State), Up s → Tbl.get s.cb.moltRetry da = some at_ → at_ ≤ s.now → Does (.moltRetryTimer da) s { s with cb := { s.cb with moltRetry := Tbl.del s.cb.moltRetry da } }) ∧
  (∀ (comp lost ctx : Nat) (dirs : List (Nat × Nat × List Nat)) (s : State), Up s → s.ctxFor comp = some ctx → s.calibNode comp = lost → lost ≠ s.node →
    nextAbove (s.comp comp).cur.cache lost = some s.node → ∃ t, Does (.calibrationSuccession comp lost dirs) s t ∧ (t.calib comp).node = some s.node ∧
      t.cb.spawns = s.cb.spawns.filter (fun x => x.1.1 != comp) ∧ t.kv = s.kv)

/-- Codec and Mover commands over KV blocks, and pulls. ENCODE_KV of one BF16 row copies K and V into its row of the slot and no other byte, and ends with ST_OK and one row; a row that is not finite ends it with ST_ENCODE_INPUT and writes nothing; its claims that fail end it with their status; RECODE_BLOCKS whose blocks are ready ends with the number changed and keeps its changes for its completion; MOVE_BLOCKS ends with the blocks copied; PULL_BLOCKS with nothing to pull ends at once and otherwise starts a pull with its slot and deadline; a pulled block that verifies is switched to and one that is late goes to its next copy or fails. The model's own choices in it are those of log 4, 16, 46. -/
def Obligations.BlockCommands : Prop :=
  (∀ (cid : Nat) (c : Cmd) (r : Req) (s : State), Up s → Memory.wf s.mem → s.running cid 3 1 = some c → s.req (fld c.op 1 47 0) = some r → fld c.op 4 31 19 = 1 →
    s.readFault (word c.op 2) (2 * (s.ctx r.ctxSlot).f.headDim) = none → s.readFault (word c.op 3) (2 * (s.ctx r.ctxSlot).f.headDim) = none →
    (bf16s (s.ctx r.ctxSlot).f.headDim (s.rd (word c.op 2) (2 * (s.ctx r.ctxSlot).f.headDim))).isSome = true →
    (bf16s (s.ctx r.ctxSlot).f.headDim (s.rd (word c.op 3) (2 * (s.ctx r.ctxSlot).f.headDim))).isSome = true →
    s.mapEntry r (fld c.op 5 63 54) (fld c.op 5 53 46) (fld c.op 4 63 32 / 64) ≠ 0 →
    (s.desc (s.mapEntry r (fld c.op 5 63 54) (fld c.op 5 53 46) (fld c.op 4 63 32 / 64))).repr = 0 → ∃ t, Does (.encodeKv cid) s t ∧ t.ended cid .ok (2 ^ 32) ∧
      ∀ a, t.rd1 a = (let base := (s.desc (s.mapEntry r (fld c.op 5 63 54) (fld c.op 5 53 46) (fld c.op 4 63 32 / 64))).slot + fld c.op 4 63 32 % 64 * 2 * (s.ctx r.ctxSlot).f.headDim;
        if base ≤ a ∧ a < base + 2 * (s.ctx r.ctxSlot).f.headDim then s.rd1 (word c.op 2 + (a - base))
        else if base + 128 * (s.ctx r.ctxSlot).f.headDim ≤ a ∧ a < base + 130 * (s.ctx r.ctxSlot).f.headDim then s.rd1 (word c.op 3 + (a - (base + 128 * (s.ctx r.ctxSlot).f.headDim)))
        else s.rd1 a)) ∧
  (∀ (cid : Nat) (c : Cmd) (r : Req) (s : State), Up s → s.running cid 3 1 = some c → s.req (fld c.op 1 47 0) = some r →
    s.readFault (word c.op 2) (fld c.op 4 31 19 * 2 * (s.ctx r.ctxSlot).f.headDim) = none → s.readFault (word c.op 3) (fld c.op 4 31 19 * 2 * (s.ctx r.ctxSlot).f.headDim) = none →
    ((bf16s (fld c.op 4 31 19 * (s.ctx r.ctxSlot).f.headDim) (s.rd (word c.op 2) (fld c.op 4 31 19 * 2 * (s.ctx r.ctxSlot).f.headDim))).isSome &&
      (bf16s (fld c.op 4 31 19 * (s.ctx r.ctxSlot).f.headDim) (s.rd (word c.op 3) (fld c.op 4 31 19 * 2 * (s.ctx r.ctxSlot).f.headDim))).isSome) = false →
    Does (.encodeKv cid) s (s.finish cid .encodeInput 0)) ∧
  (∀ (cid want kv vv : Nat) (coded : Bool) (c : Cmd) (r : Req) (s : State), Up s → s.running cid 3 1 = some c → s.req (fld c.op 1 47 0) = some r →
    s.readFault (word c.op 2) (fld c.op 4 31 19 * 2 * (s.ctx r.ctxSlot).f.headDim) = none → s.readFault (word c.op 3) (fld c.op 4 31 19 * 2 * (s.ctx r.ctxSlot).f.headDim) = none →
    (bf16s (fld c.op 4 31 19 * (s.ctx r.ctxSlot).f.headDim) (s.rd (word c.op 2) (fld c.op 4 31 19 * 2 * (s.ctx r.ctxSlot).f.headDim))).isSome = true →
    (bf16s (fld c.op 4 31 19 * (s.ctx r.ctxSlot).f.headDim) (s.rd (word c.op 3) (fld c.op 4 31 19 * 2 * (s.ctx r.ctxSlot).f.headDim))).isSome = true →
    want = (if fld c.op 4 18 17 = 0 then r.kvRepr else fld c.op 4 18 17 - 1) → kv = s.curVer r.ctxSlot ((s.ctx r.ctxSlot).f.entry (fld c.op 5 63 54) (fld c.op 5 53 46) 0) →
    vv = s.curVer r.ctxSlot ((s.ctx r.ctxSlot).f.entry (fld c.op 5 63 54) (fld c.op 5 53 46) 1) → coded = (want != 0 && kv != 0 && vv != 0) → ∃ t, Does (.encodeKv cid) s t ∧
      (match claimRuns (fld c.op 1 47 0) (fld c.op 5 63 54) (fld c.op 5 53 46) (if coded then want else 0) (if coded then kv else 0) (if coded then vv else 0) r (blockRuns (fld c.op 4 63 32) (fld c.op 4 31 19)) 0 s with
        | .error st => t = s.finish cid st 0
        | .ok (n, _) => t.ended cid .ok (2 ^ 32 * fld c.op 4 31 19 + n))) ∧
  (∀ (cid n : Nat) (st : Option Status) (posts : List Post) (conv : List Nat) (c : Cmd) (s s1 : State), Up s → s.running cid 3 2 = some c →
    s.recodeList cid c.vi (fld c.op 3 48 47) (fld c.op 3 46 46 == 1) c.conv (s.listed (word c.op 2) (fld c.op 3 63 49)) 0 none true [] [] = (n, st, true, posts, conv, s1) →
    conv.all (fun da => (s1.shardOf da).isNone) = true → ∃ t, Does (.recodeBlocks cid) s t ∧ t.ended cid (st.getD .ok) n ∧ (Tbl.get t.work.cmds cid).map (·.effects) = some posts ∧ t.mem = s1.mem) ∧
  (∀ (cid : Nat) (src : List Nat) (c : Cmd) (r : Req) (s : State), Up s → s.running cid 1 2 = some c → s.req (fld c.op 1 47 0) = some r → ∃ t, Does (.moveBlocks cid src) s t ∧
    t.ended cid ((copyBlocks (fld c.op 1 47 0) r src 0 s).2.1.getD .ok) (copyBlocks (fld c.op 1 47 0) r src 0 s).1 ∧ t.mem = (copyBlocks (fld c.op 1 47 0) r src 0 s).2.2.mem) ∧
  (∀ (cid : Nat) (c : Cmd) (r : Req) (s : State), Up s → s.running cid 1 3 = some c → s.own.pulls.any (fun p => p.2.cid == some cid) = false → s.req (fld c.op 1 47 0) = some r →
    s.toPull r (runOf (fld c.op 2 63 54) (fld c.op 2 53 44)) (runOf (fld c.op 2 43 36) (fld c.op 2 35 28)) (fld c.op 3 63 32) (fld c.op 3 31 0) = [] →
    Does (.pullBlocks cid) s (s.finish cid .ok 0)) ∧
  (∀ (cid l h b da die : Nat) (c : Cmd) (r : Req) (s : State), Up s → s.running cid 1 3 = some c → s.own.pulls.any (fun p => p.2.cid == some cid) = false → s.req (fld c.op 1 47 0) = some r →
    s.toPull r (runOf (fld c.op 2 63 54) (fld c.op 2 53 44)) (runOf (fld c.op 2 43 36) (fld c.op 2 35 28)) (fld c.op 3 63 32) (fld c.op 3 31 0) = [(l, h, b)] →
    Tbl.has s.own.pulls (fld c.op 1 47 0, l, h, b) = false → s.dieFor l h = some die → s.freeSlot 1 die (s.geom r).headDim = some da →
    s.claimFault r.ownerVi r.composition 1 (newCharge 1 0 (s.geom r).headDim) = none → ∃ t, Does (.pullBlocks cid) s t ∧
      (Tbl.get t.own.pulls (fld c.op 1 47 0, l, h, b)).map (fun p => (p.cid, p.desc, p.deadline, p.codeOnly)) =
        some (some cid, da, s.now + (if fld c.op 5 31 0 = 0 then (s.comp r.composition).pullDeadline else 1000 * fld c.op 5 31 0), fld c.op 4 61 60 == 1)) ∧
  (∀ (rid l h b : Nat) (desc : List Nat) (planes : List Byte) (objs : List (List Byte)) (p : Pull) (r : Req) (nd : Desc) (s : State), Up s → Tbl.get s.own.pulls (rid, l, h, b) = some p →
    s.req rid = some r → word desc 7 = crc64 (bytesOfWords (desc.take 7)) → (Desc.ofWords desc).layer = l → (Desc.ofWords desc).head = h → (Desc.ofWords desc).base = 64 * b →
    (Desc.ofWords desc).dim = dimCode (s.geom r).headDim → (Desc.ofWords desc).st ≠ dLost → (Desc.ofWords desc).st ≠ dConverting → (Desc.ofWords desc).epoch ≤ r.holdEpoch → (Desc.ofWords desc).repr = 0 →
    nd = { Desc.ofWords desc with slot := (s.slotAddr p.desc).getD 0, epoch := r.holdEpoch, holder := s.node, valid := (Desc.ofWords desc).committed, st := (if (Desc.ofWords desc).committed = 64 then dFull else dOpen), crcB := 0 } →
    (s.store nd.slot (planes.take (inUse 0 (s.geom r).headDim))).badPlane nd = none →
    ((((s.store nd.slot (planes.take (inUse 0 (s.geom r).headDim))).setDesc p.desc nd).setMapEntry r l h b p.desc).desc p.desc).repr = 0 → ∃ t, Does (.pullBlockArrival rid l h b desc planes objs) s t ∧
      Tbl.get t.own.pulls (rid, l, h, b) = none ∧ Tbl.get t.tier.lastRead p.desc = some s.now ∧
      t.mem = (((s.store nd.slot (planes.take (inUse 0 (s.geom r).headDim))).setDesc p.desc nd).setMapEntry r l h b p.desc).mem) ∧
  (∀ (rid l h b : Nat) (x y : Nat × Nat × Nat) (cs : List (Nat × Nat × Nat)) (p : Pull) (s : State), Up s → Tbl.get s.own.pulls (rid, l, h, b) = some p → p.deadline ≤ s.now → p.copies = x :: y :: cs →
    ∃ t, Does (.pullArriveDeadline rid l h b) s t ∧ (Tbl.get t.own.pulls (rid, l, h, b)).map (fun q => (q.copies, q.deadline, q.late)) = some (y :: cs, s.now + p.len, true) ∧
      t.sent y.1 0 rid ∧ t.mem = s.mem) ∧
  (∀ (rid l h b cid : Nat) (x : Nat × Nat × Nat) (p : Pull) (c : Cmd) (s : State), Up s → Tbl.get s.own.pulls (rid, l, h, b) = some p → p.deadline ≤ s.now → p.copies = [x] → p.cid = some cid →
    Tbl.get s.work.cmds cid = some c → ∃ t, Does (.pullArriveDeadline rid l h b) s t ∧ Tbl.get t.own.pulls (rid, l, h, b) = none ∧ Tbl.get t.kv.failed rid = some .tierLate ∧ t.ended cid .tierLate c.detailA)

/-- ATTEND, ATTEND_PARTIAL, ATTEND_MERGE and a late remote part. A job that waits for nothing ends as its local run and its rows say: an unreadable or non-finite query, a block that does not verify and a bad scale end it with their status; else it writes its rows and ends with ST_OK, ST_ATTEND_TAIL_HIGH, ST_ATTEND_NO_KEYS or ST_ATTEND_CHECK; a merge checks the forms, then the check values of its parts; a remote part past its deadline is no longer awaited; rows without a key merge to a row without a key. The model's own choices in it are those of log 4, 5, 45, 46. -/
def Obligations.AttendCommands : Prop :=
  (∀ (cid ctx : Nat) (c : Cmd) (r : Req) (e : Status × State) (s : State), Up s → s.running cid 2 1 = some c → s.req (fld c.op 1 47 0) = some r → ctx = c.slot.getD r.ctxSlot → s.pullsWaiting c = false → c.parts = [] →
    s.attendLocal c ctx (s.jobBlocks c) = .error e → Does (.attend cid []) s (s.keeping (e.2.finish cid e.1 0))) ∧
  (∀ (cid ctx : Nat) (c : Cmd) (r : Req) (s : State), Up s → s.running cid 2 1 = some c → s.req (fld c.op 1 47 0) = some r → ctx = c.slot.getD r.ctxSlot → s.pullsWaiting c = false → c.parts = [] →
    ∃ t, Does (.attend cid []) s t ∧ (match s.attendLocal c ctx (s.jobBlocks c) with
      | .error (st, _) => t.ended cid st 0
      | .ok res => if res.badScale = true ∨ res.rows.any (fun x => x.fail.isSome) = true then t.ended cid .attendCheck 0 ∧ t.log.evSeq = s.log.evSeq + 1
          else if fld c.op 5 37 37 = 0 ∧ res.rows.any (fun x => !x.any) = true then t.ended cid .attendNoKeys 0 ∧ t.mem = s.mem
          else t.ended cid (if res.rows.any (fun x => x.tailHigh (fld c.op 7 31 16)) then .attendTailHigh else .ok) (attendResult res.keys res.union res.rows) ∧
            t.mem = (s.writeRows (word c.op 3) (s.ctx ctx).f.headDim (fld c.op 5 37 37 == 0) (fld c.op 5 36 36 == 1) (fld c.op 7 31 16) (fld c.op 5 63 54) (fld c.op 5 53 46) res.rows).mem)) ∧
  (∀ (cid : Nat) (c : Cmd) (s : State), Up s → s.running cid 2 2 = some c → ∃ t, Does (.attendPartial cid) s t ∧ (match s.attendLocal c (c.slot.getD 0) (s.jobBlocks c) with
      | .error (st, _) => t.ended cid st 0
      | .ok res => if res.badScale = true ∨ res.rows.any (fun x => x.fail.isSome) = true then t.ended cid .attendCheck 0 ∧ t.log.evSeq = s.log.evSeq + 1
          else t.ended cid (if res.rows.any (fun x => x.tailHigh (fld c.op 7 31 16)) then .attendTailHigh else .ok) (attendResult res.keys res.union res.rows) ∧
            t.mem = (s.writeRows (word c.op 3) (s.ctx (c.slot.getD 0)).f.headDim false false (fld c.op 7 31 16) (fld c.op 5 63 54) (fld c.op 5 53 46) res.rows).mem)) ∧
  (∀ (cid d n : Nat) (c : Cmd) (s : State), Up s → s.running cid 2 3 = some c → d = (s.ctx (c.slot.getD 0)).f.headDim → n = fld c.op 4 58 52 →
    s.readFault (word c.op 2) (fld c.op 4 63 59 * n * (64 + 4 * d)) = none → ∃ t, Does (.attendMerge cid) s t ∧ (match s.badForm (word c.op 2) (fld c.op 4 63 59) n (64 + 4 * d) with
      | some p => t = s.finish cid .invalidField (p * 2 ^ 32)
      | none => match partRows d n ((List.range (fld c.op 4 63 59)).map (fun p => (p, s.rd (word c.op 2 + p * n * (64 + 4 * d)) (n * (64 + 4 * d))))) with
        | .error p => t = s.finish cid .partialCheck (p * 2 ^ 32)
        | .ok ps => if ((List.range n).map (fun i => mergeRow d (ps.map (fun p => p.getD i {})))).any (fun x => x.fail.isSome) = true then t.ended cid .attendCheck 0
            else if fld c.op 4 51 51 = 0 ∧ ((List.range n).map (fun i => mergeRow d (ps.map (fun p => p.getD i {})))).any (fun x => !x.any) = true then t.ended cid .attendNoKeys 0 ∧ t.mem = s.mem
            else ∃ st v, (st = Status.ok ∨ st = Status.attendTailHigh) ∧ t.ended cid st v ∧
              t.mem = (s.writeRows (word c.op 3) d (fld c.op 4 51 51 == 0) (fld c.op 4 50 50 == 1) (fld c.op 4 49 34) (fld (s.rdWords (word c.op 2) 8) 6 63 54) (fld (s.rdWords (word c.op 2) 8) 6 53 46)
                ((List.range n).map (fun i => mergeRow d (ps.map (fun p => p.getD i {}))))).mem)) ∧
  (∀ (cid node at_ : Nat) (c : Cmd) (s : State), Up s → Tbl.get s.work.cmds cid = some c → Tbl.get c.parts node = some at_ → at_ ≤ s.now → c.outcome = none →
    ∃ t, Does (.remotePartDeadline cid node) s t ∧ (Tbl.get t.work.cmds cid).map (fun x => Tbl.get x.parts node) = some none) ∧
  (∀ (d : Nat) (ps : List ResRow), ps.all (fun p => !p.any) = true → (mergeRow d ps).any = false ∧ (mergeRow d ps).fail = none)

/-- WINDOW_STREAM, WINDOW_CANCEL, DECODE_TILES and ADH_WEIGHTS_LOAD. A stream whose layers are all delivered ends with ST_OK, or ST_WINDOW_LATE where one was late; one whose release line is out of range ends with ST_INVALID_FIELD; one with no free buffer reads the line again 1 µs later; one whose tile is still being read on another node waits; a layer without tiles left is the stream's last or not; a tile without a copy left ends it with ST_TIER_FAILED; cancelling ends the stream and the canceller; a late layer is noted once; the late limit abandons it with ST_TIER_LATE; a late copy gives way to the next; DECODE_TILES writes what its run delivers; ADH_WEIGHTS_LOAD writes tiles, directory and index. The model's own choices in it are those of log 23, 25. -/
def Obligations.WeightStreams : Prop :=
  (∀ (cid slot : Nat) (remote : List (Nat × List Byte)) (c : Cmd) (x : WStream) (s : State), Up s → s.running cid 6 1 = some c → c.slot = some slot → Tbl.get s.tier.streams cid = some x → (winOps c.op).count ≤ x.next →
    Does (.windowStream cid remote) s (s.endStream cid (if x.late = 0 then .ok else .windowLate) 0)) ∧
  (∀ (cid slot : Nat) (remote : List (Nat × List Byte)) (c : Cmd) (x : WStream) (s : State), Up s → s.running cid 6 1 = some c → c.slot = some slot → Tbl.get s.tier.streams cid = some x → x.next < (winOps c.op).count →
    fld (s.rdWords (winOps c.op).rel 1) 0 31 0 < x.released ∨ x.next < fld (s.rdWords (winOps c.op).rel 1) 0 31 0 → Does (.windowStream cid remote) s (s.endStream cid .invalidField 0)) ∧
  (∀ (cid slot : Nat) (remote : List (Nat × List Byte)) (c : Cmd) (x : WStream) (s : State), Up s → s.running cid 6 1 = some c → c.slot = some slot → Tbl.get s.tier.streams cid = some x → x.next < (winOps c.op).count →
    x.released ≤ fld (s.rdWords (winOps c.op).rel 1) 0 31 0 → fld (s.rdWords (winOps c.op).rel 1) 0 31 0 + (winOps c.op).slots ≤ x.next → 0 < (winOps c.op).slots →
    Does (.windowStream cid remote) s (s.setStream cid { x with released := fld (s.rdWords (winOps c.op).rel 1) 0 31 0, pollAt := s.now + 1000 })) ∧
  (∀ (cid slot e : Nat) (es : List Nat) (remote : List (Nat × List Byte)) (c : Cmd) (s : State), Up s → s.running cid 6 1 = some c → c.slot = some slot → Tbl.get s.tier.streams cid = none → 0 < (winOps c.op).count →
    0 < (winOps c.op).slots → fld (s.rdWords (winOps c.op).rel 1) 0 31 0 = 0 → s.partTiles (s.ctx slot).f (winOps c.op).first (winOps c.op).parts (winOps c.op).part = e :: es →
    s.readTile (s.tileEntry (s.ctx slot).f e) 0 remote = .pending → ∃ t, Does (.windowStream cid remote) s t ∧ t = s.setStream cid
      { start := (if (winOps c.op).start = 0 then c.dispT.getD s.now + (winOps c.op).period else (winOps c.op).start), readAt := s.now + 1 }) ∧
  (∀ (cid slot e : Nat) (remote : List (Nat × List Byte)) (c : Cmd) (x : WStream) (s : State), Up s → s.running cid 6 1 = some c → c.slot = some slot → Tbl.get s.tier.streams cid = some x → x.next < (winOps c.op).count →
    x.released ≤ fld (s.rdWords (winOps c.op).rel 1) 0 31 0 → fld (s.rdWords (winOps c.op).rel 1) 0 31 0 ≤ x.next → x.next < fld (s.rdWords (winOps c.op).rel 1) 0 31 0 + (winOps c.op).slots →
    (s.partTiles (s.ctx slot).f ((winOps c.op).first + x.next) (winOps c.op).parts (winOps c.op).part)[x.tile]? = some e → 4 ≤ x.copy →
    Does (.windowStream cid remote) s (s.endStream cid .tierFailed (mkWord [(32, 32, e), (0, 32, (winOps c.op).first + x.next)]))) ∧
  (∀ (cid slot : Nat) (remote : List (Nat × List Byte)) (c : Cmd) (x : WStream) (s : State), Up s → s.running cid 6 1 = some c → c.slot = some slot → Tbl.get s.tier.streams cid = some x → x.next + 1 = (winOps c.op).count →
    x.released ≤ fld (s.rdWords (winOps c.op).rel 1) 0 31 0 → fld (s.rdWords (winOps c.op).rel 1) 0 31 0 ≤ x.next → x.next < fld (s.rdWords (winOps c.op).rel 1) 0 31 0 + (winOps c.op).slots →
    (s.partTiles (s.ctx slot).f ((winOps c.op).first + x.next) (winOps c.op).parts (winOps c.op).part)[x.tile]? = none → ∃ t, Does (.windowStream cid remote) s t ∧
      t.ended cid (if x.late = 0 ∧ s.now ≤ x.start + x.next * (winOps c.op).period then .ok else .windowLate) 0 ∧ Tbl.get t.tier.streams cid = none) ∧
  (∀ (cid : Nat) (c : Cmd) (s : State), Up s → s.running cid 6 2 = some c → s.work.cmds.find? (fun x => x.2.vi == c.vi && x.2.cls == 6 && x.2.q == fld c.op 2 35 32 && x.2.index == fld c.op 2 31 0 &&
      fld x.2.op 0 43 36 == 1 && x.2.outcome.isNone) = none → Does (.windowCancel cid) s (s.finish cid .ok 0)) ∧
  (∀ (cid k : Nat) (c d : Cmd) (x : WStream) (s : State), Up s → s.running cid 6 2 = some c → s.work.cmds.find? (fun x => x.2.vi == c.vi && x.2.cls == 6 && x.2.q == fld c.op 2 35 32 && x.2.index == fld c.op 2 31 0 &&
      fld x.2.op 0 43 36 == 1 && x.2.outcome.isNone) = some (k, d) → k ≠ cid → Tbl.get s.tier.streams k = some x → ∃ t, Does (.windowCancel cid) s t ∧ t.ended cid .ok 0 ∧
      (if x.readAt = 0 then t.ended k .windowCancelled 0 ∧ Tbl.get t.tier.streams k = none else (Tbl.get t.tier.streams k).map (·.cancelled) = some true)) ∧
  (∀ (cid slot : Nat) (c : Cmd) (x : WStream) (s : State), Up s → Tbl.get s.work.cmds cid = some c → c.slot = some slot → Tbl.get s.tier.streams cid = some x → x.pollAt ≠ 0 → x.pollAt ≤ s.now → x.next < (winOps c.op).count →
    x.released ≤ fld (s.rdWords (winOps c.op).rel 1) 0 31 0 → fld (s.rdWords (winOps c.op).rel 1) 0 31 0 + (winOps c.op).slots ≤ x.next → 0 < (winOps c.op).slots →
    Does (.releasePoll cid) s (s.setStream cid { x with released := fld (s.rdWords (winOps c.op).rel 1) 0 31 0, pollAt := s.now + 1000 })) ∧
  (∀ (cid : Nat) (c : Cmd) (x : WStream) (s : State), Up s → Tbl.get s.work.cmds cid = some c → Tbl.get s.tier.streams cid = some x → x.start + x.next * (winOps c.op).period ≤ s.now → x.next < (winOps c.op).count →
    x.reported.contains x.next = false → Does (.layerDue cid) s (s.setStream cid { x with reported := x.reported ++ [x.next] })) ∧
  (∀ (cid : Nat) (c : Cmd) (x : WStream) (s : State), Up s → Tbl.get s.work.cmds cid = some c → Tbl.get s.tier.streams cid = some x → x.readAt ≠ 0 →
    x.start + x.next * (winOps c.op).period + (winOps c.op).limit ≤ s.now → Does (.lateLimitExpiry cid) s (s.endStream cid .tierLate 0)) ∧
  (∀ (cid slot e : Nat) (c : Cmd) (x : WStream) (s : State), Up s → Tbl.get s.work.cmds cid = some c → c.slot = some slot → Tbl.get s.tier.streams cid = some x → x.readAt ≠ 0 →
    x.readAt + min ((winOps c.op).period / 2) 1000000 ≤ s.now + 1 → x.next < (winOps c.op).count → x.released ≤ fld (s.rdWords (winOps c.op).rel 1) 0 31 0 →
    fld (s.rdWords (winOps c.op).rel 1) 0 31 0 ≤ x.next → x.next < fld (s.rdWords (winOps c.op).rel 1) 0 31 0 + (winOps c.op).slots →
    (s.partTiles (s.ctx slot).f ((winOps c.op).first + x.next) (winOps c.op).parts (winOps c.op).part)[x.tile]? = some e → x.copy < 3 →
    s.readTile (s.tileEntry (s.ctx slot).f e) (x.copy + 1) [] = .pending → ∃ t, Does (.tileCopyTimeout cid) s t ∧
      Tbl.get t.tier.streams cid = some { x with copy := x.copy + 1, readAt := s.now + 1, released := fld (s.rdWords (winOps c.op).rel 1) 0 31 0, pollAt := 0 } ∧ t.mem = s.mem) ∧
  (∀ (cid slot : Nat) (remote : List (Nat × List Byte)) (c : Cmd) (s : State), Up s → s.running cid 3 3 = some c → c.slot = some slot → ∃ t, Does (.decodeTiles cid remote) s t ∧
    (match s.decodeRun c (s.ctx slot).f remote (fld c.op 3 63 32) with
      | (_, some st, _) => t.ended cid st 0
      | (out, none, s1) => t.ended cid .ok (crc64 out) ∧ t.mem = (s1.store (word c.op 4) out).mem)) ∧
  (∀ (c : Caller) (slot : Nat) (entries : List (List Nat)) (tiles : List (Nat × List Byte)) (s : State), AskedBox s 776 .oper c → s.usesRing c = false → (s.ctx slot).st ≠ .empty → entries.length ≤ 16777216 →
    entries.all (fun e => entryFormed e && decide (fld e 4 31 22 < (s.ctx slot).f.layers)) = true → (s.comp (s.ctx slot).f.composition).cur.protection = .none →
    tiles.all (fun t => tileFormed t.2 && tileChecks t.2 && s.covers c.vi t.1 t.2.length rWt) = true → ∃ t es, Does (.adhWeightsLoad c slot entries tiles) s t ∧ t.replied c .ok 0 [] ∧
      es = (List.range (s.ctx slot).f.layers).flatMap (fun l => entries.filter (fun e => fld e 4 31 22 == l)) ∧
      t.mem = (((tiles.foldl (fun (u : State) x => u.store x.1 x.2) s).wrWords (s.ctx slot).f.weightDir (sealWords [es.length, (s.ctx slot).f.weightDir + 64 + 64 * es.length, 0, 0, 0, 0, 0] ++ es.flatten)).wr
        ((s.ctx slot).f.weightDir + 64 + 64 * es.length)
        (((List.range ((s.ctx slot).f.layers + 1)).map (fun l => (entries.filter (fun e => decide (fld e 4 31 22 < l))).length)).flatMap (bytesOf 4))).mem)

/-- SEARCH, INSERT, DELETE, merges and the operations on indexes. A SEARCH with a query that is not finite ends with ST_INVALID_FIELD; one that runs ends with ST_OK or ST_SEARCH_PARTIAL, its snapshot in its result, and keeps one result block for its completion; INSERT enters its items and completes; DELETE without release changes no index and completes, and with it lists handles; the mirror applies a sequence once and answers; its acknowledgement is kept; a merge starts at visible_seq; its installation moves the base on or leaves it, with one event; an old generation is freed; handles are released; corrections and lost codewords are kept; the operations create, read, set, merge and destroy an index. The model's own choices in it are those of log 12, 27, 28, 29, 30, 42. -/
def Obligations.RetrievalSearch : Prop :=
  (∀ (cid : Nat) (c : Cmd) (x : Index) (s : State), Up s → s.running cid 4 1 = some c → Tbl.get s.srch.indexes (fld c.op 4 63 56) = some x → s.readFault (word c.op 2) (2 * x.dim) = none →
    bf16s x.dim (s.rd (word c.op 2) (2 * x.dim)) = none → Does (.search cid) s (s.finish cid .invalidField 0)) ∧
  (∀ (cid gen snap : Nat) (c : Cmd) (x : Index) (q : List Dy) (s : State), Up s → s.running cid 4 1 = some c → Tbl.get s.srch.indexes (fld c.op 4 63 56) = some x → s.readFault (word c.op 2) (2 * x.dim) = none →
    bf16s x.dim (s.rd (word c.op 2) (2 * x.dim)) = some q → Tbl.get x.searches cid = some (gen, snap) → snap < 2 ^ 32 → ∃ t st r bs, Does (.search cid) s t ∧ t.ended cid st r ∧ (st = .ok ∨ st = .searchPartial) ∧ r / 2 ^ 32 = snap ∧
      (Tbl.get t.work.cmds cid).map (·.effects) = some [.write (word c.op 3) bs] ∧ t.kv = s.kv) ∧
  (∀ (cid seq ph n : Nat) (c : Cmd) (x : Index) (s : State), Up s → s.running cid 4 2 = some c → n = fld c.op 4 55 43 → Tbl.get s.srch.indexes (fld c.op 4 63 56) = some x → x.mirror = 0 → Tbl.at x.seqs cid (0, 0, []) = (seq, ph, []) →
    s.readFault (word c.op 2) (32 * n) = none → s.readFault (word c.op 3) (2 * x.dim * n) = none →
    (chunks (2 * x.dim) n (s.rd (word c.op 3) (2 * x.dim * n))).all (fun v => (bf16s x.dim v).isSome) = true → x.seqs.all (fun e => e.1 == cid || e.2.2.2.isEmpty) = true →
    (freeItems s x [] x.itemMax n 1).length = n → x.sideCount + n ≤ x.sideMax → ∃ t, Does (.insert cid) s t ∧ Tbl.get t.work.cmds cid = none ∧
      Tbl.get t.srch.indexes (fld c.op 4 63 56) = some { x with sideCount := x.sideCount + n }) ∧
  (∀ (cid : Nat) (c : Cmd) (x : Index) (s : State), Up s → s.running cid 4 3 = some c → Tbl.get s.srch.indexes (fld c.op 4 63 56) = some x → x.mirror = 0 → s.readFault (word c.op 2) (4 * fld c.op 4 55 43) = none →
    ∃ t hs, Does (.delete cid) s t ∧ Tbl.get t.work.cmds cid = none ∧ hs = (s.deleteItems x (Tbl.at x.seqs cid (0, 0, [])).1 ((chunks 4 (fld c.op 4 55 43) (s.rd (word c.op 2) (4 * fld c.op 4 55 43))).map valOf)).1 ∧
      (if fld c.op 4 42 42 = 1 then Tbl.get t.srch.indexes (fld c.op 4 63 56) = some { x with releases := x.releases ++ (hs.filter (fun h => h ≠ 0)).map (fun h => (h, (Tbl.at x.seqs cid (0, 0, [])).1)) }
        else t.srch = s.srch)) ∧
  (∀ (h : MsgHdr) (idx : Nat) (items : List (Nat × Nat × Nat × List Byte)) (dels : List Nat) (x : Index) (s : State), Up s → s.index idx = some x → x.ahead = [] →
    ∃ t, Does (.indexMirrorApply h idx x.nextSeq false items dels) s t ∧ Tbl.get t.srch.indexes idx = some { x with sideCount := x.sideCount + items.length, nextSeq := x.nextSeq + 1 } ∧ t.sent h.src 0 0) ∧
  (∀ (h : MsgHdr) (idx seq : Nat) (items : List (Nat × Nat × Nat × List Byte)) (dels : List Nat) (x : Index) (s : State), Up s → s.index idx = some x → h.src = x.mirror →
    Does (.indexMirrorApply h idx seq true items dels) s (s.updIndex idx (fun y => { y with seqs := Tbl.mapVals y.seqs (fun _ e => if e.1 = seq ∧ e.2.1 = 1 then (e.1, 2, e.2.2) else e) }))) ∧
  (∀ (idx : Nat) (x : Index) (s : State), Up s → s.index idx = some x → x.merge = none → x.mergeAt ≤ x.sideCount →
    Does (.indexMerge idx) s (s.updIndex idx (fun y => { y with merge := some { m := s.visibleSeq x } }))) ∧
  (∀ (idx : Nat) (mirror : List (Nat × List Byte)) (x : Index) (g : Merge) (s : State), Up s → s.index idx = some x → x.merge = some g → g.op = none → ∃ t y, Does (.mergeInstall idx mirror) s t ∧
    Tbl.get t.srch.indexes idx = some y ∧ y.merge = none ∧ y.nextSeq = x.nextSeq ∧ t.log.evSeq = s.log.evSeq + 1 ∧
    ((y.baseGen = (x.baseGen + 1) % 65536 ∧ y.baseSeq = g.m ∧ y.edgesStale = 0 ∧ y.olds.length = x.olds.length + 1) ∨ y = { x with merge := none })) ∧
  (∀ (idx gen : Nat) (r : OpRef) (x : Index) (s : State), Up s → Tbl.get s.srch.indexes idx = some x → x.destroyOp = some r → x.searches.all (fun e => !Tbl.has s.work.cmds e.1) = true →
    ∃ t, Does (.oldGenerationFree idx gen) s t ∧ Tbl.get t.srch.indexes idx = none) ∧
  (∀ (idx : Nat) (o : OldBase) (os : List OldBase) (x : Index) (s : State), Up s → Tbl.get s.srch.indexes idx = some x → x.destroyOp = none → x.olds = o :: os → x.searches.all (fun e => e.2.1 != o.gen && Tbl.has s.work.cmds e.1) = true →
    ∃ t, Does (.oldGenerationFree idx o.gen) s t ∧ Tbl.get t.srch.indexes idx = some { x with olds := os.filter (fun p => p.gen != o.gen) } ∧ t.kv = s.kv) ∧
  (∀ (idx h q : Nat) (x : Index) (p : PrefixHandle) (s : State), Up s → Tbl.get s.srch.indexes idx = some x → x.searches = [] → x.releases = [(h, q)] → Tbl.get s.kv.handles h = some p →
    ∃ t, Does (.deleteHandleRelease idx) s t ∧ Tbl.get t.kv.handles h = some { p with released := true } ∧ Tbl.get t.srch.indexes idx = some { x with releases := [] } ∧ t.mem = s.mem) ∧
  (∀ (cw : Nat) (bs : List Nat) (ch : Nat × Nat) (s : State), Up s → Tbl.get s.tier.map (cw / 4) = some ch → ∃ t, Does (.codewordCorrections cw bs false) s t ∧ Tbl.get t.srch.corrections cw = some bs ∧
    (48 < bs.length → Tbl.has t.tier.rewrite (cw / 4) = true) ∧ t.mem = s.mem) ∧
  (∀ (cw : Nat) (bs : List Nat) (ch : Nat × Nat) (s : State), Up s → Tbl.get s.tier.map (cw / 4) = some ch → ∃ t, Does (.codewordCorrections cw bs true) s t ∧ cw ∈ t.srch.lostWords ∧ t.log.evSeq = s.log.evSeq + 1) ∧
  (∀ (c : Caller) (idx comp dim nlist itemMax sideMax : Nat) (wide l2 : Bool) (mirror itemBase centBase vecBase segBase segBytes : Nat) (x : Index) (s : State), AskedBox s 2561 .user c →
    x = { owner := c.vi, composition := comp, dim := dim, nlist := nlist, itemMax := itemMax, sideMax := sideMax, wide := wide, l2 := l2, mirror := mirror, itemBase := itemBase, centBase := centBase, vecBase := vecBase, segBase := segBase, segBytes := segBytes, mergeAt := sideMax / 4 } →
    s.hasRight c.vi 3 = true → s.coversComp c.vi comp = true → idx ≤ 63 → Tbl.has s.srch.indexes idx = false → 64 ≤ dim → dim ≤ 4096 → dim % 64 = 0 → 16 ≤ nlist → nlist ≤ 65536 → 0 < itemMax → itemMax ≤ 4294967295 →
    4096 ≤ sideMax → sideMax ≤ 1048576 → mirror < 4096 → mirror ≠ s.node ∨ mirror = 0 → addrNode itemBase = s.node → addrSpace itemBase = 1 → addrNode centBase = s.node → addrSpace centBase = 1 →
    addrNode segBase = s.node → addrSpace segBase = 2 → addrNode vecBase = s.node → addrSpace vecBase = 1 ∨ addrSpace vecBase = 2 → itemBase % 64 = 0 → centBase % 64 = 0 → vecBase % 64 = 0 → segBase % 16384 = 0 → segBytes % 16384 = 0 →
    s.covers c.vi itemBase (32 * itemMax + x.recLen * sideMax) rIdx = true → s.covers c.vi centBase ((64 + 2 * dim) * nlist + 2 * dim * x.skBits) rIdx = true →
    s.covers c.vi vecBase (itemMax * (2 * dim + 64)) rIdx = true → s.covers c.vi segBase segBytes rIdx = true → s.quotaRoom 1 comp 1 x.dramBytes = true →
    ∃ t, Does (.adhIndexCreate c idx comp dim nlist itemMax sideMax wide l2 mirror itemBase centBase vecBase segBase segBytes) s t ∧ t.replied c .ok 0 [] ∧ Tbl.get t.srch.indexes idx = some x ∧
      ∀ a, t.rd1 a = if itemBase ≤ a ∧ a < itemBase + 32 * itemMax then 0#8 else s.rd1 a) ∧
  (∀ (c : Caller) (idx : Nat) (x : Index) (s : State), AskedBox s 2562 .user c → s.index idx = some x → s.coversComp c.vi x.composition = true → ∃ t, Does (.adhIndexStatus c idx) s t ∧
    t.replied c .ok 0 (s.indexHeader idx x) ∧ t.srch = s.srch ∧ t.mem = s.mem) ∧
  (∀ (c : Caller) (idx mergeAt splitAt retireAt : Nat) (x : Index) (s : State), AskedBox s 2563 .user c → s.index idx = some x → s.coversComp c.vi x.composition = true → 1024 ≤ mergeAt → mergeAt ≤ x.sideMax → 0 < splitAt → splitAt ≤ 4294967295 →
    retireAt ≤ 4294967295 → ∃ t, Does (.adhIndexPolicy c idx mergeAt splitAt retireAt) s t ∧ Tbl.get t.srch.indexes idx = some { x with mergeAt := mergeAt, splitAt := splitAt, retireAt := retireAt } ∧ t.mem = s.mem) ∧
  (∀ (c : Caller) (idx : Nat) (x : Index) (s : State), AskedBox s 2564 .user c → s.index idx = some x → s.coversComp c.vi x.composition = true → x.merge = none → ∃ t, Does (.adhIndexMerge c idx) s t ∧
    Tbl.get t.srch.indexes idx = some { x with merge := some { m := s.visibleSeq x, op := some (s.refOf c 2564) } } ∧ t.mem = s.mem) ∧
  (∀ (c : Caller) (idx : Nat) (x : Index) (s : State), AskedBox s 2565 .user c → s.index idx = some x → s.coversComp c.vi x.composition = true → ∃ t, Does (.adhIndexDestroy c idx) s t ∧
    t.index idx = none ∧ (Tbl.get t.srch.indexes idx).map (·.destroyOp) = some (some (s.refOf c 2565)) ∧ t.mem = s.mem)

/-- Token rings, COMMIT, the bridges and the ends of requests. RING_OPEN writes the ring's header and automaton; COMMIT of rows that are there ends at its count, or at the stop its ids meet, and a stopped ring refuses it; RING_CLOSE frees the record; a bridge keeps pushed ids and acknowledges them, and TOKEN_COMMIT makes them final or waits for those missing; an acknowledgement is kept and an unanswered bridge is lost; a waiting id is written at the flush time; a stream blocked for 100 ms raises its event once; a standby takes over; STREAM_DONE retires or holds a request; an expired handle is released and a released one without users is freed. The model's own choices in it are those of log 3, 12, 17, 18, 19, 20, 43. -/
def Obligations.TokensAndBridges : Prop :=
  (∀ (cid ring : Nat) (c : Cmd) (a : Admitted) (r : Req) (s : State), Up s → s.running cid 5 1 = some c → Tbl.get s.str.opening (fld c.op 1 47 0) = some (a, ring) → s.req (fld c.op 1 47 0) = some r →
    ∃ t, Does (.ringOpen cid) s t ∧ t.ended cid .ok 0 ∧ t.req (fld c.op 1 47 0) = some { r with tokenRing := ring } ∧ Tbl.get t.str.opening (fld c.op 1 47 0) = none ∧
      t.mem = ((s.wrWords ring ({ st := 1, log2 := a.spec.ringLog2, req := fld c.op 1 47 0, prompt := a.promptTokens, maxNew := a.spec.maxNew, tok := a.promptTokens, acked := a.promptTokens, spec := ring + 64 + 8 * 2 ^ a.spec.ringLog2, bridge := a.bridge, standby := a.standby } : TokRing).words).wrWords
        (ring + 64 + 8 * 2 ^ a.spec.ringLog2) (autoObject a.spec)).mem) ∧
  (∀ (cid : Nat) (c : Cmd) (r : Req) (s : State), Up s → s.running cid 5 2 = some c → Tbl.has s.str.commits cid = false → s.req (fld c.op 1 47 0) = some r → (s.tokRing r).st = 2 →
    Does (.commit cid) s (s.finish cid .requestStopped 0)) ∧
  (∀ (cid n c0 : Nat) (c : Cmd) (r : Req) (q : Stepped) (s : State), Up s → s.work.nextCid ≠ cid → s.running cid 5 2 = some c → Tbl.has s.str.commits cid = false → s.protWaiting cid = false → s.req (fld c.op 1 47 0) = some r →
    n = fld c.op 2 31 25 → c0 = fld c.op 2 63 32 → (s.tokRing r).st ≠ 2 → r.committed ≤ c0 → c0 ≤ r.limit → n = (if r.promptTokens ≤ c0 then c0 + 1 - (s.tokRing r).tok else 0) → c0 < r.promptTokens ∨ (s.tokRing r).tok ≤ c0 + 1 →
    ((chunks 4 n (s.rd (word c.op 3) (4 * n))).map valOf).contains 4294967295 = false → s.readFault (word c.op 3) (4 * n) = none → s.rowsThere r c0 = true →
    (s.tokRing r).tok + n - (s.tokRing r).acked ≤ 2 ^ (s.tokRing r).log2 → q = s.stepStops (s.tokRing r) r.limit ((chunks 4 n (s.rd (word c.op 3) (4 * n))).map valOf) → (s.mapOf r).protection = .none →
    s.sealFault (fld c.op 1 47 0) r (if q.stop.isSome then min c0 ((q.stop.getD (4294967295, 0, 0, 0)).1 + 1) else c0) = none → ∃ t, Does (.commit cid) s t ∧ Tbl.get t.work.cmds cid = none ∧ Tbl.get t.str.commits cid = none ∧
      (t.req (fld c.op 1 47 0)).map (·.committed) = some (if q.stop.isSome then min c0 ((q.stop.getD (4294967295, 0, 0, 0)).1 + 1) else c0)) ∧
  (∀ (cid n c0 : Nat) (c : Cmd) (r : Req) (q : Stepped) (s : State), Up s → s.running cid 5 2 = some c → Tbl.has s.str.commits cid = false → s.req (fld c.op 1 47 0) = some r →
    n = fld c.op 2 31 25 → c0 = fld c.op 2 63 32 → (s.tokRing r).st ≠ 2 → r.promptTokens ≤ c0 → r.committed ≤ c0 → c0 ≤ r.limit → n = c0 + 1 - (s.tokRing r).tok → (s.tokRing r).tok ≤ c0 + 1 →
    ((chunks 4 n (s.rd (word c.op 3) (4 * n))).map valOf).contains 4294967295 = false → s.readFault (word c.op 3) (4 * n) = none → s.rowsThere r c0 = true →
    (s.tokRing r).tok + n - (s.tokRing r).acked ≤ 2 ^ (s.tokRing r).log2 → q = s.stepStops (s.tokRing r) r.limit ((chunks 4 n (s.rd (word c.op 3) (4 * n))).map valOf) → q.kept ≠ [] → (s.mapOf r).protection ≠ .none →
    s.liveBridges (fld c.op 1 47 0) (s.tokRing r) ≠ [] → s.sealFault (fld c.op 1 47 0) r (if q.stop.isSome then min c0 ((q.stop.getD (4294967295, 0, 0, 0)).1 + 1) else c0) = none → ∃ t, Does (.commit cid) s t ∧
      (Tbl.get t.str.commits cid).map (fun x => (x.awaited, x.ids, x.first, x.sentAt)) = some (s.liveBridges (fld c.op 1 47 0) (s.tokRing r), q.kept, (s.tokRing r).tok, s.now) ∧ t.req (fld c.op 1 47 0) = some r ∧ t.mem = s.mem) ∧
  (∀ (cid : Nat) (held : Bool) (c : Cmd) (r : Req) (s : State), Up s → s.running cid 5 3 = some c → s.req (fld c.op 1 47 0) = some r → ∃ t, Does (.ringClose cid held) s t ∧ t.ended cid .ok 0 ∧
    t.req (fld c.op 1 47 0) = none ∧ fld c.op 1 47 0 ∉ t.str.done_) ∧
  (∀ (h : MsgHdr) (first : Nat) (ids : List Nat) (b : BridgeReq) (s : State), Up s → h.ver = 1 → ids.length ≤ 65 → s.bridgeReq h.req = some b → b.early = none → ∃ t, Does (.tokenPush h first ids) s t ∧
    t.bridgeReq h.req = some { b with prov := (ids.mapIdx (fun i x => (first + i, x))).foldl (fun p e => Tbl.set p e.1 e.2) b.prov } ∧ t.sent h.src 33 h.req ∧ t.mem = s.mem) ∧
  (∀ (h : MsgHdr) (tok stopPos reason seq len time : Nat) (b : BridgeReq) (s : State), Up s → h.ver = 1 → seq < 16 → ((b.marks.head?).map (·.2)).getD 0 ≤ time → s.bridgeReq h.req = some b →
    (List.range (tok - b.log.length)).any (fun i => (Tbl.get b.prov (b.log.length + i)).isNone) = true →
    Does (.tokenCommit h tok stopPos reason seq len time) s (s.setBridge h.req { b with early := some (tok, stopPos, reason, len, time) })) ∧
  (∀ (h : MsgHdr) (tok stopPos seq len time : Nat) (b : BridgeReq) (s : State), Up s → h.ver = 1 → seq < 16 → ((b.marks.head?).map (·.2)).getD 0 ≤ time → s.bridgeReq h.req = some b → b.primary = false →
    (List.range (tok - b.log.length)).all (fun i => (Tbl.get b.prov (b.log.length + i)).isSome) = true → ∃ t, Does (.tokenCommit h tok stopPos 0 seq len time) s t ∧
      (t.bridgeReq h.req).map (fun x => (x.log, x.early, x.reason, x.need)) = some (b.log ++ (List.range (tok - b.log.length)).filterMap (fun i => Tbl.get b.prov (b.log.length + i)), none, b.reason, 0) ∧ t.mem = s.mem) ∧
  (∀ (h : MsgHdr) (first n : Nat) (r : Req) (s : State), Up s → h.ver = 1 → s.req h.req = some r → r.holdEpoch ≤ h.epoch → ∃ t, Does (.tokenAck h first n) s t ∧
    Tbl.get t.str.acks (h.req, h.src) = some (max (Tbl.at s.str.acks (h.req, h.src) 0) (first + n))) ∧
  (∀ (cid bridge : Nat) (x : CommitRun) (s : State), Up s → Tbl.get s.str.commits cid = some x → x.awaited.contains bridge = true → x.sentAt + s.fab.deadBound ≤ s.now →
    ∃ t, Does (.tokenAckTimeout cid bridge) s t ∧ bridge ∈ Tbl.at t.str.lost x.req []) ∧
  (∀ (rid : Nat) (b : BridgeReq) (x : ClientStream) (s : State), Up s → s.bridgeReq rid = some b → b.primary = true → b.ended = false → b.reason = 0 → b.sent < b.writable → b.writable ≤ b.sent + 8 →
    Tbl.get s.str.streams (b.vi, b.spec.stream) = some x → sub64 x.written (word (s.rdWords x.head 1) 0) < 2 ^ x.recLog2 → (b.waitAt.map (fun w => decide (w + x.flushNs ≤ s.now))).getD false = true →
    s.entry rid = none → ∃ t, Does (.streamFlushTimer rid) s t ∧ (t.bridgeReq rid).map (fun y => (y.sent, y.waitAt)) = some (b.writable, none) ∧
      (Tbl.get t.str.streams (b.vi, b.spec.stream)).map (·.written) = some (x.written + 1) ∧ t.mem = s.mem) ∧
  (∀ (vi stream at_ : Nat) (x : ClientStream) (s : State), Up s → Tbl.get s.str.streams (vi, stream) = some x → x.blockedTold = false → x.blockedAt = some at_ → at_ + 100000000 ≤ s.now →
    ∃ t, Does (.streamBlockedTimer vi stream) s t ∧ Tbl.get t.str.streams (vi, stream) = some { x with blockedTold := true } ∧ t.log.evSeq = s.log.evSeq + 1) ∧
  (∀ (lost rid : Nat) (totals : List (Nat × Nat)) (tails : List (Nat × Nat × Nat)) (b : BridgeReq) (s : State), Up s → s.str.bridges = [(rid, b)] → b.bridge = lost → b.standby = s.node → b.primary = false → lost ≠ s.node →
    s.unreachable lost = true → ∃ t, Does (.bridgeTakeover lost totals tails) s t ∧ (t.bridgeReq rid).map (fun x => (x.primary, x.bridge, x.standby, x.log)) = some (true, s.node, 0, b.log)) ∧
  (∀ (h : MsgHdr) (tok delivered cancelled reason : Nat) (digest : List Byte) (e : DirEntry) (s : State), Up s → h.ver = 1 → s.entry h.req = some e → e.here = true → h.src = e.holder → h.epoch = e.epoch → reason < 6 →
    e.st = .prefill ∨ e.st = .protected_ ∨ e.st = .decoding ∨ e.st = .stopped → delivered + cancelled ≤ tok → e.keep = 0 → Tbl.get s.kv.attached h.req = none → ∃ t, Does (.streamDone h tok delivered cancelled reason digest) s t ∧
      t.entry h.req = none ∧ t.kv = s.kv ∧ t.mem = s.mem) ∧
  (∀ (h : MsgHdr) (tok delivered cancelled reason : Nat) (digest : List Byte) (e : DirEntry) (s : State), Up s → h.ver = 1 → s.entry h.req = some e → e.here = true → h.src = e.holder → h.epoch = e.epoch → reason < 6 →
    e.st = .prefill ∨ e.st = .protected_ ∨ e.st = .decoding ∨ e.st = .stopped → delivered + cancelled ≤ tok → 0 < e.keep → s.bridgeReq h.req = none → Tbl.get s.kv.attached h.req = none → ∃ t, Does (.streamDone h tok delivered cancelled reason digest) s t ∧
      (t.entry h.req).map (fun x => (x.st, x.holder, x.prevHolder)) = some (.held, 0, e.holder) ∧
      (Tbl.get t.kv.handles (handleOf h.req digest)).map (fun x => (x.req, x.tokens, x.digest, x.expiry)) = some (h.req, tok, digest, s.now + 1000000000 * e.keep)) ∧
  (∀ (handle : Nat) (x : PrefixHandle) (s : State), Up s → Tbl.get s.kv.handles handle = some x → x.expiry ≤ s.now →
    Does (.prefixRetentionExpiry handle) s { s with kv := { s.kv with handles := Tbl.set s.kv.handles handle { x with released := true } } }) ∧
  (∀ (handle : Nat) (x : PrefixHandle) (s : State), Up s → Tbl.get s.kv.handles handle = some x → x.released = true ∨ x.expiry ≤ s.now → x.users = 0 → ∃ t, Does (.prefixBlocksFree handle) s t ∧
    Tbl.get t.kv.handles handle = none ∧ t.entry x.req = none ∧ t.bridgeReq x.req = none)

/-- OPEN copies, parity, stragglers, members down, regrow, EC_ENCODE and CHECK. An OPEN copy appends and seals the rows that follow its own and answers with its count and check values; a matching ROW_ACK settles the member and a short one sends the rows again; a sealing keeps who reported; a delta is added to parity and both are answered; a substitute lists the shard it must regrow, background regrow starts it with a slot, and its end switches the shard map or counts a failure; a stall is probed, a straggler reported, and a member that stays silent is down; a recovery that is done raises its event; EC_ENCODE writes parity and check values; CHECK gives and compares a CRC or a digest. The model's own choices in it are those of log 3, 12, 21, 22, 47. -/
def Obligations.ProtectionAndRegrow : Prop :=
  (∀ (h : MsgHdr) (l hd b first n comp repr kVer vVer da : Nat) (rows : List Byte) (s : State), Up s → h.ver = 1 → 0 < n → first + n ≤ 64 → repr ≤ 2 → Tbl.get s.prot.copies (h.req, l, hd, b) = some da →
    first ≠ (s.desc da).committed → Does (.rowPut h l hd b first n comp repr kVer vVer rows) s (s.tell { dst := h.src, tc := s.tra.classes.getD 2 4, code := 65, req := h.req, epoch := h.epoch, mapEpoch := h.mapEpoch, fields := [l, hd, b, (s.desc da).committed, (s.desc da).crcA, (s.desc da).crcB] })) ∧
  (∀ (h : MsgHdr) (l hd b n comp repr kVer vVer da : Nat) (rows : List Byte) (d : Desc) (s : State), Up s → h.ver = 1 → 0 < n → d = s.desc da → d.committed + n ≤ 64 → repr ≤ 2 → Tbl.get s.prot.copies (h.req, l, hd, b) = some da →
    d.epoch ≤ h.epoch → ∃ t, Does (.rowPut h l hd b d.committed n comp repr kVer vVer rows) s t ∧
      t.mem = (((s.scatter d.slot ((List.range n).flatMap (fun i => rowRanges d.repr (dimOf d.dim) (d.committed + i))) rows).setDesc da { d with valid := d.committed + n, epoch := h.epoch }).sealRows da (d.committed + n)).mem) ∧
  (∀ (h : MsgHdr) (l hd b count cA cB id y : Nat) (ys : List Nat) (w : ProtWrite) (s : State), Up s → h.ver = 1 → s.prot.writes = [(id, w)] → w.kind = 1 ∨ w.kind = 4 → w.req = h.req → w.fields.take 3 = [l, hd, b] →
    w.awaited.contains h.src = true → w.awaited.filter (fun x => x ≠ h.src) = y :: ys → count = word w.fields 4 → cA = word w.fields 5 → cB = word w.fields 6 →
    Does (.rowAck h l hd b count cA cB) s { s with prot := { s.prot with writes := [(id, { w with awaited := y :: ys })] } }) ∧
  (∀ (h : MsgHdr) (l hd b count cA cB id : Nat) (w : ProtWrite) (r : Req) (s : State), Up s → h.ver = 1 → s.prot.writes = [(id, w)] → w.kind = 1 ∨ w.kind = 4 → w.req = h.req → w.fields.take 3 = [l, hd, b] →
    w.awaited.contains h.src = true → count < word w.fields 4 → s.req h.req = some r → Does (.rowAck h l hd b count cA cB) s (s.tell (s.rowPutMsg h.req l hd b count (word w.fields 4) h.src r))) ∧
  (∀ (h : MsgHdr) (stripe index cA cB comp ctx k m : Nat) (shards : List (Nat × List Nat × List Byte)) (s : State), Up s → h.ver = 1 → (s.compMap comp h.mapEpoch).protection = .ec k m → s.ctxFor comp = some ctx → 0 < stripe →
    s.servedAt (s.compMap comp h.mapEpoch) comp h.req (stripe - 1) k = some s.node →
    (shardsIn (s.ctx ctx).f k (stripe - 1)).all (fun j => decide (j = index) || (Tbl.at s.prot.sealings (h.req, stripe) {}).reported.contains j) = false →
    ∃ t, Does (.shardFull h stripe index cA cB comp shards) s t ∧ (Tbl.at t.prot.sealings (h.req, stripe) {}).reported = ((Tbl.at s.prot.sealings (h.req, stripe) {}).reported ++ [index]).dedup ∧ t.mem = s.mem ∧ t.log = s.log) ∧
  (∀ (h : MsgHdr) (stripe position comp da : Nat) (delta : List Byte) (side : List Nat) (s : State), Up s → h.ver = 1 → Tbl.get s.prot.shards (h.req, stripe) = some da → ((s.arenaOf da).map (·.parity)).getD false = true → side.length ≠ 8 →
    ∃ t, Does (.parityDelta h stripe position comp false delta side) s t ∧ t.sent h.src 0 h.req ∧
      t.mem = (s.putParity da { s.pdesc da with epoch := max (s.pdesc da).epoch h.epoch } delta (bytesOfWords side)).mem) ∧
  (∀ (h : MsgHdr) (stripe position comp da : Nat) (delta : List Byte) (side : List Nat) (p : PDesc) (s : State), Up s → h.ver = 1 → Tbl.get s.prot.shards (h.req, stripe) = some da → ((s.arenaOf da).map (·.parity)).getD false = true → side.length = 8 → p = s.pdesc da →
    ∃ t, Does (.parityDelta h stripe position comp false delta side) s t ∧ t.sent h.src 0 h.req ∧
      t.mem = ((s.wrWords da ({ p with st := 2 } : PDesc).words).putParity da { p with epoch := max p.epoch (Desc.ofWords side).epoch } (xorPad (s.rd p.slot p.bytes) delta)
        (sidecarWith p.k (s.rd p.sidecar (48 * p.k)) (Desc.ofWords side).shard side)).mem) ∧
  (∀ (h : MsgHdr) (stripe position comp id y : Nat) (ys : List Nat) (delta : List Byte) (side : List Nat) (w : ProtWrite) (s : State), Up s → h.ver = 1 → s.prot.writes = [(id, w)] → w.kind = 3 → w.req = h.req → word w.fields 0 = stripe →
    w.awaited.contains h.src = true → w.awaited.filter (fun x => x ≠ h.src) = y :: ys →
    Does (.parityDelta h stripe position comp true delta side) s { s with prot := { s.prot with writes := [(id, { w with awaited := y :: ys })] } }) ∧
  (∀ (h : MsgHdr) (stripe position down comp : Nat) (s : State), Up s → h.ver = 1 → 0 < stripe → s.servedAt (s.compMap comp h.mapEpoch) comp h.req (stripe - 1) position = some s.node → Tbl.has s.prot.shards (h.req, stripe) = false →
    s.prot.needs.any (fun n => n.1 == h.req && n.2.1 == stripe) = false → s.prot.regrows.any (fun g => g.req == h.req && g.stripe == stripe) = false → ∃ t i, Does (.regrowNeed h stripe position down comp) s t ∧
      t.prot.needs = s.prot.needs ++ [(h.req, stripe, position, i)] ∧ (t.prot.faults[i]?).map (fun f => (f.kind, f.unit, f.composition)) = some (1, down, comp) ∧ t.mem = s.mem) ∧
  (∀ (rid stripe position fault comp ctx da k : Nat) (x : FaultRec) (s : State), Up s → s.prot.shards = [] → s.prot.regrowAt ≤ s.now → s.prot.needs = [(rid, stripe, position, fault)] → s.prot.faults[fault]? = some x → comp = x.composition →
    s.ctxFor comp = some ctx → k = (protShape (s.compMap comp (s.comp comp).cur.epoch).protection).1 → position < k → s.mcRanks.findSome? (fun die => s.freeSlot 1 die (s.ctx ctx).f.headDim) = some da → (Tbl.at s.tier.policies comp {}).regrowRate ≠ 0 →
    ∃ t, Does .backgroundRegrow s t ∧ t.prot.needs = [] ∧ t.prot.regrows = s.prot.regrows ++ [{ req := rid, stripe := stripe, position := position, desc := da, startAt := s.now, fault := fault, background := true }] ∧
      t.prot.regrowAt = s.now + ceilDiv (k * (160 * (s.ctx ctx).f.headDim)) (Tbl.at s.tier.policies comp {}).regrowRate ∧ da ∈ t.tier.transit) ∧
  (∀ (req stripe position comp : Nat) (shards : List (Nat × List Nat × List Byte)) (side : List Nat) (g : Regrow) (s : State), Up s → s.prot.regrows = [g] → g.req = req → g.stripe = stripe → g.position = position →
    comp = ((s.prot.faults[g.fault]?).map (·.composition)).getD 0 → ∃ t, Does (.regrowShardDone req stripe position shards side) s t ∧ t.prot.regrows = [] ∧ g.desc ∉ t.tier.transit ∧
      (if (regrowShard (s.compMap comp (((s.req req).map (·.mapEpoch)).getD (s.comp comp).cur.epoch)).protection position (((s.arenaOf g.desc).map (·.headDim)).getD 128) shards side).isSome = true
        then Tbl.get t.prot.shards (req, stripe) = some g.desc else t.prot.shards = s.prot.shards)) ∧
  (∀ (h : MsgHdr) (comp member kind ns : Nat) (s : State), Up s → h.ver = 1 → s.calibNode comp = s.node → Tbl.has s.prot.probes (comp, member) = false → (s.comp comp).cur.cache.contains member = true →
    ∃ t, Does (.protStall h comp member kind ns) s t ∧ Tbl.get t.prot.probes (comp, member) = some s.now ∧ t.mem = s.mem) ∧
  (∀ (id : Nat) (w : ProtWrite) (s : State), Up s → Tbl.get s.prot.writes id = some w → w.reported = false → w.sentAt + s.straggleLimit w.composition ≤ s.now → ∃ t, Does (.straggleTimer id) s t ∧
    Tbl.get t.prot.writes id = some { w with reported := true } ∧ t.log.evSeq = s.log.evSeq + w.awaited.length ∧ t.log.msgs.length = s.log.msgs.length + w.awaited.length) ∧
  (∀ (comp member at_ : Nat) (m : CompMap) (s : State), Up s → Tbl.get s.prot.probes (comp, member) = some at_ → at_ + s.straggleLimit comp ≤ s.now → (s.comp comp).maps = [m] → m.cache.contains member = true →
    (Tbl.at s.prot.down (comp, m.epoch) []).contains member = false → ∃ t, Does (.stragglerProbeTimeout comp member) s t ∧ member ∈ Tbl.at t.prot.down (comp, m.epoch) [] ∧ t.prot.downSeq = s.prot.downSeq + 1 ∧
      Tbl.get t.prot.probes (comp, member) = none) ∧
  (∀ (h : MsgHdr) (comp member seq reason : Nat) (s : State), Up s → h.ver = 1 → h.src = s.calibNode comp → ∃ t, Does (.memberDown h comp member seq reason) s t ∧ member ∈ Tbl.at t.prot.down (comp, h.mapEpoch) [] ∧
    t.prot.downSeq = max s.prot.downSeq seq) ∧
  (∀ (unit comp : Nat) (f : FaultRec) (s : State), Up s → s.prot.faults = [f] → f.kind = 2 → f.unit = unit → f.composition = comp → s.prot.needs = [] → s.prot.regrows = [] →
    s.lostShards.any (fun x => dieMC (bits x.2 45 43) == unit) = false → ∃ t, Does (.recoveryDone 2 unit comp) s t ∧ t.prot.faults = [{ f with kind := 0 }] ∧ t.log.evSeq = s.log.evSeq + 1) ∧
  (∀ (cid len k : Nat) (src : List Nat) (ds : List (Nat × List Byte)) (c : Cmd) (s : State), Up s → s.running cid 3 4 = some c → len = 64 * fld c.op 5 63 53 → k = fld c.op 5 52 48 → fld c.op 5 45 44 = 0 → src = s.rdWords (word c.op 2) 18 →
    (List.range k).all (fun i => decide (word src i = 0) || (decide (addrNode (word src i) = s.node) && (s.readFault (word src i) len).isNone)) = true → word c.op 4 ≠ 0 →
    ds = (List.range k).map (fun i => (i, if word src i = 0 then List.replicate len 0#8 else s.rd (word src i) len)) → ∃ t, Does (.ecEncode cid []) s t ∧ t.ended cid .ok (len + (parityQ ds).length) ∧
      t.mem = (((s.store (word c.op 3) (parityP ds)).store (word c.op 4) (parityQ ds)).store (word c.op 6) (bytesOfWords [crc64 (parityP ds), crc64 (parityQ ds)])).mem) ∧
  (∀ (cid n : Nat) (c : Cmd) (s : State), Up s → s.running cid 3 5 = some c → n = fld c.op 3 63 32 → fld c.op 3 31 30 ≠ 1 → s.readFault (word c.op 2) n = none → fld c.op 3 29 29 = 0 ∨ s.readFault (word c.op 4) 8 = none →
    ∃ t, Does (.check cid) s t ∧ t.mem = s.mem ∧ t.ended cid (if fld c.op 3 29 29 = 1 ∧ s.rd (word c.op 4) 8 ≠ bytesOf 8 (crc64 (s.rd (word c.op 2) n)) then .checkMismatch else .ok) (crc64 (s.rd (word c.op 2) n))) ∧
  (∀ (cid n : Nat) (c : Cmd) (s : State), Up s → s.running cid 3 5 = some c → n = fld c.op 3 63 32 → fld c.op 3 31 30 = 1 → s.readFault (word c.op 2) n = none → fld c.op 3 29 29 = 0 →
    ∃ t, Does (.check cid) s t ∧ t.ended cid .ok (valOf ((sha512 (s.rd (word c.op 2) n)).take 8)) ∧ t.mem = (s.store (word c.op 5) (sha512 (s.rd (word c.op 2) n))).mem)

/-- Policing, shapers, gates, and the operations that set them; R346 and R347's sampling. A policed packet of a class not permitted is refused, one the bucket covers draws its tokens and passes, another is kept; a policer and a shaper let what their tokens cover pass; an interval's end opens the classes of the list at that time; a pending list becomes operational on a locked node and waits a cycle on an unlocked one; a test list gives way to the list before it; a port that stays unlocked falls back; a VI's samples are counted, and the operations set what they name. The model's own choices in it are those of log 26. -/
def Obligations.TrafficShaping : Prop :=
  (∀ (port partner : Nat) (pkt : Packet) (s : State), Up s → s.policedBy port pkt = some partner → pkt.resp = false → (s.port port).arrived.contains pkt = true →
    pkt.tc = 7 ∨ bit (Tbl.at s.tra.permitted (port, partner) 127) pkt.tc = false →
    Does (.ingressRequestPacket port pkt) s (s.keeping (((s.consume port pkt).violate pkt.srcVi pkt.src pkt.srcEp pkt.addr 2 pkt.ty.code 6).refusePkt pkt .violation))) ∧
  (∀ (port partner : Nat) (pkt : Packet) (x : Policer) (b : Bucket) (s : State), Up s → s.policedBy port pkt = some partner → pkt.resp = false → (s.port port).arrived.contains pkt = true →
    pkt.tc ≠ 7 → bit (Tbl.at s.tra.permitted (port, partner) 127) pkt.tc = true → x = s.policer port partner pkt.tc → x.kept = [] → x.b.rate ≠ 0 → b = x.b.accrue s.now → tokensOf pkt ≤ b.held →
    Does (.ingressRequestPacket port pkt) s (s.keeping ((s.setPolicer port partner pkt.tc { b := b.draw (tokensOf pkt), kept := [] }).passIn port pkt))) ∧
  (∀ (port partner : Nat) (pkt : Packet) (x : Policer) (s : State), Up s → s.policedBy port pkt = some partner → pkt.resp = false → (s.port port).arrived.contains pkt = true →
    pkt.tc ≠ 7 → bit (Tbl.at s.tra.permitted (port, partner) 127) pkt.tc = true → x = s.policer port partner pkt.tc → x.kept.contains pkt = false → x.b.rate ≠ 0 → x.kept ≠ [] ∨ (x.b.accrue s.now).held < tokensOf pkt →
    Does (.ingressRequestPacket port pkt) s (s.setPolicer port partner pkt.tc { b := x.b.accrue s.now, kept := x.kept ++ [pkt] })) ∧
  (∀ (port partner tc : Nat) (p : Packet) (ps : List Packet) (x : Policer) (b : Bucket) (s : State), Up s → x = s.policer port partner tc → x.kept = p :: ps → b = x.b.accrue s.now → b.rate ≠ 0 → b.held < tokensOf p →
    Does (.policerRelease port partner tc) s (s.setPolicer port partner tc { b := b, kept := p :: ps })) ∧
  (∀ (port partner tc : Nat) (p : Packet) (x : Policer) (b : Bucket) (s : State), Up s → x = s.policer port partner tc → x.kept = [p] → b = x.b.accrue s.now → b.rate ≠ 0 → tokensOf p ≤ b.held →
    ∃ t, Does (.policerRelease port partner tc) s t ∧ t.policer port partner tc = { b := b.draw (tokensOf p), kept := [] } ∧ t.mem = (s.passIn port p).mem) ∧
  (∀ (vi tc : Nat) (p : Packet) (x : Shaper) (b : Bucket) (s : State), Up s → s.now % 128 = 0 → s.tra.shapers = [((vi, tc), x)] → x.parked = [p] → x.slotAt ≤ s.now → b = x.b.accrue s.now → b.rate ≠ 0 → tokensOf p ≤ b.held →
    ∃ t, Does .shaperSlotBoundary s t ∧ t.shaper vi tc = { b := b.draw (tokensOf p), parked := [], slotAt := 0 } ∧ t.lnk = (s.toPort p).lnk ∧ t.mem = s.mem) ∧
  (∀ (vi tc : Nat) (p : Packet) (ps : List Packet) (x : Shaper) (b : Bucket) (s : State), Up s → s.now % 128 = 0 → s.tra.shapers = [((vi, tc), x)] → x.parked = p :: ps → x.slotAt ≤ s.now → b = x.b.accrue s.now → b.rate ≠ 0 → b.held < tokensOf p →
    Does .shaperSlotBoundary s (s.setShaper vi tc { b := b, parked := p :: ps, slotAt := b.slotFor (s.now + 1) (tokensOf p) })) ∧
  (∀ (s : State), Up s → s.now % 128 ≠ 0 → Does .shaperSlotBoundary s s) ∧
  (∀ (port : Nat) (s : State), Up s → s.portExists port = true → ∃ t, Does (.gateIntervalBoundary port) s t ∧ t.gates port = { s.gates port with open_ := (s.gates port).oper.openAt s.now, resumeAt := (s.gates port).resumeAt.filter (fun x => decide (s.now < x)) } ∧ t.mem = s.mem ∧ t.lnk = s.lnk ∧ t.log = s.log) ∧
  (∀ (port at_ : Nat) (l : GateList) (s : State), Up s → (s.gates port).pending = some (l, at_) → at_ ≤ s.now → s.timeLocked = true → l.cycles = 0 → ∃ t, Does (.gateTakeover port) s t ∧
    t.gates port = { s.gates port with oper := l, pending := none, testEnd := none, open_ := l.openAt s.now } ∧ t.log.evSeq = s.log.evSeq + 1 ∧ t.lnk = s.lnk) ∧
  (∀ (port at_ : Nat) (l back : GateList) (s : State), Up s → (s.gates port).pending = some (l, at_) → at_ ≤ s.now → s.timeLocked = true → l.cycles ≠ 0 → back = (((s.gates port).testEnd).map (·.2)).getD (s.gates port).oper →
    ∃ t, Does (.gateTakeover port) s t ∧ t.gates port = { s.gates port with oper := l, pending := none, testEnd := some (cycleStart back.period (at_ + l.cycles * l.period), back), open_ := l.openAt s.now } ∧
      t.log.evSeq = s.log.evSeq + 1 ∧ t.lnk = s.lnk) ∧
  (∀ (port at_ : Nat) (l : GateList) (s : State), Up s → (s.gates port).pending = some (l, at_) → at_ ≤ s.now → s.timeLocked = false → ∃ t, Does (.gateTakeover port) s t ∧
    t.gates port = { s.gates port with pending := some (l, cycleStart l.period (s.now + 1)) } ∧ t.log = s.log) ∧
  (∀ (port at_ : Nat) (l : GateList) (s : State), Up s → (s.gates port).pending = some (l, at_) → s.now < at_ → Does (.gateTakeover port) s s) ∧
  (∀ (port at_ : Nat) (l : GateList) (s : State), Up s → (s.gates port).testEnd = some (at_, l) → at_ ≤ s.now → ∃ t, Does (.gateTestListEnd port) s t ∧
    t.gates port = { s.gates port with oper := l, testEnd := none, open_ := l.openAt s.now } ∧ t.log = s.log ∧ t.lnk = s.lnk) ∧
  (∀ (port : Nat) (s : State), Up s → s.portExists port = true → s.timeLocked = false → (s.gates port).inFallback = false → (s.gates port).fallbackAfter ≠ 0 → s.time.unlockedAt + (s.gates port).fallbackAfter ≤ s.now →
    ∃ t, Does (.gateFallbackTimer port) s t ∧ t.gates port = { s.gates port with inFallback := true } ∧ t.log.evSeq = s.log.evSeq + 1) ∧
  (∀ (port : Nat) (s : State), Up s → s.timeLocked = true ∨ s.now < s.time.unlockedAt + (s.gates port).fallbackAfter → Does (.gateFallbackTimer port) s s) ∧
  (∀ (vi : Nat) (x : Telemetry) (s : State), Up s → Tbl.get s.tra.telemetry vi = some x → x.next ≤ s.now → ∃ t y, Does (.telemetrySample vi) s t ∧ Tbl.get t.tra.telemetry vi = some y ∧ y.seq = x.seq + x.queues.length ∧
    y.next = s.now + x.period ∧ y.queues = x.queues ∧ y.stats = x.queues.map (fun k => (k, { at_ := s.now })) ∧ t.log = s.log) ∧
  (∀ (vi : Nat) (x : Telemetry) (k : Nat × Nat × Nat) (s : State), Up s → s.tra.telemetry = [(vi, x)] → x.next ≤ s.now → x.queues = [k] → k.1 = 2 → s.covers vi (x.base + x.seq % 2 ^ x.log2 * 64) 64 rWr = true →
    ∃ t, Does (.telemetrySample vi) s t ∧ t.mem = (s.wrWords (x.base + x.seq % 2 ^ x.log2 * 64) (s.telRecord k (Tbl.at x.stats k {}) x.seq)).mem) ∧
  (∀ (c : Caller) (classes : List Nat) (s : State), AskedBox s 2049 .oper c → classes.length = 4 → classes.all (fun n => decide (n ≤ 6)) = true → ∃ t, Does (.adhTrafficClasses c classes) s t ∧
    t.replied c .ok 0 [] ∧ t.tra = { s.tra with classes := classes } ∧ t.mem = s.mem ∧ t.work = s.work) ∧
  (∀ (c : Caller) (classes : List Nat) (s : State), AskedBox s 2049 .oper c → classes.length ≠ 4 ∨ classes.any (fun n => decide (6 < n)) = true → ∃ t, Does (.adhTrafficClasses c classes) s t ∧
    t.replied c .invalidField 0 [] ∧ t.tra = s.tra) ∧
  (∀ (c : Caller) (port obj n at_ : Nat) (h es : List Nat) (s : State), AskedBox s 2050 .user c → s.hasRight c.vi 1 = true → s.covers c.vi obj 64 rRd = true → h = s.rdWords obj 8 → n = fld h 0 31 23 → s.portExists port = true →
    0 < n → n ≤ 256 → addrNode obj = s.node → s.covers c.vi obj (64 + 8 * n) rRd = true → es = s.rdWords (obj + 64) n →
    at_ = cycleStart (fld h 0 63 32) (max (word h 1) (s.now + 100000)) → ∃ t, Does (.adhGateLoad c port obj) s t ∧ t.mem = s.mem ∧
      (if crc64 (bytesOfWords (h.take 7 ++ es)) ≠ word h 7 then t.replied c .gateListCheck 0 [] ∧ t.tra = s.tra else if gateListOk h es = false then t.replied c .invalidField 0 [] ∧ t.tra = s.tra
       else t.replied c .ok at_ [] ∧ t.gates port = { s.gates port with pending := some ({ period := fld h 0 63 32, entries := es.map (fun e => (bits e 63 56, bits e 31 0)), cycles := fld h 2 63 32, crc := word h 7 }, at_) })) ∧
  (∀ (c : Caller) (port guard after : Nat) (o : Bool) (s : State), AskedBox s 2051 .oper c → s.portExists port = true → guard ≤ 100000 → after = 0 ∨ (1000000 ≤ after ∧ after ≤ 60000000000) →
    ∃ t, Does (.adhGatePolicy c port guard after o) s t ∧ t.replied c .ok 0 [] ∧ t.gates port = { s.gates port with guard := guard, fallbackAfter := after, fallbackOpen := o } ∧ t.mem = s.mem) ∧
  (∀ (c : Caller) (vi tc rate burst : Nat) (s : State), AskedBox s 2052 .userOper c → s.isOperator c = true ∨ vi = c.vi → vi ≤ 255 → tc ≤ 7 → 0 < rate → rate ≤ 200000 → burstOk rate burst = true →
    ∃ t, Does (.adhShaperSet c vi tc rate burst) s t ∧ t.replied c .ok 0 [] ∧ (t.shaper vi tc).b = (s.shaper vi tc).b.change s.now rate burst ∧ (t.shaper vi tc).parked = (s.shaper vi tc).parked ∧ t.mem = s.mem ∧ t.lnk = s.lnk) ∧
  (∀ (c : Caller) (port partner tc rate burst classes : Nat) (s : State), AskedBox s 2053 .oper c → s.portExists port = true → tc ≤ 6 → classes ≤ 127 → rate ≤ 200000 → burstOk rate burst = true → partner = 255 →
    (s.policer port partner tc).kept = [] → ∃ t, Does (.adhPoliceSet c port partner tc rate burst classes) s t ∧ t.replied c .ok 0 [] ∧ Tbl.get t.tra.permitted (port, partner) = some classes ∧
      t.policer port partner tc = { b := (s.policer port partner tc).b.change s.now rate burst, kept := [] } ∧ t.mem = s.mem) ∧
  (∀ (c : Caller) (base log2 period port cls : Nat) (s : State), AskedBox s 2054 .user c → 6 ≤ log2 → log2 ≤ 20 → base % 64 = 0 → 1000 ≤ period → period ≤ 1000000 → s.portExists port = true → cls < 8 →
    s.covers c.vi base (2 ^ log2 * 64) rWr = true → ∃ t, Does (.adhTelemetryConfig c base log2 period [(1, port, cls)]) s t ∧ t.replied c .ok 0 [] ∧ t.mem = s.mem ∧
      Tbl.get t.tra.telemetry c.vi = some { base := base, log2 := log2, period := period, queues := [(1, port, cls)], next := s.now + period, stats := [((1, port, cls), { at_ := s.now })] })

/-- Demotion, migration, scrub, row repair, and the flash dies' own work. A demotion pass below its thresholds ends the demotion and above them sends the least recently read block to flash, or counts that it found no room; a migration that completes leaves the block at its new place in every protection map, and one whose source fails is dropped with an event; a late promotion is dropped; a corrected line is counted and an uncorrectable one is listed; a row is repaired from its row's spares, else its channel's lines, else retired; a sector is rewritten elsewhere, a block is erased, a failed block is retired. The model's own choices in it are those of log 3, 24, 41. -/
def Obligations.MemoryTiers : Prop :=
  (∀ (comp : Nat) (s : State), Up s → s.dramPercent comp ≤ (s.tierPolicy comp).dramHigh → comp ∉ s.tier.demoting ∨ s.dramPercent comp ≤ (s.tierPolicy comp).dramLow →
    Does (.demotionPass comp) s { s with tier := { s.tier with demoting := s.tier.demoting.filter (· ≠ comp) } }) ∧
  (∀ (comp da : Nat) (p : TierPolicy) (s : State), Up s → p = s.tierPolicy comp → p.dramHigh < s.dramPercent comp → p.demoteRate ≠ 0 → s.tier.demotedAt ≤ s.now →
    minBy? (fun x => Tbl.at s.tier.lastRead x 0) ((s.tier.owners.filter (fun o => o.2.2 == comp && s.demotable comp o.1)).map (·.1)) = some da →
    ∃ t, Does (.demotionPass comp) s t ∧ comp ∈ t.tier.demoting ∧ t.tier.demotedAt = s.now + ceilDiv 1000000000 p.demoteRate ∧
      (match s.startMigration da 2 false (p.codeOnly && !s.heldLive (s.desc da).req) with
       | some u => t.tier.migrations = u.tier.migrations ∧ t.tier.transit = u.tier.transit ∧ t.mem = u.mem ∧ t.led = u.led
       | none => t.tier.demoteBlocked = s.tier.demoteBlocked + 1 ∧ t.tier.migrations = s.tier.migrations ∧ t.mem = s.mem)) ∧
  (∀ (da : Nat) (m : Migration) (s : State), Up s → Tbl.get s.tier.migrations da = some m → s.readFault (s.desc da).slot (inUse (s.desc da).repr (dimOf (s.desc da).dim)) = none → s.badPlane (s.desc da) = none →
    ∃ t, Does (.migrationComplete da) s t ∧ Tbl.has t.tier.migrations da = false ∧ m.dst ∉ t.tier.transit ∧
      t.prot.shards = Tbl.mapVals s.prot.shards (fun _ x => if x = da then m.dst else x) ∧ t.prot.copies = Tbl.mapVals s.prot.copies (fun _ x => if x = da then m.dst else x)) ∧
  (∀ (da plane : Nat) (m : Migration) (s : State), Up s → Tbl.get s.tier.migrations da = some m → s.readFault (s.desc da).slot (inUse (s.desc da).repr (dimOf (s.desc da).dim)) = none → s.badPlane (s.desc da) = some plane →
    ∃ t, Does (.migrationComplete da) s t ∧ Tbl.has t.tier.migrations da = false ∧ t.log.evSeq = s.log.evSeq + 1 ∧ t.prot = s.prot) ∧
  (∀ (da : Nat) (m : Migration) (s : State), Up s → Tbl.get s.tier.migrations da = some m → s.readFault (s.desc da).slot (inUse (s.desc da).repr (dimOf (s.desc da).dim)) ≠ none →
    ∃ t, Does (.migrationComplete da) s t ∧ Tbl.has t.tier.migrations da = false ∧ t.log.evSeq = s.log.evSeq + 1 ∧ t.prot = s.prot) ∧
  (∀ (da : Nat) (m : Migration) (s : State), Up s → Tbl.get s.tier.migrations da = some m → m.promotion = true → m.startAt + (s.tierPolicy (((Tbl.get s.tier.owners da).map (·.2)).getD 0)).deadline ≤ s.now → s.req m.req = none →
    ∃ t, Does (.promotionDeadline da) s t ∧ Tbl.has t.tier.migrations da = false ∧ m.dst ∉ t.tier.transit ∧ Tbl.has t.tier.owners m.dst = false ∧ t.log = s.log) ∧
  (∀ (da : Nat) (m : Migration) (s : State), Up s → Tbl.get s.tier.migrations da = some m → m.promotion = false ∨ s.now < m.startAt + (s.tierPolicy (((Tbl.get s.tier.owners da).map (·.2)).getD 0)).deadline →
    Does (.promotionDeadline da) s s) ∧
  (∀ (line : Nat) (s : State), Up s → addrSpace (64 * line) = 1 → addrNode (64 * line) = s.node → s.offsetDefined (64 * line) = true → s.channelUp (rowOf (64 * line)).1 = true →
    ∃ t, Does (.scrubLine line 0) s t ∧ t.tier = s.tier ∧ t.mem = s.mem ∧ t.log = s.log) ∧
  (∀ (line ch n : Nat) (s : State), Up s → addrSpace (64 * line) = 1 → addrNode (64 * line) = s.node → s.offsetDefined (64 * line) = true → ch = (rowOf (64 * line)).1 → s.channelUp ch = true → n = Tbl.at s.tier.corrected ch 0 + 1 →
    ∃ t, Does (.scrubLine line 1) s t ∧ Tbl.get t.tier.corrected ch = some n ∧ t.tier.badLines = s.tier.badLines ∧ t.log.evSeq = s.log.evSeq + (if n % 1024 = 0 then 1 else 0)) ∧
  (∀ (line : Nat) (s : State), Up s → addrSpace (64 * line) = 1 → addrNode (64 * line) = s.node → s.offsetDefined (64 * line) = true → s.channelUp (rowOf (64 * line)).1 = true → s.lineBad (64 * line) = false → s.slotAt (64 * line) = none →
    ∃ t, Does (.scrubLine line 2) s t ∧ t.tier.badLines = s.tier.badLines ++ [line] ∧ t.log.evSeq = s.log.evSeq + 1) ∧
  (∀ (ch group row b : Nat) (s : State), Up s → ch < 16 → s.channelUp ch = true → 2 ≤ (Tbl.at s.tier.rowErrors (rowKey ch row) (0, 0)).1 → b = s.rowSpare ch group → 0 < b → ∃ t, Does (.rowRepair ch group row false) s t ∧
    Tbl.get t.tier.rowSpares (ch, group) = some (b - 1) ∧ t.boot.hardRepairs = s.boot.hardRepairs ++ [(ch, row)] ∧ Tbl.has t.tier.rowErrors (rowKey ch row) = false ∧ t.log.evSeq = s.log.evSeq + 2) ∧
  (∀ (ch group row n : Nat) (s : State), Up s → ch < 16 → s.channelUp ch = true → 2 ≤ (Tbl.at s.tier.rowErrors (rowKey ch row) (0, 0)).1 → s.rowSpare ch group = 0 → n = Tbl.at s.tier.lineSpares ch 2048 → 0 < n →
    ∃ t, Does (.rowRepair ch group row false) s t ∧ Tbl.get t.tier.lineSpares ch = some (n - 1) ∧ t.boot.hardRepairs = s.boot.hardRepairs ∧ t.log.evSeq = s.log.evSeq + 2) ∧
  (∀ (ch group row n : Nat) (s : State), Up s → ch < 16 → s.channelUp ch = true → 2 ≤ (Tbl.at s.tier.rowErrors (rowKey ch row) (0, 0)).1 → s.rowSpare ch group = 0 → Tbl.at s.tier.lineSpares ch 2048 = 0 → n = Tbl.at s.tier.rowsRetired ch 0 + 1 →
    ∃ t, Does (.rowRepair ch group row false) s t ∧ Tbl.get t.tier.rowsRetired ch = some n ∧ t.pw.capLost = true ∧ t.pkg.dramLost = s.pkg.dramLost ++ (if s.dimmBytes ch / 8192 < 100 * n then [ch] else [])) ∧
  (∀ (ch group row : Nat) (s : State), Up s → ch < 16 → s.channelUp ch = true → s.boot.hardRepairs.contains (ch, row) = true → ∃ t, Does (.rowRepair ch group row true) s t ∧
    t.boot.hardRepairs = s.boot.hardRepairs.filter (· ≠ (ch, row)) ∧ t.log.evSeq = s.log.evSeq + 1 ∧ t.tier = s.tier) ∧
  (∀ (sector : Nat) (s : State), Up s → Tbl.has s.tier.rewrite sector = true → Tbl.has s.tier.map sector = true → s.pkg.flashUp.any (fun ch => s.flashChanUp ch && !(Tbl.at s.tier.chans ch {}).readOnly) = true →
    ∃ t, Does (.flashRelocate sector) s t ∧ Tbl.has t.tier.rewrite sector = false ∧ Tbl.has t.tier.map sector = true ∧ t.mem = s.mem ∧ (∀ x, x ≠ sector → Tbl.get t.tier.map x = Tbl.get s.tier.map x)) ∧
  (∀ (ch block : Nat) (c : FlashChan) (s : State), Up s → s.flashChanUp ch = true → Tbl.get s.tier.chans ch = some c → c.retired.contains block = false → ∃ t, Does (.flashGc ch block) s t ∧
    (Tbl.get t.tier.chans ch).map (·.erases) = some (c.erases + 1) ∧ t.mem = s.mem ∧ t.log = s.log ∧ (∀ x, Tbl.has t.tier.map x = Tbl.has s.tier.map x)) ∧
  (∀ (ch block : Nat) (c : FlashChan) (s : State), Up s → s.flashChanUp ch = true → c = Tbl.at s.tier.chans ch {} → c.retired.contains block = false → ∃ t, Does (.nandBlockFail ch block) s t ∧
    (Tbl.get t.tier.chans ch).map (fun x => (x.retired, x.spare)) = some (c.retired ++ [block], c.spare - 1) ∧ (200 * (c.spare - 1) < c.blocks → (Tbl.get t.tier.chans ch).map (·.readOnly) = some true) ∧
    (∀ x, Tbl.has t.tier.map x = Tbl.has s.tier.map x) ∧ s.log.evSeq < t.log.evSeq)

/-- Submissions, the start of a request, cancels, reports and beats. A submission that fails its checks, its quota or its wait is refused with its status, one with capacity is served with its request id, and another waits; a cancel withdraws a waiting submission or holds a served request's tokens back; the record is read, a prefix kept and released, a stream and an admission policy set; the home enters PREFILL, the prompt node makes the record, the standby opens its log; a cancel arrives at the home and is applied at the holder; reports are kept and sent, a silent member is named, and a beat closes the metering record. The model's own choices in it are those of log 3, 12, 13, 43. -/
def Obligations.AdmissionAndRequests : Prop :=
  (∀ (c : Caller) (comp gReserve waitS waitO : Nat) (bridges : List Nat) (s : State), AskedBox s 1028 .oper c → (s.comp comp).maps ≠ [] → bridges ≠ [] → bridges.all (fun b => decide (b < 4096)) = true →
    gReserve ≤ (Tbl.get s.tier.ceilings (1, comp, 1)).getD (s.tierCapacity 1) → waitS ≤ 60000000000 → waitO ≤ 60000000000 → (s.comp comp).cur.protection = .none ∨ 2 ≤ bridges.dedup.length →
    ∃ t, Does (.adhAdmissionPolicy c comp bridges gReserve waitS waitO) s t ∧ t.replied c .ok 0 [] ∧ t.comp comp = { s.comp comp with bridges := bridges.dedup, gReserve := gReserve, waitS := waitS, waitO := waitO } ∧ t.mem = s.mem) ∧
  (∀ (c : Caller) (sub : Submission) (st : Status) (s : State), AskedBox s 1029 .user c → s.submitFault c.vi sub = some st → ∃ t, Does (.adhRequestSubmit c sub) s t ∧ t.replied c st 0 [] ∧ t.adm = s.adm ∧ t.own = s.own) ∧
  (∀ (c : Caller) (sub : Submission) (comp q w : Nat) (s : State), AskedBox s 1029 .user c → s.submitFault c.vi sub = none → comp = sub.composition → q = s.share comp sub.cls → w = (s.admOf comp).waits sub.cls →
    q ≤ (s.admOf comp).admitted.getD sub.cls 0 + w → ∃ t r, Does (.adhRequestSubmit c sub) s t ∧ t.replied c .refusedQuota r [] ∧ s.toBeat comp ≤ r ∧ (q ≠ 0 → r = s.toBeat comp + w / q * (s.comp comp).cur.beat) ∧
      t.adm = s.adm ∧ t.own = s.own ∧ t.mem = s.mem) ∧
  (∀ (c : Caller) (sub : Submission) (comp rid : Nat) (s : State), AskedBox s 1029 .user c → s.submitFault c.vi sub = none → comp = sub.composition → (s.admOf comp).admitted.getD sub.cls 0 + (s.admOf comp).waits sub.cls < s.share comp sub.cls →
    s.hasCapacity comp sub.cls (s.needOf comp sub.prompt.length (s.covered sub)) = true → (s.admOf comp).queue.any (fun x => decide (x.sub.cls ≤ sub.cls)) = false →
    rid = ((s.bookNew qRequests comp 1 1).serveSub sub c.vi).1 → ∃ t, Does (.adhRequestSubmit c sub) s t ∧ t.replied c .ok rid [sub.tag, rid] ∧
      (Tbl.get t.str.bridges rid).map (fun b => (b.primary, b.vi, b.tag, b.composition, b.log)) = some (true, c.vi, sub.tag, comp, sub.prompt)) ∧
  (∀ (c : Caller) (sub : Submission) (comp : Nat) (s : State), AskedBox s 1029 .user c → s.submitFault c.vi sub = none → comp = sub.composition → (s.admOf comp).admitted.getD sub.cls 0 + (s.admOf comp).waits sub.cls < s.share comp sub.cls →
    s.hasCapacity comp sub.cls (s.needOf comp sub.prompt.length (s.covered sub)) = false → sub.cls = 0 → ∃ t, Does (.adhRequestSubmit c sub) s t ∧
      (t.admOf comp).queue = (s.admOf comp).queue ++ [{ sub := sub, op := s.refOf c 1029, at_ := s.now }] ∧ t.own = s.own) ∧
  (∀ (c : Caller) (sub : Submission) (comp : Nat) (s : State), AskedBox s 1029 .user c → s.submitFault c.vi sub = none → comp = sub.composition → (s.admOf comp).admitted.getD sub.cls 0 + (s.admOf comp).waits sub.cls < s.share comp sub.cls →
    s.hasCapacity comp sub.cls (s.needOf comp sub.prompt.length (s.covered sub)) = false → sub.cls = 1 → (s.comp comp).waitS < s.waitEstimate comp 1 → ∃ t, Does (.adhRequestSubmit c sub) s t ∧
      t.replied c .refusedCapacity (s.waitEstimate comp 1) [] ∧ t.adm = s.adm ∧ t.own = s.own) ∧
  (∀ (c : Caller) (req tag comp : Nat) (a : AdmComp) (w : Waiting) (s : State), AskedBox s 1030 .user c → s.adm = [(comp, a)] → a.queue = [w] → w.op.vi = c.vi → w.sub.tag = tag → ∃ t, Does (.adhRequestCancel c (some tag) req) s t ∧
    (t.admOf comp).queue = [] ∧ t.str = s.str) ∧
  (∀ (c : Caller) (req : Nat) (b : BridgeReq) (s : State), AskedBox s 1030 .user c → s.adm = [] → s.str.bridges = [(req, b)] → s.coversComp c.vi b.composition = true → b.ended = false → b.cancelAt = none → ∃ t, Does (.adhRequestCancel c none req) s t ∧
    t.replied c .ok 0 [] ∧ t.bridgeReq req = some { b with cancelAt := some s.now } ∧ t.sent (s.homeOf req) 0 req ∧ t.mem = s.mem) ∧
  (∀ (c : Caller) (req : Nat) (s : State), AskedBox s 1030 .user c → s.adm = [] → s.bridgeReq req = none → s.str.bridges = [] → ∃ t, Does (.adhRequestCancel c none req) s t ∧ t.replied c .requestMoved 0 [] ∧ t.str = s.str) ∧
  (∀ (c : Caller) (req : Nat) (r : Req) (s : State), AskedBox s 1031 .userRead c → s.req req = some r → s.coversComp c.vi r.composition = true → ∃ t, Does (.adhRequestRead c req) s t ∧ t.replied c .ok 0 (r.words req) ∧ t.kv = s.kv ∧ t.mem = s.mem) ∧
  (∀ (c : Caller) (req retain : Nat) (e : DirEntry) (s : State), AskedBox s 1032 .user c → s.entry req = some e → e.here = true → s.coversComp c.vi e.composition = true → 0 < retain → retain ≤ 2592000 → e.st ≠ .held → e.st ≠ .failed →
    ∃ t, Does (.adhPrefixKeep c req retain) s t ∧ t.replied c .ok 0 [] ∧ (t.entry req).map (·.keep) = some retain ∧ t.mem = s.mem) ∧
  (∀ (c : Caller) (handle : Nat) (h : PrefixHandle) (s : State), AskedBox s 1033 .user c → Tbl.get s.kv.handles handle = some h → s.coversComp c.vi h.composition = true → ∃ t, Does (.adhPrefixRelease c handle) s t ∧
    t.replied c .ok 0 [] ∧ Tbl.get t.kv.handles handle = some { h with released := true } ∧ t.mem = s.mem) ∧
  (∀ (c : Caller) (n recBase recLog2 tail head flushNs : Nat) (s : State), AskedBox s 1034 .user c → s.hasRight c.vi 4 = true → n ≤ 15 → 6 ≤ recLog2 → recLog2 ≤ 20 → 1000 ≤ flushNs → flushNs ≤ 1000000 → recBase % 64 = 0 → tail % 64 = 0 → head % 64 = 0 →
    ∃ t, Does (.adhStreamConfig c n recBase recLog2 tail head flushNs) s t ∧ t.replied c .ok 0 [] ∧ Tbl.get t.str.streams (c.vi, n) = some { recBase := recBase, recLog2 := recLog2, tail := tail, head := head, flushNs := flushNs } ∧ t.mem = s.mem) ∧
  (∀ (a : Admitted) (e : DirEntry) (s : State), Up s → s.homeOf a.req = s.node → a.promptNode ≠ s.node → a.standby ≠ s.node → a.handle = 0 → s.entry a.req = some e → e.st = .admitted → ∃ t e' x, Does (.prefillStart a) s t ∧
    t.entry a.req = some e' ∧ e'.st = .prefill ∧ e'.holder = a.promptNode ∧ e'.receipts.length = e.receipts.length + 1 ∧ Tbl.get t.own.homeLeases a.promptNode = some x ∧ s.now + s.own.leaseLen ≤ x.expiry ∧ t.mem = s.mem) ∧
  (∀ (a : Admitted) (ctx : Nat) (s : State), Up s → s.homeOf a.req ≠ s.node → a.promptNode = s.node → a.standby ≠ s.node → a.handle = 0 → s.ctxFor a.composition = some ctx → s.req a.req = none → s.freeRecords ≠ 0 → ∃ t r, Does (.prefillStart a) s t ∧
    t.req a.req = some r ∧ r.committed = a.prefixTokens ∧ r.limit = a.limit ∧ r.promptTokens = a.promptTokens ∧ r.composition = a.composition ∧ r.ctxSlot = ctx ∧ r.ownerVi = a.ownerVi ∧
    (Tbl.get t.str.opening a.req).map (·.1) = some a ∧ t.work.nextCid = s.work.nextCid + 1) ∧
  (∀ (a : Admitted) (s : State), Up s → s.homeOf a.req ≠ s.node → a.promptNode ≠ s.node → a.standby = s.node → a.standby ≠ 0 → a.handle = 0 → s.bridgeReq a.req = none → ∃ t b, Does (.prefillStart a) s t ∧
    t.bridgeReq a.req = some b ∧ b.bridge = a.bridge ∧ b.standby = s.node ∧ b.vi = a.ownerVi ∧ b.log = a.prompt ∧ t.mem = s.mem ∧ t.own = s.own) ∧
  (∀ (req arrival : Nat) (e : DirEntry) (s : State), Up s → s.entry req = some e → e.here = true → e.st = .prefill ∨ e.st = .protected_ ∨ e.st = .leaping ∨ e.st = .decoding → e.cancelAt = none → ∃ t e', Does (.cancelArrivalAtHome req arrival) s t ∧
    t.entry req = some e' ∧ e'.cancelAt = some arrival ∧ e'.st = (if e.st = .leaping then (if e.leapFromDecode = true then .decoding else .protected_) else e.st)) ∧
  (∀ (req arrival at_ : Nat) (e : DirEntry) (s : State), Up s → s.entry req = some e → e.cancelAt = some at_ → Does (.cancelArrivalAtHome req arrival) s s) ∧
  (∀ (req arrival time tok gone : Nat) (r : Req) (x y : TokRing) (s : State), Up s → s.req req = some r → r.tokenRing ≠ 0 → x = s.tokRing r → x.st = 1 → Tbl.at s.str.marks req [] = [(time, tok)] → time < arrival →
    y = { x with st := 2, tok := tok, acked := min x.acked tok, stopPos := tok - 1, reason := 5, stopSeq := 0, stopLen := 0 } → gone = x.tok - max x.acked tok → s.liveBridges req y = [] →
    Does (.cancelApply req arrival) s (s.keeping ((((s.setRing r y).bookMove qTokens req 0 3 gone).stopped req r).maybeDone req))) ∧
  (∀ (req arrival time tok : Nat) (r : Req) (s : State), Up s → s.req req = some r → (s.tokRing r).st = 2 → Tbl.at s.str.marks req [] = [(time, tok)] → time < arrival → Does (.cancelApply req arrival) s s) ∧
  (∀ (h : MsgHdr) (comp records dirFree dram sendTime : Nat) (s : State), Up s → h.ver = 1 → (s.comp comp).bridges.contains s.node = true → (s.comp comp).cur.members.contains h.src = true →
    ((Tbl.get (s.admOf comp).reports h.src).map (fun r => decide (sendTime < r.at_))).getD false = false → (s.admOf comp).queue = [] → Does (.capacityReport h comp records dirFree dram sendTime) s
      (s.updAdm comp (fun a => { a with reports := Tbl.set a.reports h.src { at_ := sendTime, records := records, dirFree := dirFree, dram := dram } }))) ∧
  (∀ (comp : Nat) (c : Comp) (s : State), Up s → c = s.comp comp → (c.cur.prompt ++ c.cur.cache).contains s.node = true → (s.admOf comp).reportAt ≤ s.now → ∃ t, Does (.capacityReportTimer comp) s t ∧
    (t.admOf comp).reportAt = s.now + 1000000 ∧ t.mem = s.mem ∧ t.log.msgs = s.log.msgs ++ c.bridges.map (fun b => { dst := b, tc := 7, code := 48, mapEpoch := c.cur.epoch, fields := [comp, s.freeRecords, if c.cur.home.contains s.node = true then 4194304 - s.own.dir.length else 4294967295, s.freeDram comp, s.now] })) ∧
  (∀ (comp node : Nat) (c : Comp) (r : CapReport) (s : State), Up s → c = s.comp comp → c.bridges.contains s.node = true → (c.cur.prompt ++ c.cur.cache).contains node = true → Tbl.get (s.admOf comp).reports node = some r → r.at_ + 5000000 < s.now →
    Tbl.get (s.admOf comp).staleAt node = none → ∃ t, Does (.capacityStaleTimer comp node) s t ∧ Tbl.get (t.admOf comp).staleAt node = some s.now ∧ t.log.evSeq = s.log.evSeq + 1) ∧
  (∀ (comp at_ : Nat) (c : Comp) (s : State), Up s → c = s.comp comp → c.cur.beat ≠ 0 → c.maps ≠ [] → at_ = s.now / c.cur.beat * c.cur.beat → c.beatAt < at_ → (s.admOf comp).queue = [] → ∃ t, Does (.beatBoundary comp) s t ∧
    (t.comp comp).beatAt = at_ ∧ (t.comp comp).meterOpen = {} ∧ ((t.comp comp).meters.head?).map (fun m => (m.time, m.admitted)) = some (at_, c.meterOpen.admitted) ∧ (t.admOf comp).admitted = [0, 0, 0] ∧ t.mem = s.mem ∧ t.log = s.log)

/-- Arbiters reload their pointers at fabric epoch boundaries. At a fabric time whose bits [19:0] are zero the boundary's command answers a state in which arbiter a with N inputs has the pointer (e + n + a) mod N, e being bits [35:20] of the time and n the node id; at another time it changes nothing; and two hubs of one node at one boundary compute the same pointer for every arbiter, whatever else they hold. -/
def Obligations.ArbiterPointers : Prop :=
  (∀ (s : State), Up s → bits s.now 19 0 = 0 → ∃ t, Does .fabricEpochBoundary s t ∧ ∀ a n, 0 < n → t.ptr a n = (bits s.now 35 20 + s.node + a) % n) ∧
  (∀ (s : State), Up s → bits s.now 19 0 ≠ 0 → Does .fabricEpochBoundary s s) ∧
  (∀ (s s' t t' : State), Up s → Up s' → s.now = s'.now → s.node = s'.node → bits s.now 19 0 = 0 → Does .fabricEpochBoundary s t → Does .fabricEpochBoundary s' t' → ∀ a n, t.ptr a n = t'.ptr a n)

/-- Where set objects lie. A context's set objects lie one stride apart from the arena's base, in order of the directory entry's number and then of its slot; the stride is 64 + 512 D bytes rounded up to whole 4,096 bytes, and for the five values of D it is the table's. -/
def Obligations.SetObjectStride : Prop :=
  (∀ (f : CtxFields) (e n : Nat), n < 4 → f.objAddr e n = f.cbBase + (4 * e + n) * cbStride f.headDim ∧ cbStride f.headDim % 4096 = 0 ∧
    64 + 512 * f.headDim ≤ cbStride f.headDim ∧ cbStride f.headDim < 64 + 512 * f.headDim + 4096) ∧
  cbStride 64 = 36864 ∧ cbStride 96 = 53248 ∧ cbStride 128 = 69632 ∧ cbStride 192 = 102400 ∧ cbStride 256 = 135168 ∧
  (512 * 64 = 32 * 1024 ∧ 512 * 96 = 48 * 1024 ∧ 512 * 128 = 64 * 1024 ∧ 512 * 192 = 96 * 1024 ∧ 512 * 256 = 128 * 1024)

/-- ADH_SHAPER_SET sets a shaper's values. Made by an ACTIVE VI for its own shaper through its mailbox, in no change order, the operation sets rate and burst where the rate is 0 to 200,000 MB/s and the burst is from max(4,144, rate × 256 ns) to 67,108,864 bytes, and otherwise answers ST_INVALID_FIELD and changes no shaper; a shaper never set has rate 0 and burst 65,536. -/
def Obligations.ShaperSettings : Prop :=
  (∀ (c : Caller) (tc rate burst : Nat) (s : State), AskedBox s 2052 .userOper c → c.vi ≤ 255 → tc ≤ 7 → rate ≤ 200000 → 4144 ≤ burst → rate * 256 ≤ burst * 1000 → burst ≤ 67108864 →
    ∃ t, Does (.adhShaperSet c c.vi tc rate burst) s t ∧ t.replied c .ok 0 [] ∧ (t.shaper c.vi tc).b.rate = rate ∧ (t.shaper c.vi tc).b.burst = burst) ∧
  (∀ (c : Caller) (tc rate burst : Nat) (s : State), AskedBox s 2052 .userOper c → 200000 < rate ∨ burst < 4144 ∨ burst * 1000 < rate * 256 ∨ 67108864 < burst →
    ∃ t, Does (.adhShaperSet c c.vi tc rate burst) s t ∧ t.replied c .invalidField 0 [] ∧ t.tra = s.tra) ∧
  (∀ (vi tc : Nat) (s : State), Tbl.has s.tra.shapers (vi, tc) = false → (s.shaper vi tc).b.rate = 0 ∧ (s.shaper vi tc).b.burst = 65536) ∧ State.reset.tra.shapers = []

/-- The vector slots of an index. Slots lie 2 × dim + 64 bytes apart from vec_base; once an INSERT has entered an item, its slot holds the vector in BF16 and behind it a trailer of 64 bytes, whose word 0 holds the item number at [31:0] and whose word 7 holds the CRC-64 of the vector and of trailer bytes 0 to 55. -/
def Obligations.VectorSlots : Prop :=
  (∀ (x : Index) (n : Nat), x.slotAt n = x.vecBase + n * (2 * x.dim + 64)) ∧
  (∀ (i seq item pid handle a d : Nat) (v : List Byte) (x : Index) (s t : State), Memory.wf s.mem → t = s.enterItems i x seq [(item, pid, handle, v)] → d = 2 * x.dim → v.length = d → 0 < item → item < 2 ^ 32 → a = x.slotAt (item - 1) →
    a + d + 64 ≤ x.sideBase + x.sideCount * x.recLen ∨ x.sideBase + (x.sideCount + 1) * x.recLen ≤ a → a + d + 64 ≤ x.itemAt item ∨ x.itemAt item + 32 ≤ a →
    t.rd a d = v ∧ (t.rd (a + d) 64).length = 64 ∧ fld (t.rdWords (a + d) 8) 0 31 0 = item ∧ word (t.rdWords (a + d) 8) 7 = crc64 (v ++ t.rd (a + d) 56))

/-- Minted tokens are held, spent or capped. Accruing, drawing tokens that are held, and a change of rate or burst keep minted equal to held plus spent plus capped; so a request handed to its path, a slot boundary and ADH_SHAPER_SET leave every shaper balanced where every shaper was. -/
def Obligations.TokenBooks : Prop :=
  (∀ (b : Bucket) (now : Nat), b.balanced = true → (b.accrue now).balanced = true) ∧
  (∀ (b : Bucket) (n : Nat), b.balanced = true → n ≤ b.held → (b.draw n).balanced = true) ∧
  (∀ (b : Bucket) (now rate burst : Nat), b.balanced = true → (b.change now rate burst).balanced = true) ∧
  (∀ (p : Packet) (s : State), s.tra.shapers.all (fun e => e.2.b.balanced) = true → (s.emit p).tra.shapers.all (fun e => e.2.b.balanced) = true) ∧
  (∀ (s t : State), s.tra.shapers.all (fun e => e.2.b.balanced) = true → Does .shaperSlotBoundary s t → t.tra.shapers.all (fun e => e.2.b.balanced) = true) ∧
  (∀ (c : Caller) (vi tc rate burst : Nat) (s t : State), s.tra.shapers.all (fun e => e.2.b.balanced) = true → Does (.adhShaperSet c vi tc rate burst) s t → t.tra.shapers.all (fun e => e.2.b.balanced) = true) ∧
  State.reset.tra.shapers.all (fun e => e.2.b.balanced) = true
end

