-- ==== Sys2Proof/Laws/Memory.lean ====
section
/-! SUPPORT. Laws of memory: what a write leaves to read, and that every write keeps the canonical form. -/

namespace Sys2Proof.Machine
open Sys2Proof

/-- Every listed address lies above a bound. -/
def Above (a : Nat) (m : List Host.Cell) : Prop := ∀ c ∈ m, a < c.1

theorem memWf_cons (a : Nat) (b : Byte) (m : List Host.Cell) : memWf ((a, b) :: m) = true ↔ b ≠ 0#8 ∧ memWf m = true ∧ Above a m := by
  induction m generalizing a b with
  | nil => simp [memWf, Above]
  | cons c m ih =>
    obtain ⟨a', b'⟩ := c
    simp only [memWf, Bool.and_eq_true, decide_eq_true_eq, bne_iff_ne]
    constructor
    · rintro ⟨⟨h, h0⟩, hw⟩
      refine ⟨h0, hw, ?_⟩
      intro c hc
      rcases List.mem_cons.mp hc with rfl | hc
      · exact h
      · exact Nat.lt_trans h ((ih a' b').mp hw |>.2.2 c hc)
    · rintro ⟨h0, hw, ha⟩
      exact ⟨⟨ha (a', b') List.mem_cons_self, h0⟩, hw⟩

theorem above_memPut (m : List Host.Cell) (a x : Nat) (b : Byte) (hx : x < a) (h : Above x m) : Above x (memPut m a b) := by
  induction m with
  | nil =>
    unfold memPut; split
    · exact h
    · intro c hc; rcases List.mem_cons.mp hc with rfl | hc
      · exact hx
      · cases hc
  | cons k m ih =>
    obtain ⟨k, v⟩ := k
    have hm : Above x m := fun c hc => h c (List.mem_cons_of_mem _ hc)
    have hk : x < k := h (k, v) List.mem_cons_self
    unfold memPut; split
    · split
      · exact hm
      · intro c hc; rcases List.mem_cons.mp hc with rfl | hc
        · exact hx
        · exact hm c hc
    · split
      · split
        · exact h
        · intro c hc; rcases List.mem_cons.mp hc with rfl | hc
          · exact hx
          · exact h c hc
      · intro c hc; rcases List.mem_cons.mp hc with rfl | hc
        · exact hk
        · exact ih hm c hc

/-- A write of one byte keeps the canonical form. -/
theorem memWf_memPut (m : List Host.Cell) (a : Nat) (b : Byte) (h : memWf m = true) : memWf (memPut m a b) = true := by
  induction m with
  | nil => unfold memPut; split <;> simp_all [memWf]
  | cons k m ih =>
    obtain ⟨k, v⟩ := k
    obtain ⟨hv, hm, hk⟩ := (memWf_cons k v m).mp h
    unfold memPut; split
    · rename_i hka; split
      · exact hm
      · rename_i hb; exact (memWf_cons a b m).mpr ⟨hb, hm, hka ▸ hk⟩
    · split
      · rename_i hlt; split
        · exact h
        · rename_i hb
          refine (memWf_cons a b _).mpr ⟨hb, h, ?_⟩
          intro c hc; rcases List.mem_cons.mp hc with rfl | hc
          · exact hlt
          · exact Nat.lt_trans hlt (hk c hc)
      · exact (memWf_cons k v _).mpr ⟨hv, ih hm, above_memPut m a k b (by omega) hk⟩

/-- A write of a run of bytes keeps the canonical form. -/
theorem memWf_memPuts (bs : List Byte) (m : List Host.Cell) (a : Nat) (h : memWf m = true) : memWf (memPuts m a bs) = true := by
  induction bs generalizing m a with
  | nil => exact h
  | cons b bs ih => exact ih _ _ (memWf_memPut m a b h)

theorem memWf_sub {m : List Host.Cell} (p : Host.Cell → Bool) (h : memWf m = true) : memWf (m.filter p) = true := by
  induction m with
  | nil => rfl
  | cons c m ih =>
    obtain ⟨a, b⟩ := c
    obtain ⟨hb, hm, ha⟩ := (memWf_cons a b m).mp h
    rw [List.filter_cons]; split
    · exact (memWf_cons a b _).mpr ⟨hb, ih hm, fun c hc => ha c (List.mem_of_mem_filter hc)⟩
    · exact ih hm

theorem memGet_above (m : List Host.Cell) (a : Nat) (h : Above a m) : memGet m a = 0#8 := by
  induction m with
  | nil => rfl
  | cons c m ih =>
    obtain ⟨k, v⟩ := c
    have hk : a < k := h (k, v) List.mem_cons_self
    simp only [memGet, Nat.ne_of_gt hk, if_false]
    exact ih fun c hc => h c (List.mem_cons_of_mem _ hc)

/-- A byte written is the byte read, in a memory of canonical form. -/
theorem memGet_memPut_same (m : List Host.Cell) (a : Nat) (b : Byte) (h : memWf m = true) : memGet (memPut m a b) a = b := by
  induction m with
  | nil => unfold memPut; split <;> simp_all [memGet]
  | cons c m ih =>
    obtain ⟨k, v⟩ := c
    obtain ⟨_, hm, ha⟩ := (memWf_cons k v m).mp h
    unfold memPut; split
    · rename_i hk; subst hk; split
      · rename_i hb; rw [hb]; exact memGet_above m _ ha
      · simp [memGet]
    · rename_i hk; split
      · rename_i hlt; split
        · rename_i hb; rw [hb]
          refine memGet_above _ a ?_
          intro c hc; rcases List.mem_cons.mp hc with rfl | hc
          · exact hlt
          · exact Nat.lt_trans hlt (ha c hc)
        · simp [memGet]
      · simp only [memGet, hk, if_false]; exact ih hm

/-- A write leaves every other byte. -/
theorem memGet_memPut_other (m : List Host.Cell) (a x : Nat) (b : Byte) (hx : x ≠ a) : memGet (memPut m a b) x = memGet m x := by
  induction m with
  | nil =>
    unfold memPut; split
    · rfl
    · simp [memGet, Ne.symm hx]
  | cons c m ih =>
    obtain ⟨k, v⟩ := c
    unfold memPut; split
    · rename_i hk; subst hk; split <;> simp [memGet, Ne.symm hx]
    · split
      · split <;> simp [memGet, Ne.symm hx]
      · simp only [memGet, ih]

/-- A run of bytes leaves every byte outside it. -/
theorem memGet_memPuts_other (bs : List Byte) (m : List Host.Cell) (a x : Nat) (h : x < a ∨ a + bs.length ≤ x) : memGet (memPuts m a bs) x = memGet m x := by
  induction bs generalizing m a with
  | nil => rfl
  | cons b bs ih =>
    simp only [List.length_cons] at h
    rw [memPuts, ih _ _ (by omega), memGet_memPut_other _ _ _ _ (by omega)]

/-- A byte of a run written is the byte read. -/
theorem memGet_memPuts_same (bs : List Byte) (m : List Host.Cell) (a i : Nat) (hw : memWf m = true) (hi : i < bs.length) :
    memGet (memPuts m a bs) (a + i) = bs.getD i 0#8 := by
  induction bs generalizing m a i with
  | nil => simp at hi
  | cons b bs ih =>
    rw [memPuts]
    cases i with
    | zero =>
      rw [memGet_memPuts_other _ _ _ _ (by omega)]
      simpa using memGet_memPut_same m a b hw
    | succ i =>
      have := ih (memPut m a b) (a + 1) i (memWf_memPut m a b hw) (by simpa using hi)
      rw [show a + (i + 1) = a + 1 + i by omega, this]
      simp

/-- Writes keep the canonical form. -/
theorem State.wr_memWf (s : State) (a : Nat) (bs : List Byte) (h : memWf s.mem = true) : memWf (s.wr a bs).mem = true := memWf_memPuts bs s.mem a h
theorem State.wrWords_memWf (s : State) (a : Nat) (ws : List Nat) (h : memWf s.mem = true) : memWf (s.wrWords a ws).mem = true := memWf_memPuts _ s.mem a h
theorem State.wrAll_memWf (s : State) (ws : List (Nat × List Byte)) (h : memWf s.mem = true) : memWf (s.wrAll ws).mem = true := by
  unfold State.wrAll
  induction ws generalizing s with
  | nil => exact h
  | cons w ws ih => exact ih _ (s.wr_memWf w.1 w.2 h)

/-- A write reads back, byte by byte. -/
theorem State.rd1_wr_same (s : State) (a i : Nat) (bs : List Byte) (hw : memWf s.mem = true) (hi : i < bs.length) :
    (s.wr a bs).rd1 (a + i) = bs.getD i 0#8 := memGet_memPuts_same bs s.mem a i hw hi
/-- A write leaves every byte outside it. -/
theorem State.rd1_wr_other (s : State) (a x : Nat) (bs : List Byte) (h : x < a ∨ a + bs.length ≤ x) : (s.wr a bs).rd1 x = s.rd1 x :=
  memGet_memPuts_other bs s.mem a x h

end Sys2Proof.Machine
end

