-- ==== Sys2Proof/Laws/State.lean ====
section
/-! SUPPORT. One lemma per update: the fields of the state that it leaves are the fields before it, so that a proof need not unfold the update. -/

namespace Sys2Proof.Machine
open Sys2Proof

/-- `State.wr` changes `mem` alone. -/
@[simp] theorem State.wr_fields (s : State) (a : Nat) (bs : List Byte) :
    (s.wr a bs).now = s.now ∧ (s.wr a bs).aon = s.aon ∧ (s.wr a bs).node = s.node ∧ (s.wr a bs).pw = s.pw ∧ (s.wr a bs).jt = s.jt ∧
    (s.wr a bs).boot = s.boot ∧ (s.wr a bs).pkg = s.pkg ∧ (s.wr a bs).work = s.work ∧ (s.wr a bs).fab = s.fab ∧ (s.wr a bs).adh = s.adh ∧
    (s.wr a bs).led = s.led ∧ (s.wr a bs).perf = s.perf ∧ (s.wr a bs).log = s.log ∧ (s.wr a bs).kv = s.kv ∧ (s.wr a bs).comps = s.comps ∧
    (s.wr a bs).own = s.own ∧ (s.wr a bs).prot = s.prot ∧ (s.wr a bs).lnk = s.lnk ∧ (s.wr a bs).time = s.time ∧ (s.wr a bs).tra = s.tra ∧
    (s.wr a bs).tier = s.tier ∧ (s.wr a bs).cb = s.cb ∧ (s.wr a bs).str = s.str ∧ (s.wr a bs).adm = s.adm ∧ (s.wr a bs).srch = s.srch ∧
    (s.wr a bs).free = s.free ∧ (s.wr a bs).pending = s.pending :=
  ⟨rfl, rfl, rfl, rfl, rfl, rfl, rfl, rfl, rfl, rfl, rfl, rfl, rfl, rfl, rfl, rfl, rfl, rfl, rfl, rfl, rfl, rfl, rfl, rfl, rfl, rfl, rfl⟩

/-- `State.wrWords` changes `mem` alone. -/
@[simp] theorem State.wrWords_fields (s : State) (a : Nat) (ws : List Nat) :
    (s.wrWords a ws).now = s.now ∧ (s.wrWords a ws).aon = s.aon ∧ (s.wrWords a ws).node = s.node ∧ (s.wrWords a ws).pw = s.pw ∧
    (s.wrWords a ws).jt = s.jt ∧ (s.wrWords a ws).boot = s.boot ∧ (s.wrWords a ws).pkg = s.pkg ∧ (s.wrWords a ws).work = s.work ∧
    (s.wrWords a ws).fab = s.fab ∧ (s.wrWords a ws).adh = s.adh ∧ (s.wrWords a ws).led = s.led ∧ (s.wrWords a ws).perf = s.perf ∧
    (s.wrWords a ws).log = s.log ∧ (s.wrWords a ws).kv = s.kv ∧ (s.wrWords a ws).comps = s.comps ∧ (s.wrWords a ws).own = s.own ∧
    (s.wrWords a ws).prot = s.prot ∧ (s.wrWords a ws).lnk = s.lnk ∧ (s.wrWords a ws).time = s.time ∧ (s.wrWords a ws).tra = s.tra ∧
    (s.wrWords a ws).tier = s.tier ∧ (s.wrWords a ws).cb = s.cb ∧ (s.wrWords a ws).str = s.str ∧ (s.wrWords a ws).adm = s.adm ∧
    (s.wrWords a ws).srch = s.srch ∧ (s.wrWords a ws).free = s.free ∧ (s.wrWords a ws).pending = s.pending :=
  State.wr_fields s a (bytesOfWords ws)

/-- `State.setDesc` changes `mem` alone. -/
@[simp] theorem State.setDesc_fields (s : State) (da : Nat) (d : Desc) :
    (s.setDesc da d).now = s.now ∧ (s.setDesc da d).aon = s.aon ∧ (s.setDesc da d).node = s.node ∧ (s.setDesc da d).pw = s.pw ∧
    (s.setDesc da d).jt = s.jt ∧ (s.setDesc da d).boot = s.boot ∧ (s.setDesc da d).pkg = s.pkg ∧ (s.setDesc da d).work = s.work ∧
    (s.setDesc da d).fab = s.fab ∧ (s.setDesc da d).adh = s.adh ∧ (s.setDesc da d).led = s.led ∧ (s.setDesc da d).perf = s.perf ∧
    (s.setDesc da d).log = s.log ∧ (s.setDesc da d).kv = s.kv ∧ (s.setDesc da d).comps = s.comps ∧ (s.setDesc da d).own = s.own ∧
    (s.setDesc da d).prot = s.prot ∧ (s.setDesc da d).lnk = s.lnk ∧ (s.setDesc da d).time = s.time ∧ (s.setDesc da d).tra = s.tra ∧
    (s.setDesc da d).tier = s.tier ∧ (s.setDesc da d).cb = s.cb ∧ (s.setDesc da d).str = s.str ∧ (s.setDesc da d).adm = s.adm ∧
    (s.setDesc da d).srch = s.srch ∧ (s.setDesc da d).free = s.free ∧ (s.setDesc da d).pending = s.pending :=
  State.wrWords_fields s da d.words

/-- `State.setMapEntry` changes `mem` alone. -/
@[simp] theorem State.setMapEntry_fields (s : State) (r : Req) (l h b da : Nat) :
    (s.setMapEntry r l h b da).now = s.now ∧ (s.setMapEntry r l h b da).aon = s.aon ∧ (s.setMapEntry r l h b da).node = s.node ∧
    (s.setMapEntry r l h b da).pw = s.pw ∧ (s.setMapEntry r l h b da).jt = s.jt ∧ (s.setMapEntry r l h b da).boot = s.boot ∧
    (s.setMapEntry r l h b da).pkg = s.pkg ∧ (s.setMapEntry r l h b da).work = s.work ∧ (s.setMapEntry r l h b da).fab = s.fab ∧
    (s.setMapEntry r l h b da).adh = s.adh ∧ (s.setMapEntry r l h b da).led = s.led ∧ (s.setMapEntry r l h b da).perf = s.perf ∧
    (s.setMapEntry r l h b da).log = s.log ∧ (s.setMapEntry r l h b da).kv = s.kv ∧ (s.setMapEntry r l h b da).comps = s.comps ∧
    (s.setMapEntry r l h b da).own = s.own ∧ (s.setMapEntry r l h b da).prot = s.prot ∧ (s.setMapEntry r l h b da).lnk = s.lnk ∧
    (s.setMapEntry r l h b da).time = s.time ∧ (s.setMapEntry r l h b da).tra = s.tra ∧ (s.setMapEntry r l h b da).tier = s.tier ∧
    (s.setMapEntry r l h b da).cb = s.cb ∧ (s.setMapEntry r l h b da).str = s.str ∧ (s.setMapEntry r l h b da).adm = s.adm ∧
    (s.setMapEntry r l h b da).srch = s.srch ∧ (s.setMapEntry r l h b da).free = s.free ∧ (s.setMapEntry r l h b da).pending = s.pending :=
  State.wrWords_fields s (s.mapAddr r l h b) [da]

/-- `State.setCbSet` changes `mem` alone. -/
@[simp] theorem State.setCbSet_fields (s : State) (ctx e : Nat) (x : CbSet) :
    (s.setCbSet ctx e x).now = s.now ∧ (s.setCbSet ctx e x).aon = s.aon ∧ (s.setCbSet ctx e x).node = s.node ∧ (s.setCbSet ctx e x).pw = s.pw ∧
    (s.setCbSet ctx e x).jt = s.jt ∧ (s.setCbSet ctx e x).boot = s.boot ∧ (s.setCbSet ctx e x).pkg = s.pkg ∧ (s.setCbSet ctx e x).work = s.work ∧
    (s.setCbSet ctx e x).fab = s.fab ∧ (s.setCbSet ctx e x).adh = s.adh ∧ (s.setCbSet ctx e x).led = s.led ∧ (s.setCbSet ctx e x).perf = s.perf ∧
    (s.setCbSet ctx e x).log = s.log ∧ (s.setCbSet ctx e x).kv = s.kv ∧ (s.setCbSet ctx e x).comps = s.comps ∧ (s.setCbSet ctx e x).own = s.own ∧
    (s.setCbSet ctx e x).prot = s.prot ∧ (s.setCbSet ctx e x).lnk = s.lnk ∧ (s.setCbSet ctx e x).time = s.time ∧ (s.setCbSet ctx e x).tra = s.tra ∧
    (s.setCbSet ctx e x).tier = s.tier ∧ (s.setCbSet ctx e x).cb = s.cb ∧ (s.setCbSet ctx e x).str = s.str ∧ (s.setCbSet ctx e x).adm = s.adm ∧
    (s.setCbSet ctx e x).srch = s.srch ∧ (s.setCbSet ctx e x).free = s.free ∧ (s.setCbSet ctx e x).pending = s.pending :=
  State.wrWords_fields s _ x.words

/-- `State.setVi` changes `work` alone. -/
@[simp] theorem State.setVi_fields (s : State) (v : Nat) (x : Vi) :
    (s.setVi v x).now = s.now ∧ (s.setVi v x).aon = s.aon ∧ (s.setVi v x).node = s.node ∧ (s.setVi v x).pw = s.pw ∧ (s.setVi v x).jt = s.jt ∧
    (s.setVi v x).boot = s.boot ∧ (s.setVi v x).pkg = s.pkg ∧ (s.setVi v x).fab = s.fab ∧ (s.setVi v x).mem = s.mem ∧ (s.setVi v x).adh = s.adh ∧
    (s.setVi v x).led = s.led ∧ (s.setVi v x).perf = s.perf ∧ (s.setVi v x).log = s.log ∧ (s.setVi v x).kv = s.kv ∧ (s.setVi v x).comps = s.comps ∧
    (s.setVi v x).own = s.own ∧ (s.setVi v x).prot = s.prot ∧ (s.setVi v x).lnk = s.lnk ∧ (s.setVi v x).time = s.time ∧ (s.setVi v x).tra = s.tra ∧
    (s.setVi v x).tier = s.tier ∧ (s.setVi v x).cb = s.cb ∧ (s.setVi v x).str = s.str ∧ (s.setVi v x).adm = s.adm ∧ (s.setVi v x).srch = s.srch ∧
    (s.setVi v x).free = s.free ∧ (s.setVi v x).pending = s.pending ∧ (s.setVi v x).work.cmds = s.work.cmds ∧
    (s.setVi v x).work.queues = s.work.queues ∧ (s.setVi v x).work.insts = s.work.insts ∧ (s.setVi v x).work.ctxs = s.work.ctxs ∧
    (s.setVi v x).work.nextCid = s.work.nextCid :=
  ⟨rfl, rfl, rfl, rfl, rfl, rfl, rfl, rfl, rfl, rfl, rfl, rfl, rfl, rfl, rfl, rfl, rfl, rfl, rfl, rfl, rfl, rfl, rfl, rfl, rfl, rfl, rfl, rfl, rfl, rfl, rfl, rfl⟩

/-- `State.updVi` changes `work` alone. -/
@[simp] theorem State.updVi_fields (s : State) (v : Nat) (f : Vi → Vi) :
    (s.updVi v f).now = s.now ∧ (s.updVi v f).aon = s.aon ∧ (s.updVi v f).node = s.node ∧ (s.updVi v f).pw = s.pw ∧ (s.updVi v f).jt = s.jt ∧
    (s.updVi v f).boot = s.boot ∧ (s.updVi v f).pkg = s.pkg ∧ (s.updVi v f).fab = s.fab ∧ (s.updVi v f).mem = s.mem ∧ (s.updVi v f).adh = s.adh ∧
    (s.updVi v f).led = s.led ∧ (s.updVi v f).perf = s.perf ∧ (s.updVi v f).log = s.log ∧ (s.updVi v f).kv = s.kv ∧ (s.updVi v f).comps = s.comps ∧
    (s.updVi v f).own = s.own ∧ (s.updVi v f).prot = s.prot ∧ (s.updVi v f).lnk = s.lnk ∧ (s.updVi v f).time = s.time ∧ (s.updVi v f).tra = s.tra ∧
    (s.updVi v f).tier = s.tier ∧ (s.updVi v f).cb = s.cb ∧ (s.updVi v f).str = s.str ∧ (s.updVi v f).adm = s.adm ∧ (s.updVi v f).srch = s.srch ∧
    (s.updVi v f).free = s.free ∧ (s.updVi v f).pending = s.pending ∧ (s.updVi v f).work.cmds = s.work.cmds ∧
    (s.updVi v f).work.queues = s.work.queues ∧ (s.updVi v f).work.insts = s.work.insts ∧ (s.updVi v f).work.ctxs = s.work.ctxs ∧
    (s.updVi v f).work.nextCid = s.work.nextCid :=
  State.setVi_fields s v (f (s.vi v))

/-- `State.account` changes `work` alone. -/
@[simp] theorem State.account_fields (s : State) (v cls k n : Nat) :
    (s.account v cls k n).now = s.now ∧ (s.account v cls k n).aon = s.aon ∧ (s.account v cls k n).node = s.node ∧ (s.account v cls k n).pw = s.pw ∧
    (s.account v cls k n).jt = s.jt ∧ (s.account v cls k n).boot = s.boot ∧ (s.account v cls k n).pkg = s.pkg ∧ (s.account v cls k n).fab = s.fab ∧
    (s.account v cls k n).mem = s.mem ∧ (s.account v cls k n).adh = s.adh ∧ (s.account v cls k n).led = s.led ∧ (s.account v cls k n).perf = s.perf ∧
    (s.account v cls k n).log = s.log ∧ (s.account v cls k n).kv = s.kv ∧ (s.account v cls k n).comps = s.comps ∧ (s.account v cls k n).own = s.own ∧
    (s.account v cls k n).prot = s.prot ∧ (s.account v cls k n).lnk = s.lnk ∧ (s.account v cls k n).time = s.time ∧
    (s.account v cls k n).tra = s.tra ∧ (s.account v cls k n).tier = s.tier ∧ (s.account v cls k n).cb = s.cb ∧ (s.account v cls k n).str = s.str ∧
    (s.account v cls k n).adm = s.adm ∧ (s.account v cls k n).srch = s.srch ∧ (s.account v cls k n).free = s.free ∧
    (s.account v cls k n).pending = s.pending ∧ (s.account v cls k n).work.cmds = s.work.cmds ∧ (s.account v cls k n).work.queues = s.work.queues ∧
    (s.account v cls k n).work.insts = s.work.insts ∧ (s.account v cls k n).work.ctxs = s.work.ctxs ∧
    (s.account v cls k n).work.nextCid = s.work.nextCid :=
  State.updVi_fields s v _

/-- `State.setQueue` changes `work` alone. -/
@[simp] theorem State.setQueue_fields (s : State) (k : QKey) (q : Queue) :
    (s.setQueue k q).now = s.now ∧ (s.setQueue k q).aon = s.aon ∧ (s.setQueue k q).node = s.node ∧ (s.setQueue k q).pw = s.pw ∧
    (s.setQueue k q).jt = s.jt ∧ (s.setQueue k q).boot = s.boot ∧ (s.setQueue k q).pkg = s.pkg ∧ (s.setQueue k q).fab = s.fab ∧
    (s.setQueue k q).mem = s.mem ∧ (s.setQueue k q).adh = s.adh ∧ (s.setQueue k q).led = s.led ∧ (s.setQueue k q).perf = s.perf ∧
    (s.setQueue k q).log = s.log ∧ (s.setQueue k q).kv = s.kv ∧ (s.setQueue k q).comps = s.comps ∧ (s.setQueue k q).own = s.own ∧
    (s.setQueue k q).prot = s.prot ∧ (s.setQueue k q).lnk = s.lnk ∧ (s.setQueue k q).time = s.time ∧ (s.setQueue k q).tra = s.tra ∧
    (s.setQueue k q).tier = s.tier ∧ (s.setQueue k q).cb = s.cb ∧ (s.setQueue k q).str = s.str ∧ (s.setQueue k q).adm = s.adm ∧
    (s.setQueue k q).srch = s.srch ∧ (s.setQueue k q).free = s.free ∧ (s.setQueue k q).pending = s.pending ∧ (s.setQueue k q).work.vis = s.work.vis ∧
    (s.setQueue k q).work.cmds = s.work.cmds ∧ (s.setQueue k q).work.insts = s.work.insts ∧ (s.setQueue k q).work.ctxs = s.work.ctxs ∧
    (s.setQueue k q).work.nextCid = s.work.nextCid :=
  ⟨rfl, rfl, rfl, rfl, rfl, rfl, rfl, rfl, rfl, rfl, rfl, rfl, rfl, rfl, rfl, rfl, rfl, rfl, rfl, rfl, rfl, rfl, rfl, rfl, rfl, rfl, rfl, rfl, rfl, rfl, rfl, rfl⟩

/-- `State.updCmd` changes `work` alone. -/
@[simp] theorem State.updCmd_fields (s : State) (cid : Nat) (f : Cmd → Cmd) :
    (s.updCmd cid f).now = s.now ∧ (s.updCmd cid f).aon = s.aon ∧ (s.updCmd cid f).node = s.node ∧ (s.updCmd cid f).pw = s.pw ∧
    (s.updCmd cid f).jt = s.jt ∧ (s.updCmd cid f).boot = s.boot ∧ (s.updCmd cid f).pkg = s.pkg ∧ (s.updCmd cid f).fab = s.fab ∧
    (s.updCmd cid f).mem = s.mem ∧ (s.updCmd cid f).adh = s.adh ∧ (s.updCmd cid f).led = s.led ∧ (s.updCmd cid f).perf = s.perf ∧
    (s.updCmd cid f).log = s.log ∧ (s.updCmd cid f).kv = s.kv ∧ (s.updCmd cid f).comps = s.comps ∧ (s.updCmd cid f).own = s.own ∧
    (s.updCmd cid f).prot = s.prot ∧ (s.updCmd cid f).lnk = s.lnk ∧ (s.updCmd cid f).time = s.time ∧ (s.updCmd cid f).tra = s.tra ∧
    (s.updCmd cid f).tier = s.tier ∧ (s.updCmd cid f).cb = s.cb ∧ (s.updCmd cid f).str = s.str ∧ (s.updCmd cid f).adm = s.adm ∧
    (s.updCmd cid f).srch = s.srch ∧ (s.updCmd cid f).free = s.free ∧ (s.updCmd cid f).pending = s.pending ∧ (s.updCmd cid f).work.vis = s.work.vis ∧
    (s.updCmd cid f).work.queues = s.work.queues ∧ (s.updCmd cid f).work.insts = s.work.insts ∧ (s.updCmd cid f).work.ctxs = s.work.ctxs ∧
    (s.updCmd cid f).work.nextCid = s.work.nextCid :=
  ⟨rfl, rfl, rfl, rfl, rfl, rfl, rfl, rfl, rfl, rfl, rfl, rfl, rfl, rfl, rfl, rfl, rfl, rfl, rfl, rfl, rfl, rfl, rfl, rfl, rfl, rfl, rfl, rfl, rfl, rfl, rfl, rfl⟩

/-- `State.updInst` changes `work` alone. -/
@[simp] theorem State.updInst_fields (s : State) (cls i : Nat) (f : Inst → Inst) :
    (s.updInst cls i f).now = s.now ∧ (s.updInst cls i f).aon = s.aon ∧ (s.updInst cls i f).node = s.node ∧ (s.updInst cls i f).pw = s.pw ∧
    (s.updInst cls i f).jt = s.jt ∧ (s.updInst cls i f).boot = s.boot ∧ (s.updInst cls i f).pkg = s.pkg ∧ (s.updInst cls i f).fab = s.fab ∧
    (s.updInst cls i f).mem = s.mem ∧ (s.updInst cls i f).adh = s.adh ∧ (s.updInst cls i f).led = s.led ∧ (s.updInst cls i f).perf = s.perf ∧
    (s.updInst cls i f).log = s.log ∧ (s.updInst cls i f).kv = s.kv ∧ (s.updInst cls i f).comps = s.comps ∧ (s.updInst cls i f).own = s.own ∧
    (s.updInst cls i f).prot = s.prot ∧ (s.updInst cls i f).lnk = s.lnk ∧ (s.updInst cls i f).time = s.time ∧ (s.updInst cls i f).tra = s.tra ∧
    (s.updInst cls i f).tier = s.tier ∧ (s.updInst cls i f).cb = s.cb ∧ (s.updInst cls i f).str = s.str ∧ (s.updInst cls i f).adm = s.adm ∧
    (s.updInst cls i f).srch = s.srch ∧ (s.updInst cls i f).free = s.free ∧ (s.updInst cls i f).pending = s.pending ∧
    (s.updInst cls i f).work.vis = s.work.vis ∧ (s.updInst cls i f).work.cmds = s.work.cmds ∧ (s.updInst cls i f).work.queues = s.work.queues ∧
    (s.updInst cls i f).work.ctxs = s.work.ctxs ∧ (s.updInst cls i f).work.nextCid = s.work.nextCid :=
  ⟨rfl, rfl, rfl, rfl, rfl, rfl, rfl, rfl, rfl, rfl, rfl, rfl, rfl, rfl, rfl, rfl, rfl, rfl, rfl, rfl, rfl, rfl, rfl, rfl, rfl, rfl, rfl, rfl, rfl, rfl, rfl, rfl⟩

/-- `State.updReq` changes `kv` alone. -/
@[simp] theorem State.updReq_fields (s : State) (rid : Nat) (f : Req → Req) :
    (s.updReq rid f).now = s.now ∧ (s.updReq rid f).aon = s.aon ∧ (s.updReq rid f).node = s.node ∧ (s.updReq rid f).pw = s.pw ∧
    (s.updReq rid f).jt = s.jt ∧ (s.updReq rid f).boot = s.boot ∧ (s.updReq rid f).pkg = s.pkg ∧ (s.updReq rid f).work = s.work ∧
    (s.updReq rid f).fab = s.fab ∧ (s.updReq rid f).mem = s.mem ∧ (s.updReq rid f).adh = s.adh ∧ (s.updReq rid f).led = s.led ∧
    (s.updReq rid f).perf = s.perf ∧ (s.updReq rid f).log = s.log ∧ (s.updReq rid f).comps = s.comps ∧ (s.updReq rid f).own = s.own ∧
    (s.updReq rid f).prot = s.prot ∧ (s.updReq rid f).lnk = s.lnk ∧ (s.updReq rid f).time = s.time ∧ (s.updReq rid f).tra = s.tra ∧
    (s.updReq rid f).tier = s.tier ∧ (s.updReq rid f).cb = s.cb ∧ (s.updReq rid f).str = s.str ∧ (s.updReq rid f).adm = s.adm ∧
    (s.updReq rid f).srch = s.srch ∧ (s.updReq rid f).free = s.free ∧ (s.updReq rid f).pending = s.pending ∧
    (s.updReq rid f).kv.arenas = s.kv.arenas ∧ (s.updReq rid f).kv.handles = s.kv.handles ∧ (s.updReq rid f).kv.toFree = s.kv.toFree ∧
    (s.updReq rid f).kv.attached = s.kv.attached :=
  ⟨rfl, rfl, rfl, rfl, rfl, rfl, rfl, rfl, rfl, rfl, rfl, rfl, rfl, rfl, rfl, rfl, rfl, rfl, rfl, rfl, rfl, rfl, rfl, rfl, rfl, rfl, rfl, rfl, rfl, rfl, rfl⟩

/-- `State.setReq` changes `kv` alone. -/
@[simp] theorem State.setReq_fields (s : State) (rid : Nat) (r : Req) :
    (s.setReq rid r).now = s.now ∧ (s.setReq rid r).aon = s.aon ∧ (s.setReq rid r).node = s.node ∧ (s.setReq rid r).pw = s.pw ∧
    (s.setReq rid r).jt = s.jt ∧ (s.setReq rid r).boot = s.boot ∧ (s.setReq rid r).pkg = s.pkg ∧ (s.setReq rid r).work = s.work ∧
    (s.setReq rid r).fab = s.fab ∧ (s.setReq rid r).mem = s.mem ∧ (s.setReq rid r).adh = s.adh ∧ (s.setReq rid r).led = s.led ∧
    (s.setReq rid r).perf = s.perf ∧ (s.setReq rid r).log = s.log ∧ (s.setReq rid r).comps = s.comps ∧ (s.setReq rid r).own = s.own ∧
    (s.setReq rid r).prot = s.prot ∧ (s.setReq rid r).lnk = s.lnk ∧ (s.setReq rid r).time = s.time ∧ (s.setReq rid r).tra = s.tra ∧
    (s.setReq rid r).tier = s.tier ∧ (s.setReq rid r).cb = s.cb ∧ (s.setReq rid r).str = s.str ∧ (s.setReq rid r).adm = s.adm ∧
    (s.setReq rid r).srch = s.srch ∧ (s.setReq rid r).free = s.free ∧ (s.setReq rid r).pending = s.pending ∧
    (s.setReq rid r).kv.arenas = s.kv.arenas ∧ (s.setReq rid r).kv.handles = s.kv.handles ∧ (s.setReq rid r).kv.toFree = s.kv.toFree ∧
    (s.setReq rid r).kv.attached = s.kv.attached :=
  ⟨rfl, rfl, rfl, rfl, rfl, rfl, rfl, rfl, rfl, rfl, rfl, rfl, rfl, rfl, rfl, rfl, rfl, rfl, rfl, rfl, rfl, rfl, rfl, rfl, rfl, rfl, rfl, rfl, rfl, rfl, rfl⟩

/-- `State.freeReq` changes `kv` alone. -/
@[simp] theorem State.freeReq_fields (s : State) (rid : Nat) :
    (s.freeReq rid).now = s.now ∧ (s.freeReq rid).aon = s.aon ∧ (s.freeReq rid).node = s.node ∧ (s.freeReq rid).pw = s.pw ∧
    (s.freeReq rid).jt = s.jt ∧ (s.freeReq rid).boot = s.boot ∧ (s.freeReq rid).pkg = s.pkg ∧ (s.freeReq rid).work = s.work ∧
    (s.freeReq rid).fab = s.fab ∧ (s.freeReq rid).mem = s.mem ∧ (s.freeReq rid).adh = s.adh ∧ (s.freeReq rid).led = s.led ∧
    (s.freeReq rid).perf = s.perf ∧ (s.freeReq rid).log = s.log ∧ (s.freeReq rid).comps = s.comps ∧ (s.freeReq rid).own = s.own ∧
    (s.freeReq rid).prot = s.prot ∧ (s.freeReq rid).lnk = s.lnk ∧ (s.freeReq rid).time = s.time ∧ (s.freeReq rid).tra = s.tra ∧
    (s.freeReq rid).tier = s.tier ∧ (s.freeReq rid).cb = s.cb ∧ (s.freeReq rid).str = s.str ∧ (s.freeReq rid).adm = s.adm ∧
    (s.freeReq rid).srch = s.srch ∧ (s.freeReq rid).free = s.free ∧ (s.freeReq rid).pending = s.pending ∧ (s.freeReq rid).kv.arenas = s.kv.arenas ∧
    (s.freeReq rid).kv.handles = s.kv.handles ∧ (s.freeReq rid).kv.toFree = s.kv.toFree ∧ (s.freeReq rid).kv.attached = s.kv.attached :=
  ⟨rfl, rfl, rfl, rfl, rfl, rfl, rfl, rfl, rfl, rfl, rfl, rfl, rfl, rfl, rfl, rfl, rfl, rfl, rfl, rfl, rfl, rfl, rfl, rfl, rfl, rfl, rfl, rfl, rfl, rfl, rfl⟩

/-- `State.setEntry` changes `own` alone. -/
@[simp] theorem State.setEntry_fields (s : State) (rid : Nat) (e : DirEntry) :
    (s.setEntry rid e).now = s.now ∧ (s.setEntry rid e).aon = s.aon ∧ (s.setEntry rid e).node = s.node ∧ (s.setEntry rid e).pw = s.pw ∧
    (s.setEntry rid e).jt = s.jt ∧ (s.setEntry rid e).boot = s.boot ∧ (s.setEntry rid e).pkg = s.pkg ∧ (s.setEntry rid e).work = s.work ∧
    (s.setEntry rid e).fab = s.fab ∧ (s.setEntry rid e).mem = s.mem ∧ (s.setEntry rid e).adh = s.adh ∧ (s.setEntry rid e).led = s.led ∧
    (s.setEntry rid e).perf = s.perf ∧ (s.setEntry rid e).log = s.log ∧ (s.setEntry rid e).kv = s.kv ∧ (s.setEntry rid e).comps = s.comps ∧
    (s.setEntry rid e).prot = s.prot ∧ (s.setEntry rid e).lnk = s.lnk ∧ (s.setEntry rid e).time = s.time ∧ (s.setEntry rid e).tra = s.tra ∧
    (s.setEntry rid e).tier = s.tier ∧ (s.setEntry rid e).cb = s.cb ∧ (s.setEntry rid e).str = s.str ∧ (s.setEntry rid e).adm = s.adm ∧
    (s.setEntry rid e).srch = s.srch ∧ (s.setEntry rid e).free = s.free ∧ (s.setEntry rid e).pending = s.pending ∧
    (s.setEntry rid e).own.holds = s.own.holds ∧ (s.setEntry rid e).own.pulls = s.own.pulls ∧ (s.setEntry rid e).own.homeLeases = s.own.homeLeases ∧
    (s.setEntry rid e).own.nextSeq = s.own.nextSeq :=
  ⟨rfl, rfl, rfl, rfl, rfl, rfl, rfl, rfl, rfl, rfl, rfl, rfl, rfl, rfl, rfl, rfl, rfl, rfl, rfl, rfl, rfl, rfl, rfl, rfl, rfl, rfl, rfl, rfl, rfl, rfl, rfl⟩

/-- `State.setHold` changes `own` alone. -/
@[simp] theorem State.setHold_fields (s : State) (rid : Nat) (h : HoldState) :
    (s.setHold rid h).now = s.now ∧ (s.setHold rid h).aon = s.aon ∧ (s.setHold rid h).node = s.node ∧ (s.setHold rid h).pw = s.pw ∧
    (s.setHold rid h).jt = s.jt ∧ (s.setHold rid h).boot = s.boot ∧ (s.setHold rid h).pkg = s.pkg ∧ (s.setHold rid h).work = s.work ∧
    (s.setHold rid h).fab = s.fab ∧ (s.setHold rid h).mem = s.mem ∧ (s.setHold rid h).adh = s.adh ∧ (s.setHold rid h).led = s.led ∧
    (s.setHold rid h).perf = s.perf ∧ (s.setHold rid h).log = s.log ∧ (s.setHold rid h).kv = s.kv ∧ (s.setHold rid h).comps = s.comps ∧
    (s.setHold rid h).prot = s.prot ∧ (s.setHold rid h).lnk = s.lnk ∧ (s.setHold rid h).time = s.time ∧ (s.setHold rid h).tra = s.tra ∧
    (s.setHold rid h).tier = s.tier ∧ (s.setHold rid h).cb = s.cb ∧ (s.setHold rid h).str = s.str ∧ (s.setHold rid h).adm = s.adm ∧
    (s.setHold rid h).srch = s.srch ∧ (s.setHold rid h).free = s.free ∧ (s.setHold rid h).pending = s.pending ∧
    (s.setHold rid h).own.dir = s.own.dir ∧ (s.setHold rid h).own.pulls = s.own.pulls ∧ (s.setHold rid h).own.homeLeases = s.own.homeLeases ∧
    (s.setHold rid h).own.nextSeq = s.own.nextSeq :=
  ⟨rfl, rfl, rfl, rfl, rfl, rfl, rfl, rfl, rfl, rfl, rfl, rfl, rfl, rfl, rfl, rfl, rfl, rfl, rfl, rfl, rfl, rfl, rfl, rfl, rfl, rfl, rfl, rfl, rfl, rfl, rfl⟩

/-- `State.setBridge` changes `str` alone. -/
@[simp] theorem State.setBridge_fields (s : State) (rid : Nat) (b : BridgeReq) :
    (s.setBridge rid b).now = s.now ∧ (s.setBridge rid b).aon = s.aon ∧ (s.setBridge rid b).node = s.node ∧ (s.setBridge rid b).pw = s.pw ∧
    (s.setBridge rid b).jt = s.jt ∧ (s.setBridge rid b).boot = s.boot ∧ (s.setBridge rid b).pkg = s.pkg ∧ (s.setBridge rid b).work = s.work ∧
    (s.setBridge rid b).fab = s.fab ∧ (s.setBridge rid b).mem = s.mem ∧ (s.setBridge rid b).adh = s.adh ∧ (s.setBridge rid b).led = s.led ∧
    (s.setBridge rid b).perf = s.perf ∧ (s.setBridge rid b).log = s.log ∧ (s.setBridge rid b).kv = s.kv ∧ (s.setBridge rid b).comps = s.comps ∧
    (s.setBridge rid b).own = s.own ∧ (s.setBridge rid b).prot = s.prot ∧ (s.setBridge rid b).lnk = s.lnk ∧ (s.setBridge rid b).time = s.time ∧
    (s.setBridge rid b).tra = s.tra ∧ (s.setBridge rid b).tier = s.tier ∧ (s.setBridge rid b).cb = s.cb ∧ (s.setBridge rid b).adm = s.adm ∧
    (s.setBridge rid b).srch = s.srch ∧ (s.setBridge rid b).free = s.free ∧ (s.setBridge rid b).pending = s.pending ∧
    (s.setBridge rid b).str.commits = s.str.commits ∧ (s.setBridge rid b).str.acks = s.str.acks ∧ (s.setBridge rid b).str.lost = s.str.lost ∧
    (s.setBridge rid b).str.marks = s.str.marks ∧ (s.setBridge rid b).str.done_ = s.str.done_ ∧ (s.setBridge rid b).str.opening = s.str.opening ∧
    (s.setBridge rid b).str.streams = s.str.streams ∧ (s.setBridge rid b).str.flags = s.str.flags :=
  ⟨rfl, rfl, rfl, rfl, rfl, rfl, rfl, rfl, rfl, rfl, rfl, rfl, rfl, rfl, rfl, rfl, rfl, rfl, rfl, rfl, rfl, rfl, rfl, rfl, rfl, rfl, rfl, rfl, rfl, rfl, rfl, rfl, rfl, rfl, rfl⟩

/-- `State.updAdm` changes `adm` alone. -/
@[simp] theorem State.updAdm_fields (s : State) (c : Nat) (f : AdmComp → AdmComp) :
    (s.updAdm c f).now = s.now ∧ (s.updAdm c f).aon = s.aon ∧ (s.updAdm c f).node = s.node ∧ (s.updAdm c f).pw = s.pw ∧ (s.updAdm c f).jt = s.jt ∧
    (s.updAdm c f).boot = s.boot ∧ (s.updAdm c f).pkg = s.pkg ∧ (s.updAdm c f).work = s.work ∧ (s.updAdm c f).fab = s.fab ∧
    (s.updAdm c f).mem = s.mem ∧ (s.updAdm c f).adh = s.adh ∧ (s.updAdm c f).led = s.led ∧ (s.updAdm c f).perf = s.perf ∧ (s.updAdm c f).log = s.log ∧
    (s.updAdm c f).kv = s.kv ∧ (s.updAdm c f).comps = s.comps ∧ (s.updAdm c f).own = s.own ∧ (s.updAdm c f).prot = s.prot ∧
    (s.updAdm c f).lnk = s.lnk ∧ (s.updAdm c f).time = s.time ∧ (s.updAdm c f).tra = s.tra ∧ (s.updAdm c f).tier = s.tier ∧ (s.updAdm c f).cb = s.cb ∧
    (s.updAdm c f).str = s.str ∧ (s.updAdm c f).srch = s.srch ∧ (s.updAdm c f).free = s.free ∧ (s.updAdm c f).pending = s.pending :=
  ⟨rfl, rfl, rfl, rfl, rfl, rfl, rfl, rfl, rfl, rfl, rfl, rfl, rfl, rfl, rfl, rfl, rfl, rfl, rfl, rfl, rfl, rfl, rfl, rfl, rfl, rfl, rfl⟩

/-- `State.updComp` changes `comps` alone. -/
@[simp] theorem State.updComp_fields (s : State) (c : Nat) (f : Comp → Comp) :
    (s.updComp c f).now = s.now ∧ (s.updComp c f).aon = s.aon ∧ (s.updComp c f).node = s.node ∧ (s.updComp c f).pw = s.pw ∧
    (s.updComp c f).jt = s.jt ∧ (s.updComp c f).boot = s.boot ∧ (s.updComp c f).pkg = s.pkg ∧ (s.updComp c f).work = s.work ∧
    (s.updComp c f).fab = s.fab ∧ (s.updComp c f).mem = s.mem ∧ (s.updComp c f).adh = s.adh ∧ (s.updComp c f).led = s.led ∧
    (s.updComp c f).perf = s.perf ∧ (s.updComp c f).log = s.log ∧ (s.updComp c f).kv = s.kv ∧ (s.updComp c f).own = s.own ∧
    (s.updComp c f).prot = s.prot ∧ (s.updComp c f).lnk = s.lnk ∧ (s.updComp c f).time = s.time ∧ (s.updComp c f).tra = s.tra ∧
    (s.updComp c f).tier = s.tier ∧ (s.updComp c f).cb = s.cb ∧ (s.updComp c f).str = s.str ∧ (s.updComp c f).adm = s.adm ∧
    (s.updComp c f).srch = s.srch ∧ (s.updComp c f).free = s.free ∧ (s.updComp c f).pending = s.pending :=
  ⟨rfl, rfl, rfl, rfl, rfl, rfl, rfl, rfl, rfl, rfl, rfl, rfl, rfl, rfl, rfl, rfl, rfl, rfl, rfl, rfl, rfl, rfl, rfl, rfl, rfl, rfl, rfl⟩

/-- `State.setPort` changes `lnk` alone. -/
@[simp] theorem State.setPort_fields (s : State) (p : Nat) (x : Port) :
    (s.setPort p x).now = s.now ∧ (s.setPort p x).aon = s.aon ∧ (s.setPort p x).node = s.node ∧ (s.setPort p x).pw = s.pw ∧
    (s.setPort p x).jt = s.jt ∧ (s.setPort p x).boot = s.boot ∧ (s.setPort p x).pkg = s.pkg ∧ (s.setPort p x).work = s.work ∧
    (s.setPort p x).fab = s.fab ∧ (s.setPort p x).mem = s.mem ∧ (s.setPort p x).adh = s.adh ∧ (s.setPort p x).led = s.led ∧
    (s.setPort p x).perf = s.perf ∧ (s.setPort p x).log = s.log ∧ (s.setPort p x).kv = s.kv ∧ (s.setPort p x).comps = s.comps ∧
    (s.setPort p x).own = s.own ∧ (s.setPort p x).prot = s.prot ∧ (s.setPort p x).time = s.time ∧ (s.setPort p x).tra = s.tra ∧
    (s.setPort p x).tier = s.tier ∧ (s.setPort p x).cb = s.cb ∧ (s.setPort p x).str = s.str ∧ (s.setPort p x).adm = s.adm ∧
    (s.setPort p x).srch = s.srch ∧ (s.setPort p x).free = s.free ∧ (s.setPort p x).pending = s.pending ∧ (s.setPort p x).lnk.split = s.lnk.split ∧
    (s.setPort p x).lnk.lanes = s.lnk.lanes :=
  ⟨rfl, rfl, rfl, rfl, rfl, rfl, rfl, rfl, rfl, rfl, rfl, rfl, rfl, rfl, rfl, rfl, rfl, rfl, rfl, rfl, rfl, rfl, rfl, rfl, rfl, rfl, rfl, rfl, rfl⟩

/-- `State.updPort` changes `lnk` alone. -/
@[simp] theorem State.updPort_fields (s : State) (p : Nat) (f : Port → Port) :
    (s.updPort p f).now = s.now ∧ (s.updPort p f).aon = s.aon ∧ (s.updPort p f).node = s.node ∧ (s.updPort p f).pw = s.pw ∧
    (s.updPort p f).jt = s.jt ∧ (s.updPort p f).boot = s.boot ∧ (s.updPort p f).pkg = s.pkg ∧ (s.updPort p f).work = s.work ∧
    (s.updPort p f).fab = s.fab ∧ (s.updPort p f).mem = s.mem ∧ (s.updPort p f).adh = s.adh ∧ (s.updPort p f).led = s.led ∧
    (s.updPort p f).perf = s.perf ∧ (s.updPort p f).log = s.log ∧ (s.updPort p f).kv = s.kv ∧ (s.updPort p f).comps = s.comps ∧
    (s.updPort p f).own = s.own ∧ (s.updPort p f).prot = s.prot ∧ (s.updPort p f).time = s.time ∧ (s.updPort p f).tra = s.tra ∧
    (s.updPort p f).tier = s.tier ∧ (s.updPort p f).cb = s.cb ∧ (s.updPort p f).str = s.str ∧ (s.updPort p f).adm = s.adm ∧
    (s.updPort p f).srch = s.srch ∧ (s.updPort p f).free = s.free ∧ (s.updPort p f).pending = s.pending ∧ (s.updPort p f).lnk.split = s.lnk.split ∧
    (s.updPort p f).lnk.lanes = s.lnk.lanes :=
  State.setPort_fields s p (f (s.port p))

/-- `State.updPeer` changes `fab` alone. -/
@[simp] theorem State.updPeer_fields (s : State) (n : Nat) (f : Peer → Peer) :
    (s.updPeer n f).now = s.now ∧ (s.updPeer n f).aon = s.aon ∧ (s.updPeer n f).node = s.node ∧ (s.updPeer n f).pw = s.pw ∧
    (s.updPeer n f).jt = s.jt ∧ (s.updPeer n f).boot = s.boot ∧ (s.updPeer n f).pkg = s.pkg ∧ (s.updPeer n f).work = s.work ∧
    (s.updPeer n f).mem = s.mem ∧ (s.updPeer n f).adh = s.adh ∧ (s.updPeer n f).led = s.led ∧ (s.updPeer n f).perf = s.perf ∧
    (s.updPeer n f).log = s.log ∧ (s.updPeer n f).kv = s.kv ∧ (s.updPeer n f).comps = s.comps ∧ (s.updPeer n f).own = s.own ∧
    (s.updPeer n f).prot = s.prot ∧ (s.updPeer n f).lnk = s.lnk ∧ (s.updPeer n f).time = s.time ∧ (s.updPeer n f).tra = s.tra ∧
    (s.updPeer n f).tier = s.tier ∧ (s.updPeer n f).cb = s.cb ∧ (s.updPeer n f).str = s.str ∧ (s.updPeer n f).adm = s.adm ∧
    (s.updPeer n f).srch = s.srch ∧ (s.updPeer n f).free = s.free ∧ (s.updPeer n f).pending = s.pending ∧ (s.updPeer n f).fab.routes = s.fab.routes ∧
    (s.updPeer n f).fab.out = s.fab.out :=
  ⟨rfl, rfl, rfl, rfl, rfl, rfl, rfl, rfl, rfl, rfl, rfl, rfl, rfl, rfl, rfl, rfl, rfl, rfl, rfl, rfl, rfl, rfl, rfl, rfl, rfl, rfl, rfl, rfl, rfl⟩

/-- `State.updWindow` changes `fab` alone. -/
@[simp] theorem State.updWindow_fields (s : State) (w : Nat) (f : Window → Window) :
    (s.updWindow w f).now = s.now ∧ (s.updWindow w f).aon = s.aon ∧ (s.updWindow w f).node = s.node ∧ (s.updWindow w f).pw = s.pw ∧
    (s.updWindow w f).jt = s.jt ∧ (s.updWindow w f).boot = s.boot ∧ (s.updWindow w f).pkg = s.pkg ∧ (s.updWindow w f).work = s.work ∧
    (s.updWindow w f).mem = s.mem ∧ (s.updWindow w f).adh = s.adh ∧ (s.updWindow w f).led = s.led ∧ (s.updWindow w f).perf = s.perf ∧
    (s.updWindow w f).log = s.log ∧ (s.updWindow w f).kv = s.kv ∧ (s.updWindow w f).comps = s.comps ∧ (s.updWindow w f).own = s.own ∧
    (s.updWindow w f).prot = s.prot ∧ (s.updWindow w f).lnk = s.lnk ∧ (s.updWindow w f).time = s.time ∧ (s.updWindow w f).tra = s.tra ∧
    (s.updWindow w f).tier = s.tier ∧ (s.updWindow w f).cb = s.cb ∧ (s.updWindow w f).str = s.str ∧ (s.updWindow w f).adm = s.adm ∧
    (s.updWindow w f).srch = s.srch ∧ (s.updWindow w f).free = s.free ∧ (s.updWindow w f).pending = s.pending ∧
    (s.updWindow w f).fab.routes = s.fab.routes ∧ (s.updWindow w f).fab.out = s.fab.out ∧ (s.updWindow w f).fab.peers = s.fab.peers :=
  ⟨rfl, rfl, rfl, rfl, rfl, rfl, rfl, rfl, rfl, rfl, rfl, rfl, rfl, rfl, rfl, rfl, rfl, rfl, rfl, rfl, rfl, rfl, rfl, rfl, rfl, rfl, rfl, rfl, rfl, rfl⟩

/-- `State.setShaper` changes `tra` alone. -/
@[simp] theorem State.setShaper_fields (s : State) (vi c : Nat) (x : Shaper) :
    (s.setShaper vi c x).now = s.now ∧ (s.setShaper vi c x).aon = s.aon ∧ (s.setShaper vi c x).node = s.node ∧ (s.setShaper vi c x).pw = s.pw ∧
    (s.setShaper vi c x).jt = s.jt ∧ (s.setShaper vi c x).boot = s.boot ∧ (s.setShaper vi c x).pkg = s.pkg ∧ (s.setShaper vi c x).work = s.work ∧
    (s.setShaper vi c x).fab = s.fab ∧ (s.setShaper vi c x).mem = s.mem ∧ (s.setShaper vi c x).adh = s.adh ∧ (s.setShaper vi c x).led = s.led ∧
    (s.setShaper vi c x).perf = s.perf ∧ (s.setShaper vi c x).log = s.log ∧ (s.setShaper vi c x).kv = s.kv ∧ (s.setShaper vi c x).comps = s.comps ∧
    (s.setShaper vi c x).own = s.own ∧ (s.setShaper vi c x).prot = s.prot ∧ (s.setShaper vi c x).lnk = s.lnk ∧ (s.setShaper vi c x).time = s.time ∧
    (s.setShaper vi c x).tier = s.tier ∧ (s.setShaper vi c x).cb = s.cb ∧ (s.setShaper vi c x).str = s.str ∧ (s.setShaper vi c x).adm = s.adm ∧
    (s.setShaper vi c x).srch = s.srch ∧ (s.setShaper vi c x).free = s.free ∧ (s.setShaper vi c x).pending = s.pending ∧
    (s.setShaper vi c x).tra.classes = s.tra.classes ∧ (s.setShaper vi c x).tra.gates = s.tra.gates ∧
    (s.setShaper vi c x).tra.policers = s.tra.policers ∧ (s.setShaper vi c x).tra.telemetry = s.tra.telemetry ∧
    (s.setShaper vi c x).tra.permitted = s.tra.permitted :=
  ⟨rfl, rfl, rfl, rfl, rfl, rfl, rfl, rfl, rfl, rfl, rfl, rfl, rfl, rfl, rfl, rfl, rfl, rfl, rfl, rfl, rfl, rfl, rfl, rfl, rfl, rfl, rfl, rfl, rfl, rfl, rfl, rfl⟩

/-- `State.setPolicer` changes `tra` alone. -/
@[simp] theorem State.setPolicer_fields (s : State) (p q c : Nat) (x : Policer) :
    (s.setPolicer p q c x).now = s.now ∧ (s.setPolicer p q c x).aon = s.aon ∧ (s.setPolicer p q c x).node = s.node ∧
    (s.setPolicer p q c x).pw = s.pw ∧ (s.setPolicer p q c x).jt = s.jt ∧ (s.setPolicer p q c x).boot = s.boot ∧ (s.setPolicer p q c x).pkg = s.pkg ∧
    (s.setPolicer p q c x).work = s.work ∧ (s.setPolicer p q c x).fab = s.fab ∧ (s.setPolicer p q c x).mem = s.mem ∧
    (s.setPolicer p q c x).adh = s.adh ∧ (s.setPolicer p q c x).led = s.led ∧ (s.setPolicer p q c x).perf = s.perf ∧
    (s.setPolicer p q c x).log = s.log ∧ (s.setPolicer p q c x).kv = s.kv ∧ (s.setPolicer p q c x).comps = s.comps ∧
    (s.setPolicer p q c x).own = s.own ∧ (s.setPolicer p q c x).prot = s.prot ∧ (s.setPolicer p q c x).lnk = s.lnk ∧
    (s.setPolicer p q c x).time = s.time ∧ (s.setPolicer p q c x).tier = s.tier ∧ (s.setPolicer p q c x).cb = s.cb ∧
    (s.setPolicer p q c x).str = s.str ∧ (s.setPolicer p q c x).adm = s.adm ∧ (s.setPolicer p q c x).srch = s.srch ∧
    (s.setPolicer p q c x).free = s.free ∧ (s.setPolicer p q c x).pending = s.pending ∧ (s.setPolicer p q c x).tra.classes = s.tra.classes ∧
    (s.setPolicer p q c x).tra.gates = s.tra.gates ∧ (s.setPolicer p q c x).tra.shapers = s.tra.shapers ∧
    (s.setPolicer p q c x).tra.telemetry = s.tra.telemetry ∧ (s.setPolicer p q c x).tra.permitted = s.tra.permitted :=
  ⟨rfl, rfl, rfl, rfl, rfl, rfl, rfl, rfl, rfl, rfl, rfl, rfl, rfl, rfl, rfl, rfl, rfl, rfl, rfl, rfl, rfl, rfl, rfl, rfl, rfl, rfl, rfl, rfl, rfl, rfl, rfl, rfl⟩

/-- `State.updGates` changes `tra` alone. -/
@[simp] theorem State.updGates_fields (s : State) (p : Nat) (f : Gates → Gates) :
    (s.updGates p f).now = s.now ∧ (s.updGates p f).aon = s.aon ∧ (s.updGates p f).node = s.node ∧ (s.updGates p f).pw = s.pw ∧
    (s.updGates p f).jt = s.jt ∧ (s.updGates p f).boot = s.boot ∧ (s.updGates p f).pkg = s.pkg ∧ (s.updGates p f).work = s.work ∧
    (s.updGates p f).fab = s.fab ∧ (s.updGates p f).mem = s.mem ∧ (s.updGates p f).adh = s.adh ∧ (s.updGates p f).led = s.led ∧
    (s.updGates p f).perf = s.perf ∧ (s.updGates p f).log = s.log ∧ (s.updGates p f).kv = s.kv ∧ (s.updGates p f).comps = s.comps ∧
    (s.updGates p f).own = s.own ∧ (s.updGates p f).prot = s.prot ∧ (s.updGates p f).lnk = s.lnk ∧ (s.updGates p f).time = s.time ∧
    (s.updGates p f).tier = s.tier ∧ (s.updGates p f).cb = s.cb ∧ (s.updGates p f).str = s.str ∧ (s.updGates p f).adm = s.adm ∧
    (s.updGates p f).srch = s.srch ∧ (s.updGates p f).free = s.free ∧ (s.updGates p f).pending = s.pending ∧
    (s.updGates p f).tra.classes = s.tra.classes ∧ (s.updGates p f).tra.shapers = s.tra.shapers ∧ (s.updGates p f).tra.policers = s.tra.policers ∧
    (s.updGates p f).tra.telemetry = s.tra.telemetry ∧ (s.updGates p f).tra.permitted = s.tra.permitted :=
  ⟨rfl, rfl, rfl, rfl, rfl, rfl, rfl, rfl, rfl, rfl, rfl, rfl, rfl, rfl, rfl, rfl, rfl, rfl, rfl, rfl, rfl, rfl, rfl, rfl, rfl, rfl, rfl, rfl, rfl, rfl, rfl, rfl⟩

/-- `State.setMbox` changes `adh` alone. -/
@[simp] theorem State.setMbox_fields (s : State) (v m : Nat) (x : Mailbox) :
    (s.setMbox v m x).now = s.now ∧ (s.setMbox v m x).aon = s.aon ∧ (s.setMbox v m x).node = s.node ∧ (s.setMbox v m x).pw = s.pw ∧
    (s.setMbox v m x).jt = s.jt ∧ (s.setMbox v m x).boot = s.boot ∧ (s.setMbox v m x).pkg = s.pkg ∧ (s.setMbox v m x).work = s.work ∧
    (s.setMbox v m x).fab = s.fab ∧ (s.setMbox v m x).mem = s.mem ∧ (s.setMbox v m x).led = s.led ∧ (s.setMbox v m x).perf = s.perf ∧
    (s.setMbox v m x).log = s.log ∧ (s.setMbox v m x).kv = s.kv ∧ (s.setMbox v m x).comps = s.comps ∧ (s.setMbox v m x).own = s.own ∧
    (s.setMbox v m x).prot = s.prot ∧ (s.setMbox v m x).lnk = s.lnk ∧ (s.setMbox v m x).time = s.time ∧ (s.setMbox v m x).tra = s.tra ∧
    (s.setMbox v m x).tier = s.tier ∧ (s.setMbox v m x).cb = s.cb ∧ (s.setMbox v m x).str = s.str ∧ (s.setMbox v m x).adm = s.adm ∧
    (s.setMbox v m x).srch = s.srch ∧ (s.setMbox v m x).free = s.free ∧ (s.setMbox v m x).pending = s.pending ∧
    (s.setMbox v m x).adh.primary = s.adh.primary ∧ (s.setMbox v m x).adh.sessions = s.adh.sessions ∧
    (s.setMbox v m x).adh.violations = s.adh.violations ∧ (s.setMbox v m x).adh.violSeq = s.adh.violSeq ∧
    (s.setMbox v m x).adh.collectors = s.adh.collectors :=
  ⟨rfl, rfl, rfl, rfl, rfl, rfl, rfl, rfl, rfl, rfl, rfl, rfl, rfl, rfl, rfl, rfl, rfl, rfl, rfl, rfl, rfl, rfl, rfl, rfl, rfl, rfl, rfl, rfl, rfl, rfl, rfl, rfl⟩

/-- `State.bookNew` changes `led` alone. -/
@[simp] theorem State.bookNew_fields (s : State) (q sc i n : Nat) :
    (s.bookNew q sc i n).now = s.now ∧ (s.bookNew q sc i n).aon = s.aon ∧ (s.bookNew q sc i n).node = s.node ∧ (s.bookNew q sc i n).pw = s.pw ∧
    (s.bookNew q sc i n).jt = s.jt ∧ (s.bookNew q sc i n).boot = s.boot ∧ (s.bookNew q sc i n).pkg = s.pkg ∧ (s.bookNew q sc i n).work = s.work ∧
    (s.bookNew q sc i n).fab = s.fab ∧ (s.bookNew q sc i n).mem = s.mem ∧ (s.bookNew q sc i n).adh = s.adh ∧ (s.bookNew q sc i n).perf = s.perf ∧
    (s.bookNew q sc i n).log = s.log ∧ (s.bookNew q sc i n).kv = s.kv ∧ (s.bookNew q sc i n).comps = s.comps ∧ (s.bookNew q sc i n).own = s.own ∧
    (s.bookNew q sc i n).prot = s.prot ∧ (s.bookNew q sc i n).lnk = s.lnk ∧ (s.bookNew q sc i n).time = s.time ∧ (s.bookNew q sc i n).tra = s.tra ∧
    (s.bookNew q sc i n).tier = s.tier ∧ (s.bookNew q sc i n).cb = s.cb ∧ (s.bookNew q sc i n).str = s.str ∧ (s.bookNew q sc i n).adm = s.adm ∧
    (s.bookNew q sc i n).srch = s.srch ∧ (s.bookNew q sc i n).free = s.free ∧ (s.bookNew q sc i n).pending = s.pending ∧
    (s.bookNew q sc i n).led.transit = s.led.transit ∧ (s.bookNew q sc i n).led.breaks = s.led.breaks ∧
    (s.bookNew q sc i n).led.suspect = s.led.suspect :=
  ⟨rfl, rfl, rfl, rfl, rfl, rfl, rfl, rfl, rfl, rfl, rfl, rfl, rfl, rfl, rfl, rfl, rfl, rfl, rfl, rfl, rfl, rfl, rfl, rfl, rfl, rfl, rfl, rfl, rfl, rfl⟩

/-- `State.bookMove` changes `led` alone. -/
@[simp] theorem State.bookMove_fields (s : State) (q sc i j n : Nat) :
    (s.bookMove q sc i j n).now = s.now ∧ (s.bookMove q sc i j n).aon = s.aon ∧ (s.bookMove q sc i j n).node = s.node ∧
    (s.bookMove q sc i j n).pw = s.pw ∧ (s.bookMove q sc i j n).jt = s.jt ∧ (s.bookMove q sc i j n).boot = s.boot ∧
    (s.bookMove q sc i j n).pkg = s.pkg ∧ (s.bookMove q sc i j n).work = s.work ∧ (s.bookMove q sc i j n).fab = s.fab ∧
    (s.bookMove q sc i j n).mem = s.mem ∧ (s.bookMove q sc i j n).adh = s.adh ∧ (s.bookMove q sc i j n).perf = s.perf ∧
    (s.bookMove q sc i j n).log = s.log ∧ (s.bookMove q sc i j n).kv = s.kv ∧ (s.bookMove q sc i j n).comps = s.comps ∧
    (s.bookMove q sc i j n).own = s.own ∧ (s.bookMove q sc i j n).prot = s.prot ∧ (s.bookMove q sc i j n).lnk = s.lnk ∧
    (s.bookMove q sc i j n).time = s.time ∧ (s.bookMove q sc i j n).tra = s.tra ∧ (s.bookMove q sc i j n).tier = s.tier ∧
    (s.bookMove q sc i j n).cb = s.cb ∧ (s.bookMove q sc i j n).str = s.str ∧ (s.bookMove q sc i j n).adm = s.adm ∧
    (s.bookMove q sc i j n).srch = s.srch ∧ (s.bookMove q sc i j n).free = s.free ∧ (s.bookMove q sc i j n).pending = s.pending ∧
    (s.bookMove q sc i j n).led.transit = s.led.transit ∧ (s.bookMove q sc i j n).led.breaks = s.led.breaks ∧
    (s.bookMove q sc i j n).led.suspect = s.led.suspect :=
  ⟨rfl, rfl, rfl, rfl, rfl, rfl, rfl, rfl, rfl, rfl, rfl, rfl, rfl, rfl, rfl, rfl, rfl, rfl, rfl, rfl, rfl, rfl, rfl, rfl, rfl, rfl, rfl, rfl, rfl, rfl⟩

/-- `State.bookEnd` changes `led` alone. -/
@[simp] theorem State.bookEnd_fields (s : State) (q sc i n : Nat) :
    (s.bookEnd q sc i n).now = s.now ∧ (s.bookEnd q sc i n).aon = s.aon ∧ (s.bookEnd q sc i n).node = s.node ∧ (s.bookEnd q sc i n).pw = s.pw ∧
    (s.bookEnd q sc i n).jt = s.jt ∧ (s.bookEnd q sc i n).boot = s.boot ∧ (s.bookEnd q sc i n).pkg = s.pkg ∧ (s.bookEnd q sc i n).work = s.work ∧
    (s.bookEnd q sc i n).fab = s.fab ∧ (s.bookEnd q sc i n).mem = s.mem ∧ (s.bookEnd q sc i n).adh = s.adh ∧ (s.bookEnd q sc i n).perf = s.perf ∧
    (s.bookEnd q sc i n).log = s.log ∧ (s.bookEnd q sc i n).kv = s.kv ∧ (s.bookEnd q sc i n).comps = s.comps ∧ (s.bookEnd q sc i n).own = s.own ∧
    (s.bookEnd q sc i n).prot = s.prot ∧ (s.bookEnd q sc i n).lnk = s.lnk ∧ (s.bookEnd q sc i n).time = s.time ∧ (s.bookEnd q sc i n).tra = s.tra ∧
    (s.bookEnd q sc i n).tier = s.tier ∧ (s.bookEnd q sc i n).cb = s.cb ∧ (s.bookEnd q sc i n).str = s.str ∧ (s.bookEnd q sc i n).adm = s.adm ∧
    (s.bookEnd q sc i n).srch = s.srch ∧ (s.bookEnd q sc i n).free = s.free ∧ (s.bookEnd q sc i n).pending = s.pending ∧
    (s.bookEnd q sc i n).led.transit = s.led.transit ∧ (s.bookEnd q sc i n).led.breaks = s.led.breaks ∧
    (s.bookEnd q sc i n).led.suspect = s.led.suspect :=
  ⟨rfl, rfl, rfl, rfl, rfl, rfl, rfl, rfl, rfl, rfl, rfl, rfl, rfl, rfl, rfl, rfl, rfl, rfl, rfl, rfl, rfl, rfl, rfl, rfl, rfl, rfl, rfl, rfl, rfl, rfl⟩

/-- `State.transitOut` changes `led` alone. -/
@[simp] theorem State.transitOut_fields (s : State) (p q n : Nat) :
    (s.transitOut p q n).now = s.now ∧ (s.transitOut p q n).aon = s.aon ∧ (s.transitOut p q n).node = s.node ∧ (s.transitOut p q n).pw = s.pw ∧
    (s.transitOut p q n).jt = s.jt ∧ (s.transitOut p q n).boot = s.boot ∧ (s.transitOut p q n).pkg = s.pkg ∧ (s.transitOut p q n).work = s.work ∧
    (s.transitOut p q n).fab = s.fab ∧ (s.transitOut p q n).mem = s.mem ∧ (s.transitOut p q n).adh = s.adh ∧ (s.transitOut p q n).perf = s.perf ∧
    (s.transitOut p q n).log = s.log ∧ (s.transitOut p q n).kv = s.kv ∧ (s.transitOut p q n).comps = s.comps ∧ (s.transitOut p q n).own = s.own ∧
    (s.transitOut p q n).prot = s.prot ∧ (s.transitOut p q n).lnk = s.lnk ∧ (s.transitOut p q n).time = s.time ∧ (s.transitOut p q n).tra = s.tra ∧
    (s.transitOut p q n).tier = s.tier ∧ (s.transitOut p q n).cb = s.cb ∧ (s.transitOut p q n).str = s.str ∧ (s.transitOut p q n).adm = s.adm ∧
    (s.transitOut p q n).srch = s.srch ∧ (s.transitOut p q n).free = s.free ∧ (s.transitOut p q n).pending = s.pending ∧
    (s.transitOut p q n).led.books = s.led.books ∧ (s.transitOut p q n).led.breaks = s.led.breaks ∧
    (s.transitOut p q n).led.suspect = s.led.suspect :=
  ⟨rfl, rfl, rfl, rfl, rfl, rfl, rfl, rfl, rfl, rfl, rfl, rfl, rfl, rfl, rfl, rfl, rfl, rfl, rfl, rfl, rfl, rfl, rfl, rfl, rfl, rfl, rfl, rfl, rfl, rfl⟩

/-- `State.transitIn` changes `led` alone. -/
@[simp] theorem State.transitIn_fields (s : State) (p q n : Nat) :
    (s.transitIn p q n).now = s.now ∧ (s.transitIn p q n).aon = s.aon ∧ (s.transitIn p q n).node = s.node ∧ (s.transitIn p q n).pw = s.pw ∧
    (s.transitIn p q n).jt = s.jt ∧ (s.transitIn p q n).boot = s.boot ∧ (s.transitIn p q n).pkg = s.pkg ∧ (s.transitIn p q n).work = s.work ∧
    (s.transitIn p q n).fab = s.fab ∧ (s.transitIn p q n).mem = s.mem ∧ (s.transitIn p q n).adh = s.adh ∧ (s.transitIn p q n).perf = s.perf ∧
    (s.transitIn p q n).log = s.log ∧ (s.transitIn p q n).kv = s.kv ∧ (s.transitIn p q n).comps = s.comps ∧ (s.transitIn p q n).own = s.own ∧
    (s.transitIn p q n).prot = s.prot ∧ (s.transitIn p q n).lnk = s.lnk ∧ (s.transitIn p q n).time = s.time ∧ (s.transitIn p q n).tra = s.tra ∧
    (s.transitIn p q n).tier = s.tier ∧ (s.transitIn p q n).cb = s.cb ∧ (s.transitIn p q n).str = s.str ∧ (s.transitIn p q n).adm = s.adm ∧
    (s.transitIn p q n).srch = s.srch ∧ (s.transitIn p q n).free = s.free ∧ (s.transitIn p q n).pending = s.pending ∧
    (s.transitIn p q n).led.books = s.led.books ∧ (s.transitIn p q n).led.breaks = s.led.breaks ∧ (s.transitIn p q n).led.suspect = s.led.suspect :=
  ⟨rfl, rfl, rfl, rfl, rfl, rfl, rfl, rfl, rfl, rfl, rfl, rfl, rfl, rfl, rfl, rfl, rfl, rfl, rfl, rfl, rfl, rfl, rfl, rfl, rfl, rfl, rfl, rfl, rfl, rfl⟩

/-- `State.tell` changes `log` alone. -/
@[simp] theorem State.tell_fields (s : State) (m : CtlMsg) :
    (s.tell m).now = s.now ∧ (s.tell m).aon = s.aon ∧ (s.tell m).node = s.node ∧ (s.tell m).pw = s.pw ∧ (s.tell m).jt = s.jt ∧
    (s.tell m).boot = s.boot ∧ (s.tell m).pkg = s.pkg ∧ (s.tell m).work = s.work ∧ (s.tell m).fab = s.fab ∧ (s.tell m).mem = s.mem ∧
    (s.tell m).adh = s.adh ∧ (s.tell m).led = s.led ∧ (s.tell m).perf = s.perf ∧ (s.tell m).kv = s.kv ∧ (s.tell m).comps = s.comps ∧
    (s.tell m).own = s.own ∧ (s.tell m).prot = s.prot ∧ (s.tell m).lnk = s.lnk ∧ (s.tell m).time = s.time ∧ (s.tell m).tra = s.tra ∧
    (s.tell m).tier = s.tier ∧ (s.tell m).cb = s.cb ∧ (s.tell m).str = s.str ∧ (s.tell m).adm = s.adm ∧ (s.tell m).srch = s.srch ∧
    (s.tell m).free = s.free ∧ (s.tell m).pending = s.pending ∧ (s.tell m).log.events = s.log.events ∧ (s.tell m).log.evSeq = s.log.evSeq ∧
    (s.tell m).log.grams = s.log.grams :=
  ⟨rfl, rfl, rfl, rfl, rfl, rfl, rfl, rfl, rfl, rfl, rfl, rfl, rfl, rfl, rfl, rfl, rfl, rfl, rfl, rfl, rfl, rfl, rfl, rfl, rfl, rfl, rfl, rfl, rfl, rfl⟩

/-- `State.gram` changes `log` alone. -/
@[simp] theorem State.gram_fields (s : State) (k p : Nat) (bs : List Byte) :
    (s.gram k p bs).now = s.now ∧ (s.gram k p bs).aon = s.aon ∧ (s.gram k p bs).node = s.node ∧ (s.gram k p bs).pw = s.pw ∧
    (s.gram k p bs).jt = s.jt ∧ (s.gram k p bs).boot = s.boot ∧ (s.gram k p bs).pkg = s.pkg ∧ (s.gram k p bs).work = s.work ∧
    (s.gram k p bs).fab = s.fab ∧ (s.gram k p bs).mem = s.mem ∧ (s.gram k p bs).adh = s.adh ∧ (s.gram k p bs).led = s.led ∧
    (s.gram k p bs).perf = s.perf ∧ (s.gram k p bs).kv = s.kv ∧ (s.gram k p bs).comps = s.comps ∧ (s.gram k p bs).own = s.own ∧
    (s.gram k p bs).prot = s.prot ∧ (s.gram k p bs).lnk = s.lnk ∧ (s.gram k p bs).time = s.time ∧ (s.gram k p bs).tra = s.tra ∧
    (s.gram k p bs).tier = s.tier ∧ (s.gram k p bs).cb = s.cb ∧ (s.gram k p bs).str = s.str ∧ (s.gram k p bs).adm = s.adm ∧
    (s.gram k p bs).srch = s.srch ∧ (s.gram k p bs).free = s.free ∧ (s.gram k p bs).pending = s.pending ∧ (s.gram k p bs).log.events = s.log.events ∧
    (s.gram k p bs).log.evSeq = s.log.evSeq ∧ (s.gram k p bs).log.msgs = s.log.msgs :=
  ⟨rfl, rfl, rfl, rfl, rfl, rfl, rfl, rfl, rfl, rfl, rfl, rfl, rfl, rfl, rfl, rfl, rfl, rfl, rfl, rfl, rfl, rfl, rfl, rfl, rfl, rfl, rfl, rfl, rfl, rfl⟩

/-- `State.granted` changes `pkg` alone. -/
@[simp] theorem State.granted_fields (s : State) (a n w : Nat) :
    (s.granted a n w).now = s.now ∧ (s.granted a n w).aon = s.aon ∧ (s.granted a n w).node = s.node ∧ (s.granted a n w).pw = s.pw ∧
    (s.granted a n w).jt = s.jt ∧ (s.granted a n w).boot = s.boot ∧ (s.granted a n w).work = s.work ∧ (s.granted a n w).fab = s.fab ∧
    (s.granted a n w).mem = s.mem ∧ (s.granted a n w).adh = s.adh ∧ (s.granted a n w).led = s.led ∧ (s.granted a n w).perf = s.perf ∧
    (s.granted a n w).log = s.log ∧ (s.granted a n w).kv = s.kv ∧ (s.granted a n w).comps = s.comps ∧ (s.granted a n w).own = s.own ∧
    (s.granted a n w).prot = s.prot ∧ (s.granted a n w).lnk = s.lnk ∧ (s.granted a n w).time = s.time ∧ (s.granted a n w).tra = s.tra ∧
    (s.granted a n w).tier = s.tier ∧ (s.granted a n w).cb = s.cb ∧ (s.granted a n w).str = s.str ∧ (s.granted a n w).adm = s.adm ∧
    (s.granted a n w).srch = s.srch ∧ (s.granted a n w).free = s.free ∧ (s.granted a n w).pending = s.pending ∧
    (s.granted a n w).pkg.fenced = s.pkg.fenced ∧ (s.granted a n w).pkg.outOfService = s.pkg.outOfService :=
  ⟨rfl, rfl, rfl, rfl, rfl, rfl, rfl, rfl, rfl, rfl, rfl, rfl, rfl, rfl, rfl, rfl, rfl, rfl, rfl, rfl, rfl, rfl, rfl, rfl, rfl, rfl, rfl, rfl, rfl⟩

/-- `State.draw` changes `free` alone. -/
@[simp] theorem State.draw_fields (s : State) :
    (s.draw.2).now = s.now ∧ (s.draw.2).aon = s.aon ∧ (s.draw.2).node = s.node ∧ (s.draw.2).pw = s.pw ∧ (s.draw.2).jt = s.jt ∧
    (s.draw.2).boot = s.boot ∧ (s.draw.2).pkg = s.pkg ∧ (s.draw.2).work = s.work ∧ (s.draw.2).fab = s.fab ∧ (s.draw.2).mem = s.mem ∧
    (s.draw.2).adh = s.adh ∧ (s.draw.2).led = s.led ∧ (s.draw.2).perf = s.perf ∧ (s.draw.2).log = s.log ∧ (s.draw.2).kv = s.kv ∧
    (s.draw.2).comps = s.comps ∧ (s.draw.2).own = s.own ∧ (s.draw.2).prot = s.prot ∧ (s.draw.2).lnk = s.lnk ∧ (s.draw.2).time = s.time ∧
    (s.draw.2).tra = s.tra ∧ (s.draw.2).tier = s.tier ∧ (s.draw.2).cb = s.cb ∧ (s.draw.2).str = s.str ∧ (s.draw.2).adm = s.adm ∧
    (s.draw.2).srch = s.srch ∧ (s.draw.2).pending = s.pending :=
  ⟨rfl, rfl, rfl, rfl, rfl, rfl, rfl, rfl, rfl, rfl, rfl, rfl, rfl, rfl, rfl, rfl, rfl, rfl, rfl, rfl, rfl, rfl, rfl, rfl, rfl, rfl, rfl⟩

/-- A port stored is entered in the table. -/
@[simp] theorem State.setPort_port (s : State) (p : Nat) (x : Port) : (s.setPort p x).lnk.ports = Tbl.set s.lnk.ports p x := rfl
/-- What `State.keeping` takes from the state before: the queue, the TAP and the always-on clock. -/
@[simp] theorem State.keeping_kept (s t : State) : (s.keeping t).pending = s.pending ∧ (s.keeping t).jt = s.jt ∧ (s.keeping t).aon = s.aon := ⟨rfl, rfl, rfl⟩

/-- What `State.keeping` takes from the state after: everything else. -/
@[simp] theorem State.keeping_fields (s t : State) :
    (s.keeping t).now = t.now ∧ (s.keeping t).node = t.node ∧ (s.keeping t).pw = t.pw ∧ (s.keeping t).boot = t.boot ∧ (s.keeping t).pkg = t.pkg ∧ (s.keeping t).work = t.work ∧ (s.keeping t).fab = t.fab ∧ (s.keeping t).mem = t.mem ∧ (s.keeping t).adh = t.adh ∧ (s.keeping t).led = t.led ∧ (s.keeping t).perf = t.perf ∧ (s.keeping t).log = t.log ∧ (s.keeping t).kv = t.kv ∧ (s.keeping t).comps = t.comps ∧ (s.keeping t).own = t.own ∧ (s.keeping t).prot = t.prot ∧ (s.keeping t).lnk = t.lnk ∧ (s.keeping t).time = t.time ∧ (s.keeping t).tra = t.tra ∧ (s.keeping t).tier = t.tier ∧ (s.keeping t).cb = t.cb ∧ (s.keeping t).str = t.str ∧ (s.keeping t).adm = t.adm ∧ (s.keeping t).srch = t.srch ∧ (s.keeping t).free = t.free :=
  ⟨rfl, rfl, rfl, rfl, rfl, rfl, rfl, rfl, rfl, rfl, rfl, rfl, rfl, rfl, rfl, rfl, rfl, rfl, rfl, rfl, rfl, rfl, rfl, rfl, rfl⟩

end Sys2Proof.Machine
end

