-- ==== Sys2Proof/Laws/Table.lean ====
section
/-! SUPPORT. Reading a table after it is changed. -/

namespace Sys2Proof.Machine
open Sys2Proof

variable {κ α : Type} [DecidableEq κ]

/-- What is entered under a key is read there. -/
@[simp] theorem Tbl.get_set_same (t : Tbl κ α) (k : κ) (v : α) : Tbl.get (Tbl.set t k v) k = some v := by
  induction t with
  | nil => simp [Tbl.set, Tbl.get]
  | cons e t ih =>
    obtain ⟨a, b⟩ := e
    by_cases h : a = k
    · simp [Tbl.set, Tbl.get, h]
    · simp [Tbl.set, Tbl.get, h, ih]

/-- An entry leaves every other key as it was. -/
theorem Tbl.get_set_other (t : Tbl κ α) (k k' : κ) (v : α) (h : k' ≠ k) : Tbl.get (Tbl.set t k v) k' = Tbl.get t k' := by
  induction t with
  | nil => simp [Tbl.set, Tbl.get, h.symm]
  | cons e t ih =>
    obtain ⟨a, b⟩ := e
    by_cases ha : a = k
    · subst ha; simp [Tbl.set, Tbl.get, h.symm]
    · by_cases hk : a = k'
      · subst hk; simp [Tbl.set, Tbl.get, h]
      · simp [Tbl.set, Tbl.get, ha, hk, ih]

/-- A key deleted is not listed. -/
@[simp] theorem Tbl.get_del_same (t : Tbl κ α) (k : κ) : Tbl.get (Tbl.del t k) k = none := by
  induction t with
  | nil => rfl
  | cons e t ih =>
    obtain ⟨a, b⟩ := e
    by_cases h : a = k
    · simpa [Tbl.del, List.filter, h] using ih
    · simpa [Tbl.del, List.filter, Tbl.get, h] using ih

/-- Deleting a key leaves every other key as it was. -/
theorem Tbl.get_del_other (t : Tbl κ α) (k k' : κ) (h : k' ≠ k) : Tbl.get (Tbl.del t k) k' = Tbl.get t k' := by
  induction t with
  | nil => rfl
  | cons e t ih =>
    obtain ⟨a, b⟩ := e
    by_cases ha : a = k
    · subst ha; simpa [Tbl.del, List.filter, Tbl.get, h.symm] using ih
    · by_cases hk : a = k'
      · subst hk; simp [Tbl.del, List.filter, Tbl.get, h]
      · simpa [Tbl.del, List.filter, Tbl.get, ha, hk] using ih

/-- A value read with a default is that just entered. -/
@[simp] theorem Tbl.at_set_same (t : Tbl κ α) (k : κ) (v d : α) : Tbl.at (Tbl.set t k v) k d = v := by simp [Tbl.at]
/-- An entry leaves what another key reads, with its default. -/
theorem Tbl.at_set_other (t : Tbl κ α) (k k' : κ) (v d : α) (h : k' ≠ k) : Tbl.at (Tbl.set t k v) k' d = Tbl.at t k' d := by
  simp [Tbl.at, Tbl.get_set_other t k k' v h]
/-- An entry that stands is changed in its place. -/
theorem Tbl.get_upd_some (t : Tbl κ α) (k : κ) (f : α → α) (v : α) (h : Tbl.get t k = some v) : Tbl.get (Tbl.upd t k f) k = some (f v) := by
  simp [Tbl.upd, h]
/-- An entry that is not listed is not changed. -/
theorem Tbl.upd_none (t : Tbl κ α) (k : κ) (f : α → α) (h : Tbl.get t k = none) : Tbl.upd t k f = t := by simp [Tbl.upd, h]
/-- A change of one entry leaves every other key as it was. -/
theorem Tbl.get_upd_other (t : Tbl κ α) (k k' : κ) (f : α → α) (h : k' ≠ k) : Tbl.get (Tbl.upd t k f) k' = Tbl.get t k' := by
  unfold Tbl.upd; split
  · exact Tbl.get_set_other t k k' _ h
  · rfl
/-- A map over the values keeps the keys. -/
theorem Tbl.get_mapVals (t : Tbl κ α) (f : κ → α → α) (k : κ) : Tbl.get (Tbl.mapVals t f) k = (Tbl.get t k).map (f k) := by
  induction t with
  | nil => rfl
  | cons e t ih =>
    obtain ⟨a, b⟩ := e
    by_cases h : a = k
    · subst h; simp [Tbl.mapVals, Tbl.get]
    · simpa [Tbl.mapVals, Tbl.get, h] using ih

end Sys2Proof.Machine
end

