-- ==== Sys2Proof/Laws/Ops.lean ====
section
/-! SUPPORT. What each shared operation can do, said once. -/

namespace Sys2Proof.Machine
open Sys2Proof

/-! ### Gating -/

/-- On a package that runs, a gated effect is the effect, with the queue, the TAP and the always-on clock kept. -/
theorem State.whenLive_up (s : State) (f : State → State) (h : Up s) : s.whenLive f = s.keeping (f s) := by
  simp [State.whenLive, h.1, h.2]
/-- On a package that does not run, a gated effect is nothing. -/
theorem State.whenLive_down (s : State) (f : State → State) (h : ¬ Up s) : s.whenLive f = s := by
  unfold State.whenLive
  split
  · rename_i hc; exact absurd (by simpa [Up] using hc) h
  · rfl
/-- A gated effect keeps the queue, the TAP and the always-on clock, whether the package runs or not. -/
@[simp] theorem State.whenLive_kept (s : State) (f : State → State) :
    (s.whenLive f).pending = s.pending ∧ (s.whenLive f).jt = s.jt ∧ (s.whenLive f).aon = s.aon := by
  unfold State.whenLive; split <;> simp
/-- A gated effect that keeps a property keeps it gated, where the property does not speak of what is kept. -/
theorem State.whenLive_of (P : State → Prop) (s : State) (f : State → State) (hk : ∀ t, P t → P (s.keeping t)) (hs : P s) (hf : P s → P (f s)) :
    P (s.whenLive f) := by
  unfold State.whenLive; split
  · exact hk _ (hf hs)
  · exact hs

/-! ### Async rings and events (R397, R401, R504) -/

/-- Writing an async ring's records changes the VIs' table and memory, and memory keeps its form. -/
theorem asyncDrain_frame (v : Nat) (rs : List (List Nat)) (s : State) :
    ∃ vis m, asyncDrain v rs s = { s with work := { s.work with vis := vis }, mem := m } ∧ (memWf s.mem = true → memWf m = true) := by
  induction rs generalizing s with
  | nil => exact ⟨_, s.mem, rfl, id⟩
  | cons r rs ih =>
    unfold asyncDrain
    split
    · exact ⟨_, s.mem, rfl, id⟩
    · rename_i g _
      simp only []
      split
      · exact ⟨_, s.mem, rfl, id⟩
      · obtain ⟨vis, m, e, h⟩ := ih (((s.wrWords (g.base + (g.written % 2 ^ g.log2) * 64) r).wrWords g.tail [u64 (g.written + 1)]).updVi v
          (fun x => { x with asyncRing := some { g with written := g.written + 1 } }))
        refine ⟨vis, m, ?_, fun hm => h (State.wrWords_memWf _ _ _ (State.wrWords_memWf _ _ _ hm))⟩
        rw [e]; simp only [State.updVi, State.setVi, State.wrWords, State.wr]

/-- Giving a VI's async ring records changes the VIs' table and memory alone. -/
theorem State.asyncPut_frame (s : State) (v : Nat) (rs : List (List Nat)) :
    ∃ vis m, s.asyncPut v rs = { s with work := { s.work with vis := vis }, mem := m } ∧ (memWf s.mem = true → memWf m = true) := by
  unfold State.asyncPut; split
  · exact asyncDrain_frame v _ s
  · exact ⟨s.work.vis, s.mem, rfl, id⟩

/-- Async records for several VIs. -/
theorem asyncPuts_frame (l : List (Nat × Vi)) (rs : List (List Nat)) (s : State) :
    ∃ vis m, l.foldl (fun t x => t.asyncPut x.1 rs) s = { s with work := { s.work with vis := vis }, mem := m } ∧ (memWf s.mem = true → memWf m = true) := by
  induction l generalizing s with
  | nil => exact ⟨s.work.vis, s.mem, rfl, id⟩
  | cons x l ih =>
    obtain ⟨v1, m1, e1, h1⟩ := State.asyncPut_frame s x.1 rs
    obtain ⟨v2, m2, e2, h2⟩ := ih (s.asyncPut x.1 rs)
    refine ⟨v2, m2, ?_, fun h => h2 (by rw [e1]; exact h1 h)⟩
    rw [List.foldl_cons, e2, e1]

/-- Raising an event changes the log, the VIs' table and memory, where async records go; it takes the next sequence number. -/
theorem State.raise_frame (s : State) (ev : Ev) (die unit : Nat) (payload vis : List Nat) :
    ∃ l v m, s.raise ev die unit payload vis = { s with log := l, work := { s.work with vis := v }, mem := m } ∧
      l.evSeq = s.log.evSeq + 1 ∧ l.msgs = s.log.msgs ∧ (memWf s.mem = true → memWf m = true) := by
  unfold State.raise
  simp only []
  obtain ⟨v, m, e, h⟩ := asyncPuts_frame (s.work.vis.filter (fun x => vis.contains x.1 || x.2.subscribed.contains ev.code)) _ _
  exact ⟨_, v, m, e.trans rfl, rfl, rfl, h⟩

/-- The fields an event leaves. -/
@[simp] theorem State.raise_fields (s : State) (ev : Ev) (die unit : Nat) (p vs : List Nat) :
    (s.raise ev die unit p vs).now = s.now ∧ (s.raise ev die unit p vs).aon = s.aon ∧ (s.raise ev die unit p vs).node = s.node ∧
    (s.raise ev die unit p vs).pw = s.pw ∧ (s.raise ev die unit p vs).jt = s.jt ∧ (s.raise ev die unit p vs).boot = s.boot ∧
    (s.raise ev die unit p vs).pkg = s.pkg ∧ (s.raise ev die unit p vs).fab = s.fab ∧ (s.raise ev die unit p vs).adh = s.adh ∧
    (s.raise ev die unit p vs).led = s.led ∧ (s.raise ev die unit p vs).perf = s.perf ∧ (s.raise ev die unit p vs).kv = s.kv ∧
    (s.raise ev die unit p vs).comps = s.comps ∧ (s.raise ev die unit p vs).own = s.own ∧ (s.raise ev die unit p vs).prot = s.prot ∧
    (s.raise ev die unit p vs).lnk = s.lnk ∧ (s.raise ev die unit p vs).time = s.time ∧ (s.raise ev die unit p vs).tra = s.tra ∧
    (s.raise ev die unit p vs).tier = s.tier ∧ (s.raise ev die unit p vs).cb = s.cb ∧ (s.raise ev die unit p vs).str = s.str ∧
    (s.raise ev die unit p vs).adm = s.adm ∧ (s.raise ev die unit p vs).srch = s.srch ∧ (s.raise ev die unit p vs).free = s.free ∧
    (s.raise ev die unit p vs).pending = s.pending ∧ (s.raise ev die unit p vs).log.evSeq = s.log.evSeq + 1 ∧
    (s.raise ev die unit p vs).log.msgs = s.log.msgs ∧ (s.raise ev die unit p vs).work.cmds = s.work.cmds ∧
    (s.raise ev die unit p vs).work.queues = s.work.queues ∧ (s.raise ev die unit p vs).work.nextCid = s.work.nextCid := by
  obtain ⟨l, v, m, e, hs, hm, -⟩ := State.raise_frame s ev die unit p vs
  rw [e]; simp [hs, hm]

/-- An event keeps memory's form. -/
theorem State.raise_memWf (s : State) (ev : Ev) (die unit : Nat) (p vs : List Nat) (h : memWf s.mem = true) : memWf (s.raise ev die unit p vs).mem = true := by
  obtain ⟨l, v, m, e, -, -, hm⟩ := State.raise_frame s ev die unit p vs
  rw [e]; exact hm h
/-- Where no VI has an async ring, an event writes no memory. -/
theorem State.raise_mem (s : State) (ev : Ev) (die unit : Nat) (p vs : List Nat)
    (hv : ∀ v, (s.vi v).asyncRing = none) : (s.raise ev die unit p vs).mem = s.mem := by
  unfold State.raise
  simp only []
  have key : ∀ (l : List (Nat × Vi)) (rs : List (List Nat)) (t : State), (∀ v, (t.vi v).asyncRing = none) → l.foldl (fun t x => t.asyncPut x.1 rs) t = t := by
    intro l rs
    induction l with
    | nil => intro t _; rfl
    | cons x l ih => intro t ht; rw [List.foldl_cons]; simp only [State.asyncPut, ht x.1, Option.isSome_none, Bool.false_eq_true, if_false]; exact ih t ht
  rw [key _ _ _ (by exact hv)]

/-! ### Violations (R408, R409) -/

/-- A violation changes the ring, the VIs' table, and the log and memory where its event goes. -/
theorem State.violate_frame (s : State) (vi node ep addr kind op reason : Nat) :
    ∃ a l w m, s.violate vi node ep addr kind op reason = { s with adh := a, log := l, work := { s.work with vis := w }, mem := m } ∧
      a.mailboxes = s.adh.mailboxes ∧ a.sessions = s.adh.sessions ∧ a.primary = s.adh.primary ∧ (memWf s.mem = true → memWf m = true) := by
  unfold State.violate
  simp only []
  split
  · obtain ⟨l, v, m, e, -, -, h⟩ := State.raise_frame _ .violation s.hubDie 0 _ []
    exact ⟨_, l, v, m, e.trans rfl, rfl, rfl, rfl, h⟩
  · exact ⟨_, s.log, _, s.mem, rfl, rfl, rfl, rfl, id⟩

/-! ### Answers (R395 to R397) -/

/-- Answering a mailbox changes the mailboxes, and memory where the response continues past the mailbox. -/
theorem State.mboxAnswer_frame (s : State) (v m mbSeq op : Nat) (st : Status) (result handle : Nat) (body : List Nat) :
    ∃ a mm, s.mboxAnswer v m mbSeq op st result handle body = { s with adh := a, mem := mm } ∧ (memWf s.mem = true → memWf mm = true) := by
  unfold State.mboxAnswer
  simp only []
  generalize List.take (1984 + if word (s.mbox v m).header 3 = 0 then 0 else fld (s.mbox v m).header 4 63 32) (bytesOfWords body) = bs
  split
  · exact ⟨_, s.mem, rfl, id⟩
  · exact ⟨_, _, rfl, fun h => State.wr_memWf _ _ _ h⟩

/-- Answering an operation changes Adeah's state, what goes out in datagrams, and memory where the response continues past the mailbox. -/
theorem State.respond_frame (s : State) (c : Caller) (op : Nat) (st : Status) (result : Nat) (body : List Nat) :
    ∃ a l mm, s.respond c op st result body = { s with adh := a, log := l, mem := mm } ∧ (memWf s.mem = true → memWf mm = true) := by
  have h1 : ∀ (t : State), (∃ a, t = { s with adh := a }) → ∀ (v m q op : Nat) (st : Status) (r h : Nat) (b : List Nat),
      ∃ a l mm, t.mboxAnswer v m q op st r h b = { s with adh := a, log := l, mem := mm } ∧ (memWf s.mem = true → memWf mm = true) := by
    rintro t ⟨a, rfl⟩ v m q op st r h b
    obtain ⟨a', mm, e, hm⟩ := State.mboxAnswer_frame { s with adh := a } v m q op st r h b
    exact ⟨a', s.log, mm, e, hm⟩
  unfold State.respond
  simp only []
  by_cases hd : st = .adhAccepted ∨ st = .delayed
  · simp only [hd, if_true]
    split
    · exact ⟨_, s.log, s.mem, rfl, id⟩
    · split
      · exact ⟨_, _, s.mem, rfl, id⟩
      · split
        · exact ⟨_, s.log, s.mem, rfl, id⟩
        · exact h1 _ ⟨_, rfl⟩ _ _ _ _ _ _ _ _
  · simp only [hd, if_false]
    split
    · exact ⟨s.adh, s.log, s.mem, rfl, id⟩
    · split
      · exact ⟨_, _, s.mem, rfl, id⟩
      · split
        · exact ⟨_, s.log, s.mem, rfl, id⟩
        · exact h1 _ ⟨s.adh, rfl⟩ _ _ _ _ _ _ _ _

/-- An operation Adeah holds, from a caller its form admits, runs and is answered. -/
theorem State.adhRun_asked (s : State) (op : Nat) (f : Form) (c : Caller) (g : State → AdhOut) (h : Asked s op f c) :
    s.adhRun op f c g = s.keeping (if (g s).st = .violation then (((g s).s.adhViolate c op (g s).body).respond c op .violation (g s).result [])
      else (g s).s.respond c op (g s).st (g s).result (g s).body) := by
  obtain ⟨h1, h2, h3, h4⟩ := h
  simp [State.adhRun, h1, h2, h3, h4]
/-- An operation that Adeah does not hold, or on a package that does not run, is nothing. -/
theorem State.adhRun_none (s : State) (op : Nat) (f : Form) (c : Caller) (g : State → AdhOut) (h : (s.live && s.primaryUp && s.holdsReq c op) = false) :
    s.adhRun op f c g = s := by
  unfold State.adhRun
  split
  · rfl
  · rename_i hc; simp at hc h; exact absurd (h hc.1.1 hc.1.2) (by simp [hc.2])

/-! ### The queue -/

/-- A step of a state with a command in front carries it out with the rest of the queue. -/
theorem step_cons (c : Instr) (rest : List Instr) (s : State) (h : s.pending = c :: rest) : step s = exec c { s with pending := rest } := by
  simp [step, h]

end Sys2Proof.Machine
end

