-- ==== Sys2Proof/Tests/Slice0.lean ====
section
/-! SUPPORT. Tests: ill-formed commands are refused, worked examples of the spec, and for every statement with hypotheses a state and operands that meet
those of each of its clauses together (theorem wit_<statement>, its clauses in order). -/

set_option linter.unusedVariables false

namespace Slice0Tests
set_option Elab.async false
open Sys2Proof Sys2Proof.Machine

/-! ### States and operands the tests share -/

/-- A package that runs: fabric time 1,000 s, firmware accepted on the primary management die, every memory channel up. -/
def base : State := { State.reset with now := 1000000000000, aon := 1000000000000, boot := { accepted := [(0, true)] }, pkg := { dramUp := List.range 16, flashUp := [0, 1] } }
/-- A region over the whole address space with every right. -/
def all : Region := { base := 0, limit := 18446744073709551615, valid := true, rights := 255 }
/-- An ACTIVE VI with every right but OPERATOR. -/
def user : Vi := { st := .active, rights := { sources := [(0, 1)], shares := [100, 100, 100, 100, 100, 100], compositions := [1], models := [1], maxPriority := 7, bits := 255 }, regions := [(0, all)] }
/-- The running package with VI 1 assigned. -/
def own : State := { base with work := { base.work with vis := base.work.vis ++ [(1, user)] } }
/-- VI 1's mailbox 0 holds a request of an operation code. -/
def ask (op : Nat) (s : State) : State := { s with adh := { s.adh with mailboxes := [((1, 0), { busy := true, header := [op * 281474976710656] })] } }
/-- The same, and VI 1 is an OPERATOR. -/
def askO (op : Nat) (s : State) : State := { s with adh := { s.adh with mailboxes := [((1, 0), { busy := true, header := [op * 281474976710656] })] }, work := { s.work with vis := Tbl.set s.work.vis 1 { Tbl.at s.work.vis 1 {} with rights := { (Tbl.at s.work.vis 1 {}).rights with bits := 511 } } } }
/-- The caller of that request. -/
def cal : Caller := { vi := 1, mbox := 0, mbSeq := 0 }
/-- A package whose port 0 is given. -/
def prt (x : Port) : State := { base with lnk := { ports := [(0, x)] } }
/-- A fabric address in this node's DRAM. -/
def dAddr (off : Nat) : Nat := mkAddr 0 1 off
/-- A request packet that verifies. -/
def req (ty : PktType) (a n : Nat) (bs : List Byte) : Packet := ({ ty := ty, srcVi := 1, srcEp := 1, addr := a, payloadLen := n, payload := bs, winId := 0xFFF, operand := 18446744073709551615 } : Packet).sealed
/-- Zero bytes. -/
def zs (n : Nat) : List Byte := List.replicate n 0#8
/-- Bytes of one. -/
def ones (n : Nat) : List Byte := List.replicate n 1#8
/-- A command of VI 1 that runs. -/
def job (cid cls op : Nat) (ws : List Nat) (s : State) : State := { s with work := { s.work with nextCid := 100, cmds := Tbl.set s.work.cmds cid { vi := 1, cls := cls, fmt := 2, st := .running, words := mkWord [(44, 4, cls), (36, 8, op)] :: ws } } }
/-- The caller of an action of a change order. -/
def ord : Caller := { vi := 1, order := some 1 }
/-- The caller of an operation of management session 7. -/
def mgr : Caller := { session := some 7 }
/-- Management session 7 holds a request. -/
def sess (op : Nat) (s : State) : State := { s with adh := { s.adh with sessions := [(7, { header := [op * 281474976710656] })] } }
/-- A member map of composition 1. -/
def cmap : CompMap := { epoch := 1, model := 1, prompt := [0, 2], gen := [0, 3], cache := [0, 2, 4], home := [0, 2], beat := 5000000, quotas := [4, 4, 4] }
/-- The node is a member of composition 1. -/
def com (s : State) : State := { s with comps := [(1, { maps := [cmap], bridges := [0, 2] })] }
/-- The fields of a context of composition 1, one layer and one head. -/
def ctxF : CtxFields := { model := 1, composition := 1, headDim := 64, layers := 1, kvHeads := 1, qPerKv := 1, codebookDir := dAddr 1048576, weightDir := dAddr 2097152 }
/-- VI 1 is bound to that context in slot 0. -/
def ctxd (s : State) : State := { s with work := { s.work with ctxs := [(0, { st := .ready, f := ctxF })], vis := Tbl.upd s.work.vis 1 (fun v => { v with ctxMap := [(0, 0)] }) } }
/-- The record of request 5. -/
def r5 : Req := { ownerVi := 1, composition := 1, mapEpoch := 1, committed := 10, limit := 64, promptTokens := 4, blockMap := dAddr 8192, holdEpoch := 3 }
/-- This node holds request 5. -/
def held : State := let s := com (ctxd own); { s with kv := { reqs := [(5, r5)] } }
/-- What the node keeps about holding request 5. -/
def withHold (h : HoldState) (s : State) : State := { s with own := { s.own with holds := [(5, h)] } }
/-- The directory entry of request 5. -/
def withEntry (e : DirEntry) (s : State) : State := { s with own := { s.own with dir := [(5, e)] } }
/-- A directory entry of a DECODING request held by node 2. -/
def e5 : DirEntry := { st := .decoding, holder := 2, epoch := 3, mapEpoch := 1, composition := 1, backup := 2 }
/-- The header of a message about request 5. -/
def mh (src epoch : Nat) : MsgHdr := { src := src, req := 5, epoch := epoch, mapEpoch := 1 }
/-- One command of VI 1, with its queue. -/
def jobOf (c : Cmd) : State := { own with work := { own.work with nextCid := 100, cmds := [(1, c)], queues := [((1, 1, 0), { st := .active, ringBase := dAddr 65536, ringLog2 := 6, cplBase := dAddr 131072 })] } }
/-- VI 1's Mover queue 0. -/
def qd (q : Queue) (s : State) : State := { s with work := { s.work with queues := [((1, 1, 0), q)] } }
/-- An arena of two slots in DRAM. -/
def ar : Arena := { tier := 1, die := 0, headDim := 64, base := mkAddr 0 1 70368744177664, descBase := mkAddr 0 1 70368744177664 + 32768, slots := 2 }
/-- Its first descriptor's address. -/
def da0 : Nat := ar.descBase
/-- The descriptor of an OPEN block of request 5 with ten rows. -/
def d0 : Desc := { slot := ar.base, req := 5, valid := 10, committed := 10, st := 1, epoch := 3 }
/-- Request 5's first block has a descriptor. -/
def blkOf (d : Desc) : State := (({ held with kv := { held.kv with arenas := [ar] }, tier := { owners := [(da0, (1, 1))] } } : State).setDesc da0 d).setMapEntry r5 0 0 0 da0
/-- The same with ten rows. -/
def blk : State := blkOf d0
/-- A codebook set with version 5 in its first slot. -/
def cs5 : CbSet := { slots := [(5, 2, 0), (0, 0, 0), (0, 0, 0), (0, 0, 0)] }
/-- The set of directory entry 0, and the calibration node. -/
def cbs (x : CbSet) (node : Option Nat) : State := let s := com (ctxd own); ({ s with cb := { policies := [(1, { node := node })] } } : State).setCbSet 0 0 x
/-- Every command works in slot 0. -/
def slotted (s : State) : State := { s with work := { s.work with cmds := Tbl.mapVals s.work.cmds (fun _ c => { c with slot := some 0 }) } }
/-- A weight directory of one layer. -/
def wdir : State := ((com (ctxd own)).wrWords ctxF.weightDir [1, dAddr 3145728, 0, 0, 0, 0, 0, 0, mkAddr 2 1 64]).wr (dAddr 3145728) (bytesOf 4 0 ++ bytesOf 4 1)
/-- A WEIGHT_STREAM command over it, with its stream. -/
def wjob (x : Tbl Nat WStream) : State := let s := slotted (job 1 6 1 [0, dAddr 16384, mkWord [(35, 5, 2)], mkWord [(44, 10, 2), (12, 24, 5)], 0, dAddr 4096, 0] wdir); { s with tier := { s.tier with streams := x } }
/-- An index. -/
def ix : Index := { owner := 1, composition := 1, dim := 64, nlist := 16, itemMax := 4, sideMax := 4096, itemBase := dAddr 65536, centBase := dAddr 1048576, vecBase := dAddr 4194304, segBase := mkAddr 0 2 16384, segBytes := 16384, mergeAt := 1024 }
/-- It is index 0. -/
def ixd (x : Index) (s : State) : State := { s with srch := { indexes := [(0, x)] } }
/-- Request 5's record with a token ring. -/
def rT : Req := { r5 with tokenRing := dAddr 4096, committed := 8 }
/-- An OPEN token ring. -/
def tk0 : TokRing := { st := 1, log2 := 4, req := 5, prompt := 4, maxNew := 32, tok := 10, acked := 10, spec := dAddr 262144, bridge := 2 }
/-- Request 5 with a ring header, two ids in memory and a COMMIT command that runs. -/
def tkr (t : TokRing) (c : Nat) (n : Nat) : State := ({ (({ blk with kv := { blk.kv with reqs := [(5, rT)] } } : State).setRing rT t).wr (dAddr 512) (bytesOf 4 7 ++ bytesOf 4 9) with
  work := (job 1 5 2 [5, mkWord [(32, 32, c), (25, 7, n)], dAddr 512] blk).work } : State)
/-- Request 5 at this bridge. -/
def bridged (b : BridgeReq) (s : State) : State := { s with str := { s.str with bridges := [(5, b)] } }
/-- Client stream 1 of VI 1. -/
def strmd (x : ClientStream) (s : State) : State := { s with str := { s.str with streams := [((1, 1), x)] } }
/-- Composition 1 with erasure coding 2+1. -/
def protC (s : State) : State := { s with comps := [(1, { maps := [{ cmap with protection := .ec 2 1 }], bridges := [0, 2] })] }
/-- A protection write sent. -/
def writ (w : ProtWrite) (s : State) : State := { s with prot := { s.prot with writes := [(1, w)] } }
/-- The arena as a parity arena. -/
def par : Arena := { ar with parity := true }
/-- A parity descriptor. -/
def pd0 : PDesc := { slot := ar.base, req := 5, position := 2, k := 2, m2 := 0, dim := 64, stripe := 3, epoch := 3, bytes := 128, st := 1, sidecar := ar.base + 8192 }
/-- A parity shard of stripe 3 of request 5. -/
def parS : State := let s : State := { held with kv := { held.kv with arenas := [par] }, prot := { held.prot with shards := [((5, 3), da0)] } }; s.wrWords da0 pd0.words
/-- A STORE packet of node 9. -/
def pk1 : Packet := { ty := .store, src := 9, srcEp := 1, tc := 3, payloadLen := 64 }
/-- Port 0 faces a partner whose class 3 has a policer. -/
def pol (x : Policer) (perm : Nat) : State := { prt { partnerRole := 2, arrived := [pk1] } with tra := { base.tra with policers := [((0, 255, 3), x)], permitted := [((0, 255), perm)] } }
/-- Class 3 of VI 1 has a shaper. -/
def shp (x : Shaper) : State := { base with tra := { base.tra with shapers := [((1, 3), x)] } }
/-- Port 0's gates on a node that is locked or not. -/
def gat (g : Gates) (b : Bool) (s : State) : State := { s with tra := { s.tra with gates := [(0, g)] }, time := { s.time with locked := b } }
/-- VI 1's telemetry. -/
def tel (x : Telemetry) : State := { own with tra := { own.tra with telemetry := [(1, x)] } }
/-- A gate list object of one entry. -/
def gl : List Nat := let h := [mkWord [(32, 32, 5000000), (23, 9, 1)], 0, 0, 0, 0, 0, 0]; let es := [mkWord [(56, 8, 255), (0, 32, 5000000)]]; h ++ [crc64 (bytesOfWords (h ++ es))] ++ es
/-- A flash arena. -/
def fl : Arena := { tier := 2, headDim := 64, base := mkAddr 0 2 16384, descBase := mkAddr 0 2 49152, slots := 2 }
/-- The descriptor of a FULL block. -/
def dF : Desc := { slot := ar.base, req := 9, valid := 64, committed := 64, st := 2, epoch := 3 }
/-- A composition over its DRAM threshold. -/
def demS (d : Desc) : State := ({ held with kv := { held.kv with arenas := [ar, fl] }, prot := { held.prot with shards := [((9, 3), da0)] }, tier := { held.tier with owners := [(da0, (1, 1)), (fl.descBase, (1, 1))], ceilings := [((1, 1, 1), 16000)] } } : State).setDesc da0 d
/-- The block on its way to flash. -/
def migS (d : Desc) (m : Migration) : State := let s := (demS d).setDesc fl.descBase { slot := fl.base, req := 9, st := 4 }; { s with tier := { s.tier with migrations := [(da0, m)], transit := [fl.descBase] } }
/-- A row that showed corrected errors on two passes. -/
def errs (n : Nat) : State := { base with tier := { base.tier with rowErrors := [(rowKey 3 7, (2, 0))], rowSpares := [((3, 1), n)] } }
/-- A submission of three prompt ids. -/
def sb1 : Submission := { composition := 1, prompt := [1, 2, 3], limit := 64, tag := 9 }
/-- A capacity report. -/
def capR (at_ : Nat) : CapReport := { at_ := at_, records := 4, dirFree := 4, dram := 1000000 }
/-- The admission state of composition 1. -/
def admd (a : AdmComp) (s : State) : State := { s with adm := [(1, a)] }
/-- Reports of every member. -/
def fullR : AdmComp := { reports := [(0, capR 1000000000000), (2, capR 1000000000000), (4, capR 1000000000000)] }
/-- A request homed at node 3. -/
def rid3 : Nat := 3 * 2 ^ 36 + 5
/-- An admitted request. -/
def ad1 : Admitted := { req := 5, composition := 1, model := 1, mapEpoch := 1, ownerVi := 1, promptTokens := 3, limit := 64, bridge := 2, standby := 2, promptNode := 2, prompt := [1, 2, 3] }
/-- A descriptor whose check values are those of no rows. -/
def dM : Desc := let d : Desc := { slot := ar.base, req := 9, st := 1, epoch := 3 }; { d with crcA := held.crcA d 0, crcB := held.crcB d 0 }
/-- The state a command leaves. -/
def ran (c : Instr) (s : State) : State := match exec c s with | .next t => t | _ => s

/-! ### Well-formed commands: an ill-formed term for each check, which the check refuses -/

theorem test_wf_units : [Instr.commandFetch 256 1 0, .commandFetch 0 7 0, .commandFetch 0 0 0, .commandFetch 0 1 16, .schedulerDispatch 1 16, .nakRepeatTimer 18,
    .nakRepeatTimer 96, .holdDownExpiry 0 8, .hubStateAreaLoss 2, .pathProbeTimer 0 16].all (fun i => !i.wf) = true := by decide +kernel

theorem test_wf_ids : [Instr.leaseFenceTimer 4096, .leapTimeout (2 ^ 48), .driftWindowClose 64, .switchTime 64 0, .publish {} 0 4 0 0 0 0, .codebookFill 8 0 0 0 none 0,
    .dieFence 20, .rowRepair 16 0 0 false, .flashGc 32 0, .windowDrained 4095, .indexMerge 64, .policerRelease 0 0 8].all (fun i => !i.wf) = true := by decide +kernel

theorem test_wf_caller : [Instr.adhHello { vi := 256 }, .adhHello { mbox := 4 }].all (fun i => !i.wf) = true := by decide +kernel

theorem test_wf_msg_header : [Instr.mirrorAck { src := 4096 }, .mirrorAck { req := 2 ^ 48 }, .mirrorAck { epoch := 2 ^ 32 }, .mirrorAck { mapEpoch := 2 ^ 32 }].all (fun i => !i.wf) = true := by
  decide +kernel

theorem test_wf_flit : [Instr.flitReceive 0 0 { vc := 8 }, .flitReceive 0 0 { firstUnit := 32 }, .flitReceive 0 0 { seq := 4096 }, .flitReceive 0 0 { ackSeq := 4096 }].all
    (fun i => !i.wf) = true := by decide +kernel

theorem test_wf_packet : [({ tc := 8 } : Packet), { dst := 4096 }, { src := 4096 }, { srcVi := 256 }, { srcEp := 64 }, { path := 16 }, { hops := 16 }, { addr := 2 ^ 64 }, { tag := 2 ^ 32 },
    { winGen := 2 ^ 16 }, { winId := 4096 }, { operand := 2 ^ 64 }, { status := 2 ^ 16 }, { payloadLen := 4097 }, { msgId := 2 ^ 32 }, { crc := 2 ^ 64 },
    { payload := List.replicate 4097 0#8 }].all (fun p => !(Instr.load 0 p).wf) = true := by decide +kernel

theorem test_wf_accepts : [Instr.commandFetch 255 6 15, .flitReceive 81 0 { vc := 7, firstUnit := 31, seq := 4095 }, .load 17 { tc := 7, addr := 2 ^ 64 - 1, payloadLen := 4096 },
    .adhHello { vi := 255, mbox := 3 }, .idcode].all Instr.wf = true := by decide +kernel

/-! ### Decoding: the table gives no bits, so that no word spells a command -/

theorem test_decode_none : decodeTableWord 16 0x1234 = none := rfl
theorem test_with_fetch_word : base.withFetchWord 16 0x1234 = base := rfl

/-! ### The spec's worked examples -/

/-- R44's example: pointer 9 at the directory arbiter, 10 after the grant to input 9. -/
theorem test_arbiter_pointer : let s : State := { base with node := 0x0A7, pkg := { base.pkg with epoch := some 0x0000001234500000 } };
    s.ptr 5 24 = 9 ∧ (s.granted 5 24 9).ptr 5 24 = 10 := by decide +kernel

/-- R82's example: the new G share is 144. -/
theorem test_phase_share : nextShare { sG := 160, floorG := 96, usedG := 400000, usedP := 648000 } 0 1352000 = 144 := by decide

/-- R331 to R335's example: what the shaper holds at t0, and 128, 19,968 and 20,352 ns later. -/
theorem test_shaper : let b0 : Bucket := { rate := 25000, at_ := 0 }; let b1 := b0.draw (15 * 4144); let b2 := (b0.accrue 19968).minted;
    b1.held = 3376 ∧ (b1.accrue 128).held = 6576 ∧ ((b1.accrue 128).draw 4144).held = 2432 ∧ b2 = 564736 ∧
    (({ b0 with held := 1152, at_ := 19968 } : Bucket).change 19968 10000 32768).held = 1152 ∧
    ((({ b0 with held := 1152, at_ := 19968 } : Bucket).change 19968 10000 32768).accrue 20352).held = 4992 := by decide +kernel

/-- The gate list of the example of R322 to R328: the classes open at 10, 37 and 39.75 ms of a cycle. -/
theorem test_gate_list : let g : GateList := { period := 40000000, entries := [(0x8F, 36000000), (0xE0, 3500000), (0xFF, 500000)] };
    [10000000, 36000000, 77000000, 39750000].map g.openAt = [0x8F, 0xE0, 0xE0, 0xFF] := by decide +kernel

/-- R427 and R428's example: stripe 403 (id 404), data position 2 on M_8, parity on M_4 and M_5. -/
theorem test_stripe : stripeOf { layers := 80, kvHeads := 8, headDim := 128 } (.ec 8 2) 3 2 5 = (403, 2) ∧
    placements [0, 1, 2, 3, 4, 5, 6, 7, 8, 9] [] 0x0A7000003C21 403 10 = [6, 7, 8, 9, 0, 1, 2, 3, 4, 5].map some := by decide +kernel

/-- R502's example: the words 0 and 2 of an EV_PORT_WIDTH record of LK1 on node 0x255. -/
theorem test_event_record : ((({ code := .portWidth, time := 0, seq := 6703, die := 3, unit := 0, payload := [8, 8, 4, 0, 0] } : EventRec).records 0x255).map
    (fun r => (word r 0, bits (word r 2) 63 12))) = [(0x0000FFFF25505801, 0x00001A2F03000), (0x0000FFFF25505801, 0x00001A2F03000)] := by decide +kernel

/-- The stop sequences of R355's example: ids 1187, 4402, 90 complete the first, and 4402, 77 the second. -/
theorem test_stop_states : trieStates [[1187, 4402, 90], [4402, 77]] = [[], [1187], [1187, 4402], [1187, 4402, 90], [4402], [4402, 77]] ∧
    trieFail (trieStates [[1187, 4402, 90], [4402, 77]]) [1187, 4402] = [4402] := by decide +kernel

/-! ### Single commands -/

/-- IDCODE selects the 32-bit identification register (R484). -/
theorem test_idcode : ((ran .idcode base).jt.reg, (ran .idcode base).jt.mode) = (.idcode, .functional) := by decide +kernel
/-- A byte written is read back, its neighbour stands, and a zero byte is not listed. -/
theorem test_memory : memPuts [(4, 7#8)] 3 [1#8, 0#8] = [(3, 1#8)] ∧ memPuts [(4, 7#8)] 5 [9#8] = [(4, 7#8), (5, 9#8)] := by decide

/-! ### The hypotheses of the statements can be met -/

/-- The state of a witness below. -/
def w01OffStaysOff0t : State := (match step ({ State.reset with pw := { converters := false } } : State) with | .next t => t | _ => ({ State.reset with pw := { converters := false } } : State))
/-- The state of a witness below. -/
def w01TapConsistent0t : State := (match step State.reset with | .next t => t | _ => State.reset)
/-- The state of a witness below. -/
def w01MemoryCanonical0t : State := (match step State.reset with | .next t => t | _ => State.reset)
/-- The state of a witness below. -/
def w01ThrottlePins3s : State := { State.reset with aon := 1000000000, pw := { safeStorm := true } }
/-- The state of a witness below. -/
def w01ThrottlePins7s : State := { State.reset with pw := { alertLow := true, alertEndAt := 1 } }

/-- Witnesses for the statement StepRunsFront. -/
theorem wit_StepRunsFront :
    (∃ (c : Instr) (rest : List Instr) (s : State), s.pending = c :: rest) :=
  ⟨.idcode, [], { State.reset with pending := [.idcode] }, by decide +kernel⟩

/-- Witnesses for the statement IdleStep. -/
theorem wit_IdleStep :
    (∃ (s : State), s.pending = []) ∧
    (∃ (s : State), s.pending = [] ∧ s.live = true ∧ s.pw.stepSafe = 0 ∧ s.time.slew = none) :=
  ⟨⟨State.reset, by decide +kernel⟩,
   ⟨State.reset, by decide +kernel⟩⟩

/-- Witnesses for the statement DeadPackageTakesNothing. -/
theorem wit_DeadPackageTakesNothing :
    (∃ (c : Instr) (s : State), s.live = false ∧ c.alwaysOn = false) :=
  ⟨.nodeJoin, { State.reset with pw := { refclk := false } }, by decide +kernel⟩

/-- Witnesses for the statement OffStaysOff. -/
theorem wit_OffStaysOff :
    (∃ (s t : State), s.off ∧ step s = .next t) :=
  ⟨{ State.reset with pw := { converters := false } }, w01OffStaysOff0t, ⟨by decide +kernel, rfl⟩⟩

/-- Witnesses for the statement TapConsistent. -/
theorem wit_TapConsistent :
    (∃ (s t : State), s.jt.ok = true ∧ step s = .next t) :=
  ⟨State.reset, w01TapConsistent0t, ⟨by decide +kernel, rfl⟩⟩

/-- Witnesses for the statement MemoryCanonical. -/
theorem wit_MemoryCanonical :
    (∃ (s t : State), Memory.wf s.mem ∧ step s = .next t) :=
  ⟨State.reset, w01MemoryCanonical0t, ⟨by decide +kernel, rfl⟩⟩

/-- Witnesses for the statement PowerPins. -/
theorem wit_PowerPins :
    (∃ (mv : Nat), (mv < 46000 ∨ 63000 < mv)) ∧
    (∃ (mv : Nat) (s : State), s.pw.vinWarn = true ∧ 48000 ≤ mv ∧ mv ≤ 60000) ∧
    (∃ (s : State), s.pw.pwrgd = false ∧ s.pw.downRunning = false) ∧
    (∃ (s : State), s.pw.pwrgd = true ∧ s.pw.downRunning = false) ∧
    (∃ (s : State), s.pw.downRunning = true ∧ s.pw.pwrgdPend = false) ∧
    (∃ (s : State), s.pw.pwrgd = true) ∧
    (∃ (s : State), s.pw.resetHigh = false ∧ s.pw.pwrgd = true ∧ s.pw.pwrgdAt + 10000000 ≤ s.aon ∧ s.pw.converters = true ∧ s.pw.refclk = true) ∧
    (∃ (s : State), s.pw.converters = true) :=
  ⟨⟨45999, by decide +kernel⟩,
   ⟨60000, { State.reset with pw := { vinWarn := true } }, by decide +kernel⟩,
   ⟨{ State.reset with pw := { pwrgd := false } }, by decide +kernel⟩,
   ⟨State.reset, by decide +kernel⟩,
   ⟨{ State.reset with pw := { downRunning := true } }, by decide +kernel⟩,
   ⟨State.reset, by decide +kernel⟩,
   ⟨{ State.reset with pw := { resetHigh := false } }, by decide +kernel⟩,
   ⟨State.reset, by decide +kernel⟩⟩

/-- Witnesses for the statement ThrottlePins. -/
theorem wit_ThrottlePins :
    (∃ (s : State), s.pw.safeLow = false) ∧
    (∃ (s : State), s.pw.safeLow = true) ∧
    (∃ (s : State), s.pw.safeLow = true ∧ s.pw.safeStuckAt ≤ s.aon) ∧
    (∃ (s : State), s.pw.safeStorm = true ∧ s.pw.safeLow = false ∧ s.pw.safeAt + 1000000000 ≤ s.aon) ∧
    (∃ (temp : Nat) (s : State), Up s ∧ 95 ≤ temp ∧ s.pw.stepTempAt + 1000000 ≤ s.aon) ∧
    (∃ (watts : Nat) (s : State), Up s ∧ 1050 < watts ∧ s.pw.safeLow = false ∧ s.pw.safeStorm = false) ∧
    (∃ (temp : Nat) (s : State), Up s ∧ 100 ≤ temp) ∧
    (∃ (s : State), s.pw.alertLow = true ∧ s.alertCauses.any id = false ∧ s.pw.alertEndAt ≠ 0 ∧ s.pw.alertEndAt + 1000000 ≤ s.aon) :=
  ⟨⟨State.reset, by decide +kernel⟩,
   ⟨{ State.reset with pw := { safeLow := true } }, by decide +kernel⟩,
   ⟨{ State.reset with pw := { safeLow := true } }, by decide +kernel⟩,
   ⟨w01ThrottlePins3s, by decide +kernel⟩,
   ⟨95, State.reset, by decide +kernel⟩,
   ⟨1051, State.reset, by decide +kernel⟩,
   ⟨100, State.reset, by decide +kernel⟩,
   ⟨w01ThrottlePins7s, by decide +kernel⟩⟩

/-- Witnesses for the statement TapInstructions. -/
theorem wit_TapInstructions :
    (∃ (code : Nat), (code % 256 = 0 ∨ 8 ≤ code % 256)) :=
  ⟨0, by decide +kernel⟩

/-- The state of a witness below. -/
def w02DiesAndChannels2s : State := { base with pkg := { bulk := [(0, {})], bulkApplied := [0] } }
/-- The state of a witness below. -/
def w02DiesAndChannels3s : State := { base with pkg := { base.pkg with areas := [(0, { lost := true })] } }
/-- The state of a witness below. -/
def w02DiesAndChannels4s : State := { base with pkg := { base.pkg with areas := [(0, { copyStart := some 0 })] } }
/-- The state of a witness below. -/
def w02BootSteps7s : State := { base with boot := { accepted := [(0, true)], trainEnded := List.range 16, nandEnded := [14, 15] }, time := { locked := true } }

/-- Witnesses for the statement DiesAndChannels. -/
theorem wit_DiesAndChannels :
    (∃ (die : Nat) (s : State), Up s ∧ die < 20) ∧
    (∃ (hub : Nat) (s : State), Up s ∧ hub < 2) ∧
    (∃ (seq : Nat) (b : Bulk) (s : State), Up s ∧ Tbl.get s.pkg.bulk seq = some b ∧ b.sentAt + 10000 ≤ s.now ∧ s.pkg.bulkApplied.contains seq = true) ∧
    (∃ (hub m : Nat) (a : Area) (s : State), Up s ∧ Tbl.get s.pkg.areas hub = some a ∧ s.nextAreaDie hub = some m ∧ a.lost = true ∧ a.copyStart = none) ∧
    (∃ (hub t0 : Nat) (a : Area) (s : State), Up s ∧ Tbl.get s.pkg.areas hub = some a ∧ a.copyStart = some t0 ∧ t0 + 4026532 ≤ s.now) ∧
    (∃ (ch : Nat) (s : State), Up s ∧ s.channelUp ch = true) ∧
    (∃ (ch : Nat) (s : State), Up s ∧ s.flashChanUp ch = true) :=
  ⟨⟨0, State.reset, by decide +kernel⟩,
   ⟨0, State.reset, by decide +kernel⟩,
   ⟨0, (Tbl.get w02DiesAndChannels2s.pkg.bulk 0).getD ({} : Bulk), w02DiesAndChannels2s, by decide +kernel⟩,
   ⟨0, (w02DiesAndChannels3s.nextAreaDie 0).getD 0, (Tbl.get w02DiesAndChannels3s.pkg.areas 0).getD ({} : Area), w02DiesAndChannels3s, by decide +kernel⟩,
   ⟨0, (((Tbl.get w02DiesAndChannels4s.pkg.areas 0).getD ({} : Area)).copyStart).getD (0), (Tbl.get w02DiesAndChannels4s.pkg.areas 0).getD ({} : Area), w02DiesAndChannels4s, by decide +kernel⟩,
   ⟨0, base, by decide +kernel⟩,
   ⟨0, base, by decide +kernel⟩⟩

/-- Witnesses for the statement HubRounds. -/
theorem wit_HubRounds :
    (∃ (s : State), Up s) ∧
    (∃ (s : State), Up s) :=
  ⟨⟨State.reset, by decide +kernel⟩,
   ⟨State.reset, by decide +kernel⟩⟩

/-- Witnesses for the statement BootSteps. -/
theorem wit_BootSteps :
    (∃ (die : Nat) (s : State), s.live = true ∧ die < 2 ∧ Tbl.at s.boot.accepted die false = false ∧ s.isFenced (dieMG die) = false ∧ s.boot.recovery.running = false) ∧
    (∃ (s : State), s.live = true ∧ s.boot.recovery.running = true ∧ s.boot.recovery.solicitAt ≤ s.now) ∧
    (∃ (off : Nat) (data : List Byte) (s : State), s.live = true ∧ s.boot.recovery.running = true ∧ off % 1024 = 0 ∧ data.length = 1024 ∧ stagedImage (Tbl.set s.boot.recovery.blocks off data) = none) ∧
    (∃ (die : Nat) (s : State), Up s ∧ die < 20 ∧ s.boot.selfTested.contains die = false) ∧
    (∃ (die : Nat) (s : State), Up s ∧ die < 20 ∧ s.boot.selfTested.contains die = false) ∧
    (∃ (ch : Nat) (s : State), Up s ∧ ch < 16 ∧ s.boot.trainEnded.contains ch = false ∧ s.isFenced (dieMC (ch / 2)) = false) ∧
    (∃ (die : Nat) (s : State), Up s ∧ (die = 14 ∨ die = 15) ∧ s.isFenced die = false ∧ s.boot.nandEnded.contains die = false) ∧
    (∃ (s : State), Up s ∧ s.boot.joined = false ∧ s.adeahUp = true ∧ s.unmet = []) ∧
    (∃ (s : State), Up s ∧ s.boot.joined = false ∧ (if s.boot.joinFailAt = 0 then s.boot.t0 else s.boot.joinFailAt) + 60000000000 ≤ s.aon) ∧
    (∃ (at_ : Nat) (s : State), Up s ∧ s.boot.resetAt = some at_ ∧ at_ ≤ s.now) :=
  ⟨⟨0, State.reset, by decide +kernel⟩,
   ⟨{ base with boot := { recovery := { running := true } } }, by decide +kernel⟩,
   ⟨0, (zs 1024), { base with boot := { recovery := { running := true } } }, by decide +kernel⟩,
   ⟨0, State.reset, by decide +kernel⟩,
   ⟨0, State.reset, by decide +kernel⟩,
   ⟨0, State.reset, by decide +kernel⟩,
   ⟨14, State.reset, by decide +kernel⟩,
   ⟨w02BootSteps7s, by decide +kernel⟩,
   ⟨base, by decide +kernel⟩,
   ⟨(({ base with boot := { resetAt := some 0 } } : State).boot.resetAt).getD (0), { base with boot := { resetAt := some 0 } }, by decide +kernel⟩⟩

/-- The state of a witness below. -/
def w03Lanes2s : State := { base with lnk := { lanes := [(0, { down := true, testing := true })] } }
/-- The state of a witness below. -/
def w03Lanes4s : State := { prt { st := .active, active := [0, 1, 2, 3], partner := 7, partnerRole := 1 } with node := 9 }
/-- The state of a witness below. -/
def w03EthernetPorts2s : State := prt { st := .active, cfg := { mode := 2 }, partners := [(0, { paths := [(0, { window := [(1, [])] })] })] }
/-- The state of a witness below. -/
def w03EthernetPorts3s : State := prt { st := .active, cfg := { mode := 2 }, partners := [(0, { paths := [(0, { out := true })] })] }
/-- The state of a witness below. -/
def w03FabricTime2s : State := { base with node := 3, time := { locked := true, gm := 5, slavePort := some 0 } }
/-- The state of a witness below. -/
def w03FabricTime6s : State := { base with time := { ppsEnable := true, ppsLast := some 1000000000000 } }

/-- Witnesses for the statement PortTraining. -/
theorem wit_PortTraining :
    (∃ (p : Nat) (s : State), Up s ∧ (s.port p).st = .detect ∧ (s.port p).cfg.mode = 1) ∧
    (∃ (p : Nat) (s : State), Up s ∧ (s.port p).st = .detect ∧ (s.port p).detectAt + 100000000 ≤ s.now) ∧
    (∃ (p : Nat) (s : State), Up s ∧ (s.port p).st = .equalize ∧ s.bestSet p ≠ []) ∧
    (∃ (p : Nat) (s : State), Up s ∧ (s.port p).st = .fecLock) ∧
    (∃ (p n : Nat) (r : CapsRecord) (s : State), Up s ∧ (s.port p).st = .caps ∧ r.role = 1 ∧ r.node = n ∧ n ≠ s.node ∧ n < 4096 ∧ bit (s.port p).cfg.roles 0 = true ∧ r.versions = 8) ∧
    (∃ (p : Nat) (s : State), Up s ∧ (s.port p).st = .creditInit) ∧
    (∃ (p : Nat) (s : State), Up s ∧ (s.port p).st = .creditInit ∧ (s.port p).since + 10000 ≤ s.now) ∧
    (∃ (p : Nat) (s : State), Up s ∧ (s.port p).st = .active ∧ (s.port p).cfg.mode = 1 ∧ (s.port p).retraining = false ∧ (s.port p).lastAccept + 4000 ≤ s.now) ∧
    (∃ (p : Nat) (s : State), Up s ∧ (s.port p).st = .active ∧ (s.port p).retraining = true ∧ (s.port p).retrains.length < 3) :=
  ⟨⟨0, (prt { st := .detect }), by decide +kernel⟩,
   ⟨0, (prt { st := .detect }), by decide +kernel⟩,
   ⟨0, (prt { st := .equalize }), by decide +kernel⟩,
   ⟨0, (prt { st := .fecLock }), by decide +kernel⟩,
   ⟨0, 1, { role := 1, node := 1, versions := 8 }, (prt { st := .caps, cfg := { roles := 1 } }), by decide +kernel⟩,
   ⟨0, (prt { st := .creditInit }), by decide +kernel⟩,
   ⟨0, (prt { st := .creditInit }), by decide +kernel⟩,
   ⟨0, (prt { st := .active }), by decide +kernel⟩,
   ⟨0, (prt { st := .active, retraining := true }), by decide +kernel⟩⟩

set_option maxRecDepth 1000000 in
/-- Witnesses for the statement Flits. -/
theorem wit_Flits :
    (∃ (p : Nat) (f : Flit) (s : State), Up s ∧ (s.port p).st = .active ∧ (s.port p).retraining = false ∧ (s.port p).cfg.mode = 1 ∧ f.ftype = 2 ∧ f.crc = f.crcOf ∧ f.seq = (s.port p).rxSeq) ∧
    (∃ (p : Nat) (s : State), Up s ∧ (s.port p).st = .active ∧ (s.port p).retraining = false ∧ (s.port p).cfg.mode = 1 ∧ (s.port p).nak = false) ∧
    (∃ (p : Nat) (s : State), Up s ∧ (s.port p).st = .active ∧ (s.port p).nak = true ∧ (s.port p).nakDue = false ∧ (s.port p).nakAt + 4000 ≤ s.now) ∧
    (∃ (p : Nat) (s : State), Up s ∧ (s.port p).st = .active ∧ (s.port p).retraining = false ∧ (s.port p).cfg.mode = 1 ∧ (s.port p).replayAt = none ∧ 1024 ≤ (s.port p).replay.length) :=
  ⟨⟨0, (let f : Flit := { ftype := 2 }; { f with crc := f.crcOf }), (prt { st := .active }), by decide +kernel⟩,
   ⟨0, (prt { st := .active }), by decide +kernel⟩,
   ⟨0, (prt { st := .active, nak := true }), by decide +kernel⟩,
   ⟨0, (prt { st := .active, replay := List.replicate 1024 {} }), by decide +kernel⟩⟩

/-- Witnesses for the statement Lanes. -/
theorem wit_Lanes :
    (∃ (p k : Nat) (s : State), Up s ∧ s.portExists p = true ∧ (s.lanesUp p).contains k = true ∧ (s.port p).st = .detect) ∧
    (∃ (p k : Nat) (s : State), Up s ∧ s.portExists p = true ∧ (portLanes p).contains k = true ∧ (s.lane (globalLane p k)).down = true ∧ (s.lane (globalLane p k)).testing = false ∧ (s.lane (globalLane p k)).holdUntil ≤ s.now) ∧
    (∃ (p k : Nat) (s : State), Up s ∧ s.portExists p = true ∧ (portLanes p).contains k = true ∧ (s.lane (globalLane p k)).testing = true) ∧
    (∃ (p k : Nat) (s : State), Up s ∧ s.portExists p = true ∧ (portLanes p).contains k = true ∧ (s.lane (globalLane p k)).down = false ∧ (s.lane (globalLane p k)).upAt + 300000000000 ≤ s.now) ∧
    (∃ (p mask : Nat) (s : State), Up s ∧ (s.port p).st = .active ∧ (s.port p).cfg.mode = 1 ∧ laneSets.contains ((portLanes p).filter (bit mask)) = true ∧ ((portLanes p).filter (bit mask)).all (s.lanesUp p).contains = true ∧ (portLanes p).filter (bit mask) ≠ (s.port p).active ∧ s.widthMaster p = false ∧ (s.port p).active.length ≤ ((portLanes p).filter (bit mask)).length ∧ (s.port p).cfg.minWidth ≤ ((portLanes p).filter (bit mask)).length) ∧
    (∃ (p : Nat) (s : State), Up s ∧ (s.port p).st = .active ∧ (s.port p).cfg.mode = 1 ∧ s.widthMaster p = true ∧ (s.port p).active.length < (s.bestSet p).length ∧ (s.port p).widthAt = none ∧ (s.port p).cfg.minWidth ≤ (s.bestSet p).length) :=
  ⟨⟨0, 0, (prt { st := .detect }), by decide +kernel⟩,
   ⟨0, 0, { base with lnk := { lanes := [(0, { down := true })] } }, by decide +kernel⟩,
   ⟨0, 0, w03Lanes2s, by decide +kernel⟩,
   ⟨0, 0, base, by decide +kernel⟩,
   ⟨0, 255, w03Lanes4s, by decide +kernel⟩,
   ⟨0, (prt { st := .active, active := [0, 1, 2, 3] }), by decide +kernel⟩⟩

/-- Witnesses for the statement EthernetPorts. -/
theorem wit_EthernetPorts :
    (∃ (p : Nat) (frame : List Byte) (s : State), Up s ∧ (s.port p).st = .active ∧ (s.port p).cfg.mode = 2 ∧ (EthFrame.ofBytes frame).etherType = 0x8808) ∧
    (∃ (p : Nat) (frame : List Byte) (s : State), Up s ∧ (s.port p).st = .active ∧ (s.port p).cfg.mode = 2 ∧ (EthFrame.ofBytes frame).etherType ≠ 0x8808) ∧
    (∃ (p n x : Nat) (e : Partner) (s : State), Up s ∧ Tbl.get (s.port p).partners n = some e ∧ (Tbl.at e.paths x {}).window ≠ [] ∧ (Tbl.at e.paths x {}).out = false ∧ (Tbl.at e.paths x {}).sentAt + 50000 ≤ s.now ∧ (Tbl.at e.paths x {}).sends < 8) ∧
    (∃ (p n x : Nat) (e : Partner) (s : State), Up s ∧ Tbl.get (s.port p).partners n = some e ∧ (Tbl.at e.paths x {}).out = true ∧ (Tbl.at e.paths x {}).holdUntil ≤ s.now ∧ s.fab.routes = []) ∧
    (∃ (p : Nat) (s : State), Up s ∧ (s.port p).cfg.mode = 2 ∧ (s.port p).st = .detect ∧ s.portExists p = true ∧ (s.lanesUp p).length = (portLanes p).length) :=
  ⟨⟨0, (List.replicate 12 0#8 ++ [0x88#8, 0x08#8] ++ zs 46), (prt { st := .active, cfg := { mode := 2 } }), by decide +kernel⟩,
   ⟨0, (zs 60), (prt { st := .active, cfg := { mode := 2 } }), by decide +kernel⟩,
   ⟨0, 0, 0, (Tbl.get (w03EthernetPorts2s.port 0).partners 0).getD ({} : Partner), w03EthernetPorts2s, by decide +kernel⟩,
   ⟨0, 0, 0, (Tbl.get (w03EthernetPorts3s.port 0).partners 0).getD ({} : Partner), w03EthernetPorts3s, by decide +kernel⟩,
   ⟨0, (prt { st := .detect, cfg := { mode := 2 } }), by decide +kernel⟩⟩

/-- Witnesses for the statement FabricTime. -/
theorem wit_FabricTime :
    (∃ (p : Nat) (s : State), Up s ∧ (s.port p).st = .active) ∧
    (∃ (p : Nat) (s : State), Up s ∧ (s.port p).st = .active) ∧
    (∃ (s : State), Up s ∧ s.time.locked = true ∧ s.isGm = false ∧ s.time.lastSync + 100000000 ≤ s.now) ∧
    (∃ (p at_ : Nat) (a : Announce) (s : State), Up s ∧ Tbl.get s.time.announces p = some (a, at_) ∧ at_ + 375000000 ≤ s.now) ∧
    (∃ (p : Nat) (s : State), Up s ∧ (s.port p).st = .active ∧ (s.port p).cfg.mode = 1 ∧ Tbl.get s.time.sentAt (p, 1) = none) ∧
    (∃ (w : Slew) (s : State), Up s ∧ s.time.slew = some w ∧ w.left = 0) ∧
    (∃ (low high at_ : Nat) (s : State), Up s ∧ s.time.ppsEnable = true ∧ 100 ≤ low ∧ 100 ≤ high ∧ high ≤ 900000000 ∧ s.time.ppsLast = some at_ ∧ s.now < at_ + 999800000) ∧
    (∃ (low high : Nat) (s : State), Up s ∧ s.time.ppsEnable = true ∧ 100 ≤ low ∧ 100 ≤ high ∧ high ≤ 900000000 ∧ s.time.ppsLast = none ∧ s.time.ppsAcquired = false ∧ s.time.ppsRun = 0) ∧
    (∃ (at_ : Nat) (s : State), Up s ∧ s.time.ppsLast = some at_ ∧ at_ + 3000000000 ≤ s.now) :=
  ⟨⟨0, (prt { st := .active }), by decide +kernel⟩,
   ⟨0, (prt { st := .active }), by decide +kernel⟩,
   ⟨w03FabricTime2s, by decide +kernel⟩,
   ⟨0, 0, {}, { base with time := { announces := [(0, ({}, 0))] } }, by decide +kernel⟩,
   ⟨0, (prt { st := .active }), by decide +kernel⟩,
   ⟨(({ base with time := { slew := some {} } } : State).time.slew).getD ({} : Slew), { base with time := { slew := some {} } }, by decide +kernel⟩,
   ⟨100, 900000000, (w03FabricTime6s.time.ppsLast).getD (0), w03FabricTime6s, by decide +kernel⟩,
   ⟨100, 100, { base with time := { ppsEnable := true } }, by decide +kernel⟩,
   ⟨(({ base with time := { ppsLast := some 0 } } : State).time.ppsLast).getD (0), { base with time := { ppsLast := some 0 } }, by decide +kernel⟩⟩

/-- The state of a witness below. -/
def w04LineOpsAnswered0s : State := { own with lnk := { ports := [(3, { cfg := { roles := 2, endpoint := some 1 } })] } }
/-- The state of a witness below. -/
def w04LineOpsAnswered1s : State := { own with lnk := { ports := [(3, { cfg := { roles := 2, endpoint := some 1 } })] } }
/-- The state of a witness below. -/
def w04LineOpsAnswered2s : State := { own with lnk := { ports := [(3, { cfg := { roles := 2, endpoint := some 1 } })] } }
/-- The state of a witness below. -/
def w04LineOpsAnswered3s : State := { own with lnk := { ports := [(3, { cfg := { roles := 2, endpoint := some 1 } })] } }
/-- The state of a witness below. -/
def w04LineOpsAnswered4s : State := { own with lnk := { ports := [(3, { cfg := { roles := 2, endpoint := some 1 } })] } }
/-- The state of a witness below. -/
def w04LineOpsAnswered5s : State := { own with lnk := { ports := [(3, { cfg := { roles := 2, endpoint := some 1 } })] } }
/-- The state of a witness below. -/
def w04LineOpsAnswered6s : State := { own with lnk := { ports := [(3, { cfg := { roles := 2, endpoint := some 1 } })] } }
/-- The state of a witness below. -/
def w04LineOpsAnswered7s : State := { own with lnk := { ports := [(3, { cfg := { roles := 2, endpoint := some 1 } })] } }
/-- The state of a witness below. -/
def w04RegisterStores0s : State := { own with work := { own.work with queues := [((1, 1, 0), { st := .active, ringLog2 := 4 })] } }
/-- The state of a witness below. -/
def w04PacketsAndPaths1s : State := { base with fab := { out := [((2, 5), { pkt := { dst := 2, tag := 5, ty := .store } })] } }
/-- The state of a witness below. -/
def w04PacketsAndPaths2s : State := { base with fab := { routes := [((7, 0), 3)] }, lnk := { ports := [(1, { st := .active, arrived := [(({ ty := .load, dst := 7, src := 2 } : Packet).sealed)] }), (3, { st := .active, tx := (List.range 20).map (fun i => (i, { size := 100 })) })] } }
/-- The state of a witness below. -/
def w04PacketsAndPaths4s : State := { base with fab := { out := [((7, 0), { pkt := { dst := 7 } })], routes := [((7, 0), 3)] }, lnk := { ports := [(3, { st := .active })] } }
/-- The state of a witness below. -/
def w04PacketsAndPaths5s : State := { base with fab := { out := [((7, 0), { pkt := { dst := 7 } })] } }
/-- The state of a witness below. -/
def w04PacketsAndPaths6s : State := { base with fab := { peers := [(7, { dead := true })], routes := [((7, 0), 3)] }, lnk := { ports := [(3, { st := .active })] } }
/-- The state of a witness below. -/
def w04PacketsAndPaths7s : State := { base with fab := { peers := [(7, { pathHeld := [(false, [1])] })] } }
/-- The state of a witness below. -/
def w04Messages0s : State := { own with fab := { lists := [((1, 0), [{ len := 100, addr := dAddr 4096 }])] } }
/-- The state of a witness below. -/
def w04Messages1s : State := { job 1 1 4 [] own with fab := { msgs := [(5, { cid := 1, dst := 2 })] } }
/-- The state of a witness below. -/
def w04Messages2s : State := { job 1 1 4 [] own with fab := { msgs := [(5, { cid := 1, dst := 2 })], out := [((2, 0), { answered := true, rnrFirst := some 0, purpose := .message 5 })] } }
/-- The state of a witness below. -/
def w04Messages3s : State := { own with fab := { out := [((2, 0), { answered := true, rnrFirst := some 1000000000000 })] } }
/-- The state of a witness below. -/
def w04Messages5s : State := { job 1 1 4 [] own with fab := { msgs := [(0, { cid := 1, dst := 2 })] } }
/-- The state of a witness below. -/
def w04Messages6s : State := { own with fab := { reorder := [((2, 0), { tomb := some (.ok, 5) })] } }
/-- The state of a witness below. -/
def w04WindowsAndArms0s : State := { own with fab := { windows := [(0, { st := .draining })] } }
/-- The state of a witness below. -/
def w04WindowsAndArms1s : State := { own with fab := { windows := [(0, { st := .opened, held := [.revoke] })] } }
/-- The state of a witness below. -/
def w04WindowsAndArms2s : State := { job 1 1 6 [] own with fab := { arms := [{ cid := 1, vi := 1, expireAt := some 4 }] } }

set_option maxRecDepth 1000000 in
/-- Witnesses for the statement LineOperations. -/
theorem wit_LineOperations :
    (∃ (port : Nat) (p : Packet) (s : State), Up s ∧ p.ty = .load ∧ Admitted port p s ∧ Readable port p s) ∧
    (∃ (port : Nat) (p : Packet) (s : State), Up s ∧ p.ty = .store ∧ Memory.wf s.mem ∧ Admitted port p s ∧ Readable port p s) ∧
    (∃ (port : Nat) (p : Packet) (s : State), Up s ∧ p.ty = .storeFlag ∧ Memory.wf s.mem ∧ Admitted port p s ∧ Readable port p s) ∧
    (∃ (port : Nat) (p : Packet) (s : State), Up s ∧ p.ty = .cas ∧ Memory.wf s.mem ∧ Admitted port p s ∧ Readable port p s) ∧
    (∃ (port : Nat) (p : Packet) (s : State), Up s ∧ p.ty = .fetchAdd ∧ Memory.wf s.mem ∧ Admitted port p s ∧ Readable port p s) ∧
    (∃ (port : Nat) (p : Packet) (s : State), Up s ∧ p.ty = .swap ∧ Memory.wf s.mem ∧ Admitted port p s ∧ Readable port p s) ∧
    (∃ (port : Nat) (p : Packet) (s : State), Up s ∧ p.ty = .write ∧ Memory.wf s.mem ∧ Admitted port p s ∧ Readable port p s) ∧
    (∃ (port : Nat) (p : Packet) (s : State), Up s ∧ p.ty = .read ∧ Admitted port p s ∧ Readable port p s) :=
  ⟨⟨0, (req .load (dAddr 64) 0 []), own, by decide +kernel⟩,
   ⟨0, (req .store (dAddr 64) 64 (ones 64)), own, by decide +kernel⟩,
   ⟨0, (req .storeFlag (dAddr 64) 64 (ones 64)), own, by decide +kernel⟩,
   ⟨0, (req .cas (dAddr 64) 128 (zs 64 ++ ones 64)), own, by decide +kernel⟩,
   ⟨0, (req .fetchAdd (dAddr 72) 0 []), own, by decide +kernel⟩,
   ⟨0, (req .swap (dAddr 64) 64 (ones 64)), own, by decide +kernel⟩,
   ⟨0, (req .write (dAddr 64) 128 (ones 128)), own, by decide +kernel⟩,
   ⟨0, (req .read (dAddr 64) 128 []), own, by decide +kernel⟩⟩

set_option maxRecDepth 1000000 in
/-- Witnesses for the statement LineOpsAnswered. -/
theorem wit_LineOpsAnswered :
    (∃ (port q : Nat) (p : Packet) (s : State), Up s ∧ p.ty = .load ∧ p.src = s.node ∧ Admitted port p s ∧ Readable port p s ∧ (s.taken port p).endpointPort p.srcEp = some q) ∧
    (∃ (port q : Nat) (p : Packet) (s : State), Up s ∧ p.ty = .fetchAdd ∧ p.src = s.node ∧ Admitted port p s ∧ Readable port p s ∧ (s.taken port p).endpointPort p.srcEp = some q) ∧
    (∃ (port q : Nat) (p : Packet) (s : State), Up s ∧ p.ty = .swap ∧ p.src = s.node ∧ Admitted port p s ∧ Readable port p s ∧ (s.taken port p).endpointPort p.srcEp = some q) ∧
    (∃ (port q : Nat) (p : Packet) (s : State), Up s ∧ p.ty = .cas ∧ p.src = s.node ∧ Admitted port p s ∧ Readable port p s ∧ (s.taken port p).endpointPort p.srcEp = some q) ∧
    (∃ (port q : Nat) (p : Packet) (s : State), Up s ∧ p.ty = .read ∧ p.src = s.node ∧ Admitted port p s ∧ Readable port p s ∧ (s.taken port p).endpointPort p.srcEp = some q) ∧
    (∃ (port q : Nat) (p : Packet) (s : State), Up s ∧ p.ty = .store ∧ p.src = s.node ∧ Admitted port p s ∧ Readable port p s ∧ (s.taken port p).endpointPort p.srcEp = some q) ∧
    (∃ (port q : Nat) (p : Packet) (s : State), Up s ∧ p.ty = .storeFlag ∧ p.src = s.node ∧ Admitted port p s ∧ Readable port p s ∧ (s.taken port p).endpointPort p.srcEp = some q) ∧
    (∃ (port q : Nat) (p : Packet) (s : State), Up s ∧ p.ty = .write ∧ p.src = s.node ∧ Admitted port p s ∧ Readable port p s ∧ (s.taken port p).endpointPort p.srcEp = some q) :=
  ⟨⟨0, ((w04LineOpsAnswered0s.taken 0 (req .load (dAddr 64) 0 [])).endpointPort (req .load (dAddr 64) 0 []).srcEp).getD (0), (req .load (dAddr 64) 0 []), w04LineOpsAnswered0s, by decide +kernel⟩,
   ⟨0, ((w04LineOpsAnswered1s.taken 0 (req .fetchAdd (dAddr 72) 0 [])).endpointPort (req .fetchAdd (dAddr 72) 0 []).srcEp).getD (0), (req .fetchAdd (dAddr 72) 0 []), w04LineOpsAnswered1s, by decide +kernel⟩,
   ⟨0, ((w04LineOpsAnswered2s.taken 0 (req .swap (dAddr 64) 64 (ones 64))).endpointPort (req .swap (dAddr 64) 64 (ones 64)).srcEp).getD (0), (req .swap (dAddr 64) 64 (ones 64)), w04LineOpsAnswered2s, by decide +kernel⟩,
   ⟨0, ((w04LineOpsAnswered3s.taken 0 (req .cas (dAddr 64) 128 (zs 64 ++ ones 64))).endpointPort (req .cas (dAddr 64) 128 (zs 64 ++ ones 64)).srcEp).getD (0), (req .cas (dAddr 64) 128 (zs 64 ++ ones 64)), w04LineOpsAnswered3s, by decide +kernel⟩,
   ⟨0, ((w04LineOpsAnswered4s.taken 0 (req .read (dAddr 64) 64 [])).endpointPort (req .read (dAddr 64) 64 []).srcEp).getD (0), (req .read (dAddr 64) 64 []), w04LineOpsAnswered4s, by decide +kernel⟩,
   ⟨0, ((w04LineOpsAnswered5s.taken 0 (req .store (dAddr 64) 64 (ones 64))).endpointPort (req .store (dAddr 64) 64 (ones 64)).srcEp).getD (0), (req .store (dAddr 64) 64 (ones 64)), w04LineOpsAnswered5s, by decide +kernel⟩,
   ⟨0, ((w04LineOpsAnswered6s.taken 0 (req .storeFlag (dAddr 64) 64 (ones 64))).endpointPort (req .storeFlag (dAddr 64) 64 (ones 64)).srcEp).getD (0), (req .storeFlag (dAddr 64) 64 (ones 64)), w04LineOpsAnswered6s, by decide +kernel⟩,
   ⟨0, ((w04LineOpsAnswered7s.taken 0 (req .write (dAddr 64) 64 (ones 64))).endpointPort (req .write (dAddr 64) 64 (ones 64)).srcEp).getD (0), (req .write (dAddr 64) 64 (ones 64)), w04LineOpsAnswered7s, by decide +kernel⟩⟩

set_option maxRecDepth 1000000 in
/-- Witnesses for the statement RegisterStores. -/
theorem wit_RegisterStores :
    (∃ (v c q : Nat) (p : Packet) (s : State), Up s ∧ p.ty = .store ∧ addrSpace p.addr = 4 ∧ v < 256 ∧ 1 ≤ c ∧ c ≤ 6 ∧ q < 16 ∧ addrOff p.addr = v * 65536 + 8192 + ((c - 1) * 16 + q) * 64 ∧ Admitted 255 p s ∧ (s.vi v).st = .active ∧ (s.queue (v, c, q)).st = .active) ∧
    (∃ (v : Nat) (p : Packet) (s : State), Up s ∧ p.ty = .store ∧ addrSpace p.addr = 4 ∧ v < 256 ∧ addrOff p.addr = v * 65536 ∧ Admitted 255 p s) ∧
    (∃ (v m : Nat) (p : Packet) (s : State), Up s ∧ p.ty = .store ∧ addrSpace p.addr = 5 ∧ v < 256 ∧ m < 4 ∧ addrOff p.addr = v * 16384 + m * 4096 ∧ Admitted 255 p s ∧ (s.mbox v m).busy = true) ∧
    (∃ (v m : Nat) (p : Packet) (s : State), Up s ∧ p.ty = .store ∧ addrSpace p.addr = 5 ∧ v < 256 ∧ m < 4 ∧ addrOff p.addr = v * 16384 + m * 4096 ∧ Admitted 255 p s ∧ (s.mbox v m).busy = false ∧ s.adeahUp = true ∧ (s.mbox v m).lastSeq ≠ some (fld (wordsOf 8 p.payload) 0 31 16)) ∧
    (∃ (v n : Nat) (p : Packet) (s : State), Up s ∧ p.ty = .store ∧ addrSpace p.addr = 4 ∧ v < 256 ∧ n < 64 ∧ addrOff p.addr = 16777216 + v * 4096 + n * 64 ∧ Admitted 255 p s) ∧
    (∃ (v n : Nat) (p : Packet) (s : State), Up s ∧ p.ty = .fetchAdd ∧ addrSpace p.addr = 4 ∧ v < 256 ∧ n < 64 ∧ addrOff p.addr = 16777216 + v * 4096 + n * 64 ∧ Admitted 255 p s) ∧
    (∃ (v off : Nat) (p : Packet) (s : State), Up s ∧ p.ty = .store ∧ addrSpace p.addr = 4 ∧ v < 256 ∧ 64 ≤ off ∧ off < 8192 ∧ addrOff p.addr = v * 65536 + off ∧ Admitted 255 p s) ∧
    (∃ (v m l : Nat) (p : Packet) (s : State), Up s ∧ p.ty = .store ∧ addrSpace p.addr = 4 ∧ v < 256 ∧ m < 4 ∧ 0 < l ∧ l < 32 ∧ addrOff p.addr = v * 65536 + 49152 + m * 4096 + l * 64 ∧ Admitted 255 p s) :=
  ⟨⟨1, 1, 0, (req .store (mkAddr 0 4 73728) 64 (3#8 :: zs 63)), w04RegisterStores0s, by decide +kernel⟩,
   ⟨1, (req .store (mkAddr 0 4 65536) 64 (3#8 :: zs 63)), own, by decide +kernel⟩,
   ⟨1, 0, (req .store (mkAddr 0 5 16384) 64 (zs 64)), (ask 257 own), by decide +kernel⟩,
   ⟨1, 3, (req .store (mkAddr 0 5 28672) 64 (zs 64)), own, by decide +kernel⟩,
   ⟨1, 63, ({ req .store (mkAddr 0 4 16785344) 64 (5#8 :: zs 63) with operand := 255 }.sealed : Packet), own, by decide +kernel⟩,
   ⟨1, 0, (req .fetchAdd (mkAddr 0 4 16781312) 0 []), own, by decide +kernel⟩,
   ⟨1, 8128, (req .store (mkAddr 0 4 73664) 64 (zs 64)), own, by decide +kernel⟩,
   ⟨1, 3, 31, (req .store (mkAddr 0 4 (65536 + 49152 + 12288 + 31 * 64)) 64 (ones 64)), own, by decide +kernel⟩⟩

/-- Witnesses for the statement PacketsAndPaths. -/
theorem wit_PacketsAndPaths :
    (∃ (flag : Nat) (h : HeldFlag) (s : State), Up s ∧ Tbl.get s.fab.flags flag = some h ∧ (h.failed = true ∨ (h.waits.all (fun x => !Tbl.has s.fab.out (h.pkt.dst, x)) = true ∧ h.moves.all (fun m => !Tbl.has s.work.cmds m) = true))) ∧
    (∃ (p : Packet) (o : OutReq) (st : Status) (s : State), Up s ∧ p.resp = true ∧ p.ty ≠ .msgCtrl ∧ p.dst = s.node ∧ p.src ≠ s.node ∧ responseFormOk p = true ∧ p.crcOk = true ∧ Tbl.get s.fab.out (p.src, p.tag) = some o ∧ (o.purpose = .endpoint ∨ o.purpose = .probe) ∧ o.pkt.ty = p.ty ∧ (o.pkt.payloadLen = p.payloadLen ∨ p.ty ≠ .read) ∧ Status.ofCode p.status = some st ∧ st ≠ .packetCheck ∧ st ≠ .retryNoBuffer) ∧
    (∃ (port out : Nat) (p : Packet) (s : State), Up s ∧ p.dst ≠ s.node ∧ p.src ≠ s.node ∧ (s.port port).arrived.contains p = true ∧ p.crcOk = true ∧ p.hops < 15 ∧ s.egress p.dst p.path = some out ∧ (s.port out).st = .active ∧ s.hasUnits p.dst p.path ({ p with hops := p.hops + 1 } : Packet).sealed = true ∧ port ≠ 255) ∧
    (∃ (id : Nat) (x : Transit) (s : State), Up s ∧ Tbl.get s.fab.transit id = some x ∧ x.since + 1000000 ≤ s.now) ∧
    (∃ (dst tag x : Nat) (o : OutReq) (s : State), Up s ∧ Tbl.get s.fab.out (dst, tag) = some o ∧ dst < 4096 ∧ dst ≠ s.node ∧ o.answered = false ∧ o.purpose ≠ .probe ∧ o.lastSent + s.fab.deadBound / 10 ≤ s.now ∧ s.nextPath o.pkt = some x) ∧
    (∃ (dst tag : Nat) (o : OutReq) (s : State), Up s ∧ Tbl.get s.fab.out (dst, tag) = some o ∧ o.answered = false ∧ o.purpose = .endpoint ∧ o.firstSent + s.fab.deadBound ≤ s.now) ∧
    (∃ (dst path : Nat) (s : State), Up s ∧ dst < 4096 ∧ dst ≠ s.node ∧ ((s.peer dst).dead = true ∨ (s.peer dst).down.contains path = true) ∧ s.pathUsable dst path = true ∧ Tbl.at (s.peer dst).probeAt path 0 + 100000 ≤ s.now) ∧
    (∃ (dst : Nat) (up : Bool) (s : State), Up s ∧ Tbl.at (s.peer dst).pathHeld up [] ≠ [] ∧ Tbl.at (s.peer dst).pathEvAt up 0 + 1000000000 ≤ s.now) :=
  ⟨⟨0, (Tbl.get ({ base with fab := { flags := [(0, {})] } } : State).fab.flags 0).getD ({} : HeldFlag), { base with fab := { flags := [(0, {})] } }, by decide +kernel⟩,
   ⟨({ ty := .store, resp := true, dst := 0, src := 2, tag := 5 } : Packet).sealed, (Tbl.get w04PacketsAndPaths1s.fab.out ((({ ty := .store, resp := true, dst := 0, src := 2, tag := 5 } : Packet).sealed).src, (({ ty := .store, resp := true, dst := 0, src := 2, tag := 5 } : Packet).sealed).tag)).getD ({} : OutReq), (Status.ofCode (({ ty := .store, resp := true, dst := 0, src := 2, tag := 5 } : Packet).sealed).status).getD (.ok), w04PacketsAndPaths1s, by decide +kernel⟩,
   ⟨1, (w04PacketsAndPaths2s.egress (({ ty := .load, dst := 7, src := 2 } : Packet).sealed).dst (({ ty := .load, dst := 7, src := 2 } : Packet).sealed).path).getD (0), ({ ty := .load, dst := 7, src := 2 } : Packet).sealed, w04PacketsAndPaths2s, by decide +kernel⟩,
   ⟨0, (Tbl.get ({ base with fab := { transit := [(0, {})] } } : State).fab.transit 0).getD ({} : Transit), { base with fab := { transit := [(0, {})] } }, by decide +kernel⟩,
   ⟨7, 0, (w04PacketsAndPaths4s.nextPath ((Tbl.get w04PacketsAndPaths4s.fab.out (7, 0)).getD ({} : OutReq)).pkt).getD (0), (Tbl.get w04PacketsAndPaths4s.fab.out (7, 0)).getD ({} : OutReq), w04PacketsAndPaths4s, by decide +kernel⟩,
   ⟨7, 0, (Tbl.get w04PacketsAndPaths5s.fab.out (7, 0)).getD ({} : OutReq), w04PacketsAndPaths5s, by decide +kernel⟩,
   ⟨7, 0, w04PacketsAndPaths6s, by decide +kernel⟩,
   ⟨7, false, w04PacketsAndPaths7s, by decide +kernel⟩⟩

set_option maxRecDepth 1000000 in
/-- Witnesses for the statement Messages. -/
theorem wit_Messages :
    (∃ (port : Nat) (p : Packet) (b : Buffer) (bs : List Buffer) (s : State), Up s ∧ p.ty = .sendData ∧ p.resp = false ∧ s.policedBy port p = none ∧ requestFormOk p = true ∧ p.crcOk = true ∧ p.dst = s.node ∧ (s.taken port p).kept p = none ∧ (s.taken port p).messageFault port p = none ∧ Tbl.get s.fab.reorder (p.src, p.msgId) = none ∧ s.fab.reorder.length < 16384 ∧ Tbl.at s.fab.lists (bits p.addr 63 56, bits p.addr 55 52) [] = b :: bs ∧ bits p.addr 51 27 ≤ b.len ∧ bits p.addr 26 8 * 64 + p.payloadLen ≤ bits p.addr 51 27 ∧ p.payloadLen < bits p.addr 51 27) ∧
    (∃ (p : Packet) (x : OutMsg) (c : Cmd) (s : State), Up s ∧ p.ty = .msgCtrl ∧ responseFormOk p = true ∧ p.crcOk = true ∧ p.dst = s.node ∧ Tbl.get s.fab.msgs p.msgId = some x ∧ x.dst = p.src ∧ Tbl.get s.work.cmds x.cid = some c ∧ fld (wordsOf 8 p.payload) 0 63 56 = 1 ∧ word (wordsOf 8 p.payload) 1 = x.crc) ∧
    (∃ (dst tag m first : Nat) (o : OutReq) (x : OutMsg) (c : Cmd) (s : State), Up s ∧ Tbl.get s.fab.out (dst, tag) = some o ∧ o.answered = true ∧ o.rnrFirst = some first ∧ first + s.fab.rnrLimit ≤ s.now ∧ o.purpose = .message m ∧ Tbl.get s.fab.msgs m = some x ∧ Tbl.get s.work.cmds x.cid = some c) ∧
    (∃ (dst tag first : Nat) (o : OutReq) (s : State), Up s ∧ dst ≠ s.node ∧ Tbl.get s.fab.out (dst, tag) = some o ∧ o.answered = true ∧ o.rnrFirst = some first ∧ s.now < first + s.fab.rnrLimit ∧ o.rnrLast + 10000 ≤ s.now) ∧
    (∃ (src msg : Nat) (r : Reorder) (s : State), Up s ∧ Tbl.get s.fab.reorder (src, msg) = some r ∧ r.tomb = none ∧ r.firstT + s.fab.msgTimeout ≤ s.now) ∧
    (∃ (msg : Nat) (x : OutMsg) (c : Cmd) (s : State), Up s ∧ Tbl.get s.fab.msgs msg = some x ∧ Tbl.get s.work.cmds x.cid = some c ∧ x.unacked = 0 ∧ fld c.op 4 31 7 ≤ x.next ∧ x.ackedAt + s.fab.msgTimeout ≤ s.now) ∧
    (∃ (src msg at_ : Nat) (st : Status) (r : Reorder) (s : State), Up s ∧ Tbl.get s.fab.reorder (src, msg) = some r ∧ r.tomb = some (st, at_) ∧ at_ ≤ s.now) :=
  ⟨⟨0, (req .sendData (mkWord [(56, 8, 1), (27, 25, 90)]) 60 (ones 60)), { len := 100, addr := dAddr 4096 }, [], w04Messages0s, by decide +kernel⟩,
   ⟨({ ty := .msgCtrl, resp := true, src := 2, msgId := 5, payloadLen := 64, payload := bytesOfWords [mkWord [(56, 8, 1)], 0, 0, 0, 0, 0, 0, 0] } : Packet).sealed, (Tbl.get w04Messages1s.fab.msgs (({ ty := .msgCtrl, resp := true, src := 2, msgId := 5, payloadLen := 64, payload := bytesOfWords [mkWord [(56, 8, 1)], 0, 0, 0, 0, 0, 0, 0] } : Packet).sealed).msgId).getD ({} : OutMsg), (Tbl.get w04Messages1s.work.cmds ((Tbl.get w04Messages1s.fab.msgs (({ ty := .msgCtrl, resp := true, src := 2, msgId := 5, payloadLen := 64, payload := bytesOfWords [mkWord [(56, 8, 1)], 0, 0, 0, 0, 0, 0, 0] } : Packet).sealed).msgId).getD ({} : OutMsg)).cid).getD ({} : Cmd), w04Messages1s, by decide +kernel⟩,
   ⟨2, 0, 5, (((Tbl.get w04Messages2s.fab.out (2, 0)).getD ({} : OutReq)).rnrFirst).getD (0), (Tbl.get w04Messages2s.fab.out (2, 0)).getD ({} : OutReq), (Tbl.get w04Messages2s.fab.msgs 5).getD ({} : OutMsg), (Tbl.get w04Messages2s.work.cmds ((Tbl.get w04Messages2s.fab.msgs 5).getD ({} : OutMsg)).cid).getD ({} : Cmd), w04Messages2s, by decide +kernel⟩,
   ⟨2, 0, (((Tbl.get w04Messages3s.fab.out (2, 0)).getD ({} : OutReq)).rnrFirst).getD (0), (Tbl.get w04Messages3s.fab.out (2, 0)).getD ({} : OutReq), w04Messages3s, by decide +kernel⟩,
   ⟨2, 0, (Tbl.get ({ own with fab := { reorder := [((2, 0), {})] } } : State).fab.reorder (2, 0)).getD ({} : Reorder), { own with fab := { reorder := [((2, 0), {})] } }, by decide +kernel⟩,
   ⟨0, (Tbl.get w04Messages5s.fab.msgs 0).getD ({} : OutMsg), (Tbl.get w04Messages5s.work.cmds ((Tbl.get w04Messages5s.fab.msgs 0).getD ({} : OutMsg)).cid).getD ({} : Cmd), w04Messages5s, by decide +kernel⟩,
   ⟨2, 0, 5, .ok, (Tbl.get w04Messages6s.fab.reorder (2, 0)).getD ({} : Reorder), w04Messages6s, by decide +kernel⟩⟩

/-- Witnesses for the statement WindowsAndArms. -/
theorem wit_WindowsAndArms :
    (∃ (w : Nat) (s : State), Up s ∧ (s.window w).st = .draining ∧ (s.window w).admitted = 0) ∧
    (∃ (w : Nat) (s : State), Up s ∧ (s.window w).st = .opened ∧ (s.window w).held = [.revoke] ∧ (s.window w).mayRise s.now = true) ∧
    (∃ (cid e : Nat) (a : Arm) (c : Cmd) (s : State), Up s ∧ s.fab.arms.find? (fun x => x.cid == cid) = some a ∧ a.expireAt = some e ∧ e ≤ s.now ∧ Tbl.get s.work.cmds cid = some c) :=
  ⟨⟨0, w04WindowsAndArms0s, by decide +kernel⟩,
   ⟨0, w04WindowsAndArms1s, by decide +kernel⟩,
   ⟨1, 4, (w04WindowsAndArms2s.fab.arms.find? (fun x => x.cid == 1)).getD ({} : Arm), (Tbl.get w04WindowsAndArms2s.work.cmds 1).getD ({} : Cmd), w04WindowsAndArms2s, by decide +kernel⟩⟩

/-- Witnesses for the statement MoverCommands. -/
theorem wit_MoverCommands :
    (∃ (cid : Nat) (c : Cmd) (s : State), Up s ∧ Memory.wf s.mem ∧ s.running cid 1 1 = some c ∧ Tbl.has s.fab.jobs cid = false ∧ s.byPacket (word c.op 2) = false ∧ s.byPacket (word c.op 3) = false ∧ addrSpace (word c.op 3) ≠ 2 ∧ word c.op 2 % 64 = 0 ∧ word c.op 3 % 64 = 0 ∧ (word c.op 2 + 64 * fld c.op 4 63 40 ≤ word c.op 3 ∨ word c.op 3 + 64 * fld c.op 4 63 40 ≤ word c.op 2) ∧ ((∀ i, i < fld c.op 4 63 40 → s.readFault (word c.op 2 + 64 * i) 64 = none ∧ s.lineLost (word c.op 3 + 64 * i) false = false))) ∧
    (∃ (cid : Nat) (c : Cmd) (s : State), Up s ∧ s.running cid 1 4 = some c ∧ s.fab.msgs.any (fun m => m.2.cid == cid) = false ∧ s.readFault (word c.op 2) (fld c.op 4 31 7) = none ∧ (fld c.op 3 63 52 = s.node ∨ s.unreachable (fld c.op 3 63 52) = false)) ∧
    (∃ (cid : Nat) (c : Cmd) (s : State), Up s ∧ s.running cid 1 5 = some c ∧ (Tbl.at s.fab.lists (c.vi, fld c.op 4 38 35) []).length < 4096) ∧
    (∃ (cid : Nat) (c : Cmd) (s : State), Up s ∧ s.running cid 1 6 = some c ∧ armReached (s.counter c.vi (fld c.op 4 63 58)) (word c.op 3) = false ∧ (s.fab.arms.filter (fun x => x.vi == c.vi)).length < 1024) :=
  ⟨⟨1, ((job 1 1 1 [0, dAddr 0, dAddr 4096, mkWord [(40, 24, 2)]] own).running 1 1 1).getD ({} : Cmd), (job 1 1 1 [0, dAddr 0, dAddr 4096, mkWord [(40, 24, 2)]] own), by decide +kernel⟩,
   ⟨1, ((job 1 1 4 [0, dAddr 0, 0, mkWord [(7, 25, 10)]] own).running 1 1 4).getD ({} : Cmd), (job 1 1 4 [0, dAddr 0, 0, mkWord [(7, 25, 10)]] own), by decide +kernel⟩,
   ⟨1, ((job 1 1 5 [0, dAddr 0, 0, 0] own).running 1 1 5).getD ({} : Cmd), (job 1 1 5 [0, dAddr 0, 0, 0] own), by decide +kernel⟩,
   ⟨1, ((job 1 1 6 [0, 0, 5, 0] own).running 1 1 6).getD ({} : Cmd), (job 1 1 6 [0, 0, 5, 0] own), by decide +kernel⟩⟩

/-- The state of a witness below. -/
def w06ViAndQueueOperations3s : State := ask 515 { own with work := { own.work with vis := Tbl.upd own.work.vis 1 (fun v => { v with rights := { v.rights with maxPriority := 0 } }) } }
/-- The state of a witness below. -/
def w06ViAndQueueOperations4s : State := ask 516 { own with work := { own.work with queues := [((1, 1, 0), { st := .active, ringLog2 := 6 })] } }
/-- The state of a witness below. -/
def w06ViAndQueueOperations5s : State := ask 517 { own with work := { own.work with queues := [((1, 1, 0), { st := .error, ringLog2 := 6 })] } }
/-- The state of a witness below. -/
def w06ViAndQueueOperations9s : State := ask 770 { ctxd own with work := { (ctxd own).work with vis := own.work.vis } }

/-- Witnesses for the statement OperationAnswers. -/
theorem wit_OperationAnswers :
    (∃ (op : Nat) (f : Form) (c : Caller) (g : State → AdhOut) (s : State), AskedBox s op f c ∧ (g s).st ≠ .violation ∧ (g s).st ≠ .adhAccepted ∧ (g s).st ≠ .delayed) ∧
    (∃ (op id : Nat) (f : Form) (c : Caller) (g : State → AdhOut) (s : State), Asked s op f c ∧ c.session = some id ∧ c.order = none ∧ (g s).st ≠ .violation) ∧
    (∃ (op : Nat) (f : Form) (c : Caller) (s : State), s.live = true ∧ s.primaryUp = true ∧ s.holdsReq c op = true ∧ s.admits f c = false ∧ c.session = none ∧ c.order = none) ∧
    (∃ (op : Nat) (c : Caller) (s : State), s.holdsReq c op = false) :=
  ⟨⟨257, .user, cal, (fun z => adhOk z), (ask 257 own), by decide +kernel⟩,
   ⟨257, 7, .userRead, mgr, (fun z => adhOk z), (sess 257 base), by decide +kernel⟩,
   ⟨257, .mgmt, cal, (ask 257 own), by decide +kernel⟩,
   ⟨0, cal, own, by decide +kernel⟩⟩

/-- Witnesses for the statement InterfaceOperations. -/
theorem wit_InterfaceOperations :
    (∃ (c : Caller) (s : State), AskedBox s 257 .userRead c) ∧
    (∃ (c : Caller) (base log2 tail : Nat) (s : State), AskedBox s 258 .user c ∧ 4 ≤ log2 ∧ log2 ≤ 16 ∧ base % 64 = 0 ∧ tail % 64 = 0 ∧ s.covers c.vi base (2 ^ log2 * 64) rWr = true ∧ s.covers c.vi tail 64 rWr = true) ∧
    (∃ (c : Caller) (codes : List Nat) (s : State), AskedBox s 259 .user c ∧ s.isOperator c = true ∧ codes.all (fun n => Ev.all.any (fun e => e.code == n)) = true) ∧
    (∃ (c : Caller) (s : State), AskedBox s 260 .userRead c ∧ s.isOperator c = true) ∧
    (∃ (c : Caller) (s : State), AskedBox s 261 .oper c) ∧
    (∃ (c : Caller) (addrs watch collectors : List Nat) (s : State), Asked s 262 .oper c ∧ watch.length ≤ 256 ∧ watch.all (fun n => decide (n ≤ 4094)) = true ∧ (addrs ++ collectors).all (fun a => decide (a < 2 ^ 128)) = true) :=
  ⟨⟨cal, (ask 257 own), by decide +kernel⟩,
   ⟨cal, (dAddr 65536), 4, (dAddr 64), (ask 258 own), by decide +kernel⟩,
   ⟨cal, (Ev.all.take 1).map (fun e => e.code), (ask 259 own), by decide +kernel⟩,
   ⟨cal, (ask 260 own), by decide +kernel⟩,
   ⟨cal, (ask 261 own), by decide +kernel⟩,
   ⟨cal, [5], [4094], [], (ask 262 own), by decide +kernel⟩⟩

/-- Witnesses for the statement ViAndQueueOperations. -/
theorem wit_ViAndQueueOperations :
    (∃ (c : Caller) (vi : Nat) (sources : List SrcId) (comps models : List Nat) (maxPriority : Nat) (shares : List Nat) (rb : Nat) (s : State), Asked s 513 .order c ∧ 0 < vi ∧ vi ≤ 255 ∧ (s.vi vi).st = .unassigned ∧ rightsOk sources comps models maxPriority shares rb = true) ∧
    (∃ (c : Caller) (vi : Nat) (sources : List SrcId) (comps models : List Nat) (maxPriority : Nat) (shares : List Nat) (rb : Nat) (s : State), Asked s 2822 .order c ∧ 0 < vi ∧ vi ≤ 255 ∧ (s.vi vi).st ≠ .unassigned ∧ rightsOk sources comps models maxPriority shares rb = true) ∧
    (∃ (c : Caller) (vi : Nat) (s : State), Asked s 514 .userOper c ∧ (s.isOperator c = true ∨ vi = c.vi) ∧ 0 < vi ∧ vi ≤ 255 ∧ (s.vi vi).st = .active) ∧
    (∃ (c : Caller) (cls q ringBase ringLog2 cplBase priority notify : Nat) (s : State), AskedBox s 515 .user c ∧ 1 ≤ cls ∧ cls ≤ 6 ∧ q ≤ 15 ∧ (s.queue (c.vi, cls, q)).st = .disabled ∧ 6 ≤ ringLog2 ∧ ringLog2 ≤ 16 ∧ ringBase % (64 * 2 ^ ringLog2) = 0 ∧ cplBase % (32 * 2 ^ ringLog2) = 0 ∧ addrNode ringBase = s.node ∧ addrNode cplBase = s.node ∧ priority ≤ 3 ∧ (s.vi c.vi).rights.maxPriority ≤ priority ∧ notify % 64 = 0 ∧ (s.work.queues.filter (fun e => e.1.2.1 == cls && e.2.st != .disabled)).length < (classSize cls).2 ∧ s.covers c.vi ringBase (64 * 2 ^ ringLog2) (rRing + rRd) = true ∧ s.covers c.vi cplBase (32 * 2 ^ ringLog2) (rRing + rWr) = true) ∧
    (∃ (c : Caller) (cls q : Nat) (s : State), AskedBox s 516 .user c ∧ ((s.queue (c.vi, cls, q)).st = .active ∨ (s.queue (c.vi, cls, q)).st = .error)) ∧
    (∃ (c : Caller) (cls q : Nat) (s : State), AskedBox s 517 .user c ∧ (s.queue (c.vi, cls, q)).st = .error ∧ (s.queue (c.vi, cls, q)).resetOp = none) ∧
    (∃ (c : Caller) (cls i threshold : Nat) (s : State), Asked s 518 .oper c ∧ 1 ≤ cls ∧ cls ≤ 4 ∧ i < (classSize cls).1 ∧ 2000 ≤ threshold ∧ threshold ≤ 500000) ∧
    (∃ (c : Caller) (cls i floorG floorP : Nat) (s : State), Asked s 519 .oper c ∧ (cls = 1 ∨ cls = 3) ∧ i < (classSize cls).1 ∧ floorG ≤ 128 ∧ floorP ≤ 128) ∧
    (∃ (c : Caller) (model comp headDim layers kvHeads qPerKv cbDir wtDir n : Nat) (s : State), Asked s 769 .oper c ∧ model < 2 ^ 32 ∧ 0 < comp ∧ comp < 65535 ∧ ([64, 96, 128, 192, 256] : List Nat).contains headDim = true ∧ 0 < layers ∧ layers ≤ 1024 ∧ 0 < kvHeads ∧ kvHeads ≤ 256 ∧ 0 < qPerKv ∧ cbDir % 64 = 0 ∧ wtDir % 64 = 0 ∧ addrNode cbDir = s.node ∧ s.work.ctxs.all (fun x => x.2.st == .empty || x.2.f.model != model || x.2.f.composition != comp) = true ∧ n < 64 ∧ (s.ctx n).st = .empty ∧ ((∀ k, k < n → (s.ctx k).st ≠ .empty))) ∧
    (∃ (c : Caller) (slot index : Nat) (s : State), AskedBox s 770 .user c ∧ slot < 64 ∧ index < 16 ∧ ((s.ctx slot).st = .ready ∨ (s.ctx slot).st = .loading) ∧ (c.vi = 0 ∨ (s.vi c.vi).rights.models.contains (s.ctx slot).f.model = true) ∧ Tbl.has (s.vi c.vi).ctxMap index = false) ∧
    (∃ (c : Caller) (slot index : Nat) (s : State), AskedBox s 771 .user c ∧ Tbl.get (s.vi c.vi).ctxMap index = some slot) :=
  ⟨⟨ord, 255, [(0, 5)], [], [], 0, [1, 1, 1, 1, 1, 1], 0, base, by decide +kernel⟩,
   ⟨ord, 1, [(0, 5)], [], [], 0, [1, 1, 1, 1, 1, 1], 0, own, by decide +kernel⟩,
   ⟨cal, 1, (ask 514 own), by decide +kernel⟩,
   ⟨cal, 6, 15, (dAddr 65536), 6, (dAddr 131072), 0, 0, w06ViAndQueueOperations3s, by decide +kernel⟩,
   ⟨cal, 1, 0, w06ViAndQueueOperations4s, by decide +kernel⟩,
   ⟨cal, 1, 0, w06ViAndQueueOperations5s, by decide +kernel⟩,
   ⟨cal, 1, 0, 2000, (ask 518 own), by decide +kernel⟩,
   ⟨cal, 3, 1, 128, 128, (ask 519 own), by decide +kernel⟩,
   ⟨cal, 0, 1, 64, 1024, 256, 1, 0, 0, 0, (ask 769 own), by decide +kernel⟩,
   ⟨cal, 0, 0, w06ViAndQueueOperations9s, by decide +kernel⟩,
   ⟨cal, (Tbl.get ((ask 771 (ctxd own)).vi cal.vi).ctxMap 0).getD (0), 0, (ask 771 (ctxd own)), by decide +kernel⟩⟩

/-- The state of a witness below. -/
def w07ServiceOperations3s : State := ask 1281 { own with own := { dir := [(5, { composition := 1 })] } }
/-- The state of a witness below. -/
def w07ServiceOperations4s : State := ask 1282 { own with own := { dir := [(5, { composition := 1 })] } }
/-- The state of a witness below. -/
def w07ServiceOperations6s : State := ask 1284 { com own with kv := { reqs := [(5, { composition := 1, mapEpoch := 1 })] } }
/-- The state of a witness below. -/
def w07ServiceOperations8s : State := ask 773 { com (ctxd own) with cb := { policies := [(1, { node := some 0 })] }, work := { (ctxd own).work with ctxs := [(0, { st := .ready, f := ctxF, factors := [((0, 0, 0), List.replicate 64 0x3F800000)] })] } }

/-- Witnesses for the statement ServiceOperations. -/
theorem wit_ServiceOperations :
    (∃ (c : Caller) (comp model epoch : Nat) (prompt gen cache home : List Nat) (prot repr beat : Nat) (quotas : List Nat) (pr : Protection) (s : State), Asked s 1025 .order c ∧ protOf prot = some pr ∧ 0 < comp ∧ comp < 65535 ∧ model < 2 ^ 32 ∧ epoch < 2 ^ 32 ∧ [prompt, gen, cache, home].all (fun l => l.all (fun n => decide (n < 4095)) && decide l.Nodup) = true ∧ home ≠ [] ∧ home.length ≤ 4096 ∧ repr ≤ 2 ∧ 5000000 ≤ beat ∧ beat ≤ 250000000 ∧ quotas.length = 3 ∧ (pr = .none ∨ pr.least ≤ cache.length) ∧ (s.comp comp).maps = [] ∧ s.comps.length < 64) ∧
    (∃ (c : Caller) (comp : Nat) (s : State), AskedBox s 1026 .userRead c ∧ s.coversComp c.vi comp = true ∧ (s.comp comp).maps ≠ [] ∧ (s.comp comp).maps.length = 1) ∧
    (∃ (c : Caller) (comp : Nat) (s : State), AskedBox s 1027 .userRead c ∧ s.coversComp c.vi comp = true ∧ (s.comp comp).maps ≠ []) ∧
    (∃ (c : Caller) (req : Nat) (e : DirEntry) (s : State), AskedBox s 1281 .userRead c ∧ s.entry req = some e ∧ s.coversComp c.vi e.composition = true) ∧
    (∃ (c : Caller) (req : Nat) (e : DirEntry) (s : State), AskedBox s 1282 .userRead c ∧ s.entry req = some e ∧ s.coversComp c.vi e.composition = true) ∧
    (∃ (c : Caller) (comp lease leapTimeout pullMode pullDeadline : Nat) (s : State), Asked s 1283 .oper c ∧ (s.comp comp).maps ≠ [] ∧ 200000 ≤ lease ∧ lease ≤ 5000000 ∧ 200000 ≤ leapTimeout ∧ leapTimeout ≤ 10000000 ∧ pullMode ≤ 2 ∧ 50000 ≤ pullDeadline ∧ pullDeadline ≤ 100000000) ∧
    (∃ (c : Caller) (req : Nat) (target : Option Nat) (r : Req) (s : State), AskedBox s 1284 .oper c ∧ s.req req = some r ∧ (s.hold req).frozen = false ∧ (s.hold req).startOp = none ∧ target.all (fun x => ((s.comp r.composition).mapAt r.mapEpoch).gen.contains x && x != s.node) = true) ∧
    (∃ (c : Caller) (slot layer head kv : Nat) (factors : List Nat) (s : State), Asked s 772 .oper c ∧ ((s.ctx slot).st = .ready ∨ (s.ctx slot).st = .loading) ∧ layer < (s.ctx slot).f.layers ∧ head < (s.ctx slot).f.kvHeads ∧ kv ≤ 1 ∧ factors.length = (s.ctx slot).f.headDim ∧ factors.all f32Positive = true ∧ Tbl.get (s.ctx slot).factors (layer, head, kv) = none) ∧
    (∃ (c : Caller) (slot e l h kv : Nat) (obj : List Byte) (s : State), Asked s 773 .oper c ∧ (s.ctx slot).st = .ready ∧ obj.length = 64 + 512 * (s.ctx slot).f.headDim ∧ fld (wordsOf 8 obj) 0 28 26 = dimCode (s.ctx slot).f.headDim ∧ fld (wordsOf 8 obj) 0 25 0 = 0 ∧ l = fld (wordsOf 8 obj) 0 46 37 ∧ h = fld (wordsOf 8 obj) 0 36 29 ∧ kv = fld (wordsOf 8 obj) 0 47 47 ∧ l < (s.ctx slot).f.layers ∧ h < (s.ctx slot).f.kvHeads ∧ fld (wordsOf 8 obj) 1 63 32 = (s.ctx slot).f.model ∧ fld (wordsOf 8 obj) 4 47 0 = 0 ∧ word (wordsOf 8 obj) 5 = 0 ∧ word (wordsOf 8 obj) 6 = 0 ∧ s.calibNode (s.ctx slot).f.composition = s.node ∧ s.hasFactors slot l h kv = true ∧ e = (s.ctx slot).f.entry l h kv ∧ (s.liveVers (s.ctx slot).f.composition e).length < 4 ∧ (List.range 4).any (fun i => ((s.cbSet slot e).slot i).2.1 == 0) = true) ∧
    (∃ (c : Caller) (comp : Nat) (node : Option Nat) (p : List Nat) (s : State), Asked s 774 .oper c ∧ (s.comp comp).maps ≠ [] ∧ p.length = 15 ∧ (p.zip calibRanges).all (fun x => decide (x.2.1 ≤ x.1) && decide (x.1 ≤ x.2.2)) = true ∧ node.all (fun n => (s.comp comp).cur.cache.contains n) = true) ∧
    (∃ (c : Caller) (comp distHi epsHi dvHi : Nat) (s : State), Asked s 775 .oper c ∧ (s.comp comp).maps ≠ [] ∧ [distHi, epsHi, dvHi].all (fun n => decide (256 ≤ n) && decide (n ≤ 1048576)) = true) :=
  ⟨⟨ord, 1, 0, 0, [], [], [], [0], 0, 0, 5000000, [1, 1, 1], .none, base, by decide +kernel⟩,
   ⟨cal, 1, (ask 1026 (com own)), by decide +kernel⟩,
   ⟨cal, 1, (ask 1027 (com own)), by decide +kernel⟩,
   ⟨cal, 5, (w07ServiceOperations3s.entry 5).getD ({} : DirEntry), w07ServiceOperations3s, by decide +kernel⟩,
   ⟨cal, 5, (w07ServiceOperations4s.entry 5).getD ({} : DirEntry), w07ServiceOperations4s, by decide +kernel⟩,
   ⟨cal, 1, 200000, 10000000, 2, 50000, (ask 1283 (com own)), by decide +kernel⟩,
   ⟨cal, 5, (some 3), (w07ServiceOperations6s.req 5).getD ({} : Req), w07ServiceOperations6s, by decide +kernel⟩,
   ⟨cal, 0, 0, 0, 0, (List.replicate 64 0x3F800000), (ask 772 (ctxd own)), by decide +kernel⟩,
   ⟨cal, 0, (w07ServiceOperations8s.ctx 0).f.entry (fld (wordsOf 8 (bytesOfWords [0, mkWord [(32, 32, 1)], 0, 0, 0, 0, 0, 0] ++ zs 32768)) 0 46 37) (fld (wordsOf 8 (bytesOfWords [0, mkWord [(32, 32, 1)], 0, 0, 0, 0, 0, 0] ++ zs 32768)) 0 36 29) (fld (wordsOf 8 (bytesOfWords [0, mkWord [(32, 32, 1)], 0, 0, 0, 0, 0, 0] ++ zs 32768)) 0 47 47), (fld (wordsOf 8 (bytesOfWords [0, mkWord [(32, 32, 1)], 0, 0, 0, 0, 0, 0] ++ zs 32768)) 0 46 37), (fld (wordsOf 8 (bytesOfWords [0, mkWord [(32, 32, 1)], 0, 0, 0, 0, 0, 0] ++ zs 32768)) 0 36 29), (fld (wordsOf 8 (bytesOfWords [0, mkWord [(32, 32, 1)], 0, 0, 0, 0, 0, 0] ++ zs 32768)) 0 47 47), (bytesOfWords [0, mkWord [(32, 32, 1)], 0, 0, 0, 0, 0, 0] ++ zs 32768), w07ServiceOperations8s, by decide +kernel⟩,
   ⟨cal, 1, (some 4), (calibRanges.map (fun x => x.1)), (ask 774 (com own)), by decide +kernel⟩,
   ⟨cal, 1, 256, 1048576, 256, (ask 775 (com own)), by decide +kernel⟩⟩

/-- Witnesses for the statement TierOperations. -/
theorem wit_TierOperations :
    (∃ (c : Caller) (tier die headDim base slots : Nat) (s : State), Asked s 1537 .oper c ∧ 1 ≤ tier ∧ tier ≤ 3 ∧ dimOk headDim = true ∧ 0 < slots ∧ base % 4096 = 0 ∧ addrNode base = s.node ∧ addrSpace base = tier ∧ (tier ≠ 1 ∨ (die ≤ 7 ∧ directDie base = some die ∧ directDie (base + slots * (256 * headDim + 64) - 1) = some die)) ∧ s.offsetDefined base = true ∧ s.offsetDefined (base + slots * (256 * headDim + 64) - 1) = true ∧ s.kv.arenas.all (fun x => !x.overlaps base (slots * (256 * headDim + 64))) = true) ∧
    (∃ (c : Caller) (sramTier interleave flashOp : Nat) (s : State), Asked s 1538 .oper c ∧ sramTier ≤ 33554432 ∧ interleave % 2 ^ 30 = 0 ∧ interleave ≤ s.maxInterleave ∧ 16 ≤ flashOp ∧ flashOp ≤ 128) ∧
    (∃ (c : Caller) (comp : Nat) (p : List Nat) (s : State), Asked s 1539 .oper c ∧ (s.comp comp).maps ≠ [] ∧ p.length = 8 ∧ (p.zip tierRanges).all (fun x => decide (x.2.1 ≤ x.1) && decide (x.1 ≤ x.2.2)) = true ∧ word p 1 < word p 0) ∧
    (∃ (c : Caller) (kind : Nat) (s : State), AskedBox s 1540 .userRead c ∧ kind ≤ 1 ∧ s.isOperator c = true) ∧
    (∃ (c : Caller) (period : Nat) (s : State), Asked s 1541 .oper c ∧ 3600000000000 ≤ period ∧ period ≤ 604800000000000) ∧
    (∃ (c : Caller) (vi index base limit owner rights : Nat) (s : State), Asked s 1542 .order c ∧ 0 < vi ∧ vi ≤ 255 ∧ (s.vi vi).st ≠ .unassigned ∧ index ≤ 63 ∧ owner ≤ 255 ∧ owner ≠ vi ∧ rights ≤ 255 ∧ base % 64 = 0 ∧ limit % 64 = 63 ∧ base ≤ limit ∧ addrNode base = s.node ∧ addrNode limit = s.node ∧ addrSpace limit = addrSpace base ∧ s.offsetDefined base = true ∧ s.offsetDefined limit = true ∧ s.adh.order = none) ∧
    (∃ (c : Caller) (kind id tier : Nat) (s : State), Asked s 1543 .order c ∧ 1 ≤ tier ∧ tier ≤ 3 ∧ ((kind = 0 ∧ id ≤ 255) ∨ (kind = 1 ∧ 0 < id ∧ id < 65535))) :=
  ⟨⟨cal, 2, 0, 64, (mkAddr 0 2 4096), 1, (ask 1537 own), by decide +kernel⟩,
   ⟨cal, 33554432, 0, 128, (ask 1538 own), by decide +kernel⟩,
   ⟨cal, 1, ([90, 80] ++ (tierRanges.drop 2).map (fun x => x.1)), (ask 1539 (com own)), by decide +kernel⟩,
   ⟨cal, 1, (ask 1540 own), by decide +kernel⟩,
   ⟨cal, 3600000000000, (ask 1541 own), by decide +kernel⟩,
   ⟨ord, 1, 63, (dAddr 0), (dAddr 127), 0, 255, own, by decide +kernel⟩,
   ⟨ord, 1, 1, 3, own, by decide +kernel⟩⟩

/-- The state of a witness below. -/
def w08FabricOperations2s : State := { own with lnk := { ports := [(0, { cfg := { mode := 2 } })] } }
/-- The state of a witness below. -/
def w08FabricOperations7s : State := ask 1800 { own with fab := { windows := [(0, { st := .opened, e := { owner := 1 } })] } }
/-- The state of a witness below. -/
def w08FabricOperations8s : State := ask 1801 { own with fab := { windows := [(0, { st := .revoked, e := { owner := 1 } })] } }
/-- The state of a witness below. -/
def w08FabricOperations9s : State := { own with fab := { windows := [(0, { st := .opened, e := { owner := 1 } })] } }
/-- The state of a witness below. -/
def w08FabricOperations10s : State := ask 1803 { own with fab := { windows := [(0, { st := .opened, e := { owner := 1 } })] } }
/-- The state of a witness below. -/
def w08CroaksAndFailover0s : State := { base with boot := { accepted := [(1, true)] }, pkg := { fenced := [18] } }
/-- The state of a witness below. -/
def w08CroaksAndFailover5s : State := { base with adh := { watched := [(5, { planeAt := [(0, 1000000000000)] })] } }

/-- Witnesses for the statement FabricOperations. -/
theorem wit_FabricOperations :
    (∃ (c : Caller) (port mode roles rate minWidth : Nat) (pools : List Nat) (endpoint : Option Nat) (eth : List Nat) (s : State), Asked s 1793 .oper c ∧ portFieldsOk port mode roles rate minWidth pools endpoint eth = true) ∧
    (∃ (c : Caller) (port : Nat) (s : State), AskedBox s 1794 .userRead c ∧ s.portExists port = true) ∧
    (∃ (c : Caller) (port entry : Nat) (f : List Nat) (s : State), Asked s 1795 .order c ∧ s.portExists port = true ∧ (s.port port).cfg.mode = 2 ∧ entry ≤ 63 ∧ f.length = 6 ∧ word f 0 < 2 ^ 128 ∧ word f 1 < 2 ^ 48 ∧ 1 ≤ word f 2 ∧ word f 2 ≤ 3 ∧ word f 3 ≤ 4094 ∧ word f 4 ≤ 63 ∧ word f 5 ≤ 31) ∧
    (∃ (c : Caller) (dst path : Nat) (p : Option Nat) (s : State), Asked s 1796 .oper c ∧ dst ≤ 4094 ∧ path ≤ 15 ∧ p.all (fun x => decide (portBase x ≤ 17) && decide (portHalf x ≤ 2)) = true) ∧
    (∃ (c : Caller) (deadBound msgTimeout rnrLimit : Nat) (s : State), Asked s 1797 .oper c ∧ 2000 ≤ deadBound ∧ deadBound ≤ 200000 ∧ 100000 ≤ msgTimeout ∧ msgTimeout ≤ 100000000 ∧ 10000 ≤ rnrLimit ∧ rnrLimit ≤ 10000000) ∧
    (∃ (c : Caller) (domain p1 p2 utc : Nat) (s : State), Asked s 1798 .oper c ∧ domain ≤ 127 ∧ p1 ≤ 254 ∧ p2 ≤ 255 ∧ utc ≤ 255) ∧
    (∃ (c : Caller) (w base limit owner rights comp listMask : Nat) (srcs : List SrcId) (s : State), Asked s 1799 .order c ∧ w ≤ 4094 ∧ owner ≤ 255 ∧ rights ≤ 15 ∧ comp ≤ 65534 ∧ listMask ≤ 65535 ∧ srcs.length ≤ 8 ∧ srcs.all (fun x => decide (x.1 ≤ 4094) && decide (x.2 ≤ 63)) = true ∧ s.windowRange base limit = true ∧ (s.window w).st ≠ .draining ∧ (s.window w).held = [] ∧ (s.window w).mayRise s.now = true) ∧
    (∃ (c : Caller) (w : Nat) (s : State), AskedBox s 1800 .user c ∧ w ≤ 4094 ∧ (s.window w).st = .opened ∧ (s.window w).e.owner = c.vi ∧ (s.window w).held = [] ∧ (s.window w).mayRise s.now = true) ∧
    (∃ (c : Caller) (w : Nat) (s : State), AskedBox s 1801 .user c ∧ w ≤ 4094 ∧ (s.window w).st = .revoked ∧ (s.window w).e.owner = c.vi) ∧
    (∃ (c : Caller) (w : Nat) (s : State), Asked s 1802 .order c ∧ w ≤ 4094 ∧ (s.window w).st = .opened ∧ (s.window w).held = [] ∧ (s.window w).mayRise s.now = true) ∧
    (∃ (c : Caller) (w : Nat) (s : State), AskedBox s 1803 .user c ∧ w ≤ 4094 ∧ (s.window w).e.owner = c.vi) :=
  ⟨⟨cal, 0, 1, 1, 0, 1, (List.replicate 16 4096), none, [0, 9000, 49601, 0, 0, 0, 0, 0, 0, 0, 0, 0], (ask 1793 own), by decide +kernel⟩,
   ⟨cal, 0, (ask 1794 own), by decide +kernel⟩,
   ⟨ord, 0, 63, [5, 6, 3, 4094, 63, 31], w08FabricOperations2s, by decide +kernel⟩,
   ⟨cal, 4094, 15, (some 17), (ask 1796 own), by decide +kernel⟩,
   ⟨cal, 2000, 100000000, 10000, (ask 1797 own), by decide +kernel⟩,
   ⟨cal, 127, 254, 255, 37, (ask 1798 own), by decide +kernel⟩,
   ⟨ord, 4094, (dAddr 0), (dAddr 4095), 1, 15, 1, 0, [], own, by decide +kernel⟩,
   ⟨cal, 0, w08FabricOperations7s, by decide +kernel⟩,
   ⟨cal, 0, w08FabricOperations8s, by decide +kernel⟩,
   ⟨ord, 0, w08FabricOperations9s, by decide +kernel⟩,
   ⟨cal, 0, w08FabricOperations10s, by decide +kernel⟩⟩

/-- Witnesses for the statement TrustOperations. -/
theorem wit_TrustOperations :
    (∃ (c : Caller) (da no : Nat) (s : State), Asked s 2819 .mgmt c ∧ s.adh.trust = none ∧ keyOk da = true ∧ keyOk no = true) ∧
    (∃ (c : Caller) (da no : Nat) (o : Nat × Nat) (s : State), Asked s 2820 .order c ∧ s.adh.trust = some o ∧ keyOk da = true ∧ keyOk no = true) ∧
    (∃ (c : Caller) (s : State), Asked s 2821 .order c) ∧
    (∃ (c : Caller) (image : List Byte) (s : State), Asked s 2823 .order c ∧ image.length ≤ 33554432) ∧
    (∃ (c : Caller) (p : Nat) (s : State), Asked s 2824 .order c ∧ 1 ≤ p ∧ p ≤ 3) ∧
    (∃ (c : Caller) (s : State), Asked s 2825 .order c) ∧
    (∃ (c : Caller) (s : State), Asked s 2826 .order c) ∧
    (∃ (c : Caller) (p : Nat) (s : State), AskedBox s 2817 .oper c ∧ 1 ≤ p ∧ p ≤ 3) ∧
    (∃ (o : OrderDrain) (s : State), Up s ∧ s.adh.order = some o ∧ s.orderDrained o = true) ∧
    (∃ (c : Caller) (nonce : List Byte) (s : State), AskedBox s 2818 .userRead c ∧ nonce.length = 64) ∧
    (∃ (principal da no : Nat) (s : State), s.live = true ∧ s.primaryUp = true ∧ s.adh.trust = some (da, no) ∧ principal ≤ 1 ∧ s.adh.sessions.length < 16) ∧
    (∃ (c : Caller) (id : Nat) (bytes : List Byte) (x : Session) (s : State), Asked s 2828 .mgmt c ∧ c.session = some id ∧ Tbl.get s.adh.sessions id = some x ∧ Tbl.at x.upload 0 [] = [] ∧ bytes.length ≤ 33554432) ∧
    (∃ (bytes : List Byte) (x : Session) (s : State), Up s ∧ s.primaryUp = true ∧ Tbl.get s.adh.sessions (word (wordsOf 2 bytes) 0) = some x ∧ 112 ≤ bytes.length ∧ bytes.length ≤ 8304 ∧ x.seq < word (wordsOf 2 bytes) 1 ∧ x.header = []) ∧
    (∃ (id : Nat) (x : Session) (s : State), Up s ∧ Tbl.get s.adh.sessions id = some x ∧ x.lastAt + 60000000000 ≤ s.now) :=
  ⟨⟨mgr, (2 ^ 4095 + 1), (2 ^ 4095 + 3), (sess 2819 base), by decide +kernel⟩,
   ⟨ord, (2 ^ 4095 + 1), (2 ^ 4095 + 3), (1, 2), { own with adh := { trust := some (1, 2) } }, by decide +kernel⟩,
   ⟨ord, own, by decide +kernel⟩,
   ⟨ord, [], own, by decide +kernel⟩,
   ⟨ord, 3, own, by decide +kernel⟩,
   ⟨ord, own, by decide +kernel⟩,
   ⟨ord, own, by decide +kernel⟩,
   ⟨cal, 1, (ask 2817 own), by decide +kernel⟩,
   ⟨(({ own with adh := { order := some {} } } : State).adh.order).getD ({} : OrderDrain), { own with adh := { order := some {} } }, by decide +kernel⟩,
   ⟨cal, (zs 64), (ask 2818 own), by decide +kernel⟩,
   ⟨1, 1, 2, { own with adh := { trust := some (1, 2) } }, by decide +kernel⟩,
   ⟨mgr, 7, (ones 5), (Tbl.get (sess 2828 base).adh.sessions 7).getD ({} : Session), (sess 2828 base), by decide +kernel⟩,
   ⟨(bytesOfWords [7, 1] ++ zs 96), (Tbl.get ({ base with adh := { sessions := [(7, {})] } } : State).adh.sessions (word (wordsOf 2 (bytesOfWords [7, 1] ++ zs 96)) 0)).getD ({} : Session), { base with adh := { sessions := [(7, {})] } }, by decide +kernel⟩,
   ⟨7, (Tbl.get ({ base with adh := { sessions := [(7, {})] } } : State).adh.sessions 7).getD ({} : Session), { base with adh := { sessions := [(7, {})] } }, by decide +kernel⟩⟩

set_option maxRecDepth 1000000 in
/-- Witnesses for the statement CroaksAndFailover. -/
theorem wit_CroaksAndFailover :
    (∃ (s : State), Up s ∧ s.adh.primary = 0 ∧ s.isFenced (dieMG 0) = true ∧ s.isFenced (dieMG 1) = false ∧ Tbl.at s.boot.accepted 1 false = true) ∧
    (∃ (mg : Nat) (s : State), Up s ∧ mg ≤ 1 ∧ Tbl.at s.boot.accepted mg false = true ∧ s.isFenced (dieMG mg) = false ∧ Tbl.at s.adh.croakAt mg 0 + 1000000 ≤ s.now ∧ Tbl.has s.adh.croakAt mg = true) ∧
    (∃ (bytes : List Byte) (s : State), Up s ∧ bytes.length ≠ 128) ∧
    (∃ (plane n : Nat) (bytes : List Byte) (s : State), Up s ∧ bytes.length = 128 ∧ s.adh.croakKey = none ∧ word (wordsOf 16 bytes) 15 = crc64 (bytes.take 120) ∧ fld (wordsOf 16 bytes) 0 63 56 = 1 ∧ fld (wordsOf 16 bytes) 0 55 44 = n ∧ s.adh.watchList.contains n = true ∧ plane ≤ 1) ∧
    (∃ (node : Nat) (x : Watched) (s : State), Up s ∧ Tbl.get s.adh.watched node = some x ∧ x.lost = false ∧ x.misses = 1 ∧ x.lastAt + 2100000 ≤ s.now ∧ (s.fab.peers.filter (fun p => p.1 == node)).any (fun p => p.2.dead) = false) ∧
    (∃ (node plane : Nat) (x : Watched) (s : State), Up s ∧ Tbl.get s.adh.watched node = some x ∧ plane ≤ 1 ∧ x.planeRaised = false ∧ x.lost = false ∧ Tbl.at x.planeAt (1 - plane) 0 + 10000000 ≤ s.now ∧ s.now < Tbl.at x.planeAt plane 0 + 10000000) :=
  ⟨⟨w08CroaksAndFailover0s, by decide +kernel⟩,
   ⟨0, { base with adh := { croakAt := [(0, 0)] } }, by decide +kernel⟩,
   ⟨(zs 127), base, by decide +kernel⟩,
   ⟨0, 5, (let b := bytesOfWords [mkWord [(56, 8, 1), (44, 12, 5)], 0, 0, 0, 0, 0, 0, 0, 0, 0, 0, 0, 0, 0, 0]; b ++ bytesOf 8 (crc64 b)), { base with adh := { watchList := [5] } }, by decide +kernel⟩,
   ⟨5, (Tbl.get ({ base with adh := { watched := [(5, { misses := 1 })] } } : State).adh.watched 5).getD ({} : Watched), { base with adh := { watched := [(5, { misses := 1 })] } }, by decide +kernel⟩,
   ⟨5, 0, (Tbl.get w08CroaksAndFailover5s.adh.watched 5).getD ({} : Watched), w08CroaksAndFailover5s, by decide +kernel⟩⟩

/-- The state of a witness below. -/
def w09LeapSteps4s : State := withHold { offer := some { oldHolder := 2, epoch := 4 } } own
/-- The state of a witness below. -/
def w09LeapSteps5s : State := withEntry { e5 with st := .leaping, leapPhase := 1, leapTarget := 3 } held
/-- The state of a witness below. -/
def w09LeapSteps6s : State := withEntry { e5 with st := .leaping, leapPhase := 1, leapTarget := 3 } held
/-- The state of a witness below. -/
def w09LeapSteps7s : State := withHold { offer := some { oldHolder := 2, epoch := 4, claimed := some r5 } } own
/-- The state of a witness below. -/
def w09LeapEnds4s : State := withEntry { e5 with st := .leaping, leapPhase := 1, leapTarget := 3 } held

/-- Witnesses for the statement LeapSteps. -/
theorem wit_LeapSteps :
    (∃ (req : Nat) (r : Req) (s : State), Up s ∧ s.req req = some r ∧ (s.hold req).frozen = false ∧ s.commitPending req = false ∧ s.fencedFor req = false ∧ s.protDone req = true ∧ r.promptTokens ≤ r.committed) ∧
    (∃ (h : MsgHdr) (e : DirEntry) (s : State), Up s ∧ h.ver = 1 ∧ s.entry h.req = some e ∧ e.here = true ∧ (e.st = .decoding ∨ e.st = .protected_ ∨ e.st = .prefill) ∧ e.recoveryStep = 0 ∧ e.epoch = h.epoch ∧ e.holder = h.src ∧ e.epoch + 1 ≠ 4294967295) ∧
    (∃ (h : MsgHdr) (r : Req) (s : State), Up s ∧ s.req h.req = some r ∧ h.ver = 1 ∧ (s.hold h.req).frozen = true ∧ h.epoch = r.holdEpoch + 1) ∧
    (∃ (h : MsgHdr) (s : State), Up s ∧ h.ver = 1 ∧ s.freeRecords ≠ 0) ∧
    (∃ (h : MsgHdr) (o : Offer) (s : State), Up s ∧ (s.hold h.req).offer = some o ∧ h.ver = 1 ∧ h.src = o.oldHolder ∧ h.epoch = o.epoch ∧ s.freeRecords ≠ 0) ∧
    (∃ (h : MsgHdr) (e : DirEntry) (s : State), Up s ∧ h.ver = 1 ∧ s.entry h.req = some e ∧ e.here = true ∧ e.st = .leaping ∧ e.leapPhase = 1 ∧ h.src = e.leapTarget ∧ h.epoch = e.epoch + 1) ∧
    (∃ (h : MsgHdr) (digest : List Byte) (e : DirEntry) (s : State), Up s ∧ h.ver = 1 ∧ s.entry h.req = some e ∧ e.here = true ∧ e.st = .leaping ∧ e.leapPhase = 1 ∧ h.src = e.leapTarget ∧ h.epoch = e.epoch + 1 ∧ digest ≠ e.leapDigest) ∧
    (∃ (h : MsgHdr) (o : Offer) (r : Req) (s : State), Up s ∧ (s.hold h.req).offer = some o ∧ o.claimed = some r ∧ h.ver = 1 ∧ h.epoch = o.epoch) ∧
    (∃ (h : MsgHdr) (b at_ : Nat) (r : Req) (s : State), Up s ∧ (s.hold h.req).grant = some (b, h.epoch, at_) ∧ h.ver = 1 ∧ s.req h.req = some r) :=
  ⟨⟨5, (held.req 5).getD ({} : Req), held, by decide +kernel⟩,
   ⟨(mh 2 3), ((withEntry e5 held).entry (mh 2 3).req).getD ({} : DirEntry), (withEntry e5 held), by decide +kernel⟩,
   ⟨(mh 0 4), ((withHold { frozen := true } held).req (mh 0 4).req).getD ({} : Req), (withHold { frozen := true } held), by decide +kernel⟩,
   ⟨(mh 2 3), held, by decide +kernel⟩,
   ⟨(mh 2 4), ((w09LeapSteps4s.hold (mh 2 4).req).offer).getD ({} : Offer), w09LeapSteps4s, by decide +kernel⟩,
   ⟨(mh 3 4), (w09LeapSteps5s.entry (mh 3 4).req).getD ({} : DirEntry), w09LeapSteps5s, by decide +kernel⟩,
   ⟨(mh 3 4), (zs 64), (w09LeapSteps6s.entry (mh 3 4).req).getD ({} : DirEntry), w09LeapSteps6s, by decide +kernel⟩,
   ⟨(mh 0 4), ((w09LeapSteps7s.hold (mh 0 4).req).offer).getD ({} : Offer), ((((w09LeapSteps7s.hold (mh 0 4).req).offer).getD ({} : Offer)).claimed).getD ({} : Req), w09LeapSteps7s, by decide +kernel⟩,
   ⟨(mh 0 4), 3, 0, ((withHold { grant := some (3, 4, 0) } held).req (mh 0 4).req).getD ({} : Req), (withHold { grant := some (3, 4, 0) } held), by decide +kernel⟩⟩

/-- Witnesses for the statement LeapEnds. -/
theorem wit_LeapEnds :
    (∃ (h : MsgHdr) (r : Req) (s : State), Up s ∧ h.ver = 1 ∧ s.entry h.req = none ∧ s.req h.req = some r) ∧
    (∃ (h : MsgHdr) (e : DirEntry) (s : State), Up s ∧ h.ver = 1 ∧ s.entry h.req = some e ∧ e.here = true) ∧
    (∃ (h : MsgHdr) (r : Req) (s : State), Up s ∧ h.ver = 1 ∧ s.req h.req = some r) ∧
    (∃ (h : MsgHdr) (b ep at_ : Nat) (r : Req) (s : State), Up s ∧ h.ver = 1 ∧ (s.hold h.req).grant = some (b, ep, at_) ∧ s.req h.req = some r) ∧
    (∃ (req : Nat) (e : DirEntry) (s : State), Up s ∧ s.entry req = some e ∧ e.here = true ∧ e.st = .leaping ∧ e.leapPhase = 1 ∧ e.leapAt + (s.comp e.composition).leapTimeout ≤ s.now) ∧
    (∃ (req b ep at_ : Nat) (r : Req) (s : State), Up s ∧ (s.hold req).grant = some (b, ep, at_) ∧ s.req req = some r ∧ (s.hold req).queryAt ≠ 0 ∧ (s.hold req).queryAt ≤ s.now) ∧
    (∃ (req at_ : Nat) (r : Req) (s : State), Up s ∧ (s.hold req).retryAt = some at_ ∧ at_ ≤ s.now ∧ s.req req = some r ∧ s.commitPending req = false ∧ s.fencedFor req = false) :=
  ⟨⟨(mh 2 3), ((withHold { frozen := true } held).req (mh 2 3).req).getD ({} : Req), (withHold { frozen := true } held), by decide +kernel⟩,
   ⟨(mh 2 3), ((withEntry e5 held).entry (mh 2 3).req).getD ({} : DirEntry), (withEntry e5 held), by decide +kernel⟩,
   ⟨(mh 2 3), ((withHold { frozen := true } held).req (mh 2 3).req).getD ({} : Req), (withHold { frozen := true } held), by decide +kernel⟩,
   ⟨(mh 0 4), 3, 4, 0, ((withHold { grant := some (3, 4, 0) } held).req (mh 0 4).req).getD ({} : Req), (withHold { grant := some (3, 4, 0) } held), by decide +kernel⟩,
   ⟨5, (w09LeapEnds4s.entry 5).getD ({} : DirEntry), w09LeapEnds4s, by decide +kernel⟩,
   ⟨5, 3, 4, 0, ((withHold { grant := some (3, 4, 0), queryAt := 1 } held).req 5).getD ({} : Req), (withHold { grant := some (3, 4, 0), queryAt := 1 } held), by decide +kernel⟩,
   ⟨5, 7, ((withHold { retryAt := some 7 } held).req 5).getD ({} : Req), (withHold { retryAt := some 7 } held), by decide +kernel⟩⟩

/-- The state of a witness below. -/
def w10Leases6u : State := ({ held with kv := { reqs := [(5, rT)] } } : State).wrWords (((({ held with kv := { reqs := [(5, rT)] } } : State).assertable (mh 2 3).req (mh 2 3).epoch).getD ({} : Req)).tokenRing + 64 + 8 * 2 ^ ((({ known := some ad1 } : Rebuild).known).getD ({} : Admitted)).spec.ringLog2) (autoObject ((({ known := some ad1 } : Rebuild).known).getD ({} : Admitted)).spec)
/-- The state of a witness below. -/
def w10RecoveryAndMirrors0s : State := withEntry { e5 with recoveryStep := 1, candidates := [3, 4] } own
/-- The state of a witness below. -/
def w10RecoveryAndMirrors4s : State := withEntry { e5 with recoveryStep := 1, probe := some (2, 1) } (com own)
/-- The state of a witness below. -/
def w10RecoveryAndMirrors5s : State := withEntry { e5 with recoveryStep := 1, probe := some (2, 1), candidates := [2, 3] } own
/-- The state of a witness below. -/
def w10RecoveryAndMirrors10s : State := { withEntry { e5 with mirror := true } (com own) with adh := { watched := [(2, { lost := true })] }, fab := { peers := [(2, { dead := true })] }, own := { dir := [(mkReq 2 5, { e5 with mirror := true })] } }

/-- Witnesses for the statement Leases. -/
theorem wit_Leases :
    (∃ (home : Nat) (s : State), Up s ∧ s.heldFor home ≠ [] ∧ ((Tbl.at s.own.leases home {}).sentAt = 0 ∨ (Tbl.at s.own.leases home {}).sentAt + 125000 ≤ s.now)) ∧
    (∃ (h : MsgHdr) (s : State), Up s ∧ h.ver = 1 ∧ s.own.dir.all (fun x => x.2.here) = true) ∧
    (∃ (h : MsgHdr) (n : Nat) (s : State), Up s ∧ h.ver = 1 ∧ (s.heldFor h.src).length = n) ∧
    (∃ (home : Nat) (l : Lease) (s : State), Up s ∧ Tbl.get s.own.leases home = some l ∧ l.expiry ≤ s.now + s.fab.deadBound + 5000) ∧
    (∃ (holder : Nat) (l : HomeLease) (s : State), Up s ∧ Tbl.get s.own.homeLeases holder = some l ∧ l.lapsed = false ∧ l.expiry + (s.fab.deadBound + 5000) ≤ s.now) ∧
    (∃ (h : MsgHdr) (x : Rebuild) (r : Req) (s : State), Up s ∧ h.ver = 1 ∧ x.known = none ∧ s.assertable h.req h.epoch = some r) ∧
    (∃ (h : MsgHdr) (tok spec st : Nat) (x : Rebuild) (a : Admitted) (p : Nat × Nat × Nat × Nat) (stopped : Bool) (outs : List Nat) (r : Req) (u s : State), Up s ∧ h.ver = 1 ∧ x.known = some a ∧ s.assertable h.req h.epoch = some r ∧ r.tokenRing ≠ 0 ∧ stopped = (x.stop.filter (fun p => decide (p.1 + 1 = r.committed))).isSome ∧ p = (if stopped then x.stop.getD (4294967295, 0, 0, 0) else (4294967295, 0, 0, 0)) ∧ tok = (if r.committed < r.promptTokens then r.promptTokens else if stopped then r.committed else r.committed + 1) ∧ spec = r.tokenRing + 64 + 8 * 2 ^ a.spec.ringLog2 ∧ u = s.wrWords spec (autoObject a.spec) ∧ outs = (x.ids.take tok).drop r.promptTokens ∧ st = (outs.drop (outs.length - 64)).foldl (fun q i => u.autoStep spec 66 q i) 0) ∧
    (∃ (h : MsgHdr) (s : State), Up s ∧ h.ver = 1 ∧ s.assertable h.req h.epoch = none) ∧
    (∃ (h : MsgHdr) (e : DirEntry) (s : State), Up s ∧ h.ver = 1 ∧ s.entry h.req = some e ∧ e.here = true ∧ e.holder = h.src ∧ e.epoch = h.epoch ∧ e.recoveryStep ≠ 0) ∧
    (∃ (h : MsgHdr) (e : DirEntry) (s : State), Up s ∧ h.ver = 1 ∧ s.entry h.req = some e ∧ e.here = true ∧ e.holder = h.src) ∧
    (∃ (req at_ : Nat) (e : DirEntry) (s : State), Up s ∧ s.entry req = some e ∧ e.assertAt = some at_ ∧ at_ + 100000 ≤ s.now) ∧
    (∃ (h : MsgHdr) (s : State), Up s ∧ h.ver = 1) ∧
    (∃ (h : MsgHdr) (held : List (Nat × Nat)) (rid ep : Nat) (s : State), Up s ∧ h.ver = 1 ∧ (rid, ep) ∈ held ∧ rid ∉ s.credited h.src) :=
  ⟨⟨0, held, by decide +kernel⟩,
   ⟨(mh 2 3), (withEntry e5 own), by decide +kernel⟩,
   ⟨(mh 2 3), 0, own, by decide +kernel⟩,
   ⟨2, (Tbl.get ({ own with own := { leases := [(2, {})] } } : State).own.leases 2).getD ({} : Lease), { own with own := { leases := [(2, {})] } }, by decide +kernel⟩,
   ⟨2, (Tbl.get ({ own with own := { homeLeases := [(2, {})] } } : State).own.homeLeases 2).getD ({} : HomeLease), { own with own := { homeLeases := [(2, {})] } }, by decide +kernel⟩,
   ⟨(mh 2 3), {}, (held.assertable (mh 2 3).req (mh 2 3).epoch).getD ({} : Req), held, by decide +kernel⟩,
   ⟨(mh 2 3), (if ((({ held with kv := { reqs := [(5, rT)] } } : State).assertable (mh 2 3).req (mh 2 3).epoch).getD ({} : Req)).committed < ((({ held with kv := { reqs := [(5, rT)] } } : State).assertable (mh 2 3).req (mh 2 3).epoch).getD ({} : Req)).promptTokens then ((({ held with kv := { reqs := [(5, rT)] } } : State).assertable (mh 2 3).req (mh 2 3).epoch).getD ({} : Req)).promptTokens else if false then ((({ held with kv := { reqs := [(5, rT)] } } : State).assertable (mh 2 3).req (mh 2 3).epoch).getD ({} : Req)).committed else ((({ held with kv := { reqs := [(5, rT)] } } : State).assertable (mh 2 3).req (mh 2 3).epoch).getD ({} : Req)).committed + 1), ((({ held with kv := { reqs := [(5, rT)] } } : State).assertable (mh 2 3).req (mh 2 3).epoch).getD ({} : Req)).tokenRing + 64 + 8 * 2 ^ ((({ known := some ad1 } : Rebuild).known).getD ({} : Admitted)).spec.ringLog2, (((({ known := some ad1 } : Rebuild).ids.take ((if ((({ held with kv := { reqs := [(5, rT)] } } : State).assertable (mh 2 3).req (mh 2 3).epoch).getD ({} : Req)).committed < ((({ held with kv := { reqs := [(5, rT)] } } : State).assertable (mh 2 3).req (mh 2 3).epoch).getD ({} : Req)).promptTokens then ((({ held with kv := { reqs := [(5, rT)] } } : State).assertable (mh 2 3).req (mh 2 3).epoch).getD ({} : Req)).promptTokens else if false then ((({ held with kv := { reqs := [(5, rT)] } } : State).assertable (mh 2 3).req (mh 2 3).epoch).getD ({} : Req)).committed else ((({ held with kv := { reqs := [(5, rT)] } } : State).assertable (mh 2 3).req (mh 2 3).epoch).getD ({} : Req)).committed + 1))).drop ((({ held with kv := { reqs := [(5, rT)] } } : State).assertable (mh 2 3).req (mh 2 3).epoch).getD ({} : Req)).promptTokens).drop (((({ known := some ad1 } : Rebuild).ids.take ((if ((({ held with kv := { reqs := [(5, rT)] } } : State).assertable (mh 2 3).req (mh 2 3).epoch).getD ({} : Req)).committed < ((({ held with kv := { reqs := [(5, rT)] } } : State).assertable (mh 2 3).req (mh 2 3).epoch).getD ({} : Req)).promptTokens then ((({ held with kv := { reqs := [(5, rT)] } } : State).assertable (mh 2 3).req (mh 2 3).epoch).getD ({} : Req)).promptTokens else if false then ((({ held with kv := { reqs := [(5, rT)] } } : State).assertable (mh 2 3).req (mh 2 3).epoch).getD ({} : Req)).committed else ((({ held with kv := { reqs := [(5, rT)] } } : State).assertable (mh 2 3).req (mh 2 3).epoch).getD ({} : Req)).committed + 1))).drop ((({ held with kv := { reqs := [(5, rT)] } } : State).assertable (mh 2 3).req (mh 2 3).epoch).getD ({} : Req)).promptTokens).length - 64)).foldl (fun q i => w10Leases6u.autoStep (((({ held with kv := { reqs := [(5, rT)] } } : State).assertable (mh 2 3).req (mh 2 3).epoch).getD ({} : Req)).tokenRing + 64 + 8 * 2 ^ ((({ known := some ad1 } : Rebuild).known).getD ({} : Admitted)).spec.ringLog2) 66 q i) 0, { known := some ad1 }, (({ known := some ad1 } : Rebuild).known).getD ({} : Admitted), (4294967295, 0, 0, 0), false, (({ known := some ad1 } : Rebuild).ids.take ((if ((({ held with kv := { reqs := [(5, rT)] } } : State).assertable (mh 2 3).req (mh 2 3).epoch).getD ({} : Req)).committed < ((({ held with kv := { reqs := [(5, rT)] } } : State).assertable (mh 2 3).req (mh 2 3).epoch).getD ({} : Req)).promptTokens then ((({ held with kv := { reqs := [(5, rT)] } } : State).assertable (mh 2 3).req (mh 2 3).epoch).getD ({} : Req)).promptTokens else if false then ((({ held with kv := { reqs := [(5, rT)] } } : State).assertable (mh 2 3).req (mh 2 3).epoch).getD ({} : Req)).committed else ((({ held with kv := { reqs := [(5, rT)] } } : State).assertable (mh 2 3).req (mh 2 3).epoch).getD ({} : Req)).committed + 1))).drop ((({ held with kv := { reqs := [(5, rT)] } } : State).assertable (mh 2 3).req (mh 2 3).epoch).getD ({} : Req)).promptTokens, (({ held with kv := { reqs := [(5, rT)] } } : State).assertable (mh 2 3).req (mh 2 3).epoch).getD ({} : Req), w10Leases6u, { held with kv := { reqs := [(5, rT)] } }, by decide +kernel⟩,
   ⟨(mh 2 3), own, by decide +kernel⟩,
   ⟨(mh 2 3), ((withEntry { e5 with recoveryStep := 1 } own).entry (mh 2 3).req).getD ({} : DirEntry), (withEntry { e5 with recoveryStep := 1 } own), by decide +kernel⟩,
   ⟨(mh 2 3), ((withEntry e5 own).entry (mh 2 3).req).getD ({} : DirEntry), (withEntry e5 own), by decide +kernel⟩,
   ⟨5, 1, ((withEntry { e5 with assertAt := some 1 } own).entry 5).getD ({} : DirEntry), (withEntry { e5 with assertAt := some 1 } own), by decide +kernel⟩,
   ⟨(mh 2 3), held, by decide +kernel⟩,
   ⟨(mh 2 3), [(5, 3)], 5, 3, own, by decide +kernel⟩⟩

/-- Witnesses for the statement RecoveryAndMirrors. -/
theorem wit_RecoveryAndMirrors :
    (∃ (req c : Nat) (cs : List Nat) (e : DirEntry) (s : State), Up s ∧ s.entry req = some e ∧ e.here = true ∧ e.probe = none ∧ e.assertAt = none ∧ e.recoveryStep = 1 ∧ e.candidates = c :: cs) ∧
    (∃ (req : Nat) (e : DirEntry) (s : State), Up s ∧ s.entry req = some e ∧ e.here = true ∧ e.probe = none ∧ e.assertAt = none ∧ e.recoveryStep = 4) ∧
    (∃ (h : MsgHdr) (x : Rebuild) (s : State), Up s ∧ h.ver = 1 ∧ x.known = none) ∧
    (∃ (h : MsgHdr) (x : Rebuild) (a : Admitted) (ctx : Nat) (s : State), Up s ∧ h.ver = 1 ∧ x.known = some a ∧ s.node ≠ 0 ∧ s.req h.req = none ∧ (s.hold h.req).lingering = none ∧ s.freeRecords ≠ 0 ∧ s.ctxFor a.composition = some ctx) ∧
    (∃ (h : MsgHdr) (cRec at_ : Nat) (e : DirEntry) (s : State), Up s ∧ h.ver = 1 ∧ s.entry h.req = some e ∧ e.here = true ∧ e.probe = some (h.src, at_) ∧ e.receiptTokens ≤ cRec ∧ e.epoch + 1 ≠ 4294967295) ∧
    (∃ (req c at_ : Nat) (e : DirEntry) (s : State), Up s ∧ s.entry req = some e ∧ e.probe = some (c, at_) ∧ e.recoveryStep = 1 ∧ at_ + 200000 ≤ s.now) ∧
    (∃ (h : MsgHdr) (s : State), Up s ∧ h.ver = 1 ∧ ((s.entry h.req).isSome = true ∨ s.own.dir.length < 4194304)) ∧
    (∃ (h : MsgHdr) (e : DirEntry) (s : State), Up s ∧ s.entry h.req = some e ∧ h.ver = 1 ∧ h.src = e.backup ∧ e.mirrorWait = 1) ∧
    (∃ (failed : Nat) (s : State), Up s ∧ failed ≠ s.node ∧ (s.own.dir.map (·.1)).Nodup ∧ s.own.dir.any (fun x => x.2.here && x.2.backup == failed) = true) ∧
    (∃ (c : MirrorCopy) (s : State), Up s ∧ s.own.mirrorCopy = some c) ∧
    (∃ (failed rid : Nat) (e : DirEntry) (w : Watched) (p : Peer) (s : State), Up s ∧ s.own.dir = [(rid, e)] ∧ e.mirror = true ∧ e.acting = false ∧ Tbl.at s.own.acting (reqHome rid) (reqHome rid) = failed ∧ Tbl.get s.adh.watched failed = some w ∧ w.lost = true ∧ Tbl.get s.fab.peers failed = some p ∧ p.dead = true) :=
  ⟨⟨5, 3, [4], (w10RecoveryAndMirrors0s.entry 5).getD ({} : DirEntry), w10RecoveryAndMirrors0s, by decide +kernel⟩,
   ⟨5, ((withEntry { e5 with recoveryStep := 4 } (com own)).entry 5).getD ({} : DirEntry), (withEntry { e5 with recoveryStep := 4 } (com own)), by decide +kernel⟩,
   ⟨(mh 2 3), {}, own, by decide +kernel⟩,
   ⟨(mh 2 3), { known := some ad1 }, ad1, (({ com (ctxd own) with node := 4 } : State).ctxFor ad1.composition).getD (0), { com (ctxd own) with node := 4 }, by decide +kernel⟩,
   ⟨(mh 2 3), 0, 1, (w10RecoveryAndMirrors4s.entry (mh 2 3).req).getD ({} : DirEntry), w10RecoveryAndMirrors4s, by decide +kernel⟩,
   ⟨5, 2, 1, (w10RecoveryAndMirrors5s.entry 5).getD ({} : DirEntry), w10RecoveryAndMirrors5s, by decide +kernel⟩,
   ⟨(mh 2 3), own, by decide +kernel⟩,
   ⟨(mh 2 3), ((withEntry { e5 with mirrorWait := 1 } own).entry (mh 2 3).req).getD ({} : DirEntry), (withEntry { e5 with mirrorWait := 1 } own), by decide +kernel⟩,
   ⟨2, (withEntry e5 (com own)), by decide +kernel⟩,
   ⟨(({ own with own := { mirrorCopy := some {} } } : State).own.mirrorCopy).getD ({} : MirrorCopy), { own with own := { mirrorCopy := some {} } }, by decide +kernel⟩,
   ⟨2, (mkReq 2 5), { e5 with mirror := true }, (Tbl.get w10RecoveryAndMirrors10s.adh.watched 2).getD ({} : Watched), (Tbl.get w10RecoveryAndMirrors10s.fab.peers 2).getD ({} : Peer), w10RecoveryAndMirrors10s, by decide +kernel⟩⟩

/-- The state of a witness below. -/
def w11QueuesAndCommands0s : State := qd { st := .active, ringBase := dAddr 65536, ringLog2 := 6, cmdTail := 1 } own
/-- The state of a witness below. -/
def w11QueuesAndCommands1s : State := qd { st := .active, ringBase := dAddr 65536, ringLog2 := 6, cmdTail := 2, reread := some { index := 1 } } own
/-- The state of a witness below. -/
def w11QueuesAndCommands4s : State := jobOf { vi := 1, cls := 1, fmt := 2, st := .running, outcome := some (.ok, 5) }
/-- The state of a witness below. -/
def w11QueuesAndCommands5s : State := jobOf { vi := 1, cls := 1, fmt := 2, st := .running, outcome := some (.ok, 5) }
/-- The state of a witness below. -/
def w11QueuesAndCommands8s : State := { own with work := { own.work with vis := [(1, { st := .quiescing })] } }
/-- The state of a witness below. -/
def w11QueuesAndCommands9s : State := { own with work := { own.work with ctxs := [(0, { st := .unloading })] } }
/-- The state of a witness below. -/
def w11QueuesAndCommands10s : State := { own with work := { own.work with ctxs := [(0, { st := .loading })] } }
/-- The state of a witness below. -/
def w11QueuesAndCommands11s : State := { own with adh := { order := some { regions := [(1, 0)] } } }
/-- The state of a witness below. -/
def w11EnginesAndSchedulers0s : State := jobOf { vi := 1, cls := 1, fmt := 2, words := [mkWord [(44, 4, 1), (36, 8, 5)], 0, dAddr 0, dAddr 64, mkWord [(39, 25, 64)], 0, 0, 0] }
/-- The state of a witness below. -/
def w11EnginesAndSchedulers1s : State := jobOf { vi := 1, cls := 1, fmt := 2, words := [mkWord [(44, 4, 1), (36, 8, 5)]] }
/-- The state of a witness below. -/
def w11EnginesAndSchedulers2s : State := { own with work := { own.work with queues := [((1, 1, 0), { st := .active }), ((1, 1, 1), { st := .active, priority := 3 })], cmds := (1, { vi := 1, cls := 1, fmt := 2, words := [mkWord [(44, 4, 1), (36, 8, 5)]] }) :: (List.range (residentLimit 1)).map (fun z => (z + 2, { vi := 1, cls := 1, q := 1, st := .running, since := z })) } }
/-- The state of a witness below. -/
def w11EnginesAndSchedulers4s : State := { own with work := { own.work with insts := [((3, 0), { st := .selfTest })] } }
/-- The state of a witness below. -/
def w11EnginesAndSchedulers5s : State := { own with work := { own.work with insts := [((2, 0), { st := .selfTest })] } }
/-- The state of a witness below. -/
def w11LedgerAndCounters3s : State := { base with led := { base.led with transit := [((2, 7), { sent := 5, received := 4, peerSent := 9, peerReceived := 9 })] } }

/-- Witnesses for the statement QueuesAndCommands. -/
theorem wit_QueuesAndCommands :
    (∃ (vi cls q : Nat) (s : State), Up s ∧ (s.vi vi).st = .active ∧ (s.queue (vi, cls, q)).st = .active ∧ (s.queue (vi, cls, q)).reread = none ∧ (s.queue (vi, cls, q)).cmdHead ≠ (s.queue (vi, cls, q)).cmdTail ∧ sub32 (s.queue (vi, cls, q)).cmdHead (s.queue (vi, cls, q)).cplHead < 2 ^ (s.queue (vi, cls, q)).ringLog2 ∧ s.covers vi ((s.queue (vi, cls, q)).ringBase + (s.queue (vi, cls, q)).cmdHead % 2 ^ (s.queue (vi, cls, q)).ringLog2 * 64) 64 (rRing + rRd) = true ∧ s.readFault ((s.queue (vi, cls, q)).ringBase + (s.queue (vi, cls, q)).cmdHead % 2 ^ (s.queue (vi, cls, q)).ringLog2 * 64) 64 = none ∧ fld (s.rdWords ((s.queue (vi, cls, q)).ringBase + (s.queue (vi, cls, q)).cmdHead % 2 ^ (s.queue (vi, cls, q)).ringLog2 * 64) 8) 0 63 48 = (s.queue (vi, cls, q)).cmdHead % 2 ^ 16) ∧
    (∃ (vi cls q : Nat) (r : Reread) (s : State), Up s ∧ (s.vi vi).st = .active ∧ (s.queue (vi, cls, q)).st = .active ∧ (s.queue (vi, cls, q)).reread = some r ∧ r.due ≤ s.now ∧ r.tries < 2 ∧ s.covers vi ((s.queue (vi, cls, q)).ringBase + r.index % 2 ^ (s.queue (vi, cls, q)).ringLog2 * 64) 64 (rRing + rRd) = true ∧ s.readFault ((s.queue (vi, cls, q)).ringBase + r.index % 2 ^ (s.queue (vi, cls, q)).ringLog2 * 64) 64 = none ∧ fld (s.rdWords ((s.queue (vi, cls, q)).ringBase + r.index % 2 ^ (s.queue (vi, cls, q)).ringLog2 * 64) 8) 0 63 48 ≠ r.index % 2 ^ 16) ∧
    (∃ (cid : Nat) (c : Cmd) (s : State), Up s ∧ Tbl.get s.work.cmds cid = some c ∧ c.st = .waiting ∧ c.dispT = none ∧ c.outcome = none ∧ c.fmt = 2 ∧ fld c.words 0 23 0 ≠ 0 ∧ c.acceptT + 1000 * fld c.words 0 23 0 ≤ s.now) ∧
    (∃ (cid : Nat) (c : Cmd) (s : State), Up s ∧ Tbl.get s.work.cmds cid = some c ∧ c.st = .stopping ∧ c.outcome = none) ∧
    (∃ (cid result : Nat) (st : Status) (c : Cmd) (s : State), Up s ∧ Tbl.get s.work.cmds cid = some c ∧ c.outcome = some (st, result) ∧ (s.queue (c.vi, c.cls, c.q)).st = .active ∧ (c.effects.foldl State.applyPost s).covers c.vi ((s.queue (c.vi, c.cls, c.q)).cplBase + (s.queue (c.vi, c.cls, c.q)).cplTail % 2 ^ (s.queue (c.vi, c.cls, c.q)).ringLog2 * 32) 32 (rRing + rWr) = true) ∧
    (∃ (cid result : Nat) (st : Status) (c : Cmd) (s : State), Up s ∧ Tbl.get s.work.cmds cid = some c ∧ c.outcome = some (st, result) ∧ (s.queue (c.vi, c.cls, c.q)).st = .active ∧ c.effects = [] ∧ c.samplers = [] ∧ s.kv.toFree = [] ∧ fld c.words 0 29 29 = 0 ∧ s.covers c.vi ((s.queue (c.vi, c.cls, c.q)).cplBase + (s.queue (c.vi, c.cls, c.q)).cplTail % 2 ^ (s.queue (c.vi, c.cls, c.q)).ringLog2 * 32) 32 (rRing + rWr) = true) ∧
    (∃ (vi cls q : Nat) (s : State), Up s ∧ (s.queue (vi, cls, q)).st = .draining ∧ s.outstanding (vi, cls, q) = 0) ∧
    (∃ (vi cls q cmd cpl : Nat) (r : OpRef) (s : State), Up s ∧ (s.queue (vi, cls, q)).st = .error ∧ (s.queue (vi, cls, q)).resetOp = some (cmd, cpl, r) ∧ s.outstanding (vi, cls, q) = 0) ∧
    (∃ (vi : Nat) (s : State), Up s ∧ (s.vi vi).st = .quiescing ∧ s.viBusy vi = false) ∧
    (∃ (slot : Nat) (s : State), Up s ∧ (s.ctx slot).st = .unloading ∧ s.work.cmds.any (fun c => c.2.slot == some slot) = false) ∧
    (∃ (slot : Nat) (s : State), Up s ∧ (s.ctx slot).st = .loading) ∧
    (∃ (vi : Nat) (o : OrderDrain) (s : State), Up s ∧ s.adh.order = some o ∧ s.work.cmds.any (fun c => c.2.vi == vi) = false) :=
  ⟨⟨1, 1, 0, w11QueuesAndCommands0s, by decide +kernel⟩,
   ⟨1, 1, 0, ((w11QueuesAndCommands1s.queue (1, 1, 0)).reread).getD ({} : Reread), w11QueuesAndCommands1s, by decide +kernel⟩,
   ⟨1, (Tbl.get (jobOf { vi := 1, cls := 1, fmt := 2, words := [1] }).work.cmds 1).getD ({} : Cmd), (jobOf { vi := 1, cls := 1, fmt := 2, words := [1] }), by decide +kernel⟩,
   ⟨1, (Tbl.get (jobOf { vi := 1, cls := 2, fmt := 2, st := .stopping }).work.cmds 1).getD ({} : Cmd), (jobOf { vi := 1, cls := 2, fmt := 2, st := .stopping }), by decide +kernel⟩,
   ⟨1, 5, .ok, (Tbl.get w11QueuesAndCommands4s.work.cmds 1).getD ({} : Cmd), w11QueuesAndCommands4s, by decide +kernel⟩,
   ⟨1, 5, .ok, (Tbl.get w11QueuesAndCommands5s.work.cmds 1).getD ({} : Cmd), w11QueuesAndCommands5s, by decide +kernel⟩,
   ⟨1, 1, 0, (qd { st := .draining } own), by decide +kernel⟩,
   ⟨1, 1, 0, 5, 6, {}, (qd { st := .error, resetOp := some (5, 6, {}) } own), by decide +kernel⟩,
   ⟨1, w11QueuesAndCommands8s, by decide +kernel⟩,
   ⟨0, w11QueuesAndCommands9s, by decide +kernel⟩,
   ⟨0, w11QueuesAndCommands10s, by decide +kernel⟩,
   ⟨1, (w11QueuesAndCommands11s.adh.order).getD ({} : OrderDrain), w11QueuesAndCommands11s, by decide +kernel⟩⟩

/-- Witnesses for the statement EnginesAndSchedulers. -/
theorem wit_EnginesAndSchedulers :
    (∃ (cls i cid : Nat) (c : Cmd) (d : Tbl Nat Nat) (s : State), Up s ∧ (cls = 1 ∨ cls = 3 ∨ cls = 5 ∨ cls = 6) ∧ s.noEngine cls = false ∧ s.instUp cls i = true ∧ s.slotFree cls i = true ∧ s.pickCmd cls i = some (cid, c, d) ∧ c.st = .waiting ∧ s.refusal c = none) ∧
    (∃ (cls i cid : Nat) (c : Cmd) (d : Tbl Nat Nat) (b : Bad) (s : State), Up s ∧ s.instUp cls i = true ∧ s.slotFree cls i = true ∧ s.pickCmd cls i = some (cid, c, d) ∧ c.st = .waiting ∧ s.refusal c = some b) ∧
    (∃ (cls i n v : Nat) (c d : Cmd) (s : State), Up s ∧ saveRecords cls ≠ 0 ∧ s.instUp cls i = true ∧ s.slotFree cls i = false ∧ (s.inst cls i).waiting = none ∧ (s.work.cmds.filter (fun e => e.2.cls == cls && e.2.inst == i && e.2.st == .saved)).length < saveRecords cls ∧ s.work.cmds.filter (fun e => e.2.cls == cls && e.2.st != .running && s.dispatchable e.2 && s.isFor e.2 i && decide (e.2.since + (s.inst cls i).threshold < s.now)) = [(n, c)] ∧ (s.residents cls i).all (fun j => decide (s.levelOf c < s.levelOf j.2)) = true ∧ maxBy? (fun (j : Nat × Cmd) => s.levelOf j.2 * 2 ^ 64 + j.2.since) ((s.residents cls i).filter (fun j => j.2.st == .running)) = some (v, d)) ∧
    (∃ (cls i : Nat) (s : State), Up s ∧ faultable cls i = true ∧ (s.inst cls i).st = .service ∧ s.isFenced (instDie cls i) = false) ∧
    (∃ (cls i : Nat) (s : State), Up s ∧ cls ≠ 2 ∧ (s.inst cls i).st = .selfTest) ∧
    (∃ (i : Nat) (s : State), Up s ∧ (s.inst 2 i).st = .selfTest) ∧
    (∃ (s : State), Up s ∧ s.now % 1048576 = 0) :=
  ⟨⟨1, 0, ((w11EnginesAndSchedulers0s.pickCmd 1 0).getD (0, {}, [])).1, ((w11EnginesAndSchedulers0s.pickCmd 1 0).getD (0, {}, [])).2.1, ((w11EnginesAndSchedulers0s.pickCmd 1 0).getD (0, {}, [])).2.2, w11EnginesAndSchedulers0s, ⟨by decide +kernel, by decide +kernel, by decide +kernel, by decide +kernel, by decide +kernel, rfl, rfl, rfl⟩⟩,
   ⟨1, 0, ((w11EnginesAndSchedulers1s.pickCmd 1 0).getD (0, {}, [])).1, ((w11EnginesAndSchedulers1s.pickCmd 1 0).getD (0, {}, [])).2.1, ((w11EnginesAndSchedulers1s.pickCmd 1 0).getD (0, {}, [])).2.2, (w11EnginesAndSchedulers1s.refusal (((w11EnginesAndSchedulers1s.pickCmd 1 0).getD (0, {}, [])).2.1)).getD (.ok, 0, 0), w11EnginesAndSchedulers1s, ⟨by decide +kernel, by decide +kernel, by decide +kernel, rfl, rfl, rfl⟩⟩,
   ⟨1, 0, 1, (residentLimit 1 + 1), (Tbl.get w11EnginesAndSchedulers2s.work.cmds 1).getD {}, (Tbl.get w11EnginesAndSchedulers2s.work.cmds (residentLimit 1 + 1)).getD {}, w11EnginesAndSchedulers2s, by decide +kernel⟩,
   ⟨2, 0, own, by decide +kernel⟩,
   ⟨3, 0, w11EnginesAndSchedulers4s, by decide +kernel⟩,
   ⟨0, w11EnginesAndSchedulers5s, by decide +kernel⟩,
   ⟨{ own with now := 1048576 }, by decide +kernel⟩⟩

/-- Witnesses for the statement LedgerAndCounters. -/
theorem wit_LedgerAndCounters :
    (∃ (counts : List (Nat × Nat × Nat)) (s : State), Up s ∧ s.led.auditAt < s.now / 1000000 * 1000000 ∧ s.brokenBooks counts = [] ∧ s.led.transit.all (fun e => !s.transitBroken e.2 false) = true) ∧
    (∃ (counts : List (Nat × Nat × Nat)) (scope e f : Nat) (s : State), Up s ∧ s.led.auditAt < s.now / 1000000 * 1000000 ∧ s.brokenBooks counts = [(7, scope, e, f)] ∧ s.led.transit.all (fun e => !s.transitBroken e.2 false) = true) ∧
    (∃ (h : MsgHdr) (q a b : Nat) (s : State), Up s ∧ h.ver = 1 ∧ 1 ≤ q ∧ q ≤ 7 ∧ (Tbl.at s.led.transit (h.src, q) {}).peerSent ≤ a ∧ (Tbl.at s.led.transit (h.src, q) {}).peerReceived ≤ b) ∧
    (∃ (h : MsgHdr) (q a b : Nat) (s : State), Up s ∧ h.ver = 1 ∧ 1 ≤ q ∧ q ≤ 7 ∧ (a < (Tbl.at s.led.transit (h.src, q) {}).peerSent ∨ b < (Tbl.at s.led.transit (h.src, q) {}).peerReceived)) ∧
    (∃ (s : State), Up s ∧ s.led.syncAt + 1000000 ≤ s.now) ∧
    (∃ (c : Caller) (n ev mask : Nat) (s : State), AskedBox s 2305 .user c ∧ n ≤ 31 ∧ mask ≤ 65535 ∧ eventListed ev = some true) ∧
    (∃ (c : Caller) (u n ev : Nat) (s : State), Asked s 2305 .userOper c ∧ s.isOperator c = true ∧ s.allUnits.contains u = true ∧ n ≤ 7 ∧ (eventListed ev).isSome = true ∧ ev / 256 = u / 256) ∧
    (∃ (c : Caller) (s : State), AskedBox s 2306 .user c ∧ (s.perf.captures.filter (fun k => !k.units && k.vi == c.vi)).length < 4) ∧
    (∃ (k0 : Capture) (s : State), Up s ∧ minBy? (fun (k : Capture) => k.time) s.perf.captures = some k0 ∧ k0.time ≤ s.now) ∧
    (∃ (c : Caller) (base log2 tail cls n : Nat) (s : State), AskedBox s 2307 .user c ∧ 6 ≤ log2 ∧ log2 ≤ 20 ∧ base % 64 = 0 ∧ tail % 64 = 0 ∧ 1 ≤ cls ∧ cls ≤ 6 ∧ n ≤ 65536 ∧ s.covers c.vi base (2 ^ log2 * 64) rWr = true ∧ s.covers c.vi tail 128 (rRd + rWr) = true) :=
  ⟨⟨[], base, by decide +kernel⟩,
   ⟨[(7, 0, 5)], 0, ((base.brokenBooks ([(7, 0, 5)])).headD (0, 0, 0, 0)).2.2.1, ((base.brokenBooks ([(7, 0, 5)])).headD (0, 0, 0, 0)).2.2.2, base, by decide +kernel⟩,
   ⟨(mh 2 3), 7, 0, 0, base, by decide +kernel⟩,
   ⟨(mh 2 3), 7, 8, 10, w11LedgerAndCounters3s, by decide +kernel⟩,
   ⟨base, by decide +kernel⟩,
   ⟨cal, 31, 257, 65535, (ask 2305 own), by decide +kernel⟩,
   ⟨cal, 0x700, 7, 0x0702, (ask 2305 own), by decide +kernel⟩,
   ⟨cal, (ask 2306 own), by decide +kernel⟩,
   ⟨(minBy? (fun (k : Capture) => k.time) ({ own with perf := { captures := [{ vi := 1 }] } } : State).perf.captures).getD ({} : Capture), { own with perf := { captures := [{ vi := 1 }] } }, by decide +kernel⟩,
   ⟨cal, (dAddr 65536), 6, (dAddr 128), 6, 65536, (ask 2307 own), by decide +kernel⟩⟩

/-- The state of a witness below. -/
def w12CodebookVersions2s : State := (let u := cbs cs5 none; { u with cb := { u.cb with pubs := [((1, 0, 5), { awaited := [(2, 1)] })] } })
/-- The state of a witness below. -/
def w12CodebookVersions3s : State := (let u := cbs cs5 none; { u with cb := { u.cb with pubs := [((1, 0, 5), { awaited := [(2, 1)] })] } })
/-- The state of a witness below. -/
def w12CodebookVersions7s : State := (let u := cbs { cs5 with slots := [(5, 4, 0), (0, 0, 0), (0, 0, 0), (0, 0, 0)] } none; { u with cb := { u.cb with reports := [((1, 0, 5, 0), 0), ((1, 0, 5, 3), 0), ((1, 0, 5, 4), 0)] } })
/-- The state of a witness below. -/
def w12CodebookVersions10s : State := (let u := blkOf { d0 with repr := 1, kVer := 5 }; { u with cb := { fillFails := [((0, 0, 0, 5), 0)] }, work := { u.work with cmds := [(1, { vi := 1, cls := 2, fmt := 2, words := [mkWord [(44, 4, 2), (36, 8, 1)], 5, 0, 0, mkWord [(0, 32, 63)], 0, 0, 0] })] } })
/-- The state of a witness below. -/
def w12LiveCalibration2s : State := (let u := com (ctxd own); { u with cb := { spawns := [((1, 0), { stopped := [false] })] } })
/-- The state of a witness below. -/
def w12LiveCalibration3s : State := (let u := com (ctxd own); { u with cb := { spawns := [((1, 0), { cb := [] })] } })
/-- The state of a witness below. -/
def w12LiveCalibration4s : State := (let u := cbs { cs5 with cur := 5 } none; { u with cb := { u.cb with spawns := [((1, 0), { cb := [] })] } })
/-- The state of a witness below. -/
def w12LiveCalibration5s : State := (let u := blkOf { d0 with repr := 1, kVer := 5, vVer := 5, valid := 64, committed := 64, st := 2 }; let x : CbSet := { cur := 6, curSlot := 1, slots := [(5, 4, 1), (6, 3, 0), (0, 0, 0), (0, 0, 0)] }; (u.setCbSet 0 0 x).setCbSet 0 1 x)

/-- Witnesses for the statement CodebookVersions. -/
theorem wit_CodebookVersions :
    (∃ (x : CbSet) (s : State), Memory.wf s.mem ∧ x.fits) ∧
    (∃ (h : MsgHdr) (comp ctx : Nat) (s : State), Up s ∧ h.ver = 1 ∧ s.ctxFor comp = some ctx) ∧
    (∃ (h : MsgHdr) (e slot ver st ctx n : Nat) (p : Publication) (s : State), Up s ∧ h.ver = 1 ∧ s.setCtx s.node e ver = some ctx ∧ Tbl.get s.cb.pubs ((s.ctx ctx).f.composition, e, ver) = some p ∧ p.slot = slot ∧ Tbl.get p.awaited h.src = some n ∧ n < 3 ∧ st ≠ Status.ok.code ∧ st ≠ Status.targetDead.code) ∧
    (∃ (h : MsgHdr) (e slot ver ctx n : Nat) (p : Publication) (s : State), Up s ∧ h.ver = 1 ∧ s.setCtx s.node e ver = some ctx ∧ Tbl.get s.cb.pubs ((s.ctx ctx).f.composition, e, ver) = some p ∧ p.slot = slot ∧ p.awaited = [(h.src, n)] ∧ p.switchAt = none) ∧
    (∃ (h : MsgHdr) (e slot ver ctx : Nat) (s : State), Up s ∧ h.ver = 1 ∧ s.setCtx h.src e ver = some ctx ∧ (s.cbSet ctx e).slotOf ver = some slot ∧ ((s.cbSet ctx e).slot slot).2.1 ≠ 3) ∧
    (∃ (ctx e : Nat) (s : State), Up s ∧ (s.ctx ctx).st = .ready ∧ (s.cbSet ctx e).pend = true ∧ (s.cbSet ctx e).switchAt ≤ s.now ∧ s.work.vis.all (fun v => !v.2.subscribed.contains Ev.codebookSwitch.code) = true) ∧
    (∃ (h : MsgHdr) (e ver n m ctx : Nat) (s : State), Up s ∧ h.ver = 1 ∧ s.setCtx s.node e ver = some ctx ∧ 0 < n + m ∧ (s.comp (s.ctx ctx).f.composition).cur.members.contains h.src = true ∧ s.led.transit.all (fun x => x.2.fault == 0) = true) ∧
    (∃ (h : MsgHdr) (e ver ctx i : Nat) (s : State), Up s ∧ h.ver = 1 ∧ s.setCtx s.node e ver = some ctx ∧ (s.cbSet ctx e).slotOf ver = some i ∧ ((s.cbSet ctx e).slot i).2.1 = 4 ∧ (s.comp (s.ctx ctx).f.composition).cur.members.all (fun k => k == h.src || Tbl.get s.cb.reports ((s.ctx ctx).f.composition, e, ver, k) == some 0) = true) ∧
    (∃ (h : MsgHdr) (e ver ctx i : Nat) (s : State), Up s ∧ h.ver = 1 ∧ s.setCtx h.src e ver = some ctx ∧ (s.cbSet ctx e).cur ≠ ver ∧ (s.cbSet ctx e).slotOf ver = some i) ∧
    (∃ (die ctx e ver slot : Nat) (s : State), Up s ∧ (s.cbSet ctx e).slotOf ver = some slot ∧ (s.ctx ctx).st = .ready ∧ die < 8 ∧ s.isFenced (dieMC die) = false ∧ Tbl.has s.cb.cache (die, ctx, e, ver) = false ∧ s.cacheUse die + cachedBytes (s.ctx ctx).f.headDim e ≤ 26 * 2 ^ 20) ∧
    (∃ (cid : Nat) (c : Cmd) (s : State), Up s ∧ Tbl.get s.work.cmds cid = some c ∧ c.st = .waiting ∧ c.outcome = none ∧ s.cb.fillFails.any (fun f => (s.cmdVers c).contains f.1.2 && decide (f.2 + 1000000 ≤ s.now)) = true) :=
  ⟨⟨cs5, (ctxd own), by decide +kernel⟩,
   ⟨(mh 2 0), 1, ((com (ctxd own)).ctxFor 1).getD (0), (com (ctxd own)), by decide +kernel⟩,
   ⟨(mh 2 0), 0, 0, 5, 9, (w12CodebookVersions2s.setCtx w12CodebookVersions2s.node 0 5).getD (0), (Tbl.get ((Tbl.get w12CodebookVersions2s.cb.pubs ((w12CodebookVersions2s.ctx ((w12CodebookVersions2s.setCtx w12CodebookVersions2s.node 0 5).getD (0))).f.composition, 0, 5)).getD ({} : Publication)).awaited (mh 2 0).src).getD (0), (Tbl.get w12CodebookVersions2s.cb.pubs ((w12CodebookVersions2s.ctx ((w12CodebookVersions2s.setCtx w12CodebookVersions2s.node 0 5).getD (0))).f.composition, 0, 5)).getD ({} : Publication), w12CodebookVersions2s, by decide +kernel⟩,
   ⟨(mh 2 0), 0, 0, 5, (w12CodebookVersions3s.setCtx w12CodebookVersions3s.node 0 5).getD (0), 1, (Tbl.get w12CodebookVersions3s.cb.pubs ((w12CodebookVersions3s.ctx ((w12CodebookVersions3s.setCtx w12CodebookVersions3s.node 0 5).getD (0))).f.composition, 0, 5)).getD ({} : Publication), w12CodebookVersions3s, by decide +kernel⟩,
   ⟨(mh 2 0), 0, (((cbs cs5 (some 2)).cbSet (((cbs cs5 (some 2)).setCtx (mh 2 0).src 0 5).getD (0)) 0).slotOf 5).getD (0), 5, ((cbs cs5 (some 2)).setCtx (mh 2 0).src 0 5).getD (0), (cbs cs5 (some 2)), by decide +kernel⟩,
   ⟨0, 0, (cbs { cs5 with pend := true, curSlot := 1 } none), by decide +kernel⟩,
   ⟨(mh 2 0), 0, 5, 1, 0, ((cbs cs5 none).setCtx (cbs cs5 none).node 0 5).getD (0), (cbs cs5 none), by decide +kernel⟩,
   ⟨(mh 2 0), 0, 5, (w12CodebookVersions7s.setCtx w12CodebookVersions7s.node 0 5).getD (0), ((w12CodebookVersions7s.cbSet ((w12CodebookVersions7s.setCtx w12CodebookVersions7s.node 0 5).getD (0)) 0).slotOf 5).getD (0), w12CodebookVersions7s, by decide +kernel⟩,
   ⟨(mh 2 0), 0, 5, ((cbs cs5 (some 2)).setCtx (mh 2 0).src 0 5).getD (0), (((cbs cs5 (some 2)).cbSet (((cbs cs5 (some 2)).setCtx (mh 2 0).src 0 5).getD (0)) 0).slotOf 5).getD (0), (cbs cs5 (some 2)), by decide +kernel⟩,
   ⟨0, 0, 0, 5, (((cbs cs5 none).cbSet 0 0).slotOf 5).getD (0), (cbs cs5 none), by decide +kernel⟩,
   ⟨1, (Tbl.get w12CodebookVersions10s.work.cmds 1).getD ({} : Cmd), w12CodebookVersions10s, by decide +kernel⟩⟩

set_option maxRecDepth 1000000 in
/-- Witnesses for the statement LiveCalibration. -/
theorem wit_LiveCalibration :
    (∃ (ctx : Nat) (s : State), Up s ∧ (s.ctx ctx).st = .ready ∧ Tbl.at s.cb.windowAt ctx 0 + (s.calib (s.ctx ctx).f.composition).window ≤ s.now) ∧
    (∃ (comp e ctx : Nat) (s : State), Up s ∧ s.ctxFor comp = some ctx ∧ s.calibNode comp = s.node ∧ (s.calib comp).autoSpawn = true ∧ e < (s.ctx ctx).f.entries ∧ Tbl.has s.cb.spawns (comp, e) = false ∧ (s.liveVers comp e).length < 4) ∧
    (∃ (comp e : Nat) (sp : Spawn) (s : State), Up s ∧ Tbl.get s.cb.spawns (comp, e) = some sp ∧ sp.stopped.all id = false) ∧
    (∃ (comp e ctx : Nat) (sp : Spawn) (s : State), Up s ∧ Tbl.get s.cb.spawns (comp, e) = some sp ∧ s.ctxFor comp = some ctx ∧ sp.stopped.all id = true) ∧
    (∃ (comp e ctx : Nat) (sp : Spawn) (s : State), Up s ∧ Tbl.get s.cb.spawns (comp, e) = some sp ∧ s.ctxFor comp = some ctx ∧ sp.stopped.all id = true ∧ (s.cbSet ctx e).cur ≠ 0 ∧ dyLt ((decF32 (relDist ((s.ctx ctx).f.headDim / 8) sp.samples sp.cb)).getD dyZero) (dyMul ⟨65536 - (s.calib comp).gainMin, -16⟩ ((decF32 (relDist ((s.ctx ctx).f.headDim / 8) sp.samples ((s.setObj ctx e (s.cbSet ctx e).curSlot).drop 64))).getD dyZero)) = false) ∧
    (∃ (da want : Nat) (full : Bool) (s : State), Up s ∧ s.cb.molts = [] ∧ s.shardOf da = none ∧ s.moltOrder.findSome? (fun d => (s.moltNeed d).bind (fun n => if (s.moltSkip d n.2).isNone then some (d, n) else none)) = some (da, want, full) ∧ ((s.blockComp da).map (fun c => (s.calib c).moltRate)).getD 0 ≠ 0 ∧ s.cb.moltAt + ceilDiv 1000000000 (((s.blockComp da).map (fun c => (s.calib c).moltRate)).getD 0) ≤ s.now) ∧
    (∃ (da at_ : Nat) (s : State), Up s ∧ Tbl.get s.cb.moltRetry da = some at_ ∧ at_ ≤ s.now) ∧
    (∃ (comp lost ctx : Nat) (s : State), Up s ∧ s.ctxFor comp = some ctx ∧ s.calibNode comp = lost ∧ lost ≠ s.node ∧ nextAbove (s.comp comp).cur.cache lost = some s.node) :=
  ⟨⟨0, (com (ctxd own)), by decide +kernel⟩,
   ⟨1, 0, ((com (ctxd own)).ctxFor 1).getD (0), (com (ctxd own)), by decide +kernel⟩,
   ⟨1, 0, (Tbl.get w12LiveCalibration2s.cb.spawns (1, 0)).getD ({} : Spawn), w12LiveCalibration2s, by decide +kernel⟩,
   ⟨1, 0, (w12LiveCalibration3s.ctxFor 1).getD (0), (Tbl.get w12LiveCalibration3s.cb.spawns (1, 0)).getD ({} : Spawn), w12LiveCalibration3s, by decide +kernel⟩,
   ⟨1, 0, (w12LiveCalibration4s.ctxFor 1).getD (0), (Tbl.get w12LiveCalibration4s.cb.spawns (1, 0)).getD ({} : Spawn), w12LiveCalibration4s, by decide +kernel⟩,
   ⟨((w12LiveCalibration5s.moltOrder.findSome? (fun d => (w12LiveCalibration5s.moltNeed d).bind (fun n => if (w12LiveCalibration5s.moltSkip d n.2).isNone then some (d, n) else none))).getD (0, 0, false)).1, ((w12LiveCalibration5s.moltOrder.findSome? (fun d => (w12LiveCalibration5s.moltNeed d).bind (fun n => if (w12LiveCalibration5s.moltSkip d n.2).isNone then some (d, n) else none))).getD (0, 0, false)).2.1, ((w12LiveCalibration5s.moltOrder.findSome? (fun d => (w12LiveCalibration5s.moltNeed d).bind (fun n => if (w12LiveCalibration5s.moltSkip d n.2).isNone then some (d, n) else none))).getD (0, 0, false)).2.2, w12LiveCalibration5s, by decide +kernel⟩,
   ⟨5, 6, { own with cb := { moltRetry := [(5, 6)] } }, by decide +kernel⟩,
   ⟨1, 2, (((let u := cbs cs5 (some 2); { u with node := 4 })).ctxFor 1).getD (0), (let u := cbs cs5 (some 2); { u with node := 4 }), by decide +kernel⟩⟩

/-- The state of a witness below. -/
def w13BlockCommands0s : State := job 1 3 1 [5, dAddr 0, dAddr 128, mkWord [(32, 32, 10), (19, 13, 1)], 0] blk
/-- The state of a witness below. -/
def w13BlockCommands1s : State := (job 1 3 1 [5, dAddr 0, dAddr 128, mkWord [(32, 32, 10), (19, 13, 1)], 0] blk).wr (dAddr 0) [0x80#8, 0x7F#8]
/-- The state of a witness below. -/
def w13BlockCommands2s : State := job 1 3 1 [5, dAddr 0, dAddr 128, mkWord [(32, 32, 10), (19, 13, 1)], 0] blk
/-- The state of a witness below. -/
def w13BlockCommands3s : State := (job 1 3 2 [0, dAddr 256, mkWord [(49, 15, 1)]] blk).wrWords (dAddr 256) [da0]
/-- The state of a witness below. -/
def w13BlockCommands3s1 : State := (w13BlockCommands3s.recodeList 1 ((w13BlockCommands3s.running 1 3 2).getD ({} : Cmd)).vi (fld ((w13BlockCommands3s.running 1 3 2).getD ({} : Cmd)).op 3 48 47) (fld ((w13BlockCommands3s.running 1 3 2).getD ({} : Cmd)).op 3 46 46 == 1) ((w13BlockCommands3s.running 1 3 2).getD ({} : Cmd)).conv (w13BlockCommands3s.listed (word ((w13BlockCommands3s.running 1 3 2).getD ({} : Cmd)).op 2) (fld ((w13BlockCommands3s.running 1 3 2).getD ({} : Cmd)).op 3 63 49)) 0 none true [] []).2.2.2.2.2
/-- The state of a witness below. -/
def w13BlockCommands6s : State := (job 1 1 3 [5, 0, 0, 0, 0] blk).setMapEntry r5 0 0 0 (mkAddr 2 1 64)
/-- The state of a witness below. -/
def w13BlockCommands7s : State := { blk with own := { pulls := [((5, 0, 0, 0), { desc := da0 + 64, copies := [(2, 0, 0)] })] } }
/-- The state of a witness below. -/
def w13BlockCommands8s : State := { blk with own := { pulls := [((5, 0, 0, 0), { desc := da0 + 64, copies := [(2, 0, 0), (4, 0, 0)] })] } }
/-- The state of a witness below. -/
def w13BlockCommands9s : State := (let u := job 1 1 3 [5, 0, 0] blk; { u with own := { pulls := [((5, 0, 0, 0), { cid := some 1, desc := da0 + 64, copies := [(2, 0, 0)] })] } })

set_option maxRecDepth 1000000 in
/-- Witnesses for the statement BlockCommands. -/
theorem wit_BlockCommands :
    (∃ (cid : Nat) (c : Cmd) (r : Req) (s : State), Up s ∧ Memory.wf s.mem ∧ s.running cid 3 1 = some c ∧ s.req (fld c.op 1 47 0) = some r ∧ fld c.op 4 31 19 = 1 ∧ s.readFault (word c.op 2) (2 * (s.ctx r.ctxSlot).f.headDim) = none ∧ s.readFault (word c.op 3) (2 * (s.ctx r.ctxSlot).f.headDim) = none ∧ (bf16s (s.ctx r.ctxSlot).f.headDim (s.rd (word c.op 2) (2 * (s.ctx r.ctxSlot).f.headDim))).isSome = true ∧ (bf16s (s.ctx r.ctxSlot).f.headDim (s.rd (word c.op 3) (2 * (s.ctx r.ctxSlot).f.headDim))).isSome = true ∧ s.mapEntry r (fld c.op 5 63 54) (fld c.op 5 53 46) (fld c.op 4 63 32 / 64) ≠ 0 ∧ (s.desc (s.mapEntry r (fld c.op 5 63 54) (fld c.op 5 53 46) (fld c.op 4 63 32 / 64))).repr = 0) ∧
    (∃ (cid : Nat) (c : Cmd) (r : Req) (s : State), Up s ∧ s.running cid 3 1 = some c ∧ s.req (fld c.op 1 47 0) = some r ∧ s.readFault (word c.op 2) (fld c.op 4 31 19 * 2 * (s.ctx r.ctxSlot).f.headDim) = none ∧ s.readFault (word c.op 3) (fld c.op 4 31 19 * 2 * (s.ctx r.ctxSlot).f.headDim) = none ∧ ((bf16s (fld c.op 4 31 19 * (s.ctx r.ctxSlot).f.headDim) (s.rd (word c.op 2) (fld c.op 4 31 19 * 2 * (s.ctx r.ctxSlot).f.headDim))).isSome && (bf16s (fld c.op 4 31 19 * (s.ctx r.ctxSlot).f.headDim) (s.rd (word c.op 3) (fld c.op 4 31 19 * 2 * (s.ctx r.ctxSlot).f.headDim))).isSome) = false) ∧
    (∃ (cid want kv vv : Nat) (coded : Bool) (c : Cmd) (r : Req) (s : State), Up s ∧ s.running cid 3 1 = some c ∧ s.req (fld c.op 1 47 0) = some r ∧ s.readFault (word c.op 2) (fld c.op 4 31 19 * 2 * (s.ctx r.ctxSlot).f.headDim) = none ∧ s.readFault (word c.op 3) (fld c.op 4 31 19 * 2 * (s.ctx r.ctxSlot).f.headDim) = none ∧ (bf16s (fld c.op 4 31 19 * (s.ctx r.ctxSlot).f.headDim) (s.rd (word c.op 2) (fld c.op 4 31 19 * 2 * (s.ctx r.ctxSlot).f.headDim))).isSome = true ∧ (bf16s (fld c.op 4 31 19 * (s.ctx r.ctxSlot).f.headDim) (s.rd (word c.op 3) (fld c.op 4 31 19 * 2 * (s.ctx r.ctxSlot).f.headDim))).isSome = true ∧ want = (if fld c.op 4 18 17 = 0 then r.kvRepr else fld c.op 4 18 17 - 1) ∧ kv = s.curVer r.ctxSlot ((s.ctx r.ctxSlot).f.entry (fld c.op 5 63 54) (fld c.op 5 53 46) 0) ∧ vv = s.curVer r.ctxSlot ((s.ctx r.ctxSlot).f.entry (fld c.op 5 63 54) (fld c.op 5 53 46) 1) ∧ coded = (want != 0 && kv != 0 && vv != 0)) ∧
    (∃ (cid n : Nat) (st : Option Status) (posts : List Post) (conv : List Nat) (c : Cmd) (s s1 : State), Up s ∧ s.running cid 3 2 = some c ∧ s.recodeList cid c.vi (fld c.op 3 48 47) (fld c.op 3 46 46 == 1) c.conv (s.listed (word c.op 2) (fld c.op 3 63 49)) 0 none true [] [] = (n, st, true, posts, conv, s1) ∧ conv.all (fun da => (s1.shardOf da).isNone) = true) ∧
    (∃ (cid : Nat) (c : Cmd) (r : Req) (s : State), Up s ∧ s.running cid 1 2 = some c ∧ s.req (fld c.op 1 47 0) = some r) ∧
    (∃ (cid : Nat) (c : Cmd) (r : Req) (s : State), Up s ∧ s.running cid 1 3 = some c ∧ s.own.pulls.any (fun p => p.2.cid == some cid) = false ∧ s.req (fld c.op 1 47 0) = some r ∧ s.toPull r (runOf (fld c.op 2 63 54) (fld c.op 2 53 44)) (runOf (fld c.op 2 43 36) (fld c.op 2 35 28)) (fld c.op 3 63 32) (fld c.op 3 31 0) = []) ∧
    (∃ (cid l h b da die : Nat) (c : Cmd) (r : Req) (s : State), Up s ∧ s.running cid 1 3 = some c ∧ s.own.pulls.any (fun p => p.2.cid == some cid) = false ∧ s.req (fld c.op 1 47 0) = some r ∧ s.toPull r (runOf (fld c.op 2 63 54) (fld c.op 2 53 44)) (runOf (fld c.op 2 43 36) (fld c.op 2 35 28)) (fld c.op 3 63 32) (fld c.op 3 31 0) = [(l, h, b)] ∧ Tbl.has s.own.pulls (fld c.op 1 47 0, l, h, b) = false ∧ s.dieFor l h = some die ∧ s.freeSlot 1 die (s.geom r).headDim = some da ∧ s.claimFault r.ownerVi r.composition 1 (newCharge 1 0 (s.geom r).headDim) = none) ∧
    (∃ (rid l h b : Nat) (desc : List Nat) (planes : List Byte) (p : Pull) (r : Req) (nd : Desc) (s : State), Up s ∧ Tbl.get s.own.pulls (rid, l, h, b) = some p ∧ s.req rid = some r ∧ word desc 7 = crc64 (bytesOfWords (desc.take 7)) ∧ (Desc.ofWords desc).layer = l ∧ (Desc.ofWords desc).head = h ∧ (Desc.ofWords desc).base = 64 * b ∧ (Desc.ofWords desc).dim = dimCode (s.geom r).headDim ∧ (Desc.ofWords desc).st ≠ dLost ∧ (Desc.ofWords desc).st ≠ dConverting ∧ (Desc.ofWords desc).epoch ≤ r.holdEpoch ∧ (Desc.ofWords desc).repr = 0 ∧ nd = { Desc.ofWords desc with slot := (s.slotAddr p.desc).getD 0, epoch := r.holdEpoch, holder := s.node, valid := (Desc.ofWords desc).committed, st := (if (Desc.ofWords desc).committed = 64 then dFull else dOpen), crcB := 0 } ∧ (s.store nd.slot (planes.take (inUse 0 (s.geom r).headDim))).badPlane nd = none ∧ ((((s.store nd.slot (planes.take (inUse 0 (s.geom r).headDim))).setDesc p.desc nd).setMapEntry r l h b p.desc).desc p.desc).repr = 0) ∧
    (∃ (rid l h b : Nat) (x y : Nat × Nat × Nat) (cs : List (Nat × Nat × Nat)) (p : Pull) (s : State), Up s ∧ Tbl.get s.own.pulls (rid, l, h, b) = some p ∧ p.deadline ≤ s.now ∧ p.copies = x :: y :: cs) ∧
    (∃ (rid l h b cid : Nat) (x : Nat × Nat × Nat) (p : Pull) (c : Cmd) (s : State), Up s ∧ Tbl.get s.own.pulls (rid, l, h, b) = some p ∧ p.deadline ≤ s.now ∧ p.copies = [x] ∧ p.cid = some cid ∧ Tbl.get s.work.cmds cid = some c) :=
  ⟨⟨1, (w13BlockCommands0s.running 1 3 1).getD ({} : Cmd), (w13BlockCommands0s.req (fld ((w13BlockCommands0s.running 1 3 1).getD ({} : Cmd)).op 1 47 0)).getD ({} : Req), w13BlockCommands0s, by decide +kernel⟩,
   ⟨1, (w13BlockCommands1s.running 1 3 1).getD ({} : Cmd), (w13BlockCommands1s.req (fld ((w13BlockCommands1s.running 1 3 1).getD ({} : Cmd)).op 1 47 0)).getD ({} : Req), w13BlockCommands1s, by decide +kernel⟩,
   ⟨1, (if fld ((w13BlockCommands2s.running 1 3 1).getD ({} : Cmd)).op 4 18 17 = 0 then ((w13BlockCommands2s.req (fld ((w13BlockCommands2s.running 1 3 1).getD ({} : Cmd)).op 1 47 0)).getD ({} : Req)).kvRepr else fld ((w13BlockCommands2s.running 1 3 1).getD ({} : Cmd)).op 4 18 17 - 1), (w13BlockCommands2s.curVer ((w13BlockCommands2s.req (fld ((w13BlockCommands2s.running 1 3 1).getD ({} : Cmd)).op 1 47 0)).getD ({} : Req)).ctxSlot ((w13BlockCommands2s.ctx ((w13BlockCommands2s.req (fld ((w13BlockCommands2s.running 1 3 1).getD ({} : Cmd)).op 1 47 0)).getD ({} : Req)).ctxSlot).f.entry (fld ((w13BlockCommands2s.running 1 3 1).getD ({} : Cmd)).op 5 63 54) (fld ((w13BlockCommands2s.running 1 3 1).getD ({} : Cmd)).op 5 53 46) 0)), (w13BlockCommands2s.curVer ((w13BlockCommands2s.req (fld ((w13BlockCommands2s.running 1 3 1).getD ({} : Cmd)).op 1 47 0)).getD ({} : Req)).ctxSlot ((w13BlockCommands2s.ctx ((w13BlockCommands2s.req (fld ((w13BlockCommands2s.running 1 3 1).getD ({} : Cmd)).op 1 47 0)).getD ({} : Req)).ctxSlot).f.entry (fld ((w13BlockCommands2s.running 1 3 1).getD ({} : Cmd)).op 5 63 54) (fld ((w13BlockCommands2s.running 1 3 1).getD ({} : Cmd)).op 5 53 46) 1)), (((if fld ((w13BlockCommands2s.running 1 3 1).getD ({} : Cmd)).op 4 18 17 = 0 then ((w13BlockCommands2s.req (fld ((w13BlockCommands2s.running 1 3 1).getD ({} : Cmd)).op 1 47 0)).getD ({} : Req)).kvRepr else fld ((w13BlockCommands2s.running 1 3 1).getD ({} : Cmd)).op 4 18 17 - 1)) != 0 && (w13BlockCommands2s.curVer ((w13BlockCommands2s.req (fld ((w13BlockCommands2s.running 1 3 1).getD ({} : Cmd)).op 1 47 0)).getD ({} : Req)).ctxSlot ((w13BlockCommands2s.ctx ((w13BlockCommands2s.req (fld ((w13BlockCommands2s.running 1 3 1).getD ({} : Cmd)).op 1 47 0)).getD ({} : Req)).ctxSlot).f.entry (fld ((w13BlockCommands2s.running 1 3 1).getD ({} : Cmd)).op 5 63 54) (fld ((w13BlockCommands2s.running 1 3 1).getD ({} : Cmd)).op 5 53 46) 0)) != 0 && (w13BlockCommands2s.curVer ((w13BlockCommands2s.req (fld ((w13BlockCommands2s.running 1 3 1).getD ({} : Cmd)).op 1 47 0)).getD ({} : Req)).ctxSlot ((w13BlockCommands2s.ctx ((w13BlockCommands2s.req (fld ((w13BlockCommands2s.running 1 3 1).getD ({} : Cmd)).op 1 47 0)).getD ({} : Req)).ctxSlot).f.entry (fld ((w13BlockCommands2s.running 1 3 1).getD ({} : Cmd)).op 5 63 54) (fld ((w13BlockCommands2s.running 1 3 1).getD ({} : Cmd)).op 5 53 46) 1)) != 0), (w13BlockCommands2s.running 1 3 1).getD ({} : Cmd), (w13BlockCommands2s.req (fld ((w13BlockCommands2s.running 1 3 1).getD ({} : Cmd)).op 1 47 0)).getD ({} : Req), w13BlockCommands2s, by decide +kernel⟩,
   ⟨1, (w13BlockCommands3s.recodeList 1 ((w13BlockCommands3s.running 1 3 2).getD ({} : Cmd)).vi (fld ((w13BlockCommands3s.running 1 3 2).getD ({} : Cmd)).op 3 48 47) (fld ((w13BlockCommands3s.running 1 3 2).getD ({} : Cmd)).op 3 46 46 == 1) ((w13BlockCommands3s.running 1 3 2).getD ({} : Cmd)).conv (w13BlockCommands3s.listed (word ((w13BlockCommands3s.running 1 3 2).getD ({} : Cmd)).op 2) (fld ((w13BlockCommands3s.running 1 3 2).getD ({} : Cmd)).op 3 63 49)) 0 none true [] []).1, (w13BlockCommands3s.recodeList 1 ((w13BlockCommands3s.running 1 3 2).getD ({} : Cmd)).vi (fld ((w13BlockCommands3s.running 1 3 2).getD ({} : Cmd)).op 3 48 47) (fld ((w13BlockCommands3s.running 1 3 2).getD ({} : Cmd)).op 3 46 46 == 1) ((w13BlockCommands3s.running 1 3 2).getD ({} : Cmd)).conv (w13BlockCommands3s.listed (word ((w13BlockCommands3s.running 1 3 2).getD ({} : Cmd)).op 2) (fld ((w13BlockCommands3s.running 1 3 2).getD ({} : Cmd)).op 3 63 49)) 0 none true [] []).2.1, [], [], (w13BlockCommands3s.running 1 3 2).getD ({} : Cmd), w13BlockCommands3s, w13BlockCommands3s1, by decide +kernel⟩,
   ⟨1, ((job 1 1 2 [5, 0, 0] blk).running 1 1 2).getD ({} : Cmd), ((job 1 1 2 [5, 0, 0] blk).req (fld (((job 1 1 2 [5, 0, 0] blk).running 1 1 2).getD ({} : Cmd)).op 1 47 0)).getD ({} : Req), (job 1 1 2 [5, 0, 0] blk), by decide +kernel⟩,
   ⟨1, ((job 1 1 3 [5, 0, 0] blk).running 1 1 3).getD ({} : Cmd), ((job 1 1 3 [5, 0, 0] blk).req (fld (((job 1 1 3 [5, 0, 0] blk).running 1 1 3).getD ({} : Cmd)).op 1 47 0)).getD ({} : Req), (job 1 1 3 [5, 0, 0] blk), by decide +kernel⟩,
   ⟨1, 0, 0, 0, (da0 + 64), (w13BlockCommands6s.dieFor 0 0).getD (0), (w13BlockCommands6s.running 1 1 3).getD ({} : Cmd), (w13BlockCommands6s.req (fld ((w13BlockCommands6s.running 1 1 3).getD ({} : Cmd)).op 1 47 0)).getD ({} : Req), w13BlockCommands6s, by decide +kernel⟩,
   ⟨5, 0, 0, 0, ({ d0 with slot := 0, valid := 0, committed := 0 } : Desc).words, [], (Tbl.get w13BlockCommands7s.own.pulls (5, 0, 0, 0)).getD ({} : Pull), (w13BlockCommands7s.req 5).getD ({} : Req), { Desc.ofWords (({ d0 with slot := 0, valid := 0, committed := 0 } : Desc).words) with slot := (w13BlockCommands7s.slotAddr ((Tbl.get w13BlockCommands7s.own.pulls (5, 0, 0, 0)).getD ({} : Pull)).desc).getD 0, epoch := ((w13BlockCommands7s.req 5).getD ({} : Req)).holdEpoch, holder := w13BlockCommands7s.node, valid := (Desc.ofWords (({ d0 with slot := 0, valid := 0, committed := 0 } : Desc).words)).committed, st := (if (Desc.ofWords (({ d0 with slot := 0, valid := 0, committed := 0 } : Desc).words)).committed = 64 then dFull else dOpen), crcB := 0 }, w13BlockCommands7s, by decide +kernel⟩,
   ⟨5, 0, 0, 0, (2, 0, 0), (4, 0, 0), [], (Tbl.get w13BlockCommands8s.own.pulls (5, 0, 0, 0)).getD ({} : Pull), w13BlockCommands8s, by decide +kernel⟩,
   ⟨5, 0, 0, 0, 1, (2, 0, 0), (Tbl.get w13BlockCommands9s.own.pulls (5, 0, 0, 0)).getD ({} : Pull), (Tbl.get w13BlockCommands9s.work.cmds 1).getD ({} : Cmd), w13BlockCommands9s, by decide +kernel⟩⟩

/-- The state of a witness below. -/
def w14AttendCommands0s : State := (job 1 2 1 [5, dAddr 0, dAddr 4096, mkWord [(0, 32, 63)], mkWord [(39, 7, 1)], 0, 0] blk).wr (dAddr 0) [0x80#8, 0x7F#8]
/-- The state of a witness below. -/
def w14AttendCommands1s : State := job 1 2 1 [5, dAddr 0, dAddr 4096, mkWord [(0, 32, 63)], 0, 0, 0] blk
/-- The state of a witness below. -/
def w14AttendCommands3s : State := job 1 2 3 [5, dAddr 0, dAddr 4096, mkWord [(59, 5, 1), (52, 7, 1)], 0, 0, 0] blk
/-- The state of a witness below. -/
def w14AttendCommands4s : State := { own with work := { own.work with cmds := [(1, { vi := 1, cls := 2, st := .running, parts := [(2, 5)] })] } }

/-- Witnesses for the statement AttendCommands. -/
theorem wit_AttendCommands :
    (∃ (cid ctx : Nat) (c : Cmd) (r : Req) (e : Status × State) (s : State), Up s ∧ s.running cid 2 1 = some c ∧ s.req (fld c.op 1 47 0) = some r ∧ ctx = c.slot.getD r.ctxSlot ∧ s.pullsWaiting c = false ∧ c.parts = [] ∧ s.attendLocal c ctx (s.jobBlocks c) = .error e) ∧
    (∃ (cid ctx : Nat) (c : Cmd) (r : Req) (s : State), Up s ∧ s.running cid 2 1 = some c ∧ s.req (fld c.op 1 47 0) = some r ∧ ctx = c.slot.getD r.ctxSlot ∧ s.pullsWaiting c = false ∧ c.parts = []) ∧
    (∃ (cid : Nat) (c : Cmd) (s : State), Up s ∧ s.running cid 2 2 = some c) ∧
    (∃ (cid d n : Nat) (c : Cmd) (s : State), Up s ∧ s.running cid 2 3 = some c ∧ d = (s.ctx (c.slot.getD 0)).f.headDim ∧ n = fld c.op 4 58 52 ∧ s.readFault (word c.op 2) (fld c.op 4 63 59 * n * (64 + 4 * d)) = none) ∧
    (∃ (cid node at_ : Nat) (c : Cmd) (s : State), Up s ∧ Tbl.get s.work.cmds cid = some c ∧ Tbl.get c.parts node = some at_ ∧ at_ ≤ s.now ∧ c.outcome = none) ∧
    (∃ (ps : List ResRow), ps.all (fun p => !p.any) = true) :=
  ⟨⟨1, ((w14AttendCommands0s.running 1 2 1).getD ({} : Cmd)).slot.getD ((w14AttendCommands0s.req (fld ((w14AttendCommands0s.running 1 2 1).getD ({} : Cmd)).op 1 47 0)).getD ({} : Req)).ctxSlot, (w14AttendCommands0s.running 1 2 1).getD ({} : Cmd), (w14AttendCommands0s.req (fld ((w14AttendCommands0s.running 1 2 1).getD ({} : Cmd)).op 1 47 0)).getD ({} : Req), (.attendQuery, w14AttendCommands0s), w14AttendCommands0s, ⟨by decide +kernel, by decide +kernel, by decide +kernel, by decide +kernel, by decide +kernel, by decide +kernel, rfl⟩⟩,
   ⟨1, ((w14AttendCommands1s.running 1 2 1).getD ({} : Cmd)).slot.getD ((w14AttendCommands1s.req (fld ((w14AttendCommands1s.running 1 2 1).getD ({} : Cmd)).op 1 47 0)).getD ({} : Req)).ctxSlot, (w14AttendCommands1s.running 1 2 1).getD ({} : Cmd), (w14AttendCommands1s.req (fld ((w14AttendCommands1s.running 1 2 1).getD ({} : Cmd)).op 1 47 0)).getD ({} : Req), w14AttendCommands1s, by decide +kernel⟩,
   ⟨1, ((job 1 2 2 [5, dAddr 0, dAddr 4096, dAddr 8192, 1, 0, 0] blk).running 1 2 2).getD ({} : Cmd), (job 1 2 2 [5, dAddr 0, dAddr 4096, dAddr 8192, 1, 0, 0] blk), by decide +kernel⟩,
   ⟨1, (w14AttendCommands3s.ctx (((w14AttendCommands3s.running 1 2 3).getD ({} : Cmd)).slot.getD 0)).f.headDim, (fld ((w14AttendCommands3s.running 1 2 3).getD ({} : Cmd)).op 4 58 52), (w14AttendCommands3s.running 1 2 3).getD ({} : Cmd), w14AttendCommands3s, by decide +kernel⟩,
   ⟨1, 2, 5, (Tbl.get w14AttendCommands4s.work.cmds 1).getD ({} : Cmd), w14AttendCommands4s, by decide +kernel⟩,
   ⟨[], by decide +kernel⟩⟩

/-- The state of a witness below. -/
def w15WeightStreams2s : State := (let u := wjob [(1, { next := 2 })]; { u with work := { u.work with cmds := Tbl.mapVals u.work.cmds (fun _ c => { c with words := c.words.set 4 (mkWord [(44, 10, 3)]) }) } })
/-- The state of a witness below. -/
def w15WeightStreams7s : State := (let u := wjob [(1, {})]; { u with work := { u.work with cmds := u.work.cmds ++ [(2, { vi := 1, cls := 6, fmt := 2, st := .running, words := [mkWord [(44, 4, 6), (36, 8, 2)], 0, 0] })] } })
/-- The state of a witness below. -/
def w15WeightStreams8s : State := (let u := wjob [(1, { next := 2, pollAt := 5 })]; { u with work := { u.work with cmds := Tbl.mapVals u.work.cmds (fun _ c => { c with words := c.words.set 4 (mkWord [(44, 10, 3)]) }) } })
/-- The state of a witness below. -/
def w15WeightStreams11s : State := (wjob [(1, { readAt := 5 })]).wrWords (ctxF.weightDir + 72) [mkAddr 4 1 64]
/-- The state of a witness below. -/
def w15WeightStreams12s : State := slotted (job 1 3 3 [0, dAddr 4096, mkWord [(32, 32, 0)], dAddr 8192] wdir)

/-- Witnesses for the statement WeightStreams. -/
theorem wit_WeightStreams :
    (∃ (cid slot : Nat) (c : Cmd) (x : WStream) (s : State), Up s ∧ s.running cid 6 1 = some c ∧ c.slot = some slot ∧ Tbl.get s.tier.streams cid = some x ∧ (winOps c.op).count ≤ x.next) ∧
    (∃ (cid slot : Nat) (c : Cmd) (x : WStream) (s : State), Up s ∧ s.running cid 6 1 = some c ∧ c.slot = some slot ∧ Tbl.get s.tier.streams cid = some x ∧ x.next < (winOps c.op).count ∧ (fld (s.rdWords (winOps c.op).rel 1) 0 31 0 < x.released ∨ x.next < fld (s.rdWords (winOps c.op).rel 1) 0 31 0)) ∧
    (∃ (cid slot : Nat) (c : Cmd) (x : WStream) (s : State), Up s ∧ s.running cid 6 1 = some c ∧ c.slot = some slot ∧ Tbl.get s.tier.streams cid = some x ∧ x.next < (winOps c.op).count ∧ x.released ≤ fld (s.rdWords (winOps c.op).rel 1) 0 31 0 ∧ fld (s.rdWords (winOps c.op).rel 1) 0 31 0 + (winOps c.op).slots ≤ x.next ∧ 0 < (winOps c.op).slots) ∧
    (∃ (cid slot e : Nat) (es : List Nat) (remote : List (Nat × List Byte)) (c : Cmd) (s : State), Up s ∧ s.running cid 6 1 = some c ∧ c.slot = some slot ∧ Tbl.get s.tier.streams cid = none ∧ 0 < (winOps c.op).count ∧ 0 < (winOps c.op).slots ∧ fld (s.rdWords (winOps c.op).rel 1) 0 31 0 = 0 ∧ s.partTiles (s.ctx slot).f (winOps c.op).first (winOps c.op).parts (winOps c.op).part = e :: es ∧ s.readTile (s.tileEntry (s.ctx slot).f e) 0 remote = .pending) ∧
    (∃ (cid slot e : Nat) (c : Cmd) (x : WStream) (s : State), Up s ∧ s.running cid 6 1 = some c ∧ c.slot = some slot ∧ Tbl.get s.tier.streams cid = some x ∧ x.next < (winOps c.op).count ∧ x.released ≤ fld (s.rdWords (winOps c.op).rel 1) 0 31 0 ∧ fld (s.rdWords (winOps c.op).rel 1) 0 31 0 ≤ x.next ∧ x.next < fld (s.rdWords (winOps c.op).rel 1) 0 31 0 + (winOps c.op).slots ∧ (s.partTiles (s.ctx slot).f ((winOps c.op).first + x.next) (winOps c.op).parts (winOps c.op).part)[x.tile]? = some e ∧ 4 ≤ x.copy) ∧
    (∃ (cid slot : Nat) (c : Cmd) (x : WStream) (s : State), Up s ∧ s.running cid 6 1 = some c ∧ c.slot = some slot ∧ Tbl.get s.tier.streams cid = some x ∧ x.next + 1 = (winOps c.op).count ∧ x.released ≤ fld (s.rdWords (winOps c.op).rel 1) 0 31 0 ∧ fld (s.rdWords (winOps c.op).rel 1) 0 31 0 ≤ x.next ∧ x.next < fld (s.rdWords (winOps c.op).rel 1) 0 31 0 + (winOps c.op).slots ∧ (s.partTiles (s.ctx slot).f ((winOps c.op).first + x.next) (winOps c.op).parts (winOps c.op).part)[x.tile]? = none) ∧
    (∃ (cid : Nat) (c : Cmd) (s : State), Up s ∧ s.running cid 6 2 = some c ∧ s.work.cmds.find? (fun x => x.2.vi == c.vi && x.2.cls == 6 && x.2.q == fld c.op 2 35 32 && x.2.index == fld c.op 2 31 0 && fld x.2.op 0 43 36 == 1 && x.2.outcome.isNone) = none) ∧
    (∃ (cid k : Nat) (c d : Cmd) (x : WStream) (s : State), Up s ∧ s.running cid 6 2 = some c ∧ s.work.cmds.find? (fun x => x.2.vi == c.vi && x.2.cls == 6 && x.2.q == fld c.op 2 35 32 && x.2.index == fld c.op 2 31 0 && fld x.2.op 0 43 36 == 1 && x.2.outcome.isNone) = some (k, d) ∧ k ≠ cid ∧ Tbl.get s.tier.streams k = some x) ∧
    (∃ (cid slot : Nat) (c : Cmd) (x : WStream) (s : State), Up s ∧ Tbl.get s.work.cmds cid = some c ∧ c.slot = some slot ∧ Tbl.get s.tier.streams cid = some x ∧ x.pollAt ≠ 0 ∧ x.pollAt ≤ s.now ∧ x.next < (winOps c.op).count ∧ x.released ≤ fld (s.rdWords (winOps c.op).rel 1) 0 31 0 ∧ fld (s.rdWords (winOps c.op).rel 1) 0 31 0 + (winOps c.op).slots ≤ x.next ∧ 0 < (winOps c.op).slots) ∧
    (∃ (cid : Nat) (c : Cmd) (x : WStream) (s : State), Up s ∧ Tbl.get s.work.cmds cid = some c ∧ Tbl.get s.tier.streams cid = some x ∧ x.start + x.next * (winOps c.op).period ≤ s.now ∧ x.next < (winOps c.op).count ∧ x.reported.contains x.next = false) ∧
    (∃ (cid : Nat) (c : Cmd) (x : WStream) (s : State), Up s ∧ Tbl.get s.work.cmds cid = some c ∧ Tbl.get s.tier.streams cid = some x ∧ x.readAt ≠ 0 ∧ x.start + x.next * (winOps c.op).period + (winOps c.op).limit ≤ s.now) ∧
    (∃ (cid slot e : Nat) (c : Cmd) (x : WStream) (s : State), Up s ∧ Tbl.get s.work.cmds cid = some c ∧ c.slot = some slot ∧ Tbl.get s.tier.streams cid = some x ∧ x.readAt ≠ 0 ∧ x.readAt + min ((winOps c.op).period / 2) 1000000 ≤ s.now + 1 ∧ x.next < (winOps c.op).count ∧ x.released ≤ fld (s.rdWords (winOps c.op).rel 1) 0 31 0 ∧ fld (s.rdWords (winOps c.op).rel 1) 0 31 0 ≤ x.next ∧ x.next < fld (s.rdWords (winOps c.op).rel 1) 0 31 0 + (winOps c.op).slots ∧ (s.partTiles (s.ctx slot).f ((winOps c.op).first + x.next) (winOps c.op).parts (winOps c.op).part)[x.tile]? = some e ∧ x.copy < 3 ∧ s.readTile (s.tileEntry (s.ctx slot).f e) (x.copy + 1) [] = .pending) ∧
    (∃ (cid slot : Nat) (c : Cmd) (s : State), Up s ∧ s.running cid 3 3 = some c ∧ c.slot = some slot) ∧
    (∃ (c : Caller) (slot : Nat) (entries : List (List Nat)) (tiles : List (Nat × List Byte)) (s : State), AskedBox s 776 .oper c ∧ s.usesRing c = false ∧ (s.ctx slot).st ≠ .empty ∧ entries.length ≤ 16777216 ∧ entries.all (fun e => entryFormed e && decide (fld e 4 31 22 < (s.ctx slot).f.layers)) = true ∧ (s.comp (s.ctx slot).f.composition).cur.protection = .none ∧ tiles.all (fun t => tileFormed t.2 && tileChecks t.2 && s.covers c.vi t.1 t.2.length rWt) = true) :=
  ⟨⟨1, ((((wjob [(1, { next := 2 })]).running 1 6 1).getD ({} : Cmd)).slot).getD (0), ((wjob [(1, { next := 2 })]).running 1 6 1).getD ({} : Cmd), (Tbl.get (wjob [(1, { next := 2 })]).tier.streams 1).getD ({} : WStream), (wjob [(1, { next := 2 })]), by decide +kernel⟩,
   ⟨1, ((((wjob [(1, { released := 1 })]).running 1 6 1).getD ({} : Cmd)).slot).getD (0), ((wjob [(1, { released := 1 })]).running 1 6 1).getD ({} : Cmd), (Tbl.get (wjob [(1, { released := 1 })]).tier.streams 1).getD ({} : WStream), (wjob [(1, { released := 1 })]), by decide +kernel⟩,
   ⟨1, (((w15WeightStreams2s.running 1 6 1).getD ({} : Cmd)).slot).getD (0), (w15WeightStreams2s.running 1 6 1).getD ({} : Cmd), (Tbl.get w15WeightStreams2s.tier.streams 1).getD ({} : WStream), w15WeightStreams2s, by decide +kernel⟩,
   ⟨1, ((((wjob []).running 1 6 1).getD ({} : Cmd)).slot).getD (0), 0, [], [], ((wjob []).running 1 6 1).getD ({} : Cmd), (wjob []), by decide +kernel⟩,
   ⟨1, ((((wjob [(1, { copy := 4 })]).running 1 6 1).getD ({} : Cmd)).slot).getD (0), (((wjob [(1, { copy := 4 })]).partTiles ((wjob [(1, { copy := 4 })]).ctx (((((wjob [(1, { copy := 4 })]).running 1 6 1).getD ({} : Cmd)).slot).getD (0))).f ((winOps (((wjob [(1, { copy := 4 })]).running 1 6 1).getD ({} : Cmd)).op).first + ((Tbl.get (wjob [(1, { copy := 4 })]).tier.streams 1).getD ({} : WStream)).next) (winOps (((wjob [(1, { copy := 4 })]).running 1 6 1).getD ({} : Cmd)).op).parts (winOps (((wjob [(1, { copy := 4 })]).running 1 6 1).getD ({} : Cmd)).op).part)[((Tbl.get (wjob [(1, { copy := 4 })]).tier.streams 1).getD ({} : WStream)).tile]?).getD (0), ((wjob [(1, { copy := 4 })]).running 1 6 1).getD ({} : Cmd), (Tbl.get (wjob [(1, { copy := 4 })]).tier.streams 1).getD ({} : WStream), (wjob [(1, { copy := 4 })]), by decide +kernel⟩,
   ⟨1, ((((wjob [(1, { next := 1, tile := 9 })]).running 1 6 1).getD ({} : Cmd)).slot).getD (0), ((wjob [(1, { next := 1, tile := 9 })]).running 1 6 1).getD ({} : Cmd), (Tbl.get (wjob [(1, { next := 1, tile := 9 })]).tier.streams 1).getD ({} : WStream), (wjob [(1, { next := 1, tile := 9 })]), by decide +kernel⟩,
   ⟨1, ((job 1 6 2 [0, 5] wdir).running 1 6 2).getD ({} : Cmd), (job 1 6 2 [0, 5] wdir), by decide +kernel⟩,
   ⟨2, 1, (w15WeightStreams7s.running 2 6 2).getD ({} : Cmd), (Tbl.get w15WeightStreams7s.work.cmds 1).getD {}, (Tbl.get w15WeightStreams7s.tier.streams 1).getD ({} : WStream), w15WeightStreams7s, by decide +kernel⟩,
   ⟨1, (((Tbl.get w15WeightStreams8s.work.cmds 1).getD ({} : Cmd)).slot).getD (0), (Tbl.get w15WeightStreams8s.work.cmds 1).getD ({} : Cmd), (Tbl.get w15WeightStreams8s.tier.streams 1).getD ({} : WStream), w15WeightStreams8s, by decide +kernel⟩,
   ⟨1, (Tbl.get (wjob [(1, {})]).work.cmds 1).getD ({} : Cmd), (Tbl.get (wjob [(1, {})]).tier.streams 1).getD ({} : WStream), (wjob [(1, {})]), by decide +kernel⟩,
   ⟨1, (Tbl.get (wjob [(1, { readAt := 5 })]).work.cmds 1).getD ({} : Cmd), (Tbl.get (wjob [(1, { readAt := 5 })]).tier.streams 1).getD ({} : WStream), (wjob [(1, { readAt := 5 })]), by decide +kernel⟩,
   ⟨1, (((Tbl.get w15WeightStreams11s.work.cmds 1).getD ({} : Cmd)).slot).getD (0), ((w15WeightStreams11s.partTiles (w15WeightStreams11s.ctx ((((Tbl.get w15WeightStreams11s.work.cmds 1).getD ({} : Cmd)).slot).getD (0))).f ((winOps ((Tbl.get w15WeightStreams11s.work.cmds 1).getD ({} : Cmd)).op).first + ((Tbl.get w15WeightStreams11s.tier.streams 1).getD ({} : WStream)).next) (winOps ((Tbl.get w15WeightStreams11s.work.cmds 1).getD ({} : Cmd)).op).parts (winOps ((Tbl.get w15WeightStreams11s.work.cmds 1).getD ({} : Cmd)).op).part)[((Tbl.get w15WeightStreams11s.tier.streams 1).getD ({} : WStream)).tile]?).getD (0), (Tbl.get w15WeightStreams11s.work.cmds 1).getD ({} : Cmd), (Tbl.get w15WeightStreams11s.tier.streams 1).getD ({} : WStream), w15WeightStreams11s, by decide +kernel⟩,
   ⟨1, (((w15WeightStreams12s.running 1 3 3).getD ({} : Cmd)).slot).getD (0), (w15WeightStreams12s.running 1 3 3).getD ({} : Cmd), w15WeightStreams12s, by decide +kernel⟩,
   ⟨cal, 0, [], [], (ask 776 wdir), by decide +kernel⟩⟩

/-- The state of a witness below. -/
def w16RetrievalSearch0s : State := (ixd ix (job 1 4 1 [0, dAddr 0, 0, 0] own)).wr (dAddr 0) [0x80#8, 0x7F#8]
/-- The state of a witness below. -/
def w16RetrievalSearch1s : State := ixd { ix with searches := [(1, (0, 5))] } (job 1 4 1 [0, dAddr 0, dAddr 512, 0] own)
/-- The state of a witness below. -/
def w16RetrievalSearch2s : State := ixd { ix with seqs := [(1, (1, 0, []))] } (job 1 4 2 [0, dAddr 0, dAddr 512, mkWord [(43, 13, 2)]] own)
/-- The state of a witness below. -/
def w16RetrievalSearch3s : State := ixd { ix with seqs := [(1, (1, 0, []))] } (job 1 4 3 [0, dAddr 0, 0, mkWord [(43, 13, 2), (42, 1, 1)]] own)
/-- The state of a witness below. -/
def w16RetrievalSearch10s : State := { ixd { ix with releases := [(7, 3)] } own with kv := { handles := [(7, {})] } }

/-- Witnesses for the statement RetrievalSearch. -/
theorem wit_RetrievalSearch :
    (∃ (cid : Nat) (c : Cmd) (x : Index) (s : State), Up s ∧ s.running cid 4 1 = some c ∧ Tbl.get s.srch.indexes (fld c.op 4 63 56) = some x ∧ s.readFault (word c.op 2) (2 * x.dim) = none ∧ bf16s x.dim (s.rd (word c.op 2) (2 * x.dim)) = none) ∧
    (∃ (cid gen snap : Nat) (c : Cmd) (x : Index) (q : List Dy) (s : State), Up s ∧ s.running cid 4 1 = some c ∧ Tbl.get s.srch.indexes (fld c.op 4 63 56) = some x ∧ s.readFault (word c.op 2) (2 * x.dim) = none ∧ bf16s x.dim (s.rd (word c.op 2) (2 * x.dim)) = some q ∧ Tbl.get x.searches cid = some (gen, snap) ∧ snap < 2 ^ 32) ∧
    (∃ (cid seq ph n : Nat) (c : Cmd) (x : Index) (s : State), Up s ∧ s.running cid 4 2 = some c ∧ n = fld c.op 4 55 43 ∧ Tbl.get s.srch.indexes (fld c.op 4 63 56) = some x ∧ x.mirror = 0 ∧ Tbl.at x.seqs cid (0, 0, []) = (seq, ph, []) ∧ s.readFault (word c.op 2) (32 * n) = none ∧ s.readFault (word c.op 3) (2 * x.dim * n) = none ∧ (chunks (2 * x.dim) n (s.rd (word c.op 3) (2 * x.dim * n))).all (fun v => (bf16s x.dim v).isSome) = true ∧ x.seqs.all (fun e => e.1 == cid || e.2.2.2.isEmpty) = true ∧ (freeItems s x [] x.itemMax n 1).length = n ∧ x.sideCount + n ≤ x.sideMax) ∧
    (∃ (cid : Nat) (c : Cmd) (x : Index) (s : State), Up s ∧ s.running cid 4 3 = some c ∧ Tbl.get s.srch.indexes (fld c.op 4 63 56) = some x ∧ x.mirror = 0 ∧ s.readFault (word c.op 2) (4 * fld c.op 4 55 43) = none) ∧
    (∃ (idx : Nat) (x : Index) (s : State), Up s ∧ s.index idx = some x ∧ x.ahead = []) ∧
    (∃ (h : MsgHdr) (idx : Nat) (x : Index) (s : State), Up s ∧ s.index idx = some x ∧ h.src = x.mirror) ∧
    (∃ (idx : Nat) (x : Index) (s : State), Up s ∧ s.index idx = some x ∧ x.merge = none ∧ x.mergeAt ≤ x.sideCount) ∧
    (∃ (idx : Nat) (x : Index) (g : Merge) (s : State), Up s ∧ s.index idx = some x ∧ x.merge = some g ∧ g.op = none) ∧
    (∃ (idx : Nat) (r : OpRef) (x : Index) (s : State), Up s ∧ Tbl.get s.srch.indexes idx = some x ∧ x.destroyOp = some r ∧ x.searches.all (fun e => !Tbl.has s.work.cmds e.1) = true) ∧
    (∃ (idx : Nat) (o : OldBase) (os : List OldBase) (x : Index) (s : State), Up s ∧ Tbl.get s.srch.indexes idx = some x ∧ x.destroyOp = none ∧ x.olds = o :: os ∧ x.searches.all (fun e => e.2.1 != o.gen && Tbl.has s.work.cmds e.1) = true) ∧
    (∃ (idx h q : Nat) (x : Index) (p : PrefixHandle) (s : State), Up s ∧ Tbl.get s.srch.indexes idx = some x ∧ x.searches = [] ∧ x.releases = [(h, q)] ∧ Tbl.get s.kv.handles h = some p) ∧
    (∃ (cw : Nat) (ch : Nat × Nat) (s : State), Up s ∧ Tbl.get s.tier.map (cw / 4) = some ch) ∧
    (∃ (cw : Nat) (ch : Nat × Nat) (s : State), Up s ∧ Tbl.get s.tier.map (cw / 4) = some ch) ∧
    (∃ (c : Caller) (idx comp dim nlist itemMax sideMax : Nat) (wide l2 : Bool) (mirror itemBase centBase vecBase segBase segBytes : Nat) (x : Index) (s : State), AskedBox s 2561 .user c ∧ x = { owner := c.vi, composition := comp, dim := dim, nlist := nlist, itemMax := itemMax, sideMax := sideMax, wide := wide, l2 := l2, mirror := mirror, itemBase := itemBase, centBase := centBase, vecBase := vecBase, segBase := segBase, segBytes := segBytes, mergeAt := sideMax / 4 } ∧ s.hasRight c.vi 3 = true ∧ s.coversComp c.vi comp = true ∧ idx ≤ 63 ∧ Tbl.has s.srch.indexes idx = false ∧ 64 ≤ dim ∧ dim ≤ 4096 ∧ dim % 64 = 0 ∧ 16 ≤ nlist ∧ nlist ≤ 65536 ∧ 0 < itemMax ∧ itemMax ≤ 4294967295 ∧ 4096 ≤ sideMax ∧ sideMax ≤ 1048576 ∧ mirror < 4096 ∧ (mirror ≠ s.node ∨ mirror = 0) ∧ addrNode itemBase = s.node ∧ addrSpace itemBase = 1 ∧ addrNode centBase = s.node ∧ addrSpace centBase = 1 ∧ addrNode segBase = s.node ∧ addrSpace segBase = 2 ∧ addrNode vecBase = s.node ∧ (addrSpace vecBase = 1 ∨ addrSpace vecBase = 2) ∧ itemBase % 64 = 0 ∧ centBase % 64 = 0 ∧ vecBase % 64 = 0 ∧ segBase % 16384 = 0 ∧ segBytes % 16384 = 0 ∧ s.covers c.vi itemBase (32 * itemMax + x.recLen * sideMax) rIdx = true ∧ s.covers c.vi centBase ((64 + 2 * dim) * nlist + 2 * dim * x.skBits) rIdx = true ∧ s.covers c.vi vecBase (itemMax * (2 * dim + 64)) rIdx = true ∧ s.covers c.vi segBase segBytes rIdx = true ∧ s.quotaRoom 1 comp 1 x.dramBytes = true) ∧
    (∃ (c : Caller) (idx : Nat) (x : Index) (s : State), AskedBox s 2562 .user c ∧ s.index idx = some x ∧ s.coversComp c.vi x.composition = true) ∧
    (∃ (c : Caller) (idx mergeAt splitAt retireAt : Nat) (x : Index) (s : State), AskedBox s 2563 .user c ∧ s.index idx = some x ∧ s.coversComp c.vi x.composition = true ∧ 1024 ≤ mergeAt ∧ mergeAt ≤ x.sideMax ∧ 0 < splitAt ∧ splitAt ≤ 4294967295 ∧ retireAt ≤ 4294967295) ∧
    (∃ (c : Caller) (idx : Nat) (x : Index) (s : State), AskedBox s 2564 .user c ∧ s.index idx = some x ∧ s.coversComp c.vi x.composition = true ∧ x.merge = none) ∧
    (∃ (c : Caller) (idx : Nat) (x : Index) (s : State), AskedBox s 2565 .user c ∧ s.index idx = some x ∧ s.coversComp c.vi x.composition = true) :=
  ⟨⟨1, (w16RetrievalSearch0s.running 1 4 1).getD ({} : Cmd), (Tbl.get w16RetrievalSearch0s.srch.indexes (fld ((w16RetrievalSearch0s.running 1 4 1).getD ({} : Cmd)).op 4 63 56)).getD ({} : Index), w16RetrievalSearch0s, by decide +kernel⟩,
   ⟨1, 0, 5, (w16RetrievalSearch1s.running 1 4 1).getD ({} : Cmd), (Tbl.get w16RetrievalSearch1s.srch.indexes (fld ((w16RetrievalSearch1s.running 1 4 1).getD ({} : Cmd)).op 4 63 56)).getD ({} : Index), ((bf16s ((Tbl.get w16RetrievalSearch1s.srch.indexes (fld ((w16RetrievalSearch1s.running 1 4 1).getD ({} : Cmd)).op 4 63 56)).getD ({} : Index)).dim (w16RetrievalSearch1s.rd (word ((w16RetrievalSearch1s.running 1 4 1).getD ({} : Cmd)).op 2) (2 * ((Tbl.get w16RetrievalSearch1s.srch.indexes (fld ((w16RetrievalSearch1s.running 1 4 1).getD ({} : Cmd)).op 4 63 56)).getD ({} : Index)).dim))).getD []), w16RetrievalSearch1s, by decide +kernel⟩,
   ⟨1, 1, 0, (fld ((w16RetrievalSearch2s.running 1 4 2).getD ({} : Cmd)).op 4 55 43), (w16RetrievalSearch2s.running 1 4 2).getD ({} : Cmd), (Tbl.get w16RetrievalSearch2s.srch.indexes (fld ((w16RetrievalSearch2s.running 1 4 2).getD ({} : Cmd)).op 4 63 56)).getD ({} : Index), w16RetrievalSearch2s, by decide +kernel⟩,
   ⟨1, (w16RetrievalSearch3s.running 1 4 3).getD ({} : Cmd), (Tbl.get w16RetrievalSearch3s.srch.indexes (fld ((w16RetrievalSearch3s.running 1 4 3).getD ({} : Cmd)).op 4 63 56)).getD ({} : Index), w16RetrievalSearch3s, by decide +kernel⟩,
   ⟨0, ((ixd ix own).index 0).getD ({} : Index), (ixd ix own), by decide +kernel⟩,
   ⟨(mh 2 0), 0, ((ixd { ix with mirror := 2 } own).index 0).getD ({} : Index), (ixd { ix with mirror := 2 } own), by decide +kernel⟩,
   ⟨0, ((ixd { ix with sideCount := 1024 } own).index 0).getD ({} : Index), (ixd { ix with sideCount := 1024 } own), by decide +kernel⟩,
   ⟨0, ((ixd { ix with merge := some {} } own).index 0).getD ({} : Index), ((((ixd { ix with merge := some {} } own).index 0).getD ({} : Index)).merge).getD ({} : Merge), (ixd { ix with merge := some {} } own), by decide +kernel⟩,
   ⟨0, (((Tbl.get (ixd { ix with destroyOp := some {} } own).srch.indexes 0).getD ({} : Index)).destroyOp).getD ({} : OpRef), (Tbl.get (ixd { ix with destroyOp := some {} } own).srch.indexes 0).getD ({} : Index), (ixd { ix with destroyOp := some {} } own), by decide +kernel⟩,
   ⟨0, {}, [], (Tbl.get (ixd { ix with olds := [{}] } own).srch.indexes 0).getD ({} : Index), (ixd { ix with olds := [{}] } own), by decide +kernel⟩,
   ⟨0, 7, 3, (Tbl.get w16RetrievalSearch10s.srch.indexes 0).getD ({} : Index), (Tbl.get w16RetrievalSearch10s.kv.handles 7).getD ({} : PrefixHandle), w16RetrievalSearch10s, by decide +kernel⟩,
   ⟨0, (Tbl.get ({ own with tier := { map := [(0, (0, 0))] } } : State).tier.map (0 / 4)).getD ((0, 0)), { own with tier := { map := [(0, (0, 0))] } }, by decide +kernel⟩,
   ⟨3, (Tbl.get ({ own with tier := { map := [(0, (0, 0))] } } : State).tier.map (3 / 4)).getD ((0, 0)), { own with tier := { map := [(0, (0, 0))] } }, by decide +kernel⟩,
   ⟨cal, 63, 1, 64, 16, 4, 4096, false, false, 0, (dAddr 65536), (dAddr 1048576), (dAddr 4194304), (mkAddr 0 2 16384), 16384, { owner := cal.vi, composition := 1, dim := 64, nlist := 16, itemMax := 4, sideMax := 4096, wide := false, l2 := false, mirror := 0, itemBase := (dAddr 65536), centBase := (dAddr 1048576), vecBase := (dAddr 4194304), segBase := (mkAddr 0 2 16384), segBytes := 16384, mergeAt := 4096 / 4 }, (ask 2561 own), by decide +kernel⟩,
   ⟨cal, 0, ((ask 2562 (ixd ix own)).index 0).getD ({} : Index), (ask 2562 (ixd ix own)), by decide +kernel⟩,
   ⟨cal, 0, 1024, 4294967295, 0, ((ask 2563 (ixd ix own)).index 0).getD ({} : Index), (ask 2563 (ixd ix own)), by decide +kernel⟩,
   ⟨cal, 0, ((ask 2564 (ixd ix own)).index 0).getD ({} : Index), (ask 2564 (ixd ix own)), by decide +kernel⟩,
   ⟨cal, 0, ((ask 2565 (ixd ix own)).index 0).getD ({} : Index), (ask 2565 (ixd ix own)), by decide +kernel⟩⟩

/-- The state of a witness below. -/
def w17TokensAndBridges0s : State := ({ job 1 5 1 [5] held with str := { held.str with opening := [(5, ({ promptTokens := 4, bridge := 2, spec := { ringLog2 := 4, maxNew := 32 } }, dAddr 4096))] } } : State)
/-- The state of a witness below. -/
def w17TokensAndBridges3s : State := { tkr tk0 10 1 with comps := [(1, { maps := [{ cmap with protection := .ec 2 1 }], bridges := [0, 2] })] }
/-- The state of a witness below. -/
def w17TokensAndBridges9s : State := { held with str := { held.str with commits := [(1, { req := 5, awaited := [2] })] } }
/-- The state of a witness below. -/
def w17TokensAndBridges10s : State := strmd { recBase := 4096, recLog2 := 3, tail := 2048, head := dAddr 4096 } (bridged { primary := true, vi := 1, composition := 1, spec := { stream := 1, maxNew := 8 }, promptTokens := 1, limit := 64, log := [1, 2], waitAt := some 0 } held)
/-- The state of a witness below. -/
def w17TokensAndBridges12s : State := (fun s : State => ({ s with fab := { s.fab with peers := [(3, { dead := true })] } } : State)) (bridged { bridge := 3, vi := 1, standby := 0, composition := 1, log := [1] } held)
/-- The state of a witness below. -/
def w17TokensAndBridges15s : State := { held with kv := { held.kv with handles := [(7, { req := 5 })] } }
/-- The state of a witness below. -/
def w17TokensAndBridges16s : State := { held with kv := { held.kv with handles := [(7, { req := 5 })] } }

/-- Witnesses for the statement TokensAndBridges. -/
theorem wit_TokensAndBridges :
    (∃ (cid ring : Nat) (c : Cmd) (a : Admitted) (r : Req) (s : State), Up s ∧ s.running cid 5 1 = some c ∧ Tbl.get s.str.opening (fld c.op 1 47 0) = some (a, ring) ∧ s.req (fld c.op 1 47 0) = some r) ∧
    (∃ (cid : Nat) (c : Cmd) (r : Req) (s : State), Up s ∧ s.running cid 5 2 = some c ∧ Tbl.has s.str.commits cid = false ∧ s.req (fld c.op 1 47 0) = some r ∧ (s.tokRing r).st = 2) ∧
    (∃ (cid n c0 : Nat) (c : Cmd) (r : Req) (q : Stepped) (s : State), Up s ∧ s.work.nextCid ≠ cid ∧ s.running cid 5 2 = some c ∧ Tbl.has s.str.commits cid = false ∧ s.protWaiting cid = false ∧ s.req (fld c.op 1 47 0) = some r ∧ n = fld c.op 2 31 25 ∧ c0 = fld c.op 2 63 32 ∧ (s.tokRing r).st ≠ 2 ∧ r.committed ≤ c0 ∧ c0 ≤ r.limit ∧ n = (if r.promptTokens ≤ c0 then c0 + 1 - (s.tokRing r).tok else 0) ∧ (c0 < r.promptTokens ∨ (s.tokRing r).tok ≤ c0 + 1) ∧ ((chunks 4 n (s.rd (word c.op 3) (4 * n))).map valOf).contains 4294967295 = false ∧ s.readFault (word c.op 3) (4 * n) = none ∧ s.rowsThere r c0 = true ∧ (s.tokRing r).tok + n - (s.tokRing r).acked ≤ 2 ^ (s.tokRing r).log2 ∧ q = s.stepStops (s.tokRing r) r.limit ((chunks 4 n (s.rd (word c.op 3) (4 * n))).map valOf) ∧ (s.mapOf r).protection = .none ∧ s.sealFault (fld c.op 1 47 0) r (if q.stop.isSome then min c0 ((q.stop.getD (4294967295, 0, 0, 0)).1 + 1) else c0) = none) ∧
    (∃ (cid n c0 : Nat) (c : Cmd) (r : Req) (q : Stepped) (s : State), Up s ∧ s.running cid 5 2 = some c ∧ Tbl.has s.str.commits cid = false ∧ s.req (fld c.op 1 47 0) = some r ∧ n = fld c.op 2 31 25 ∧ c0 = fld c.op 2 63 32 ∧ (s.tokRing r).st ≠ 2 ∧ r.promptTokens ≤ c0 ∧ r.committed ≤ c0 ∧ c0 ≤ r.limit ∧ n = c0 + 1 - (s.tokRing r).tok ∧ (s.tokRing r).tok ≤ c0 + 1 ∧ ((chunks 4 n (s.rd (word c.op 3) (4 * n))).map valOf).contains 4294967295 = false ∧ s.readFault (word c.op 3) (4 * n) = none ∧ s.rowsThere r c0 = true ∧ (s.tokRing r).tok + n - (s.tokRing r).acked ≤ 2 ^ (s.tokRing r).log2 ∧ q = s.stepStops (s.tokRing r) r.limit ((chunks 4 n (s.rd (word c.op 3) (4 * n))).map valOf) ∧ q.kept ≠ [] ∧ (s.mapOf r).protection ≠ .none ∧ s.liveBridges (fld c.op 1 47 0) (s.tokRing r) ≠ [] ∧ s.sealFault (fld c.op 1 47 0) r (if q.stop.isSome then min c0 ((q.stop.getD (4294967295, 0, 0, 0)).1 + 1) else c0) = none) ∧
    (∃ (cid : Nat) (c : Cmd) (r : Req) (s : State), Up s ∧ s.running cid 5 3 = some c ∧ s.req (fld c.op 1 47 0) = some r) ∧
    (∃ (h : MsgHdr) (ids : List Nat) (b : BridgeReq) (s : State), Up s ∧ h.ver = 1 ∧ ids.length ≤ 65 ∧ s.bridgeReq h.req = some b ∧ b.early = none) ∧
    (∃ (h : MsgHdr) (tok seq time : Nat) (b : BridgeReq) (s : State), Up s ∧ h.ver = 1 ∧ seq < 16 ∧ ((b.marks.head?).map (·.2)).getD 0 ≤ time ∧ s.bridgeReq h.req = some b ∧ (List.range (tok - b.log.length)).any (fun i => (Tbl.get b.prov (b.log.length + i)).isNone) = true) ∧
    (∃ (h : MsgHdr) (tok seq time : Nat) (b : BridgeReq) (s : State), Up s ∧ h.ver = 1 ∧ seq < 16 ∧ ((b.marks.head?).map (·.2)).getD 0 ≤ time ∧ s.bridgeReq h.req = some b ∧ b.primary = false ∧ (List.range (tok - b.log.length)).all (fun i => (Tbl.get b.prov (b.log.length + i)).isSome) = true) ∧
    (∃ (h : MsgHdr) (r : Req) (s : State), Up s ∧ h.ver = 1 ∧ s.req h.req = some r ∧ r.holdEpoch ≤ h.epoch) ∧
    (∃ (cid bridge : Nat) (x : CommitRun) (s : State), Up s ∧ Tbl.get s.str.commits cid = some x ∧ x.awaited.contains bridge = true ∧ x.sentAt + s.fab.deadBound ≤ s.now) ∧
    (∃ (rid : Nat) (b : BridgeReq) (x : ClientStream) (s : State), Up s ∧ s.bridgeReq rid = some b ∧ b.primary = true ∧ b.ended = false ∧ b.reason = 0 ∧ b.sent < b.writable ∧ b.writable ≤ b.sent + 8 ∧ Tbl.get s.str.streams (b.vi, b.spec.stream) = some x ∧ sub64 x.written (word (s.rdWords x.head 1) 0) < 2 ^ x.recLog2 ∧ (b.waitAt.map (fun w => decide (w + x.flushNs ≤ s.now))).getD false = true ∧ s.entry rid = none) ∧
    (∃ (vi stream at_ : Nat) (x : ClientStream) (s : State), Up s ∧ Tbl.get s.str.streams (vi, stream) = some x ∧ x.blockedTold = false ∧ x.blockedAt = some at_ ∧ at_ + 100000000 ≤ s.now) ∧
    (∃ (lost rid : Nat) (b : BridgeReq) (s : State), Up s ∧ s.str.bridges = [(rid, b)] ∧ b.bridge = lost ∧ b.standby = s.node ∧ b.primary = false ∧ lost ≠ s.node ∧ s.unreachable lost = true) ∧
    (∃ (h : MsgHdr) (tok delivered cancelled reason : Nat) (e : DirEntry) (s : State), Up s ∧ h.ver = 1 ∧ s.entry h.req = some e ∧ e.here = true ∧ h.src = e.holder ∧ h.epoch = e.epoch ∧ reason < 6 ∧ (e.st = .prefill ∨ e.st = .protected_ ∨ e.st = .decoding ∨ e.st = .stopped) ∧ delivered + cancelled ≤ tok ∧ e.keep = 0 ∧ Tbl.get s.kv.attached h.req = none) ∧
    (∃ (h : MsgHdr) (tok delivered cancelled reason : Nat) (e : DirEntry) (s : State), Up s ∧ h.ver = 1 ∧ s.entry h.req = some e ∧ e.here = true ∧ h.src = e.holder ∧ h.epoch = e.epoch ∧ reason < 6 ∧ (e.st = .prefill ∨ e.st = .protected_ ∨ e.st = .decoding ∨ e.st = .stopped) ∧ delivered + cancelled ≤ tok ∧ 0 < e.keep ∧ s.bridgeReq h.req = none ∧ Tbl.get s.kv.attached h.req = none) ∧
    (∃ (handle : Nat) (x : PrefixHandle) (s : State), Up s ∧ Tbl.get s.kv.handles handle = some x ∧ x.expiry ≤ s.now) ∧
    (∃ (handle : Nat) (x : PrefixHandle) (s : State), Up s ∧ Tbl.get s.kv.handles handle = some x ∧ (x.released = true ∨ x.expiry ≤ s.now) ∧ x.users = 0) :=
  ⟨⟨1, (dAddr 4096), (w17TokensAndBridges0s.running 1 5 1).getD ({} : Cmd), { promptTokens := 4, bridge := 2, spec := { ringLog2 := 4, maxNew := 32 } }, (w17TokensAndBridges0s.req (fld ((w17TokensAndBridges0s.running 1 5 1).getD ({} : Cmd)).op 1 47 0)).getD ({} : Req), w17TokensAndBridges0s, by decide +kernel⟩,
   ⟨1, ((tkr { tk0 with st := 2 } 10 1).running 1 5 2).getD ({} : Cmd), ((tkr { tk0 with st := 2 } 10 1).req (fld (((tkr { tk0 with st := 2 } 10 1).running 1 5 2).getD ({} : Cmd)).op 1 47 0)).getD ({} : Req), (tkr { tk0 with st := 2 } 10 1), by decide +kernel⟩,
   ⟨1, (fld (((tkr tk0 10 1).running 1 5 2).getD ({} : Cmd)).op 2 31 25), (fld (((tkr tk0 10 1).running 1 5 2).getD ({} : Cmd)).op 2 63 32), ((tkr tk0 10 1).running 1 5 2).getD ({} : Cmd), ((tkr tk0 10 1).req (fld (((tkr tk0 10 1).running 1 5 2).getD ({} : Cmd)).op 1 47 0)).getD ({} : Req), (tkr tk0 10 1).stepStops ((tkr tk0 10 1).tokRing (((tkr tk0 10 1).req (fld (((tkr tk0 10 1).running 1 5 2).getD ({} : Cmd)).op 1 47 0)).getD ({} : Req))) (((tkr tk0 10 1).req (fld (((tkr tk0 10 1).running 1 5 2).getD ({} : Cmd)).op 1 47 0)).getD ({} : Req)).limit ((chunks 4 (fld (((tkr tk0 10 1).running 1 5 2).getD ({} : Cmd)).op 2 31 25) ((tkr tk0 10 1).rd (word (((tkr tk0 10 1).running 1 5 2).getD ({} : Cmd)).op 3) (4 * (fld (((tkr tk0 10 1).running 1 5 2).getD ({} : Cmd)).op 2 31 25)))).map valOf), (tkr tk0 10 1), ⟨by decide +kernel, by decide +kernel, by decide +kernel, by decide +kernel, by decide +kernel, by decide +kernel, by decide +kernel, by decide +kernel, by decide +kernel, by decide +kernel, by decide +kernel, by decide +kernel, by decide +kernel, by decide +kernel, by decide +kernel, by decide +kernel, by decide +kernel, rfl, by decide +kernel, by decide +kernel⟩⟩,
   ⟨1, (fld ((w17TokensAndBridges3s.running 1 5 2).getD ({} : Cmd)).op 2 31 25), (fld ((w17TokensAndBridges3s.running 1 5 2).getD ({} : Cmd)).op 2 63 32), (w17TokensAndBridges3s.running 1 5 2).getD ({} : Cmd), (w17TokensAndBridges3s.req (fld ((w17TokensAndBridges3s.running 1 5 2).getD ({} : Cmd)).op 1 47 0)).getD ({} : Req), (w17TokensAndBridges3s.stepStops (w17TokensAndBridges3s.tokRing ((w17TokensAndBridges3s.req (fld ((w17TokensAndBridges3s.running 1 5 2).getD ({} : Cmd)).op 1 47 0)).getD ({} : Req))) ((w17TokensAndBridges3s.req (fld ((w17TokensAndBridges3s.running 1 5 2).getD ({} : Cmd)).op 1 47 0)).getD ({} : Req)).limit ((chunks 4 (fld ((w17TokensAndBridges3s.running 1 5 2).getD ({} : Cmd)).op 2 31 25) (w17TokensAndBridges3s.rd (word ((w17TokensAndBridges3s.running 1 5 2).getD ({} : Cmd)).op 3) (4 * (fld ((w17TokensAndBridges3s.running 1 5 2).getD ({} : Cmd)).op 2 31 25)))).map valOf)), w17TokensAndBridges3s, ⟨by decide +kernel, by decide +kernel, by decide +kernel, by decide +kernel, by decide +kernel, by decide +kernel, by decide +kernel, by decide +kernel, by decide +kernel, by decide +kernel, by decide +kernel, by decide +kernel, by decide +kernel, by decide +kernel, by decide +kernel, by decide +kernel, rfl, by decide +kernel, by decide +kernel, by decide +kernel, by decide +kernel⟩⟩,
   ⟨1, ((job 1 5 3 [5] blk).running 1 5 3).getD ({} : Cmd), ((job 1 5 3 [5] blk).req (fld (((job 1 5 3 [5] blk).running 1 5 3).getD ({} : Cmd)).op 1 47 0)).getD ({} : Req), (job 1 5 3 [5] blk), by decide +kernel⟩,
   ⟨(mh 2 3), [7, 8], ((bridged { log := [1, 2] } held).bridgeReq (mh 2 3).req).getD ({} : BridgeReq), (bridged { log := [1, 2] } held), by decide +kernel⟩,
   ⟨(mh 2 3), 4, 0, 9, ((bridged { log := [1, 2], prov := [(2, 7)] } held).bridgeReq (mh 2 3).req).getD ({} : BridgeReq), (bridged { log := [1, 2], prov := [(2, 7)] } held), by decide +kernel⟩,
   ⟨(mh 2 3), 3, 0, 9, ((bridged { log := [1, 2], prov := [(2, 7)] } held).bridgeReq (mh 2 3).req).getD ({} : BridgeReq), (bridged { log := [1, 2], prov := [(2, 7)] } held), by decide +kernel⟩,
   ⟨(mh 2 3), (held.req (mh 2 3).req).getD ({} : Req), held, by decide +kernel⟩,
   ⟨1, 2, (Tbl.get w17TokensAndBridges9s.str.commits 1).getD ({} : CommitRun), w17TokensAndBridges9s, by decide +kernel⟩,
   ⟨5, (w17TokensAndBridges10s.bridgeReq 5).getD ({} : BridgeReq), (Tbl.get w17TokensAndBridges10s.str.streams (((w17TokensAndBridges10s.bridgeReq 5).getD ({} : BridgeReq)).vi, ((w17TokensAndBridges10s.bridgeReq 5).getD ({} : BridgeReq)).spec.stream)).getD ({} : ClientStream), w17TokensAndBridges10s, by decide +kernel⟩,
   ⟨1, 1, (((Tbl.get (strmd { blockedAt := some 0 } held).str.streams (1, 1)).getD ({} : ClientStream)).blockedAt).getD (0), (Tbl.get (strmd { blockedAt := some 0 } held).str.streams (1, 1)).getD ({} : ClientStream), (strmd { blockedAt := some 0 } held), by decide +kernel⟩,
   ⟨3, 5, { bridge := 3, vi := 1, standby := 0, composition := 1, log := [1] }, w17TokensAndBridges12s, by decide +kernel⟩,
   ⟨(mh 2 3), 4, 1, 0, 0, ((withEntry e5 held).entry (mh 2 3).req).getD ({} : DirEntry), (withEntry e5 held), by decide +kernel⟩,
   ⟨(mh 2 3), 4, 1, 0, 0, ((withEntry { e5 with keep := 4 } held).entry (mh 2 3).req).getD ({} : DirEntry), (withEntry { e5 with keep := 4 } held), by decide +kernel⟩,
   ⟨7, (Tbl.get w17TokensAndBridges15s.kv.handles 7).getD ({} : PrefixHandle), w17TokensAndBridges15s, by decide +kernel⟩,
   ⟨7, (Tbl.get w17TokensAndBridges16s.kv.handles 7).getD ({} : PrefixHandle), w17TokensAndBridges16s, by decide +kernel⟩⟩

/-- The state of a witness below. -/
def w18ProtectionAndRegrow0s : State := { blk with prot := { blk.prot with copies := [((5, 0, 0, 0), da0)] } }
/-- The state of a witness below. -/
def w18ProtectionAndRegrow1s : State := { blk with prot := { blk.prot with copies := [((5, 0, 0, 0), da0)] } }
/-- The state of a witness below. -/
def w18ProtectionAndRegrow2s : State := writ { req := 5, composition := 1, kind := 1, awaited := [2, 4], fields := [0, 0, 0, 0, 3, 8, 9] } held
/-- The state of a witness below. -/
def w18ProtectionAndRegrow3s : State := writ { req := 5, composition := 1, kind := 1, awaited := [2, 4], fields := [0, 0, 0, 0, 3, 8, 9] } held
/-- The state of a witness below. -/
def w18ProtectionAndRegrow4s : State := { protC held with work := { held.work with ctxs := [(0, { st := .ready, f := { ctxF with kvHeads := 2 } })] } }
/-- The state of a witness below. -/
def w18ProtectionAndRegrow7s : State := writ { req := 5, composition := 1, kind := 3, awaited := [2, 4], fields := [3, 0] } held
/-- The state of a witness below. -/
def w18ProtectionAndRegrow9s : State := { protC held with kv := { held.kv with arenas := [ar] }, prot := { held.prot with needs := [(5, 3, 1, 0)], faults := [{ kind := 1, unit := 4, composition := 1 }] } }
/-- The state of a witness below. -/
def w18ProtectionAndRegrow10s : State := { protC blk with prot := { blk.prot with regrows := [{ req := 5, stripe := 3, desc := da0 }], faults := [{ kind := 1, unit := 4, composition := 1 }] } }
/-- The state of a witness below. -/
def w18ProtectionAndRegrow12s : State := writ { req := 5, composition := 1, kind := 1, awaited := [2, 4] } held
/-- The state of a witness below. -/
def w18ProtectionAndRegrow13s : State := { protC held with prot := { held.prot with probes := [((1, 2), 0)] } }
/-- The state of a witness below. -/
def w18ProtectionAndRegrow15s : State := { protC held with prot := { held.prot with faults := [{ kind := 2, unit := 6, composition := 1 }] } }
/-- The state of a witness below. -/
def w18ProtectionAndRegrow16s : State := (slotted (job 1 3 4 [0, dAddr 4096, dAddr 8192, dAddr 12288, mkWord [(53, 11, 2), (48, 5, 2)], dAddr 16384] own)).wrWords (dAddr 4096) [dAddr 20480]
/-- The state of a witness below. -/
def w18ProtectionAndRegrow17s : State := slotted (job 1 3 5 [0, dAddr 4096, mkWord [(32, 32, 100), (29, 1, 1)], dAddr 8192] own)
/-- The state of a witness below. -/
def w18ProtectionAndRegrow18s : State := slotted (job 1 3 5 [0, dAddr 4096, mkWord [(32, 32, 100), (30, 2, 1)], 0, dAddr 8192] own)

/-- Witnesses for the statement ProtectionAndRegrow. -/
theorem wit_ProtectionAndRegrow :
    (∃ (h : MsgHdr) (l hd b first n repr da : Nat) (s : State), Up s ∧ h.ver = 1 ∧ 0 < n ∧ first + n ≤ 64 ∧ repr ≤ 2 ∧ Tbl.get s.prot.copies (h.req, l, hd, b) = some da ∧ first ≠ (s.desc da).committed) ∧
    (∃ (h : MsgHdr) (l hd b n repr da : Nat) (d : Desc) (s : State), Up s ∧ h.ver = 1 ∧ 0 < n ∧ d = s.desc da ∧ d.committed + n ≤ 64 ∧ repr ≤ 2 ∧ Tbl.get s.prot.copies (h.req, l, hd, b) = some da ∧ d.epoch ≤ h.epoch) ∧
    (∃ (h : MsgHdr) (l hd b count cA cB id y : Nat) (ys : List Nat) (w : ProtWrite) (s : State), Up s ∧ h.ver = 1 ∧ s.prot.writes = [(id, w)] ∧ (w.kind = 1 ∨ w.kind = 4) ∧ w.req = h.req ∧ w.fields.take 3 = [l, hd, b] ∧ w.awaited.contains h.src = true ∧ w.awaited.filter (fun x => x ≠ h.src) = y :: ys ∧ count = word w.fields 4 ∧ cA = word w.fields 5 ∧ cB = word w.fields 6) ∧
    (∃ (h : MsgHdr) (l hd b count id : Nat) (w : ProtWrite) (r : Req) (s : State), Up s ∧ h.ver = 1 ∧ s.prot.writes = [(id, w)] ∧ (w.kind = 1 ∨ w.kind = 4) ∧ w.req = h.req ∧ w.fields.take 3 = [l, hd, b] ∧ w.awaited.contains h.src = true ∧ count < word w.fields 4 ∧ s.req h.req = some r) ∧
    (∃ (h : MsgHdr) (stripe index comp ctx k m : Nat) (s : State), Up s ∧ h.ver = 1 ∧ (s.compMap comp h.mapEpoch).protection = .ec k m ∧ s.ctxFor comp = some ctx ∧ 0 < stripe ∧ s.servedAt (s.compMap comp h.mapEpoch) comp h.req (stripe - 1) k = some s.node ∧ (shardsIn (s.ctx ctx).f k (stripe - 1)).all (fun j => decide (j = index) || (Tbl.at s.prot.sealings (h.req, stripe) {}).reported.contains j) = false) ∧
    (∃ (h : MsgHdr) (stripe da : Nat) (side : List Nat) (s : State), Up s ∧ h.ver = 1 ∧ Tbl.get s.prot.shards (h.req, stripe) = some da ∧ ((s.arenaOf da).map (·.parity)).getD false = true ∧ side.length ≠ 8) ∧
    (∃ (h : MsgHdr) (stripe da : Nat) (side : List Nat) (p : PDesc) (s : State), Up s ∧ h.ver = 1 ∧ Tbl.get s.prot.shards (h.req, stripe) = some da ∧ ((s.arenaOf da).map (·.parity)).getD false = true ∧ side.length = 8 ∧ p = s.pdesc da) ∧
    (∃ (h : MsgHdr) (stripe id y : Nat) (ys : List Nat) (w : ProtWrite) (s : State), Up s ∧ h.ver = 1 ∧ s.prot.writes = [(id, w)] ∧ w.kind = 3 ∧ w.req = h.req ∧ word w.fields 0 = stripe ∧ w.awaited.contains h.src = true ∧ w.awaited.filter (fun x => x ≠ h.src) = y :: ys) ∧
    (∃ (h : MsgHdr) (stripe position comp : Nat) (s : State), Up s ∧ h.ver = 1 ∧ 0 < stripe ∧ s.servedAt (s.compMap comp h.mapEpoch) comp h.req (stripe - 1) position = some s.node ∧ Tbl.has s.prot.shards (h.req, stripe) = false ∧ s.prot.needs.any (fun n => n.1 == h.req && n.2.1 == stripe) = false ∧ s.prot.regrows.any (fun g => g.req == h.req && g.stripe == stripe) = false) ∧
    (∃ (rid stripe position fault comp ctx da k : Nat) (x : FaultRec) (s : State), Up s ∧ s.prot.shards = [] ∧ s.prot.regrowAt ≤ s.now ∧ s.prot.needs = [(rid, stripe, position, fault)] ∧ s.prot.faults[fault]? = some x ∧ comp = x.composition ∧ s.ctxFor comp = some ctx ∧ k = (protShape (s.compMap comp (s.comp comp).cur.epoch).protection).1 ∧ position < k ∧ s.mcRanks.findSome? (fun die => s.freeSlot 1 die (s.ctx ctx).f.headDim) = some da ∧ (Tbl.at s.tier.policies comp {}).regrowRate ≠ 0) ∧
    (∃ (req stripe position comp : Nat) (g : Regrow) (s : State), Up s ∧ s.prot.regrows = [g] ∧ g.req = req ∧ g.stripe = stripe ∧ g.position = position ∧ comp = ((s.prot.faults[g.fault]?).map (·.composition)).getD 0) ∧
    (∃ (h : MsgHdr) (comp member : Nat) (s : State), Up s ∧ h.ver = 1 ∧ s.calibNode comp = s.node ∧ Tbl.has s.prot.probes (comp, member) = false ∧ (s.comp comp).cur.cache.contains member = true) ∧
    (∃ (id : Nat) (w : ProtWrite) (s : State), Up s ∧ Tbl.get s.prot.writes id = some w ∧ w.reported = false ∧ w.sentAt + s.straggleLimit w.composition ≤ s.now) ∧
    (∃ (comp member at_ : Nat) (m : CompMap) (s : State), Up s ∧ Tbl.get s.prot.probes (comp, member) = some at_ ∧ at_ + s.straggleLimit comp ≤ s.now ∧ (s.comp comp).maps = [m] ∧ m.cache.contains member = true ∧ (Tbl.at s.prot.down (comp, m.epoch) []).contains member = false) ∧
    (∃ (h : MsgHdr) (comp : Nat) (s : State), Up s ∧ h.ver = 1 ∧ h.src = s.calibNode comp) ∧
    (∃ (unit comp : Nat) (f : FaultRec) (s : State), Up s ∧ s.prot.faults = [f] ∧ f.kind = 2 ∧ f.unit = unit ∧ f.composition = comp ∧ s.prot.needs = [] ∧ s.prot.regrows = [] ∧ s.lostShards.any (fun x => dieMC (bits x.2 45 43) == unit) = false) ∧
    (∃ (cid len k : Nat) (src : List Nat) (ds : List (Nat × List Byte)) (c : Cmd) (s : State), Up s ∧ s.running cid 3 4 = some c ∧ len = 64 * fld c.op 5 63 53 ∧ k = fld c.op 5 52 48 ∧ fld c.op 5 45 44 = 0 ∧ src = s.rdWords (word c.op 2) 18 ∧ (List.range k).all (fun i => decide (word src i = 0) || (decide (addrNode (word src i) = s.node) && (s.readFault (word src i) len).isNone)) = true ∧ word c.op 4 ≠ 0 ∧ ds = (List.range k).map (fun i => (i, if word src i = 0 then List.replicate len 0#8 else s.rd (word src i) len))) ∧
    (∃ (cid n : Nat) (c : Cmd) (s : State), Up s ∧ s.running cid 3 5 = some c ∧ n = fld c.op 3 63 32 ∧ fld c.op 3 31 30 ≠ 1 ∧ s.readFault (word c.op 2) n = none ∧ (fld c.op 3 29 29 = 0 ∨ s.readFault (word c.op 4) 8 = none)) ∧
    (∃ (cid n : Nat) (c : Cmd) (s : State), Up s ∧ s.running cid 3 5 = some c ∧ n = fld c.op 3 63 32 ∧ fld c.op 3 31 30 = 1 ∧ s.readFault (word c.op 2) n = none ∧ fld c.op 3 29 29 = 0) :=
  ⟨⟨(mh 2 3), 0, 0, 0, 3, 1, 0, da0, w18ProtectionAndRegrow0s, by decide +kernel⟩,
   ⟨(mh 2 3), 0, 0, 0, 1, 0, da0, (w18ProtectionAndRegrow1s.desc da0), w18ProtectionAndRegrow1s, by decide +kernel⟩,
   ⟨(mh 2 3), 0, 0, 0, (word ({ req := 5, composition := 1, kind := 1, awaited := [2, 4], fields := [0, 0, 0, 0, 3, 8, 9] } : ProtWrite).fields 4), (word ({ req := 5, composition := 1, kind := 1, awaited := [2, 4], fields := [0, 0, 0, 0, 3, 8, 9] } : ProtWrite).fields 5), (word ({ req := 5, composition := 1, kind := 1, awaited := [2, 4], fields := [0, 0, 0, 0, 3, 8, 9] } : ProtWrite).fields 6), 1, 4, [], { req := 5, composition := 1, kind := 1, awaited := [2, 4], fields := [0, 0, 0, 0, 3, 8, 9] }, w18ProtectionAndRegrow2s, by decide +kernel⟩,
   ⟨(mh 2 3), 0, 0, 0, 1, 1, { req := 5, composition := 1, kind := 1, awaited := [2, 4], fields := [0, 0, 0, 0, 3, 8, 9] }, (w18ProtectionAndRegrow3s.req (mh 2 3).req).getD ({} : Req), w18ProtectionAndRegrow3s, by decide +kernel⟩,
   ⟨(mh 2 3), 3, 0, 1, (w18ProtectionAndRegrow4s.ctxFor 1).getD (0), 2, 1, w18ProtectionAndRegrow4s, by decide +kernel⟩,
   ⟨(mh 2 3), 3, (Tbl.get parS.prot.shards ((mh 2 3).req, 3)).getD (0), [1], parS, by decide +kernel⟩,
   ⟨(mh 2 3), 3, (Tbl.get parS.prot.shards ((mh 2 3).req, 3)).getD (0), d0.words, (parS.pdesc ((Tbl.get parS.prot.shards ((mh 2 3).req, 3)).getD (0))), parS, by decide +kernel⟩,
   ⟨(mh 2 3), 3, 1, 4, [], { req := 5, composition := 1, kind := 3, awaited := [2, 4], fields := [3, 0] }, w18ProtectionAndRegrow7s, by decide +kernel⟩,
   ⟨(mh 2 3), 3, 2, 1, (protC held), by decide +kernel⟩,
   ⟨5, 3, 1, 0, ((w18ProtectionAndRegrow9s.prot.faults[0]?).getD ({} : FaultRec)).composition, (w18ProtectionAndRegrow9s.ctxFor (((w18ProtectionAndRegrow9s.prot.faults[0]?).getD ({} : FaultRec)).composition)).getD (0), da0, (protShape (w18ProtectionAndRegrow9s.compMap (((w18ProtectionAndRegrow9s.prot.faults[0]?).getD ({} : FaultRec)).composition) (w18ProtectionAndRegrow9s.comp (((w18ProtectionAndRegrow9s.prot.faults[0]?).getD ({} : FaultRec)).composition)).cur.epoch).protection).1, (w18ProtectionAndRegrow9s.prot.faults[0]?).getD ({} : FaultRec), w18ProtectionAndRegrow9s, by decide +kernel⟩,
   ⟨5, 3, 0, ((w18ProtectionAndRegrow10s.prot.faults[({ req := 5, stripe := 3, desc := da0 } : Regrow).fault]?).map (·.composition)).getD 0, { req := 5, stripe := 3, desc := da0 }, w18ProtectionAndRegrow10s, by decide +kernel⟩,
   ⟨(mh 2 3), 1, 2, (protC held), by decide +kernel⟩,
   ⟨1, (Tbl.get w18ProtectionAndRegrow12s.prot.writes 1).getD ({} : ProtWrite), w18ProtectionAndRegrow12s, by decide +kernel⟩,
   ⟨1, 2, (Tbl.get w18ProtectionAndRegrow13s.prot.probes (1, 2)).getD (0), { cmap with protection := .ec 2 1 }, w18ProtectionAndRegrow13s, by decide +kernel⟩,
   ⟨(mh 0 3), 1, (protC held), by decide +kernel⟩,
   ⟨6, 1, { kind := 2, unit := 6, composition := 1 }, w18ProtectionAndRegrow15s, by decide +kernel⟩,
   ⟨1, (64 * fld ((w18ProtectionAndRegrow16s.running 1 3 4).getD ({} : Cmd)).op 5 63 53), (fld ((w18ProtectionAndRegrow16s.running 1 3 4).getD ({} : Cmd)).op 5 52 48), (w18ProtectionAndRegrow16s.rdWords (word ((w18ProtectionAndRegrow16s.running 1 3 4).getD ({} : Cmd)).op 2) 18), (List.range (fld ((w18ProtectionAndRegrow16s.running 1 3 4).getD ({} : Cmd)).op 5 52 48)).map (fun i => (i, if word (w18ProtectionAndRegrow16s.rdWords (word ((w18ProtectionAndRegrow16s.running 1 3 4).getD ({} : Cmd)).op 2) 18) i = 0 then List.replicate (64 * fld ((w18ProtectionAndRegrow16s.running 1 3 4).getD ({} : Cmd)).op 5 63 53) 0#8 else w18ProtectionAndRegrow16s.rd (word (w18ProtectionAndRegrow16s.rdWords (word ((w18ProtectionAndRegrow16s.running 1 3 4).getD ({} : Cmd)).op 2) 18) i) (64 * fld ((w18ProtectionAndRegrow16s.running 1 3 4).getD ({} : Cmd)).op 5 63 53))), (w18ProtectionAndRegrow16s.running 1 3 4).getD ({} : Cmd), w18ProtectionAndRegrow16s, by decide +kernel⟩,
   ⟨1, (fld ((w18ProtectionAndRegrow17s.running 1 3 5).getD ({} : Cmd)).op 3 63 32), (w18ProtectionAndRegrow17s.running 1 3 5).getD ({} : Cmd), w18ProtectionAndRegrow17s, by decide +kernel⟩,
   ⟨1, (fld ((w18ProtectionAndRegrow18s.running 1 3 5).getD ({} : Cmd)).op 3 63 32), (w18ProtectionAndRegrow18s.running 1 3 5).getD ({} : Cmd), w18ProtectionAndRegrow18s, by decide +kernel⟩⟩

/-- The state of a witness below. -/
def w19TrafficShaping2s : State := pol { b := { rate := 1, held := 0, minted := 0, at_ := 1000000000000 } } 127
/-- The state of a witness below. -/
def w19TrafficShaping3s : State := pol { b := { rate := 1, held := 0, minted := 0, at_ := 1000000000000 }, kept := [pk1] } 127
/-- The state of a witness below. -/
def w19TrafficShaping6s : State := shp { b := { rate := 1, held := 0, minted := 0, at_ := 1000000000000 }, parked := [pk1] }
/-- The state of a witness below. -/
def w19TrafficShaping8s : State := gat { oper := { entries := [(15, 2500000), (240, 2500000)] } } true base
/-- The state of a witness below. -/
def w19TrafficShaping9s : State := gat { pending := some ({ entries := [(15, 2500000), (240, 2500000)] }, 5) } true base
/-- The state of a witness below. -/
def w19TrafficShaping10s : State := gat { pending := some ({ cycles := 3, entries := [(15, 2500000), (240, 2500000)] }, 5) } true base

/-- Witnesses for the statement TrafficShaping. -/
theorem wit_TrafficShaping :
    (∃ (port partner : Nat) (pkt : Packet) (s : State), Up s ∧ s.policedBy port pkt = some partner ∧ pkt.resp = false ∧ (s.port port).arrived.contains pkt = true ∧ (pkt.tc = 7 ∨ bit (Tbl.at s.tra.permitted (port, partner) 127) pkt.tc = false)) ∧
    (∃ (port partner : Nat) (pkt : Packet) (x : Policer) (b : Bucket) (s : State), Up s ∧ s.policedBy port pkt = some partner ∧ pkt.resp = false ∧ (s.port port).arrived.contains pkt = true ∧ pkt.tc ≠ 7 ∧ bit (Tbl.at s.tra.permitted (port, partner) 127) pkt.tc = true ∧ x = s.policer port partner pkt.tc ∧ x.kept = [] ∧ x.b.rate ≠ 0 ∧ b = x.b.accrue s.now ∧ tokensOf pkt ≤ b.held) ∧
    (∃ (port partner : Nat) (pkt : Packet) (x : Policer) (s : State), Up s ∧ s.policedBy port pkt = some partner ∧ pkt.resp = false ∧ (s.port port).arrived.contains pkt = true ∧ pkt.tc ≠ 7 ∧ bit (Tbl.at s.tra.permitted (port, partner) 127) pkt.tc = true ∧ x = s.policer port partner pkt.tc ∧ x.kept.contains pkt = false ∧ x.b.rate ≠ 0 ∧ (x.kept ≠ [] ∨ (x.b.accrue s.now).held < tokensOf pkt)) ∧
    (∃ (port partner tc : Nat) (p : Packet) (ps : List Packet) (x : Policer) (b : Bucket) (s : State), Up s ∧ x = s.policer port partner tc ∧ x.kept = p :: ps ∧ b = x.b.accrue s.now ∧ b.rate ≠ 0 ∧ b.held < tokensOf p) ∧
    (∃ (port partner tc : Nat) (p : Packet) (x : Policer) (b : Bucket) (s : State), Up s ∧ x = s.policer port partner tc ∧ x.kept = [p] ∧ b = x.b.accrue s.now ∧ b.rate ≠ 0 ∧ tokensOf p ≤ b.held) ∧
    (∃ (vi tc : Nat) (p : Packet) (x : Shaper) (b : Bucket) (s : State), Up s ∧ s.now % 128 = 0 ∧ s.tra.shapers = [((vi, tc), x)] ∧ x.parked = [p] ∧ x.slotAt ≤ s.now ∧ b = x.b.accrue s.now ∧ b.rate ≠ 0 ∧ tokensOf p ≤ b.held) ∧
    (∃ (vi tc : Nat) (p : Packet) (ps : List Packet) (x : Shaper) (b : Bucket) (s : State), Up s ∧ s.now % 128 = 0 ∧ s.tra.shapers = [((vi, tc), x)] ∧ x.parked = p :: ps ∧ x.slotAt ≤ s.now ∧ b = x.b.accrue s.now ∧ b.rate ≠ 0 ∧ b.held < tokensOf p) ∧
    (∃ (s : State), Up s ∧ s.now % 128 ≠ 0) ∧
    (∃ (port : Nat) (s : State), Up s ∧ s.portExists port = true) ∧
    (∃ (port at_ : Nat) (l : GateList) (s : State), Up s ∧ (s.gates port).pending = some (l, at_) ∧ at_ ≤ s.now ∧ s.timeLocked = true ∧ l.cycles = 0) ∧
    (∃ (port at_ : Nat) (l back : GateList) (s : State), Up s ∧ (s.gates port).pending = some (l, at_) ∧ at_ ≤ s.now ∧ s.timeLocked = true ∧ l.cycles ≠ 0 ∧ back = (((s.gates port).testEnd).map (·.2)).getD (s.gates port).oper) ∧
    (∃ (port at_ : Nat) (l : GateList) (s : State), Up s ∧ (s.gates port).pending = some (l, at_) ∧ at_ ≤ s.now ∧ s.timeLocked = false) ∧
    (∃ (port at_ : Nat) (l : GateList) (s : State), Up s ∧ (s.gates port).pending = some (l, at_) ∧ s.now < at_) ∧
    (∃ (port at_ : Nat) (l : GateList) (s : State), Up s ∧ (s.gates port).testEnd = some (at_, l) ∧ at_ ≤ s.now) ∧
    (∃ (port : Nat) (s : State), Up s ∧ s.portExists port = true ∧ s.timeLocked = false ∧ (s.gates port).inFallback = false ∧ (s.gates port).fallbackAfter ≠ 0 ∧ s.time.unlockedAt + (s.gates port).fallbackAfter ≤ s.now) ∧
    (∃ (port : Nat) (s : State), Up s ∧ (s.timeLocked = true ∨ s.now < s.time.unlockedAt + (s.gates port).fallbackAfter)) ∧
    (∃ (vi : Nat) (x : Telemetry) (s : State), Up s ∧ Tbl.get s.tra.telemetry vi = some x ∧ x.next ≤ s.now) ∧
    (∃ (vi : Nat) (x : Telemetry) (k : Nat × Nat × Nat) (s : State), Up s ∧ s.tra.telemetry = [(vi, x)] ∧ x.next ≤ s.now ∧ x.queues = [k] ∧ k.1 = 2 ∧ s.covers vi (x.base + x.seq % 2 ^ x.log2 * 64) 64 rWr = true) ∧
    (∃ (c : Caller) (classes : List Nat) (s : State), AskedBox s 2049 .oper c ∧ classes.length = 4 ∧ classes.all (fun n => decide (n ≤ 6)) = true) ∧
    (∃ (c : Caller) (classes : List Nat) (s : State), AskedBox s 2049 .oper c ∧ (classes.length ≠ 4 ∨ classes.any (fun n => decide (6 < n)) = true)) ∧
    (∃ (c : Caller) (port obj n at_ : Nat) (h es : List Nat) (s : State), AskedBox s 2050 .user c ∧ s.hasRight c.vi 1 = true ∧ s.covers c.vi obj 64 rRd = true ∧ h = s.rdWords obj 8 ∧ n = fld h 0 31 23 ∧ s.portExists port = true ∧ 0 < n ∧ n ≤ 256 ∧ addrNode obj = s.node ∧ s.covers c.vi obj (64 + 8 * n) rRd = true ∧ es = s.rdWords (obj + 64) n ∧ at_ = cycleStart (fld h 0 63 32) (max (word h 1) (s.now + 100000))) ∧
    (∃ (c : Caller) (port guard after : Nat) (s : State), AskedBox s 2051 .oper c ∧ s.portExists port = true ∧ guard ≤ 100000 ∧ (after = 0 ∨ (1000000 ≤ after ∧ after ≤ 60000000000))) ∧
    (∃ (c : Caller) (vi tc rate burst : Nat) (s : State), AskedBox s 2052 .userOper c ∧ (s.isOperator c = true ∨ vi = c.vi) ∧ vi ≤ 255 ∧ tc ≤ 7 ∧ 0 < rate ∧ rate ≤ 200000 ∧ burstOk rate burst = true) ∧
    (∃ (c : Caller) (port partner tc rate burst classes : Nat) (s : State), AskedBox s 2053 .oper c ∧ s.portExists port = true ∧ tc ≤ 6 ∧ classes ≤ 127 ∧ rate ≤ 200000 ∧ burstOk rate burst = true ∧ partner = 255 ∧ (s.policer port partner tc).kept = []) ∧
    (∃ (c : Caller) (base log2 period port cls : Nat) (s : State), AskedBox s 2054 .user c ∧ 6 ≤ log2 ∧ log2 ≤ 20 ∧ base % 64 = 0 ∧ 1000 ≤ period ∧ period ≤ 1000000 ∧ s.portExists port = true ∧ cls < 8 ∧ s.covers c.vi base (2 ^ log2 * 64) rWr = true) :=
  ⟨⟨0, 255, pk1, (pol {} 119), by decide +kernel⟩,
   ⟨0, 255, pk1, (pol { b := { rate := 1000 } } 127).policer 0 255 pk1.tc, ((pol { b := { rate := 1000 } } 127).policer 0 255 pk1.tc).b.accrue (pol { b := { rate := 1000 } } 127).now, (pol { b := { rate := 1000 } } 127), by decide +kernel⟩,
   ⟨0, 255, pk1, (w19TrafficShaping2s.policer 0 255 pk1.tc), w19TrafficShaping2s, by decide +kernel⟩,
   ⟨0, 255, 3, pk1, [], (w19TrafficShaping3s.policer 0 255 3), (w19TrafficShaping3s.policer 0 255 3).b.accrue w19TrafficShaping3s.now, w19TrafficShaping3s, by decide +kernel⟩,
   ⟨0, 255, 3, pk1, (pol { b := { rate := 1000 }, kept := [pk1] } 127).policer 0 255 3, ((pol { b := { rate := 1000 }, kept := [pk1] } 127).policer 0 255 3).b.accrue (pol { b := { rate := 1000 }, kept := [pk1] } 127).now, (pol { b := { rate := 1000 }, kept := [pk1] } 127), by decide +kernel⟩,
   ⟨1, 3, pk1, { b := { rate := 1000 }, parked := [pk1] }, ({ b := { rate := 1000 }, parked := [pk1] } : Shaper).b.accrue (shp { b := { rate := 1000 }, parked := [pk1] }).now, (shp { b := { rate := 1000 }, parked := [pk1] }), by decide +kernel⟩,
   ⟨1, 3, pk1, [], { b := { rate := 1, held := 0, minted := 0, at_ := 1000000000000 }, parked := [pk1] }, ({ b := { rate := 1, held := 0, minted := 0, at_ := 1000000000000 }, parked := [pk1] } : Shaper).b.accrue w19TrafficShaping6s.now, w19TrafficShaping6s, by decide +kernel⟩,
   ⟨{ base with now := 1 }, by decide +kernel⟩,
   ⟨0, w19TrafficShaping8s, by decide +kernel⟩,
   ⟨0, 5, { entries := [(15, 2500000), (240, 2500000)] }, w19TrafficShaping9s, by decide +kernel⟩,
   ⟨0, 5, { cycles := 3, entries := [(15, 2500000), (240, 2500000)] }, (((w19TrafficShaping10s.gates 0).testEnd).map (·.2)).getD (w19TrafficShaping10s.gates 0).oper, w19TrafficShaping10s, by decide +kernel⟩,
   ⟨0, 5, {}, (gat { pending := some ({}, 5) } false base), by decide +kernel⟩,
   ⟨0, 1000000000001, {}, (gat { pending := some ({}, 1000000000001) } false base), by decide +kernel⟩,
   ⟨0, 5, {}, (gat { testEnd := some (5, {}) } false base), by decide +kernel⟩,
   ⟨0, (gat {} false base), by decide +kernel⟩,
   ⟨0, (gat {} true base), by decide +kernel⟩,
   ⟨1, (Tbl.get (tel { base := dAddr 4096, log2 := 6, queues := [(2, 1, 3)] }).tra.telemetry 1).getD ({} : Telemetry), (tel { base := dAddr 4096, log2 := 6, queues := [(2, 1, 3)] }), by decide +kernel⟩,
   ⟨1, { base := dAddr 4096, log2 := 6, queues := [(2, 1, 3)] }, (2, 1, 3), (tel { base := dAddr 4096, log2 := 6, queues := [(2, 1, 3)] }), by decide +kernel⟩,
   ⟨cal, [6, 5, 4, 0], (askO 2049 own), by decide +kernel⟩,
   ⟨cal, [6, 5, 4, 7], (askO 2049 own), by decide +kernel⟩,
   ⟨cal, 0, (dAddr 4096), (fld (((ask 2050 own).wrWords (dAddr 4096) gl).rdWords (dAddr 4096) 8) 0 31 23), (cycleStart (fld (((ask 2050 own).wrWords (dAddr 4096) gl).rdWords (dAddr 4096) 8) 0 63 32) (max (word (((ask 2050 own).wrWords (dAddr 4096) gl).rdWords (dAddr 4096) 8) 1) (((ask 2050 own).wrWords (dAddr 4096) gl).now + 100000))), ((ask 2050 own).wrWords (dAddr 4096) gl).rdWords (dAddr 4096) 8, ((ask 2050 own).wrWords (dAddr 4096) gl).rdWords ((dAddr 4096) + 64) (fld (((ask 2050 own).wrWords (dAddr 4096) gl).rdWords (dAddr 4096) 8) 0 31 23), (ask 2050 own).wrWords (dAddr 4096) gl, by decide +kernel⟩,
   ⟨cal, 0, 2000, 1000000, (askO 2051 own), by decide +kernel⟩,
   ⟨cal, 2, 3, 1000, 65536, (askO 2052 own), by decide +kernel⟩,
   ⟨cal, 0, 255, 3, 1000, 65536, 3, (askO 2053 own), by decide +kernel⟩,
   ⟨cal, (dAddr 4096), 6, 1000, 0, 3, (ask 2054 own), by decide +kernel⟩⟩

/-- The state of a witness below. -/
def w20MemoryTiers3s : State := migS { dM with crcA := dM.crcA + 1 } { req := 9, dst := fl.descBase }
/-- The state of a witness below. -/
def w20MemoryTiers4s : State := (fun s : State => { s with tier := { s.tier with badLines := [ar.base / 64] } }) (migS dM { req := 9, dst := fl.descBase })
/-- The state of a witness below. -/
def w20MemoryTiers12s : State := (fun s : State => { s with tier := { s.tier with lineSpares := [(3, 0)] } }) (errs 0)
/-- The state of a witness below. -/
def w20MemoryTiers13s : State := { base with boot := { base.boot with hardRepairs := [(3, 7)] } }
/-- The state of a witness below. -/
def w20MemoryTiers14s : State := { base with tier := { base.tier with rewrite := [(5, 1)], map := [(5, (0, 1)), (6, (0, 1))] } }
/-- The state of a witness below. -/
def w20MemoryTiers15s : State := { base with tier := { base.tier with chans := [(0, { erases := 4 })], map := [(5, (0, 1)), (6, (0, 1))] } }
/-- The state of a witness below. -/
def w20MemoryTiers16s : State := { base with tier := { base.tier with chans := [(0, { blocks := 1000, spare := 3 })], map := [(5, (0, 1)), (6, (0, 1))] } }

/-- Witnesses for the statement MemoryTiers. -/
theorem wit_MemoryTiers :
    (∃ (comp : Nat) (s : State), Up s ∧ s.dramPercent comp ≤ (s.tierPolicy comp).dramHigh ∧ (comp ∉ s.tier.demoting ∨ s.dramPercent comp ≤ (s.tierPolicy comp).dramLow)) ∧
    (∃ (comp da : Nat) (p : TierPolicy) (s : State), Up s ∧ p = s.tierPolicy comp ∧ p.dramHigh < s.dramPercent comp ∧ p.demoteRate ≠ 0 ∧ s.tier.demotedAt ≤ s.now ∧ minBy? (fun x => Tbl.at s.tier.lastRead x 0) ((s.tier.owners.filter (fun o => o.2.2 == comp && s.demotable comp o.1)).map (·.1)) = some da) ∧
    (∃ (da : Nat) (m : Migration) (s : State), Up s ∧ Tbl.get s.tier.migrations da = some m ∧ s.readFault (s.desc da).slot (inUse (s.desc da).repr (dimOf (s.desc da).dim)) = none ∧ s.badPlane (s.desc da) = none) ∧
    (∃ (da plane : Nat) (m : Migration) (s : State), Up s ∧ Tbl.get s.tier.migrations da = some m ∧ s.readFault (s.desc da).slot (inUse (s.desc da).repr (dimOf (s.desc da).dim)) = none ∧ s.badPlane (s.desc da) = some plane) ∧
    (∃ (da : Nat) (m : Migration) (s : State), Up s ∧ Tbl.get s.tier.migrations da = some m ∧ s.readFault (s.desc da).slot (inUse (s.desc da).repr (dimOf (s.desc da).dim)) ≠ none) ∧
    (∃ (da : Nat) (m : Migration) (s : State), Up s ∧ Tbl.get s.tier.migrations da = some m ∧ m.promotion = true ∧ m.startAt + (s.tierPolicy (((Tbl.get s.tier.owners da).map (·.2)).getD 0)).deadline ≤ s.now ∧ s.req m.req = none) ∧
    (∃ (da : Nat) (m : Migration) (s : State), Up s ∧ Tbl.get s.tier.migrations da = some m ∧ (m.promotion = false ∨ s.now < m.startAt + (s.tierPolicy (((Tbl.get s.tier.owners da).map (·.2)).getD 0)).deadline)) ∧
    (∃ (line : Nat) (s : State), Up s ∧ addrSpace (64 * line) = 1 ∧ addrNode (64 * line) = s.node ∧ s.offsetDefined (64 * line) = true ∧ s.channelUp (rowOf (64 * line)).1 = true) ∧
    (∃ (line ch n : Nat) (s : State), Up s ∧ addrSpace (64 * line) = 1 ∧ addrNode (64 * line) = s.node ∧ s.offsetDefined (64 * line) = true ∧ ch = (rowOf (64 * line)).1 ∧ s.channelUp ch = true ∧ n = Tbl.at s.tier.corrected ch 0 + 1) ∧
    (∃ (line : Nat) (s : State), Up s ∧ addrSpace (64 * line) = 1 ∧ addrNode (64 * line) = s.node ∧ s.offsetDefined (64 * line) = true ∧ s.channelUp (rowOf (64 * line)).1 = true ∧ s.lineBad (64 * line) = false ∧ s.slotAt (64 * line) = none) ∧
    (∃ (ch group row b : Nat) (s : State), Up s ∧ ch < 16 ∧ s.channelUp ch = true ∧ 2 ≤ (Tbl.at s.tier.rowErrors (rowKey ch row) (0, 0)).1 ∧ b = s.rowSpare ch group ∧ 0 < b) ∧
    (∃ (ch group row n : Nat) (s : State), Up s ∧ ch < 16 ∧ s.channelUp ch = true ∧ 2 ≤ (Tbl.at s.tier.rowErrors (rowKey ch row) (0, 0)).1 ∧ s.rowSpare ch group = 0 ∧ n = Tbl.at s.tier.lineSpares ch 2048 ∧ 0 < n) ∧
    (∃ (ch group row n : Nat) (s : State), Up s ∧ ch < 16 ∧ s.channelUp ch = true ∧ 2 ≤ (Tbl.at s.tier.rowErrors (rowKey ch row) (0, 0)).1 ∧ s.rowSpare ch group = 0 ∧ Tbl.at s.tier.lineSpares ch 2048 = 0 ∧ n = Tbl.at s.tier.rowsRetired ch 0 + 1) ∧
    (∃ (ch row : Nat) (s : State), Up s ∧ ch < 16 ∧ s.channelUp ch = true ∧ s.boot.hardRepairs.contains (ch, row) = true) ∧
    (∃ (sector : Nat) (s : State), Up s ∧ Tbl.has s.tier.rewrite sector = true ∧ Tbl.has s.tier.map sector = true ∧ s.pkg.flashUp.any (fun ch => s.flashChanUp ch && !(Tbl.at s.tier.chans ch {}).readOnly) = true) ∧
    (∃ (ch block : Nat) (c : FlashChan) (s : State), Up s ∧ s.flashChanUp ch = true ∧ Tbl.get s.tier.chans ch = some c ∧ c.retired.contains block = false) ∧
    (∃ (ch block : Nat) (c : FlashChan) (s : State), Up s ∧ s.flashChanUp ch = true ∧ c = Tbl.at s.tier.chans ch {} ∧ c.retired.contains block = false) :=
  ⟨⟨2, (demS dF), by decide +kernel⟩,
   ⟨1, da0, (demS dF).tierPolicy 1, (demS dF), by decide +kernel⟩,
   ⟨da0, (Tbl.get (migS dM { req := 9, dst := fl.descBase }).tier.migrations da0).getD ({} : Migration), (migS dM { req := 9, dst := fl.descBase }), by decide +kernel⟩,
   ⟨da0, 1, (Tbl.get w20MemoryTiers3s.tier.migrations da0).getD ({} : Migration), w20MemoryTiers3s, by decide +kernel⟩,
   ⟨da0, (Tbl.get w20MemoryTiers4s.tier.migrations da0).getD ({} : Migration), w20MemoryTiers4s, by decide +kernel⟩,
   ⟨da0, (Tbl.get (migS dM { req := 9, dst := fl.descBase, promotion := true }).tier.migrations da0).getD ({} : Migration), (migS dM { req := 9, dst := fl.descBase, promotion := true }), by decide +kernel⟩,
   ⟨da0, (Tbl.get (migS dM { req := 9, dst := fl.descBase }).tier.migrations da0).getD ({} : Migration), (migS dM { req := 9, dst := fl.descBase }), by decide +kernel⟩,
   ⟨(mkAddr 0 1 4096 / 64), base, by decide +kernel⟩,
   ⟨(mkAddr 0 1 4096 / 64), (rowOf (64 * (mkAddr 0 1 4096 / 64))).1, (Tbl.at base.tier.corrected ((rowOf (64 * (mkAddr 0 1 4096 / 64))).1) 0 + 1), base, by decide +kernel⟩,
   ⟨(mkAddr 0 1 4096 / 64), base, by decide +kernel⟩,
   ⟨3, 1, 7, (errs 2).rowSpare 3 1, (errs 2), by decide +kernel⟩,
   ⟨3, 1, 7, (Tbl.at (errs 0).tier.lineSpares 3 2048), (errs 0), by decide +kernel⟩,
   ⟨3, 1, 7, (Tbl.at w20MemoryTiers12s.tier.rowsRetired 3 0 + 1), w20MemoryTiers12s, by decide +kernel⟩,
   ⟨3, 7, w20MemoryTiers13s, by decide +kernel⟩,
   ⟨5, w20MemoryTiers14s, by decide +kernel⟩,
   ⟨0, 1, (Tbl.get w20MemoryTiers15s.tier.chans 0).getD ({} : FlashChan), w20MemoryTiers15s, by decide +kernel⟩,
   ⟨0, 1, (Tbl.at w20MemoryTiers16s.tier.chans 0 {}), w20MemoryTiers16s, by decide +kernel⟩⟩

/-- The state of a witness below. -/
def w21AdmissionAndRequests6s : State := ask 1030 (admd { queue := [{ sub := sb1, op := { vi := 1 } }] } held)
/-- The state of a witness below. -/
def w21AdmissionAndRequests11s : State := ask 1033 { held with kv := { held.kv with handles := [(7, { req := 5, composition := 1 })] } }
/-- The state of a witness below. -/
def w21AdmissionAndRequests18s : State := (fun s : State => { s with str := { s.str with marks := [(5, [(3, 8)])], lost := [(5, [2])] } }) (tkr tk0 10 1)
/-- The state of a witness below. -/
def w21AdmissionAndRequests19s : State := (fun s : State => { s with str := { s.str with marks := [(5, [(3, 8)])] } }) (tkr { tk0 with st := 2 } 10 1)

/-- Witnesses for the statement AdmissionAndRequests. -/
theorem wit_AdmissionAndRequests :
    (∃ (c : Caller) (comp gReserve waitS waitO : Nat) (bridges : List Nat) (s : State), AskedBox s 1028 .oper c ∧ (s.comp comp).maps ≠ [] ∧ bridges ≠ [] ∧ bridges.all (fun b => decide (b < 4096)) = true ∧ gReserve ≤ (Tbl.get s.tier.ceilings (1, comp, 1)).getD (s.tierCapacity 1) ∧ waitS ≤ 60000000000 ∧ waitO ≤ 60000000000 ∧ ((s.comp comp).cur.protection = .none ∨ 2 ≤ bridges.dedup.length)) ∧
    (∃ (c : Caller) (sub : Submission) (st : Status) (s : State), AskedBox s 1029 .user c ∧ s.submitFault c.vi sub = some st) ∧
    (∃ (c : Caller) (sub : Submission) (comp q w : Nat) (s : State), AskedBox s 1029 .user c ∧ s.submitFault c.vi sub = none ∧ comp = sub.composition ∧ q = s.share comp sub.cls ∧ w = (s.admOf comp).waits sub.cls ∧ q ≤ (s.admOf comp).admitted.getD sub.cls 0 + w) ∧
    (∃ (c : Caller) (sub : Submission) (comp rid : Nat) (s : State), AskedBox s 1029 .user c ∧ s.submitFault c.vi sub = none ∧ comp = sub.composition ∧ (s.admOf comp).admitted.getD sub.cls 0 + (s.admOf comp).waits sub.cls < s.share comp sub.cls ∧ s.hasCapacity comp sub.cls (s.needOf comp sub.prompt.length (s.covered sub)) = true ∧ (s.admOf comp).queue.any (fun x => decide (x.sub.cls ≤ sub.cls)) = false ∧ rid = ((s.bookNew qRequests comp 1 1).serveSub sub c.vi).1) ∧
    (∃ (c : Caller) (sub : Submission) (comp : Nat) (s : State), AskedBox s 1029 .user c ∧ s.submitFault c.vi sub = none ∧ comp = sub.composition ∧ (s.admOf comp).admitted.getD sub.cls 0 + (s.admOf comp).waits sub.cls < s.share comp sub.cls ∧ s.hasCapacity comp sub.cls (s.needOf comp sub.prompt.length (s.covered sub)) = false ∧ sub.cls = 0) ∧
    (∃ (c : Caller) (sub : Submission) (comp : Nat) (s : State), AskedBox s 1029 .user c ∧ s.submitFault c.vi sub = none ∧ comp = sub.composition ∧ (s.admOf comp).admitted.getD sub.cls 0 + (s.admOf comp).waits sub.cls < s.share comp sub.cls ∧ s.hasCapacity comp sub.cls (s.needOf comp sub.prompt.length (s.covered sub)) = false ∧ sub.cls = 1 ∧ (s.comp comp).waitS < s.waitEstimate comp 1) ∧
    (∃ (c : Caller) (tag comp : Nat) (a : AdmComp) (w : Waiting) (s : State), AskedBox s 1030 .user c ∧ s.adm = [(comp, a)] ∧ a.queue = [w] ∧ w.op.vi = c.vi ∧ w.sub.tag = tag) ∧
    (∃ (c : Caller) (req : Nat) (b : BridgeReq) (s : State), AskedBox s 1030 .user c ∧ s.adm = [] ∧ s.str.bridges = [(req, b)] ∧ s.coversComp c.vi b.composition = true ∧ b.ended = false ∧ b.cancelAt = none) ∧
    (∃ (c : Caller) (req : Nat) (s : State), AskedBox s 1030 .user c ∧ s.adm = [] ∧ s.bridgeReq req = none ∧ s.str.bridges = []) ∧
    (∃ (c : Caller) (req : Nat) (r : Req) (s : State), AskedBox s 1031 .userRead c ∧ s.req req = some r ∧ s.coversComp c.vi r.composition = true) ∧
    (∃ (c : Caller) (req retain : Nat) (e : DirEntry) (s : State), AskedBox s 1032 .user c ∧ s.entry req = some e ∧ e.here = true ∧ s.coversComp c.vi e.composition = true ∧ 0 < retain ∧ retain ≤ 2592000 ∧ e.st ≠ .held ∧ e.st ≠ .failed) ∧
    (∃ (c : Caller) (handle : Nat) (h : PrefixHandle) (s : State), AskedBox s 1033 .user c ∧ Tbl.get s.kv.handles handle = some h ∧ s.coversComp c.vi h.composition = true) ∧
    (∃ (c : Caller) (n recBase recLog2 tail head flushNs : Nat) (s : State), AskedBox s 1034 .user c ∧ s.hasRight c.vi 4 = true ∧ n ≤ 15 ∧ 6 ≤ recLog2 ∧ recLog2 ≤ 20 ∧ 1000 ≤ flushNs ∧ flushNs ≤ 1000000 ∧ recBase % 64 = 0 ∧ tail % 64 = 0 ∧ head % 64 = 0) ∧
    (∃ (a : Admitted) (e : DirEntry) (s : State), Up s ∧ s.homeOf a.req = s.node ∧ a.promptNode ≠ s.node ∧ a.standby ≠ s.node ∧ a.handle = 0 ∧ s.entry a.req = some e ∧ e.st = .admitted) ∧
    (∃ (a : Admitted) (ctx : Nat) (s : State), Up s ∧ s.homeOf a.req ≠ s.node ∧ a.promptNode = s.node ∧ a.standby ≠ s.node ∧ a.handle = 0 ∧ s.ctxFor a.composition = some ctx ∧ s.req a.req = none ∧ s.freeRecords ≠ 0) ∧
    (∃ (a : Admitted) (s : State), Up s ∧ s.homeOf a.req ≠ s.node ∧ a.promptNode ≠ s.node ∧ a.standby = s.node ∧ a.standby ≠ 0 ∧ a.handle = 0 ∧ s.bridgeReq a.req = none) ∧
    (∃ (req : Nat) (e : DirEntry) (s : State), Up s ∧ s.entry req = some e ∧ e.here = true ∧ (e.st = .prefill ∨ e.st = .protected_ ∨ e.st = .leaping ∨ e.st = .decoding) ∧ e.cancelAt = none) ∧
    (∃ (req at_ : Nat) (e : DirEntry) (s : State), Up s ∧ s.entry req = some e ∧ e.cancelAt = some at_) ∧
    (∃ (req arrival time tok gone : Nat) (r : Req) (x y : TokRing) (s : State), Up s ∧ s.req req = some r ∧ r.tokenRing ≠ 0 ∧ x = s.tokRing r ∧ x.st = 1 ∧ Tbl.at s.str.marks req [] = [(time, tok)] ∧ time < arrival ∧ y = { x with st := 2, tok := tok, acked := min x.acked tok, stopPos := tok - 1, reason := 5, stopSeq := 0, stopLen := 0 } ∧ gone = x.tok - max x.acked tok ∧ s.liveBridges req y = []) ∧
    (∃ (req arrival time tok : Nat) (r : Req) (s : State), Up s ∧ s.req req = some r ∧ (s.tokRing r).st = 2 ∧ Tbl.at s.str.marks req [] = [(time, tok)] ∧ time < arrival) ∧
    (∃ (h : MsgHdr) (comp sendTime : Nat) (s : State), Up s ∧ h.ver = 1 ∧ (s.comp comp).bridges.contains s.node = true ∧ (s.comp comp).cur.members.contains h.src = true ∧ ((Tbl.get (s.admOf comp).reports h.src).map (fun r => decide (sendTime < r.at_))).getD false = false ∧ (s.admOf comp).queue = []) ∧
    (∃ (comp : Nat) (c : Comp) (s : State), Up s ∧ c = s.comp comp ∧ (c.cur.prompt ++ c.cur.cache).contains s.node = true ∧ (s.admOf comp).reportAt ≤ s.now) ∧
    (∃ (comp node : Nat) (c : Comp) (r : CapReport) (s : State), Up s ∧ c = s.comp comp ∧ c.bridges.contains s.node = true ∧ (c.cur.prompt ++ c.cur.cache).contains node = true ∧ Tbl.get (s.admOf comp).reports node = some r ∧ r.at_ + 5000000 < s.now ∧ Tbl.get (s.admOf comp).staleAt node = none) ∧
    (∃ (comp at_ : Nat) (c : Comp) (s : State), Up s ∧ c = s.comp comp ∧ c.cur.beat ≠ 0 ∧ c.maps ≠ [] ∧ at_ = s.now / c.cur.beat * c.cur.beat ∧ c.beatAt < at_ ∧ (s.admOf comp).queue = []) :=
  ⟨⟨cal, 1, 0, 0, 0, [0, 2, 0], (askO 1028 held), by decide +kernel⟩,
   ⟨cal, { sb1 with limit := 63 }, .invalidField, (ask 1029 held), by decide +kernel⟩,
   ⟨cal, sb1, sb1.composition, (ask 1029 (admd { fullR with admitted := [2, 0, 0] } held)).share sb1.composition sb1.cls, ((ask 1029 (admd { fullR with admitted := [2, 0, 0] } held)).admOf sb1.composition).waits sb1.cls, (ask 1029 (admd { fullR with admitted := [2, 0, 0] } held)), by decide +kernel⟩,
   ⟨cal, sb1, sb1.composition, (((ask 1029 (admd fullR held)).bookNew qRequests sb1.composition 1 1).serveSub sb1 cal.vi).1, (ask 1029 (admd fullR held)), by decide +kernel⟩,
   ⟨cal, sb1, sb1.composition, (ask 1029 (admd {} held)), by decide +kernel⟩,
   ⟨cal, { sb1 with cls := 1 }, ({ sb1 with cls := 1 } : Submission).composition, (ask 1029 (admd {} held)), by decide +kernel⟩,
   ⟨cal, 9, 1, { queue := [{ sub := sb1, op := { vi := 1 } }] }, { sub := sb1, op := { vi := 1 } }, w21AdmissionAndRequests6s, by decide +kernel⟩,
   ⟨cal, 5, { composition := 1 }, (ask 1030 (bridged { composition := 1 } held)), by decide +kernel⟩,
   ⟨cal, 5, (ask 1030 held), by decide +kernel⟩,
   ⟨cal, 5, ((ask 1031 held).req 5).getD ({} : Req), (ask 1031 held), by decide +kernel⟩,
   ⟨cal, 5, 60, ((ask 1032 (withEntry e5 held)).entry 5).getD ({} : DirEntry), (ask 1032 (withEntry e5 held)), by decide +kernel⟩,
   ⟨cal, 7, (Tbl.get w21AdmissionAndRequests11s.kv.handles 7).getD ({} : PrefixHandle), w21AdmissionAndRequests11s, by decide +kernel⟩,
   ⟨cal, 15, 0, 6, 0, 0, 1000, (ask 1034 held), by decide +kernel⟩,
   ⟨ad1, ((withEntry { e5 with st := .admitted } held).entry ad1.req).getD ({} : DirEntry), (withEntry { e5 with st := .admitted } held), by decide +kernel⟩,
   ⟨{ ad1 with req := rid3, promptNode := 0 }, (held.ctxFor ({ ad1 with req := rid3, promptNode := 0 } : Admitted).composition).getD (0), held, by decide +kernel⟩,
   ⟨{ ad1 with standby := 3 }, { held with node := 3 }, by decide +kernel⟩,
   ⟨5, ((withEntry { e5 with st := .leaping } held).entry 5).getD ({} : DirEntry), (withEntry { e5 with st := .leaping } held), by decide +kernel⟩,
   ⟨5, ((((withEntry { e5 with cancelAt := some 3 } held).entry 5).getD ({} : DirEntry)).cancelAt).getD (0), ((withEntry { e5 with cancelAt := some 3 } held).entry 5).getD ({} : DirEntry), (withEntry { e5 with cancelAt := some 3 } held), by decide +kernel⟩,
   ⟨5, 7, 3, 8, (w21AdmissionAndRequests18s.tokRing ((w21AdmissionAndRequests18s.req 5).getD ({} : Req))).tok - max (w21AdmissionAndRequests18s.tokRing ((w21AdmissionAndRequests18s.req 5).getD ({} : Req))).acked 8, (w21AdmissionAndRequests18s.req 5).getD ({} : Req), (w21AdmissionAndRequests18s.tokRing ((w21AdmissionAndRequests18s.req 5).getD ({} : Req))), { (w21AdmissionAndRequests18s.tokRing ((w21AdmissionAndRequests18s.req 5).getD ({} : Req))) with st := 2, tok := 8, acked := min (w21AdmissionAndRequests18s.tokRing ((w21AdmissionAndRequests18s.req 5).getD ({} : Req))).acked 8, stopPos := 8 - 1, reason := 5, stopSeq := 0, stopLen := 0 }, w21AdmissionAndRequests18s, by decide +kernel⟩,
   ⟨5, 7, 3, 8, (w21AdmissionAndRequests19s.req 5).getD ({} : Req), w21AdmissionAndRequests19s, by decide +kernel⟩,
   ⟨(mh 2 0), 1, 4, held, by decide +kernel⟩,
   ⟨1, (held.comp 1), held, by decide +kernel⟩,
   ⟨1, 2, (admd { reports := [(2, capR 0)] } held).comp 1, (Tbl.get ((admd { reports := [(2, capR 0)] } held).admOf 1).reports 2).getD ({} : CapReport), (admd { reports := [(2, capR 0)] } held), by decide +kernel⟩,
   ⟨1, (held.now / (held.comp 1).cur.beat * (held.comp 1).cur.beat), (held.comp 1), held, by decide +kernel⟩⟩

/-- Witnesses for the statement ArbiterPointers. -/
theorem wit_ArbiterPointers :
    (∃ (s : State), Up s ∧ bits s.now 19 0 = 0) ∧
    (∃ (s : State), Up s ∧ bits s.now 19 0 ≠ 0) ∧
    (∃ (s s' : State), Up s ∧ Up s' ∧ s.now = s'.now ∧ s.node = s'.node ∧ bits s.now 19 0 = 0) :=
  ⟨⟨{ base with now := 1048576000000 }, by decide +kernel⟩,
   ⟨{ base with now := 1 }, by decide +kernel⟩,
   ⟨{ base with now := 1048576000000 }, { base with now := 1048576000000, aon := 1 }, by decide +kernel⟩⟩

/-- Witnesses for the statement SetObjectStride. -/
theorem wit_SetObjectStride :
    (∃ (n : Nat), n < 4) :=
  ⟨0, by decide +kernel⟩

/-- Witnesses for the statement ShaperSettings. -/
theorem wit_ShaperSettings :
    (∃ (c : Caller) (tc rate burst : Nat) (s : State), AskedBox s 2052 .userOper c ∧ c.vi ≤ 255 ∧ tc ≤ 7 ∧ rate ≤ 200000 ∧ 4144 ≤ burst ∧ rate * 256 ≤ burst * 1000 ∧ burst ≤ 67108864) ∧
    (∃ (c : Caller) (rate burst : Nat) (s : State), AskedBox s 2052 .userOper c ∧ (200000 < rate ∨ burst < 4144 ∨ burst * 1000 < rate * 256 ∨ 67108864 < burst)) ∧
    (∃ (vi tc : Nat) (s : State), Tbl.has s.tra.shapers (vi, tc) = false) :=
  ⟨⟨cal, 3, 200000, 51200, (askO 2052 own), by decide +kernel⟩,
   ⟨cal, 200000, 51199, (askO 2052 own), by decide +kernel⟩,
   ⟨1, 3, base, by decide +kernel⟩⟩

/-- Witnesses for the statement VectorSlots. -/
theorem wit_VectorSlots :
    (∃ (i seq item pid handle a d : Nat) (v : List Byte) (x : Index) (s t : State), Memory.wf s.mem ∧ t = s.enterItems i x seq [(item, pid, handle, v)] ∧ d = 2 * x.dim ∧ v.length = d ∧ 0 < item ∧ item < 2 ^ 32 ∧ a = x.slotAt (item - 1) ∧ (a + d + 64 ≤ x.sideBase + x.sideCount * x.recLen ∨ x.sideBase + (x.sideCount + 1) * x.recLen ≤ a) ∧ (a + d + 64 ≤ x.itemAt item ∨ x.itemAt item + 32 ≤ a)) :=
  ⟨0, 0, 1, 7, 0, (ix.slotAt (1 - 1)), (2 * ix.dim), (ones 128), ix, base, (base.enterItems 0 ix 0 [(1, 7, 0, (ones 128))]), ⟨by decide +kernel, rfl, by decide +kernel, by decide +kernel, by decide +kernel, by decide +kernel, by decide +kernel, by decide +kernel, by decide +kernel⟩⟩

/-- Witnesses for the statement TokenBooks. -/
theorem wit_TokenBooks :
    (∃ (b : Bucket), b.balanced = true) ∧
    (∃ (b : Bucket) (n : Nat), b.balanced = true ∧ n ≤ b.held) ∧
    (∃ (b : Bucket), b.balanced = true) ∧
    (∃ (s : State), s.tra.shapers.all (fun e => e.2.b.balanced) = true) ∧
    (∃ (s : State), s.tra.shapers.all (fun e => e.2.b.balanced) = true) ∧
    (∃ (s : State), s.tra.shapers.all (fun e => e.2.b.balanced) = true) :=
  ⟨⟨{}, by decide +kernel⟩,
   ⟨{}, 100, by decide +kernel⟩,
   ⟨{}, by decide +kernel⟩,
   ⟨base, by decide +kernel⟩,
   ⟨(shp { b := { rate := 1000 }, parked := [pk1] }), by decide +kernel⟩,
   ⟨(askO 2052 own), by decide +kernel⟩⟩

end Slice0Tests
end

section
/-! SUPPORT. What the shared operations of power, reset and boot leave unchanged, said once. -/

namespace Sys2Proof.Machine
open Sys2Proof

/-- Settling a unit changes the performance counters alone. -/
theorem State.settle_frame (s : State) (u : Nat) : ∃ p, s.settle u = { s with perf := p } := by
  unfold State.settle
  extract_lets x
  by_cases hx : x.frozen
  · rw [if_pos hx]
    exact ⟨_, rfl⟩
  · rw [if_neg hx]
    split
    exact ⟨_, rfl⟩

/-- Settling several units changes the performance counters alone. -/
theorem State.settleAll_frame (us : List Nat) (s : State) : ∃ p, us.foldl State.settle s = { s with perf := p } := by
  induction us generalizing s with
  | nil => exact ⟨s.perf, rfl⟩
  | cons u us ih =>
    obtain ⟨p, hp⟩ := s.settle_frame u
    obtain ⟨q, hq⟩ := ih (s.settle u)
    exact ⟨q, by rw [List.foldl_cons, hq, hp]⟩

/-- ALERT_N's rules change the power state alone. -/
theorem State.alert_frame (s : State) : ∃ a e, s.alert = { s with pw := { s.pw with alertLow := a, alertEndAt := e } } := by
  unfold State.alert
  split
  · exact ⟨_, _, rfl⟩
  · split
    · exact ⟨_, _, rfl⟩
    · exact ⟨_, _, rfl⟩

/-- Reporting a throttle step keeps the queue and the always-on clock. -/
theorem State.throttleEvent_kept (s : State) (cause before : Nat) :
    (s.throttleEvent cause before).pending = s.pending ∧ (s.throttleEvent cause before).aon = s.aon := by
  simp only [State.throttleEvent]
  split
  · exact ⟨rfl, rfl⟩
  · split
    · simp [State.raise0]
    · exact ⟨rfl, rfl⟩

/-- A change of the power state keeps the queue and the always-on clock. -/
theorem State.setPower_kept (s : State) (cause : Nat) (p : Power) :
    (s.setPower cause p).pending = s.pending ∧ (s.setPower cause p).aon = s.aon := by
  have hset (us : List Nat) : (us.foldl State.settle s).pending = s.pending ∧ (us.foldl State.settle s).aon = s.aon := by
    obtain ⟨q, hq⟩ := State.settleAll_frame us s
    rw [hq]
    exact ⟨rfl, rfl⟩
  have halert (t : State) : t.alert.pending = t.pending ∧ t.alert.aon = t.aon := by
    obtain ⟨a, e, h⟩ := t.alert_frame
    rw [h]
    exact ⟨rfl, rfl⟩
  unfold State.setPower
  extract_lets s0 s1
  have h0 : s0.pending = s.pending ∧ s0.aon = s.aon := by
    unfold s0
    split
    · exact ⟨rfl, rfl⟩
    · exact hset _
  split
  · simpa [halert, State.throttleEvent_kept, s1] using h0
  · simpa [halert, s1] using h0

/-- The fall of SAFE_N's step keeps the queue and the always-on clock. -/
theorem State.safeFall_kept (s : State) : s.safeFall.pending = s.pending ∧ s.safeFall.aon = s.aon := by
  unfold State.safeFall
  split
  · exact s.setPower_kept _ _
  · exact ⟨rfl, rfl⟩

/-- Without a step SAFE_N required, nothing falls. -/
theorem State.safeFall_of_stepSafe (s : State) (h : s.pw.stepSafe = 0) : s.safeFall = s := by
  simp [State.safeFall, h]

/-- A tick of the node's counter keeps the queue and the always-on clock. -/
theorem State.tickTime_kept (s : State) : s.tickTime.pending = s.pending ∧ s.tickTime.aon = s.aon := by
  unfold State.tickTime
  split
  · exact ⟨rfl, rfl⟩
  · split
    · exact ⟨rfl, rfl⟩
    · exact ⟨rfl, rfl⟩

/-- A start from t0 keeps the queue and the always-on clock. -/
theorem State.cold_kept (s : State) (p : Power) : (s.cold p).pending = s.pending ∧ (s.cold p).aon = s.aon := ⟨rfl, rfl⟩

/-- A nanosecond keeps the queue and takes the always-on clock one on. -/
theorem State.tick_kept (s : State) : s.tick.pending = s.pending ∧ s.tick.aon = s.aon + 1 := by
  obtain ⟨hp, ha⟩ := State.safeFall_kept { s with aon := s.aon + 1 }
  unfold State.tick
  simp only []
  split
  · exact ⟨hp, ha⟩
  · split
    · obtain ⟨hp', ha'⟩ := State.tickTime_kept (State.safeFall { s with aon := s.aon + 1 })
      exact ⟨hp'.trans hp, ha'.trans ha⟩
    · exact ⟨hp, ha⟩

/-- No reset is held on a package that runs. -/
theorem State.resetEnds_of_live (s : State) (h : s.live = true) : s.resetEnds = false := by
  simp only [State.live, Bool.and_eq_true, Bool.not_eq_true'] at h
  simp [State.resetEnds, h]

/-- On a package that runs, with no slew and no step to fall, a nanosecond moves the two clocks alone. -/
theorem State.tick_quiet (s : State) (hl : s.live = true) (hs : s.pw.stepSafe = 0) (hw : s.time.slew = none) :
    s.tick = { s with aon := s.aon + 1, now := (s.now + 1) % 2 ^ 64 } := by
  have hlive : ({ s with aon := s.aon + 1 } : State).live = true := hl
  simp [State.tick, State.safeFall_of_stepSafe _ (show ({ s with aon := s.aon + 1 } : State).pw.stepSafe = 0 from hs),
    State.resetEnds_of_live _ hlive, hlive, State.tickTime, hw, u64]

end Sys2Proof.Machine
end

section
open Sys2Proof Sys2Proof.Machine

/-- Settles O2: on an empty queue a step is a nanosecond, which every branch of the tick carries out on the always-on clock alone. -/
theorem idleStep : Obligations.IdleStep := by
  constructor
  · intro s hq
    obtain ⟨hp, ha⟩ := s.tick_kept
    exact ⟨s.tick, by simp [step, hq], ha, hp.trans hq⟩
  · intro s hq hl hs hw
    simp [step, hq, s.tick_quiet hl hs hw]

/-- Settles O11: the state right after reset lists no VI but VI 0 by its defaults, and what an unlisted engine reads is its defaults. -/
theorem resetValues : Obligations.ResetValues := by
  refine ⟨rfl, rfl, rfl, ⟨by decide, rfl⟩, rfl, rfl, ?_, ?_, ?_, ?_⟩
  · decide
  · intro cls _ _
    rfl
  · intro v hv
    show (Tbl.at [(0, _)] v ({} : Vi)).st = .unassigned
    simp [Tbl.at, Tbl.get, hv.symm]
  · intro cls i
    exact ⟨rfl, rfl, rfl, rfl⟩
end
section
/-! SUPPORT. What fencing a die and the steps of the boot leave unchanged (R56, R412 to R414, R491). -/

namespace Sys2Proof.Machine
open Sys2Proof

/-- Charging a job's time leaves the dies as they stand. -/
@[simp] theorem State.chargeEnd_pkg (s : State) (c : Cmd) : (s.chargeEnd c).pkg = s.pkg := by
  simp only [State.chargeEnd]
  split
  · rfl
  · cases State.compOf s c <;> simp

/-- Counting a job's events leaves the dies as they stand. -/
@[simp] theorem State.tally_pkg (s : State) (c : Cmd) : (s.tally c).pkg = s.pkg := rfl

/-- Closing a job's slots leaves the dies as they stand. -/
@[simp] theorem State.closeJob_pkg (s : State) (u cid vi : Nat) (kept : Bool) : (s.closeJob u cid vi kept).pkg = s.pkg := rfl

/-- Settling a unit leaves the dies as they stand. -/
@[simp] theorem State.settle_pkg (s : State) (u : Nat) : (s.settle u).pkg = s.pkg := by
  obtain ⟨p, h⟩ := s.settle_frame u
  rw [h]

/-- Wiping a job leaves the dies as they stand. -/
@[simp] theorem State.wipeJob_pkg (s : State) (cid : Nat) : (s.wipeJob cid).pkg = s.pkg := by
  simp only [State.wipeJob]
  split
  · rfl
  · split <;> simp

/-- Wiping several jobs leaves the dies as they stand. -/
theorem State.wipeJobs_pkg (cids : List Nat) (s : State) : (cids.foldl State.wipeJob s).pkg = s.pkg := by
  induction cids generalizing s with
  | nil => rfl
  | cons cid cids ih => exact (ih _).trans (s.wipeJob_pkg cid)

/-- Retiring the engines of a die leaves the dies as they stand. -/
theorem State.retireInsts_pkg (is : List (Nat × Nat)) (s : State) : (is.foldl (fun t i => t.retireInst i.1 i.2) s).pkg = s.pkg := by
  induction is generalizing s with
  | nil => rfl
  | cons i is ih => exact (ih _).trans (State.wipeJobs_pkg _ _)

/-- ALERT_N's rules leave the boot, the dies, memory and the work as they stand. -/
@[simp] theorem State.alert_fields (s : State) : s.alert.boot = s.boot ∧ s.alert.pkg = s.pkg ∧ s.alert.mem = s.mem ∧ s.alert.work = s.work := by
  obtain ⟨a, e, h⟩ := s.alert_frame
  rw [h]
  exact ⟨rfl, rfl, rfl, rfl⟩

/-- A die that was fenced is fenced. -/
theorem State.fenceDie_isFenced (s : State) (d : Nat) : (s.fenceDie d).isFenced d = true := by
  simp only [State.fenceDie]
  split
  next h => exact h
  next => simp [State.isFenced, State.raise0, State.retireInsts_pkg]

/-- A start-up step over its limit is recorded in the boot's state alone. -/
theorem State.overStep_eq (s : State) (row limit : Nat) : s.overStep row limit = { s with boot := { s.boot with
    overSteps := if s.aon ≤ s.boot.t0 + limit ∨ s.boot.overSteps.contains row then s.boot.overSteps else s.boot.overSteps ++ [row] } } := by
  unfold State.overStep
  split
  · rfl
  · rfl

/-- A die that starts Adeah has an accepted image. -/
theorem State.adeahStart_accepted (s : State) (die : Nat) (img : List Byte) : Tbl.at (s.adeahStart die img).boot.accepted die false = true :=
  Tbl.at_set_same _ _ _ _

/-- A start of Adeah leaves memory and the work as they stand. -/
theorem State.adeahStart_frame (s : State) (die : Nat) (img : List Byte) : (s.adeahStart die img).mem = s.mem ∧ (s.adeahStart die img).work = s.work :=
  ⟨rfl, rfl⟩

/-- A read of the image that finds it good starts Adeah. -/
theorem execImageVerify_good (die : Nat) (s : State) (hl : s.live = true) (hd : die < 2) (ha : Tbl.at s.boot.accepted die false = false)
    (hf : s.isFenced (dieMG die) = false) (hr : s.boot.recovery.running = false) (hi : imageFault s.boot.spiImage s.boot.svnMin = none) :
    execImageVerify die true s = .next (s.adeahStart die s.boot.spiImage) := by
  simp [execImageVerify, hl, hd, ha, hf, hr, hi]

/-- A read of the image that fails, or finds it bad, accepts nothing. -/
theorem execImageVerify_bad (die : Nat) (ok : Bool) (s : State) (hl : s.live = true) (hd : die < 2) (ha : Tbl.at s.boot.accepted die false = false)
    (hf : s.isFenced (dieMG die) = false) (hr : s.boot.recovery.running = false) (hi : ¬ (ok = true ∧ imageFault s.boot.spiImage s.boot.svnMin = none)) :
    ∃ t, execImageVerify die ok s = .next t ∧ t.boot.accepted = s.boot.accepted ∧ t.mem = s.mem ∧ t.work = s.work := by
  have hreason : ∃ r, (if ok then imageFault s.boot.spiImage s.boot.svnMin else some 5) = some r := by
    cases ok with
    | false => exact ⟨5, rfl⟩
    | true => exact Option.ne_none_iff_exists'.mp (fun h => hi ⟨rfl, h⟩)
  obtain ⟨r, hr'⟩ := hreason
  refine ⟨_, rfl, ?_⟩
  simp only [hl, ha, hf, hr, hr', Nat.not_le.mpr hd, decide_false, Bool.not_true, Bool.or_false, Bool.false_eq_true, if_false]
  split
  · exact ⟨rfl, rfl, rfl⟩
  · split
    · simp
    · exact ⟨rfl, rfl, rfl⟩

end Sys2Proof.Machine
end

section
open Sys2Proof Sys2Proof.Machine

/-- Settles O17: each step of the boot is carried out by the one branch of its command that the premises leave; the image's
verification needs both branches, and fencing needs that the wiped jobs leave the dies as they stand. -/
theorem bootSteps : Obligations.BootSteps := by
  refine ⟨?image, ?solicit, ?block, ?test, ?testFailed, ?dram, ?nand, ?join, ?joinFailed, ?reset⟩
  case image =>
    intro die s ok hl hd ha hf hr
    by_cases hi : ok = true ∧ imageFault s.boot.spiImage s.boot.svnMin = none
    · obtain ⟨rfl, hi'⟩ := hi
      exact ⟨_, execImageVerify_good die s hl hd ha hf hr hi', iff_of_true (s.adeahStart_accepted die _) ⟨rfl, hi'⟩, s.adeahStart_frame die _⟩
    · obtain ⟨t, ht, hacc, hmw⟩ := execImageVerify_bad die ok s hl hd ha hf hr hi
      exact ⟨t, ht, iff_of_false (by simp [hacc, ha]) hi, hmw⟩
  case solicit =>
    intro s hl hr ht
    refine ⟨_, rfl, ?_⟩
    simp [hl, hr, ht, State.gram]
  case block =>
    intro off data s hl hr ho hd hs
    refine ⟨_, rfl, ?_⟩
    simp [hl, hr, ho, hd, hs]
  case test =>
    intro die s hu hd hn
    refine ⟨_, rfl, ?_⟩
    rw [State.whenLive_up s _ hu]
    simp only [hn, Nat.not_le.mpr hd, decide_false, Bool.or_false, Bool.false_eq_true, if_false, Bool.not_true, or_true, if_true, State.overStep_eq]
    exact ⟨rfl, rfl⟩
  case testFailed =>
    intro die bad s hu hd hn
    refine ⟨_, rfl, ?_⟩
    rw [State.whenLive_up s _ hu]
    simp only [hn, Nat.not_le.mpr hd, decide_false, Bool.or_false, Bool.false_eq_true, if_false, Bool.not_false, if_true]
    exact State.fenceDie_isFenced _ die
  case dram =>
    intro ch rate s hu hc hn hf
    refine ⟨_, rfl, ?_⟩
    rw [State.whenLive_up s _ hu]
    simp only [hn, hf, Nat.not_le.mpr hc, decide_false, Bool.or_false, Bool.false_eq_true, if_false, Bool.not_true, if_true, State.overStep_eq]
    exact ⟨rfl, rfl, rfl, rfl⟩
  case nand =>
    intro die s hu hd hf hn
    have hdie : (die == 14 || die == 15) = true := by simpa using hd
    refine ⟨_, rfl, ?_⟩
    rw [State.whenLive_up s _ hu]
    simp only [hf, hn, hdie, Bool.or_false, Bool.not_true, Bool.false_eq_true, if_false, List.filter_nil, List.map_nil, List.append_nil, State.overStep_eq]
    exact ⟨rfl, rfl, rfl⟩
  case join =>
    intro s hu hj ha hm
    refine ⟨_, rfl, ?_⟩
    simp [State.whenLive_up s _ hu, hj, ha, hm, State.raise0]
  case joinFailed =>
    intro s hu hj ht
    refine ⟨_, rfl, ?_⟩
    simp [State.whenLive_up s _ hu, hj, Nat.not_lt.mpr ht, State.raise0]
  case reset =>
    intro at_ s hu ha ht
    refine ⟨_, rfl, ?_⟩
    simp [State.whenLive_up s _ hu, ha, ht, State.cold, State.reset]
end
section
/-! SUPPORT. How an operation's answer leaves what the operation did (R395 to R397, R422), and what sessions and quotes are read by. -/

namespace Sys2Proof.Machine
open Sys2Proof

variable {s : State} {c : Caller} {op result : Nat} {st : Status} {body : List Nat}

/-- An outcome that is not deferred: its answer is final (R397). -/
def FinalStatus (st : Status) : Prop := st ≠ .adhAccepted ∧ st ≠ .delayed

/-! ### Answers -/

/-- An action of a change order is answered by its order, so that a final outcome changes nothing more. -/
theorem State.respond_order (ho : c.order.isSome = true) (hf : FinalStatus st) : s.respond c op st result body = s := by
  simp [State.respond, ho, hf.1, hf.2]

/-- An answer outside the mailboxes changes the sessions' headers and the datagrams alone. -/
theorem State.respond_outside (hc : c.order.isSome = true ∨ c.session.isSome = true) (hf : FinalStatus st) :
    ∃ se l, s.respond c op st result body = { s with adh := { s.adh with sessions := se }, log := l } ∧
      ∀ id, (Tbl.get se id).map (·.upload) = (Tbl.get s.adh.sessions id).map (·.upload) := by
  by_cases ho : c.order.isSome = true
  · exact ⟨s.adh.sessions, s.log, State.respond_order ho hf, fun _ => rfl⟩
  · obtain ⟨id, hid⟩ := Option.isSome_iff_exists.mp (hc.resolve_left ho)
    refine ⟨_, _, by simp [State.respond, ho, hf.1, hf.2, hid, State.gram]; exact ⟨rfl, rfl⟩, fun id' => ?_⟩
    by_cases hi : id' = id
    · subst hi
      cases hg : Tbl.get s.adh.sessions id' with
      | none => rw [Tbl.upd_none _ _ _ hg, hg]
      | some x =>
        rw [Tbl.get_upd_some _ _ _ x hg]
        rfl
    · rw [Tbl.get_upd_other _ _ _ _ hi]

/-- A mailbox that is answered is IDLE, with the outcome recorded. -/
theorem State.mboxAnswer_mbox (s : State) (v m q op : Nat) (st : Status) (result handle : Nat) (body : List Nat) :
    ((s.mboxAnswer v m q op st result handle body).mbox v m).busy = false ∧
    ((s.mboxAnswer v m q op st result handle body).mbox v m).applied = some { mbSeq := q, status := st, result := result, body := body } := by
  unfold State.mboxAnswer
  extract_lets x bs h h' far _ s1
  have hs1 : (s1.mbox v m).busy = false ∧ (s1.mbox v m).applied = some { mbSeq := q, status := st, result := result, body := body } := by
    simp [s1, State.mbox, State.setMbox]
  split
  · exact hs1
  · exact hs1

/-- A final answer through a mailbox is the mailbox's. -/
theorem State.respond_replied (ho : c.order = none) (hs : c.session = none) (hf : FinalStatus st) :
    (s.respond c op st result body).replied c st result body := by
  have he : s.respond c op st result body = s.mboxAnswer c.vi c.mbox c.mbSeq op st result 0 body := by
    simp [State.respond, ho, hs, hf.1, hf.2]
  rw [he]
  exact s.mboxAnswer_mbox ..

/-- An answer leaves the boot's state and the work as they stand. -/
theorem State.respond_boot : (s.respond c op st result body).boot = s.boot ∧ (s.respond c op st result body).work = s.work := by
  obtain ⟨a, l, m, e, -⟩ := State.respond_frame s c op st result body
  rw [e]
  exact ⟨rfl, rfl⟩

/-! ### Operations whose answer is final -/

/-- An order's action takes effect as its operation says. -/
theorem State.adhRun_order {g : State → AdhOut} (ha : Asked s op .order c) (hv : (g s).st ≠ .violation) (hf : FinalStatus (g s).st) :
    s.adhRun op .order c g = s.keeping (g s).s := by
  obtain ⟨-, -, -, ho⟩ := id ha
  rw [State.adhRun_asked s op .order c g ha, if_neg hv, State.respond_order ho hf]

/-- An order's action that completes takes effect as its operation says. -/
theorem State.adhRun_order_ok {g : State → AdhOut} {t : State} (ha : Asked s op .order c) (hg : g s = adhOk t) :
    s.adhRun op .order c g = s.keeping t := by
  have hst : (g s).st = .ok := by rw [hg]; rfl
  rw [State.adhRun_order ha (by simp [hst]) (by simp [FinalStatus, hst]), hg]
  rfl

/-- A session's operation that completes takes effect as its operation says, and its answer goes out in a datagram. -/
theorem State.adhRun_mgmt_ok {g : State → AdhOut} {t : State} (ha : Asked s op .mgmt c) (hg : g s = adhOk t) :
    ∃ se l, s.adhRun op .mgmt c g = s.keeping { t with adh := { t.adh with sessions := se }, log := l } ∧
      ∀ id, (Tbl.get se id).map (·.upload) = (Tbl.get t.adh.sessions id).map (·.upload) := by
  obtain ⟨-, -, -, hm⟩ := id ha
  have hs : c.session.isSome = true := by
    cases hc : c.session with
    | none => simp [State.admits, hc] at hm
    | some id => rfl
  obtain ⟨se, l, e, hu⟩ := State.respond_outside (s := t) (c := c) (op := op) (st := .ok) (result := 0) (body := []) (Or.inr hs) ⟨by simp, by simp⟩
  refine ⟨se, l, ?_, hu⟩
  rw [State.adhRun_asked s op .mgmt c g ha, hg, ← e]
  rfl

/-- What an order's action does, where its operation completes. -/
theorem does_order {i : Instr} {g : State → AdhOut} {t : State} (hi : exec i s = .next (s.adhRun op .order c g)) (ha : Asked s op .order c)
    (hg : g s = adhOk t) : Does i s (s.keeping t) := by
  rw [Does, hi, State.adhRun_order_ok ha hg]

/-! ### Change orders (R403 to R405) -/

/-- Every check of R404 passes on an order. -/
def State.orderPasses (s : State) (order : List Byte) (actions : List Action) : Prop :=
  orderFormatOk order actions = true ∧ (fld (wordsOf 8 order) 0 23 12 = s.node ∨ fld (wordsOf 8 order) 0 23 12 = 4095) ∧
    orderSigned s.adh.trust order = true ∧ s.timeLocked = true ∧ word (wordsOf 8 order) 2 ≤ s.now ∧ s.now ≤ word (wordsOf 8 order) 3 ∧
    s.adh.lastOrder < word (wordsOf 8 order) 1 ∧ s.adh.order = none

/-- A violation leaves the boot's state and Adeah's next session as they stand. -/
theorem State.violate_boot (vi node ep addr kind op reason : Nat) : (s.violate vi node ep addr kind op reason).boot = s.boot ∧
    (s.violate vi node ep addr kind op reason).adh.nextSession = s.adh.nextSession := by
  simp only [State.violate]
  split
  · simp [State.raise0]
  · simp

/-- An order of a personality that passes every check sets it for the next reset. -/
theorem doChangeOrder_passed {order : List Byte} {p : Nat} (hp : 1 ≤ p ∧ p ≤ 3) (h : s.orderPasses order [.personalitySet p]) :
    (doChangeOrder c order [.personalitySet p] s).st = .adhAccepted ∧
    (doChangeOrder c order [.personalitySet p] s).s.boot.personalityNext = p := by
  obtain ⟨hfmt, hnode, hsig, hlock, hfrom, hto, hseq, hbusy⟩ := h
  have hp' : ¬ (p = 0 ∨ 3 < p) := by omega
  have hnode' : ¬ (fld (wordsOf 8 order) 0 23 12 ≠ s.node ∧ fld (wordsOf 8 order) 0 23 12 ≠ 4095) := by tauto
  simp only [doChangeOrder, hfmt, hnode', hsig, hlock, hbusy, Nat.not_lt.mpr hfrom, Nat.not_lt.mpr hto, Nat.not_le.mpr hseq, Bool.not_true,
    Bool.false_eq_true, if_false, or_self, Option.isSome_none, runActions, runAction, doPersonalitySet, hp', adhOk]
  simp [State.raise0]

/-- An order that fails a check leaves the boot's state as it stands. -/
theorem doChangeOrder_failed {order : List Byte} {as : List Action} (h : ¬ s.orderPasses order as) :
    (doChangeOrder c order as s).st ≠ .violation ∧ (doChangeOrder c order as s).s.boot = s.boot := by
  simp only [doChangeOrder]
  split
  next => exact ⟨nofun, rfl⟩
  next hfmt =>
  split
  next => exact ⟨nofun, rfl⟩
  next hnode =>
  split
  next => exact ⟨nofun, (State.violate_boot _ _ _ _ _ _ _).1⟩
  next hsig =>
  split
  next => exact ⟨nofun, rfl⟩
  next htime =>
  split
  next => exact ⟨nofun, rfl⟩
  next hseq =>
  split
  next => exact ⟨nofun, rfl⟩
  next hbusy =>
    refine absurd ⟨by simpa using hfmt, by tauto, by simpa using hsig, ?_⟩ h
    push Not at htime
    exact ⟨by simpa using htime.1, htime.2.1, htime.2.2, by omega, by simpa using hbusy⟩

/-- What a change order does to the boot's state stands after its answer. -/
theorem State.adhRun_oper_boot {g : State → AdhOut} (ha : Asked s op .oper c) (hv : (g s).st ≠ .violation) :
    (s.adhRun op .oper c g).boot = (g s).s.boot := by
  rw [State.adhRun_asked s op .oper c g ha, if_neg hv]
  exact State.respond_boot.1

/-- An answer through a mailbox leaves a change order's record as it stands. -/
theorem State.mboxAnswer_order (s : State) (v m q op : Nat) (st : Status) (result handle : Nat) (body : List Nat) :
    (s.mboxAnswer v m q op st result handle body).adh.order = s.adh.order := by
  unfold State.mboxAnswer
  extract_lets x bs h h' far _ s1
  split
  · rfl
  · rfl

/-- The final record of a deferred operation leaves a change order's record as it stands. -/
theorem State.finishOp_order (s : State) (r : OpRef) (st : Status) (result : Nat) (extra : List Nat) :
    (s.finishOp r st result extra).adh.order = s.adh.order := by
  unfold State.finishOp
  split
  · rfl
  · split
    · obtain ⟨v, m, e, -⟩ := State.asyncPut_frame s r.vi [sealWords ([mkWord [(48, 16, st.code), (32, 16, r.op), (0, 32, r.handle)], u64 result,
        u64 s.now] ++ (extra ++ [0, 0, 0, 0]).take 4)]
      rw [e]
    · split
      · exact s.mboxAnswer_order ..
      · rfl

/-! ### The quote (R418) -/

/-- Padding reaches its length. -/
theorem length_padTo (n : Nat) (bs : List Byte) : n ≤ (padTo n bs).length := by
  simp only [padTo, List.length_append, List.length_replicate]
  omega

/-- The first words of a byte string are those of any first part of it that holds them. -/
theorem wordsOf_take (n m : Nat) (q bs : List Byte) (hn : n ≤ m) (hq : 8 * n ≤ q.length) : (wordsOf m (q ++ bs)).take n = wordsOf n q := by
  simp only [wordsOf, ← List.map_take, List.take_range, Nat.min_eq_left hn]
  refine List.map_congr_left (fun i hi => ?_)
  have hi' : 8 * i + 8 ≤ q.length := by
    have := List.mem_range.mp hi
    omega
  rw [List.drop_append_of_le_length (by omega), List.take_append_of_le_length (by simp; omega)]

/-- The body of an attestation begins with the quote. -/
theorem doAttest_body (nonce : List Byte) (s : State) (h : nonce.length = 64) :
    (doAttest nonce s).st = .ok ∧ (doAttest nonce s).result = 0 ∧ (doAttest nonce s).s = s ∧
    (doAttest nonce s).body.take 64 = wordsOf 64 (s.quote nonce) := by
  simp only [doAttest, h, ne_eq, not_true_eq_false, if_false, true_and, List.append_assoc]
  have hq : 512 ≤ (s.quote nonce).length := length_padTo _ _
  refine wordsOf_take 64 _ _ _ ?_ hq
  simp only [ceilDiv, List.length_append]
  omega

/-! ### Sessions (R422) -/

/-- Drawing fresh bytes leaves Adeah's state as it stands. -/
theorem State.drawBytes_adh (n : Nat) (s : State) : (s.drawBytes n).2.adh = s.adh := by
  induction n generalizing s with
  | zero => rfl
  | succ n ih => exact ih s.draw.2

/-- A first upload at offset 0 is what the session's area holds. -/
theorem doUpload_first {id : Nat} {bytes : List Byte} {x : Session} (hs : c.session = some id) (hx : Tbl.get s.adh.sessions id = some x)
    (hu : Tbl.at x.upload 0 [] = []) (hb : bytes.length ≤ 33554432) :
    doUpload c 0 bytes s = adhOk { s with adh := { s.adh with sessions := Tbl.set s.adh.sessions id { x with upload := [(0, bytes)] } } } := by
  simp [doUpload, hs, Nat.not_lt.mpr hb, Tbl.upd, hx, hu, padTo]

end Sys2Proof.Machine
end

section
open Sys2Proof Sys2Proof.Machine

/-- Settles O36: an order's action has the effect of its operation alone, a session's the effect and a datagram, and the checks of R404
are taken in their order; the quote is the head of the attestation's body. -/
theorem trustOperations : Obligations.TrustOperations := by
  refine ⟨?install, ?rotate, ?clear, ?firmware, ?personality, ?nodeReset, ?croakKey, ?changeOrder, ?drained, ?attest, ?sessionOpen, ?upload, ?datagram, ?idle⟩
  case install =>
    intro c da no s ha ht hd hn
    have hg : doTrustInstall da no s = adhOk (s.setTrust (some (da, no))) := by simp [doTrustInstall, ht, hd, hn]
    obtain ⟨se, l, e, -⟩ := State.adhRun_mgmt_ok ha hg
    exact ⟨_, congrArg Host.Outcome.next e, rfl, rfl, rfl⟩
  case rotate =>
    intro c da no o s ha ht hd hn
    have hg : doTrustRotate (some da) (some no) s = adhOk (s.setTrust (some (da, no))) := by simp [doTrustRotate, ht, hd, hn]
    exact ⟨_, does_order rfl ha hg, rfl, rfl⟩
  case clear =>
    intro c s ha
    exact ⟨_, does_order rfl ha rfl, rfl, rfl⟩
  case firmware =>
    intro c image up s ha hl
    by_cases hi : imageFault image s.boot.svnMin = none
    · have hg : doFirmwareUpdate image up s = adhOk { s with boot := { s.boot with spiImage := image, raiseSvn := up } } := by
        simp [doFirmwareUpdate, hi, Nat.not_lt.mpr hl]
      exact ⟨_, does_order rfl ha hg, (if_pos hi).symm, rfl⟩
    · have hg : doFirmwareUpdate image up s = adhFail .invalidField s := by
        simp [doFirmwareUpdate, Option.isSome_iff_ne_none.mpr hi]
      have he : s.adhRun 0x0B07 .order c (doFirmwareUpdate image up) = s.keeping s := by
        rw [State.adhRun_order ha (by simp [hg, adhFail]) (by simp [hg, adhFail, FinalStatus]), hg]
        rfl
      exact ⟨_, congrArg Host.Outcome.next he, (if_neg hi).symm, rfl⟩
  case personality =>
    intro c p s ha h1 h3
    have hp : ¬ (p = 0 ∨ 3 < p) := by omega
    exact ⟨_, does_order rfl ha (if_neg hp), rfl, rfl⟩
  case nodeReset =>
    intro c time s ha
    exact ⟨_, does_order rfl ha rfl, rfl, rfl⟩
  case croakKey =>
    intro c key s ha
    exact ⟨_, does_order rfl ha rfl, rfl, rfl⟩
  case changeOrder =>
    rintro c order p s ⟨ha, -, -⟩ h1 h3
    refine ⟨_, rfl, ?_⟩
    by_cases h : s.orderPasses order [.personalitySet p]
    · obtain ⟨hst, hb⟩ := doChangeOrder_passed (c := c) ⟨h1, h3⟩ h
      rw [State.adhRun_oper_boot ha (by simp [hst]), hb]
      exact (if_pos h).symm
    · obtain ⟨hst, hb⟩ := doChangeOrder_failed (c := c) h
      rw [State.adhRun_oper_boot ha hst, hb]
      exact (if_neg h).symm
  case drained =>
    intro o s hu ho hd
    refine ⟨_, rfl, ?_⟩
    simp [State.whenLive_up s _ hu, ho, hd, State.finishOp_order]
  case attest =>
    rintro c nonce s ⟨ha, hs, ho⟩ hn
    obtain ⟨hst, hr, hq, hb⟩ := doAttest_body nonce s hn
    refine ⟨_, (doAttest nonce s).body, rfl, ?_, hb, ?_⟩
    · rw [State.adhRun_asked s _ _ c _ ha, hst, hr, hq]
      exact State.respond_replied ho hs (by simp [FinalStatus])
    · rw [State.adhRun_asked s _ _ c _ ha, hst, hq]
      exact State.respond_boot.2
  case sessionOpen =>
    intro c principal da no challenge sig s hl hp ht h1 hc
    refine ⟨_, rfl, ?_⟩
    cases hv : pssVerify (if principal = 0 then da else no) challenge sig with
    | false =>
      simp only [hl, hp, ht, hv, Nat.not_lt.mpr h1, Bool.and_self, Bool.not_true, Bool.not_false, Bool.false_eq_true, if_false, if_true]
      exact (State.violate_boot _ _ _ _ _ _ _).2
    | true =>
      simp only [hl, hp, ht, hv, Nat.not_lt.mpr h1, Nat.not_le.mpr hc, Bool.and_self, Bool.not_true, Bool.false_eq_true, if_false, if_true]
      have hn : ((s.drawBytes 8).2.drawBytes 8).2.adh = s.adh := (State.drawBytes_adh 8 _).trans (State.drawBytes_adh 8 s)
      exact congrArg (·.nextSession + 1) hn
  case upload =>
    intro c id bytes x s ha hs hx hu hb
    obtain ⟨se, l, e, hse⟩ := State.adhRun_mgmt_ok ha (doUpload_first hs hx hu hb)
    refine ⟨_, congrArg Host.Outcome.next e, ?_, rfl⟩
    have hup : (Tbl.get se id).map (·.upload) = some [(0, bytes)] := by simp [hse]
    obtain ⟨y, hy, hyu⟩ := Option.map_eq_some_iff.mp hup
    simp [hy, hyu, Tbl.at, Tbl.get]
  case datagram =>
    intro bytes x s hu hp hx hlo hhi hseq hh
    have hbody : ¬ 8192 < ((bytes.drop 48).drop 64).length := by
      simp only [List.length_drop]
      omega
    refine ⟨_, rfl, ?_⟩
    rw [State.whenLive_up s _ hu]
    by_cases hm : (hmacSha512 x.key (bytes.take 16 ++ bytes.drop 48)).take 32 = cut bytes 16 32
    · simp only [hx, hp, hh, hm, hbody, Nat.not_lt.mpr hlo, Nat.not_le.mpr hseq, Bool.not_true, Bool.false_eq_true, or_self, if_false, if_true, ne_eq, not_true_eq_false]
      split
      · simp
      · simp
    · simp [hx, hm]
  case idle =>
    intro id x s hu hx ht
    refine ⟨_, rfl, ?_⟩
    simp [State.whenLive_up s _ hu, hx, Nat.not_lt.mpr ht, State.keeping]
end
section
/-! SUPPORT. Memory's canonical form (log 1) as a predicate of states and outcomes, and how it passes through the shapes that the model's definitions
are written in. What follows says once for each operation of the model that it keeps the form; the lemma bears the operation's name, and its proof
follows the operation's definition. Memory itself is written by `State.wr` and `State.zeroRange` alone, and emptied by `State.cold`. -/

namespace Sys2Proof.Machine
open Sys2Proof

/-- A state whose memory is in the canonical form of log 1. -/
def State.Canon (s : State) : Prop := Memory.wf s.mem

/-- An outcome whose next state, if it has one, has canonical memory. -/
def Out.Canon (o : Out) : Prop := ∀ t, o = .next t → t.Canon

variable {s : State}

/-- An outcome that goes on keeps the form where its state does. -/
theorem Out.Canon.next {t : State} (h : t.Canon) : Out.Canon (.next t) := by
  rintro _ ⟨⟩
  exact h

/-- An update of any parts but memory. -/
theorem State.Canon.update {now aon node pw jt boot pkg work fab adh led perf log kv comps own prot lnk time tra tier cb str adm srch free pending}
    (h : s.Canon) :
    State.Canon (.mk now aon node pw jt boot pkg work fab s.mem adh led perf log kv comps own prot lnk time tra tier cb str adm srch free pending) := h

/-! ### Pairs, branches, folds and optional effects -/

/-- The state that a destructured pair names; the lemmas after it do the same for longer tuples. -/
theorem State.Canon.snd {α : Type} {p : α × State} {a : α} (e : p = (a, s)) (h : p.2.Canon) : s.Canon := by
  subst e
  exact h

theorem State.Canon.thd {α β : Type} {p : α × β × State} {a : α} {b : β} (e : p = (a, b, s)) (h : p.2.2.Canon) : s.Canon := by
  subst e
  exact h

theorem State.Canon.fifth {α β γ δ : Type} {p : α × β × γ × δ × State} {a : α} {b : β} {c : γ} {d : δ}
    (e : p = (a, b, c, d, s)) (h : p.2.2.2.2.Canon) : s.Canon := by
  subst e
  exact h

theorem State.Canon.ite {c : Prop} [Decidable c] {a b : State} (ha : a.Canon) (hb : b.Canon) : (if c then a else b).Canon := by
  split
  · exact ha
  · exact hb

/-- A fold whose every step keeps the form. -/
theorem State.Canon.foldl {α : Type} {l : List α} {f : State → α → State} (h : s.Canon) (hf : ∀ t x, t.Canon → (f t x).Canon) :
    (l.foldl f s).Canon := by
  induction l generalizing s with
  | nil => exact h
  | cons x l ih => exact ih (hf s x h)

/-- A fold that carries a value beside the state. -/
theorem State.Canon.foldlSnd {α β : Type} {l : List α} {f : β × State → α → β × State} {b : β} (h : s.Canon)
    (hf : ∀ p x, p.2.Canon → (f p x).2.Canon) : (l.foldl f (b, s)).2.Canon :=
  List.foldlRecOn (motive := fun p => p.2.Canon) l f h (fun p hp x _ => hf p x hp)

theorem State.Canon.iteSnd {α : Type} {c : Prop} [Decidable c] {p q : α × State} (hp : p.2.Canon) (hq : q.2.Canon) :
    (if c then p else q).2.Canon := by
  split
  · exact hp
  · exact hq

theorem State.Canon.elim {α : Type} {o : Option α} {f : α → State} (h : s.Canon) (hf : ∀ x, (f x).Canon) : (o.elim s f).Canon := by
  cases o with
  | none => exact h
  | some x => exact hf x

theorem State.Canon.getD_map {α : Type} {o : Option α} {f : α → State} (h : s.Canon) (hf : ∀ x, (f x).Canon) : ((o.map f).getD s).Canon := by
  cases o with
  | none => exact h
  | some x => exact hf x

/-! ### Gating -/

theorem State.Canon.keeping {t : State} (h : t.Canon) : (s.keeping t).Canon := h

theorem State.Canon.whenLive {f : State → State} (h : s.Canon) (hf : s.Canon → (f s).Canon) : (s.whenLive f).Canon := .ite (hf h) h

/-! ### What writes memory -/

theorem State.Canon.wr {a bs} (h : s.Canon) : (s.wr a bs).Canon := State.wr_memWf s a bs h
theorem State.Canon.wrWords {a ws} (h : s.Canon) : (s.wrWords a ws).Canon := h.wr
theorem State.Canon.zeroRange {a n} (h : s.Canon) : (s.zeroRange a n).Canon := memWf_sub _ h
theorem State.Canon.raise {ev die unit p vs} (h : s.Canon) : (s.raise ev die unit p vs).Canon := State.raise_memWf s ev die unit p vs h
theorem State.Canon.asyncPut {v rs} (h : s.Canon) : (s.asyncPut v rs).Canon := by
  obtain ⟨vis, m, e, hm⟩ := s.asyncPut_frame v rs
  rw [e]
  exact hm h

end Sys2Proof.Machine
end

section
/-! SUPPORT. The operations of Machine/Ops keep memory's canonical form. -/

namespace Sys2Proof.Machine
open Sys2Proof

variable {s : State}

theorem State.Canon.draw (h : s.Canon) : s.draw.2.Canon := h

theorem State.Canon.granted {a n winner} (h : s.Canon) : (s.granted a n winner).Canon := h

theorem State.Canon.updVi {v f} (h : s.Canon) : (s.updVi v f).Canon := h

theorem State.Canon.account {v cls k n} (h : s.Canon) : (s.account v cls k n).Canon := h

theorem State.Canon.raise0 {ev die unit payload} (h : s.Canon) : (s.raise0 ev die unit payload).Canon := .raise h

theorem State.Canon.violate {vi node ep addr kind op reason} (h : s.Canon) : (s.violate vi node ep addr kind op reason).Canon := .ite (.raise0 h) h

theorem State.Canon.bookNew {q scope i n} (h : s.Canon) : (s.bookNew q scope i n).Canon := h

theorem State.Canon.bookMove {q scope i j n} (h : s.Canon) : (s.bookMove q scope i j n).Canon := h

theorem State.Canon.bookEnd {q scope i n} (h : s.Canon) : (s.bookEnd q scope i n).Canon := h

theorem State.Canon.transitOut {peer q n} (h : s.Canon) : (s.transitOut peer q n).Canon := h

theorem State.Canon.transitIn {peer q n} (h : s.Canon) : (s.transitIn peer q n).Canon := h

theorem State.Canon.ledgerBroken {q scope expected found agree} (h : s.Canon) : (s.ledgerBroken q scope expected found agree).Canon := .raise0 h

theorem State.Canon.tell {m} (h : s.Canon) : (s.tell m).Canon := h

theorem State.Canon.gram {kind port bs} (h : s.Canon) : (s.gram kind port bs).Canon := h

theorem State.Canon.mboxAnswer {v m mbSeq op st result handle body} (h : s.Canon) : (s.mboxAnswer v m mbSeq op st result handle body).Canon :=
  .ite h (.wr h)

theorem State.Canon.respond {c op st result body} (h : s.Canon) : (s.respond c op st result body).Canon := by
  unfold State.respond
  extract_lets -underBinder deferred _ s1
  have hs1 : s1.Canon := .ite h h
  split
  · exact hs1
  · split
    · exact hs1
    · exact .ite hs1 (.mboxAnswer hs1)

theorem State.Canon.finishOp {r st result extra} (h : s.Canon) : (s.finishOp r st result extra).Canon := by
  unfold State.finishOp
  split
  · exact h
  · exact .ite (.asyncPut h) (.ite (.mboxAnswer h) h)

theorem State.Canon.adhFail {st} (h : s.Canon) : (Machine.adhFail st s).s.Canon := h

theorem State.Canon.adhOk (h : s.Canon) : (Machine.adhOk s).s.Canon := h

theorem State.Canon.adhViolate {c op info} (h : s.Canon) : (s.adhViolate c op info).Canon := .violate h

theorem State.Canon.adhRun {op f c} {g : State → AdhOut} (h : s.Canon) (hg : s.Canon → (g s).s.Canon) : (s.adhRun op f c g).Canon := by
  unfold State.adhRun
  refine .ite h (.keeping (.ite (.respond (.violate h)) ?_))
  exact .ite (.respond (.adhViolate (hg h))) (.respond (hg h))

theorem State.Canon.adhRunD {op f c} {g : State → AdhOut} (h : s.Canon) (hg : s.Canon → (g s).s.Canon) : (s.adhRunD op f c g).Canon := by
  unfold State.adhRunD
  refine .ite h (.keeping (.ite (.respond (.violate h)) ?_))
  refine .ite (.respond (.adhViolate (hg h))) (.ite (.respond (hg h)) ?_)
  exact .ite (hg h) (.finishOp (.respond (hg h)))

theorem State.Canon.updComp {c f} (h : s.Canon) : (s.updComp c f).Canon := h

end Sys2Proof.Machine
end

section
/-! SUPPORT. The operations of Machine/PackageOps keep memory's canonical form. -/

namespace Sys2Proof.Machine
open Sys2Proof

variable {s : State}

theorem State.Canon.alert (h : s.Canon) : s.alert.Canon := .ite h (.ite h h)

theorem State.Canon.throttleEvent {cause before} (h : s.Canon) : (s.throttleEvent cause before).Canon := .ite h (.ite (.raise0 h) h)

theorem State.Canon.spareUsed {die unit before after} (h : s.Canon) : (s.spareUsed die unit before after).Canon := .raise0 h

theorem State.Canon.capReduced {die unit before after work} (h : s.Canon) : (s.capReduced die unit before after work).Canon := .alert (.raise0 h)

theorem State.Canon.updCmd {cid f} (h : s.Canon) : (s.updCmd cid f).Canon := h

theorem State.Canon.updInst {cls i f} (h : s.Canon) : (s.updInst cls i f).Canon := h

end Sys2Proof.Machine
end

section
/-! SUPPORT. The operations of Machine/KvOps keep memory's canonical form. -/

namespace Sys2Proof.Machine
open Sys2Proof

variable {s : State}

theorem State.Canon.updReq {rid f} (h : s.Canon) : (s.updReq rid f).Canon := h

theorem State.Canon.setReq {rid r} (h : s.Canon) : (s.setReq rid r).Canon := h

theorem State.Canon.freeReq {rid} (h : s.Canon) : (s.freeReq rid).Canon := h

theorem State.Canon.setMapEntry {r l m b da} (h : s.Canon) : (s.setMapEntry r l m b da).Canon := .wrWords h

theorem State.Canon.setDesc {da d} (h : s.Canon) : (s.setDesc da d).Canon := .wrWords h

theorem State.Canon.descFail {da} (h : s.Canon) : (s.descFail da).Canon := .raise0 h

theorem State.Canon.planeFail {da plane} (h : s.Canon) : (s.planeFail da plane).Canon := .raise0 (.setDesc h)

theorem State.Canon.sealRows {da n} (h : s.Canon) : (s.sealRows da n).Canon := .setDesc h

theorem State.Canon.bookSlot {da i j} (h : s.Canon) : (s.bookSlot da i j).Canon := h

end Sys2Proof.Machine
end

section
/-! SUPPORT. The operations of Machine/TrafficOps keep memory's canonical form. -/

namespace Sys2Proof.Machine
open Sys2Proof

variable {s : State}

theorem State.Canon.updPort {p f} (h : s.Canon) : (s.updPort p f).Canon := h

theorem State.Canon.updGates {p f} (h : s.Canon) : (s.updGates p f).Canon := h

theorem State.Canon.telSettle {port cls} (h : s.Canon) : (s.telSettle port cls).Canon := .ite h h

theorem State.Canon.telCount {key f} (h : s.Canon) : (s.telCount key f).Canon := h

theorem State.Canon.enqueue {port p} (h : s.Canon) : (s.enqueue port p).Canon := .telSettle (.telSettle h)

theorem State.Canon.dequeue {q} (h : s.Canon) : (s.dequeue q).Canon := .telCount (.telSettle h)

theorem State.Canon.toPort {p} (h : s.Canon) : (s.toPort p).Canon := by
  unfold State.toPort
  split
  · exact .enqueue h
  · exact h

theorem State.Canon.emit {p} (h : s.Canon) : (s.emit p).Canon := .ite (.toPort h) (.ite (.toPort h) h)

theorem State.Canon.releaseShaper {vi cls ps b} (h : s.Canon) : (State.releaseShaper vi cls ps b s).Canon := by
  induction ps generalizing b s with
  | nil => exact h
  | cons p ps ih =>
    unfold State.releaseShaper
    exact .ite (ih h.toPort) (.ite (ih h.toPort) h)

end Sys2Proof.Machine
end

section
/-! SUPPORT. The operations of Machine/LinkOps keep memory's canonical form. -/

namespace Sys2Proof.Machine
open Sys2Proof

variable {s : State}

theorem State.Canon.laneFail {p k reason again} (h : s.Canon) : (s.laneFail p k reason again).Canon := .raise0 h

theorem State.Canon.updPeer {n f} (h : s.Canon) : (s.updPeer n f).Canon := h

theorem State.Canon.pickPath {p} (h : s.Canon) : (s.pickPath p).2.Canon := by
  unfold State.pickPath
  split
  · exact h
  · exact h

theorem State.Canon.pathEvent {dst path up before after} (h : s.Canon) : (s.pathEvent dst path up before after).Canon := .ite h (.raise0 h)

theorem State.Canon.pathWatch {t : State} (h : t.Canon) : (pathWatch s t).Canon := .foldl h fun _ _ hu => .ite hu (.pathEvent hu)

theorem State.Canon.respray {ps} (h : s.Canon) : (s.respray ps).Canon := by
  unfold State.respray
  refine .foldl h (fun _ _ ht => ?_)
  split
  · split
    next u e =>
      have hu : u.Canon := .snd e (.pickPath ht)
      split
      · exact hu
      · extract_lets -underBinder
        split
        · exact hu
        · exact hu
  · exact ht

theorem State.Canon.openPools {p} (h : s.Canon) : (s.openPools p).Canon := .foldl h (fun _ _ ht => ht)

theorem State.Canon.closePools {p} (h : s.Canon) : (s.closePools p).Canon := .updPort (.foldl h (fun _ _ ht => ht))

theorem State.Canon.drainPools {p} (h : s.Canon) : (s.drainPools p).Canon := .ite h (.updPort (.foldl h (fun _ _ ht => ht)))

theorem State.Canon.enterActive {p} (h : s.Canon) : (s.enterActive p).Canon := .raise0 (.pathWatch h)

theorem State.Canon.leaveActive {p reason next} (h : s.Canon) : (s.leaveActive p reason next).Canon := by
  unfold State.leaveActive
  extract_lets -underBinder x waiting eth unacked s1 _ s2
  have hs1 : s1.Canon := .updPort (.closePools h)
  have hs2 : s2.Canon := .update hs1
  exact .ite h (.drainPools (.respray (.raise0 (.pathWatch hs2))))

theorem State.Canon.widthCheck {p} (h : s.Canon) : (s.widthCheck p).Canon :=
  .ite (.ite h (.leaveActive h)) (.ite (.leaveActive h) (.ite (.leaveActive h) h))

theorem State.Canon.linkMeter {p ps} (h : s.Canon) : (s.linkMeter p ps).Canon := by
  unfold State.linkMeter
  split
  · exact h
  · exact h

theorem State.Canon.control {p c} (h : s.Canon) : (s.control p c).Canon := h

theorem State.Canon.consume {p pk} (h : s.Canon) : (s.consume p pk).Canon := .ite h (.drainPools h)

end Sys2Proof.Machine
end

section
/-! SUPPORT. The operations of Machine/Units keep memory's canonical form. -/

namespace Sys2Proof.Machine
open Sys2Proof

variable {s : State}

theorem State.Canon.setUnit {u x} (h : s.Canon) : (s.setUnit u x).Canon := h

theorem State.Canon.settle {u} (h : s.Canon) : (s.settle u).Canon := .ite h h

theorem State.Canon.moveSlots {u kept n vi} (h : s.Canon) : (s.moveSlots u kept n vi).Canon := h

theorem State.Canon.closeSlots {u kept n} (h : s.Canon) : (s.closeSlots u kept n).Canon := .moveSlots (.setUnit (.settle h))

theorem State.Canon.closeJob {u cid vi kept} (h : s.Canon) : (s.closeJob u cid vi kept).Canon := h

theorem State.Canon.unitEvent {u ev n vi} (h : s.Canon) : (s.unitEvent u ev n vi).Canon := .ite h h

end Sys2Proof.Machine
end

section
/-! SUPPORT. The operations of Machine/MemOps keep memory's canonical form. -/

namespace Sys2Proof.Machine
open Sys2Proof

variable {s : State}

theorem State.Canon.countRead {a n vi} (h : s.Canon) : (s.countRead a n vi).Canon := .ite h (.foldl h (fun _ _ ht => .unitEvent ht))

theorem State.Canon.dramError {a} (h : s.Canon) : (s.dramError a).Canon := .raise0 h

theorem State.Canon.mapSector {sec} (h : s.Canon) : (s.mapSector sec).Canon := by
  unfold State.mapSector
  extract_lets -underBinder
  split
  next s1 e =>
    have hs1 : s1.Canon := .snd e h
    split
    · exact hs1
    · exact .unitEvent hs1

theorem State.Canon.store {a bs} (h : s.Canon) : (s.store a bs).Canon :=
  .ite (.foldl (.foldl (.wr h) (fun _ _ ht => .mapSector ht)) (fun _ _ ht => .unitEvent ht)) (.foldl (.wr h) (fun _ _ ht => .mapSector ht))

end Sys2Proof.Machine
end

section
/-! SUPPORT. The operations of Machine/CodeOps keep memory's canonical form. -/

namespace Sys2Proof.Machine
open Sys2Proof

variable {s : State}

theorem State.Canon.setCbSet {ctx e x} (h : s.Canon) : (s.setCbSet ctx e x).Canon := .wrWords h

theorem State.Canon.addRef {ctx e ver up} (h : s.Canon) : (s.addRef ctx e ver up).Canon := by
  unfold State.addRef
  extract_lets -underBinder
  split
  · exact h
  · exact .ite (.bookNew (.setCbSet h)) (.ite (.ledgerBroken h) (.bookEnd (.setCbSet h)))

theorem State.Canon.addStat {ctx e ver k n} (h : s.Canon) : (s.addStat ctx e ver k n).Canon := by
  unfold State.addStat
  split
  · exact h
  · exact .wrWords h

theorem State.Canon.descRefs {da up} (h : s.Canon) : (s.descRefs da up).Canon := by
  unfold State.descRefs
  extract_lets -underBinder
  split
  · exact h
  · split
    · exact h
    · exact .addRef (.addRef h)

theorem State.Canon.sealTees {da n} (h : s.Canon) : (s.sealTees da n).Canon := by
  unfold State.sealTees
  split
  · exact h
  · exact .foldl h (fun _ _ ht => ht)

theorem State.Canon.dropTees {da n} (h : s.Canon) : (s.dropTees da n).Canon := h

theorem State.Canon.freeDesc {da i} (h : s.Canon) : (s.freeDesc da i).Canon :=
  .bookSlot (.setDesc (.foldl (.dropTees (.descRefs h)) (fun _ _ ht => ht)))

theorem State.Canon.freeOrWait {da} (h : s.Canon) : (s.freeOrWait da).Canon := .ite h (.freeDesc h)

theorem State.Canon.freeWaiting (h : s.Canon) : s.freeWaiting.Canon := .foldl h (fun _ _ ht => .freeDesc ht)

theorem State.Canon.freeBlocks {rid r} (h : s.Canon) : (s.freeBlocks rid r).Canon := .foldl h (fun _ _ ht => .setMapEntry (.ite (.freeOrWait ht) ht))

theorem State.Canon.fitSectors {slot repr d} (h : s.Canon) : (s.fitSectors slot repr d).Canon :=
  .ite h (.foldl (.foldl h (fun _ _ ht => .ite ht (.mapSector ht))) (fun _ _ ht => ht))

theorem State.Canon.rowsValid {rid l m b n} (h : s.Canon) : (s.rowsValid rid l m b n).Canon := by
  unfold State.rowsValid
  split
  · exact h
  · exact .foldl (.ite h (.dropTees (.setDesc h))) (fun _ _ ht => .ite ht (.dropTees (.setDesc ht)))

theorem State.Canon.applyPost {p} (h : s.Canon) : (s.applyPost p).Canon := by
  unfold State.applyPost
  split
  · exact .wr h
  · exact .addRef h
  · exact .addStat h
  · exact .rowsValid h
  · exact .fitSectors h

end Sys2Proof.Machine
end

section
/-! SUPPORT. The operations of Machine/OwnOps keep memory's canonical form. -/

namespace Sys2Proof.Machine
open Sys2Proof

variable {s : State}

theorem State.Canon.newReceipt {rid e kind fromN toN tokens blocks manifest} (h : s.Canon) :
    (s.newReceipt rid e kind fromN toN tokens blocks manifest).2.Canon := by
  unfold State.newReceipt
  split
  next s1 e' =>
    exact .snd e' h

theorem State.Canon.setEntry {rid e} (h : s.Canon) : (s.setEntry rid e).Canon := h

theorem State.Canon.commitEntry {rid e msgs} (h : s.Canon) : (s.commitEntry rid e msgs).Canon :=
  .ite (.foldl (.setEntry (.unitEvent (.unitEvent h))) (fun _ _ ht => ht)) (.tell (.setEntry (.unitEvent (.unitEvent h))))

theorem State.Canon.atHome {m code} {f : DirEntry → State} (h : s.Canon) (hf : ∀ e, (f e).Canon) : (s.atHome m code f).Canon := by
  unfold State.atHome
  refine .ite h ?_
  split
  · exact h
  · exact .ite (hf _) h

theorem State.Canon.setHomeLease {holder l} (h : s.Canon) : (s.setHomeLease holder l).Canon := h

theorem State.Canon.setHold {rid m} (h : s.Canon) : (s.setHold rid m).Canon := h

theorem State.Canon.failHeld {rid st} (h : s.Canon) : (s.failHeld rid st).Canon := h

theorem State.Canon.dropTentative {rid r} (h : s.Canon) : (s.dropTentative rid r).Canon :=
  .foldl h (fun _ _ ht => .ite ht (.ite (.setMapEntry (.freeDesc ht)) (.setDesc ht)))

theorem State.Canon.bookReq {e i j} (h : s.Canon) : (s.bookReq e i j).Canon := h

theorem State.Canon.abortLeap {rid e reason} (h : s.Canon) : (s.abortLeap rid e reason).Canon := .raise0 (.bookReq (.commitEntry h))

theorem State.Canon.orphan {rid} (h : s.Canon) : (s.orphan rid).Canon := by
  unfold State.orphan
  split
  · exact h
  · split
    · exact h
    · extract_lets -underBinder s1
      have hs1 : s1.Canon := .ite (.abortLeap h) h
      split
      · exact hs1
      · exact .bookReq (.commitEntry hs1)

theorem State.Canon.faultOf {kind unit comp} (h : s.Canon) : (s.faultOf kind unit comp).2.Canon := by
  unfold State.faultOf
  split
  · exact h
  · exact h

theorem State.Canon.countEnded {e st} (h : s.Canon) : (s.countEnded e st).Canon := h

theorem State.Canon.failReq {rid e st i} (h : s.Canon) : (s.failReq rid e st i).Canon := .countEnded (.bookReq (.commitEntry h))

end Sys2Proof.Machine
end

section
/-! SUPPORT. The operations of Machine/PageOps keep memory's canonical form. -/

namespace Sys2Proof.Machine
open Sys2Proof

variable {s : State}

theorem State.Canon.setQueue {k q} (h : s.Canon) : (s.setQueue k q).Canon := h

theorem State.Canon.queueError {k reason} (h : s.Canon) : (s.queueError k reason).Canon := .raise h

theorem State.Canon.doorbell {v c q w} (h : s.Canon) : (s.doorbell v c q w).2.Canon := by
  unfold State.doorbell
  extract_lets -underBinder k x tail head staleT staleH n tail' head' moved x' s1 s2
  have hs2 : s2.Canon := .ite h h
  split
  · exact h
  · split
    · exact .queueError hs2
    · split
      · exact .queueError hs2
      · exact hs2

theorem State.Canon.headerStore {v m bs} (h : s.Canon) : (s.headerStore v m bs).Canon := by
  unfold State.headerStore
  extract_lets -underBinder
  split
  · exact h
  · split
    · exact h
    · split
      · exact h
      · split
        · exact h
        · exact .mboxAnswer (.ite (.violate h) h)

theorem State.Canon.mboxStore {v m l bs} (h : s.Canon) : (s.mboxStore v m l bs).Canon := .ite (.headerStore h) (.ite h h)

theorem State.Canon.pageStore {v off bs} (h : s.Canon) : (s.pageStore v off bs).2.Canon := by
  unfold State.pageStore
  extract_lets -underBinder
  split
  · exact .ite h h
  · split
    · exact .doorbell h
    · split
      · exact .mboxStore h
      · exact h

theorem State.Canon.fireArms {v n} (h : s.Canon) : (s.fireArms v n).Canon := .foldl h (fun _ _ ht => .updCmd (.settle ht))

theorem State.Canon.setCounter {v n count} (h : s.Canon) : (s.setCounter v n count).Canon := .fireArms h

end Sys2Proof.Machine
end

section
/-! SUPPORT. The operations of Machine/FabricOps keep memory's canonical form. -/

namespace Sys2Proof.Machine
open Sys2Proof

variable {s : State}

theorem State.Canon.answerPkt {p st data hit} (h : s.Canon) : (s.answerPkt p st data hit).Canon := by
  unfold State.answerPkt
  extract_lets -underBinder
  split
  · split
    · exact .enqueue h
    · exact h
  · split
    next u e =>
      have hu : u.Canon := .snd e (.pickPath h)
      exact .emit hu

theorem State.Canon.refusePkt {p st} (h : s.Canon) : (s.refusePkt p st).Canon := .answerPkt h

theorem State.Canon.discard (h : s.Canon) : s.discard.Canon := h

theorem State.Canon.sendOn {p path purpose orig} (h : s.Canon) : (s.sendOn p path purpose orig).Canon := by
  unfold State.sendOn
  extract_lets -underBinder
  split
  · split
    · exact .enqueue h
    · exact h
  · exact .ite (.emit h) h

theorem State.Canon.sendReq {p purpose orig} (h : s.Canon) : (s.sendReq p purpose orig).Canon := by
  unfold State.sendReq
  split
  · exact .sendOn h
  · split
    next u e =>
      have hu : u.Canon := .snd e (.pickPath h)
      exact .sendOn hu

theorem State.Canon.deadFail {dst p mark} (h : s.Canon) : (s.deadFail dst p mark).Canon := .ite (.raise0 (.updPeer (.ite h h))) (.updPeer (.ite h h))

theorem State.Canon.heard {dst} (h : s.Canon) : (s.heard dst).Canon := .ite h h

theorem State.Canon.issue {p} (h : s.Canon) : (s.issue p).Canon :=
  .ite (.refusePkt (.violate h)) (.ite (.refusePkt (.deadFail h)) (.ite h (.ite h (.sendReq h))))

theorem State.Canon.updWindow {w f} (h : s.Canon) : (s.updWindow w f).Canon := h

theorem State.Canon.refuseTarget {p st kind reason} (h : s.Canon) : (s.refuseTarget p st kind reason).Canon := .refusePkt (.ite (.violate h) h)

theorem State.Canon.opFail {p st} (h : s.Canon) : (Machine.opFail s p st).s.Canon := h

theorem State.Canon.regStore {a bs} (h : s.Canon) : (s.regStore a bs).2.Canon := by
  unfold State.regStore
  extract_lets -underBinder
  split
  · exact .mboxStore h
  · split
    · exact .pageStore h
    · exact .setCounter h

theorem State.Canon.perform {p} (h : s.Canon) : (s.perform p).s.Canon := by
  unfold State.perform
  extract_lets -underBinder a line n whole fault
  split
  · exact .opFail h
  · split
    · split
      · exact h
      · exact .setCounter h
      · exact .regStore h
    · clear_value fault
      split
      · exact .opFail (.ite (.dramError h) h)
      · extract_lets -underBinder s1
        have hs1 : s1.Canon := .ite h (.countRead h)
        split
        · exact hs1
        · exact .store hs1
        · exact .store hs1
        · exact .ite (.store hs1) hs1
        · exact .store hs1
        · exact .store hs1
        · exact .store hs1
        · exact hs1
        · exact .opFail hs1

theorem State.Canon.record {p r} (h : s.Canon) : (s.record p r).Canon := .ite h h

theorem State.Canon.toAperture {p e} (h : s.Canon) : (s.toAperture p e).Canon :=
  .ite (.refusePkt (.violate h)) (.ite (.refusePkt (.deadFail h)) (.sendReq (.ite h h)))

theorem State.Canon.performAnswer {p} (h : s.Canon) : (s.performAnswer p).Canon := by
  unfold State.performAnswer
  split
  · exact .toAperture h
  · exact .answerPkt (.ite (.record (.perform h)) (.perform h))

theorem State.Canon.setPolicer {port partner tc x} (h : s.Canon) : (s.setPolicer port partner tc x).Canon := h

theorem State.Canon.ingress {port p} {pass : State → State} (h : s.Canon) (hp : ∀ t, t.Canon → (pass t).Canon) :
    (s.ingress port p pass).Canon := by
  unfold State.ingress
  split
  · exact hp s h
  · exact .ite (.refusePkt (.violate (.consume h))) (.ite h (.ite (hp s h) (.ite (hp _ h) h)))

theorem State.Canon.receiveIn {port p} (h : s.Canon) : (s.receiveIn port p).Canon := by
  unfold State.receiveIn
  extract_lets -underBinder s'
  have hs' : s'.Canon := .heard (.consume h)
  split
  · exact hs'
  · split
    · exact .refusePkt hs'
    · split
      · exact .ite hs' (.ite (.refusePkt (.violate hs')) (.issue hs'))
      · split
        · split
          next u e =>
            have hu : u.Canon := .snd e (.pickPath hs')
            exact .emit hu
        · exact .ite (.answerPkt hs') (.answerPkt hs')
        · split
          · exact hs'
          · split
            · exact .refuseTarget hs'
            · exact .performAnswer hs'

theorem State.Canon.receive {port p} (h : s.Canon) : (s.receive port p).Canon := .ingress h (fun _ ht => .receiveIn ht)

end Sys2Proof.Machine
end

section
/-! SUPPORT. The operations of Machine/JobOps keep memory's canonical form. -/

namespace Sys2Proof.Machine
open Sys2Proof

variable {s : State}

theorem State.Canon.tally {c} (h : s.Canon) : (s.tally c).Canon := h

theorem State.Canon.sample {v c st} (h : s.Canon) : (s.sample v c st).Canon := by
  unfold State.sample
  extract_lets -underBinder
  split
  · exact h
  · exact .ite h (.updVi (.wrWords (.wrWords h)))

theorem State.Canon.notify {v addr tail} (h : s.Canon) : (s.notify v addr tail).Canon := .ite (.wrWords h) (.sendReq h)

theorem State.Canon.chainAbort {k index} (h : s.Canon) : (s.chainAbort k index).Canon := .ite h h

theorem State.Canon.chargeEnd {c} (h : s.Canon) : (s.chargeEnd c).Canon := .ite h (.elim h (fun _ => h))

theorem State.Canon.completeCmd {cid} (h : s.Canon) : (s.completeCmd cid).Canon := by
  unfold State.completeCmd
  split
  · exact h
  · split
    · exact h
    · extract_lets -underBinder u k q entries addr s1 covered s2 s3 c' s4 s5 s6 s7 s8 w work t _ s9 s10 s11 s11'
      have hs1 : s1.Canon := .foldl h (fun _ _ ht => .applyPost ht)
      have hs2 : s2.Canon := .ite hs1 (.ite (.setQueue (.wrWords hs1)) (.queueError hs1))
      have hs4 : s4.Canon := .chargeEnd (.ite (.notify hs2) hs2)
      have hs6 : s6.Canon := .ite hs4 hs4
      have hs7 : s7.Canon := .ite hs6 hs6
      have hs8 : s8.Canon := .ite hs7 hs7
      have hw : w.Canon := .ite (.settle hs8) hs8
      have hs11 : s11.Canon := by
        unfold s11
        split
        · exact .setCounter (.ite hw hw)
        · unfold s10
          exact .ite hw hw
      have hs11' : s11'.Canon := .freeWaiting hs11
      exact .foldl (.ite (.chainAbort hs11') hs11') (fun _ _ ht => .sample ht)

theorem State.Canon.finish {cid st result} (h : s.Canon) : (s.finish cid st result).Canon := h

theorem State.Canon.finishNow {cid st result} (h : s.Canon) : (s.finishNow cid st result).Canon := .completeCmd h

theorem State.Canon.note {cid evs lr lw a b} (h : s.Canon) : (s.note cid evs lr lw a b).Canon := h

end Sys2Proof.Machine
end

section
/-! SUPPORT. The operations of Machine/ReqOps keep memory's canonical form. -/

namespace Sys2Proof.Machine
open Sys2Proof

variable {s : State}

theorem State.Canon.performedVia {p} (h : s.Canon) : (s.performedVia p).Canon := .ite h h

theorem State.Canon.resendOn {key tag path} (h : s.Canon) : (s.resendOn key tag path).Canon := by
  unfold State.resendOn
  split
  · exact h
  · exact .toPort h

theorem State.Canon.markDown {dst path but} (h : s.Canon) : (s.markDown dst path but).Canon := .respray (.pathWatch h)

theorem State.Canon.endSend {m st} (h : s.Canon) : (s.endSend m st).Canon := by
  unfold State.endSend
  split
  · exact h
  · exact h

theorem State.Canon.applyCtrl {src m kind st crc} (h : s.Canon) : (s.applyCtrl src m kind st crc).Canon := by
  unfold State.applyCtrl
  split
  · exact h
  · exact .ite h (.ite (.endSend h) (.endSend h))

theorem State.Canon.sendCtrl {r src m kind st crc} (h : s.Canon) : (s.sendCtrl r src m kind st crc).Canon := .ite (.applyCtrl h) (.emit h)

theorem State.Canon.endMessage {src m r st} (h : s.Canon) : (s.endMessage src m r st).Canon := .sendCtrl (.bookMove (.finishNow (.wrWords h)))

theorem State.Canon.failMessage {src m r st} (h : s.Canon) : (s.failMessage src m r st).Canon := .ite (.raise (.endMessage h)) (.endMessage h)

theorem State.Canon.placePacket {p r} (h : s.Canon) : (s.placePacket p r).2.Canon := by
  unfold State.placePacket
  extract_lets -underBinder off s1
  have hs1 : s1.Canon := .store h
  split
  · exact h
  · split
    · exact .endMessage hs1
    · exact hs1

theorem State.Canon.claimBuffer {p} (h : s.Canon) : (s.claimBuffer p).2.Canon := by
  unfold State.claimBuffer
  extract_lets -underBinder
  split
  · exact h
  · split
    · exact h
    · split
      · exact h
      · split
        · exact h
        · exact .placePacket h

theorem State.Canon.arriveMsg {p fault} (h : s.Canon) : (s.arriveMsg p fault).2.Canon := by
  unfold State.arriveMsg
  split
  · split
    · exact h
    · split
      · split
        · exact .updWindow (.failMessage h)
        · exact .violate h
      · exact .placePacket h
  · split
    · split
      · exact h
      · exact .violate h
    · exact .claimBuffer h

theorem State.Canon.moveFail {cid st} (h : s.Canon) : (s.moveFail cid st).Canon := h

theorem State.Canon.moveEnd {cid total} (h : s.Canon) : (s.moveEnd cid total).Canon := by
  unfold State.moveEnd
  split
  · exact h
  · exact .ite h h

theorem State.Canon.moveSend {cid p off lines writes} (h : s.Canon) : (s.moveSend cid p off lines writes).Canon :=
  .ite (.moveFail (.deadFail h)) (.sendReq h)

theorem State.Canon.moveWrite {cid c off lines data} (h : s.Canon) : (s.moveWrite cid c off lines data).Canon :=
  .ite (.moveSend h) (.ite h (.store h))

theorem State.Canon.moveChunk {cid c off lines} (h : s.Canon) : (s.moveChunk cid c off lines).Canon := by
  unfold State.moveChunk
  extract_lets -underBinder
  split
  · exact .moveSend h
  · split
    · exact .moveFail (.ite (.dramError h) h)
    · exact .moveWrite h

theorem State.Canon.movePump {cid c n} (h : s.Canon) : (Machine.movePump cid c n s).Canon := by
  induction n generalizing s with
  | zero => exact h
  | succ n ih =>
    unfold Machine.movePump
    split
    · exact h
    · extract_lets total k _ s1
      have hs1 : s1.Canon := h
      exact .ite h (ih hs1.moveChunk)

theorem State.Canon.moveOn {cid} (h : s.Canon) : (s.moveOn cid).Canon := by
  unfold State.moveOn
  split
  · exact h
  · exact .moveEnd (.movePump h)

theorem State.Canon.moveAnswer {cid off lines writes st data} (h : s.Canon) : (s.moveAnswer cid off lines writes st data).Canon := by
  unfold State.moveAnswer
  split
  · exact h
  · exact .moveOn (.ite h (.ite h (.moveWrite h)))

theorem State.Canon.messageAnswer {m st} (h : s.Canon) : (s.messageAnswer m st).Canon := .ite h (.endSend h)

theorem State.Canon.answerOrig {q st data hit} (h : s.Canon) : (s.answerOrig q st data hit).Canon :=
  .ite (.answerPkt h) (.answerPkt (.ite (.record (.performedVia h)) (.performedVia h)))

theorem State.Canon.hubDone {what key st} (h : s.Canon) : (s.hubDone what key st).Canon := by
  unfold State.hubDone
  split
  · exact .ite h h
  · split
    · exact .ite h (.ite h h)
    · exact h

theorem State.Canon.completeReq {key tag st data hit} (h : s.Canon) : (s.completeReq key tag st data hit).Canon := by
  unfold State.completeReq
  split
  · exact h
  · extract_lets _ s1
    have hs1 : s1.Canon := h
    split
    · exact .getD_map hs1 (fun _ => .answerOrig hs1)
    · exact .moveAnswer hs1
    · exact .messageAnswer hs1
    · exact .ite hs1 (.pathWatch (.updPeer (.heard hs1)))
    · exact .hubDone hs1

theorem State.Canon.respondReq {key tag st data hit} (h : s.Canon) : (s.respondReq key tag st data hit).Canon := by
  unfold State.respondReq
  split
  · exact h
  · split
    · extract_lets -underBinder
      split
      · exact .resendOn h
      · exact h
    · exact .ite h (.completeReq h)

theorem State.Canon.localMsg {tag} (h : s.Canon) : (s.localMsg tag).Canon := by
  unfold State.localMsg
  split
  · exact h
  · split
    next s1 e =>
      have hs1 : s1.Canon := .snd e (.arriveMsg h)
      exact .respondReq hs1

theorem State.Canon.sendPump {m c n} (h : s.Canon) : (Machine.sendPump m c n s).Canon := by
  induction n generalizing s with
  | zero => exact h
  | succ n ih =>
    unfold Machine.sendPump
    split
    · exact h
    · extract_lets w len k data p _ s1 tag s2
      have hs1 : s1.Canon := h
      have hs2 : s2.Canon := .ite (.localMsg (.sendOn hs1)) (.sendReq hs1)
      exact .ite h (ih hs2)

theorem State.Canon.sendOnward {m} (h : s.Canon) : (s.sendOnward m).Canon := by
  unfold State.sendOnward
  split
  · exact h
  · exact .sendPump h

end Sys2Proof.Machine
end

section
/-! SUPPORT. The operations of Machine/TierOps keep memory's canonical form. -/

namespace Sys2Proof.Machine
open Sys2Proof

variable {s : State}

theorem State.Canon.claimSlot {da vi comp book} (h : s.Canon) : (s.claimSlot da vi comp book).Canon := h

end Sys2Proof.Machine
end

section
/-! SUPPORT. The operations of Machine/ProtOps keep memory's canonical form. -/

namespace Sys2Proof.Machine
open Sys2Proof

variable {s : State}

theorem State.Canon.putParity {da p bytes side} (h : s.Canon) : (s.putParity da p bytes side).Canon := .wrWords (.store (.store h))

theorem State.Canon.claimParity {rid stripe position k m epoch d comp da p t} (h : s.Canon)
    (e : s.claimParity rid stripe position k m epoch d comp = some (da, p, t)) : t.Canon := by
  obtain ⟨_, -, ⟨⟩⟩ := Option.map_eq_some_iff.mp e
  exact .update (.claimSlot h)

theorem State.Canon.addWrite {w} (h : s.Canon) : (s.addWrite w).Canon := h

theorem State.Canon.putRows {cid rid l m b n r} (h : s.Canon) : (s.putRows cid rid l m b n r).Canon := .ite h (.foldl h (fun _ _ ht => ht))

theorem State.Canon.sendDeltas {who cid da new bytes} (h : s.Canon) : (s.sendDeltas who cid da new bytes).Canon := by
  unfold State.sendDeltas
  extract_lets _ s0
  have hs0 : s0.Canon := h
  split
  · extract_lets epoch m
    split
    · extract_lets
      exact .ite hs0 (.foldl (.addWrite hs0) (fun _ _ ht => .tell ht))
    · exact hs0
  · exact hs0

end Sys2Proof.Machine
end

section
/-! SUPPORT. The operations of Machine/KvCmds keep memory's canonical form. -/

namespace Sys2Proof.Machine
open Sys2Proof

variable {s : State}

theorem State.Canon.claimBlock {rid l m b repr kv vv r} (h : s.Canon) : (s.claimBlock rid l m b repr kv vv r).2.Canon := by
  unfold State.claimBlock
  extract_lets -underBinder
  split
  · exact h
  · split
    · exact h
    · exact .descRefs (.setMapEntry (.setDesc h))

theorem State.Canon.claimRuns {rid l m repr kv vv r rs n n' t} (h : s.Canon)
    (e : Machine.claimRuns rid l m repr kv vv r rs n s = .ok (n', t)) : t.Canon := by
  induction rs generalizing n s with
  | nil =>
    cases e
    exact h
  | cons x rs ih =>
    unfold Machine.claimRuns at e
    split at e
    · exact ih h e
    · split at e
      next s1 e1 => exact ih (.snd e1 h.claimBlock) e
      next => cases e

theorem State.Canon.writeRun {cid rid ctx l m kSrc vSrc first sample r run} (h : s.Canon) :
    (s.writeRun cid rid ctx l m kSrc vSrc first sample r run).Canon := .updCmd (.foldl h (fun _ _ ht => .foldl ht (fun _ _ ht => .store ht)))

theorem State.Canon.execEncodeKv {cid} (h : s.Canon) : Out.Canon (Machine.execEncodeKv cid s) := by
  unfold Machine.execEncodeKv
  refine .next (.whenLive h (fun _ => ?_))
  split
  · exact h
  · extract_lets -underBinder
    split
    · exact h
    · extract_lets -underBinder
      split
      · exact h
      · split
        · exact h
        · extract_lets -underBinder
          split
          · exact h
          next s1 e =>
            have hs1 : s1.Canon := .claimRuns h e
            exact .finish (.note (.foldl hs1 (fun _ _ ht => .writeRun ht)))

theorem State.Canon.recodeList {cid vi want toCurrent mine das n st ready posts conv} (h : s.Canon) :
    (s.recodeList cid vi want toCurrent mine das n st ready posts conv).2.2.2.2.2.Canon := by
  induction das generalizing s n st ready posts conv with
  | nil => exact h
  | cons da das ih =>
    unfold State.recodeList
    split
    · exact ih (.violate h)
    · split
      · exact ih h
      · exact ih (.ite (.descFail h) (.ite (.planeFail h) h))
      · exact ih (.ite (.setDesc h) h)

theorem State.Canon.recodeDeltas {cid das posts} (h : s.Canon) : (s.recodeDeltas cid das posts).Canon := .foldl h (fun _ _ ht => .sendDeltas ht)

theorem State.Canon.execRecodeBlocks {cid} (h : s.Canon) : Out.Canon (Machine.execRecodeBlocks cid s) := by
  unfold Machine.execRecodeBlocks
  refine .next (.whenLive h (fun _ => ?_))
  split
  · exact h
  · exact .ite (.updCmd (.recodeList h)) (.ite (.updCmd (.recodeDeltas (.recodeList h))) (.ite (.recodeList h) (.finish (.note (.updCmd
    (.recodeList h))))))

theorem State.Canon.copyBlock {rid r src} (h : s.Canon) : (s.copyBlock rid r src).2.Canon := by
  unfold State.copyBlock
  extract_lets -underBinder
  split
  · exact h
  · split
    · exact .descFail h
    · split
      · exact h
      · split
        · exact .planeFail h
        · split
          · exact h
          · split
            · exact h
            · exact .descRefs (.setMapEntry (.setDesc (.store h)))

theorem State.Canon.copyBlocks {rid r das n} (h : s.Canon) : (Machine.copyBlocks rid r das n s).2.2.Canon := by
  induction das generalizing s n with
  | nil => exact h
  | cons da das ih =>
    unfold Machine.copyBlocks
    split
    next s1 e => exact ih (.snd e h.copyBlock)
    next st s1 _ e => exact .snd e h.copyBlock

theorem State.Canon.execMoveBlocks {cid src} (h : s.Canon) : Out.Canon (Machine.execMoveBlocks cid src s) := by
  unfold Machine.execMoveBlocks
  refine .next (.whenLive h (fun _ => ?_))
  split
  · exact h
  · split
    · exact h
    · exact .finish (.note (.copyBlocks h))

end Sys2Proof.Machine
end

section
/-! SUPPORT. The operations of Machine/Calib keep memory's canonical form. -/

namespace Sys2Proof.Machine
open Sys2Proof

variable {s : State}

theorem State.Canon.publishTo {ctx e slot ver m obj} (h : s.Canon) : (s.publishTo ctx e slot ver m obj).Canon :=
  .tell (.foldl h (fun _ _ ht => .sendReq ht))

theorem State.Canon.fillSlot {ctx e slot ver st obj} (h : s.Canon) : (s.fillSlot ctx e slot ver st obj).Canon := .setCbSet (.wr (.wr h))

theorem State.Canon.switchTo {ctx e slot ver m time} (h : s.Canon) : (s.switchTo ctx e slot ver m time).Canon := .ite (.setCbSet h) h

theorem State.Canon.settlePub {ctx comp x ver} (h : s.Canon) : (s.settlePub ctx comp x ver).Canon := by
  unfold State.settlePub
  split
  · exact h
  · extract_lets t _ s1 s2
    have hs1 : s1.Canon := h
    have hs2 : s2.Canon := .foldl hs1 (fun _ _ hu => .switchTo hu)
    exact .ite h (.getD_map hs2 (fun _ => .finishOp hs2))

theorem State.Canon.publishSet {ctx e ver obj op} (h : s.Canon) : (s.publishSet ctx e ver obj op).Canon := by
  unfold State.publishSet
  extract_lets -underBinder
  split
  · exact h
  · exact .settlePub (.foldl (.update (.fillSlot h)) (fun _ _ ht => .publishTo ht))

theorem State.Canon.execPublish {m e slot ver addr crc comp} (h : s.Canon) : Out.Canon (Machine.execPublish m e slot ver addr crc comp s) := by
  unfold Machine.execPublish
  refine .next (.whenLive h (fun _ => ?_))
  split
  · exact h
  · split
    · exact h
    · exact .ite (.tell (.fillSlot h)) (.tell (.raise0 h))

theorem State.Canon.execPublishAnswer {m e slot ver status} (h : s.Canon) : Out.Canon (Machine.execPublishAnswer m e slot ver status s) := by
  unfold Machine.execPublishAnswer
  refine .next (.whenLive h (fun _ => ?_))
  split
  · exact h
  · split
    · exact h
    · extract_lets -underBinder
      split
      · exact h
      · split
        · exact h
        · split
          · exact h
          · exact .ite (.ite (.switchTo h) (.settlePub h)) (.ite (.settlePub h) (.ite (.publishTo h) (.settlePub h)))

theorem State.Canon.execCbSwitch {m e slot ver time} (h : s.Canon) : Out.Canon (Machine.execCbSwitch m e slot ver time s) := by
  unfold Machine.execCbSwitch
  refine .next (.whenLive h (fun _ => ?_))
  split
  · exact h
  · split
    · exact h
    · exact .ite (.switchTo h) h

theorem State.Canon.openWindow {ctx e slot} (h : s.Canon) : (s.openWindow ctx e slot).Canon := .wrWords h

theorem State.Canon.execSwitchTime {ctx e} (h : s.Canon) : Out.Canon (Machine.execSwitchTime ctx e s) :=
  .next (.whenLive h (fun _ => .ite h (.raise0 (.update (.openWindow (.setCbSet h))))))

theorem State.Canon.dropSlot {ctx e ver} (h : s.Canon) : (s.dropSlot ctx e ver).Canon := by
  unfold State.dropSlot
  split
  · exact h
  · exact .update (.setCbSet h)

theorem State.Canon.refsRegrown {comp x ver member n} (h : s.Canon) : (s.refsRegrown comp x ver member n).Canon := by
  unfold State.refsRegrown
  refine .foldlSnd h (fun _ _ hp => ?_)
  split
  exact .iteSnd hp (.update hp)

theorem State.Canon.reportRefs {ctx member es} (h : s.Canon) : (s.reportRefs ctx member es).Canon :=
  .foldl (.foldl h (fun _ _ ht => .refsRegrown ht)) (fun _ _ ht => .ite (.raise0 (.dropSlot (.foldl ht (fun _ _ ht => ht)))) ht)

theorem State.Canon.execRefReport {m es} (h : s.Canon) : Out.Canon (Machine.execRefReport m es s) := by
  unfold Machine.execRefReport
  refine .next (.whenLive h (fun _ => ?_))
  split
  · exact h
  · split
    · exact h
    · exact .reportRefs h

theorem State.Canon.execRetire {m e ver} (h : s.Canon) : Out.Canon (Machine.execRetire m e ver s) := by
  unfold Machine.execRetire
  refine .next (.whenLive h (fun _ => ?_))
  split
  · exact h
  · split
    · exact h
    · exact .ite h (.dropSlot h)

theorem State.Canon.closeWindow {ctx x} (h : s.Canon) : (s.closeWindow ctx x).Canon := by
  unfold State.closeWindow
  refine .ite h (.openWindow ?_)
  split
  · exact .update h
  · exact .ite (.update (.raise0 (.setCbSet (.update h)))) (.tell (.update (.raise0 (.setCbSet (.update h)))))

theorem State.Canon.execDriftWindowClose {ctx} (h : s.Canon) : Out.Canon (Machine.execDriftWindowClose ctx s) := by
  unfold Machine.execDriftWindowClose
  exact .next (.whenLive h (fun _ => .ite h (.ite (.ite (.foldl h (fun _ _ ht => .closeWindow ht)) (.tell (.foldl h
    (fun _ _ ht => .closeWindow ht)))) (.foldl (.reportRefs (.foldl h (fun _ _ ht => .closeWindow ht))) (fun t x ht => .foldl ht
      (fun _ _ ht => .publishTo ht))))))

theorem State.Canon.execSpawnStart {comp e members} (h : s.Canon) : Out.Canon (Machine.execSpawnStart comp e members s) := by
  unfold Machine.execSpawnStart
  refine .next (.whenLive h (fun _ => ?_))
  split
  · exact h
  · exact .ite h (.ite (.raise0 (.addStat h)) (.addStat h))

theorem State.Canon.execSpawnPassDone {comp e} (h : s.Canon) : Out.Canon (Machine.execSpawnPassDone comp e s) := by
  unfold Machine.execSpawnPassDone
  refine .next (.whenLive h (fun _ => ?_))
  split
  · exact h
  · exact .ite h h

theorem State.Canon.execSpawnEnd {comp e} (h : s.Canon) : Out.Canon (Machine.execSpawnEnd comp e s) := by
  unfold Machine.execSpawnEnd
  refine .next (.whenLive h (fun _ => ?_))
  split
  · exact .ite h (.raise0 (.ite h (.publishSet h)))
  · exact h

theorem State.Canon.moltCount {da f} (h : s.Canon) : (s.moltCount da f).Canon := by
  unfold State.moltCount
  split
  · exact h
  · exact h

theorem State.Canon.moltDone (h : s.Canon) : s.moltDone.Canon := .foldl h (fun _ _ ht => .ite ht (.raise0 ht))

theorem State.Canon.execMoltPace (h : s.Canon) : Out.Canon (Machine.execMoltPace s) := by
  unfold Machine.execMoltPace
  refine .next (.whenLive h (fun _ => ?_))
  split
  · exact .moltDone h
  · extract_lets rate _ s1 _ later
    have hs1 : s1.Canon := h
    have hlater : later.Canon := h
    refine .ite h ?_
    split
    · exact hs1
    · exact hlater
    · exact .planeFail hs1
    · exact .descFail hlater
    · exact hlater
    · exact .ite hlater (.ite (.ite hlater (.sendDeltas hs1)) (.update (.moltDone (.moltCount (.foldl hs1 (fun _ _ ht => .applyPost ht))))))

theorem State.Canon.execMoltRetryTimer {da} (h : s.Canon) : Out.Canon (Machine.execMoltRetryTimer da s) := by
  unfold Machine.execMoltRetryTimer
  refine .next (.whenLive h (fun _ => ?_))
  split
  · exact .ite h h
  · exact h

theorem State.Canon.evict {n die need} (h : s.Canon) : (Machine.evict n die need s).Canon := by
  induction n generalizing s with
  | zero => exact h
  | succ n ih =>
    unfold Machine.evict
    refine .ite h ?_
    split
    · exact h
    · exact ih (.update h)

theorem State.Canon.execCodebookFill {die ctx e ver fetched src} (h : s.Canon) :
    Out.Canon (Machine.execCodebookFill die ctx e ver fetched src s) := by
  unfold Machine.execCodebookFill
  refine .next (.whenLive h (fun _ => ?_))
  split
  · exact h
  · split
    · exact h
    · extract_lets -underBinder k obj fill s1
      have hs1 : s1.Canon := .raise0 h
      split
      · exact .ite (.evict h) (.evict h)
      · split
        · exact .ite (.ite (.evict (.wr hs1)) (.evict (.wr hs1))) hs1
        · exact hs1

theorem State.Canon.execCodebookFillTimeout {cid} (h : s.Canon) : Out.Canon (Machine.execCodebookFillTimeout cid s) := by
  unfold Machine.execCodebookFillTimeout
  refine .next (.whenLive h (fun _ => ?_))
  split
  · exact h
  · exact .ite h h

theorem State.Canon.execCalibrationSuccession {comp lost dirs} (h : s.Canon) : Out.Canon (Machine.execCalibrationSuccession comp lost dirs s) := by
  unfold Machine.execCalibrationSuccession
  refine .next (.whenLive h (fun _ => ?_))
  split
  · exact h
  · split
    · exact h
    · extract_lets -underBinder
      refine .foldl h (fun t x ht => ?_)
      extract_lets -underBinder all cands best live stale _ t1 t2
      have ht2 : t2.Canon := by
        unfold t2
        refine .foldl ht (fun _ _ ht' => ?_)
        split
        · exact .switchTo ht'
        · exact ht'
      exact .foldl ht2 (fun t x ht => .foldl (.dropSlot ht) (fun _ _ ht => ht))

end Sys2Proof.Machine
end

section
/-! SUPPORT. The operations of Machine/Pulls keep memory's canonical form. -/

namespace Sys2Proof.Machine
open Sys2Proof

variable {s : State}

theorem State.Canon.askCopy {rid l m b p} (h : s.Canon) : (s.askCopy rid l m b p).Canon := by
  unfold State.askCopy
  split
  · exact h
  · exact h

theorem State.Canon.setPull {k p} (h : s.Canon) : (s.setPull k p).Canon := h

theorem State.Canon.startPull {rid l m b cid codeOnly len source} (h : s.Canon) : (s.startPull rid l m b cid codeOnly len source).2.Canon := by
  unfold State.startPull
  split
  · exact h
  · split
    · exact h
    · extract_lets -underBinder
      split
      · exact h
      · split
        · exact h
        · exact .askCopy (.setPull (.update (.setDesc h)))

theorem State.Canon.failRead {rid st} (h : s.Canon) : (s.failRead rid st).Canon := by
  unfold State.failRead
  extract_lets -underBinder
  split
  · exact .ite (.failReq h) h
  · exact h

theorem State.Canon.dropClaim {da} (h : s.Canon) : (s.dropClaim da).Canon := .bookSlot (.setDesc h)

theorem State.Canon.nextCopy {rid l m b late missing} (h : s.Canon) : (s.nextCopy rid l m b late missing).Canon := by
  unfold State.nextCopy
  split
  · exact h
  · exact .ite (.askCopy h) (.getD_map (.failRead (.dropClaim h)) (fun _ => .finish (.failRead (.dropClaim h))))

theorem State.Canon.takeVersion {ctx x ver objs t} (h : s.Canon) (e : s.takeVersion ctx x ver objs = some t) : t.Canon := by
  unfold State.takeVersion at e
  extract_lets -underBinder at e
  split at e
  · cases e
    exact h
  · split at e
    · cases e
      exact .fillSlot h
    · cases e

theorem State.Canon.pullDone {cid} (h : s.Canon) : (s.pullDone cid).Canon := by
  unfold State.pullDone
  extract_lets -underBinder
  split
  · exact h
  · exact .ite h h

theorem State.Canon.meter {comp f} (h : s.Canon) : (s.meter comp f).Canon := h

theorem State.Canon.execPullBlockArrival {rid l m b desc planes objs} (h : s.Canon) :
    Out.Canon (Machine.execPullBlockArrival rid l m b desc planes objs s) := by
  unfold Machine.execPullBlockArrival
  refine .next (.whenLive h (fun _ => ?_))
  split
  · extract_lets +onlyGivenNames d dd
    refine .ite h (.ite (.nextCopy h) ?_)
    extract_lets -underBinder repr slot nd s1
    have hs1 : s1.Canon := .store h
    split
    · exact .nextCopy (.raise0 h)
    · extract_lets -underBinder f ek ev got
      have hgot {t : State} (e : got = some t) : t.Canon := by
        unfold got at e
        split at e
        · cases e
          exact hs1
        · obtain ⟨u, e1, e2⟩ := Option.bind_eq_some_iff.mp e
          exact .takeVersion (.takeVersion hs1 e1) e2
      clear_value got
      split
      · exact .nextCopy h
      next s2 =>
        have hs2 : s2.Canon := hgot rfl
        extract_lets s3 _ _ s4 s5 s6
        have hs3 : s3.Canon := .bookSlot (.setMapEntry (.setDesc hs2))
        have hs4 : s4.Canon := .update hs3
        have hs5 : s5.Canon := .meter (.descRefs hs4)
        have hs6 : s6.Canon := by
          unfold s6
          split
          · exact .tell (.transitIn hs5)
          · exact hs5
        exact .getD_map hs6 (fun _ => .pullDone hs6)
  · split
    · exact .freeOrWait h
    · exact h

theorem State.Canon.execPullArriveDeadline {rid l m b} (h : s.Canon) : Out.Canon (Machine.execPullArriveDeadline rid l m b s) := by
  unfold Machine.execPullArriveDeadline
  refine .next (.whenLive h (fun _ => ?_))
  split
  · exact .ite h (.nextCopy h)
  · exact h

theorem State.Canon.execPullBlocks {cid} (h : s.Canon) : Out.Canon (Machine.execPullBlocks cid s) := by
  unfold Machine.execPullBlocks
  refine .next (.whenLive h (fun _ => ?_))
  split
  · exact h
  · refine .ite h ?_
    extract_lets -underBinder
    split
    · exact .finish h
    · extract_lets -underBinder
      split
      next ok s1 e =>
        have hs1 : s1.Canon := .snd e (.foldlSnd h (fun _ _ hp => .startPull hp))
        exact .ite hs1 (.finish hs1)

theorem State.Canon.startMigration {da tier promotion codeOnly t} (h : s.Canon)
    (e : s.startMigration da tier promotion codeOnly = some t) : t.Canon := by
  unfold State.startMigration at e
  extract_lets -underBinder at e
  split at e
  · cases e
  · split at e
    · split at e
      · cases e
      · cases e
        exact .update (.setDesc (.claimSlot h))
    · cases e

end Sys2Proof.Machine
end

section
/-! SUPPORT. The operations of Machine/Stream keep memory's canonical form. -/

namespace Sys2Proof.Machine
open Sys2Proof

variable {s : State}

theorem State.Canon.setRing {r t} (h : s.Canon) : (s.setRing r t).Canon := .wrWords h

theorem State.Canon.enterIds {r log2 first ids} (h : s.Canon) : (s.enterIds r log2 first ids).Canon := .foldl h (fun _ _ ht => .wrWords ht)

theorem State.Canon.execRingOpen {cid} (h : s.Canon) : Out.Canon (Machine.execRingOpen cid s) := by
  unfold Machine.execRingOpen
  refine .next (.whenLive h (fun _ => ?_))
  split
  · exact h
  · extract_lets -underBinder
    split
    · exact .finish (.update (.wrWords (.setRing h)))
    · exact h

theorem State.Canon.maybeDone {rid} (h : s.Canon) : (s.maybeDone rid).Canon := by
  unfold State.maybeDone
  split
  · exact h
  · exact .ite h h

theorem State.Canon.stopped {rid r} (h : s.Canon) : (s.stopped rid r).Canon := by
  unfold State.stopped
  split
  · exact .ite (.commitEntry h) h
  · exact h

theorem State.Canon.freeAll {rid} (h : s.Canon) : (s.freeAll rid).Canon :=
  .update (.foldl (.foldl h (fun _ _ ht => .freeOrWait ht)) (fun _ _ ht => .update (.bookSlot (.wrWords ht))))

theorem State.Canon.execRingClose {cid held} (h : s.Canon) : Out.Canon (Machine.execRingClose cid held s) := by
  unfold Machine.execRingClose
  refine .next (.whenLive h (fun _ => ?_))
  split
  · exact h
  · extract_lets -underBinder
    split
    · exact h
    · exact .finish (.update (.freeReq (.ite (.setRing h) (.freeAll (.freeBlocks (.setRing h))))))

theorem State.Canon.commitRows {rid r c} (h : s.Canon) : (s.commitRows rid r c).Canon := by
  unfold State.commitRows
  exact .updReq (.foldl h (fun _ _ ht => .ite ht (.dropTees (.setDesc (.ite (.ite (.bookSlot (.sealTees (.sealRows ht))) (.sealTees
    (.sealRows ht))) ht)))))

theorem State.Canon.copyOnce {rid r old} (h : s.Canon) : (s.copyOnce rid r old).Canon := by
  unfold State.copyOnce
  split
  · exact h
  · refine .foldl h (fun _ _ ht => ?_)
    extract_lets -underBinder
    split
    · split
      · exact ht
      · exact ht
    · exact ht

theorem State.Canon.markProtected {rid} (h : s.Canon) : (s.markProtected rid).Canon := by
  unfold State.markProtected
  split
  · exact h
  · split
    · exact h
    · split
      · exact .ite (.commitEntry h) h
      · exact h

theorem State.Canon.tokensOut {rid t n} (h : s.Canon) : (s.tokensOut rid t n).Canon := by
  unfold State.tokensOut
  split
  · exact .ite h h
  · exact h

theorem State.Canon.completeCommit {cid x} (h : s.Canon) : (s.completeCommit cid x).Canon := by
  unfold State.completeCommit
  extract_lets -underBinder
  split
  · exact .finishNow h
  · extract_lets -underBinder t s1 n t1 t2 t3 s2 s3 _ s4 s5 s6
    have hs2 : s2.Canon := .setRing (.enterIds (.copyOnce (.commitRows h)))
    have hs3 : s3.Canon := .tokensOut (.bookNew hs2)
    have hs4 : s4.Canon := .update hs3
    have hs5 : s5.Canon := .foldl hs4 (fun _ _ ht => .tell ht)
    have hs6 : s6.Canon := .ite hs5 (.stopped hs5)
    exact .ite (.finishNow h) (.markProtected (.maybeDone (.finishNow (.note hs6))))

theorem State.Canon.commitOn {cid} (h : s.Canon) : (s.commitOn cid).Canon := by
  unfold State.commitOn
  split
  · exact h
  · exact .ite h (.completeCommit h)

theorem State.Canon.execCommit {cid} (h : s.Canon) : Out.Canon (Machine.execCommit cid s) := by
  unfold Machine.execCommit
  refine .next (.whenLive h (fun _ => ?_))
  split
  · exact h
  · split
    · exact .commitOn h
    · extract_lets -underBinder
      split
      · exact h
      · extract_lets -underBinder
        split
        · exact h
        · split
          · exact h
          · split
            · exact h
            · split
              · exact h
              · split
                · exact h
                · split
                  · exact .finish (.planeFail h)
                  · extract_lets -underBinder live prot x _ s1 s2
                    have hs2 : s2.Canon := .ite h (.foldl h (fun _ _ ht => ht))
                    exact .ite (.finish (.failRead h)) (.commitOn (.ite (.foldl hs2 (fun _ _ ht => .ite (.putRows ht) ht)) hs2))

theorem State.Canon.execTokenAck {m first n} (h : s.Canon) : Out.Canon (Machine.execTokenAck m first n s) := by
  unfold Machine.execTokenAck
  refine .next (.whenLive h (fun _ => ?_))
  split
  · exact h
  · exact .ite h (.maybeDone (.foldl (.tokensOut (.bookEnd (.setRing h))) (fun _ _ ht => .commitOn ht)))

theorem State.Canon.execTokenAckTimeout {cid bridge} (h : s.Canon) : Out.Canon (Machine.execTokenAckTimeout cid bridge s) := by
  unfold Machine.execTokenAckTimeout
  refine .next (.whenLive h (fun _ => ?_))
  split
  · exact h
  · split
    · exact h
    · extract_lets -underBinder
      split
      · exact h
      · exact .ite (.finish (.failRead h)) (.commitOn h)

theorem State.Canon.setBridge {rid b} (h : s.Canon) : (s.setBridge rid b).Canon := h

theorem State.Canon.hostLine {vi a flag ws key} (h : s.Canon) : (s.hostLine vi a flag ws key).Canon := by
  unfold State.hostLine
  split
  · exact h
  · exact .sendReq h

theorem State.Canon.tokenRecord {rid b reason n status ids} (h : s.Canon) : (s.tokenRecord rid b reason n status ids).2.Canon := by
  unfold State.tokenRecord
  split
  · exact h
  · extract_lets -underBinder
    split
    · exact h
    · exact (.hostLine (.hostLine h))

theorem State.Canon.pumpBridge {rid flush n} (h : s.Canon) : (Machine.pumpBridge rid flush n s).Canon := by
  induction n generalizing s with
  | zero => exact h
  | succ n ih =>
    unfold Machine.pumpBridge
    split
    · exact h
    · refine .ite h ?_
      extract_lets -underBinder
      refine .ite h ?_
      extract_lets -underBinder
      split
      next e => exact .snd e h.tokenRecord
      next e => exact ih (.setBridge (.snd e h.tokenRecord))

theorem State.Canon.pump {rid flush} (h : s.Canon) : (s.pump rid flush).Canon := .pumpBridge h

theorem State.Canon.finalIds {src rid b tok stopPos reason len time} (h : s.Canon) : (s.finalIds src rid b tok stopPos reason len time).Canon :=
  .ite h (.pump (.setBridge (.ite (.transitIn (.ite h h)) (.ite h h))))

theorem State.Canon.execTokenPush {m first ids} (h : s.Canon) : Out.Canon (Machine.execTokenPush m first ids s) := by
  unfold Machine.execTokenPush
  refine .next (.whenLive h (fun _ => ?_))
  split
  · exact h
  · split
    · exact h
    · extract_lets -underBinder
      split
      · exact .finalIds h
      · exact h

theorem State.Canon.execTokenCommit {m tokCount stopPos reason seq len time} (h : s.Canon) :
    Out.Canon (Machine.execTokenCommit m tokCount stopPos reason seq len time s) := by
  unfold Machine.execTokenCommit
  refine .next (.whenLive h (fun _ => ?_))
  split
  · exact h
  · exact .ite h (.finalIds h)

theorem State.Canon.execStreamFlushTimer {req} (h : s.Canon) : Out.Canon (Machine.execStreamFlushTimer req s) := by
  unfold Machine.execStreamFlushTimer
  refine .next (.whenLive h (fun _ => ?_))
  split
  · exact h
  · extract_lets -underBinder flush s1
    have hs1 : s1.Canon := .ite (.pump h) h
    split
    · split
      · exact hs1
      · extract_lets -underBinder
        split
        next t e =>
          have ht : t.Canon := .snd e (.tokenRecord (.pump hs1))
          exact .ite ht ht
    · exact hs1

theorem State.Canon.execStreamBlockedTimer {vi stream} (h : s.Canon) : Out.Canon (Machine.execStreamBlockedTimer vi stream s) := by
  unfold Machine.execStreamBlockedTimer
  refine .next (.whenLive h (fun _ => ?_))
  split
  · exact h
  · exact .ite h (.raise h)

theorem State.Canon.execBridgeTakeover {lost totals tails} (h : s.Canon) : Out.Canon (Machine.execBridgeTakeover lost totals tails s) := by
  unfold Machine.execBridgeTakeover
  refine .next (.whenLive h (fun _ => ?_))
  extract_lets -underBinder mine total s1 s2
  have hs2 : s2.Canon := by
    unfold s2
    refine .foldl (.foldl h (fun _ _ ht => ht)) (fun t x ht => ?_)
    split
    · exact ht
    · exact ht
  exact .ite h (.raise0 (.foldl hs2 (fun _ _ ht => .pump ht)))

theorem State.Canon.detach {rid} (h : s.Canon) : (s.detach rid).Canon := by
  unfold State.detach
  split
  · exact h
  · exact .ite h h

theorem State.Canon.execStreamDone {m tokCount delivered cancelled reason digest} (h : s.Canon) :
    Out.Canon (Machine.execStreamDone m tokCount delivered cancelled reason digest s) := by
  unfold Machine.execStreamDone
  refine .next (.whenLive h (fun _ => ?_))
  refine .atHome h (fun _ => ?_)
  split
  · exact h
  · split
    · exact h
    · extract_lets -underBinder s1
      have hs1 : s1.Canon := .detach h
      split
      · exact hs1
      · split
        next s2'' e' =>
          have hs2'' : s2''.Canon := .snd e' (.newReceipt hs1)
          extract_lets -underBinder s3
          have hs3 : s3.Canon := .bookReq (.commitEntry hs2'')
          split
          · exact .ite (.tokenRecord (.pump hs3)) hs3
          · exact hs3

theorem State.Canon.execPrefixRetentionExpiry {handle} (h : s.Canon) : Out.Canon (Machine.execPrefixRetentionExpiry handle s) := by
  unfold Machine.execPrefixRetentionExpiry
  refine .next (.whenLive h (fun _ => ?_))
  split
  · exact h
  · exact .ite h h

theorem State.Canon.execPrefixBlocksFree {handle} (h : s.Canon) : Out.Canon (Machine.execPrefixBlocksFree handle s) := by
  unfold Machine.execPrefixBlocksFree
  refine .next (.whenLive h (fun _ => ?_))
  split
  · exact .ite h (.freeAll h)
  · exact .ite h (.freeAll h)

end Sys2Proof.Machine
end

section
/-! SUPPORT. The operations of Machine/Prot keep memory's canonical form. -/

namespace Sys2Proof.Machine
open Sys2Proof

variable {s : State}

theorem State.Canon.scatter {slot rs bs} (h : s.Canon) : (s.scatter slot rs bs).Canon := by
  induction rs generalizing s bs with
  | nil => exact h
  | cons r rs ih => exact ih (.store h)

theorem State.Canon.copySlot {m l hd b comp repr kVer vVer da t} (h : s.Canon)
    (e : s.copySlot m l hd b comp repr kVer vVer = some (da, t)) : t.Canon := by
  unfold State.copySlot at e
  split at e
  · cases e
    exact h
  · split at e
    · cases e
    · extract_lets -underBinder at e
      split at e
      split at e
      · cases e
      · split at e
        · cases e
        · cases e
          exact .update (.descRefs (.setDesc (.claimSlot h)))

theorem State.Canon.execRowPut {m layer head block first n comp repr kVer vVer rows} (h : s.Canon) :
    Out.Canon (Machine.execRowPut m layer head block first n comp repr kVer vVer rows s) := by
  unfold Machine.execRowPut
  refine .next (.whenLive h (fun _ => .ite h ?_))
  split
  · exact h
  next da s1 e =>
    have hs1 : s1.Canon := .copySlot h e
    extract_lets -underBinder d dd ranges t u s2 e' s3
    have ht : t.Canon := .setDesc (.scatter hs1)
    have hu : u.Canon := .sealRows ht
    have hs2 : s2.Canon := .ite hs1 (.ite (.bookSlot hu) hu)
    have hs3 : s3.Canon := .tell hs2
    split
    · refine .ite ?_ hs3
      split
      · exact .tell hs3
      · exact hs3
    · exact hs3

theorem State.Canon.settleWrites (h : s.Canon) : s.settleWrites.Canon :=
  .foldl h (fun _ _ ht => .markProtected (.getD_map ht (fun _ => .commitOn ht)))

theorem State.Canon.ackWrite {id member} (h : s.Canon) : (s.ackWrite id member).Canon := .settleWrites h

theorem State.Canon.execRowAck {m layer head block count crcA crcB} (h : s.Canon) :
    Out.Canon (Machine.execRowAck m layer head block count crcA crcB s) := by
  unfold Machine.execRowAck
  refine .next (.whenLive h (fun _ => ?_))
  split
  · exact h
  · split
    · exact h
    · extract_lets -underBinder
      split
      · exact .ackWrite h
      · split
        · exact .ite h h
        · exact h

theorem State.Canon.freeCopies {rid stripe} (h : s.Canon) : (s.freeCopies rid stripe).Canon := .foldl h (fun _ _ ht => .freeOrWait ht)

theorem State.Canon.execShardFull {m stripe index crcA crcB comp shards} (h : s.Canon) :
    Out.Canon (Machine.execShardFull m stripe index crcA crcB comp shards s) := by
  unfold Machine.execShardFull
  refine .next (.whenLive h (fun _ => ?_))
  extract_lets -underBinder
  split
  · refine .ite h ?_
    extract_lets -underBinder key _ s1
    have hs1 : s1.Canon := .update h
    refine .ite hs1 ?_
    split
    · exact hs1
    next da p s2 e =>
      have hs2 : s2.Canon := .claimParity hs1 e
      extract_lets -underBinder s3
      have hs3 : s3.Canon := .putParity hs2
      split
      · exact .freeCopies hs3
      · exact .tell (.addWrite hs3)
  · exact h

theorem State.Canon.execParityDelta {m stripe position comp ack delta sidecar} (h : s.Canon) :
    Out.Canon (Machine.execParityDelta m stripe position comp ack delta sidecar s) := by
  unfold Machine.execParityDelta
  refine .next (.whenLive h (fun _ => ?_))
  split
  · exact h
  · split
    · split
      · exact h
      · exact .ackWrite (.ite (.freeCopies h) h)
    · extract_lets -underBinder
      split
      · exact .ite (.tell (.putParity (.wrWords h))) (.tell (.putParity h))
      · split
        · exact h
        · split
          · split
            next t e =>
              have ht : t.Canon := .claimParity h e
              exact .tell (.putParity ht)
            · exact h
          · exact h

theorem State.Canon.needShard {rid stripe position fault} (h : s.Canon) : (s.needShard rid stripe position fault).Canon := .ite h h

theorem State.Canon.execRegrowNeed {m stripe position down comp} (h : s.Canon) :
    Out.Canon (Machine.execRegrowNeed m stripe position down comp s) := by
  unfold Machine.execRegrowNeed
  refine .next (.whenLive h (fun _ => ?_))
  extract_lets -underBinder
  split
  · exact h
  · split
    next s1 e =>
      have hs1 : s1.Canon := .snd e (.faultOf h)
      exact .needShard hs1

theorem State.Canon.execBackgroundRegrow (h : s.Canon) : Out.Canon (Machine.execBackgroundRegrow s) := by
  unfold Machine.execBackgroundRegrow
  refine .next (.whenLive h (fun _ => ?_))
  extract_lets -underBinder s0
  have hs0 : s0.Canon := by
    refine .foldl h (fun _ _ ht => ?_)
    split
    · exact .needShard (.faultOf ht)
    · exact ht
  clear_value s0
  refine .ite hs0 ?_
  split
  · exact hs0
  · split
    extract_lets -underBinder
    split
    split
    · exact hs0
    · extract_lets -underBinder slot
      clear_value slot
      split
      · exact hs0
      · exact .ite hs0 (.update (.ite (.setDesc (.claimSlot hs0)) (.wrWords (.claimSlot hs0))))

theorem State.Canon.execRegrowShardDone {req stripe position shards sidecar} (h : s.Canon) :
    Out.Canon (Machine.execRegrowShardDone req stripe position shards sidecar s) := by
  unfold Machine.execRegrowShardDone
  refine .next (.whenLive h (fun _ => ?_))
  split
  · exact h
  · extract_lets -underBinder comp m dim old count
    have hcount {t : State} {f} (ht : t.Canon) : (count t f).Canon := .update ht
    clear_value old
    split
    · extract_lets -underBinder slot nd s1 s2
      have hs1 : s1.Canon := .descRefs (.bookSlot (.setDesc (.store h)))
      have hs2 : s2.Canon := by
        unfold s2
        split
        · exact .ite hs1 (.freeOrWait hs1)
        · exact hs1
      exact hcount (.update hs2)
    · split
      extract_lets -underBinder p s1
      have hs1 : s1.Canon := .bookSlot (.putParity h)
      exact hcount (.update hs1)
    · extract_lets -underBinder s1 s2
      have hs1 : s1.Canon := .dropClaim h
      have hs2 : s2.Canon := by
        unfold s2
        split
        · exact .ite (.wrWords hs1) (.setDesc hs1)
        · exact hs1
      exact hcount hs2

theorem State.Canon.execStraggleTimer {write} (h : s.Canon) : Out.Canon (Machine.execStraggleTimer write s) := by
  unfold Machine.execStraggleTimer
  refine .next (.whenLive h (fun _ => ?_))
  split
  · exact h
  · exact .ite h (.foldl h (fun _ _ ht => .raise0 ht))

theorem State.Canon.execProtStall {m comp member kind ns} (h : s.Canon) : Out.Canon (Machine.execProtStall m comp member kind ns s) := by
  unfold Machine.execProtStall
  extract_lets -underBinder
  exact .next (.whenLive h (fun _ => .ite h (.sendReq h)))

theorem State.Canon.releaseOn {comp epoch member} (h : s.Canon) : (s.releaseOn comp epoch member).Canon := h

theorem State.Canon.takeDown {comp epoch member} (h : s.Canon) : (s.takeDown comp epoch member).Canon := by
  unfold State.takeDown
  extract_lets -underBinder
  split
  · exact h
  · split
    · extract_lets -underBinder oldDown _ s1 was now_ subst s2 s3 s4
      have hs2 : s2.Canon := by
        unfold s2
        refine .foldl h (fun t x ht => ?_)
        extract_lets -underBinder
        split
        · exact ht
        · split
          · split
            · exact ht
            · exact ht
          · exact ht
      have hs3 : s3.Canon := by
        unfold s3
        refine .foldl hs2 (fun t x ht => ?_)
        refine .foldl ht (fun _ _ ht' => ?_)
        extract_lets -underBinder
        split
        · extract_lets -underBinder
          split
          · exact .ite ht' ht'
          · exact ht'
      have hs4 : s4.Canon := by
        unfold s4
        refine .foldl hs3 (fun _ _ ht => ?_)
        split
        · extract_lets -underBinder
          split
          · exact ht
          · split
            · split
              · exact .ite ht ht
              · exact ht
            · exact ht
      exact .ite (.releaseOn (.settleWrites hs4)) (.settleWrites hs4)

theorem State.Canon.refsLost {comp member} (h : s.Canon) : (s.refsLost comp member).Canon := .ite h h

theorem State.Canon.refsEnded {comp member} (h : s.Canon) : (s.refsEnded comp member).Canon := .ite h h

theorem State.Canon.declareDown {comp member reason} (h : s.Canon) : (s.declareDown comp member reason).Canon :=
  .foldl (.ite (.refsLost h) h) (fun _ _ ht => .ite ht (.raise0 (.takeDown (.faultOf (.foldl ht (fun _ _ ht => ht))))))

theorem State.Canon.execStragglerProbeTimeout {comp member} (h : s.Canon) : Out.Canon (Machine.execStragglerProbeTimeout comp member s) := by
  unfold Machine.execStragglerProbeTimeout
  refine .next (.whenLive h (fun _ => ?_))
  split
  · exact h
  · exact .ite h (.declareDown h)

theorem State.Canon.execMemberDown {m comp member seq reason} (h : s.Canon) : Out.Canon (Machine.execMemberDown m comp member seq reason s) := by
  unfold Machine.execMemberDown
  extract_lets -underBinder
  exact .next (.whenLive h (fun _ => .ite h (.takeDown h)))

theorem State.Canon.execRecoveryDone {kind unit comp} (h : s.Canon) : Out.Canon (Machine.execRecoveryDone kind unit comp s) :=
  .next (.whenLive h (fun _ => .ite h (.raise0 (.ite (.refsEnded h) h))))

theorem State.Canon.execEcEncode {cid remote} (h : s.Canon) : Out.Canon (Machine.execEcEncode cid remote s) := by
  unfold Machine.execEcEncode
  refine .next (.whenLive h (fun _ => ?_))
  split
  · exact h
  · extract_lets -underBinder w
    split
    extract_lets -underBinder src there bytes
    refine .ite (.finish h) ?_
    split
    · exact .finish h
    · extract_lets -underBinder out
      clear_value out
      split
      · exact .finish h
      · exact .finish (.note (.store (.draw (.getD_map (.store h) (fun _ => .store (.store h))))))

theorem State.Canon.execCheck {cid} (h : s.Canon) : Out.Canon (Machine.execCheck cid s) := by
  unfold Machine.execCheck
  refine .next (.whenLive h (fun _ => ?_))
  split
  · exact h
  · extract_lets -underBinder
    split
    · exact h
    · exact .finish (.note (.ite (.store h) h))

end Sys2Proof.Machine
end

section
/-! SUPPORT. The operations of Machine/Admit keep memory's canonical form. -/

namespace Sys2Proof.Machine
open Sys2Proof

variable {s : State}

theorem State.Canon.updAdm {comp f} (h : s.Canon) : (s.updAdm comp f).Canon := h

theorem State.Canon.serveSub {sub vi} (h : s.Canon) : (s.serveSub sub vi).2.Canon := by
  unfold State.serveSub
  extract_lets -underBinder
  split
  extract_lets -underBinder
  split
  next seq s1 e =>
    have hs1 : s1.Canon := .snd e (.iteSnd (.update h) (.draw h))
    extract_lets rid p standby a b s2 s3 s3' s4 dsts
    have hs3 : s3.Canon := .updAdm (.updComp (.setBridge hs1))
    have hs3' : s3'.Canon := .ite hs3 (.transitOut hs3)
    have hs4 : s4.Canon := .ite (.commitEntry hs3') hs3'
    exact .foldl hs4 (fun _ _ ht => .tell ht)

theorem State.Canon.serveHeads {comp n} (h : s.Canon) : (Machine.serveHeads comp n s).Canon := by
  induction n generalizing s with
  | zero => exact h
  | succ n ih =>
    unfold Machine.serveHeads
    split
    · exact h
    · exact .ite h (ih (.finishOp (.bookMove (.serveSub (.telCount (.updAdm h))))))

theorem State.Canon.serveQueues {comp} (h : s.Canon) : (s.serveQueues comp).Canon := .serveHeads h

theorem State.Canon.doRequestSubmit {c sub} (h : s.Canon) : (Machine.doRequestSubmit c sub s).s.Canon := by
  unfold Machine.doRequestSubmit
  split
  · exact h
  · extract_lets -underBinder
    split
    · exact .telCount (.bookNew (.draw h))
    · split
      · exact .telCount (.serveSub (.bookNew h))
      · split
        · exact .updAdm (.telCount (.bookNew h))
        · exact .telCount (.bookNew h)

theorem State.Canon.execAdhRequestSubmit {c sub} (h : s.Canon) : Out.Canon (Machine.execAdhRequestSubmit c sub s) :=
  .next (.adhRun h (fun _ => .doRequestSubmit h))

theorem State.Canon.withdraw {f} (h : s.Canon) : (s.withdraw f).Canon := .foldl h (fun _ _ ht => .foldl ht (fun _ _ ht => .finishOp ht))

theorem State.Canon.doRequestCancel {c tag req} (h : s.Canon) : (Machine.doRequestCancel c tag req s).s.Canon := by
  unfold Machine.doRequestCancel
  extract_lets -underBinder
  split
  · exact .adhOk (.withdraw h)
  · split
    · exact h
    · split
      · exact h
      · split
        · exact h
        · exact h

theorem State.Canon.execAdhRequestCancel {c tag req} (h : s.Canon) : Out.Canon (Machine.execAdhRequestCancel c tag req s) :=
  .next (.adhRun h (fun _ => .doRequestCancel h))

theorem State.Canon.doRequestRead {c req} (h : s.Canon) : (Machine.doRequestRead c req s).s.Canon := by
  unfold Machine.doRequestRead
  split
  · exact h
  · split
    · exact h
    · exact h

theorem State.Canon.execAdhRequestRead {c req} (h : s.Canon) : Out.Canon (Machine.execAdhRequestRead c req s) :=
  .next (.adhRun h (fun _ => .doRequestRead h))

theorem State.Canon.doPrefixKeep {c req retain} (h : s.Canon) : (Machine.doPrefixKeep c req retain s).s.Canon := by
  unfold Machine.doPrefixKeep
  split
  · exact h
  · split
    · exact h
    · split
      · exact h
      · split
        · exact h
        · split
          · exact h
          · exact .adhOk (.commitEntry h)

theorem State.Canon.execAdhPrefixKeep {c req retain} (h : s.Canon) : Out.Canon (Machine.execAdhPrefixKeep c req retain s) :=
  .next (.adhRun h (fun _ => .doPrefixKeep h))

theorem State.Canon.doPrefixRelease {c handle} (h : s.Canon) : (Machine.doPrefixRelease c handle s).s.Canon := by
  unfold Machine.doPrefixRelease
  split
  · exact h
  · split
    · exact h
    · exact h

theorem State.Canon.execAdhPrefixRelease {c handle} (h : s.Canon) : Out.Canon (Machine.execAdhPrefixRelease c handle s) :=
  .next (.adhRun h (fun _ => .doPrefixRelease h))

theorem State.Canon.doStreamConfig {c stream recBase recLog2 tail head flushNs} (h : s.Canon) :
    (Machine.doStreamConfig c stream recBase recLog2 tail head flushNs s).s.Canon := by
  unfold Machine.doStreamConfig
  split
  · exact h
  · split
    · exact h
    · exact h

theorem State.Canon.execAdhStreamConfig {c stream recBase recLog2 tail head flushNs} (h : s.Canon) :
    Out.Canon (Machine.execAdhStreamConfig c stream recBase recLog2 tail head flushNs s) := .next (.adhRun h (fun _ => .doStreamConfig h))

theorem State.Canon.doAdmissionPolicy {comp bridges gReserve waitS waitO} (h : s.Canon) :
    (Machine.doAdmissionPolicy comp bridges gReserve waitS waitO s).s.Canon := by
  unfold Machine.doAdmissionPolicy
  extract_lets -underBinder
  split
  · exact h
  · exact h

theorem State.Canon.execAdhAdmissionPolicy {c comp bridges gReserve waitS waitO} (h : s.Canon) :
    Out.Canon (Machine.execAdhAdmissionPolicy c comp bridges gReserve waitS waitO s) := .next (.adhRun h (fun _ => .doAdmissionPolicy h))

theorem State.Canon.startAtHome {a} (h : s.Canon) : (s.startAtHome a).Canon := by
  unfold State.startAtHome
  split
  · exact .ite h (.bookNew (.commitEntry (.ite h h)))
  · exact .ite h (.bookNew (.commitEntry (.ite h h)))

theorem State.Canon.startAtPrompt {a} (h : s.Canon) : (s.startAtPrompt a).Canon := by
  unfold State.startAtPrompt
  split
  · exact h
  · split
    · exact h
    · extract_lets -underBinder
      split
      next s1 e =>
        have hs1 : s1.Canon := .snd e h
        split
        next s1' e' =>
          have hs1' : s1'.Canon := .snd e' hs1
          extract_lets -underBinder at_ r cells s3 held here find full s4
          have hs3 : s3.Canon := .wr hs1'
          have hs4 : s4.Canon := by
            unfold s4
            split
            · exact hs3
            · refine .foldl hs3 (fun _ _ ht => ?_)
              refine .foldl ht (fun _ _ ht' => ?_)
              split
              · exact .setMapEntry ht'
              · exact ht'
          exact .ite hs4 (.ite hs4 hs4)

theorem State.Canon.execPrefillStart {a} (h : s.Canon) : Out.Canon (Machine.execPrefillStart a s) := by
  unfold Machine.execPrefillStart
  exact .next (.whenLive h (fun _ => .ite (.ite (.setBridge (.ite (.startAtPrompt (.ite (.startAtHome h) h)) (.ite (.startAtHome h) h))) (.ite
    (.startAtPrompt (.ite (.startAtHome h) h)) (.ite (.startAtHome h) h))) (.ite (.ite (.ite (.setBridge (.ite (.startAtPrompt (.ite
      (.startAtHome h) h)) (.ite (.startAtHome h) h))) (.ite (.startAtPrompt (.ite (.startAtHome h) h)) (.ite (.startAtHome h) h))) (.ite
        (.setBridge (.ite (.startAtPrompt (.ite (.startAtHome h) h)) (.ite (.startAtHome h) h))) (.ite (.startAtPrompt (.ite (.startAtHome h) h))
          (.ite (.startAtHome h) h)))) (.ite (.ite (.setBridge (.ite (.startAtPrompt (.ite (.startAtHome h) h)) (.ite (.startAtHome h) h))) (.ite
            (.startAtPrompt (.ite (.startAtHome h) h)) (.ite (.startAtHome h) h))) (.ite (.setBridge (.ite (.startAtPrompt (.ite
              (.startAtHome h) h)) (.ite (.startAtHome h) h))) (.ite (.startAtPrompt (.ite (.startAtHome h) h)) (.ite (.startAtHome h) h)))))))

theorem State.Canon.execCancelArrivalAtHome {req arrival} (h : s.Canon) : Out.Canon (Machine.execCancelArrivalAtHome req arrival s) := by
  unfold Machine.execCancelArrivalAtHome
  refine .next (.whenLive h (fun _ => ?_))
  split
  · exact h
  · split
    · exact h
    · extract_lets -underBinder s1
      have hs1 : s1.Canon := .ite (.abortLeap h) h
      split
      · exact hs1
      · extract_lets -underBinder e2 s2 s3
        have hs3 : s3.Canon := .ite hs1 hs1
        split
        · exact hs3
        · exact hs3

theorem State.Canon.execCancelApply {req arrival} (h : s.Canon) : Out.Canon (Machine.execCancelApply req arrival s) := by
  unfold Machine.execCancelApply
  refine .next (.whenLive h (fun _ => ?_))
  split
  · exact h
  · exact .ite h (.maybeDone (.stopped (.foldl (.bookMove (.setRing h)) (fun _ _ ht => ht))))

theorem State.Canon.execCapacityReport {m comp records dirFree dram sendTime} (h : s.Canon) :
    Out.Canon (Machine.execCapacityReport m comp records dirFree dram sendTime s) := .next (.whenLive h (fun _ => .ite h (.ite h (.serveQueues h))))

theorem State.Canon.execCapacityReportTimer {comp} (h : s.Canon) : Out.Canon (Machine.execCapacityReportTimer comp s) :=
  .next (.whenLive h (fun _ => .ite h (.foldl h (fun _ _ ht => ht))))

theorem State.Canon.execCapacityStaleTimer {comp node} (h : s.Canon) : Out.Canon (Machine.execCapacityStaleTimer comp node s) :=
  .next (.whenLive h (fun _ => .ite h (.raise0 h)))

theorem State.Canon.execBeatBoundary {comp} (h : s.Canon) : Out.Canon (Machine.execBeatBoundary comp s) :=
  .next (.whenLive h (fun _ => .ite h (.serveQueues h)))

end Sys2Proof.Machine
end

section
/-! SUPPORT. The operations of Machine/Ledger keep memory's canonical form. -/

namespace Sys2Proof.Machine
open Sys2Proof

variable {s : State}

theorem State.Canon.rebuild {q scope states} (h : s.Canon) : (s.rebuild q scope states).Canon := .raise0 h

theorem State.Canon.recountBuffers {vi} (h : s.Canon) : (s.recountBuffers vi).Canon := .rebuild h

theorem State.Canon.recountSlots {scope} (h : s.Canon) : (s.recountSlots scope).Canon := by
  unfold State.recountSlots
  split
  · exact h
  · exact .rebuild h

theorem State.Canon.recountRefs {scope} (h : s.Canon) : (s.recountRefs scope).Canon := by
  unfold State.recountRefs
  extract_lets -underBinder ea ver owner
  clear_value owner
  split
  · exact h
  · refine .rebuild ?_
    split
    · exact .setCbSet h
    · exact h

theorem State.Canon.endForBreak {rid} (h : s.Canon) : (s.endForBreak rid).Canon := by
  unfold State.endForBreak
  extract_lets -underBinder s1 _ _ s2
  have hs1 : s1.Canon := by
    unfold s1
    split
    · exact .ite (.failReq h) h
    · exact h
  have hs2 : s2.Canon := .ite (.update hs1) hs1
  split
  · unfold s2
    exact .ite (.update hs1) hs1
  · split
    · unfold s2
      exact .ite (.update hs1) hs1
    · extract_lets -underBinder
      split
      next t e =>
        have ht : t.Canon := .snd e (.tokenRecord (.pump hs2))
        exact .ite ht ht

theorem State.Canon.repairBook {q scope} (h : s.Canon) : (s.repairBook q scope).Canon :=
  .ite (.ite h h) (.ite (.recountBuffers h) (.ite (.recountSlots h) (.ite (.recountRefs h) (.ite h (.ite (.endForBreak h) h)))))

theorem State.Canon.breakTransit {peer q agree} (h : s.Canon) : (s.breakTransit peer q agree).Canon := .ledgerBroken h

theorem State.Canon.execLedgerAudit {counts agree} (h : s.Canon) : Out.Canon (Machine.execLedgerAudit counts agree s) :=
  .next (.whenLive h (fun _ => .ite h (.foldl (.foldl h (fun _ _ ht => .repairBook (.ledgerBroken ht))) (fun _ _ ht => .breakTransit ht))))

theorem State.Canon.execLedgerSync {m entries} (h : s.Canon) : Out.Canon (Machine.execLedgerSync m entries s) :=
  .next (.whenLive h (fun _ => .ite h (.foldl h (fun _ _ ht => .ite (.breakTransit ht) ht))))

theorem State.Canon.execLedgerSyncTimer (h : s.Canon) : Out.Canon (Machine.execLedgerSyncTimer s) :=
  .next (.whenLive h (fun _ => .ite h (.foldl h (fun _ _ ht => ht))))

end Sys2Proof.Machine
end

section
/-! SUPPORT. The operations of Machine/Dies keep memory's canonical form. -/

namespace Sys2Proof.Machine
open Sys2Proof

variable {s : State}

theorem State.Canon.wipeJob {cid} (h : s.Canon) : (s.wipeJob cid).Canon := by
  unfold State.wipeJob
  split
  · exact h
  · exact .ite (.updCmd (.closeJob (.tally (.chargeEnd (.settle h))))) (.account (.account (.updCmd (.closeJob (.tally (.chargeEnd (.settle h)))))))

theorem State.Canon.wipeInst {cls inst} (h : s.Canon) : (s.wipeInst cls inst).Canon := .foldl h (fun _ _ ht => .wipeJob ht)

theorem State.Canon.retireInst {cls i} (h : s.Canon) : (s.retireInst cls i).Canon := .wipeInst h

theorem State.Canon.fenceDie {d} (h : s.Canon) : (s.fenceDie d).Canon :=
  .ite h (.alert (.raise0 (.foldl (.foldl h (fun _ _ ht => .settle ht)) (fun _ _ ht => .retireInst ht))))

end Sys2Proof.Machine
end

section
/-! SUPPORT. The operations of Machine/Power keep memory's canonical form. -/

namespace Sys2Proof.Machine
open Sys2Proof

variable {s : State}

theorem State.Canon.setPower {cause p} (h : s.Canon) : (s.setPower cause p).Canon :=
  .alert (.ite (.throttleEvent (.ite h (.foldl h (fun _ _ ht => .settle ht)))) (.ite h (.foldl h (fun _ _ ht => .settle ht))))

theorem State.Canon.cold {p} : (s.cold p).Canon := rfl

theorem State.Canon.startup : s.startup.Canon := .cold

theorem State.Canon.execVinExcursion {mv} (h : s.Canon) : Out.Canon (Machine.execVinExcursion mv s) :=
  .next (.ite h (.ite (.alert (.ite (.raise0 h) h)) .cold))

theorem State.Canon.execVinReturn {mv} (h : s.Canon) : Out.Canon (Machine.execVinReturn mv s) := .next (.ite (.alert (.ite (.raise0 h) h)) h)

theorem State.Canon.powerUp : s.powerUp.Canon := .cold

theorem State.Canon.execPwrgdRise (h : s.Canon) : Out.Canon (Machine.execPwrgdRise s) := .next (.ite h (.ite h (.powerUp)))

theorem State.Canon.execPwrgdFall (h : s.Canon) : Out.Canon (Machine.execPwrgdFall s) := .next (.ite h (.ite h h))

theorem State.Canon.execPowerdownComplete (h : s.Canon) : Out.Canon (Machine.execPowerdownComplete s) := .next (.ite (.ite (.powerUp) .cold) h)

theorem State.Canon.execResetNAssert {refclkGood} (h : s.Canon) : Out.Canon (Machine.execResetNAssert refclkGood s) := .next (.ite .cold h)

theorem State.Canon.execResetNRelease (h : s.Canon) : Out.Canon (Machine.execResetNRelease s) := .next (.ite h (.ite (.startup) h))

theorem State.Canon.execSafeNAssert (h : s.Canon) : Out.Canon (Machine.execSafeNAssert s) :=
  .next (.ite h (.ite (.raise0 (.setPower h)) (.setPower h)))

theorem State.Canon.execSafeNRelease (h : s.Canon) : Out.Canon (Machine.execSafeNRelease s) := .next (.ite (.alert h) h)

theorem State.Canon.execSafeNStuckTimer (h : s.Canon) : Out.Canon (Machine.execSafeNStuckTimer s) := .next (.ite (.alert (.ite (.raise0 h) h)) h)

theorem State.Canon.execSafeStormEndTimer (h : s.Canon) : Out.Canon (Machine.execSafeStormEndTimer s) := .next (.ite (.alert h) h)

theorem State.Canon.safeFall (h : s.Canon) : s.safeFall.Canon := .ite (.setPower h) h

theorem State.Canon.execRefclkLoss (h : s.Canon) : Out.Canon (Machine.execRefclkLoss s) := .next (.alert h)

theorem State.Canon.execThermalTrip {die} (h : s.Canon) : Out.Canon (Machine.execThermalTrip die s) := .next (.ite .cold h)

theorem State.Canon.heat {die temp} (h : s.Canon) : (s.heat die temp).Canon := .ite (.raise0 h) h

theorem State.Canon.execThermalStepTimer {temps} (h : s.Canon) : Out.Canon (Machine.execThermalStepTimer temps s) := by
  unfold Machine.execThermalStepTimer
  exact .next (.whenLive h (fun _ => .ite (.setPower (.foldl h (fun _ _ ht => .heat ht))) (.ite (.setPower (.foldl h (fun _ _ ht => .heat ht)))
    (.setPower (.foldl h (fun _ _ ht => .heat ht))))))

theorem State.Canon.execInputPowerStep {watts} (h : s.Canon) : Out.Canon (Machine.execInputPowerStep watts s) :=
  .next (.whenLive h (fun _ => .ite (.setPower h) (.ite (.setPower h) (.setPower h))))

theorem State.Canon.execThermalWarn {die temp} (h : s.Canon) : Out.Canon (Machine.execThermalWarn die temp s) :=
  .next (.whenLive h (fun _ => .alert (.heat h)))

theorem State.Canon.execAlertHoldTimer (h : s.Canon) : Out.Canon (Machine.execAlertHoldTimer s) := .next (.ite h (.alert h))

theorem State.Canon.tapTest {ir r m} (h : s.Canon) : (s.tapTest ir r m).Canon := .ite h h

theorem State.Canon.execIdcode (h : s.Canon) : Out.Canon (Machine.execIdcode s) := .next h

theorem State.Canon.execSamplePreload {captured preload} (h : s.Canon) : Out.Canon (Machine.execSamplePreload captured preload s) := by
  unfold Machine.execSamplePreload
  extract_lets -underBinder
  exact .next h

theorem State.Canon.execExtest (h : s.Canon) : Out.Canon (Machine.execExtest s) := .next (.tapTest h)

theorem State.Canon.execExtestPulse (h : s.Canon) : Out.Canon (Machine.execExtestPulse s) := .next (.tapTest h)

theorem State.Canon.execExtestTrain (h : s.Canon) : Out.Canon (Machine.execExtestTrain s) := .next (.tapTest h)

theorem State.Canon.execHighz (h : s.Canon) : Out.Canon (Machine.execHighz s) := .next (.tapTest h)

theorem State.Canon.execClamp (h : s.Canon) : Out.Canon (Machine.execClamp s) := .next (.tapTest h)

theorem State.Canon.execBypass {code} (h : s.Canon) : Out.Canon (Machine.execBypass code s) := .next (.ite h h)

end Sys2Proof.Machine
end

section
/-! SUPPORT. The operations of Machine/Boot keep memory's canonical form. -/

namespace Sys2Proof.Machine
open Sys2Proof

variable {s : State}

theorem State.Canon.execImageVerify {die readOk} (h : s.Canon) : Out.Canon (Machine.execImageVerify die readOk s) := by
  unfold Machine.execImageVerify
  refine .next ?_
  split
  · exact h
  · split
    · exact h
    · exact .ite h (.ite (.alert h) h)

theorem State.Canon.execRecoverySolicit (h : s.Canon) : Out.Canon (Machine.execRecoverySolicit s) := .next (.ite h h)

theorem State.Canon.execRecoveryImageBlock {off data crc} (h : s.Canon) : Out.Canon (Machine.execRecoveryImageBlock off data crc s) := by
  unfold Machine.execRecoveryImageBlock
  refine .next ?_
  split
  · exact h
  · extract_lets -underBinder
    split
    · exact h
    · split
      · exact h
      · exact .alert h

theorem State.Canon.overStep {row limit} (h : s.Canon) : (s.overStep row limit).Canon := .ite h h

theorem State.Canon.execDieSelfTestDone {die pass badTiles} (h : s.Canon) : Out.Canon (Machine.execDieSelfTestDone die pass badTiles s) := by
  unfold Machine.execDieSelfTestDone
  exact .next (.whenLive h (fun _ => .ite h (.ite (.fenceDie (.overStep h)) (.ite (.overStep h) (.ite (.ite (.capReduced (.spareUsed (.settle
    (.overStep h)))) (.spareUsed (.settle (.overStep h)))) (.ite (.capReduced (.spareUsed (.settle (.overStep h)))) (.spareUsed (.settle
      (.overStep h)))))))))

theorem State.Canon.execDramTrainingDone {ch pass rate} (h : s.Canon) : Out.Canon (Machine.execDramTrainingDone ch pass rate s) :=
  .next (.whenLive h (fun _ => .ite h (.overStep h)))

theorem State.Canon.execNodeResetTime (h : s.Canon) : Out.Canon (Machine.execNodeResetTime s) := by
  unfold Machine.execNodeResetTime
  refine .next (.whenLive h (fun _ => ?_))
  split
  · exact .ite .cold h
  · exact h

end Sys2Proof.Machine
end

section
/-! SUPPORT. The operations of Machine/Hub keep memory's canonical form. -/

namespace Sys2Proof.Machine
open Sys2Proof

variable {s : State}

theorem State.Canon.wipeSaved {ch} (h : s.Canon) : (s.wipeSaved ch).Canon := .foldl h (fun _ _ ht => .wipeJob ht)

theorem State.Canon.loseSram (h : s.Canon) : s.loseSram.Canon := .foldl h (fun _ _ ht => .ite ht (.setDesc ht))

theorem State.Canon.markAreas (h : s.Canon) : s.markAreas.Canon := h

theorem State.Canon.setCentState {x c st} (h : s.Canon) : (s.setCentState x c st).Canon := .wrWords h

theorem State.Canon.loseClusters {fl} (h : s.Canon) : (s.loseClusters fl).Canon :=
  .foldl h (fun _ _ ht => .foldl ht (fun _ _ ht => .ite (.setCentState ht) ht))

theorem State.Canon.dieAftermath {d} (h : s.Canon) : (s.dieAftermath d).Canon :=
  .ite (.loseSram h) (.ite (.foldl h (fun _ _ ht => .widthCheck ht)) (.ite (.markAreas (.wipeSaved (.wipeSaved h))) (.ite (.loseClusters h) h)))

theorem State.Canon.loseDie {d} (h : s.Canon) : (s.loseDie d).Canon := .ite h (.dieAftermath (.fenceDie h))

theorem State.Canon.execDieFence {die} (h : s.Canon) : Out.Canon (Machine.execDieFence die s) := .next (.whenLive h (fun _ => .ite h (.loseDie h)))

theorem State.Canon.execHubFence {hub unacked} (h : s.Canon) : Out.Canon (Machine.execHubFence hub unacked s) :=
  .next (.whenLive h (fun _ => .ite h (.foldl (.loseDie h) (fun _ _ ht => ht))))

theorem State.Canon.execHubBulkResend {seq} (h : s.Canon) : Out.Canon (Machine.execHubBulkResend seq s) := by
  unfold Machine.execHubBulkResend
  refine .next (.whenLive h (fun _ => ?_))
  split
  · exact h
  · exact .ite h (.bookEnd (.ite h (.store h)))

theorem State.Canon.execHubStateAreaLoss {hub} (h : s.Canon) : Out.Canon (Machine.execHubStateAreaLoss hub s) := by
  unfold Machine.execHubStateAreaLoss
  refine .next (.whenLive h (fun _ => ?_))
  split
  · exact .ite h h
  · exact h

theorem State.Canon.execHubStateAreaCopyDone {hub} (h : s.Canon) : Out.Canon (Machine.execHubStateAreaCopyDone hub s) := by
  unfold Machine.execHubStateAreaCopyDone
  refine .next (.whenLive h (fun _ => ?_))
  split
  · exact h
  · split
    · exact h
    · exact .ite h (.capReduced h)

theorem State.Canon.execChannelLoss {kind ch} (h : s.Canon) : Out.Canon (Machine.execChannelLoss kind ch s) :=
  .next (.whenLive h (fun _ => .ite (.ite h (.capReduced (.markAreas (.wipeSaved (.settle h))))) (.ite h (.capReduced (.settle h)))))

theorem State.Canon.execHubRoundClose {contrib} (h : s.Canon) : Out.Canon (Machine.execHubRoundClose contrib s) := by
  unfold Machine.execHubRoundClose
  exact .next (.whenLive h (fun _ => .ite (.foldl (.foldl h (fun _ _ ht => .ite (.refusePkt (.consume ht)) (.receive ht))) (fun _ _ ht => .unitEvent
    (.unitEvent ht))) (.granted (.foldl (.foldl h (fun _ _ ht => .ite (.refusePkt (.consume ht)) (.receive ht))) (fun _ _ ht => .unitEvent
      (.unitEvent ht))))))

theorem State.Canon.releaseRound (h : s.Canon) : s.releaseRound.Canon := h

theorem State.Canon.miscompare {outcome} (h : s.Canon) : (s.miscompare outcome).Canon := .raise0 h

theorem State.Canon.reExecute {agree} (h : s.Canon) : (s.reExecute agree).Canon :=
  .ite (.miscompare (.releaseRound (.unitEvent (.unitEvent h)))) (.miscompare (.releaseRound (.loseDie (.unitEvent (.unitEvent h)))))

theorem State.Canon.execRoundDigestCompare {peer ecc0 ecc1 unreadable agreeAgain} (h : s.Canon) :
    Out.Canon (Machine.execRoundDigestCompare peer ecc0 ecc1 unreadable agreeAgain s) := by
  unfold Machine.execRoundDigestCompare
  exact .next (.whenLive h (fun _ => .ite h (.ite (.ite (.loseDie (.loseDie (.miscompare h))) (.reExecute h)) (.ite (.releaseRound (.loseDie h))
    (.ite (.releaseRound (.loseDie h)) (.reExecute h))))))

theorem State.Canon.execNandRebuildDone {die chans} (h : s.Canon) : Out.Canon (Machine.execNandRebuildDone die chans s) :=
  .next (.whenLive h (fun _ => .ite h (.overStep h)))

theorem State.Canon.execNodeJoin (h : s.Canon) : Out.Canon (Machine.execNodeJoin s) := .next (.whenLive h (fun _ => .ite h (.raise0 h)))

theorem State.Canon.execJoinFailedTimer (h : s.Canon) : Out.Canon (Machine.execJoinFailedTimer s) := .next (.whenLive h (fun _ => .ite h (.raise0 h)))

end Sys2Proof.Machine
end

section
/-! SUPPORT. The operations of Machine/Queues keep memory's canonical form. -/

namespace Sys2Proof.Machine
open Sys2Proof

variable {s : State}

theorem State.Canon.readCmd {k index} {wrong : List Nat → State} (h : s.Canon) (hw : ∀ w, (wrong w).Canon) : (s.readCmd k index wrong).Canon := by
  unfold State.readCmd
  refine .ite (.queueError h) ?_
  split
  · exact h
  · exact .ite h (hw _)

theorem State.Canon.execCommandFetch {vi cls q} (h : s.Canon) : Out.Canon (Machine.execCommandFetch vi cls q s) :=
  .next (.whenLive h (fun _ => .ite h (.readCmd h (fun _ => h))))

theorem State.Canon.execSeqRereadTimer {vi cls q} (h : s.Canon) : Out.Canon (Machine.execSeqRereadTimer vi cls q s) := by
  unfold Machine.execSeqRereadTimer
  refine .next (.whenLive h (fun _ => ?_))
  extract_lets -underBinder
  split
  · exact h
  · exact .ite h (.readCmd h (fun _ => .ite h h))

theorem State.Canon.execDeadlineExpiry {cid} (h : s.Canon) : Out.Canon (Machine.execDeadlineExpiry cid s) := by
  unfold Machine.execDeadlineExpiry
  refine .next (.whenLive h (fun _ => ?_))
  split
  · exact h
  · exact .ite h h

theorem State.Canon.execJobSaveDone {cid} (h : s.Canon) : Out.Canon (Machine.execJobSaveDone cid s) := by
  unfold Machine.execJobSaveDone
  refine .next (.whenLive h (fun _ => ?_))
  split
  · exact h
  · exact .ite h (.ite h (.account (.updCmd (.tally (.chargeEnd (.settle h))))))

theorem State.Canon.execJobCompletionStep {cid} (h : s.Canon) : Out.Canon (Machine.execJobCompletionStep cid s) :=
  .next (.whenLive h (fun _ => .completeCmd h))

theorem State.Canon.execEngineFault {cls inst} (h : s.Canon) : Out.Canon (Machine.execEngineFault cls inst s) :=
  .next (.whenLive h (fun _ => .ite h (.wipeInst h)))

theorem State.Canon.execEngineSelfTestDone {cls inst pass badTiles} (h : s.Canon) :
    Out.Canon (Machine.execEngineSelfTestDone cls inst pass badTiles s) := by
  unfold Machine.execEngineSelfTestDone
  exact .next (.whenLive h (fun _ => .ite h (.raise0 (.ite (.capReduced (.ite (.ite (.update (.updInst (.settle h))) (.updInst (.settle h)))
    (.spareUsed (.ite (.update (.updInst (.settle h))) (.updInst (.settle h)))))) (.ite (.ite (.update (.updInst (.settle h))) (.updInst
      (.settle h))) (.spareUsed (.ite (.update (.updInst (.settle h))) (.updInst (.settle h)))))))))

theorem State.Canon.execQueueDrainDone {vi cls q} (h : s.Canon) : Out.Canon (Machine.execQueueDrainDone vi cls q s) :=
  .next (.whenLive h (fun _ => .ite h (.getD_map h (fun _ => .finishOp h))))

theorem State.Canon.execQueueResetApply {vi cls q} (h : s.Canon) : Out.Canon (Machine.execQueueResetApply vi cls q s) := by
  unfold Machine.execQueueResetApply
  refine .next (.whenLive h (fun _ => ?_))
  extract_lets -underBinder
  split
  · exact h
  · exact .ite h (.finishOp h)

theorem State.Canon.unbound {slot} (h : s.Canon) : (s.unbound slot).Canon := .ite h h

theorem State.Canon.execViQuiesceDone {vi} (h : s.Canon) : Out.Canon (Machine.execViQuiesceDone vi s) := by
  unfold Machine.execViQuiesceDone
  exact .next (.whenLive h (fun _ => .ite h (.getD_map (.update (.foldl (.foldl h (fun _ _ ht => .unbound ht)) (fun _ x ht => .getD_map ht
    (fun _ => .finishOp ht)))) (fun x => .finishOp (.update (.foldl (.foldl h (fun _ _ ht => .unbound ht)) (fun _ x ht => .getD_map ht
      (fun _ => .finishOp ht))))))))

theorem State.Canon.execContextSlotEmpty {slot} (h : s.Canon) : Out.Canon (Machine.execContextSlotEmpty slot s) :=
  .next (.whenLive h (fun _ => .ite h h))

theorem State.Canon.newDirectory {slot} (h : s.Canon) : (s.newDirectory slot).Canon := .foldl (.wrWords h) (fun _ _ ht => .wrWords (.setCbSet ht))

theorem State.Canon.execContextLoadDone {slot} (h : s.Canon) : Out.Canon (Machine.execContextLoadDone slot s) :=
  .next (.whenLive h (fun _ => .ite h (.getD_map (.newDirectory h) (fun _ => .finishOp (.newDirectory h)))))

theorem State.Canon.execRegionDrainDone {vi} (h : s.Canon) : Out.Canon (Machine.execRegionDrainDone vi s) := by
  unfold Machine.execRegionDrainDone
  refine .next (.whenLive h (fun _ => ?_))
  split
  · exact h
  · exact h

theorem State.Canon.execFabricEpochBoundary (h : s.Canon) : Out.Canon (Machine.execFabricEpochBoundary s) :=
  .next (.whenLive h (fun _ => .ite h (.update (.foldl h (fun _ _ ht => ht)))))

end Sys2Proof.Machine
end

section
/-! SUPPORT. The operations of Machine/AdhVi keep memory's canonical form. -/

namespace Sys2Proof.Machine
open Sys2Proof

variable {s : State}

theorem State.Canon.execAdhHello {c} (h : s.Canon) : Out.Canon (Machine.execAdhHello c s) := .next (.adhRun h (fun _ => h))

theorem State.Canon.doAsyncSet {c base log2 tail} (h : s.Canon) : (Machine.doAsyncSet c base log2 tail s).s.Canon := by
  unfold Machine.doAsyncSet
  split
  · exact h
  · split
    · exact h
    · split
      · exact h
      · exact h

theorem State.Canon.execAdhAsyncSet {c base log2 tail} (h : s.Canon) : Out.Canon (Machine.execAdhAsyncSet c base log2 tail s) :=
  .next (.adhRun h (fun _ => .doAsyncSet h))

theorem State.Canon.doEventSubscribe {c codes} (h : s.Canon) : (Machine.doEventSubscribe c codes s).s.Canon := by
  unfold Machine.doEventSubscribe
  split
  · exact h
  · split
    · exact h
    · exact h

theorem State.Canon.execAdhEventSubscribe {c codes} (h : s.Canon) : Out.Canon (Machine.execAdhEventSubscribe c codes s) :=
  .next (.adhRun h (fun _ => .doEventSubscribe h))

theorem State.Canon.doHealthStatus {c} (h : s.Canon) : (Machine.doHealthStatus c s).s.Canon := .ite (.alert h) h

theorem State.Canon.execAdhHealthStatus {c} (h : s.Canon) : Out.Canon (Machine.execAdhHealthStatus c s) :=
  .next (.adhRun h (fun _ => .doHealthStatus h))

theorem State.Canon.execAdhViolationRead {c first count} (h : s.Canon) : Out.Canon (Machine.execAdhViolationRead c first count s) :=
  .next (.adhRun h (fun _ => h))

theorem State.Canon.doMgmtConfig {addrs watch collectors} (h : s.Canon) : (Machine.doMgmtConfig addrs watch collectors s).s.Canon := by
  unfold Machine.doMgmtConfig
  split
  · exact h
  · exact h

theorem State.Canon.execAdhMgmtConfig {c addrs watch collectors} (h : s.Canon) :
    Out.Canon (Machine.execAdhMgmtConfig c addrs watch collectors s) := .next (.adhRun h (fun _ => .doMgmtConfig h))

theorem State.Canon.doViAssign {vi sources comps models maxPriority shares bits} (h : s.Canon) :
    (Machine.doViAssign vi sources comps models maxPriority shares bits s).s.Canon := by
  unfold Machine.doViAssign
  split
  · exact h
  · exact h

theorem State.Canon.execAdhViAssign {c vi sources comps models maxPriority shares bits} (h : s.Canon) :
    Out.Canon (Machine.execAdhViAssign c vi sources comps models maxPriority shares bits s) := .next (.adhRun h (fun _ => .doViAssign h))

theorem State.Canon.doRightsSet {vi sources comps models maxPriority shares bits} (h : s.Canon) :
    (Machine.doRightsSet vi sources comps models maxPriority shares bits s).s.Canon := by
  unfold Machine.doRightsSet
  split
  · exact h
  · exact h

theorem State.Canon.execAdhRightsSet {c vi sources comps models maxPriority shares bits} (h : s.Canon) :
    Out.Canon (Machine.execAdhRightsSet c vi sources comps models maxPriority shares bits s) := .next (.adhRun h (fun _ => .doRightsSet h))

theorem State.Canon.doViRelease {c vi} (h : s.Canon) : (Machine.doViRelease c vi s).s.Canon := by
  unfold Machine.doViRelease
  split
  · exact h
  · split
    · exact h
    · exact .withdraw h

theorem State.Canon.execAdhViRelease {c vi} (h : s.Canon) : Out.Canon (Machine.execAdhViRelease c vi s) := .next (.adhRun h (fun _ => .doViRelease h))

theorem State.Canon.doQueueCreate {c cls q ringBase ringLog2 cplBase priority phaseG inst notify} (h : s.Canon) :
    (Machine.doQueueCreate c cls q ringBase ringLog2 cplBase priority phaseG inst notify s).s.Canon := by
  unfold Machine.doQueueCreate
  extract_lets -underBinder
  split
  · exact h
  · split
    · exact h
    · split
      · exact h
      · split
        · exact h
        · exact h

theorem State.Canon.execAdhQueueCreate {c cls q ringBase ringLog2 cplBase priority phaseG inst notify} (h : s.Canon) :
    Out.Canon (Machine.execAdhQueueCreate c cls q ringBase ringLog2 cplBase priority phaseG inst notify s) :=
  .next (.adhRun h (fun _ => .doQueueCreate h))

theorem State.Canon.doQueueDestroy {c cls q} (h : s.Canon) : (Machine.doQueueDestroy c cls q s).s.Canon := by
  unfold Machine.doQueueDestroy
  extract_lets -underBinder
  split
  · exact h
  · exact h

theorem State.Canon.execAdhQueueDestroy {c cls q} (h : s.Canon) : Out.Canon (Machine.execAdhQueueDestroy c cls q s) :=
  .next (.adhRun h (fun _ => .doQueueDestroy h))

theorem State.Canon.doQueueReset {c cls q cmdIndex cplIndex} (h : s.Canon) : (Machine.doQueueReset c cls q cmdIndex cplIndex s).s.Canon := by
  unfold Machine.doQueueReset
  extract_lets -underBinder
  split
  · exact h
  · exact h

theorem State.Canon.execAdhQueueReset {c cls q cmdIndex cplIndex} (h : s.Canon) :
    Out.Canon (Machine.execAdhQueueReset c cls q cmdIndex cplIndex s) := .next (.adhRun h (fun _ => .doQueueReset h))

theorem State.Canon.doEngineConfig {cls inst threshold} (h : s.Canon) : (Machine.doEngineConfig cls inst threshold s).s.Canon := by
  unfold Machine.doEngineConfig
  split
  · exact h
  · exact h

theorem State.Canon.execAdhEngineConfig {c cls inst threshold} (h : s.Canon) : Out.Canon (Machine.execAdhEngineConfig c cls inst threshold s) :=
  .next (.adhRun h (fun _ => .doEngineConfig h))

theorem State.Canon.doPhaseShare {cls inst floorG floorP} (h : s.Canon) : (Machine.doPhaseShare cls inst floorG floorP s).s.Canon := by
  unfold Machine.doPhaseShare
  split
  · exact h
  · exact h

theorem State.Canon.execAdhPhaseShare {c cls inst floorG floorP} (h : s.Canon) :
    Out.Canon (Machine.execAdhPhaseShare c cls inst floorG floorP s) := .next (.adhRun h (fun _ => .doPhaseShare h))

theorem State.Canon.doContextLoad {c model comp headDim layers kvHeads qPerKv cbDir wtDir} (h : s.Canon) :
    (Machine.doContextLoad c model comp headDim layers kvHeads qPerKv cbDir wtDir s).s.Canon := by
  unfold Machine.doContextLoad
  extract_lets -underBinder heldBy
  clear_value heldBy
  split
  · exact h
  · split
    · exact h
    · split
      · exact h
      · exact .update h

theorem State.Canon.execAdhContextLoad {c model comp headDim layers kvHeads qPerKv cbDir wtDir} (h : s.Canon) :
    Out.Canon (Machine.execAdhContextLoad c model comp headDim layers kvHeads qPerKv cbDir wtDir s) := .next (.adhRun h (fun _ => .doContextLoad h))

theorem State.Canon.doContextBind {c slot index} (h : s.Canon) : (Machine.doContextBind c slot index s).s.Canon := by
  unfold Machine.doContextBind
  extract_lets -underBinder
  split
  · exact h
  · split
    · exact h
    · split
      · exact h
      · split
        · exact h
        · exact h

theorem State.Canon.execAdhContextBind {c slot index} (h : s.Canon) : Out.Canon (Machine.execAdhContextBind c slot index s) :=
  .next (.adhRun h (fun _ => .doContextBind h))

theorem State.Canon.doContextUnbind {c index} (h : s.Canon) : (Machine.doContextUnbind c index s).s.Canon := by
  unfold Machine.doContextUnbind
  split
  · exact h
  · exact .adhOk (.unbound h)

theorem State.Canon.execAdhContextUnbind {c index} (h : s.Canon) : Out.Canon (Machine.execAdhContextUnbind c index s) :=
  .next (.adhRun h (fun _ => .doContextUnbind h))

end Sys2Proof.Machine
end

section
/-! SUPPORT. The operations of Machine/Leap keep memory's canonical form. -/

namespace Sys2Proof.Machine
open Sys2Proof

variable {s : State}

theorem State.Canon.askLeap {rid r target} (h : s.Canon) : (s.askLeap rid r target).Canon := h

theorem State.Canon.freezeReq {req target} (h : s.Canon) : (s.freezeReq req target).Canon := by
  unfold State.freezeReq
  split
  · exact h
  · exact .ite h (.askLeap (.setHold (.dropTentative h)))

theorem State.Canon.execLeapFreeze {req target} (h : s.Canon) : Out.Canon (Machine.execLeapFreeze req target s) :=
  .next (.whenLive h (fun _ => .freezeReq h))

theorem State.Canon.endStart {rid st result} (h : s.Canon) : (s.endStart rid st result).Canon := .getD_map h (fun _ => .finishOp h)

theorem State.Canon.execLeapRequest {m digest blocks tokens target} (h : s.Canon) :
    Out.Canon (Machine.execLeapRequest m digest blocks tokens target s) := by
  unfold Machine.execLeapRequest
  refine .next (.whenLive h (fun _ => ?_))
  split
  · exact h
  · refine .atHome h (fun _ => ?_)
    split
    · exact h
    · split
      · exact h
      · split
        · exact h
        · split
          · exact h
          · split
            · exact h
            · exact .bookReq (.commitEntry h)

theorem State.Canon.placeRing {at_ ws} (h : s.Canon) : (s.placeRing at_ ws).Canon := .foldl (.wrWords (.wrWords h)) (fun _ _ ht => .wrWords ht)

theorem State.Canon.execLeapGrant {m newHolder} (h : s.Canon) : Out.Canon (Machine.execLeapGrant m newHolder s) := by
  unfold Machine.execLeapGrant
  refine .next (.whenLive h (fun _ => ?_))
  split
  · exact h
  · exact .ite h h

theorem State.Canon.execLeapOffer {m digest blocks tokens oldHolder comp} (h : s.Canon) :
    Out.Canon (Machine.execLeapOffer m digest blocks tokens oldHolder comp s) := .next (.whenLive h (fun _ => .ite h (.ite h h)))

theorem State.Canon.execLeapManifest {m record ring entries} (h : s.Canon) : Out.Canon (Machine.execLeapManifest m record ring entries s) := by
  unfold Machine.execLeapManifest
  refine .next (.whenLive h (fun _ => ?_))
  extract_lets -underBinder
  split
  · exact h
  · exact .ite h (.ite h (.tell (.setHold (.placeRing h))))

theorem State.Canon.execLeapAccept {m digest} (h : s.Canon) : Out.Canon (Machine.execLeapAccept m digest s) :=
  .next (.whenLive h (fun _ => .atHome h (fun _ => .ite h (.ite (.abortLeap h) (.bookReq (.commitEntry h))))))

theorem State.Canon.relinger {rid} (h : s.Canon) : (s.relinger rid).Canon := by
  unfold State.relinger
  split
  · exact .foldl h (fun _ _ ht => ht)
  · exact h

theorem State.Canon.execLeapCommit {m expiry receipt chain} (h : s.Canon) : Out.Canon (Machine.execLeapCommit m expiry receipt chain s) := by
  unfold Machine.execLeapCommit
  extract_lets -underBinder
  refine .next (.whenLive h (fun _ => ?_))
  extract_lets -underBinder
  split
  · exact h
  · split
    · exact h
    · exact .ite h (.update (.setHold (.setReq (.relinger h))))

theorem State.Canon.release {rid epoch newHolder} (h : s.Canon) : (s.release rid epoch newHolder).Canon := by
  unfold State.release
  split
  · exact h
  · exact .endStart (.transitOut (.setHold (.freeReq (.failHeld (.foldl h (fun _ _ ht => ht))))))

theorem State.Canon.execLeapRelease {m receipt} (h : s.Canon) : Out.Canon (Machine.execLeapRelease m receipt s) := by
  unfold Machine.execLeapRelease
  extract_lets -underBinder
  refine .next (.whenLive h (fun _ => ?_))
  split
  · exact .ite (.release h) h
  · exact h

theorem State.Canon.leapAborted {rid reason} (h : s.Canon) : (s.leapAborted rid reason).Canon := by
  unfold State.leapAborted
  extract_lets -underBinder
  split
  · exact .endStart h
  · exact h

theorem State.Canon.execLeapAbort {m reason} (h : s.Canon) : Out.Canon (Machine.execLeapAbort m reason s) := by
  unfold Machine.execLeapAbort
  refine .next (.whenLive h (fun _ => ?_))
  split
  · exact h
  · split
    · exact .ite (.abortLeap h) (.leapAborted h)
    · exact .leapAborted h

theorem State.Canon.execLeapQuery {m} (h : s.Canon) : Out.Canon (Machine.execLeapQuery m s) := .next (.whenLive h (fun _ => .atHome h (fun _ => h)))

theorem State.Canon.execLeapState {m state holder} (h : s.Canon) : Out.Canon (Machine.execLeapState m state holder s) := by
  unfold Machine.execLeapState
  refine .next (.whenLive h (fun _ => ?_))
  extract_lets -underBinder
  split
  · exact h
  · split
    · exact .leapAborted h
    · split
      · split
        · exact .release h
        · split
          · exact h
          · split
            · exact h
            · exact h
        · exact h
      · exact h

theorem State.Canon.execLeapTimeout {req} (h : s.Canon) : Out.Canon (Machine.execLeapTimeout req s) := by
  unfold Machine.execLeapTimeout
  refine .next (.whenLive h (fun _ => ?_))
  split
  · exact .ite (.abortLeap h) h
  · exact h

theorem State.Canon.execLeapQueryTimer {req} (h : s.Canon) : Out.Canon (Machine.execLeapQueryTimer req s) := by
  unfold Machine.execLeapQueryTimer
  refine .next (.whenLive h (fun _ => ?_))
  extract_lets -underBinder
  split
  · exact .ite h h
  · exact .ite h h
  · exact h

theorem State.Canon.execLeapRetryTimer {req} (h : s.Canon) : Out.Canon (Machine.execLeapRetryTimer req s) := by
  unfold Machine.execLeapRetryTimer
  refine .next (.whenLive h (fun _ => ?_))
  split
  · exact .ite h (.askLeap (.setHold (.dropTentative h)))
  · exact h

end Sys2Proof.Machine
end

section
/-! SUPPORT. The operations of Machine/AdhServe keep memory's canonical form. -/

namespace Sys2Proof.Machine
open Sys2Proof

variable {s : State}

theorem State.Canon.doCompositionDefine {comp model epoch prompt gen cache home prot repr beat quotas} (h : s.Canon) :
    (Machine.doCompositionDefine comp model epoch prompt gen cache home prot repr beat quotas s).s.Canon := by
  unfold Machine.doCompositionDefine
  extract_lets -underBinder
  split
  · exact h
  · split
    · exact h
    · extract_lets -underBinder
      split
      · split
        · exact h
        · exact h
      · split
        · split
          · exact h
          · exact h
        · split
          · exact h
          · split
            · extract_lets -underBinder
              split
              · exact h
              · exact h
            · exact h

theorem State.Canon.execAdhCompositionDefine {c comp model epoch prompt gen cache home prot repr beat quotas} (h : s.Canon) :
    Out.Canon (Machine.execAdhCompositionDefine c comp model epoch prompt gen cache home prot repr beat quotas s) :=
  .next (.adhRun h (fun _ => .doCompositionDefine h))

theorem State.Canon.onComp {c comp} {f : Comp → AdhOut} (h : s.Canon) (hf : ∀ x, (f x).s.Canon) : (s.onComp c comp f).s.Canon := by
  unfold State.onComp
  split
  · exact h
  · split
    · exact h
    · exact hf _

theorem State.Canon.doCompositionStatus {c comp} (h : s.Canon) : (Machine.doCompositionStatus c comp s).s.Canon := .onComp h (fun _ => h)

theorem State.Canon.execAdhCompositionStatus {c comp} (h : s.Canon) : Out.Canon (Machine.execAdhCompositionStatus c comp s) :=
  .next (.adhRun h (fun _ => .doCompositionStatus h))

theorem State.Canon.doMeterRead {c comp first count} (h : s.Canon) : (Machine.doMeterRead c comp first count s).s.Canon := .onComp h (fun _ => h)

theorem State.Canon.execAdhMeterRead {c comp first count} (h : s.Canon) : Out.Canon (Machine.execAdhMeterRead c comp first count s) :=
  .next (.adhRun h (fun _ => .doMeterRead h))

theorem State.Canon.onEntry {c req} {f : DirEntry → AdhOut} (h : s.Canon) (hf : ∀ e, (f e).s.Canon) : (s.onEntry c req f).s.Canon := by
  unfold State.onEntry
  split
  · exact h
  · split
    · exact h
    · exact hf _

theorem State.Canon.doDirectoryRead {c req} (h : s.Canon) : (Machine.doDirectoryRead c req s).s.Canon := .onEntry h (fun _ => h)

theorem State.Canon.execAdhDirectoryRead {c req} (h : s.Canon) : Out.Canon (Machine.execAdhDirectoryRead c req s) :=
  .next (.adhRun h (fun _ => .doDirectoryRead h))

theorem State.Canon.doReceiptRead {c req first count} (h : s.Canon) : (Machine.doReceiptRead c req first count s).s.Canon := .onEntry h (fun _ => h)

theorem State.Canon.execAdhReceiptRead {c req first count} (h : s.Canon) : Out.Canon (Machine.execAdhReceiptRead c req first count s) :=
  .next (.adhRun h (fun _ => .doReceiptRead h))

theorem State.Canon.doLeapPolicy {comp lease leapTimeout pullMode pullDeadline} (h : s.Canon) :
    (Machine.doLeapPolicy comp lease leapTimeout pullMode pullDeadline s).s.Canon := by
  unfold Machine.doLeapPolicy
  split
  · exact h
  · exact h

theorem State.Canon.execAdhLeapPolicy {c comp lease leapTimeout pullMode pullDeadline} (h : s.Canon) :
    Out.Canon (Machine.execAdhLeapPolicy c comp lease leapTimeout pullMode pullDeadline s) := .next (.adhRun h (fun _ => .doLeapPolicy h))

theorem State.Canon.doLeapStart {c req target} (h : s.Canon) : (Machine.doLeapStart c req target s).s.Canon := by
  unfold Machine.doLeapStart
  split
  · exact h
  · extract_lets -underBinder
    split
    · exact h
    · split
      · exact h
      · exact .freezeReq h

theorem State.Canon.execAdhLeapStart {c req target} (h : s.Canon) : Out.Canon (Machine.execAdhLeapStart c req target s) :=
  .next (.adhRun h (fun _ => .doLeapStart h))

theorem State.Canon.doCodebookFactors {slot layer head kv factors} (h : s.Canon) :
    (Machine.doCodebookFactors slot layer head kv factors s).s.Canon := by
  unfold Machine.doCodebookFactors
  extract_lets -underBinder
  split
  · exact h
  · split
    · split
      · exact h
      · exact h
    · exact .adhOk (.wr h)

theorem State.Canon.execAdhCodebookFactors {c slot layer head kv factors} (h : s.Canon) :
    Out.Canon (Machine.execAdhCodebookFactors c slot layer head kv factors s) := .next (.adhRun h (fun _ => .doCodebookFactors h))

theorem State.Canon.doCodebookLoad {c slot obj} (h : s.Canon) : (Machine.doCodebookLoad c slot obj s).s.Canon := by
  unfold Machine.doCodebookLoad
  extract_lets -underBinder
  split
  · exact h
  · split
    · exact h
    · split
      · split
        · exact .getD_map h (fun _ => .finishOp h)
        · exact h
      · split
        · exact h
        · split
          · exact h
          · split
            next s1 e' =>
              have hs1 : s1.Canon := .snd e' h
              exact .publishSet hs1

theorem State.Canon.execAdhCodebookLoad {c slot obj} (h : s.Canon) : Out.Canon (Machine.execAdhCodebookLoad c slot obj s) :=
  .next (.adhRun h (fun _ => .doCodebookLoad h))

theorem State.Canon.doCalibrationPolicy {comp node p} (h : s.Canon) : (Machine.doCalibrationPolicy comp node p s).s.Canon := by
  unfold Machine.doCalibrationPolicy
  extract_lets -underBinder
  split
  · exact h
  · exact h

theorem State.Canon.execAdhCalibrationPolicy {c comp node p} (h : s.Canon) : Out.Canon (Machine.execAdhCalibrationPolicy c comp node p s) :=
  .next (.adhRun h (fun _ => .doCalibrationPolicy h))

theorem State.Canon.doAttendPolicy {comp distHi epsHi dvHi} (h : s.Canon) : (Machine.doAttendPolicy comp distHi epsHi dvHi s).s.Canon := by
  unfold Machine.doAttendPolicy
  split
  · exact h
  · exact h

theorem State.Canon.execAdhAttendPolicy {c comp distHi epsHi dvHi} (h : s.Canon) :
    Out.Canon (Machine.execAdhAttendPolicy c comp distHi epsHi dvHi s) := .next (.adhRun h (fun _ => .doAttendPolicy h))

end Sys2Proof.Machine
end

section
/-! SUPPORT. The operations of Machine/AdhTier keep memory's canonical form. -/

namespace Sys2Proof.Machine
open Sys2Proof

variable {s : State}

theorem State.Canon.doArenaDefine {tier die headDim base slots parity} (h : s.Canon) :
    (Machine.doArenaDefine tier die headDim base slots parity s).s.Canon := by
  unfold Machine.doArenaDefine
  extract_lets -underBinder size len x _ s1 s2
  have hs2 : s2.Canon := .foldl h (fun _ _ ht => .setDesc ht)
  split
  · exact h
  · exact hs2

theorem State.Canon.execAdhArenaDefine {c tier die headDim base slots parity} (h : s.Canon) :
    Out.Canon (Machine.execAdhArenaDefine c tier die headDim base slots parity s) := .next (.adhRun h (fun _ => .doArenaDefine h))

theorem State.Canon.doTierConfig {sramTier interleave flashOp} (h : s.Canon) : (Machine.doTierConfig sramTier interleave flashOp s).s.Canon := by
  unfold Machine.doTierConfig
  split
  · exact h
  · exact h

theorem State.Canon.execAdhTierConfig {c sramTier interleave flashOp} (h : s.Canon) :
    Out.Canon (Machine.execAdhTierConfig c sramTier interleave flashOp s) := .next (.adhRun h (fun _ => .doTierConfig h))

theorem State.Canon.doTierPolicy {comp p} (h : s.Canon) : (Machine.doTierPolicy comp p s).s.Canon := by
  unfold Machine.doTierPolicy
  extract_lets -underBinder
  split
  · exact h
  · exact h

theorem State.Canon.execAdhTierPolicy {c comp p} (h : s.Canon) : Out.Canon (Machine.execAdhTierPolicy c comp p s) :=
  .next (.adhRun h (fun _ => .doTierPolicy h))

theorem State.Canon.doTierStatus {c kind id} (h : s.Canon) : (Machine.doTierStatus c kind id s).s.Canon := by
  unfold Machine.doTierStatus
  split
  · exact h
  · split
    · split
      · exact h
      · exact h
    · split
      · exact h
      · exact h

theorem State.Canon.execAdhTierStatus {c kind id} (h : s.Canon) : Out.Canon (Machine.execAdhTierStatus c kind id s) :=
  .next (.adhRun h (fun _ => .doTierStatus h))

theorem State.Canon.doScrubPolicy {period} (h : s.Canon) : (Machine.doScrubPolicy period s).s.Canon := by
  unfold Machine.doScrubPolicy
  split
  · exact h
  · exact h

theorem State.Canon.execAdhScrubPolicy {c period} (h : s.Canon) : Out.Canon (Machine.execAdhScrubPolicy c period s) :=
  .next (.adhRun h (fun _ => .doScrubPolicy h))

theorem State.Canon.newRegionGen {vi} (h : s.Canon) : (s.newRegionGen vi).Canon := by
  unfold State.newRegionGen
  extract_lets -underBinder
  split
  · exact .ite h h
  · exact h

theorem State.Canon.doRegionSet {vi index base limit owner rights valid} (h : s.Canon) :
    (Machine.doRegionSet vi index base limit owner rights valid s).s.Canon := by
  unfold Machine.doRegionSet
  extract_lets -underBinder
  split
  · exact h
  · split
    · exact h
    · split
      · exact h
      · split
        · exact h
        · exact .adhOk (.newRegionGen h)

theorem State.Canon.execAdhRegionSet {c vi index base limit owner rights valid} (h : s.Canon) :
    Out.Canon (Machine.execAdhRegionSet c vi index base limit owner rights valid s) := .next (.adhRun h (fun _ => .doRegionSet h))

theorem State.Canon.doQuotaSet {kind id tier ceiling} (h : s.Canon) : (Machine.doQuotaSet kind id tier ceiling s).s.Canon := by
  unfold Machine.doQuotaSet
  split
  · split
    · exact h
    · exact h
  · split
    · exact h
    · exact h

theorem State.Canon.execAdhQuotaSet {c kind id tier ceiling} (h : s.Canon) : Out.Canon (Machine.execAdhQuotaSet c kind id tier ceiling s) :=
  .next (.adhRun h (fun _ => .doQuotaSet h))

end Sys2Proof.Machine
end

section
/-! SUPPORT. The operations of Machine/TimeSync keep memory's canonical form. -/

namespace Sys2Proof.Machine
open Sys2Proof

variable {s : State}

theorem State.Canon.updTime {f} (h : s.Canon) : (s.updTime f).Canon := h

theorem State.Canon.leaveFallback (h : s.Canon) : s.leaveFallback.Canon := .foldl h (fun _ _ ht => .ite ht (.raise0 ht))

theorem State.Canon.timeWatch {before} (h : s.Canon) : (timeWatch before s).Canon := .ite h (.ite (.raise0 (.leaveFallback h)) (.raise0 h))

theorem State.Canon.correct {n} (h : s.Canon) : (s.correct n).Canon := .ite h (.ite h h)

theorem State.Canon.acceptSync {raw} (h : s.Canon) : (s.acceptSync raw).Canon := .ite (.ite h h) (.ite h (.ite h (.correct h)))

theorem State.Canon.bmca (h : s.Canon) : s.bmca.Canon := .ite h (.raise0 h)

theorem State.Canon.execPtpMessageReceive {port m} (h : s.Canon) : Out.Canon (Machine.execPtpMessageReceive port m s) := by
  unfold Machine.execPtpMessageReceive
  refine .next (.whenLive h (fun _ => ?_))
  split
  · exact h
  · split
    · exact .ite (.timeWatch (.acceptSync h)) h
    · exact .ite h (.bmca h)
    · exact h
    · exact h

theorem State.Canon.execSyncTimeout (h : s.Canon) : Out.Canon (Machine.execSyncTimeout s) := .next (.whenLive h (fun _ => .ite (.timeWatch h) h))

theorem State.Canon.execAnnounceTimeout {port} (h : s.Canon) : Out.Canon (Machine.execAnnounceTimeout port s) := by
  unfold Machine.execAnnounceTimeout
  refine .next (.whenLive h (fun _ => ?_))
  split
  · exact .ite (.bmca h) h
  · exact h

theorem State.Canon.execPtpTransmitTimer {port kind} (h : s.Canon) : Out.Canon (Machine.execPtpTransmitTimer port kind s) :=
  .next (.whenLive h (fun _ => .ite h (.ite (.gram (.ite h (.bmca h))) (.control (.ite h (.bmca h))))))

theorem State.Canon.execTimeSlewDone (h : s.Canon) : Out.Canon (Machine.execTimeSlewDone s) := by
  unfold Machine.execTimeSlewDone
  refine .next (.whenLive h (fun _ => ?_))
  split
  · exact .ite (.timeWatch h) h
  · exact h

theorem State.Canon.tickTime (h : s.Canon) : s.tickTime.Canon := by
  unfold State.tickTime
  split
  · exact h
  · exact .ite h h

theorem State.Canon.ppsAcquire (h : s.Canon) : s.ppsAcquire.Canon := .timeWatch (.updTime (.ite (.correct (.updTime (.raise0 h))) (.raise0 h)))

theorem State.Canon.ppsLose {reason} (h : s.Canon) : (s.ppsLose reason).Canon := .ite (.timeWatch (.raise0 h)) h

theorem State.Canon.execPpsInEdge {lowNs highNs} (h : s.Canon) : Out.Canon (Machine.execPpsInEdge lowNs highNs s) :=
  .next (.whenLive h (fun _ => .ite h (.ite (.ite (.ppsLose h) h) (.ite (.ite (.timeWatch (.correct h)) h) (.ite (.ppsAcquire h) h)))))

theorem State.Canon.execPpsLossTimer {reason} (h : s.Canon) : Out.Canon (Machine.execPpsLossTimer reason s) := by
  unfold Machine.execPpsLossTimer
  refine .next (.whenLive h (fun _ => ?_))
  split
  · exact h
  · exact .ite h (.ppsLose h)

end Sys2Proof.Machine
end

section
/-! SUPPORT. The operations of Machine/AdhFab keep memory's canonical form. -/

namespace Sys2Proof.Machine
open Sys2Proof

variable {s : State}

theorem State.Canon.reconfigure {p cfg} (h : s.Canon) : (s.reconfigure p cfg).Canon := .widthCheck (.updPort (.leaveActive h))

theorem State.Canon.setSplit {p} (h : s.Canon) : (s.setSplit p).Canon :=
  .ite h (.ite (.foldl (.foldl h (fun _ _ ht => .leaveActive ht)) (fun _ _ ht => ht)) (.updPort (.foldl h (fun _ _ ht => .leaveActive ht))))

theorem State.Canon.doPortConfig {port mode roles rate minWidth pools endpoint eth} (h : s.Canon) :
    (Machine.doPortConfig port mode roles rate minWidth pools endpoint eth s).s.Canon := by
  unfold Machine.doPortConfig
  split
  · exact h
  · exact .adhOk (.reconfigure (.setSplit h))

theorem State.Canon.execAdhPortConfig {c port mode roles rate minWidth pools endpoint eth} (h : s.Canon) :
    Out.Canon (Machine.execAdhPortConfig c port mode roles rate minWidth pools endpoint eth s) := .next (.adhRun h (fun _ => .doPortConfig h))

theorem State.Canon.doPortStatus {port} (h : s.Canon) : (Machine.doPortStatus port s).s.Canon := by
  unfold Machine.doPortStatus
  split
  · exact h
  · exact h

theorem State.Canon.execAdhPortStatus {c port} (h : s.Canon) : Out.Canon (Machine.execAdhPortStatus c port s) :=
  .next (.adhRun h (fun _ => .doPortStatus h))

theorem State.Canon.doPartnerSet {port entry fields} (h : s.Canon) : (Machine.doPartnerSet port entry fields s).s.Canon := by
  unfold Machine.doPartnerSet
  split
  · exact h
  · split
    · exact h
    · extract_lets -underBinder
      split
      · exact h
      · exact h

theorem State.Canon.execAdhPartnerSet {c port entry fields} (h : s.Canon) : Out.Canon (Machine.execAdhPartnerSet c port entry fields s) :=
  .next (.adhRun h (fun _ => .doPartnerSet h))

theorem State.Canon.doRouteLoad {routes} (h : s.Canon) : (Machine.doRouteLoad routes s).s.Canon := by
  unfold Machine.doRouteLoad
  split
  · exact h
  · exact .adhOk (.foldl (.pathWatch h) (fun _ _ ht => .pathEvent ht))

theorem State.Canon.execAdhRouteLoad {c routes} (h : s.Canon) : Out.Canon (Machine.execAdhRouteLoad c routes s) :=
  .next (.adhRun h (fun _ => .doRouteLoad h))

theorem State.Canon.doFabricPolicy {deadBound msgTimeout rnrLimit} (h : s.Canon) :
    (Machine.doFabricPolicy deadBound msgTimeout rnrLimit s).s.Canon := by
  unfold Machine.doFabricPolicy
  split
  · exact h
  · exact h

theorem State.Canon.execAdhFabricPolicy {c deadBound msgTimeout rnrLimit} (h : s.Canon) :
    Out.Canon (Machine.execAdhFabricPolicy c deadBound msgTimeout rnrLimit s) := .next (.adhRun h (fun _ => .doFabricPolicy h))

theorem State.Canon.doTimeConfig {domain asymmetry pps p1 p2 tod utc} (h : s.Canon) :
    (Machine.doTimeConfig domain asymmetry pps p1 p2 tod utc s).s.Canon := by
  unfold Machine.doTimeConfig
  split
  · exact h
  · exact h

theorem State.Canon.execAdhTimeConfig {c domain asymmetry pps p1 p2 tod utc} (h : s.Canon) :
    Out.Canon (Machine.execAdhTimeConfig c domain asymmetry pps p1 p2 tod utc s) := .next (.adhRun h (fun _ => .doTimeConfig h))

theorem State.Canon.doWindowOpen {window base limit owner rights comp listMask srcs} (h : s.Canon) :
    (Machine.doWindowOpen window base limit owner rights comp listMask srcs s).s.Canon := by
  unfold Machine.doWindowOpen
  split
  · exact h
  · extract_lets -underBinder
    split
    · exact h
    · exact h

theorem State.Canon.execAdhWindowOpen {c window base limit owner rights comp listMask srcs} (h : s.Canon) :
    Out.Canon (Machine.execAdhWindowOpen c window base limit owner rights comp listMask srcs s) := .next (.adhRun h (fun _ => .doWindowOpen h))

theorem State.Canon.doWindowRevoke {c window} (h : s.Canon) : (Machine.doWindowRevoke c window s).s.Canon := by
  unfold Machine.doWindowRevoke
  extract_lets -underBinder
  split
  · exact h
  · split
    · exact h
    · split
      · exact h
      · split
        · exact h
        · split
          · exact h
          · split
            · exact .ite h h
            · exact h

theorem State.Canon.execAdhWindowRevoke {c window} (h : s.Canon) : Out.Canon (Machine.execAdhWindowRevoke c window s) :=
  .next (.ite (.adhRun h (fun _ => .doWindowRevoke h)) (.adhRun h (fun _ => .doWindowRevoke h)))

theorem State.Canon.doWindowRenew {c window} (h : s.Canon) : (Machine.doWindowRenew c window s).s.Canon := by
  unfold Machine.doWindowRenew
  extract_lets -underBinder
  split
  · exact h
  · split
    · exact h
    · split
      · exact h
      · exact h

theorem State.Canon.execAdhWindowRenew {c window} (h : s.Canon) : Out.Canon (Machine.execAdhWindowRenew c window s) :=
  .next (.adhRun h (fun _ => .doWindowRenew h))

theorem State.Canon.doWindowClose {window} (h : s.Canon) : (Machine.doWindowClose window s).s.Canon := by
  unfold Machine.doWindowClose
  split
  · exact h
  · extract_lets -underBinder
    split
    · split
      · exact h
      · exact h
    · exact h

theorem State.Canon.execAdhWindowClose {c window} (h : s.Canon) : Out.Canon (Machine.execAdhWindowClose c window s) :=
  .next (.adhRun h (fun _ => .doWindowClose h))

theorem State.Canon.doWindowRead {c window} (h : s.Canon) : (Machine.doWindowRead c window s).s.Canon := by
  unfold Machine.doWindowRead
  split
  · exact h
  · split
    · exact h
    · exact h

theorem State.Canon.execAdhWindowRead {c window} (h : s.Canon) : Out.Canon (Machine.execAdhWindowRead c window s) :=
  .next (.adhRun h (fun _ => .doWindowRead h))

end Sys2Proof.Machine
end

section
/-! SUPPORT. The operations of Machine/Packets keep memory's canonical form. -/

namespace Sys2Proof.Machine
open Sys2Proof

variable {s : State}

theorem State.Canon.messageIn {port p} (h : s.Canon) : (s.messageIn port p).Canon := by
  unfold State.messageIn
  extract_lets -underBinder s'
  have hs' : s'.Canon := .heard (.consume h)
  split
  · exact hs'
  · split
    · exact .refusePkt hs'
    · split
      · exact .ite hs' (.ite (.refusePkt (.violate hs')) (.issue hs'))
      · split
        · exact .answerPkt hs'
        · split
          next s1 e =>
            have hs1 : s1.Canon := .snd e (.arriveMsg hs')
            exact .answerPkt (.ite (.record hs1) hs1)

theorem State.Canon.execSendData {port p} (h : s.Canon) : Out.Canon (Machine.execSendData port p s) :=
  .next (.whenLive h (fun _ => .ite h (.ingress h (fun _ ht => .messageIn ht))))

theorem State.Canon.passIn {port p} (h : s.Canon) : (s.passIn port p).Canon := .ite (.messageIn h) (.receiveIn h)

theorem State.Canon.execMsgCtrl {p} (h : s.Canon) : Out.Canon (Machine.execMsgCtrl p s) :=
  .next (.whenLive h (fun _ => .ite h (.ite (.discard (.heard (.consume h))) (.ite (.heard (.consume h)) (.applyCtrl (.heard (.consume h)))))))

theorem State.Canon.execPacketResponseReceive {p} (h : s.Canon) : Out.Canon (Machine.execPacketResponseReceive p s) := by
  unfold Machine.execPacketResponseReceive
  refine .next (.whenLive h (fun _ => ?_))
  split
  · exact h
  · extract_lets -underBinder key s'
    have hs' : s'.Canon := .heard (.consume h)
    split
    · exact hs'
    · split
      · exact hs'
      · split
        · split
          · exact hs'
          · extract_lets -underBinder s1
            have hs1 : s1.Canon := .respondReq hs'
            split
            · exact .sendOnward hs1
            · exact hs1
        · exact hs'

theorem State.Canon.execPacketTransitForward {port p} (h : s.Canon) : Out.Canon (Machine.execPacketTransitForward port p s) := by
  unfold Machine.execPacketTransitForward
  refine .next (.whenLive h (fun _ => ?_))
  split
  · exact h
  · extract_lets -underBinder known drop gone
    have hgone : gone.Canon := .consume h
    split
    · exact h
    · split
      · exact h
      · split
        · exact .ite hgone (.refusePkt hgone)
        · split
          · exact hgone
          · split
            · exact .ite (.enqueue hgone) (.ite h h)
            · exact .ite h h

theorem State.Canon.execTransitCreditTimeout {id} (h : s.Canon) : Out.Canon (Machine.execTransitCreditTimeout id s) := by
  unfold Machine.execTransitCreditTimeout
  refine .next (.whenLive h (fun _ => ?_))
  split
  · exact h
  · exact .ite h (.discard (.consume h))

theorem State.Canon.execRetryIntervalTimer {dst tag} (h : s.Canon) : Out.Canon (Machine.execRetryIntervalTimer dst tag s) := by
  unfold Machine.execRetryIntervalTimer
  refine .next (.whenLive h (fun _ => ?_))
  split
  · exact h
  · split
    · exact h
    · split
      · exact h
      · exact .resendOn (.markDown h)

theorem State.Canon.execDeadBoundExpiry {dst tag} (h : s.Canon) : Out.Canon (Machine.execDeadBoundExpiry dst tag s) := by
  unfold Machine.execDeadBoundExpiry
  refine .next (.whenLive h (fun _ => ?_))
  split
  · exact h
  · exact .ite h (.ite (.completeReq h) (.completeReq (.deadFail h)))

theorem State.Canon.execPathProbeTimer {dst path} (h : s.Canon) : Out.Canon (Machine.execPathProbeTimer dst path s) :=
  .next (.whenLive h (fun _ => .ite h (.sendOn h)))

theorem State.Canon.execPathEventHoldTimer {dst up} (h : s.Canon) : Out.Canon (Machine.execPathEventHoldTimer dst up s) :=
  .next (.whenLive h (fun _ => .ite h (.raise0 h)))

theorem State.Canon.execRnrResendTimer {dst tag} (h : s.Canon) : Out.Canon (Machine.execRnrResendTimer dst tag s) := by
  unfold Machine.execRnrResendTimer
  refine .next (.whenLive h (fun _ => ?_))
  split
  · exact h
  · split
    · exact h
    · split
      · split
        · exact .endSend h
        · exact .completeReq h
      · split
        · exact h
        · extract_lets -underBinder
          split
          · exact .localMsg h
          · split
            next u e =>
              have hu : u.Canon := .snd e (.pickPath h)
              exact .resendOn hu

theorem State.Canon.execMsgTimeout {src msg} (h : s.Canon) : Out.Canon (Machine.execMsgTimeout src msg s) := by
  unfold Machine.execMsgTimeout
  refine .next (.whenLive h (fun _ => ?_))
  split
  · exact h
  · exact .ite h (.failMessage h)

theorem State.Canon.execSendCtrlTimeout {msg} (h : s.Canon) : Out.Canon (Machine.execSendCtrlTimeout msg s) := by
  unfold Machine.execSendCtrlTimeout
  refine .next (.whenLive h (fun _ => ?_))
  split
  · exact h
  · exact .ite h (.endSend h)

theorem State.Canon.execTombstoneExpiry {src msg} (h : s.Canon) : Out.Canon (Machine.execTombstoneExpiry src msg s) := by
  unfold Machine.execTombstoneExpiry
  refine .next (.whenLive h (fun _ => ?_))
  split
  · exact .ite h h
  · exact h

theorem State.Canon.execTriggerExpire {cid} (h : s.Canon) : Out.Canon (Machine.execTriggerExpire cid s) := by
  unfold Machine.execTriggerExpire
  refine .next (.whenLive h (fun _ => ?_))
  split
  · exact h
  · exact .ite h h

theorem State.Canon.execWindowDrained {w} (h : s.Canon) : Out.Canon (Machine.execWindowDrained w s) :=
  .next (.whenLive h (fun _ => .ite h (.foldl h (fun _ _ ht => .finishOp ht))))

theorem State.Canon.execWindowGenHoldTimer {w} (h : s.Canon) : Out.Canon (Machine.execWindowGenHoldTimer w s) := .next (.whenLive h (fun _ => h))

end Sys2Proof.Machine
end

section
/-! SUPPORT. The operations of Machine/Traffic keep memory's canonical form. -/

namespace Sys2Proof.Machine
open Sys2Proof

variable {s : State}

theorem State.Canon.execIngressRequestPacket {port pkt} (h : s.Canon) : Out.Canon (Machine.execIngressRequestPacket port pkt s) :=
  .next (.whenLive h (fun _ => .ite h (.ingress h (fun _ ht => .passIn ht))))

theorem State.Canon.policerPass {port partner tc ps b} (h : s.Canon) : (Machine.policerPass port partner tc ps b s).Canon := by
  induction ps generalizing s b with
  | nil => exact .setPolicer h
  | cons p ps ih =>
    unfold Machine.policerPass
    exact .ite (ih h.passIn) (.ite (ih h.passIn) h.setPolicer)

theorem State.Canon.execPolicerRelease {port partner tc} (h : s.Canon) : Out.Canon (Machine.execPolicerRelease port partner tc s) :=
  .next (.whenLive h (fun _ => .ite h (.policerPass h)))

theorem State.Canon.execShaperSlotBoundary (h : s.Canon) : Out.Canon (Machine.execShaperSlotBoundary s) :=
  .next (.whenLive h (fun _ => .ite h (.foldl h (fun _ _ ht => .releaseShaper ht))))

theorem State.Canon.settlePort {port} (h : s.Canon) : (s.settlePort port).Canon := .foldl h (fun _ _ ht => .telSettle ht)

theorem State.Canon.execGateIntervalBoundary {port} (h : s.Canon) : Out.Canon (Machine.execGateIntervalBoundary port s) :=
  .next (.whenLive h (fun _ => .ite h (.updGates (.settlePort h))))

theorem State.Canon.execGateTakeover {port} (h : s.Canon) : Out.Canon (Machine.execGateTakeover port s) := by
  unfold Machine.execGateTakeover
  refine .next (.whenLive h (fun _ => ?_))
  extract_lets -underBinder
  split
  · exact h
  · exact .ite h (.ite h (.raise0 (.updGates (.settlePort h))))

theorem State.Canon.execGateTestListEnd {port} (h : s.Canon) : Out.Canon (Machine.execGateTestListEnd port s) := by
  unfold Machine.execGateTestListEnd
  refine .next (.whenLive h (fun _ => ?_))
  split
  · exact h
  · exact .ite h (.updGates (.settlePort h))

theorem State.Canon.execGateFallbackTimer {port} (h : s.Canon) : Out.Canon (Machine.execGateFallbackTimer port s) :=
  .next (.whenLive h (fun _ => .ite h (.raise0 (.updGates (.settlePort h)))))

theorem State.Canon.execTelemetrySample {vi} (h : s.Canon) : Out.Canon (Machine.execTelemetrySample vi s) := by
  unfold Machine.execTelemetrySample
  refine .next (.whenLive h (fun _ => ?_))
  split
  · exact h
  · exact .ite h (.foldl (.foldl h (fun _ _ ht => .ite (.telSettle ht) ht)) (fun _ _ ht => .ite (.wrWords ht) ht))

theorem State.Canon.doTrafficClasses {classes} (h : s.Canon) : (Machine.doTrafficClasses classes s).s.Canon := by
  unfold Machine.doTrafficClasses
  split
  · exact h
  · exact h

theorem State.Canon.execAdhTrafficClasses {c classes} (h : s.Canon) : Out.Canon (Machine.execAdhTrafficClasses c classes s) :=
  .next (.adhRun h (fun _ => .doTrafficClasses h))

theorem State.Canon.doGateLoad {c port obj} (h : s.Canon) : (Machine.doGateLoad c port obj s).s.Canon := by
  unfold Machine.doGateLoad
  split
  · exact h
  · split
    · exact h
    · extract_lets -underBinder
      split
      · exact h
      · split
        · exact h
        · split
          · exact h
          · split
            · exact h
            · exact h

theorem State.Canon.execAdhGateLoad {c port obj} (h : s.Canon) : Out.Canon (Machine.execAdhGateLoad c port obj s) :=
  .next (.adhRun h (fun _ => .doGateLoad h))

theorem State.Canon.doGatePolicy {port guard after openFallback} (h : s.Canon) : (Machine.doGatePolicy port guard after openFallback s).s.Canon := by
  unfold Machine.doGatePolicy
  split
  · exact h
  · exact h

theorem State.Canon.execAdhGatePolicy {c port guard after openFallback} (h : s.Canon) :
    Out.Canon (Machine.execAdhGatePolicy c port guard after openFallback s) := .next (.adhRun h (fun _ => .doGatePolicy h))

theorem State.Canon.doShaperSet {c vi tc rate burst} (h : s.Canon) : (Machine.doShaperSet c vi tc rate burst s).s.Canon := by
  unfold Machine.doShaperSet
  split
  · exact h
  · split
    · exact h
    · extract_lets -underBinder
      split
      · exact .adhOk (.releaseShaper h)
      · exact h

theorem State.Canon.execAdhShaperSet {c vi tc rate burst} (h : s.Canon) : Out.Canon (Machine.execAdhShaperSet c vi tc rate burst s) :=
  .next (.adhRun h (fun _ => .doShaperSet h))

theorem State.Canon.doPoliceSet {port partner tc rate burst classes} (h : s.Canon) :
    (Machine.doPoliceSet port partner tc rate burst classes s).s.Canon := by
  unfold Machine.doPoliceSet
  split
  · exact h
  · exact .adhOk (.policerPass h)

theorem State.Canon.execAdhPoliceSet {c port partner tc rate burst classes} (h : s.Canon) :
    Out.Canon (Machine.execAdhPoliceSet c port partner tc rate burst classes s) := .next (.adhRun h (fun _ => .doPoliceSet h))

theorem State.Canon.doTelemetryConfig {c base log2 period queues} (h : s.Canon) :
    (Machine.doTelemetryConfig c base log2 period queues s).s.Canon := by
  unfold Machine.doTelemetryConfig
  extract_lets -underBinder
  split
  · exact h
  · split
    · exact h
    · split
      · exact h
      · exact h

theorem State.Canon.execAdhTelemetryConfig {c base log2 period queues} (h : s.Canon) :
    Out.Canon (Machine.execAdhTelemetryConfig c base log2 period queues s) := .next (.adhRun h (fun _ => .doTelemetryConfig h))

end Sys2Proof.Machine
end

section
/-! SUPPORT. The operations of Machine/Tiers keep memory's canonical form. -/

namespace Sys2Proof.Machine
open Sys2Proof

variable {s : State}

theorem State.Canon.execDemotionPass {comp} (h : s.Canon) : Out.Canon (Machine.execDemotionPass comp s) := by
  unfold Machine.execDemotionPass
  refine .next (.whenLive h (fun _ => ?_))
  extract_lets -underBinder
  split
  · exact h
  · split
    · exact h
    · extract_lets -underBinder _ s1
      have hs1 : s1.Canon := .update h
      split
      next t e =>
        exact .startMigration hs1 e
      · exact .update hs1

theorem State.Canon.dropMigration {da dst} (h : s.Canon) : (s.dropMigration da dst).Canon := .update (.dropClaim h)

theorem State.Canon.execMigrationComplete {desc} (h : s.Canon) : Out.Canon (Machine.execMigrationComplete desc s) := by
  unfold Machine.execMigrationComplete
  refine .next (.whenLive h (fun _ => ?_))
  split
  · exact h
  · extract_lets -underBinder
    split
    · exact .dropMigration (.raise0 (.setDesc h))
    · split
      · exact .dropMigration (.planeFail h)
      · extract_lets -underBinder codeOnly repr slot s1 s2 s3
        have hs1 : s1.Canon := .store h
        have hs2 : s2.Canon := .descRefs (.bookSlot (.setDesc hs1))
        have hs3 : s3.Canon := by
          unfold s3
          split
          · exact .ite (.setMapEntry hs2) hs2
          · unfold s2
            exact .descRefs (.bookSlot (.setDesc hs1))
        exact .freeOrWait hs3

theorem State.Canon.execPromotionDeadline {desc} (h : s.Canon) : Out.Canon (Machine.execPromotionDeadline desc s) := by
  unfold Machine.execPromotionDeadline
  refine .next (.whenLive h (fun _ => ?_))
  split
  · exact h
  · extract_lets -underBinder comp s1
    have hs1 : s1.Canon := .dropMigration h
    split
    · exact h
    · split
      · exact .startPull hs1
      · exact hs1

theorem State.Canon.blockLineLost {a} (h : s.Canon) : (s.blockLineLost a).Canon := by
  unfold State.blockLineLost
  split
  · exact h
  · exact .ite h (.planeFail h)

theorem State.Canon.execScrubLine {line outcome} (h : s.Canon) : Out.Canon (Machine.execScrubLine line outcome s) := by
  unfold Machine.execScrubLine
  exact .next (.whenLive h (fun _ => .ite h (.ite (.ite (.raise0 (.unitEvent (.unitEvent h))) (.unitEvent (.unitEvent h))) (.ite (.blockLineLost
    (.dramError (.unitEvent (.unitEvent h)))) (.unitEvent (.unitEvent h))))))

theorem State.Canon.execRowRepair {ch group row hard} (h : s.Canon) : Out.Canon (Machine.execRowRepair ch group row hard s) := by
  unfold Machine.execRowRepair
  exact .next (.whenLive h (fun _ => .ite h (.ite (.ite (.raise0 h) h) (.ite h (.ite (.spareUsed (.raise0 h)) (.ite (.spareUsed (.raise0 h)) (.ite
    (.capReduced (.settle (.capReduced h))) (.capReduced h))))))))

theorem State.Canon.moveSector {sec} (h : s.Canon) : (s.moveSector sec).Canon := by
  unfold State.moveSector
  split
  · exact h
  · extract_lets -underBinder t
    have ht : t.Canon := .mapSector h
    split
    · exact ht
    · exact ht

theorem State.Canon.execFlashRelocate {sector} (h : s.Canon) : Out.Canon (Machine.execFlashRelocate sector s) :=
  .next (.whenLive h (fun _ => .ite (.moveSector h) h))

theorem State.Canon.execFlashGc {ch block} (h : s.Canon) : Out.Canon (Machine.execFlashGc ch block s) :=
  .next (.whenLive h (fun _ => .ite h (.unitEvent (.foldl h (fun _ _ ht => .moveSector ht)))))

theorem State.Canon.execNandBlockFail {ch block} (h : s.Canon) : Out.Canon (Machine.execNandBlockFail ch block s) := by
  unfold Machine.execNandBlockFail
  exact .next (.whenLive h (fun _ => .ite h (.ite (.capReduced (.spareUsed (.raise0 (.ite (.foldl (.foldl h (fun _ _ ht => .moveSector ht))
    (fun _ _ ht => .moveSector ht)) (.foldl h (fun _ _ ht => .moveSector ht)))))) (.spareUsed (.raise0 (.ite (.foldl (.foldl h
      (fun _ _ ht => .moveSector ht)) (fun _ _ ht => .moveSector ht)) (.foldl h (fun _ _ ht => .moveSector ht))))))))

end Sys2Proof.Machine
end

section
/-! SUPPORT. The operations of Machine/Weights keep memory's canonical form. -/

namespace Sys2Proof.Machine
open Sys2Proof

variable {s : State}

theorem State.Canon.sendBytes {c tc a bs} (h : s.Canon) : (s.sendBytes c tc a bs).Canon := .foldl h (fun _ _ ht => .sendReq ht)

theorem State.Canon.endStream {cid st result} (h : s.Canon) : (s.endStream cid st result).Canon := h

theorem State.Canon.setStream {cid x} (h : s.Canon) : (s.setStream cid x).Canon := h

theorem State.Canon.layerDone {cid c o x} (h : s.Canon) : (s.layerDone cid c o x).Canon :=
  .setStream (.updCmd (.ite (.raise0 (.sendReq (.sendBytes h))) (.sendReq (.sendBytes h))))

theorem State.Canon.streamPump {cid remote n} (h : s.Canon) : (Machine.streamPump cid remote n s).Canon := by
  induction n generalizing s with
  | zero => exact h
  | succ n ih =>
    unfold Machine.streamPump
    split
    · extract_lets -underBinder
      split
      · exact h
      · refine .ite (.endStream h) (.ite (.endStream h) (.ite (.setStream h) ?_))
        extract_lets -underBinder
        split
        · exact ih (.layerDone (.setStream h))
        · extract_lets -underBinder ent next
          have hnext {t : State} (ht : t.Canon) : (next t).Canon := ih (.updCmd (.setStream ht))
          refine .ite (.endStream h) ?_
          split
          · exact .setStream h
          · exact hnext h
          · exact hnext (.raise0 h)
          · extract_lets -underBinder
            split
            refine .ite (.endStream h) ?_
            split
            · exact .endStream h
            · extract_lets off s1 s2 x1
              have hs2 : s2.Canon := .updCmd (.sendBytes h)
              exact .ite (.endStream (.setStream hs2)) (ih (.setStream hs2))
    · exact h

theorem State.Canon.execWindowStream {cid remote} (h : s.Canon) : Out.Canon (Machine.execWindowStream cid remote s) := by
  unfold Machine.execWindowStream
  refine .next (.whenLive h (fun _ => ?_))
  split
  · exact h
  · exact .streamPump (.ite h h)

theorem State.Canon.execWindowCancel {cid} (h : s.Canon) : Out.Canon (Machine.execWindowCancel cid s) := by
  unfold Machine.execWindowCancel
  refine .next (.whenLive h (fun _ => ?_))
  split
  · exact h
  · extract_lets -underBinder
    split
    · exact h
    · split
      · exact h
      · exact .finish (.ite h h)

theorem State.Canon.execReleasePoll {cid} (h : s.Canon) : Out.Canon (Machine.execReleasePoll cid s) := by
  unfold Machine.execReleasePoll
  refine .next (.whenLive h (fun _ => ?_))
  split
  · exact .ite h (.streamPump h)
  · exact h

theorem State.Canon.execLayerDue {cid} (h : s.Canon) : Out.Canon (Machine.execLayerDue cid s) := by
  unfold Machine.execLayerDue
  refine .next (.whenLive h (fun _ => ?_))
  split
  · exact .ite h h
  · exact h

theorem State.Canon.execLateLimitExpiry {cid} (h : s.Canon) : Out.Canon (Machine.execLateLimitExpiry cid s) := by
  unfold Machine.execLateLimitExpiry
  refine .next (.whenLive h (fun _ => ?_))
  split
  · exact .ite h h
  · exact h

theorem State.Canon.execTileCopyTimeout {cid} (h : s.Canon) : Out.Canon (Machine.execTileCopyTimeout cid s) := by
  unfold Machine.execTileCopyTimeout
  refine .next (.whenLive h (fun _ => ?_))
  split
  · exact .ite h (.streamPump h)
  · exact h

theorem State.Canon.decodeTile {c f remote acc i} (h : acc.2.2.Canon) : (Cmd.decodeTile c f remote acc i).2.2.Canon := by
  unfold Cmd.decodeTile
  split
  split
  · exact h
  · extract_lets -underBinder
    split
    extract_lets -underBinder t1
    have ht1 : t1.Canon := .foldl h (fun _ _ hu => .raise0 hu)
    split
    · exact ht1
    · split
      · exact ht1
      · exact ht1

theorem State.Canon.decodeRun {c f remote n} (h : s.Canon) : (s.decodeRun c f remote n).2.2.Canon :=
  List.foldlRecOn (motive := fun (acc : List Byte × Option Status × State) => acc.2.2.Canon) _ _ h (fun _ hacc _ _ => .decodeTile hacc)

theorem State.Canon.execDecodeTiles {cid remote} (h : s.Canon) : Out.Canon (Machine.execDecodeTiles cid remote s) := by
  unfold Machine.execDecodeTiles
  refine .next (.whenLive h (fun _ => ?_))
  split
  · exact h
  · split
    · exact .finish h
    · extract_lets -underBinder
      split
      next st s1 e =>
        have hs1 : s1.Canon := .thd e (.decodeRun h)
        exact .finish hs1
      next s1 e =>
        have hs1 : s1.Canon := .thd e (.decodeRun h)
        exact .finish (.note (.store hs1))

theorem State.Canon.doWeightsLoad {c slot entries tiles} (h : s.Canon) : (Machine.doWeightsLoad c slot entries tiles s).s.Canon := by
  unfold Machine.doWeightsLoad
  extract_lets -underBinder
  split
  · exact h
  · split
    · exact h
    · split
      · exact h
      · split
        · exact h
        · split
          · exact h
          · exact .adhOk (.wr (.wrWords (.foldl h (fun _ _ ht => .store ht))))

theorem State.Canon.execAdhWeightsLoad {c slot entries tiles} (h : s.Canon) : Out.Canon (Machine.execAdhWeightsLoad c slot entries tiles s) :=
  .next (.adhRunD h (fun _ => .doWeightsLoad h))

end Sys2Proof.Machine
end

section
/-! SUPPORT. The operations of Machine/AdhTrust keep memory's canonical form. -/

namespace Sys2Proof.Machine
open Sys2Proof

variable {s : State}

theorem State.Canon.doTrustInstall {da no} (h : s.Canon) : (Machine.doTrustInstall da no s).s.Canon := by
  unfold Machine.doTrustInstall
  split
  · exact h
  · exact h

theorem State.Canon.execAdhTrustInstall {c da no} (h : s.Canon) : Out.Canon (Machine.execAdhTrustInstall c da no s) :=
  .next (.adhRun h (fun _ => .doTrustInstall h))

theorem State.Canon.doTrustRotate {da no} (h : s.Canon) : (Machine.doTrustRotate da no s).s.Canon := by
  unfold Machine.doTrustRotate
  split
  · exact h
  · split
    · exact h
    · exact h

theorem State.Canon.execAdhTrustRotate {c da no} (h : s.Canon) : Out.Canon (Machine.execAdhTrustRotate c da no s) :=
  .next (.adhRun h (fun _ => .doTrustRotate h))

theorem State.Canon.execAdhTrustClear {c} (h : s.Canon) : Out.Canon (Machine.execAdhTrustClear c s) := .next (.adhRun h (fun _ => h))

theorem State.Canon.doFirmwareUpdate {image raiseSvn} (h : s.Canon) : (Machine.doFirmwareUpdate image raiseSvn s).s.Canon := by
  unfold Machine.doFirmwareUpdate
  split
  · exact h
  · exact h

theorem State.Canon.execAdhFirmwareUpdate {c image raiseSvn} (h : s.Canon) : Out.Canon (Machine.execAdhFirmwareUpdate c image raiseSvn s) :=
  .next (.adhRun h (fun _ => .doFirmwareUpdate h))

theorem State.Canon.doPersonalitySet {p} (h : s.Canon) : (Machine.doPersonalitySet p s).s.Canon := by
  unfold Machine.doPersonalitySet
  split
  · exact h
  · exact h

theorem State.Canon.execAdhPersonalitySet {c p} (h : s.Canon) : Out.Canon (Machine.execAdhPersonalitySet c p s) :=
  .next (.adhRun h (fun _ => .doPersonalitySet h))

theorem State.Canon.execAdhNodeReset {c time} (h : s.Canon) : Out.Canon (Machine.execAdhNodeReset c time s) := .next (.adhRun h (fun _ => h))

theorem State.Canon.execAdhCroakKey {c key} (h : s.Canon) : Out.Canon (Machine.execAdhCroakKey c key s) := .next (.adhRun h (fun _ => h))

theorem State.Canon.runAction {c a} (h : s.Canon) : (Machine.runAction c a s).s.Canon := by
  unfold Machine.runAction
  split
  · exact .doMgmtConfig h
  · exact h
  · exact .doViAssign h
  · exact .doViRelease h
  · exact .doEngineConfig h
  · exact .doPhaseShare h
  · exact .doContextLoad h
  · exact .doCodebookFactors h
  · exact .doCodebookLoad h
  · exact .doCalibrationPolicy h
  · exact .doAttendPolicy h
  · exact .doWeightsLoad h
  · exact .doCompositionDefine h
  · exact .doAdmissionPolicy h
  · exact .doLeapPolicy h
  · exact .doLeapStart h
  · exact .doArenaDefine h
  · exact .doTierConfig h
  · exact .doTierPolicy h
  · exact .doScrubPolicy h
  · exact .doRegionSet h
  · exact .doQuotaSet h
  · exact .doPortConfig h
  · exact .doPartnerSet h
  · exact .doRouteLoad h
  · exact .doFabricPolicy h
  · exact .doTimeConfig h
  · exact .doWindowOpen h
  · exact .doWindowRevoke h
  · exact .doWindowClose h
  · exact .doTrafficClasses h
  · exact .doGatePolicy h
  · exact .doShaperSet h
  · exact .doPoliceSet h
  · exact .doTrustRotate h
  · exact h
  · exact .doRightsSet h
  · exact .doFirmwareUpdate h
  · exact .doPersonalitySet h
  · exact h
  · exact h

theorem State.Canon.runActions {c as n} (h : s.Canon) : (Machine.runActions c as n s).2.Canon := by
  induction as generalizing s n with
  | nil => exact h
  | cons a as ih =>
    unfold Machine.runActions
    refine .iteSnd h (ih ?_)
    have ho : (Machine.runAction c a s).s.Canon := .runAction h
    split
    · exact .update ho
    · exact ho

theorem State.Canon.doChangeOrder {c order actions} (h : s.Canon) : (Machine.doChangeOrder c order actions s).s.Canon := by
  unfold Machine.doChangeOrder
  extract_lets -underBinder
  split
  · exact h
  · split
    · exact h
    · split
      · exact .adhFail (.violate h)
      · split
        · exact h
        · split
          · exact h
          · split
            · exact h
            · split
              next o n snd e =>
                exact h
              next s1 e =>
                have hs1 : s1.Canon := .snd e (.runActions h)
                exact .raise0 hs1

theorem State.Canon.execAdhChangeOrder {c order actions} (h : s.Canon) : Out.Canon (Machine.execAdhChangeOrder c order actions s) :=
  .next (.adhRun h (fun _ => .doChangeOrder h))

theorem State.Canon.execOrderDrainDone (h : s.Canon) : Out.Canon (Machine.execOrderDrainDone s) := by
  unfold Machine.execOrderDrainDone
  refine .next (.whenLive h (fun _ => ?_))
  split
  · exact h
  · exact .ite h (.finishOp h)

theorem State.Canon.doAttest {nonce} (h : s.Canon) : (Machine.doAttest nonce s).s.Canon := by
  unfold Machine.doAttest
  split
  · exact h
  · exact h

theorem State.Canon.execAdhAttest {c nonce} (h : s.Canon) : Out.Canon (Machine.execAdhAttest c nonce s) := .next (.adhRun h (fun _ => .doAttest h))

theorem State.Canon.execAdhSessionOpen {c principal challenge sig} (h : s.Canon) :
    Out.Canon (Machine.execAdhSessionOpen c principal challenge sig s) := by
  unfold Machine.execAdhSessionOpen
  extract_lets -underBinder
  refine .next ?_
  split
  · exact h
  · refine .keeping ?_
    split
    · exact .gram (.violate h)
    · exact .ite h (.ite (.gram (.violate h)) (.ite h h))

theorem State.Canon.doUpload {c off bytes} (h : s.Canon) : (Machine.doUpload c off bytes s).s.Canon := by
  unfold Machine.doUpload
  split
  · exact h
  · split
    · exact h
    · exact h

theorem State.Canon.execAdhUpload {c off bytes} (h : s.Canon) : Out.Canon (Machine.execAdhUpload c off bytes s) :=
  .next (.adhRun h (fun _ => .doUpload h))

theorem State.Canon.execMgmtSessionDatagram {bytes} (h : s.Canon) : Out.Canon (Machine.execMgmtSessionDatagram bytes s) := by
  unfold Machine.execMgmtSessionDatagram
  refine .next (.whenLive h (fun _ => ?_))
  extract_lets -underBinder
  split
  · exact h
  · extract_lets -underBinder
    split
    · exact h
    · split
      · exact h
      · exact h

theorem State.Canon.execSessionIdleTimer {id} (h : s.Canon) : Out.Canon (Machine.execSessionIdleTimer id s) := by
  unfold Machine.execSessionIdleTimer
  refine .next (.whenLive h (fun _ => ?_))
  split
  · exact h
  · exact .ite h h

theorem State.Canon.execAdeahFailover (h : s.Canon) : Out.Canon (Machine.execAdeahFailover s) := .next (.whenLive h (fun _ => .ite h (.raise0 h)))

theorem State.Canon.execCroakSendTimer {mg} (h : s.Canon) : Out.Canon (Machine.execCroakSendTimer mg s) := .next (.whenLive h (fun _ => .ite h h))

theorem State.Canon.execCroakReceive {plane bytes} (h : s.Canon) : Out.Canon (Machine.execCroakReceive plane bytes s) :=
  .next (.whenLive h (fun _ => .ite h (.ite h h)))

theorem State.Canon.croakDown {node} (h : s.Canon) : (s.croakDown node).Canon := .ite h (.foldl h (fun _ _ ht => .declareDown ht))

theorem State.Canon.execCroakMiss {node} (h : s.Canon) : Out.Canon (Machine.execCroakMiss node s) := by
  unfold Machine.execCroakMiss
  refine .next (.whenLive h (fun _ => ?_))
  split
  · exact h
  · exact .ite (.croakDown h) (.ite h (.ite h (.croakDown (.raise0 h))))

theorem State.Canon.execCroakPlaneTimer {node plane} (h : s.Canon) : Out.Canon (Machine.execCroakPlaneTimer node plane s) := by
  unfold Machine.execCroakPlaneTimer
  refine .next (.whenLive h (fun _ => ?_))
  split
  · exact h
  · exact .ite h (.raise0 h)

end Sys2Proof.Machine
end

section
/-! SUPPORT. The operations of Machine/Attend keep memory's canonical form. -/

namespace Sys2Proof.Machine
open Sys2Proof

variable {s : State}

theorem State.Canon.askPart {cid c r node das} (h : s.Canon) : (s.askPart cid c r node das).Canon := h

theorem State.Canon.prepBlock {rid l m b da r w node t} (h : s.Canon) (e : s.prepBlock rid l m b da r = some (w, node, t)) : t.Canon := by
  unfold State.prepBlock at e
  extract_lets -underBinder at e
  split at e
  · cases e
    exact h
  · split at e
    · split at e
      · cases e
        exact h
      · split at e
        next u e1 =>
          cases e
          exact .snd e1 (.startPull h)
        next u e1 =>
          split at e
          · cases e
            exact .snd e1 (.startPull h)
          · cases e
    · split at e
      · split at e
        · cases e
          exact h
        · obtain ⟨u, hu, ⟨⟩⟩ := Option.map_eq_some_iff.mp e
          exact .startMigration h hu
      · cases e
        exact h

theorem State.Canon.prepBlocks {cid rid l m r bs w far w' far' t} (h : s.Canon)
    (e : Machine.prepBlocks cid rid l m r bs w far s = .ok (w', far', t)) : t.Canon := by
  induction bs generalizing s w far with
  | nil =>
    cases e
    exact h
  | cons b bs ih =>
    unfold Machine.prepBlocks at e
    extract_lets -underBinder at e
    split at e
    · exact ih h e
    · split at e
      · cases e
      next hb => exact ih (.prepBlock h hb) e

theorem State.Canon.prepBlocksError {cid rid l m r bs w far t} (h : s.Canon)
    (e : Machine.prepBlocks cid rid l m r bs w far s = .error t) : t.Canon := by
  induction bs generalizing s w far with
  | nil => cases e
  | cons b bs ih =>
    unfold Machine.prepBlocks at e
    extract_lets -underBinder at e
    split at e
    · exact ih h e
    · split at e
      · cases e
        exact .finish h
      next hb => exact ih (.prepBlock h hb) e

theorem State.Canon.attendPrep {cid c} (h : s.Canon) : (s.attendPrep cid c).2.Canon := by
  unfold State.attendPrep
  extract_lets -underBinder
  split
  · split
    next t e => exact .prepBlocksError h e
    next t e => exact .prepBlocks h e
    next far t e =>
      have ht : t.Canon := .prepBlocks h e
      exact .foldl ht (fun _ _ hu => .askPart hu)
  · refine .foldlSnd h (fun _ _ hacc => .iteSnd hacc (.iteSnd hacc ?_))
    split
    next t e => exact .startMigration hacc e
    · exact .finish hacc
  · exact h

theorem State.Canon.blockFault {bs st t} (h : s.Canon) (e : s.blockFault bs = some (st, t)) : t.Canon := by
  unfold State.blockFault at e
  cases hb : bs.find? (fun b => !s.descOk b.da) with
  | none =>
    rw [hb] at e
    obtain ⟨_, -, ⟨⟩⟩ := Option.map_eq_some_iff.mp e
    exact .planeFail h
  | some b =>
    rw [hb] at e
    cases e
    exact .descFail h

theorem State.Canon.writeRows {a d final bf16 warn layer head rows} (h : s.Canon) : (s.writeRows a d final bf16 warn layer head rows).Canon :=
  .foldl h (fun _ _ ht => .store ht)

theorem State.Canon.endRows {cid rid a d final bf16 warn layer head result rows} (h : s.Canon) :
    (s.endRows cid rid a d final bf16 warn layer head result rows).Canon := by
  unfold State.endRows
  split
  · exact .finish (.raise0 (.writeRows h))
  · exact .ite h (.finish (.writeRows h))

theorem State.Canon.attendLocal {c ctx bs st t} (h : s.Canon) (e : s.attendLocal c ctx bs = .error (st, t)) : t.Canon := by
  unfold State.attendLocal at e
  extract_lets -underBinder at e
  split at e
  · cases e
    exact h
  · split at e
    · cases e
      exact h
    · split at e
      next hf =>
        cases e
        exact .blockFault h hf
      · cases e

theorem State.Canon.attendNote {cid ctx c bs res} (h : s.Canon) : (s.attendNote cid ctx c bs res).Canon := h

theorem State.Canon.replacePart {cid node} (h : s.Canon) : (s.replacePart cid node).Canon := by
  unfold State.replacePart
  split
  · exact h
  · extract_lets -underBinder w rid s0
    have hs0 : s0.Canon := .updCmd h
    split
    · exact .finish hs0
    · extract_lets -underBinder
      split
      next ok t e =>
        have ht : t.Canon := .snd e (.foldlSnd hs0 (fun _ _ hp => .startPull hp))
        exact .ite ht (.finish ht)

theorem State.Canon.execAttend {cid remote} (h : s.Canon) : Out.Canon (Machine.execAttend cid remote s) := by
  unfold Machine.execAttend
  refine .next (.whenLive h (fun _ => ?_))
  split
  · exact h
  · extract_lets -underBinder
    split
    · exact .finish h
    · extract_lets -underBinder
      split
      · exact .replacePart h
      · refine .ite h ?_
        extract_lets -underBinder
        split
        next t e =>
          have ht : t.Canon := .attendLocal h e
          exact .finish ht
        · exact .finish (.updCmd h)
        · exact .ite (.finish (.raise0 (.attendNote h))) (.endRows (.attendNote h))

theorem State.Canon.execAttendPartial {cid} (h : s.Canon) : Out.Canon (Machine.execAttendPartial cid s) := by
  unfold Machine.execAttendPartial
  refine .next (.whenLive h (fun _ => ?_))
  split
  · exact h
  · extract_lets -underBinder
    split
    next t e =>
      have ht : t.Canon := .attendLocal h e
      exact .finish ht
    · exact .ite (.finish (.raise0 (.attendNote h))) (.endRows (.attendNote h))

theorem State.Canon.execAttendMerge {cid} (h : s.Canon) : Out.Canon (Machine.execAttendMerge cid s) := by
  unfold Machine.execAttendMerge
  refine .next (.whenLive h (fun _ => ?_))
  split
  · exact h
  · extract_lets -underBinder
    split
    · exact h
    · split
      · exact h
      · split
        · exact h
        · exact .endRows h

theorem State.Canon.execRemotePartDeadline {cid node} (h : s.Canon) : Out.Canon (Machine.execRemotePartDeadline cid node s) := by
  unfold Machine.execRemotePartDeadline
  refine .next (.whenLive h (fun _ => ?_))
  split
  · exact h
  · split
    · exact .ite h (.replacePart h)
    · exact h

end Sys2Proof.Machine
end

section
/-! SUPPORT. The operations of Machine/Links keep memory's canonical form. -/

namespace Sys2Proof.Machine
open Sys2Proof

variable {s : State}

theorem State.Canon.credit {p pool total width} (h : s.Canon) : (s.credit p pool total width).Canon := .bookMove (.updPort (.telSettle h))

theorem State.Canon.arrive {p vc n bs} (h : s.Canon) : (Machine.arrive p vc n bs s).Canon := by
  induction n generalizing s bs with
  | zero => exact .updPort h
  | succ n ih =>
    unfold Machine.arrive
    refine .ite (.updPort h) ?_
    split
    · exact .updPort h
    · exact ih (.bookMove (.updPort h))

theorem State.Canon.execFlitReceive {port correctable f} (h : s.Canon) : Out.Canon (Machine.execFlitReceive port correctable f s) := by
  unfold Machine.execFlitReceive
  exact .next (.whenLive h (fun _ => .ite h (.ite (.ite (.unitEvent h) (.updPort (.unitEvent h))) (.ite (.credit (.closeSlots (.unitEvent h))) (.ite
    (.updPort (.credit (.closeSlots (.unitEvent h)))) (.ite (.updPort (.credit (.closeSlots (.unitEvent h)))) (.arrive (.updPort (.credit
      (.closeSlots (.unitEvent h)))))))))))

theorem State.Canon.execNakRepeatTimer {port} (h : s.Canon) : Out.Canon (Machine.execNakRepeatTimer port s) := .next (.whenLive h (fun _ => .ite h h))

theorem State.Canon.sendFlit {p f} (h : s.Canon) : (s.sendFlit p f).Canon := h

theorem State.Canon.fillFlit {p vc n bs cur first ends} (h : s.Canon) : (Machine.fillFlit p vc n bs cur first ends s).2.2.2.2.Canon := by
  induction n generalizing s bs cur first ends with
  | zero => exact h
  | succ n ih =>
    unfold Machine.fillFlit
    split
    · exact h
    · extract_lets -underBinder
      split
      · exact h
      · split
        · exact h
        · exact ih (.bookMove (.updPort (.linkMeter (.dequeue h))))

theorem State.Canon.sendData {p vc} (h : s.Canon) : (s.sendData p vc).Canon := by
  unfold State.sendData
  extract_lets -underBinder
  split
  next s1 e =>
    have hs1 : s1.Canon := .fifth e (.fillFlit h)
    exact .sendFlit (.updPort hs1)

theorem State.Canon.ethFrame {p n path seq ps} (h : s.Canon) : (s.ethFrame p n path seq ps).Canon := h

theorem State.Canon.sendFrame {p} (h : s.Canon) : (s.sendFrame p).Canon := by
  unfold State.sendFrame
  extract_lets -underBinder
  split
  · exact h
  · split
    · exact h
    · exact .ite h (.ethFrame (.updPort (.linkMeter (.dequeue (.unitEvent h)))))

theorem State.Canon.blockedTime {p} (h : s.Canon) : (s.blockedTime p).Canon := .ite (.unitEvent (.ite (.unitEvent h) h)) (.ite (.unitEvent h) h)

theorem State.Canon.execFlitSend {port} (h : s.Canon) : Out.Canon (Machine.execFlitSend port s) := by
  unfold Machine.execFlitSend
  refine .next (.whenLive h (fun _ => ?_))
  extract_lets -underBinder
  split
  · exact h
  · split
    · exact .sendFrame h
    · split
      · exact .sendFlit (.closeSlots (.unitEvent h))
      · split
        · exact h
        · split
          · exact h
          · extract_lets -underBinder
            split
            · exact .sendData (.unitEvent h)
            · exact .sendFlit (.blockedTime h)

theorem State.Canon.execNoFlitTimeout {port} (h : s.Canon) : Out.Canon (Machine.execNoFlitTimeout port s) := .next (.whenLive h (fun _ => .ite h h))

theorem State.Canon.execFastRetrainDone {port ok totals} (h : s.Canon) : Out.Canon (Machine.execFastRetrainDone port ok totals s) :=
  .next (.whenLive h (fun _ => .ite h (.ite (.leaveActive h) (.ite (.leaveActive h) (.updPort (.foldl h (fun _ _ ht => .credit ht)))))))

theorem State.Canon.train {p st} (h : s.Canon) : (s.train p st).Canon := h

theorem State.Canon.execSignalDetect {port} (h : s.Canon) : Out.Canon (Machine.execSignalDetect port s) := .next (.whenLive h (fun _ => .ite h h))

theorem State.Canon.execDetectRetryTimer {port} (h : s.Canon) : Out.Canon (Machine.execDetectRetryTimer port s) :=
  .next (.whenLive h (fun _ => .ite h h))

theorem State.Canon.equalized {p failed} (h : s.Canon) : (s.equalized p failed).Canon :=
  .ite (.train (.foldl h (fun _ _ ht => .laneFail ht))) (.train (.updPort (.foldl h (fun _ _ ht => .laneFail ht))))

theorem State.Canon.execEqualizeComplete {port failed} (h : s.Canon) : Out.Canon (Machine.execEqualizeComplete port failed s) :=
  .next (.whenLive h (fun _ => .ite (.equalized h) h))

theorem State.Canon.execFecLockComplete {port} (h : s.Canon) : Out.Canon (Machine.execFecLockComplete port s) :=
  .next (.whenLive h (fun _ => .ite h h))

theorem State.Canon.refusePort {p reason} (h : s.Canon) : (s.refusePort p reason).Canon := .raise0 h

theorem State.Canon.execCapsRecordReceive {port r} (h : s.Canon) : Out.Canon (Machine.execCapsRecordReceive port r s) := by
  unfold Machine.execCapsRecordReceive
  exact .next (.whenLive h (fun _ => .ite h (.ite (.refusePort h) (.ite (.refusePort h) (.ite (.raise0 h) (.ite (.refusePort h) (.ite
    (.refusePort h) (.ite h h))))))))

theorem State.Canon.execCreditInitComplete {port} (h : s.Canon) : Out.Canon (Machine.execCreditInitComplete port s) :=
  .next (.whenLive h (fun _ => .ite (.enterActive (.openPools h)) h))

theorem State.Canon.execTrainingTimeout {port failed} (h : s.Canon) : Out.Canon (Machine.execTrainingTimeout port failed s) := by
  unfold Machine.execTrainingTimeout
  refine .next (.whenLive h (fun _ => ?_))
  extract_lets -underBinder
  split
  · exact .ite h (.ite h (.equalized h))
  · exact .ite h (.ite h h)
  · exact .ite h h
  · exact .ite h h
  · exact h

theorem State.Canon.execLaneDown {port lane reason} (h : s.Canon) : Out.Canon (Machine.execLaneDown port lane reason s) := by
  unfold Machine.execLaneDown
  exact .next (.whenLive h (fun _ => .ite h (.ite (.ite (.control (.widthCheck (.laneFail h))) (.control (.widthCheck (.laneFail h)))) (.widthCheck
    (.laneFail h)))))

theorem State.Canon.execHoldDownExpiry {port lane} (h : s.Canon) : Out.Canon (Machine.execHoldDownExpiry port lane s) :=
  .next (.whenLive h (fun _ => .ite h h))

theorem State.Canon.execPrbsTestDone {port lane pass} (h : s.Canon) : Out.Canon (Machine.execPrbsTestDone port lane pass s) :=
  .next (.whenLive h (fun _ => .ite h (.ite (.laneFail h) (.ite h h))))

theorem State.Canon.execLaneServiceTimer {port lane} (h : s.Canon) : Out.Canon (Machine.execLaneServiceTimer port lane s) :=
  .next (.whenLive h (fun _ => .ite h h))

theorem State.Canon.widthOverruns {p} (h : s.Canon) : (s.widthOverruns p).Canon := .foldl h (fun _ _ ht => .ite ht ht)

theorem State.Canon.setWidth {p set} (h : s.Canon) : (s.setWidth p set).Canon :=
  .ite (.leaveActive (.raise0 (.updPort (.settle h)))) (.ite (.widthOverruns (.raise0 (.updPort (.settle h)))) (.raise0 (.updPort (.settle h))))

theorem State.Canon.execWidthChange {port mask fromPartner} (h : s.Canon) : Out.Canon (Machine.execWidthChange port mask fromPartner s) :=
  .next (.whenLive h (fun _ => .ite h (.ite (.ite h (.setWidth h)) (.ite h (.setWidth h)))))

theorem State.Canon.execWidthRiseTimer {port} (h : s.Canon) : Out.Canon (Machine.execWidthRiseTimer port s) :=
  .next (.whenLive h (fun _ => .ite (.setWidth h) h))

end Sys2Proof.Machine
end

section
/-! SUPPORT. The operations of Machine/Ethernet keep memory's canonical form. -/

namespace Sys2Proof.Machine
open Sys2Proof

variable {s : State}

theorem State.Canon.resendWindow {p n path w} (h : s.Canon) : (s.resendWindow p n path w).Canon := .foldl h (fun _ _ ht => ht)

theorem State.Canon.execEthFrameReceive {port frame fcsOk} (h : s.Canon) : Out.Canon (Machine.execEthFrameReceive port frame fcsOk s) := by
  unfold Machine.execEthFrameReceive
  refine .next (.whenLive h (fun _ => ?_))
  extract_lets -underBinder
  split
  · exact h
  · split
    · exact h
    · split
      · split
        · exact h
        · split
          · exact .violate h
          · exact .updPort (.ite (.resendWindow h) h)
      · split
        · exact h
        · split
          · exact .violate h
          · exact .updPort (.ite (.resendWindow h) h)

theorem State.Canon.execEthPathResendTimer {port partner path} (h : s.Canon) : Out.Canon (Machine.execEthPathResendTimer port partner path s) := by
  unfold Machine.execEthPathResendTimer
  refine .next (.whenLive h (fun _ => ?_))
  split
  · exact h
  · exact .ite h (.ite (.respray (.pathWatch h)) (.resendWindow h))

theorem State.Canon.execEthPathHoldDownExpiry {port partner path} (h : s.Canon) :
    Out.Canon (Machine.execEthPathHoldDownExpiry port partner path s) := by
  unfold Machine.execEthPathHoldDownExpiry
  refine .next (.whenLive h (fun _ => ?_))
  split
  · exact h
  · exact .ite (.pathWatch h) h

theorem State.Canon.execEthernetLinkUp {port} (h : s.Canon) : Out.Canon (Machine.execEthernetLinkUp port s) :=
  .next (.whenLive h (fun _ => .ite h (.enterActive h)))

end Sys2Proof.Machine
end

section
/-! SUPPORT. The operations of Machine/Lease keep memory's canonical form. -/

namespace Sys2Proof.Machine
open Sys2Proof

variable {s : State}

theorem State.Canon.execLeaseRenewTimer {home} (h : s.Canon) : Out.Canon (Machine.execLeaseRenewTimer home s) :=
  .next (.whenLive h (fun _ => .ite h h))

theorem State.Canon.execLeaseRenew {m sendTime heldCount freeRecords} (h : s.Canon) :
    Out.Canon (Machine.execLeaseRenew m sendTime heldCount freeRecords s) :=
  .next (.whenLive h (fun _ => .ite h (.ite h (.tell (.setHomeLease (.foldl h (fun _ _ ht => ht)))))))

theorem State.Canon.execLeaseAck {m expiry homeCount revokeCount} (h : s.Canon) :
    Out.Canon (Machine.execLeaseAck m expiry homeCount revokeCount s) := .next (.whenLive h (fun _ => .ite h (.ite h h)))

theorem State.Canon.execLeaseFenceTimer {home} (h : s.Canon) : Out.Canon (Machine.execLeaseFenceTimer home s) := by
  unfold Machine.execLeaseFenceTimer
  refine .next (.whenLive h (fun _ => ?_))
  split
  · exact .ite h h
  · exact h

theorem State.Canon.execLeaseLapse {holder} (h : s.Canon) : Out.Canon (Machine.execLeaseLapse holder s) := by
  unfold Machine.execLeaseLapse
  refine .next (.whenLive h (fun _ => ?_))
  split
  · exact .ite h (.foldl (.raise0 (.foldl h (fun _ _ ht => .faultOf ht))) (fun _ _ ht => .orphan ht))
  · exact h

theorem State.Canon.execHoldConfirm {m} (h : s.Canon) : Out.Canon (Machine.execHoldConfirm m s) :=
  .next (.whenLive h (fun _ => .atHome h (fun _ => .ite h (.ite h (.raise0 (.bookReq (.commitEntry h)))))))

theorem State.Canon.execHoldNone {m} (h : s.Canon) : Out.Canon (Machine.execHoldNone m s) :=
  .next (.whenLive h (fun _ => .atHome h (fun _ => .ite h (.orphan h))))

theorem State.Canon.execHoldRevoke {m} (h : s.Canon) : Out.Canon (Machine.execHoldRevoke m s) := .next (.whenLive h (fun _ => .ite h h))

theorem State.Canon.execHoldList {m held} (h : s.Canon) : Out.Canon (Machine.execHoldList m held s) := by
  unfold Machine.execHoldList
  refine .next (.whenLive h (fun _ => ?_))
  split
  · exact h
  · extract_lets -underBinder
    refine .foldl (.foldl h (fun _ _ ht => ht)) (fun _ _ ht => ?_)
    split
    · exact ht
    · exact ht

theorem State.Canon.execHoldAssertTimeout {req} (h : s.Canon) : Out.Canon (Machine.execHoldAssertTimeout req s) := by
  unfold Machine.execHoldAssertTimeout
  refine .next (.whenLive h (fun _ => ?_))
  split
  · split
    · exact .ite (.orphan h) h
    · exact h
  · exact h

theorem State.Canon.execOrphanRecoveryStep {req} (h : s.Canon) : Out.Canon (Machine.execOrphanRecoveryStep req s) := by
  unfold Machine.execOrphanRecoveryStep
  refine .next (.whenLive h (fun _ => ?_))
  split
  · exact h
  · split
    · exact h
    · split
      · split
        · exact h
        · exact .commitEntry h
      · split
        · split
          · exact h
          · exact .commitEntry h
        · split
          · split
            · exact h
            · exact .commitEntry h
          · exact .failReq h

theorem State.Canon.execRecoverReply {m result cRec} (h : s.Canon) : Out.Canon (Machine.execRecoverReply m result cRec s) := by
  unfold Machine.execRecoverReply
  refine .next (.whenLive h (fun _ => .atHome h (fun _ => ?_)))
  split
  · exact h
  · refine .ite h (.ite (.setEntry h) ?_)
    extract_lets -underBinder
    split
    next e1 s1 e =>
      have hs1 : s1.Canon := .snd e (.newReceipt h)
      extract_lets e2 lost s2 _ s3
      clear_value lost
      have hs2 : s2.Canon := by
        unfold s2
        split
        · exact .setHomeLease hs1
        · exact hs1
      exact .commitEntry (.update hs2)

theorem State.Canon.execRecoverProbeTimeout {req} (h : s.Canon) : Out.Canon (Machine.execRecoverProbeTimeout req s) := by
  unfold Machine.execRecoverProbeTimeout
  refine .next (.whenLive h (fun _ => ?_))
  split
  · split
    · exact .ite h h
    · exact h
  · exact h

theorem State.Canon.execMirror {m image receipt receiptAddr} (h : s.Canon) : Out.Canon (Machine.execMirror m image receipt receiptAddr s) :=
  .next (.whenLive h (fun _ => .ite h (.ite h h)))

theorem State.Canon.execMirrorAck {m} (h : s.Canon) : Out.Canon (Machine.execMirrorAck m s) := by
  unfold Machine.execMirrorAck
  refine .next (.whenLive h (fun _ => ?_))
  split
  · exact .ite h (.ite (.foldl h (fun _ _ ht => ht)) h)
  · exact h

theorem State.Canon.execBackupReplace {failed} (h : s.Canon) : Out.Canon (Machine.execBackupReplace failed s) := by
  unfold Machine.execBackupReplace
  refine .next (.whenLive h (fun _ => ?_))
  extract_lets -underBinder mine s1
  have hs1 : s1.Canon := by
    unfold s1
    refine .foldl h (fun t x ht => ?_)
    split
    · exact .ite ht ht
    · exact .foldl ht (fun _ _ ht => ht)
  split
  · exact h
  · split
    · exact hs1
    · exact hs1

theorem State.Canon.execHomeMirrorCopyDone (h : s.Canon) : Out.Canon (Machine.execHomeMirrorCopyDone s) := by
  unfold Machine.execHomeMirrorCopyDone
  refine .next (.whenLive h (fun _ => ?_))
  split
  · exact h
  · exact .raise0 (.foldl h (fun _ _ ht => ht))

theorem State.Canon.execHomeTakeover {failed} (h : s.Canon) : Out.Canon (Machine.execHomeTakeover failed s) := by
  unfold Machine.execHomeTakeover
  refine .next (.whenLive h (fun _ => ?_))
  extract_lets -underBinder mine lost dead holders exp _ s1 backup s2 leaping s3 moved s4 s5 s6
  have hs3 : s3.Canon := by
    unfold s3
    refine .foldl (.foldl h (fun _ _ ht => ht)) (fun t x ht => ?_)
    split
    · exact .abortLeap ht
    · exact ht
  have hs4 : s4.Canon := by
    unfold s4
    refine .foldl hs3 (fun t x ht => ?_)
    split
    · exact ht
    · exact ht
  have hs6 : s6.Canon := by
    unfold s6
    refine .foldl (.raise0 hs4) (fun _ _ ht => ?_)
    split
    · exact ht
    · exact ht
  exact .ite h (.ite hs6 hs6)

end Sys2Proof.Machine
end

section
/-! SUPPORT. The operations of Machine/LineOps keep memory's canonical form. -/

namespace Sys2Proof.Machine
open Sys2Proof

variable {s : State}

theorem State.Canon.receiveAs {t port p} (h : s.Canon) : (s.receiveAs t port p).Canon := .ite (.receive h) h

theorem State.Canon.execLoad {port p} (h : s.Canon) : Out.Canon (Machine.execLoad port p s) := .next (.whenLive h (fun _ => .receiveAs h))

theorem State.Canon.execStore {port p} (h : s.Canon) : Out.Canon (Machine.execStore port p s) := .next (.whenLive h (fun _ => .receiveAs h))

theorem State.Canon.execStoreFlag {port p} (h : s.Canon) : Out.Canon (Machine.execStoreFlag port p s) := .next (.whenLive h (fun _ => .receiveAs h))

theorem State.Canon.execCas {port p} (h : s.Canon) : Out.Canon (Machine.execCas port p s) := .next (.whenLive h (fun _ => .receiveAs h))

theorem State.Canon.execFetchAdd {port p} (h : s.Canon) : Out.Canon (Machine.execFetchAdd port p s) := .next (.whenLive h (fun _ => .receiveAs h))

theorem State.Canon.execSwap {port p} (h : s.Canon) : Out.Canon (Machine.execSwap port p s) := .next (.whenLive h (fun _ => .receiveAs h))

theorem State.Canon.execWrite {port p} (h : s.Canon) : Out.Canon (Machine.execWrite port p s) := .next (.whenLive h (fun _ => .receiveAs h))

theorem State.Canon.execRead {port p} (h : s.Canon) : Out.Canon (Machine.execRead port p s) := .next (.whenLive h (fun _ => .receiveAs h))

theorem State.Canon.execStoreFlagRelease {flag} (h : s.Canon) : Out.Canon (Machine.execStoreFlagRelease flag s) := by
  unfold Machine.execStoreFlagRelease
  refine .next (.whenLive h (fun _ => ?_))
  split
  · exact h
  · exact .ite (.refusePkt h) (.ite h (.ite (.refusePkt (.deadFail h)) (.sendReq h)))

theorem State.Canon.execDoorbellStore {p} (h : s.Canon) : Out.Canon (Machine.execDoorbellStore p s) :=
  .next (.whenLive h (fun _ => .ite (.receive h) h))

theorem State.Canon.execFmtSelectWrite {p} (h : s.Canon) : Out.Canon (Machine.execFmtSelectWrite p s) :=
  .next (.whenLive h (fun _ => .ite (.receive h) h))

theorem State.Canon.execMailboxHeaderStore {p} (h : s.Canon) : Out.Canon (Machine.execMailboxHeaderStore p s) :=
  .next (.whenLive h (fun _ => .ite (.receive h) h))

theorem State.Canon.execTriggerCounterStore {p} (h : s.Canon) : Out.Canon (Machine.execTriggerCounterStore p s) :=
  .next (.whenLive h (fun _ => .ite (.receive h) h))

theorem State.Canon.execTriggerCounterFetchAdd {p} (h : s.Canon) : Out.Canon (Machine.execTriggerCounterFetchAdd p s) :=
  .next (.whenLive h (fun _ => .ite (.receive h) h))

theorem State.Canon.execRegisterWriteOther {p} (h : s.Canon) : Out.Canon (Machine.execRegisterWriteOther p s) :=
  .next (.whenLive h (fun _ => .ite (.receive h) h))

end Sys2Proof.Machine
end

section
/-! SUPPORT. The operations of Machine/Search keep memory's canonical form. -/

namespace Sys2Proof.Machine
open Sys2Proof

variable {s : State}

theorem State.Canon.updIndex {i f} (h : s.Canon) : (s.updIndex i f).Canon := h

theorem State.Canon.searchTake {cid c} (h : s.Canon) : (s.searchTake cid c).2.Canon := by
  unfold State.searchTake
  extract_lets -underBinder
  split
  · exact h
  · split
    · split
      · exact h
      · exact h
    · split
      · exact h
      · split
        · exact h
        · exact h

theorem State.Canon.execSearch {cid} (h : s.Canon) : Out.Canon (Machine.execSearch cid s) := by
  unfold Machine.execSearch
  refine .next (.whenLive h (fun _ => ?_))
  split
  · exact h
  · extract_lets -underBinder
    split
    · exact h
    · split
      · split
        · exact h
        · exact h
        · extract_lets -underBinder
          exact .finish (.foldl (.note (.updCmd (.updIndex (.foldl (.foldl h (fun _ _ ht => .raise0 ht)) (fun _ _ ht => .setCentState ht)))))
            (fun _ _ ht => .unitEvent (.unitEvent ht)))

theorem State.Canon.enterItems {i x seq items} (h : s.Canon) : (s.enterItems i x seq items).Canon :=
  .updIndex (.foldl h (fun _ _ ht => .store (.store (.store ht))))

theorem State.Canon.deleteItems {x seq dels} (h : s.Canon) : (s.deleteItems x seq dels).2.Canon :=
  .foldlSnd h (fun _ _ hp => .iteSnd hp (.store hp))

theorem State.Canon.tellMirror {i x seq items dels} (h : s.Canon) : (s.tellMirror i x seq items dels).Canon := h

theorem State.Canon.mirrored {cid i x items dels} (h : s.Canon) : (s.mirrored cid i x items dels).2.Canon := by
  unfold State.mirrored
  split
  · split
    · exact h
    · split
      · exact .raise0 h
      · split
        · exact h
        · exact h

theorem State.Canon.execInsert {cid} (h : s.Canon) : Out.Canon (Machine.execInsert cid s) := by
  unfold Machine.execInsert
  refine .next (.whenLive h (fun _ => ?_))
  split
  · exact h
  · extract_lets -underBinder
    split
    · exact .finish h
    · split
      extract_lets -underBinder others taken nums vecs fail
      clear_value fail
      split
      · exact .finishNow (.ite h (.tellMirror h))
      · extract_lets -underBinder
        split
        next go s1 e =>
          have hs1 : s1.Canon := .snd e (.mirrored h)
          exact .ite hs1 (.finishNow (.note (.foldl (.enterItems hs1) (fun _ _ ht => .store ht))))

theorem State.Canon.execDelete {cid} (h : s.Canon) : Out.Canon (Machine.execDelete cid s) := by
  unfold Machine.execDelete
  refine .next (.whenLive h (fun _ => ?_))
  split
  · exact h
  · extract_lets -underBinder
    split
    · exact h
    · extract_lets -underBinder
      split
      · exact .finishNow (.ite h h)
      · extract_lets -underBinder
        split
        next t e =>
          have ht : t.Canon := .snd e (.mirrored h)
          split
          · exact ht
          · split
            next s2 e' =>
              have hs2 : s2.Canon := .snd e' (.deleteItems ht)
              exact .finishNow (.note (.ite hs2 hs2))

theorem State.Canon.execIndexMirrorApply {m idx seq ack items dels} (h : s.Canon) :
    Out.Canon (Machine.execIndexMirrorApply m idx seq ack items dels s) := by
  unfold Machine.execIndexMirrorApply
  refine .next (.whenLive h (fun _ => ?_))
  split
  · exact h
  · exact .ite (.ite h h) (.ite h (.tell (.updIndex (.deleteItems (.enterItems h)))))

theorem State.Canon.execDeleteHandleRelease {idx} (h : s.Canon) : Out.Canon (Machine.execDeleteHandleRelease idx s) := by
  unfold Machine.execDeleteHandleRelease
  refine .next (.whenLive h (fun _ => ?_))
  split
  · exact h
  · exact .foldl h (fun _ _ ht => .ite ht ht)

theorem State.Canon.execCodewordCorrections {cw corrected lost} (h : s.Canon) : Out.Canon (Machine.execCodewordCorrections cw corrected lost s) := by
  unfold Machine.execCodewordCorrections
  refine .next (.whenLive h (fun _ => ?_))
  extract_lets -underBinder
  split
  · exact h
  · extract_lets -underBinder s'
    have hs' : s'.Canon := .unitEvent (.unitEvent h)
    exact .ite (.ite hs' hs') (.foldl (.raise0 hs') (fun t x ht => .foldl ht (fun _ _ ht => .ite (.setCentState ht) ht)))

end Sys2Proof.Machine
end

section
/-! SUPPORT. The operations of Machine/Merge keep memory's canonical form. -/

namespace Sys2Proof.Machine
open Sys2Proof

variable {s : State}

theorem State.Canon.execIndexMerge {idx} (h : s.Canon) : Out.Canon (Machine.execIndexMerge idx s) := by
  unfold Machine.execIndexMerge
  refine .next (.whenLive h (fun _ => ?_))
  split
  · exact h
  · exact .ite h h

theorem State.Canon.writeSeg {x c a rs} (h : s.Canon) : (s.writeSeg x c a rs).Canon := .foldl (.wr h) (fun _ _ ht => .ite (.mapSector ht) ht)

theorem State.Canon.merged {idx outcome p} (h : s.Canon) : (s.merged idx outcome p).Canon := .raise0 h

theorem State.Canon.execMergeInstall {idx mirror} (h : s.Canon) : Out.Canon (Machine.execMergeInstall idx mirror s) := by
  unfold Machine.execMergeInstall
  refine .next (.whenLive h (fun _ => ?_))
  split
  · exact h
  · split
    · exact h
    · extract_lets -underBinder
      split
      · split
        · split
          · extract_lets -underBinder
            split
            · extract_lets -underBinder new side moved placed stays dropped base s1 s2 s3
              have hs1 : s1.Canon := by
                unfold s1
                refine .foldl h (fun t x ht => ?_)
                extract_lets -underBinder m t1
                have ht1 : t1.Canon := by
                  unfold t1
                  split
                  · exact .writeSeg ht
                  · exact ht
                exact .store (.store ht1)
              have hs3 : s3.Canon := .store (.foldl hs1 (fun _ _ ht => .store ht))
              exact .merged (.getD_map hs3 (fun _ => .finishOp hs3))
            · exact .merged (.getD_map h (fun _ => .finishOp h))

theorem State.Canon.execOldGenerationFree {idx gen} (h : s.Canon) : Out.Canon (Machine.execOldGenerationFree idx gen s) := by
  unfold Machine.execOldGenerationFree
  refine .next (.whenLive h (fun _ => ?_))
  split
  · exact h
  · extract_lets -underBinder
    split
    · exact .ite h (.finishOp h)
    · split
      · exact h
      · exact .ite h (.updIndex (.foldl (.foldl (.foldl h (fun _ _ ht => .zeroRange ht)) (fun _ _ ht => ht)) (fun _ _ ht => .zeroRange
        (.zeroRange ht))))

theorem State.Canon.doIndexCreate {c idx comp dim nlist itemMax sideMax wide l2 mirror itemBase centBase vecBase segBase segBytes} (h : s.Canon) :
    (Machine.doIndexCreate c idx comp dim nlist itemMax sideMax wide l2 mirror itemBase centBase vecBase segBase segBytes s).s.Canon := by
  unfold Machine.doIndexCreate
  extract_lets -underBinder x here s1
  have hs1 : s1.Canon := .zeroRange h
  split
  · exact h
  · split
    · exact h
    · split
      · exact h
      · split
        · exact h
        · exact hs1

theorem State.Canon.execAdhIndexCreate {c idx comp dim nlist itemMax sideMax wide l2 mirror itemBase centBase vecBase segBase segBytes}
    (h : s.Canon) : Out.Canon
      (Machine.execAdhIndexCreate c idx comp dim nlist itemMax sideMax wide l2 mirror itemBase centBase vecBase segBase segBytes s) :=
  .next (.adhRun h (fun _ => .doIndexCreate h))

theorem State.Canon.onIndex {c idx} {f : Index → AdhOut} (h : s.Canon) (hf : ∀ x, (f x).s.Canon) : (s.onIndex c idx f).s.Canon := by
  unfold State.onIndex
  split
  · exact h
  · split
    · exact hf _
    · exact h

theorem State.Canon.execAdhIndexStatus {c idx} (h : s.Canon) : Out.Canon (Machine.execAdhIndexStatus c idx s) :=
  .next (.adhRun h (fun _ => .onIndex h (fun _ => h)))

theorem State.Canon.doIndexPolicy {c idx mergeAt splitAt retireAt} (h : s.Canon) :
    (Machine.doIndexPolicy c idx mergeAt splitAt retireAt s).s.Canon := by
  unfold Machine.doIndexPolicy
  refine .onIndex h (fun _ => ?_)
  split
  · exact h
  · exact h

theorem State.Canon.execAdhIndexPolicy {c idx mergeAt splitAt retireAt} (h : s.Canon) :
    Out.Canon (Machine.execAdhIndexPolicy c idx mergeAt splitAt retireAt s) := .next (.adhRun h (fun _ => .doIndexPolicy h))

theorem State.Canon.doIndexMerge {c idx} (h : s.Canon) : (Machine.doIndexMerge c idx s).s.Canon := by
  unfold Machine.doIndexMerge
  refine .onIndex h (fun _ => ?_)
  split
  · exact h
  · exact h

theorem State.Canon.execAdhIndexMerge {c idx} (h : s.Canon) : Out.Canon (Machine.execAdhIndexMerge c idx s) :=
  .next (.adhRun h (fun _ => .doIndexMerge h))

theorem State.Canon.doIndexDestroy {c idx} (h : s.Canon) : (Machine.doIndexDestroy c idx s).s.Canon := .onIndex h (fun _ => h)

theorem State.Canon.execAdhIndexDestroy {c idx} (h : s.Canon) : Out.Canon (Machine.execAdhIndexDestroy c idx s) :=
  .next (.adhRun h (fun _ => .doIndexDestroy h))

end Sys2Proof.Machine
end

section
/-! SUPPORT. The operations of Machine/Mover keep memory's canonical form. -/

namespace Sys2Proof.Machine
open Sys2Proof

variable {s : State}

theorem State.Canon.moveLocal {n src dst done} (h : s.Canon) : (Machine.moveLocal n src dst done s).2.2.Canon := by
  induction n generalizing s src dst done with
  | zero => exact h
  | succ n ih =>
    unfold Machine.moveLocal
    split
    · exact .ite (.dramError h) h
    · split
      · exact h
      · exact ih (.store h)

theorem State.Canon.execMoveLines {cid} (h : s.Canon) : Out.Canon (Machine.execMoveLines cid s) := by
  unfold Machine.execMoveLines
  refine .next (.whenLive h (fun _ => ?_))
  split
  · exact h
  · refine .ite h ?_
    extract_lets -underBinder w src dst lines owner need quota
    clear_value quota
    split
    · exact .finish h
    · split
      · split
        next n st s1 e =>
          have hs1 : s1.Canon := .thd e (.moveLocal h)
          exact .finish (.updCmd hs1)
      · exact .moveOn (.update h)

theorem State.Canon.execSend {cid} (h : s.Canon) : Out.Canon (Machine.execSend cid s) := by
  unfold Machine.execSend
  refine .next (.whenLive h (fun _ => ?_))
  split
  · exact h
  · split
    · exact h
    · extract_lets -underBinder
      split
      · exact .finish (.ite (.dramError h) h)
      · exact .ite (.finish (.deadFail h)) (.sendOnward h)

theorem State.Canon.execRecvPost {cid} (h : s.Canon) : Out.Canon (Machine.execRecvPost cid s) := by
  unfold Machine.execRecvPost
  refine .next (.whenLive h (fun _ => ?_))
  split
  · exact h
  · exact .ite h h

theorem State.Canon.execTriggerArm {cid} (h : s.Canon) : Out.Canon (Machine.execTriggerArm cid s) := by
  unfold Machine.execTriggerArm
  refine .next (.whenLive h (fun _ => ?_))
  split
  · exact h
  · exact .ite h (.ite h h)

end Sys2Proof.Machine
end

section
/-! SUPPORT. The operations of Machine/Perf keep memory's canonical form. -/

namespace Sys2Proof.Machine
open Sys2Proof

variable {s : State}

theorem State.Canon.doCounterConfig {c unit sels} (h : s.Canon) : (Machine.doCounterConfig c unit sels s).s.Canon := by
  unfold Machine.doCounterConfig
  split
  · split
    · exact h
    · split
      · exact h
      · exact .adhOk (.setUnit (.settle h))
  · split
    · exact h
    · exact h

theorem State.Canon.execAdhCounterConfig {c unit sels} (h : s.Canon) : Out.Canon (Machine.execAdhCounterConfig c unit sels s) :=
  .next (.adhRun h (fun _ => .doCounterConfig h))

theorem State.Canon.doCounterSnapshot {c units mode ids time out} (h : s.Canon) :
    (Machine.doCounterSnapshot c units mode ids time out s).s.Canon := by
  unfold Machine.doCounterSnapshot
  extract_lets -underBinder
  split
  · exact h
  · split
    · exact h
    · split
      · exact h
      · split
        · exact h
        · split
          · split
            · exact h
            · exact h
          · split
            · exact h
            · exact h

theorem State.Canon.execAdhCounterSnapshot {c units mode ids time out} (h : s.Canon) :
    Out.Canon (Machine.execAdhCounterSnapshot c units mode ids time out s) := .next (.adhRun h (fun _ => .doCounterSnapshot h))

theorem State.Canon.settleAt {t u} (h : s.Canon) : (s.settleAt t u).Canon := .ite h (.settle h)

theorem State.Canon.takeSnapshot {k} (h : s.Canon) : (s.takeSnapshot k).Canon :=
  .updVi (.ite (.foldl h (fun _ _ ht => .ite (.wrWords (.settleAt ht)) (.settleAt ht))) h)

theorem State.Canon.freezeUnit {t u} (h : s.Canon) : (s.freezeUnit t u).Canon := .ite h (.setUnit (.settleAt h))

theorem State.Canon.thawUnit {t u} (h : s.Canon) : (s.thawUnit t u).Canon := .ite h h

theorem State.Canon.takeMode {k} (h : s.Canon) : (s.takeMode k).Canon :=
  .ite h (.ite (.foldl h (fun _ _ ht => .ite (.freezeUnit ht) (.thawUnit ht))) h)

theorem State.Canon.execCounterCapture (h : s.Canon) : Out.Canon (Machine.execCounterCapture s) := by
  unfold Machine.execCounterCapture
  refine .next (.whenLive h (fun _ => ?_))
  split
  · exact h
  · exact .ite h (.foldl (.foldl h (fun _ _ ht => .takeSnapshot ht)) (fun _ _ ht => .takeMode ht))

theorem State.Canon.doSampleConfig {c base log2 tail intervals node} (h : s.Canon) :
    (Machine.doSampleConfig c base log2 tail intervals node s).s.Canon := by
  unfold Machine.doSampleConfig
  split
  · exact h
  · split
    · exact h
    · split
      · exact h
      · split
        · exact h
        · exact h

theorem State.Canon.execAdhSampleConfig {c base log2 tail intervals node} (h : s.Canon) :
    Out.Canon (Machine.execAdhSampleConfig c base log2 tail intervals node s) := .next (.adhRun h (fun _ => .doSampleConfig h))

end Sys2Proof.Machine
end

section
/-! SUPPORT. The operations of Machine/Recover keep memory's canonical form. -/

namespace Sys2Proof.Machine
open Sys2Proof

variable {s : State}

theorem State.Canon.rebuildRecord {mapEpoch x r t} (h : s.Canon) (e : s.rebuildRecord mapEpoch x = some (r, t)) : t.Canon := by
  unfold State.rebuildRecord at e
  split at e
  · cases e
  · obtain ⟨ctx, -, ⟨⟩⟩ := Option.map_eq_some_iff.mp e
    exact .foldl (.wr (.draw h)) (fun _ _ ht => .setMapEntry ht)

theorem State.Canon.execRecoverProbe {m receipt newHolder x} (h : s.Canon) : Out.Canon (Machine.execRecoverProbe m receipt newHolder x s) := by
  unfold Machine.execRecoverProbe
  refine .next (.whenLive h (fun _ => .ite h ?_))
  extract_lets -underBinder rebuilt remote
  split
  · exact .tell h
  · split
    next r s1 e =>
      have hs1 : s1.Canon := by
        split at e
        · exact .rebuildRecord h e
        · cases e
      exact .tell (.setHold hs1)
    · exact .tell h

theorem State.Canon.rebuildRing {rid r x} (h : s.Canon) : (s.rebuildRing rid r x).Canon := by
  unfold State.rebuildRing
  split
  · exact h
  · extract_lets -underBinder
    split
    next w s1 e =>
      have hs1 : s1.Canon := .snd e (.iteSnd (.draw h) h)
      extract_lets -underBinder at_ spec s2 outs st p t s3 s4
      have hs3 : s3.Canon := .wrWords (.updReq (.wrWords hs1))
      have hs4 : s4.Canon := by
        unfold s4
        split
        · exact .setBridge hs3
        · exact hs3
      exact .foldl hs4 (fun _ _ ht => .tell ht)

theorem State.Canon.execHoldAssert {m chain receipt x} (h : s.Canon) : Out.Canon (Machine.execHoldAssert m chain receipt x s) := by
  unfold Machine.execHoldAssert
  extract_lets -underBinder
  refine .next (.whenLive h (fun _ => ?_))
  split
  · exact h
  · split
    · extract_lets -underBinder r1 _ s1 _ s2
      have hs1 : s1.Canon := .setHold (.setReq (.relinger h))
      have hs2 : s2.Canon := .update hs1
      exact .tell (.rebuildRing hs2)
    · exact h

end Sys2Proof.Machine
end

section
/-! SUPPORT. The operations of Machine/Sched keep memory's canonical form. -/

namespace Sys2Proof.Machine
open Sys2Proof

variable {s : State}

theorem State.Canon.refuseCmd {cid c b} (h : s.Canon) : (s.refuseCmd cid c b).Canon := .ite (.violate h) h

theorem State.Canon.place {cid c i} (h : s.Canon) : (s.place cid c i).Canon := by
  unfold State.place
  extract_lets -underBinder slot snap used waited s1 _ s2
  have hs1 : s1.Canon := .updCmd (.settle h)
  have hs2 : s2.Canon := .ite (.update hs1) hs1
  exact hs2

theorem State.Canon.dispatch {cls i cid c deficits} (h : s.Canon) : (s.dispatch cls i cid c deficits).Canon := by
  unfold State.dispatch
  split
  · exact .refuseCmd h
  · refine .ite (.finish h) ?_
    split
    next ready s1 e =>
      have hs1 : s1.Canon := .snd e (.iteSnd (.attendPrep h) h)
      refine .ite hs1 ?_
      split
      next bad s2 e2 =>
        have hs2 : s2.Canon := .snd e2 (.iteSnd (.searchTake hs1) hs1)
        split
        · exact .finish hs2
        · extract_lets s3 s4
          have hs4 : s4.Canon := .granted (.granted (.place (.updInst hs2)))
          exact .ite (.granted hs4) hs4

theorem State.Canon.execSchedulerDispatch {cls inst} (h : s.Canon) : Out.Canon (Machine.execSchedulerDispatch cls inst s) := by
  unfold Machine.execSchedulerDispatch
  refine .next (.whenLive h (fun _ => ?_))
  split
  · exact h
  · split
    · exact h
    · exact .dispatch h

theorem State.Canon.execPreemptionThreshold {cls inst} (h : s.Canon) : Out.Canon (Machine.execPreemptionThreshold cls inst s) := by
  unfold Machine.execPreemptionThreshold
  refine .next (.whenLive h (fun _ => ?_))
  extract_lets -underBinder
  split
  · exact h
  · extract_lets -underBinder
    split
    · exact h
    · split
      · exact h
      · exact h

end Sys2Proof.Machine
end

section
/-! SUPPORT. The operations of Machine/Tick keep memory's canonical form. -/

namespace Sys2Proof.Machine
open Sys2Proof

variable {s : State}

theorem State.Canon.tick (h : s.Canon) : s.tick.Canon := .ite (.startup) (.ite (.tickTime (.safeFall h)) (.safeFall h))

end Sys2Proof.Machine
end

section
/-! SUPPORT. Every command, the passing of a nanosecond, and so every step keep memory's canonical form (log 1). -/

namespace Sys2Proof.Machine
open Sys2Proof

variable {s : State}

/-- Every command keeps memory's canonical form: the form is kept by what the command's meaning is built of. -/
theorem State.Canon.exec {i : Instr} (h : s.Canon) : Out.Canon (Machine.exec i s) :=
  match i with
  | .moveLines .. => h.execMoveLines
  | .moveBlocks .. => h.execMoveBlocks
  | .pullBlocks .. => h.execPullBlocks
  | .send .. => h.execSend
  | .recvPost .. => h.execRecvPost
  | .triggerArm .. => h.execTriggerArm
  | .attend .. => h.execAttend
  | .attendPartial .. => h.execAttendPartial
  | .attendMerge .. => h.execAttendMerge
  | .encodeKv .. => h.execEncodeKv
  | .recodeBlocks .. => h.execRecodeBlocks
  | .decodeTiles .. => h.execDecodeTiles
  | .ecEncode .. => h.execEcEncode
  | .check .. => h.execCheck
  | .search .. => h.execSearch
  | .insert .. => h.execInsert
  | .delete .. => h.execDelete
  | .ringOpen .. => h.execRingOpen
  | .commit .. => h.execCommit
  | .ringClose .. => h.execRingClose
  | .windowStream .. => h.execWindowStream
  | .windowCancel .. => h.execWindowCancel
  | .doorbellStore .. => h.execDoorbellStore
  | .fmtSelectWrite .. => h.execFmtSelectWrite
  | .mailboxHeaderStore .. => h.execMailboxHeaderStore
  | .triggerCounterStore .. => h.execTriggerCounterStore
  | .triggerCounterFetchAdd .. => h.execTriggerCounterFetchAdd
  | .registerWriteOther .. => h.execRegisterWriteOther
  | .commandFetch .. => h.execCommandFetch
  | .seqRereadTimer .. => h.execSeqRereadTimer
  | .schedulerDispatch .. => h.execSchedulerDispatch
  | .deadlineExpiry .. => h.execDeadlineExpiry
  | .preemptionThreshold .. => h.execPreemptionThreshold
  | .jobSaveDone .. => h.execJobSaveDone
  | .jobCompletionStep .. => h.execJobCompletionStep
  | .engineFault .. => h.execEngineFault
  | .engineSelfTestDone .. => h.execEngineSelfTestDone
  | .queueDrainDone .. => h.execQueueDrainDone
  | .queueResetApply .. => h.execQueueResetApply
  | .viQuiesceDone .. => h.execViQuiesceDone
  | .contextSlotEmpty .. => h.execContextSlotEmpty
  | .regionDrainDone .. => h.execRegionDrainDone
  | .fabricEpochBoundary => h.execFabricEpochBoundary
  | .hubRoundClose .. => h.execHubRoundClose
  | .roundDigestCompare .. => h.execRoundDigestCompare
  | .hubFence .. => h.execHubFence
  | .hubBulkResend .. => h.execHubBulkResend
  | .hubStateAreaLoss .. => h.execHubStateAreaLoss
  | .hubStateAreaCopyDone .. => h.execHubStateAreaCopyDone
  | .dieFence .. => h.execDieFence
  | .ledgerAudit .. => h.execLedgerAudit
  | .ledgerSync .. => h.execLedgerSync
  | .ledgerSyncTimer => h.execLedgerSyncTimer
  | .flitReceive .. => h.execFlitReceive
  | .nakRepeatTimer .. => h.execNakRepeatTimer
  | .flitSend .. => h.execFlitSend
  | .noFlitTimeout .. => h.execNoFlitTimeout
  | .fastRetrainDone .. => h.execFastRetrainDone
  | .signalDetect .. => h.execSignalDetect
  | .detectRetryTimer .. => h.execDetectRetryTimer
  | .equalizeComplete .. => h.execEqualizeComplete
  | .fecLockComplete .. => h.execFecLockComplete
  | .capsRecordReceive .. => h.execCapsRecordReceive
  | .creditInitComplete .. => h.execCreditInitComplete
  | .trainingTimeout .. => h.execTrainingTimeout
  | .laneDown .. => h.execLaneDown
  | .holdDownExpiry .. => h.execHoldDownExpiry
  | .prbsTestDone .. => h.execPrbsTestDone
  | .laneServiceTimer .. => h.execLaneServiceTimer
  | .widthChange .. => h.execWidthChange
  | .widthRiseTimer .. => h.execWidthRiseTimer
  | .ethFrameReceive .. => h.execEthFrameReceive
  | .ethPathResendTimer .. => h.execEthPathResendTimer
  | .ptpMessageReceive .. => h.execPtpMessageReceive
  | .syncTimeout => h.execSyncTimeout
  | .announceTimeout .. => h.execAnnounceTimeout
  | .ppsInEdge .. => h.execPpsInEdge
  | .ppsLossTimer .. => h.execPpsLossTimer
  | .load .. => h.execLoad
  | .store .. => h.execStore
  | .storeFlag .. => h.execStoreFlag
  | .storeFlagRelease .. => h.execStoreFlagRelease
  | .cas .. => h.execCas
  | .fetchAdd .. => h.execFetchAdd
  | .swap .. => h.execSwap
  | .write .. => h.execWrite
  | .read .. => h.execRead
  | .sendData .. => h.execSendData
  | .msgCtrl .. => h.execMsgCtrl
  | .packetResponseReceive .. => h.execPacketResponseReceive
  | .packetTransitForward .. => h.execPacketTransitForward
  | .transitCreditTimeout .. => h.execTransitCreditTimeout
  | .retryIntervalTimer .. => h.execRetryIntervalTimer
  | .deadBoundExpiry .. => h.execDeadBoundExpiry
  | .pathProbeTimer .. => h.execPathProbeTimer
  | .pathEventHoldTimer .. => h.execPathEventHoldTimer
  | .rnrResendTimer .. => h.execRnrResendTimer
  | .msgTimeout .. => h.execMsgTimeout
  | .sendCtrlTimeout .. => h.execSendCtrlTimeout
  | .tombstoneExpiry .. => h.execTombstoneExpiry
  | .triggerExpire .. => h.execTriggerExpire
  | .windowDrained .. => h.execWindowDrained
  | .windowGenHoldTimer .. => h.execWindowGenHoldTimer
  | .ingressRequestPacket .. => h.execIngressRequestPacket
  | .policerRelease .. => h.execPolicerRelease
  | .shaperSlotBoundary => h.execShaperSlotBoundary
  | .gateIntervalBoundary .. => h.execGateIntervalBoundary
  | .gateTakeover .. => h.execGateTakeover
  | .gateTestListEnd .. => h.execGateTestListEnd
  | .gateFallbackTimer .. => h.execGateFallbackTimer
  | .beatBoundary .. => h.execBeatBoundary
  | .capacityReport .. => h.execCapacityReport
  | .capacityReportTimer .. => h.execCapacityReportTimer
  | .capacityStaleTimer .. => h.execCapacityStaleTimer
  | .telemetrySample .. => h.execTelemetrySample
  | .leapFreeze .. => h.execLeapFreeze
  | .leapRequest .. => h.execLeapRequest
  | .leapGrant .. => h.execLeapGrant
  | .leapOffer .. => h.execLeapOffer
  | .leapManifest .. => h.execLeapManifest
  | .leapAccept .. => h.execLeapAccept
  | .leapCommit _ _ receipt chain => h.execLeapCommit (receipt := receipt) (chain := chain)
  | .leapRelease _ receipt => h.execLeapRelease (receipt := receipt)
  | .leapAbort .. => h.execLeapAbort
  | .leapQuery .. => h.execLeapQuery
  | .leapState .. => h.execLeapState
  | .leapTimeout .. => h.execLeapTimeout
  | .leapQueryTimer .. => h.execLeapQueryTimer
  | .leapRetryTimer .. => h.execLeapRetryTimer
  | .leaseRenewTimer .. => h.execLeaseRenewTimer
  | .leaseRenew _ _ heldCount _ => h.execLeaseRenew (heldCount := heldCount)
  | .leaseAck .. => h.execLeaseAck
  | .leaseFenceTimer .. => h.execLeaseFenceTimer
  | .leaseLapse .. => h.execLeaseLapse
  | .holdAssert _ chain receipt _ => h.execHoldAssert (chain := chain) (receipt := receipt)
  | .holdConfirm .. => h.execHoldConfirm
  | .holdNone .. => h.execHoldNone
  | .holdRevoke .. => h.execHoldRevoke
  | .holdList .. => h.execHoldList
  | .holdAssertTimeout .. => h.execHoldAssertTimeout
  | .orphanRecoveryStep .. => h.execOrphanRecoveryStep
  | .recoverProbe _ receipt _ _ => h.execRecoverProbe (receipt := receipt)
  | .recoverReply .. => h.execRecoverReply
  | .recoverProbeTimeout .. => h.execRecoverProbeTimeout
  | .mirror .. => h.execMirror
  | .mirrorAck .. => h.execMirrorAck
  | .backupReplace .. => h.execBackupReplace
  | .homeMirrorCopyDone => h.execHomeMirrorCopyDone
  | .homeTakeover .. => h.execHomeTakeover
  | .pullBlockArrival .. => h.execPullBlockArrival
  | .pullArriveDeadline .. => h.execPullArriveDeadline
  | .remotePartDeadline .. => h.execRemotePartDeadline
  | .cancelArrivalAtHome .. => h.execCancelArrivalAtHome
  | .cancelApply .. => h.execCancelApply
  | .prefixRetentionExpiry .. => h.execPrefixRetentionExpiry
  | .prefixBlocksFree .. => h.execPrefixBlocksFree
  | .tokenPush .. => h.execTokenPush
  | .tokenAck .. => h.execTokenAck
  | .tokenAckTimeout .. => h.execTokenAckTimeout
  | .tokenCommit .. => h.execTokenCommit
  | .streamDone .. => h.execStreamDone
  | .streamFlushTimer .. => h.execStreamFlushTimer
  | .streamBlockedTimer .. => h.execStreamBlockedTimer
  | .bridgeTakeover .. => h.execBridgeTakeover
  | .rowPut .. => h.execRowPut
  | .rowAck .. => h.execRowAck
  | .shardFull .. => h.execShardFull
  | .parityDelta .. => h.execParityDelta
  | .regrowNeed .. => h.execRegrowNeed
  | .regrowShardDone .. => h.execRegrowShardDone
  | .backgroundRegrow => h.execBackgroundRegrow
  | .protStall _ _ _ kind ns => h.execProtStall (kind := kind) (ns := ns)
  | .straggleTimer .. => h.execStraggleTimer
  | .stragglerProbeTimeout .. => h.execStragglerProbeTimeout
  | .memberDown _ _ _ _ reason => h.execMemberDown (reason := reason)
  | .recoveryDone .. => h.execRecoveryDone
  | .driftWindowClose .. => h.execDriftWindowClose
  | .spawnStart .. => h.execSpawnStart
  | .spawnPassDone .. => h.execSpawnPassDone
  | .spawnEnd .. => h.execSpawnEnd
  | .publish .. => h.execPublish
  | .publishAnswer .. => h.execPublishAnswer
  | .cbSwitch .. => h.execCbSwitch
  | .switchTime .. => h.execSwitchTime
  | .refReport .. => h.execRefReport
  | .retire .. => h.execRetire
  | .moltPace => h.execMoltPace
  | .moltRetryTimer .. => h.execMoltRetryTimer
  | .codebookFill .. => h.execCodebookFill
  | .codebookFillTimeout .. => h.execCodebookFillTimeout
  | .calibrationSuccession .. => h.execCalibrationSuccession
  | .demotionPass .. => h.execDemotionPass
  | .migrationComplete .. => h.execMigrationComplete
  | .promotionDeadline .. => h.execPromotionDeadline
  | .scrubLine .. => h.execScrubLine
  | .rowRepair .. => h.execRowRepair
  | .flashRelocate .. => h.execFlashRelocate
  | .flashGc .. => h.execFlashGc
  | .nandBlockFail .. => h.execNandBlockFail
  | .releasePoll .. => h.execReleasePoll
  | .layerDue .. => h.execLayerDue
  | .lateLimitExpiry .. => h.execLateLimitExpiry
  | .tileCopyTimeout .. => h.execTileCopyTimeout
  | .codewordCorrections .. => h.execCodewordCorrections
  | .indexMerge .. => h.execIndexMerge
  | .mergeInstall .. => h.execMergeInstall
  | .oldGenerationFree .. => h.execOldGenerationFree
  | .deleteHandleRelease .. => h.execDeleteHandleRelease
  | .indexMirrorApply .. => h.execIndexMirrorApply
  | .adhHello .. => h.execAdhHello
  | .adhAsyncSet .. => h.execAdhAsyncSet
  | .adhEventSubscribe .. => h.execAdhEventSubscribe
  | .adhHealthStatus .. => h.execAdhHealthStatus
  | .adhViolationRead .. => h.execAdhViolationRead
  | .adhMgmtConfig .. => h.execAdhMgmtConfig
  | .adhViAssign .. => h.execAdhViAssign
  | .adhViRelease .. => h.execAdhViRelease
  | .adhQueueCreate .. => h.execAdhQueueCreate
  | .adhQueueDestroy .. => h.execAdhQueueDestroy
  | .adhQueueReset .. => h.execAdhQueueReset
  | .adhEngineConfig .. => h.execAdhEngineConfig
  | .adhPhaseShare .. => h.execAdhPhaseShare
  | .adhContextLoad .. => h.execAdhContextLoad
  | .adhContextBind .. => h.execAdhContextBind
  | .adhContextUnbind .. => h.execAdhContextUnbind
  | .adhCodebookFactors .. => h.execAdhCodebookFactors
  | .adhCodebookLoad .. => h.execAdhCodebookLoad
  | .adhCalibrationPolicy .. => h.execAdhCalibrationPolicy
  | .adhAttendPolicy .. => h.execAdhAttendPolicy
  | .adhWeightsLoad .. => h.execAdhWeightsLoad
  | .adhCompositionDefine .. => h.execAdhCompositionDefine
  | .adhCompositionStatus .. => h.execAdhCompositionStatus
  | .adhMeterRead .. => h.execAdhMeterRead
  | .adhAdmissionPolicy .. => h.execAdhAdmissionPolicy
  | .adhRequestSubmit .. => h.execAdhRequestSubmit
  | .adhRequestCancel .. => h.execAdhRequestCancel
  | .adhRequestRead .. => h.execAdhRequestRead
  | .adhPrefixKeep .. => h.execAdhPrefixKeep
  | .adhPrefixRelease .. => h.execAdhPrefixRelease
  | .adhStreamConfig .. => h.execAdhStreamConfig
  | .adhDirectoryRead .. => h.execAdhDirectoryRead
  | .adhReceiptRead .. => h.execAdhReceiptRead
  | .adhLeapPolicy .. => h.execAdhLeapPolicy
  | .adhLeapStart .. => h.execAdhLeapStart
  | .adhArenaDefine .. => h.execAdhArenaDefine
  | .adhTierConfig .. => h.execAdhTierConfig
  | .adhTierPolicy .. => h.execAdhTierPolicy
  | .adhTierStatus .. => h.execAdhTierStatus
  | .adhScrubPolicy .. => h.execAdhScrubPolicy
  | .adhRegionSet .. => h.execAdhRegionSet
  | .adhQuotaSet .. => h.execAdhQuotaSet
  | .adhPortConfig .. => h.execAdhPortConfig
  | .adhPortStatus .. => h.execAdhPortStatus
  | .adhPartnerSet .. => h.execAdhPartnerSet
  | .adhRouteLoad .. => h.execAdhRouteLoad
  | .adhFabricPolicy .. => h.execAdhFabricPolicy
  | .adhTimeConfig .. => h.execAdhTimeConfig
  | .adhWindowOpen .. => h.execAdhWindowOpen
  | .adhWindowRevoke .. => h.execAdhWindowRevoke
  | .adhWindowRenew .. => h.execAdhWindowRenew
  | .adhWindowClose .. => h.execAdhWindowClose
  | .adhWindowRead .. => h.execAdhWindowRead
  | .adhTrafficClasses .. => h.execAdhTrafficClasses
  | .adhGateLoad .. => h.execAdhGateLoad
  | .adhGatePolicy .. => h.execAdhGatePolicy
  | .adhShaperSet .. => h.execAdhShaperSet
  | .adhPoliceSet .. => h.execAdhPoliceSet
  | .adhTelemetryConfig .. => h.execAdhTelemetryConfig
  | .adhCounterConfig .. => h.execAdhCounterConfig
  | .adhCounterSnapshot .. => h.execAdhCounterSnapshot
  | .adhSampleConfig .. => h.execAdhSampleConfig
  | .adhIndexCreate .. => h.execAdhIndexCreate
  | .adhIndexStatus .. => h.execAdhIndexStatus
  | .adhIndexPolicy .. => h.execAdhIndexPolicy
  | .adhIndexMerge .. => h.execAdhIndexMerge
  | .adhIndexDestroy .. => h.execAdhIndexDestroy
  | .adhChangeOrder .. => h.execAdhChangeOrder
  | .orderDrainDone => h.execOrderDrainDone
  | .adhAttest .. => h.execAdhAttest
  | .adhTrustInstall .. => h.execAdhTrustInstall
  | .adhTrustRotate .. => h.execAdhTrustRotate
  | .adhTrustClear .. => h.execAdhTrustClear
  | .adhRightsSet .. => h.execAdhRightsSet
  | .adhFirmwareUpdate .. => h.execAdhFirmwareUpdate
  | .adhPersonalitySet .. => h.execAdhPersonalitySet
  | .adhNodeReset .. => h.execAdhNodeReset
  | .nodeResetTime => h.execNodeResetTime
  | .adhCroakKey .. => h.execAdhCroakKey
  | .adhSessionOpen c _ _ _ => h.execAdhSessionOpen (c := c)
  | .adhUpload .. => h.execAdhUpload
  | .mgmtSessionDatagram .. => h.execMgmtSessionDatagram
  | .sessionIdleTimer .. => h.execSessionIdleTimer
  | .adeahFailover => h.execAdeahFailover
  | .croakSendTimer .. => h.execCroakSendTimer
  | .croakReceive .. => h.execCroakReceive
  | .croakMiss .. => h.execCroakMiss
  | .croakPlaneTimer .. => h.execCroakPlaneTimer
  | .recoverySolicit => h.execRecoverySolicit
  | .recoveryImageBlock .. => h.execRecoveryImageBlock
  | .counterCapture => h.execCounterCapture
  | .vinExcursion .. => h.execVinExcursion
  | .pwrgdRise => h.execPwrgdRise
  | .pwrgdFall => h.execPwrgdFall
  | .powerdownComplete => h.execPowerdownComplete
  | .resetNAssert .. => h.execResetNAssert
  | .resetNRelease => h.execResetNRelease
  | .safeNAssert => h.execSafeNAssert
  | .safeNRelease => h.execSafeNRelease
  | .safeNStuckTimer => h.execSafeNStuckTimer
  | .safeStormEndTimer => h.execSafeStormEndTimer
  | .refclkLoss => h.execRefclkLoss
  | .thermalTrip .. => h.execThermalTrip
  | .thermalStepTimer .. => h.execThermalStepTimer
  | .inputPowerStep .. => h.execInputPowerStep
  | .thermalWarn .. => h.execThermalWarn
  | .alertHoldTimer => h.execAlertHoldTimer
  | .idcode => h.execIdcode
  | .samplePreload .. => h.execSamplePreload
  | .extest => h.execExtest
  | .extestPulse => h.execExtestPulse
  | .extestTrain => h.execExtestTrain
  | .highz => h.execHighz
  | .clamp => h.execClamp
  | .bypass .. => h.execBypass
  | .imageVerify .. => h.execImageVerify
  | .dieSelfTestDone .. => h.execDieSelfTestDone
  | .dramTrainingDone .. => h.execDramTrainingDone
  | .nandRebuildDone .. => h.execNandRebuildDone
  | .nodeJoin => h.execNodeJoin
  | .joinFailedTimer => h.execJoinFailedTimer
  | .prefillStart .. => h.execPrefillStart
  | .contextLoadDone .. => h.execContextLoadDone
  | .channelLoss .. => h.execChannelLoss
  | .vinReturn .. => h.execVinReturn
  | .ptpTransmitTimer .. => h.execPtpTransmitTimer
  | .timeSlewDone => h.execTimeSlewDone
  | .ethernetLinkUp .. => h.execEthernetLinkUp
  | .ethPathHoldDownExpiry .. => h.execEthPathHoldDownExpiry

end Sys2Proof.Machine
end

section
open Sys2Proof Sys2Proof.Machine

/-- Settles O10: the step is a nanosecond or the command in front, and each keeps memory's canonical form. -/
theorem memoryCanonical : Obligations.MemoryCanonical := by
  intro s t hs he
  unfold step at he
  split at he
  · cases he
    exact State.Canon.tick hs
  next rest _ =>
    have hr : State.Canon { s with pending := rest } := hs
    exact hr.exec t he

end

section
/-! SUPPORT. What the upkeep of blocks, counters, messages and completed commands never reaches: the streams and rings, the request records, the
commands' numbers, the leaps an operator started and the codebook versions issued. One lemma for each operation says so. -/

namespace Sys2Proof.Machine
open Sys2Proof

/-- The parts of a state that `State.standing` observes. -/
structure Standing where
  str : Streams
  reqs : Tbl Nat Req
  nextCid : Nat
  /-- Which command numbers are listed. -/
  listed : Nat → Bool
  /-- The operation and target of the leap an operator started, by request. -/
  starts : Nat → Option OpRef × Option Nat
  issued : Tbl (Nat × Nat) Nat

/-- What the upkeep of blocks, counters, messages and completed commands leaves as it stands. -/
def State.standing (s : State) : Standing :=
  { str := s.str, reqs := s.kv.reqs, nextCid := s.work.nextCid, listed := Tbl.has s.work.cmds,
    starts := fun rid => ((s.hold rid).startOp, (s.hold rid).startTarget), issued := s.cb.issued }

variable {s t : State}

theorem Standing.str_eq (h : t.standing = s.standing) : t.str = s.str := congrArg Standing.str h
theorem Standing.reqs_eq (h : t.standing = s.standing) : t.kv.reqs = s.kv.reqs := congrArg Standing.reqs h
theorem Standing.req_eq (h : t.standing = s.standing) (rid : Nat) : t.req rid = s.req rid := by
  rw [State.req, Standing.reqs_eq h, State.req]
theorem Standing.nextCid_eq (h : t.standing = s.standing) : t.work.nextCid = s.work.nextCid := congrArg Standing.nextCid h
theorem Standing.listed_eq (h : t.standing = s.standing) (cid : Nat) : Tbl.has t.work.cmds cid = Tbl.has s.work.cmds cid :=
  congrFun (congrArg Standing.listed h) cid
theorem Standing.starts_eq (h : t.standing = s.standing) (rid : Nat) :
    (t.hold rid).startOp = (s.hold rid).startOp ∧ (t.hold rid).startTarget = (s.hold rid).startTarget :=
  Prod.mk.inj (congrFun (congrArg Standing.starts h) rid)
theorem Standing.issued_eq (h : t.standing = s.standing) : t.cb.issued = s.cb.issued := congrArg Standing.issued h

/-! ### Branches, folds and tables -/

theorem ite_standing {p : Prop} [Decidable p] {x : Standing} {a b : State} (ha : a.standing = x) (hb : b.standing = x) :
    (if p then a else b).standing = x := by
  split
  · exact ha
  · exact hb

/-- A fold whose every step leaves an observation leaves it. -/
theorem foldl_keeps {α γ : Type} (g : State → γ) (l : List α) (f : State → α → State) (s : State) (h : ∀ t x, g (f t x) = g t) :
    g (l.foldl f s) = g s :=
  List.foldlRecOn (motive := fun t => g t = g s) l f rfl (fun t ht x _ => (h t x).trans ht)

theorem foldl_standing {α : Type} {l : List α} {f : State → α → State} (h : ∀ t x, (f t x).standing = t.standing) :
    (l.foldl f s).standing = s.standing := foldl_keeps State.standing l f s h

/-- A table whose every value is changed lists the same keys. -/
theorem Tbl.has_mapVals {κ α : Type} [DecidableEq κ] (t : Tbl κ α) (f : κ → α → α) (k : κ) : Tbl.has (Tbl.mapVals t f) k = Tbl.has t k := by
  simp [Tbl.has, Tbl.get_mapVals]

/-- A change of one value keeps the keys listed. -/
theorem Tbl.has_upd {κ α : Type} [DecidableEq κ] (t : Tbl κ α) (k k' : κ) (f : α → α) : Tbl.has (Tbl.upd t k f) k' = Tbl.has t k' := by
  unfold Tbl.has
  by_cases hk : k' = k
  · subst hk
    cases hg : Tbl.get t k' with
    | none => rw [Tbl.upd_none _ _ _ hg, hg]
    | some v => rw [Tbl.get_upd_some _ _ _ v hg]; rfl
  · rw [Tbl.get_upd_other _ _ _ _ hk]

/-! ### Updates of one part -/

@[simp] theorem State.wr_standing (a : Nat) (bs : List Byte) : (s.wr a bs).standing = s.standing := rfl
@[simp] theorem State.wrWords_standing (a : Nat) (ws : List Nat) : (s.wrWords a ws).standing = s.standing := rfl
@[simp] theorem State.setDesc_standing (da : Nat) (d : Desc) : (s.setDesc da d).standing = s.standing := by rw [State.setDesc, State.wrWords_standing]
@[simp] theorem State.setCbSet_standing (ctx e : Nat) (x : CbSet) : (s.setCbSet ctx e x).standing = s.standing := by rw [State.setCbSet, State.wrWords_standing]
@[simp] theorem State.setMapEntry_standing (r : Req) (l h b da : Nat) : (s.setMapEntry r l h b da).standing = s.standing := by rw [State.setMapEntry, State.wrWords_standing]
@[simp] theorem State.setRing_standing (r : Req) (x : TokRing) : (s.setRing r x).standing = s.standing := by rw [State.setRing, State.wrWords_standing]
@[simp] theorem State.sealRows_standing (da n : Nat) : (s.sealRows da n).standing = s.standing := by rw [State.sealRows, State.setDesc_standing]
@[simp] theorem State.tell_standing (m : CtlMsg) : (s.tell m).standing = s.standing := rfl
@[simp] theorem State.gram_standing (k p : Nat) (bs : List Byte) : (s.gram k p bs).standing = s.standing := rfl
@[simp] theorem State.bookNew_standing (q sc i n : Nat) : (s.bookNew q sc i n).standing = s.standing := rfl
@[simp] theorem State.bookMove_standing (q sc i j n : Nat) : (s.bookMove q sc i j n).standing = s.standing := rfl
@[simp] theorem State.bookEnd_standing (q sc i n : Nat) : (s.bookEnd q sc i n).standing = s.standing := rfl
@[simp] theorem State.bookSlot_standing (da i j : Nat) : (s.bookSlot da i j).standing = s.standing := by rw [State.bookSlot, State.bookMove_standing]
@[simp] theorem State.bookReq_standing (e : DirEntry) (i j : Nat) : (s.bookReq e i j).standing = s.standing := by rw [State.bookReq, State.bookMove_standing]
@[simp] theorem State.transitOut_standing (p q n : Nat) : (s.transitOut p q n).standing = s.standing := rfl
@[simp] theorem State.updVi_standing (v : Nat) (f : Vi → Vi) : (s.updVi v f).standing = s.standing := rfl
@[simp] theorem State.account_standing (v c k n : Nat) : (s.account v c k n).standing = s.standing := rfl
@[simp] theorem State.setQueue_standing (k : QKey) (q : Queue) : (s.setQueue k q).standing = s.standing := rfl
@[simp] theorem State.updInst_standing (c i : Nat) (f : Inst → Inst) : (s.updInst c i f).standing = s.standing := rfl
@[simp] theorem State.updComp_standing (c : Nat) (f : Comp → Comp) : (s.updComp c f).standing = s.standing := rfl
@[simp] theorem State.setEntry_standing (rid : Nat) (e : DirEntry) : (s.setEntry rid e).standing = s.standing := rfl
@[simp] theorem State.setUnit_standing (u : Nat) (x : UnitCtr) : (s.setUnit u x).standing = s.standing := rfl
@[simp] theorem State.dropTees_standing (da n : Nat) : (s.dropTees da n).standing = s.standing := rfl
@[simp] theorem State.unmapSector_standing (sec : Nat) : (s.unmapSector sec).standing = s.standing := rfl
@[simp] theorem State.fillSlot_standing (ctx e slot ver st : Nat) (obj : List Byte) : (s.fillSlot ctx e slot ver st obj).standing = s.standing := by
  rw [State.fillSlot, State.setCbSet_standing, State.wr_standing, State.wr_standing]
@[simp] theorem State.countEnded_standing (e : DirEntry) (st : Status) : (s.countEnded e st).standing = s.standing := rfl
@[simp] theorem State.closeJob_standing (u cid vi : Nat) (kept : Bool) : (s.closeJob u cid vi kept).standing = s.standing := by
  rw [State.closeJob, State.moveSlots, State.setUnit_standing, State.setUnit_standing]
@[simp] theorem State.tally_standing (c : Cmd) : (s.tally c).standing = s.standing := by
  rw [State.tally, State.updVi_standing, State.setUnit_standing]

theorem State.withTier_standing (s : State) (x : Tiers) : ({ s with tier := x } : State).standing = s.standing := rfl
theorem State.withProt_standing (s : State) (x : Prot) : ({ s with prot := x } : State).standing = s.standing := rfl

/-- Commands changed in their places are the same commands by number. -/
theorem State.mapCmds_standing (f : Nat → Cmd → Cmd) :
    ({ s with work := { s.work with cmds := Tbl.mapVals s.work.cmds f } } : State).standing = s.standing := by
  have hl : Tbl.has (Tbl.mapVals s.work.cmds f) = Tbl.has s.work.cmds := funext (Tbl.has_mapVals _ _)
  simp only [State.standing, hl]
  rfl

@[simp] theorem State.updCmd_standing (cid : Nat) (f : Cmd → Cmd) : (s.updCmd cid f).standing = s.standing := by
  have hl : Tbl.has (Tbl.upd s.work.cmds cid f) = Tbl.has s.work.cmds := funext fun k => Tbl.has_upd _ _ _ _
  simp only [State.standing, State.updCmd, hl]
  rfl

@[simp] theorem State.finish_standing (cid : Nat) (st : Status) (result : Nat) : (s.finish cid st result).standing = s.standing :=
  State.updCmd_standing cid _
@[simp] theorem State.note_standing (cid : Nat) (evs : List (Nat × Nat)) (lr lw a b : Nat) : (s.note cid evs lr lw a b).standing = s.standing :=
  State.updCmd_standing cid _

/-- What a request's holder does with its blocks may change, where the leap an operator started does not. -/
theorem State.mapHolds_standing (f : HoldState → HoldState) (hf : ∀ h, (f h).startOp = h.startOp ∧ (f h).startTarget = h.startTarget) :
    ({ s with own := { s.own with holds := Tbl.mapVals s.own.holds (fun _ h => f h) } } : State).standing = s.standing := by
  have hstart : ∀ rid, ((Tbl.at (Tbl.mapVals s.own.holds (fun _ h => f h)) rid {}).startOp, (Tbl.at (Tbl.mapVals s.own.holds (fun _ h => f h)) rid {}).startTarget) =
      ((Tbl.at s.own.holds rid {}).startOp, (Tbl.at s.own.holds rid {}).startTarget) := by
    intro rid
    cases h : Tbl.get s.own.holds rid <;> simp [Tbl.at, Tbl.get_mapVals, h, hf]
  simp only [State.standing, State.hold, hstart]

/-! ### Events, answers and packets -/

@[simp] theorem State.raise_standing (ev : Ev) (die unit : Nat) (p vs : List Nat) : (s.raise ev die unit p vs).standing = s.standing := by
  obtain ⟨l, v, m, e, -⟩ := s.raise_frame ev die unit p vs
  rw [e]
  rfl

@[simp] theorem State.raise0_standing (ev : Ev) (die unit : Nat) (p : List Nat) : (s.raise0 ev die unit p).standing = s.standing :=
  State.raise_standing ev die unit p []

@[simp] theorem State.finishOp_standing (r : OpRef) (st : Status) (result : Nat) (extra : List Nat) : (s.finishOp r st result extra).standing = s.standing := by
  unfold State.finishOp
  split
  · rfl
  · split
    · obtain ⟨v, m, e, -⟩ := State.asyncPut_frame s r.vi [sealWords ([mkWord [(48, 16, st.code), (32, 16, r.op), (0, 32, r.handle)], u64 result,
        u64 s.now] ++ (extra ++ [0, 0, 0, 0]).take 4)]
      rw [e]
      rfl
    · split
      · obtain ⟨a, m, e, -⟩ := s.mboxAnswer_frame r.vi r.mbox r.mbSeq r.op st result 0 extra
        rw [e]
        rfl
      · rfl

/-- Queueing a packet changes the links and the telemetry alone. -/
theorem State.enqueue_frame (s : State) (port : Nat) (p : Packet) : ∃ l x, s.enqueue port p = { s with lnk := l, tra := x } := by
  have hset : ∀ (t : State) (l : Links) (y : Traffic) (a b : Nat), t = { s with lnk := l, tra := y } → ∃ x, t.telSettle a b = { s with lnk := l, tra := x } := by
    rintro t l y a b rfl
    unfold State.telSettle
    extract_lets key
    split
    · exact ⟨y, rfl⟩
    · exact ⟨_, rfl⟩
  obtain ⟨x, hx⟩ := hset s s.lnk s.tra port p.tc rfl
  obtain ⟨y, hy⟩ := hset _ { s.lnk with queue := s.lnk.queue ++ [{ port := port, pkt := p, at_ := s.now }] } x port p.tc rfl
  exact ⟨_, y, by rw [State.enqueue, hx]; exact hy⟩

/-- Handing a packet to its path changes the links and the traffic's state alone. -/
theorem State.emit_frame (s : State) (p : Packet) : ∃ l x, s.emit p = { s with lnk := l, tra := x } := by
  have hport : ∀ (t : State) (y : Traffic), t = { s with tra := y } → ∃ l x, t.toPort p = { s with lnk := l, tra := x } := by
    rintro t y rfl
    unfold State.toPort
    split
    · obtain ⟨l, x, e⟩ := State.enqueue_frame { s with tra := y } _ p
      exact ⟨l, x, e⟩
    · exact ⟨s.lnk, y, rfl⟩
  unfold State.emit
  extract_lets x b
  split
  · exact hport s s.tra rfl
  · split
    · exact hport _ _ rfl
    · exact ⟨s.lnk, _, rfl⟩

/-- Choosing a path changes the fabric's state alone (R296). -/
theorem State.pickPath_frame (s : State) (p : Packet) : ∃ f, (s.pickPath p).2 = { s with fab := f } := by
  unfold State.pickPath
  split
  · exact ⟨s.fab, rfl⟩
  · exact ⟨_, rfl⟩

/-- Sending a request changes the fabric's, the links' and the traffic's state alone (R271, R291, R296). -/
theorem State.sendReq_frame (s : State) (p : Packet) (purpose : Purpose) (orig : Option Packet) :
    ∃ f l x, s.sendReq p purpose orig = { s with fab := f, lnk := l, tra := x } := by
  have henq : ∀ (t : State) (f : Fabric) (port : Nat) (q : Packet), t = { s with fab := f } →
      ∃ f l x, t.enqueue port q = { s with fab := f, lnk := l, tra := x } := by
    rintro t f port q rfl
    obtain ⟨l, x, e⟩ := State.enqueue_frame { s with fab := f } port q
    exact ⟨f, l, x, e⟩
  have hemit : ∀ (t : State) (f : Fabric) (q : Packet), t = { s with fab := f } → ∃ f l x, t.emit q = { s with fab := f, lnk := l, tra := x } := by
    rintro t f q rfl
    obtain ⟨l, x, e⟩ := State.emit_frame { s with fab := f } q
    exact ⟨f, l, x, e⟩
  have hon : ∀ (t : State) (f : Fabric) (path : Option Nat), t = { s with fab := f } →
      ∃ f l x, t.sendOn p path purpose orig = { s with fab := f, lnk := l, tra := x } := by
    rintro t f path rfl
    unfold State.sendOn
    dsimp only
    split
    · split
      · exact henq _ _ _ _ rfl
      · exact ⟨_, s.lnk, s.tra, rfl⟩
    · split
      · exact hemit _ _ _ rfl
      · exact ⟨_, s.lnk, s.tra, rfl⟩
  obtain ⟨f, hf⟩ := s.pickPath_frame p
  unfold State.sendReq
  split
  · exact hon s s.fab none rfl
  · exact hon _ f _ hf

@[simp] theorem State.sendReq_standing (p : Packet) (purpose : Purpose) (orig : Option Packet) : (s.sendReq p purpose orig).standing = s.standing := by
  obtain ⟨f, l, x, e⟩ := s.sendReq_frame p purpose orig
  rw [e]
  rfl

end Sys2Proof.Machine
end

section
/-! SUPPORT. What the upkeep of blocks and the completion of a command leave as it stands. -/

namespace Sys2Proof.Machine
open Sys2Proof

variable {s : State}

/-! ### References, sectors and slots -/

@[simp] theorem State.ledgerBroken_standing (q sc x f : Nat) (b : Bool) : (s.ledgerBroken q sc x f b).standing = s.standing := by
  rw [State.ledgerBroken, State.raise0_standing]
  rfl

@[simp] theorem State.addRef_standing (ctx e ver : Nat) (up : Bool) : (s.addRef ctx e ver up).standing = s.standing := by
  unfold State.addRef
  extract_lets x
  split
  · rfl
  · extract_lets v
    split
    · simp
    · split <;> simp

@[simp] theorem State.descRefs_standing (da : Nat) (up : Bool) : (s.descRefs da up).standing = s.standing := by
  unfold State.descRefs
  extract_lets d
  split
  · rfl
  · split <;> simp

@[simp] theorem State.addStat_standing (ctx e ver k n : Nat) : (s.addStat ctx e ver k n).standing = s.standing := by
  unfold State.addStat
  split
  · rfl
  · rw [State.wrWords_standing]

@[simp] theorem State.unitEvent_standing (u ev n : Nat) (vi : Option Nat) : (s.unitEvent u ev n vi).standing = s.standing := by
  unfold State.unitEvent
  extract_lets x
  split
  · rfl
  · rw [State.setUnit_standing]

@[simp] theorem State.mapSector_standing (sec : Nat) : (s.mapSector sec).standing = s.standing := by
  unfold State.mapSector
  extract_lets ups
  split
  rename_i w s1 hd
  have h1 : s1.standing = s.standing := congrArg (fun p : Nat × State => p.2.standing) hd.symm
  split
  · exact h1
  · rw [State.unitEvent_standing]
    exact h1

@[simp] theorem State.fitSectors_standing (slot repr d : Nat) : (s.fitSectors slot repr d).standing = s.standing := by
  unfold State.fitSectors
  split
  · rfl
  · refine (foldl_standing fun t x => State.unmapSector_standing x).trans (foldl_standing fun t x => ?_)
    split
    · rfl
    · exact State.mapSector_standing x

@[simp] theorem State.rowsValid_standing (rid l h b n : Nat) : (s.rowsValid rid l h b n).standing = s.standing := by
  unfold State.rowsValid
  split
  · rfl
  · extract_lets da d s1
    have h1 : s1.standing = s.standing := by
      unfold s1
      split
      · rfl
      · rw [State.dropTees_standing, State.setDesc_standing]
    refine (foldl_standing fun t i => ?_).trans h1
    extract_lets a d'
    split
    · rfl
    · rw [State.dropTees_standing, State.setDesc_standing]

@[simp] theorem State.applyPost_standing (p : Post) : (s.applyPost p).standing = s.standing := by
  cases p <;> simp [State.applyPost]

@[simp] theorem State.freeDesc_standing (da i : Nat) : (s.freeDesc da i).standing = s.standing := by
  unfold State.freeDesc
  extract_lets slot size s1 tier' s2 own' s3
  have h1 : s1.standing = s.standing := by
    refine (foldl_standing fun t x => State.unmapSector_standing x).trans ?_
    simp
  have h2 : s2.standing = s1.standing := State.withTier_standing s1 _
  have h3 : s3.standing = s2.standing := State.mapHolds_standing (s := s2) _ (fun _ => ⟨rfl, rfl⟩)
  rw [State.bookSlot_standing, State.setDesc_standing, h3, h2, h1]

@[simp] theorem State.freeWaiting_standing : s.freeWaiting.standing = s.standing := by
  unfold State.freeWaiting
  exact (foldl_standing fun t da => State.freeDesc_standing da _).trans rfl

@[simp] theorem State.freeOrWait_standing (da : Nat) : (s.freeOrWait da).standing = s.standing := by
  unfold State.freeOrWait
  split
  · rfl
  · exact State.freeDesc_standing da _

@[simp] theorem State.freeBlocks_standing (rid : Nat) (r : Req) : (s.freeBlocks rid r).standing = s.standing := by
  unfold State.freeBlocks
  refine foldl_standing fun t e => ?_
  dsimp only
  rw [State.setMapEntry_standing]
  split <;> simp

@[simp] theorem State.freeAll_standing (rid : Nat) : (s.freeAll rid).standing = s.standing := by
  unfold State.freeAll
  extract_lets s1 par s2
  have h1 : s1.standing = s.standing := foldl_standing fun t da => State.freeOrWait_standing da
  have h2 : s2.standing = s1.standing := by
    refine foldl_standing fun t da => ?_
    extract_lets u
    have hu : u.standing = t.standing := by
      unfold u
      rw [State.bookSlot_standing, State.wrWords_standing]
    exact (State.withTier_standing u _).trans hu
  exact (State.withProt_standing s2 _).trans (h2.trans h1)

@[simp] theorem State.dropTentative_standing (rid : Nat) (r : Req) : (s.dropTentative rid r).standing = s.standing := by
  unfold State.dropTentative
  refine foldl_standing fun t e => ?_
  dsimp only
  split
  · rfl
  · split
    · rw [State.setMapEntry_standing, State.freeDesc_standing]
    · rw [State.setDesc_standing]

/-! ### The completion step (R76, R78) -/

@[simp] theorem State.settle_standing (u : Nat) : (s.settle u).standing = s.standing := by
  obtain ⟨p, e⟩ := s.settle_frame u
  rw [e]
  rfl

@[simp] theorem State.queueError_standing (k : QKey) (reason : Nat) : (s.queueError k reason).standing = s.standing := by
  rw [State.queueError, State.raise_standing, State.setQueue_standing]

@[simp] theorem State.notify_standing (v addr tail : Nat) : (s.notify v addr tail).standing = s.standing := by
  unfold State.notify
  extract_lets ws
  split <;> simp

@[simp] theorem State.chargeEnd_standing (c : Cmd) : (s.chargeEnd c).standing = s.standing := by
  unfold State.chargeEnd
  split
  · rfl
  · extract_lets measured g s1 s2
    have h2 : s2.standing = s.standing := by rw [State.account_standing, State.updInst_standing]
    cases s.compOf c with
    | none => exact h2
    | some n => exact (State.updComp_standing n _).trans h2

@[simp] theorem State.setCounter_standing (v n count : Nat) : (s.setCounter v n count).standing = s.standing := by
  unfold State.setCounter State.fireArms
  refine (foldl_standing fun t a => ?_).trans rfl
  rw [State.updCmd_standing, State.settle_standing]

@[simp] theorem State.unblocked_standing (before : State) (k : QKey) : (s.unblocked before k).standing = s.standing :=
  State.mapCmds_standing _

@[simp] theorem State.chainAbort_standing (k : QKey) (index : Nat) : (s.chainAbort k index).standing = s.standing := by
  unfold State.chainAbort
  extract_lets next
  split
  · exact State.mapCmds_standing _
  · exact State.setQueue_standing _ _

@[simp] theorem State.sample_standing (v : Nat) (c : Cmd) (st : Status) : (s.sample v c st).standing = s.standing := by
  unfold State.sample
  extract_lets x
  split
  · rfl
  · extract_lets head s1
    split
    · exact State.updVi_standing _ _
    · rw [State.updVi_standing, State.wrWords_standing, State.wrWords_standing]

/-- A command taken from the list is listed no more. -/
theorem State.delCmd_standing (s : State) (cid : Nat) : ({ s with work := { s.work with cmds := Tbl.del s.work.cmds cid } } : State).standing =
    { s.standing with listed := fun k => decide (k ≠ cid) && Tbl.has s.work.cmds k } := by
  have hl : Tbl.has (Tbl.del s.work.cmds cid) = fun k => decide (k ≠ cid) && Tbl.has s.work.cmds k := by
    funext k
    by_cases hk : k = cid
    · simp [Tbl.has, hk]
    · simp [Tbl.has, hk, Tbl.get_del_other]
  simp only [State.standing, hl]
  rfl

/-- The completion step takes a command that has its outcome from the list; nothing else of what stands changes. -/
theorem State.completeCmd_standing (s : State) (cid : Nat) : s.completeCmd cid = s ∧ (Tbl.get s.work.cmds cid).bind (·.outcome) = none ∨
    (s.completeCmd cid).standing = { s.standing with listed := fun k => decide (k ≠ cid) && Tbl.has s.work.cmds k } := by
  unfold State.completeCmd
  split
  next hg => exact .inl ⟨rfl, by simp [hg]⟩
  next c hg =>
  split
  next ho => exact .inl ⟨rfl, by simp [hg, ho]⟩
  next st result ho =>
  right
  extract_lets u k q entries addr s1 covered s2 s3 c' s4 s5 s6 s7 s8 w work t work' s9 s10 s11 s12 s13
  have h1 : s1.standing = s.standing := foldl_standing fun t p => State.applyPost_standing p
  have h2 : s2.standing = s1.standing :=
    ite_standing rfl (ite_standing (by rw [State.setQueue_standing, State.wrWords_standing]) (State.queueError_standing k 3))
  have h3 : s3.standing = s2.standing := ite_standing (State.notify_standing _ _ _) rfl
  have h5 : s5.standing = s3.standing := (State.account_standing _ _ _ _).trans (State.chargeEnd_standing c)
  have h6 : s6.standing = s5.standing := ite_standing rfl (State.account_standing _ _ _ _)
  have h7 : s7.standing = s6.standing := ite_standing (State.account_standing _ _ _ _) rfl
  have h8 : s8.standing = s7.standing := ite_standing (State.account_standing _ _ _ _) rfl
  have hw : w.standing = s8.standing := ite_standing (State.settle_standing u) rfl
  have ht : t.standing = s.standing := by rw [State.tally_standing, hw, h8, h7, h6, h5, h3, h2, h1]
  have h9 : s9.standing = { s.standing with listed := fun k => decide (k ≠ cid) && Tbl.has s.work.cmds k } := by
    rw [State.delCmd_standing, ht, funext (Standing.listed_eq ht)]
  have h10 : s10.standing = s9.standing := ite_standing (State.closeJob_standing _ _ _ _) rfl
  have h11 : s11.standing = s10.standing := by
    unfold s11
    split
    · exact State.setCounter_standing _ _ _
    · rfl
  have h12 : s12.standing = s11.standing := by rw [State.freeWaiting_standing, State.unblocked_standing]
  have h13 : s13.standing = s12.standing := ite_standing (State.chainAbort_standing _ _) rfl
  rw [foldl_standing fun t v => State.sample_standing v c' st, h13, h12, h11, h10, h9]

end Sys2Proof.Machine
end

section
/-! SUPPORT. What an operation answered in its step leaves of the state it made (R395 to R397), and the compositions and policies that
Adeah's operations read and set (R18 to R21, R115, R130, R176, R189). -/

namespace Sys2Proof.Machine
open Sys2Proof

variable {s t : State} {c : Caller} {op result : Nat} {f : Form} {st : Status} {i : Instr} {g : State → AdhOut}

/-! ### Answers -/

/-- A mailbox answer without a body stays in the mailbox's lines. -/
theorem State.mboxAnswer_empty (s : State) (v m q op : Nat) (st : Status) (result handle : Nat) :
    ∃ a, s.mboxAnswer v m q op st result handle [] = { s with adh := a } := by
  have hfar : (List.drop 1984 (List.take (1984 + if word (s.mbox v m).header 3 = 0 then 0 else fld (s.mbox v m).header 4 63 32)
      (bytesOfWords []))).isEmpty = true := by simp [bytesOfWords]
  unfold State.mboxAnswer
  simp only [hfar, if_true]
  exact ⟨_, rfl⟩

/-- An answer without a body changes Adeah's state and the datagrams alone. -/
theorem State.respond_empty (s : State) (c : Caller) (op : Nat) (st : Status) (result : Nat) :
    ∃ a l, s.respond c op st result [] = { s with adh := a, log := l } := by
  have hbox : ∀ (t : State) (a : Adeah) (v m q h : Nat), t = { s with adh := a } →
      ∃ a l, t.mboxAnswer v m q op st result h [] = { s with adh := a, log := l } := by
    rintro t a v m q h rfl
    obtain ⟨a', e⟩ := State.mboxAnswer_empty { s with adh := a } v m q op st result h
    exact ⟨a', s.log, e⟩
  unfold State.respond
  by_cases hd : st = .adhAccepted ∨ st = .delayed
  · simp only [hd, if_true]
    split
    · exact ⟨_, s.log, rfl⟩
    · split
      · exact ⟨_, _, rfl⟩
      · split
        · exact ⟨_, s.log, rfl⟩
        · exact hbox _ _ _ _ _ _ rfl
  · simp only [hd, if_false]
    split
    · exact ⟨s.adh, s.log, rfl⟩
    · split
      · exact ⟨_, _, rfl⟩
      · split
        · exact ⟨_, s.log, rfl⟩
        · exact hbox s s.adh _ _ _ _ rfl

/-- An operation answered without a body does what it says; its answer changes Adeah's state and the datagrams alone. -/
theorem does_answered (hi : exec i s = .next (s.adhRun op f c g)) (ha : Asked s op f c) (hg : g s = ⟨st, result, [], t⟩)
    (hv : st ≠ .violation) : ∃ a l, Does i s (s.keeping { t with adh := a, log := l }) := by
  obtain ⟨a, l, e⟩ := State.respond_empty t c op st result
  refine ⟨a, l, ?_⟩
  rw [Does, hi, State.adhRun_asked s op f c g ha, hg, if_neg hv, ← e]

/-- A read through a mailbox is answered with its body, and changes no more than Adeah's state, the datagrams and the lines its answer takes. -/
theorem does_read {body : List Nat} (hi : exec i s = .next (s.adhRun op f c g)) (ha : AskedBox s op f c) (hg : g s = ⟨.ok, result, body, s⟩) :
    ∃ a l m, Does i s { s with adh := a, log := l, mem := m } ∧ State.replied { s with adh := a, log := l, mem := m } c .ok result body := by
  obtain ⟨hasked, hs, ho⟩ := ha
  obtain ⟨a, l, m, e, -⟩ := State.respond_frame s c op .ok result body
  have hr : (s.respond c op .ok result body).replied c .ok result body := State.respond_replied ho hs (by simp [FinalStatus])
  refine ⟨a, l, m, ?_, e ▸ hr⟩
  rw [Does, hi, State.adhRun_asked s op f c g hasked, hg, if_neg (by simp)]
  exact congrArg (fun x => Host.Outcome.next (s.keeping x)) e

/-! ### Reads of a composition and of an entry -/

/-- A read of a composition that the caller's rights cover and this node holds. -/
theorem State.onComp_held {comp : Nat} {k : Comp → AdhOut} (hc : s.coversComp c.vi comp = true) (hm : (s.comp comp).maps ≠ []) :
    s.onComp c comp k = k (s.comp comp) := by
  simp [State.onComp, hc, hm]

/-- A read of a request's entry whose composition the caller's rights cover. -/
theorem State.onEntry_held {req : Nat} {e : DirEntry} {k : DirEntry → AdhOut} (he : s.entry req = some e)
    (hc : s.coversComp c.vi e.composition = true) : s.onEntry c req k = k e := by
  simp [State.onEntry, he, hc]

/-- A composition with one map has no older epoch. -/
theorem doCompositionStatus_single {comp : Nat} (hc : s.coversComp c.vi comp = true) (h1 : (s.comp comp).maps.length = 1) :
    doCompositionStatus c comp s = ⟨.ok, 0, [(s.comp comp).cur.epoch, (s.comp comp).cur.epoch, 0, (s.comp comp).cur.prompt.length,
      (s.comp comp).cur.gen.length, (s.comp comp).cur.cache.length, (s.comp comp).cur.home.length] ++ (s.comp comp).cur.prompt ++
      (s.comp comp).cur.gen ++ (s.comp comp).cur.cache ++ (s.comp comp).cur.home, s⟩ := by
  have hm : (s.comp comp).maps ≠ [] := by
    intro h
    simp [h] at h1
  have hold : (s.comp comp).maps[1]? = none := List.getElem?_eq_none (by omega)
  simp [doCompositionStatus, State.onComp_held hc hm, hold]

/-! ### Compositions and policies -/

/-- A composition whose maps are not empty is listed. -/
theorem State.comp_listed {comp : Nat} (h : (s.comp comp).maps ≠ []) : Tbl.get s.comps comp = some (s.comp comp) := by
  unfold State.comp Tbl.at at *
  cases hg : Tbl.get s.comps comp with
  | none => simp [hg] at h
  | some x => simp

/-- The first definition of a composition, where its fields are in their ranges and the node has room for it. -/
theorem doCompositionDefine_first {comp model epoch : Nat} {prompt gen cache home : List Nat} {prot repr beat : Nat} {quotas : List Nat} {pr : Protection}
    (hp : protOf prot = some pr) (h0 : 0 < comp) (h1 : comp < 65535) (hmod : model < 2 ^ 32) (hep : epoch < 2 ^ 32)
    (hn : [prompt, gen, cache, home].all (fun l => l.all (fun n => decide (n < 4095)) && decide l.Nodup) = true) (hh : home ≠ []) (hl : home.length ≤ 4096)
    (hr : repr ≤ 2) (hb : 5000000 ≤ beat) (hb' : beat ≤ 250000000) (hq : quotas.length = 3) (hcache : pr = .none ∨ pr.least ≤ cache.length)
    (hnew : (s.comp comp).maps = []) (hroom : s.comps.length < 64) :
    ∃ at_, doCompositionDefine comp model epoch prompt gen cache home prot repr beat quotas s = adhOk { s with comps := Tbl.set s.comps comp { s.comp comp with
      maps := [{ epoch := epoch, model := model, prompt := prompt, gen := gen, cache := cache, home := home, protection := pr, kvRepr := repr, beat := beat, quotas := quotas }]
      beatAt := at_ } } := by
  refine ⟨s.now / beat * beat, ?_⟩
  have hfields : ¬ (pr ≠ .none ∧ cache.length < pr.least) := by
    rintro ⟨hne, hlt⟩
    exact absurd (hcache.resolve_left hne) (by omega)
  have hlen : ∀ p : Nat × Comp → Bool, (s.comps.filter p).length < 64 := fun p => lt_of_le_of_lt (List.length_filter_le _ _) hroom
  have hnodes : (prompt.all (fun n => decide (n < 4095)) && decide prompt.Nodup && (gen.all (fun n => decide (n < 4095)) && decide gen.Nodup) &&
      (cache.all (fun n => decide (n < 4095)) && decide cache.Nodup) && (home.all (fun n => decide (n < 4095)) && decide home.Nodup)) = true := by
    simpa [and_assoc] using hn
  have hcap : ¬ 4096 ≤ (s.comps.filter (fun x => !x.2.maps.isEmpty)).length := by
    have := hlen (fun x => !x.2.maps.isEmpty)
    omega
  simp only [doCompositionDefine, hp, hnodes]
  rw [if_neg (by push Not; exact ⟨by omega, by omega, by omega, by omega, by simp, hh, by omega, by omega, by omega, by omega, hq, by simpa using hfields⟩), if_pos hnew, if_neg (by
    push Not
    exact ⟨by omega, fun _ => hlen _⟩)]

/-- A leap policy in its ranges, for a composition this node holds. -/
theorem doLeapPolicy_ok {comp lease leapTimeout pullMode pullDeadline : Nat} (hm : (s.comp comp).maps ≠ []) (h1 : 200000 ≤ lease) (h2 : lease ≤ 5000000)
    (h3 : 200000 ≤ leapTimeout) (h4 : leapTimeout ≤ 10000000) (h5 : pullMode ≤ 2) (h6 : 50000 ≤ pullDeadline) (h7 : pullDeadline ≤ 100000000) :
    doLeapPolicy comp lease leapTimeout pullMode pullDeadline s = adhOk { s with
      comps := Tbl.upd s.comps comp (fun c => { c with leapTimeout := leapTimeout, pullMode := pullMode, pullDeadline := pullDeadline })
      own := { s.own with leaseLen := lease } } :=
  if_neg (by push Not; exact ⟨hm, h1, h2, h3, h4, h5, h6, h7⟩)

/-- A calibration policy in its ranges, for a composition this node holds and a cache member of it. -/
theorem doCalibrationPolicy_ok {comp : Nat} {node : Option Nat} {p : List Nat} (hm : (s.comp comp).maps ≠ []) (hp : p.length = 15)
    (hr : (p.zip calibRanges).all (fun x => decide (x.2.1 ≤ x.1) && decide (x.1 ≤ x.2.2)) = true)
    (hn : node.all (fun n => (s.comp comp).cur.cache.contains n) = true) :
    ∃ q : CalibPolicy, doCalibrationPolicy comp node p s = adhOk { s with cb := { s.cb with policies := Tbl.set s.cb.policies comp q } } ∧
      q.node = node ∧ q.window = word p 0 ∧ q.moltRate = word p 12 ∧ q.distHi = (s.calib comp).distHi := by
  have hnode : node.any (fun n => !(s.comp comp).cur.cache.contains n) = false := by
    cases node with
    | none => rfl
    | some n => simpa using hn
  refine ⟨_, if_neg ?_, rfl, rfl, rfl, rfl⟩
  simp only [hm, hp, hr, hnode]
  simp

/-- Attend thresholds in their ranges, for a composition this node holds. -/
theorem doAttendPolicy_ok {comp distHi epsHi dvHi : Nat} (hm : (s.comp comp).maps ≠ [])
    (hr : [distHi, epsHi, dvHi].all (fun n => decide (256 ≤ n) && decide (n ≤ 1048576)) = true) :
    doAttendPolicy comp distHi epsHi dvHi s = adhOk { s with cb := { s.cb with
      policies := Tbl.set s.cb.policies comp { s.calib comp with distHi := distHi, epsHi := epsHi, dvHi := dvHi } } } := by
  refine if_neg ?_
  simp only [List.all_cons, List.all_nil, Bool.and_true, Bool.and_eq_true, decide_eq_true_eq] at hr
  simp [hm]
  omega

end Sys2Proof.Machine
end

section
/-! SUPPORT. Codebooks and leaps as Adeah's operations set them going (R126, R127, R187, R203, R212). -/

namespace Sys2Proof.Machine
open Sys2Proof

variable {s : State} {c : Caller}

/-! ### Codebooks: publication and factors (R187, R203, R212) -/

@[simp] theorem State.publishTo_standing (ctx e slot ver m : Nat) (obj : List Byte) : (s.publishTo ctx e slot ver m obj).standing = s.standing := by
  unfold State.publishTo
  extract_lets f a n s1
  exact (State.tell_standing _).trans (foldl_standing fun t i => State.sendReq_standing _ _ _)

@[simp] theorem State.switchTo_standing (ctx e slot ver m time : Nat) : (s.switchTo ctx e slot ver m time).standing = s.standing := by
  unfold State.switchTo
  split
  · rw [State.setCbSet_standing]
  · rw [State.tell_standing]

/-- What is recorded of a publication leaves the versions issued. -/
theorem State.withPubs_standing (s : State) (x : Tbl (Nat × Nat × Nat) Publication) :
    ({ s with cb := { s.cb with pubs := x } } : State).standing = s.standing := rfl

@[simp] theorem State.settlePub_standing (ctx comp e ver : Nat) : (s.settlePub ctx comp e ver).standing = s.standing := by
  unfold State.settlePub
  split
  · rfl
  next p _ =>
  split
  · rfl
  · extract_lets time cb' s1 s2
    have h2 : s2.standing = s.standing := (foldl_standing fun t m => State.switchTo_standing _ _ _ _ _ _).trans (State.withPubs_standing s _)
    cases p.op with
    | none => exact h2
    | some r => exact (State.finishOp_standing r _ _ _).trans h2

@[simp] theorem State.publishSet_standing (ctx e ver : Nat) (obj : List Byte) (op : Option OpRef) : (s.publishSet ctx e ver obj op).standing = s.standing := by
  unfold State.publishSet
  extract_lets comp x
  split
  · rfl
  · extract_lets s1 p cb' s2
    have h2 : s2.standing = s.standing := (State.withPubs_standing s1 _).trans (State.fillSlot_standing _ _ _ _ _ _)
    exact (State.settlePub_standing _ _ _ _).trans ((foldl_standing fun t m => State.publishTo_standing _ _ _ _ _ _).trans h2)

/-- Factors for a set that has none, on a slot that is LOADING or READY. -/
theorem doCodebookFactors_new {slot layer head kv : Nat} {factors : List Nat} (hst : (s.ctx slot).st = .ready ∨ (s.ctx slot).st = .loading)
    (hl : layer < (s.ctx slot).f.layers) (hh : head < (s.ctx slot).f.kvHeads) (hkv : kv ≤ 1) (hf : factors.length = (s.ctx slot).f.headDim)
    (hpos : factors.all f32Positive = true) (hnew : Tbl.get (s.ctx slot).factors (layer, head, kv) = none) :
    doCodebookFactors slot layer head kv factors s = adhOk { s with
      work := { s.work with ctxs := Tbl.set s.work.ctxs slot { s.ctx slot with factors := Tbl.set (s.ctx slot).factors (layer, head, kv) factors } }
      mem := memPuts s.mem ((s.ctx slot).f.factorBase + 4 * (s.ctx slot).f.headDim * (s.ctx slot).f.entry layer head kv) (factors.flatMap (bytesOf 4)) } := by
  have hbad : ¬ (((s.ctx slot).st ≠ .loading ∧ (s.ctx slot).st ≠ .ready) ∨ (s.ctx slot).f.layers ≤ layer ∨ (s.ctx slot).f.kvHeads ≤ head ∨ 1 < kv ∨
      factors.length ≠ (s.ctx slot).f.headDim ∨ (!factors.all f32Positive) = true) := by
    push Not
    exact ⟨fun h => hst.resolve_right h, hl, hh, hkv, hf, by simpa using hpos⟩
  simp only [doCodebookFactors, hbad, hnew, if_false]
  rfl

/-- A set object whose fields name a set of the slot's model. -/
def State.objFits (s : State) (slot l h kv : Nat) (obj : List Byte) : Prop :=
  obj.length = 64 + 512 * (s.ctx slot).f.headDim ∧ fld (wordsOf 8 obj) 0 28 26 = dimCode (s.ctx slot).f.headDim ∧ fld (wordsOf 8 obj) 0 25 0 = 0 ∧
  l = fld (wordsOf 8 obj) 0 46 37 ∧ h = fld (wordsOf 8 obj) 0 36 29 ∧ kv = fld (wordsOf 8 obj) 0 47 47 ∧ l < (s.ctx slot).f.layers ∧
  h < (s.ctx slot).f.kvHeads ∧ fld (wordsOf 8 obj) 1 63 32 = (s.ctx slot).f.model ∧ fld (wordsOf 8 obj) 4 47 0 = 0 ∧ word (wordsOf 8 obj) 5 = 0 ∧
  word (wordsOf 8 obj) 6 = 0

/-- A set object loaded at the calibration node: issued the next version where it is sound, refused where its check fails. -/
theorem doCodebookLoad_issued {slot e l h kv : Nat} {obj : List Byte} (hst : (s.ctx slot).st = .ready) (hobj : s.objFits slot l h kv obj)
    (hcal : s.calibNode (s.ctx slot).f.composition = s.node) (hfac : s.hasFactors slot l h kv = true) (he : e = (s.ctx slot).f.entry l h kv)
    (hlive : (s.liveVers (s.ctx slot).f.composition e).length < 4) (hslot : (List.range 4).any (fun i => ((s.cbSet slot e).slot i).2.1 == 0) = true) :
    ∃ st t, doCodebookLoad c slot obj s = ⟨st, 0, [], t⟩ ∧ st ≠ .violation ∧ t.cb.issued = if objOk obj = true then
      Tbl.set s.cb.issued ((s.ctx slot).f.composition, e) (nextVer (Tbl.at s.cb.issued ((s.ctx slot).f.composition, e) 0) (s.liveVers (s.ctx slot).f.composition e))
      else s.cb.issued := by
  obtain ⟨hlen, hdim, hres, rfl, rfl, rfl, hl, hh, hmod, hver, hw5, hw6⟩ := hobj
  subst he
  simp only [doCodebookLoad]
  rw [if_neg (by push Not; exact ⟨hst, hlen, hdim, hres, hl, hh, hmod, hver, hw5, hw6⟩)]
  by_cases hok : objOk obj = true
  · rw [if_neg (by simp [hok]), if_neg (by simpa using hcal), if_neg (by simp [hfac]), if_neg (by
      push Not
      exact ⟨hlive, by simpa using hslot⟩)]
    refine ⟨_, _, rfl, by simp, ?_⟩
    rw [Standing.issued_eq (State.publishSet_standing _ _ _ _ _), if_pos hok]
    rfl
  · rw [if_pos (by simp [hok])]
    exact ⟨_, _, rfl, by simp, (if_neg hok).symm⟩

/-! ### Leaps (R126, R127) -/

/-- The leap that an operator started stays recorded while its request is frozen. -/
theorem State.freezeReq_starts (s : State) (req : Nat) (target : Option Nat) :
    ((s.freezeReq req target).hold req).startOp = (s.hold req).startOp ∧ ((s.freezeReq req target).hold req).startTarget = (s.hold req).startTarget := by
  unfold State.freezeReq
  split
  · exact ⟨rfl, rfl⟩
  next r _ =>
  split
  · exact ⟨rfl, rfl⟩
  · extract_lets s1 es h s2
    have h1 := Standing.starts_eq (State.dropTentative_standing (s := s) req r) req
    simpa [State.askLeap, State.hold, State.setHold, State.tell, s1, s2, h] using h1

/-- A leap that an operator starts through a mailbox is recorded with its target, and freezing the request keeps the record. -/
theorem doLeapStart_recorded {req : Nat} {target : Option Nat} {r : Req} (ho : c.order = none) (hr : s.req req = some r) (hf : (s.hold req).frozen = false)
    (hs : (s.hold req).startOp = none) (ht : target.all (fun x => ((s.comp r.composition).mapAt r.mapEpoch).gen.contains x && x != s.node) = true) :
    ∃ t, doLeapStart c req target s = ⟨.adhAccepted, 0, [], t⟩ ∧ (t.hold req).startOp.isSome = true ∧ (t.hold req).startTarget = target := by
  have hbad : target.any (fun t => !((s.comp r.composition).mapAt r.mapEpoch).gen.contains t || t == s.node) = false := by
    cases target with
    | none => rfl
    | some x => simpa using ht
  have href : s.refIf c 0x0504 = some (s.refOf c 0x0504) := by simp [State.refIf, ho]
  have hset : ∀ h : HoldState, (s.setHold req h).hold req = h := fun h => Tbl.at_set_same _ _ _ _
  refine ⟨(s.setHold req { s.hold req with startOp := s.refIf c 0x0504, startTarget := target }).freezeReq req target, ?_, ?_, ?_⟩
  · simp only [doLeapStart, hr, hbad, hf, hs, Option.isSome_none, Bool.or_false, Bool.false_eq_true, if_false]
  · rw [(State.freezeReq_starts _ _ _).1, hset, href]
    rfl
  · rw [(State.freezeReq_starts _ _ _).2, hset]

end Sys2Proof.Machine
end

section
open Sys2Proof Sys2Proof.Machine

/-- Settles O33: each operation's checks pass on the premises, and its answer leaves the state it made; a leap's record outlives the request's freezing,
and a version issued its publication, because neither reaches what `State.standing` observes. -/
theorem serviceOperations : Obligations.ServiceOperations := by
  refine ⟨?define, ?status, ?meter, ?directory, ?receipt, ?leapPolicy, ?leapStart, ?factors, ?load, ?calibration, ?attend⟩
  case define =>
    intro c comp model epoch prompt gen cache home prot repr beat quotas pr s ha hp h0 h1 hmod hep hn hh hl hr hb hb' hq hcache hnew hroom
    obtain ⟨at_, hg⟩ := doCompositionDefine_first hp h0 h1 hmod hep hn hh hl hr hb hb' hq hcache hnew hroom
    refine ⟨_, does_order rfl ha hg, ?_, rfl, rfl⟩
    exact congrArg Comp.maps (Tbl.at_set_same _ _ _ _)
  case status =>
    intro c comp s ha hc _ h1
    obtain ⟨a, l, m, hd, hr⟩ := does_read (i := .adhCompositionStatus c comp) rfl ha (doCompositionStatus_single hc h1)
    exact ⟨_, hd, rfl, rfl, hr⟩
  case meter =>
    intro c comp first count s ha hc hm
    have hg : doMeterRead c comp first count s = ⟨.ok, _, _, s⟩ := State.onComp_held hc hm
    obtain ⟨a, l, m, hd, hr⟩ := does_read (i := .adhMeterRead c comp first count) rfl ha hg
    exact ⟨_, hd, rfl, rfl, hr⟩
  case directory =>
    intro c req e s ha he hc
    have hg : doDirectoryRead c req s = ⟨.ok, _, _, s⟩ := State.onEntry_held he hc
    obtain ⟨a, l, m, hd, hr⟩ := does_read (i := .adhDirectoryRead c req) rfl ha hg
    exact ⟨_, hd, rfl, rfl, hr⟩
  case receipt =>
    intro c req first count e s ha he hc
    have hg : doReceiptRead c req first count s = ⟨.ok, _, _, s⟩ := State.onEntry_held he hc
    obtain ⟨a, l, m, hd, hr⟩ := does_read (i := .adhReceiptRead c req first count) rfl ha hg
    exact ⟨_, hd, rfl, rfl, hr⟩
  case leapPolicy =>
    intro c comp lease leapTimeout pullMode pullDeadline s ha hm h1 h2 h3 h4 h5 h6 h7
    obtain ⟨a, l, hd⟩ := does_answered (i := .adhLeapPolicy c comp lease leapTimeout pullMode pullDeadline) rfl ha (doLeapPolicy_ok hm h1 h2 h3 h4 h5 h6 h7) nofun
    refine ⟨_, hd, rfl, ?_, rfl⟩
    show Tbl.at (Tbl.upd s.comps comp _) comp {} = _
    rw [Tbl.at, Tbl.get_upd_some _ _ _ _ (State.comp_listed hm)]
    rfl
  case leapStart =>
    intro c req target r s ha hr hf hs ht
    obtain ⟨hasked, -, ho⟩ := ha
    obtain ⟨t, hg, hop, htarget⟩ := doLeapStart_recorded ho hr hf hs ht
    obtain ⟨a, l, hd⟩ := does_answered (i := .adhLeapStart c req target) rfl hasked hg nofun
    exact ⟨_, hd, hop, htarget⟩
  case factors =>
    intro c slot layer head kv factors s ha hst hl hh hkv hf hpos hnew
    obtain ⟨a, l, hd⟩ := does_answered (i := .adhCodebookFactors c slot layer head kv factors) rfl ha (doCodebookFactors_new hst hl hh hkv hf hpos hnew) nofun
    refine ⟨_, hd, ?_, rfl⟩
    show Tbl.get (Tbl.at (Tbl.set s.work.ctxs slot _) slot {}).factors _ = _
    rw [Tbl.at_set_same, Tbl.get_set_same]
  case load =>
    intro c slot e l h kv obj s ha hst hlen hdim hres hl hh hkv hl' hh' hmod hver hw5 hw6 hcal hfac he hlive hslot
    obtain ⟨st, t, hg, hv, hi⟩ := doCodebookLoad_issued (c := c) hst ⟨hlen, hdim, hres, hl, hh, hkv, hl', hh', hmod, hver, hw5, hw6⟩ hcal hfac he hlive hslot
    obtain ⟨a, l, hd⟩ := does_answered (i := .adhCodebookLoad c slot obj) rfl ha hg hv
    refine ⟨_, hd, ?_⟩
    show Tbl.at t.cb.issued _ 0 = _
    rw [hi]
    split
    · exact Tbl.at_set_same _ _ _ _
    · rfl
  case calibration =>
    intro c comp node p s ha hm hp hr hn
    obtain ⟨q, hg, hnode, hwin, hmolt, hdist⟩ := doCalibrationPolicy_ok hm hp hr hn
    obtain ⟨a, l, hd⟩ := does_answered (i := .adhCalibrationPolicy c comp node p) rfl ha hg nofun
    have hq : Tbl.at (Tbl.set s.cb.policies comp q) comp {} = q := Tbl.at_set_same _ _ _ _
    exact ⟨_, hd, (congrArg CalibPolicy.node hq).trans hnode, (congrArg CalibPolicy.window hq).trans hwin, (congrArg CalibPolicy.moltRate hq).trans hmolt,
      (congrArg CalibPolicy.distHi hq).trans hdist, rfl, rfl⟩
  case attend =>
    intro c comp distHi epsHi dvHi s ha hm hr
    obtain ⟨a, l, hd⟩ := does_answered (i := .adhAttendPolicy c comp distHi epsHi dvHi) rfl ha (doAttendPolicy_ok hm hr) nofun
    exact ⟨_, hd, Tbl.at_set_same _ _ _ _, rfl, rfl⟩
end

section
/-! SUPPORT. What the steps of a COMMIT leave as it stands, and the one command it takes from the list (R106, R107, R358). -/

namespace Sys2Proof.Machine
open Sys2Proof

variable {s t : State}

/-! ### Running a command of a package that runs -/

/-- On a package that runs, a gated command does its effect. -/
theorem does_live {i : Instr} {f : State → State} (hi : exec i s = .next (s.whenLive f)) (hu : Up s) (hf : f s = t) : Does i s (s.keeping t) := by
  rw [Does, hi, State.whenLive_up s f hu, hf]

/-- A running command is listed. -/
theorem State.running_listed {cid cls op : Nat} {c : Cmd} (h : s.running cid cls op = some c) : Tbl.get s.work.cmds cid = some c :=
  (Option.filter_eq_some_iff.mp h).1

/-- A command that is listed has the outcome it is given. -/
theorem State.finish_ended {cid result : Nat} {st : Status} (h : Tbl.has s.work.cmds cid = true) : (s.finish cid st result).ended cid st result := by
  obtain ⟨c, hc⟩ := Option.isSome_iff_exists.mp h
  show (Tbl.get (Tbl.upd s.work.cmds cid _) cid).bind (·.outcome) = _
  rw [Tbl.get_upd_some _ _ _ c hc]
  rfl

/-! ### What sealing and telling leave -/

@[simp] theorem State.keeping_standing (s t : State) : (s.keeping t).standing = t.standing := rfl

@[simp] theorem State.intoReservoir_standing (ctx e : Nat) (row : List Byte) : (s.intoReservoir ctx e row).standing = s.standing := rfl

@[simp] theorem State.sealTees_standing (da n : Nat) : (s.sealTees da n).standing = s.standing := by
  unfold State.sealTees
  split
  · rfl
  · exact (foldl_standing fun t x => State.intoReservoir_standing _ _ _).trans rfl

/-- The record's count rises, and nothing else of what stands changes (R107). -/
theorem State.commitRows_standing (s : State) (rid : Nat) (r : Req) (n : Nat) : (s.commitRows rid r n).standing =
    { s.standing with reqs := Tbl.upd s.kv.reqs rid (fun r => { r with committed := n }) } := by
  unfold State.commitRows
  extract_lets s1
  have h1 : s1.standing = s.standing := by
    refine foldl_standing fun t e => ?_
    extract_lets da d k u t1 d1
    split
    · rfl
    · have hu : u.standing = t.standing := by rw [State.sealTees_standing, State.sealRows_standing]
      have ht1 : t1.standing = t.standing := ite_standing (ite_standing ((State.bookSlot_standing _ _ _).trans hu) hu) rfl
      rw [State.dropTees_standing, State.setDesc_standing, ht1]
  have h2 : (s1.updReq rid (fun r => { r with committed := n })).standing =
      { s1.standing with reqs := Tbl.upd s1.kv.reqs rid (fun r => { r with committed := n }) } := rfl
  rw [h2, h1, Standing.reqs_eq h1]

@[simp] theorem State.copyOnce_standing (rid : Nat) (r : Req) (old : Nat) : (s.copyOnce rid r old).standing = s.standing := by
  unfold State.copyOnce
  split
  · rfl
  · refine foldl_standing fun t e => ?_
    extract_lets d
    split
    · split
      · rw [State.tell_standing]
      · rfl
    · rfl

@[simp] theorem State.enterIds_standing (r : Req) (log2 first : Nat) (ids : List Nat) : (s.enterIds r log2 first ids).standing = s.standing :=
  foldl_standing fun _ _ => State.wrWords_standing _ _

@[simp] theorem State.tokensOut_standing (rid : Nat) (x : TokRing) (n : Nat) : (s.tokensOut rid x n).standing = s.standing := by
  unfold State.tokensOut
  split
  · exact ite_standing rfl (State.transitOut_standing _ _ _)
  · rfl

@[simp] theorem State.commitEntry_standing (rid : Nat) (e : DirEntry) (msgs : List CtlMsg) : (s.commitEntry rid e msgs).standing = s.standing := by
  unfold State.commitEntry
  extract_lets u
  have hu : u.standing = s.standing := by rw [State.unitEvent_standing, State.unitEvent_standing]
  refine ite_standing ?_ ?_
  · exact (foldl_standing fun t m => State.tell_standing m).trans ((State.setEntry_standing rid e).trans hu)
  · rw [State.tell_standing, State.setEntry_standing, hu]

@[simp] theorem State.stopped_standing (rid : Nat) (r : Req) : (s.stopped rid r).standing = s.standing := by
  unfold State.stopped
  split
  · exact ite_standing (State.commitEntry_standing _ _ _) rfl
  · rw [State.tell_standing]

@[simp] theorem State.failReq_standing (rid : Nat) (e : DirEntry) (st : Status) (i : Nat) : (s.failReq rid e st i).standing = s.standing := by
  rw [State.failReq, State.countEnded_standing, State.bookReq_standing, State.commitEntry_standing]

@[simp] theorem State.failRead_standing (rid : Nat) (st : Status) : (s.failRead rid st).standing = s.standing := by
  unfold State.failRead
  extract_lets kv' s1
  have h1 : s1.standing = s.standing := (State.mapCmds_standing _).trans rfl
  split
  · exact ite_standing ((State.failReq_standing _ _ _ _).trans h1) h1
  · exact (State.tell_standing _).trans h1

/-- A command given its outcome and its completion step is listed no more; nothing else of what stands changes. -/
theorem State.finishNow_standing (s : State) (cid : Nat) (st : Status) (result : Nat) :
    ∃ l, (s.finishNow cid st result).standing = { s.standing with listed := l } ∧ l cid = false := by
  rcases State.completeCmd_standing (s.finish cid st result) cid with ⟨he, ho⟩ | h
  · have hno : Tbl.has s.work.cmds cid = false := by
      by_contra hl
      have := State.finish_ended (s := s) (st := st) (result := result) (by simpa using hl)
      rw [State.ended, ho] at this
      cases this
    refine ⟨Tbl.has s.work.cmds, ?_, hno⟩
    rw [State.finishNow, he, State.finish_standing]
    rfl
  · refine ⟨_, h.trans (by rw [State.finish_standing]), by simp⟩

end Sys2Proof.Machine
end

section
/-! SUPPORT. COMMIT: its checks, what it sends before it waits, and its completion step (R106, R107, R356 to R358, R366). -/

namespace Sys2Proof.Machine
open Sys2Proof

variable {s : State}

/-! ### The completion step -/

/-- The end of a request adds a command of VI 0 under the next number, and to the requests done; nothing else of the streams, the records and the other
commands changes (R364). -/
theorem State.maybeDone_frame (s : State) (rid : Nat) : ∃ d l n cs, s.maybeDone rid =
    { s with str := { s.str with done_ := d }, log := l, work := { s.work with cmds := cs, nextCid := n } } ∧
    ∀ cid, cid ≠ s.work.nextCid → Tbl.get cs cid = Tbl.get s.work.cmds cid := by
  unfold State.maybeDone
  split
  · exact ⟨s.str.done_, s.log, s.work.nextCid, s.work.cmds, rfl, fun _ _ => rfl⟩
  · extract_lets t gone
    split
    · exact ⟨s.str.done_, s.log, s.work.nextCid, s.work.cmds, rfl, fun _ _ => rfl⟩
    · exact ⟨_, _, _, _, rfl, fun cid h => Tbl.get_set_other _ _ _ _ h⟩

/-- A request whose protection is complete changes its bridge's record alone of what stands (R25). -/
theorem State.markProtected_standing (s : State) (rid : Nat) :
    ∃ b, (s.markProtected rid).standing = { s.standing with str := { s.str with bridges := b } } := by
  unfold State.markProtected
  split
  · exact ⟨s.str.bridges, rfl⟩
  · split
    · exact ⟨s.str.bridges, rfl⟩
    · split
      · split
        · exact ⟨_, (State.commitEntry_standing _ _ _).trans rfl⟩
        · exact ⟨s.str.bridges, rfl⟩
      · exact ⟨s.str.bridges, rfl⟩

/-- A COMMIT whose request is gone or whose ring has stopped ends without an effect on either. -/
theorem State.completeCommit_refused {cid : Nat} {x : CommitRun} (h : ∀ r, s.req x.req = some r → (s.tokRing r).st = 2) :
    ∃ st, s.completeCommit cid x = ({ s with str := { s.str with commits := Tbl.del s.str.commits cid } } : State).finishNow cid st 0 := by
  unfold State.completeCommit
  extract_lets str' s0 n
  split
  · exact ⟨_, rfl⟩
  next r hr => exact ⟨_, if_pos (h r hr)⟩

/-- A COMMIT whose ring is open raises the record's count and takes its run and its command from the lists; the end of the request and of its protection
follow (R107, R358 steps 4 and 5). -/
theorem State.completeCommit_open {cid : Nat} {x : CommitRun} {r : Req} (hr : s.req x.req = some r) (hopen : (s.tokRing r).st ≠ 2) :
    ∃ (u : State) (m : Tbl Nat (List (Nat × Nat))) (l : Nat → Bool), s.completeCommit cid x = (u.maybeDone x.req).markProtected x.req ∧ l cid = false ∧ u.standing = { s.standing with
      str := { s.str with commits := Tbl.del s.str.commits cid, marks := m }
      reqs := Tbl.upd s.kv.reqs x.req (fun r => { r with committed := x.c })
      listed := l } := by
  unfold State.completeCommit
  extract_lets str' s0 n
  split
  next hnone => cases hr.symm.trans hnone
  next r' hr' =>
  cases hr.symm.trans hr'
  extract_lets t s1 t1 t2 t3 s2 s3 str4 s4 s5 s6 s7
  have h1 : s1.standing = { s0.standing with reqs := Tbl.upd s.kv.reqs x.req (fun r => { r with committed := x.c }) } :=
    (State.copyOnce_standing _ _ _).trans (s0.commitRows_standing _ _ _)
  have h3 : s3.standing = s1.standing := by
    rw [State.tokensOut_standing, State.bookNew_standing, State.setRing_standing, State.enterIds_standing]
  have h4 : s4.standing = { s3.standing with str := s4.str } := rfl
  have h5 : s5.standing = s4.standing := foldl_standing fun _ _ => State.tell_standing _
  have h6 : s6.standing = s5.standing := ite_standing rfl (State.stopped_standing _ _)
  have hstr : s3.str = s0.str := (Standing.str_eq h3).trans (congrArg Standing.str h1)
  obtain ⟨l, h7, hl⟩ := State.finishNow_standing (s6.note cid [(0x0401, n), (0x0402, x.dropped), (0x0403, n + x.dropped), (0x0404, s.now - x.sentAt)] 0 0 n x.dropped)
    cid .ok (mkWord [(32, 32, n), (28, 4, x.reason)])
  refine ⟨s7, s4.str.marks, l, if_neg hopen, hl, h7.trans ?_⟩
  rw [State.note_standing, h6, h5, h4, h3, h1]
  have hstr4 : s4.str = { s.str with commits := Tbl.del s.str.commits cid, marks := s4.str.marks } := by
    show ({ s3.str with marks := s4.str.marks } : Streams) = _
    rw [hstr]
  rw [hstr4]
  rfl

/-- What the bridges acknowledged, and which are lost, by request (R358). -/
def Standing.logged (y : Standing) : Tbl (Nat × Nat) Nat × Tbl Nat (List Nat) := (y.str.acks, y.str.lost)

theorem State.maybeDone_logged (s : State) (rid : Nat) : (s.maybeDone rid).standing.logged = s.standing.logged := by
  obtain ⟨d, l, n, cs, e, -⟩ := s.maybeDone_frame rid
  rw [e]
  rfl

/-- The completion step of a COMMIT leaves what the bridges acknowledged or lost. -/
theorem State.completeCommit_logged (s : State) (cid : Nat) (x : CommitRun) : (s.completeCommit cid x).standing.logged = s.standing.logged := by
  by_cases h : ∀ r, s.req x.req = some r → (s.tokRing r).st = 2
  · obtain ⟨st, e⟩ := State.completeCommit_refused (cid := cid) h
    obtain ⟨l, hl, -⟩ := State.finishNow_standing { s with str := { s.str with commits := Tbl.del s.str.commits cid } } cid st 0
    rw [e, hl]
    rfl
  · push Not at h
    obtain ⟨r, hr, hopen⟩ := h
    obtain ⟨u, m, l, e, -, hu⟩ := State.completeCommit_open (cid := cid) hr hopen
    obtain ⟨b, hb⟩ := (u.maybeDone x.req).markProtected_standing x.req
    calc (s.completeCommit cid x).standing.logged = (u.maybeDone x.req).standing.logged := by rw [e, hb]; rfl
      _ = u.standing.logged := u.maybeDone_logged x.req
      _ = s.standing.logged := by rw [hu]; rfl

/-- A COMMIT that goes on leaves what the bridges acknowledged or lost. -/
theorem State.commitOn_logged (s : State) (cid : Nat) : (s.commitOn cid).standing.logged = s.standing.logged := by
  unfold State.commitOn
  split
  · rfl
  · split
    · rfl
    · exact State.completeCommit_logged _ _ _

/-- The command and the run of a COMMIT that completes are gone, and the record counts the rows committed. -/
theorem State.completeCommit_ends {cid : Nat} {x : CommitRun} {r : Req} (hr : s.req x.req = some r) (hopen : (s.tokRing r).st ≠ 2)
    (hcid : s.work.nextCid ≠ cid) : Tbl.get (s.completeCommit cid x).work.cmds cid = none ∧ Tbl.get (s.completeCommit cid x).str.commits cid = none ∧
      ((s.completeCommit cid x).req x.req).map (·.committed) = some x.c := by
  obtain ⟨u, m, l, e, hl, hu⟩ := State.completeCommit_open (cid := cid) hr hopen
  obtain ⟨d, lg, n, cs, hd, hcs⟩ := u.maybeDone_frame x.req
  obtain ⟨b, hb⟩ := (u.maybeDone x.req).markProtected_standing x.req
  have hnext : u.work.nextCid = s.work.nextCid := congrArg Standing.nextCid hu
  have hcmds : Tbl.has (u.maybeDone x.req).work.cmds cid = Tbl.has u.work.cmds cid := by
    rw [hd, Tbl.has, hcs cid (hnext ▸ hcid.symm), Tbl.has]
  have hkept : (u.maybeDone x.req).str.commits = u.str.commits ∧ (u.maybeDone x.req).kv.reqs = u.kv.reqs := by
    rw [hd]
    exact ⟨rfl, rfl⟩
  have hgone : Tbl.has (s.completeCommit cid x).work.cmds cid = false := by
    rw [e]
    exact (congrArg (fun y => y.listed cid) hb).trans (hcmds.trans ((congrArg (fun y => y.listed cid) hu).trans hl))
  have hcommits : (s.completeCommit cid x).str.commits = Tbl.del s.str.commits cid := by
    rw [e]
    exact (congrArg (fun y => y.str.commits) hb).trans (hkept.1.trans (congrArg (fun y => y.str.commits) hu))
  have hreqs : (s.completeCommit cid x).kv.reqs = Tbl.upd s.kv.reqs x.req (fun r => { r with committed := x.c }) := by
    rw [e]
    exact (congrArg Standing.reqs hb).trans (hkept.2.trans (congrArg Standing.reqs hu))
  refine ⟨by simpa [Tbl.has] using hgone, by rw [hcommits, Tbl.get_del_same], ?_⟩
  rw [State.req, hreqs, Tbl.get_upd_some _ _ _ r hr]
  rfl

end Sys2Proof.Machine
end

section
/-! SUPPORT. COMMIT: the checks it passes, and what it sends before it waits (R106, R356 to R358, R432). -/

namespace Sys2Proof.Machine
open Sys2Proof

variable {s : State}

/-- The count a COMMIT brings the record to: the one it asks for, or the stop its ids meet (R107, R356). -/
def Stepped.count (q : Stepped) (c0 : Nat) : Nat := if q.stop.isSome then min c0 ((q.stop.getD (0xFFFFFFFF, 0, 0, 0)).1 + 1) else c0

/-- The run of a COMMIT of `n` ids whose stepping gave `q`. -/
def State.commitRun (s : State) (rid : Nat) (r : Req) (n c0 : Nat) (q : Stepped) : CommitRun :=
  let stop := q.stop.getD (0xFFFFFFFF, 0, 0, 0)
  { req := rid, c := q.count c0, first := (s.tokRing r).tok, ids := q.kept, stopPos := stop.1, reason := stop.2.1, stopSeq := stop.2.2.1, stopLen := stop.2.2.2
    mstate := q.mstate, mdepth := q.mdepth, dropped := n - q.kept.length
    awaited := if (s.mapOf r).protection != .none && !q.kept.isEmpty then s.liveBridges rid (s.tokRing r) else [], sentAt := s.now }

/-- The state once a COMMIT's run is recorded, its ids are pushed to the live bridges, and its rows are sent to the OPEN copies. -/
def State.commitSent (s : State) (cid : Nat) (r : Req) (x : CommitRun) : State :=
  let s1 : State := { s with str := { s.str with commits := Tbl.set s.str.commits cid x } }
  let s2 := if x.ids.isEmpty then s1 else (s.liveBridges x.req (s.tokRing r)).foldl (fun u b => u.tell {
    dst := b, tc := s.tra.classes.getD 0 6, code := 0x20, req := x.req, epoch := r.holdEpoch, mapEpoch := r.mapEpoch, fields := [(s.tokRing r).tok, x.ids.length]
    tail := x.ids.flatMap (bytesOf 4) }) s1
  if (s.mapOf r).protection != .none then (s.blocks r).foldl (fun u e =>
      let d := s.desc e.2
      if s.ownBlock x.req e.2 && decide (d.committed < rowsAt x.c d.base) then u.putRows cid x.req e.1.1 e.1.2.1 e.1.2.2 (rowsAt x.c d.base) r else u) s2 else s2

/-- The checks of R106 and R353 on a COMMIT of `n` ids that asks for a count `c0`. -/
structure CommitPasses (s : State) (c : Cmd) (r : Req) (n c0 : Nat) : Prop where
  isOpen : (s.tokRing r).st ≠ 2
  rises : r.committed ≤ c0
  within : c0 ≤ r.limit
  number : n = if r.promptTokens ≤ c0 then c0 + 1 - (s.tokRing r).tok else 0
  order : c0 < r.promptTokens ∨ (s.tokRing r).tok ≤ c0 + 1
  ids : ((chunks 4 n (s.rd (word c.op 3) (4 * n))).map valOf).contains 4294967295 = false
  readable : s.readFault (word c.op 3) (4 * n) = none
  rows : s.rowsThere r c0 = true
  room : (s.tokRing r).tok + n - (s.tokRing r).acked ≤ 2 ^ (s.tokRing r).log2

/-- A COMMIT that passes its checks, has its blocks to seal, and a live bridge where its ids must be kept, sends what it must and goes on. -/
theorem execCommit_sent {cid n c0 : Nat} {c : Cmd} {r : Req} {q : Stepped} (hrun : s.running cid 5 2 = some c) (hnew : Tbl.has s.str.commits cid = false)
    (hr : s.req (fld c.op 1 47 0) = some r) (hn : n = fld c.op 2 31 25) (hc0 : c0 = fld c.op 2 63 32) (hp : CommitPasses s c r n c0)
    (hq : q = s.stepStops (s.tokRing r) r.limit ((chunks 4 n (s.rd (word c.op 3) (4 * n))).map valOf))
    (hseal : s.sealFault (fld c.op 1 47 0) r (q.count c0) = none)
    (hlive : (s.mapOf r).protection = .none ∨ s.liveBridges (fld c.op 1 47 0) (s.tokRing r) ≠ []) (hu : Up s) :
    Does (.commit cid) s (s.keeping ((s.commitSent cid r (s.commitRun (fld c.op 1 47 0) r n c0 q)).commitOn cid)) := by
  obtain ⟨hopen, hlo, hhi, hcount, horder, hids, hread, hrows, hroom⟩ := hp
  refine does_live rfl hu ?_
  subst hn hc0
  have hbad : ¬ (fld c.op 2 63 32 < r.committed ∨ r.limit < fld c.op 2 63 32 ∨
      fld c.op 2 31 25 ≠ (if r.promptTokens ≤ fld c.op 2 63 32 then fld c.op 2 63 32 + 1 - (s.tokRing r).tok else 0) ∨
      (r.promptTokens ≤ fld c.op 2 63 32 ∧ fld c.op 2 63 32 + 1 < (s.tokRing r).tok) ∨
      ((chunks 4 (fld c.op 2 31 25) (s.rd (word c.op 3) (4 * fld c.op 2 31 25))).map valOf).contains 0xFFFFFFFF = true) := by
    push Not
    exact ⟨hlo, hhi, hcount, fun h => horder.resolve_left (Nat.not_lt.mpr h), by simpa using hids⟩
  have hdead : ((s.mapOf r).protection != .none && (s.liveBridges (fld c.op 1 47 0) (s.tokRing r)).isEmpty && !q.kept.isEmpty) = false := by
    rcases hlive with h | h
    · simp [h]
    · simp [h]
  simp only [hrun, hnew, hr, Bool.false_eq_true, if_false, hopen, hbad, hread, Option.isSome_none, hrows, Bool.not_true, Nat.not_lt.mpr hroom, ← hq]
  rw [Stepped.count] at hseal
  simp only [hseal, hdead, Bool.false_eq_true, if_false]
  rfl

/-- Sending messages changes the log alone. -/
theorem foldl_tell_frame {α : Type} (l : List α) (m : State → α → CtlMsg) (s : State) : ∃ g, l.foldl (fun t x => t.tell (m t x)) s = { s with log := g } :=
  List.foldlRecOn (motive := fun t => ∃ g, t = { s with log := g }) l _ ⟨s.log, rfl⟩ (by
    rintro t ⟨g, rfl⟩ x -
    exact ⟨_, rfl⟩)

/-- Sending rows to the OPEN copies of a block changes the protection's writes and the messages alone (R432). -/
theorem State.putRows_frame (s : State) (cid rid l h b n : Nat) (r : Req) : ∃ p g, s.putRows cid rid l h b n r = { s with prot := p, log := g } := by
  unfold State.putRows
  extract_lets m da d
  split
  next sigma i _ =>
  extract_lets ms
  split
  · exact ⟨s.prot, s.log, rfl⟩
  · obtain ⟨g, e⟩ := foldl_tell_frame _ (fun t x => t.rowPutMsg rid l h b d.committed n x r) (s.addWrite _)
    exact ⟨_, g, e⟩

/-- What a COMMIT sends leaves all but its run, the messages, and the protection's writes, and these too in an unprotected composition. -/
theorem State.commitSent_frame (s : State) (cid : Nat) (r : Req) (x : CommitRun) : ∃ p g, s.commitSent cid r x =
    { s with str := { s.str with commits := Tbl.set s.str.commits cid x }, prot := p, log := g } ∧ ((s.mapOf r).protection = .none → p = s.prot) := by
  unfold State.commitSent
  extract_lets str' s1 s2
  have h2 : ∃ g, s2 = { s1 with log := g } := by
    unfold s2
    split
    · exact ⟨s1.log, rfl⟩
    · exact foldl_tell_frame _ _ s1
  obtain ⟨g, h2⟩ := h2
  rw [h2]
  split
  next hp =>
    have hrows : ∃ p g', (s.blocks r).foldl (fun u e =>
        let d := s.desc e.2
        if s.ownBlock x.req e.2 && decide (d.committed < rowsAt x.c d.base) then u.putRows cid x.req e.1.1 e.1.2.1 e.1.2.2 (rowsAt x.c d.base) r else u)
        { s1 with log := g } = { s1 with prot := p, log := g' } :=
      List.foldlRecOn (motive := fun t => ∃ p g', t = { s1 with prot := p, log := g' }) _ _ ⟨s1.prot, g, rfl⟩ (by
        rintro t ⟨p, g', rfl⟩ e -
        dsimp only
        split
        · obtain ⟨p', g'', e'⟩ := State.putRows_frame { s1 with prot := p, log := g' } cid x.req e.1.1 e.1.2.1 e.1.2.2
            (rowsAt x.c (s.desc e.2).base) r
          exact ⟨p', g'', e'⟩
        · exact ⟨p, g', rfl⟩)
    obtain ⟨p, g', e⟩ := hrows
    exact ⟨p, g', e, fun hn => absurd hn (by simpa using hp)⟩
  next => exact ⟨s.prot, g, rfl, fun _ => rfl⟩

/-- A COMMIT that awaits no answer completes. -/
theorem State.commitOn_ready {cid : Nat} {x : CommitRun} (hx : Tbl.get s.str.commits cid = some x) (ha : x.awaited = []) (hw : s.protWaiting cid = false) :
    s.commitOn cid = s.completeCommit cid x := by
  simp [State.commitOn, hx, ha, hw]

/-- A COMMIT that awaits a bridge's answer stands as it is. -/
theorem State.commitOn_awaits {cid : Nat} {x : CommitRun} (hx : Tbl.get s.str.commits cid = some x) (ha : x.awaited ≠ []) : s.commitOn cid = s := by
  simp [State.commitOn, hx, ha]

/-- A COMMIT in an unprotected composition waits for nothing: it completes in the step that sends its ids (R358). -/
theorem State.commitOn_unprotected {cid n c0 rid : Nat} {r : Req} {q : Stepped} (hprot : (s.mapOf r).protection = .none) (hwait : s.protWaiting cid = false)
    (hr : s.req rid = some r) (hopen : (s.tokRing r).st ≠ 2) (hcid : s.work.nextCid ≠ cid) :
    ∃ t, (s.commitSent cid r (s.commitRun rid r n c0 q)).commitOn cid = t ∧ Tbl.get t.work.cmds cid = none ∧ Tbl.get t.str.commits cid = none ∧
      (t.req rid).map (·.committed) = some (q.count c0) := by
  obtain ⟨p, g, e, hp⟩ := s.commitSent_frame cid r (s.commitRun rid r n c0 q)
  have ha : (s.commitRun rid r n c0 q).awaited = [] := by simp [State.commitRun, hprot]
  cases hp hprot
  refine ⟨_, ?_, State.completeCommit_ends (x := s.commitRun rid r n c0 q) (s := { s with
    str := { s.str with commits := Tbl.set s.str.commits cid (s.commitRun rid r n c0 q) }, log := g }) hr hopen hcid⟩
  rw [e]
  exact State.commitOn_ready (Tbl.get_set_same _ _ _) ha hwait

/-- A COMMIT in a protected composition waits for every live bridge, with its ids sent and the record as it was (R358 step 3). -/
theorem State.commitOn_protected {cid n c0 rid : Nat} {r : Req} {q : Stepped} (hprot : (s.mapOf r).protection ≠ .none) (hkept : q.kept ≠ [])
    (hlive : s.liveBridges rid (s.tokRing r) ≠ []) : ∃ p g, (s.commitSent cid r (s.commitRun rid r n c0 q)).commitOn cid =
      { s with str := { s.str with commits := Tbl.set s.str.commits cid (s.commitRun rid r n c0 q) }, prot := p, log := g } ∧
      (s.commitRun rid r n c0 q).awaited = s.liveBridges rid (s.tokRing r) := by
  obtain ⟨p, g, e, -⟩ := s.commitSent_frame cid r (s.commitRun rid r n c0 q)
  have ha : (s.commitRun rid r n c0 q).awaited = s.liveBridges rid (s.tokRing r) := by simp [State.commitRun, hprot, hkept]
  refine ⟨p, g, ?_, ha⟩
  rw [e]
  exact State.commitOn_awaits (Tbl.get_set_same _ _ _) (ha ▸ hlive)

section
variable {cid n c0 : Nat} {c : Cmd} {r : Req} {q : Stepped}

/-- A COMMIT in an unprotected composition ends with the record at its count (R107). -/
theorem execCommit_completes (hu : Up s) (hcid : s.work.nextCid ≠ cid) (hrun : s.running cid 5 2 = some c) (hnew : Tbl.has s.str.commits cid = false)
    (hwait : s.protWaiting cid = false) (hr : s.req (fld c.op 1 47 0) = some r) (hn : n = fld c.op 2 31 25) (hc0 : c0 = fld c.op 2 63 32)
    (hp : CommitPasses s c r n c0) (hq : q = s.stepStops (s.tokRing r) r.limit ((chunks 4 n (s.rd (word c.op 3) (4 * n))).map valOf))
    (hprot : (s.mapOf r).protection = .none) (hseal : s.sealFault (fld c.op 1 47 0) r (q.count c0) = none) :
    ∃ t, Does (.commit cid) s t ∧ Tbl.get t.work.cmds cid = none ∧ Tbl.get t.str.commits cid = none ∧
      (t.req (fld c.op 1 47 0)).map (·.committed) = some (q.count c0) := by
  obtain ⟨t, rfl, hcmds, hcommits, hreq⟩ := State.commitOn_unprotected (n := n) (c0 := c0) (q := q) hprot hwait hr hp.isOpen hcid
  exact ⟨_, execCommit_sent hrun hnew hr hn hc0 hp hq hseal (.inl hprot) hu, hcmds, hcommits, hreq⟩

/-- A COMMIT in a protected composition waits for its live bridges with the ids it keeps, and the record and the memory stay (R358). -/
theorem execCommit_waits (hu : Up s) (hrun : s.running cid 5 2 = some c) (hnew : Tbl.has s.str.commits cid = false)
    (hr : s.req (fld c.op 1 47 0) = some r) (hn : n = fld c.op 2 31 25) (hc0 : c0 = fld c.op 2 63 32) (hp : CommitPasses s c r n c0)
    (hq : q = s.stepStops (s.tokRing r) r.limit ((chunks 4 n (s.rd (word c.op 3) (4 * n))).map valOf)) (hkept : q.kept ≠ [])
    (hprot : (s.mapOf r).protection ≠ .none) (hlive : s.liveBridges (fld c.op 1 47 0) (s.tokRing r) ≠ [])
    (hseal : s.sealFault (fld c.op 1 47 0) r (q.count c0) = none) : ∃ t, Does (.commit cid) s t ∧
      (Tbl.get t.str.commits cid).map (fun x => (x.awaited, x.ids, x.first, x.sentAt)) =
        some (s.liveBridges (fld c.op 1 47 0) (s.tokRing r), q.kept, (s.tokRing r).tok, s.now) ∧
      t.req (fld c.op 1 47 0) = some r ∧ t.mem = s.mem := by
  have hsent := execCommit_sent hrun hnew hr hn hc0 hp hq hseal (.inr hlive) hu
  obtain ⟨p, g, e, ha⟩ := State.commitOn_protected (n := n) (c0 := c0) hprot hkept hlive
  rw [e] at hsent
  refine ⟨_, hsent, ?_, hr, rfl⟩
  show (Tbl.get (Tbl.set s.str.commits cid _) cid).map _ = _
  rw [Tbl.get_set_same, Option.map_some, ha]
  rfl

end

end Sys2Proof.Machine
end

section
/-! SUPPORT. The bridges: acknowledgements, ids made final, token records and takeover (R351, R358 to R363). -/

namespace Sys2Proof.Machine
open Sys2Proof

variable {s : State}

/-! ### Acknowledgements at the holder (R358) -/

/-- An acknowledgement is kept, whatever COMMITs go on with it. -/
theorem execTokenAck_keeps {h : MsgHdr} {first n : Nat} {r : Req} (hu : Up s) (hv : h.ver = 1) (hr : s.req h.req = some r) (he : r.holdEpoch ≤ h.epoch) :
    ∃ t, Does (.tokenAck h first n) s t ∧ Tbl.get t.str.acks (h.req, h.src) = some (max (Tbl.at s.str.acks (h.req, h.src) 0) (first + n)) := by
  refine ⟨_, does_live rfl hu rfl, ?_⟩
  have hbad : ¬ (h.ver ≠ 1 ∨ h.epoch < r.holdEpoch) := by omega
  simp -zeta only [hr, hbad, if_false]
  extract_lets key str' s1 t a s2 s3
  have h2 : s2.standing = s1.standing := by rw [State.tokensOut_standing, State.bookEnd_standing, State.setRing_standing]
  have h3 : s3.standing.logged = s2.standing.logged := foldl_keeps (fun t => t.standing.logged) _ _ _ fun _ _ => State.commitOn_logged _ _
  have hlog : (s3.maybeDone h.req).standing.logged = s1.standing.logged := by rw [State.maybeDone_logged, h3, h2]
  exact (congrArg (fun y => Tbl.get y (h.req, h.src)) (Prod.mk.inj hlog).1).trans (Tbl.get_set_same _ _ _)

/-- A bridge that has not answered a COMMIT within the bound is lost for its request. -/
theorem execTokenAckTimeout_loses {cid bridge : Nat} {x : CommitRun} (hu : Up s) (hx : Tbl.get s.str.commits cid = some x) (ha : x.awaited.contains bridge = true)
    (ht : x.sentAt + s.fab.deadBound ≤ s.now) : ∃ t, Does (.tokenAckTimeout cid bridge) s t ∧ bridge ∈ Tbl.at t.str.lost x.req [] := by
  refine ⟨_, does_live rfl hu rfl, ?_⟩
  have hdue : ¬ ((!x.awaited.contains bridge) = true ∨ s.now < x.sentAt + s.fab.deadBound) := by
    rw [ha]
    simp [ht]
  simp -zeta only [hx, hdue, if_false]
  extract_lets str' s1
  have h1 : bridge ∈ Tbl.at s1.str.lost x.req [] := by
    show bridge ∈ Tbl.at (Tbl.set s.str.lost x.req ((Tbl.at s.str.lost x.req [] ++ [bridge]).dedup)) x.req []
    rw [Tbl.at_set_same]
    simp
  have hkeep : ∀ t : State, t.standing.logged = s1.standing.logged → bridge ∈ Tbl.at t.str.lost x.req [] := by
    intro t h
    rw [show t.str.lost = s1.str.lost from (Prod.mk.inj h).2]
    exact h1
  split
  · exact h1
  · split
    · refine hkeep _ ?_
      rw [State.keeping_standing, State.finish_standing, State.failRead_standing]
      rfl
    · exact hkeep _ (State.commitOn_logged _ _)

/-! ### Ids at a bridge (R358) -/

/-- Ids that miss one of those a TOKEN_COMMIT counts leave it waiting. -/
theorem State.finalIds_missing {src rid tok stopPos reason len time : Nat} {b : BridgeReq}
    (h : (List.range (tok - b.log.length)).any (fun i => (Tbl.get b.prov (b.log.length + i)).isNone) = true) :
    s.finalIds src rid b tok stopPos reason len time = s.setBridge rid { b with early := some (tok, stopPos, reason, len, time) } := by
  have hm : ((List.range (tok - b.log.length)).map (fun i => Tbl.get b.prov (b.log.length + i))).any (·.isNone) = true := by
    rw [List.any_map]
    exact h
  simp only [State.finalIds, hm, if_true]

/-- The bridge that writes no records, and one that has ended, has nothing due. -/
theorem pumpBridge_still {rid : Nat} {flush : Bool} {b : BridgeReq} (hb : s.bridgeReq rid = some b) (h : b.primary = false) (k : Nat) :
    pumpBridge rid flush k s = s := by
  cases k with
  | zero => rfl
  | succ k => simp [pumpBridge, hb, h]

theorem State.setBridge_bridgeReq (s : State) (rid : Nat) (b : BridgeReq) : (s.setBridge rid b).bridgeReq rid = some b := Tbl.get_set_same _ _ _

/-- Ids that a standby has are final there: they join its log, and nothing waits. -/
theorem State.finalIds_standby {src rid tok stopPos len time : Nat} {b : BridgeReq} (hp : b.primary = false)
    (h : (List.range (tok - b.log.length)).all (fun i => (Tbl.get b.prov (b.log.length + i)).isSome) = true) :
    ∃ b', s.finalIds src rid b tok stopPos 0 len time = s.setBridge rid b' ∧
      (b'.log, b'.early, b'.reason, b'.need) = (b.log ++ (List.range (tok - b.log.length)).filterMap (fun i => Tbl.get b.prov (b.log.length + i)), none, b.reason, 0) := by
  have hm : ((List.range (tok - b.log.length)).map (fun i => Tbl.get b.prov (b.log.length + i))).any (·.isNone) = false := by
    rw [List.any_map, List.any_eq_false]
    intro i hi
    have hsome := List.all_eq_true.mp h i hi
    simpa [Option.isSome_iff_ne_none] using hsome
  unfold State.finalIds
  extract_lets have_ log n gone b1 s1 s2
  refine ⟨b1, ?_, ?_⟩
  · rw [if_neg (by simpa [have_] using hm)]
    have h2 : s2 = s := by simp [s2, s1, hp]
    rw [h2, State.pump]
    exact pumpBridge_still (b := b1) (State.setBridge_bridgeReq _ _ _) hp _
  · simp [b1, log, have_, List.filterMap_map]

/-! ### Token records (R359 to R361) -/

/-- Writing a line of host memory changes the fabric's, the links' and the traffic's state alone. -/
theorem State.hostLine_frame (s : State) (vi a : Nat) (flag : Bool) (ws : List Nat) (key : Nat) :
    ∃ f l x, s.hostLine vi a flag ws key = { s with fab := f, lnk := l, tra := x } := by
  unfold State.hostLine
  split
  · exact ⟨s.fab, s.lnk, s.tra, rfl⟩
  · exact State.sendReq_frame _ _ _ _

/-- A token record changes the client streams and the flags on their way, and the fabric's, the links' and the traffic's state, alone. -/
theorem State.tokenRecord_frame (s : State) (rid : Nat) (b : BridgeReq) (reason n status : Nat) (ids : List Nat) :
    ∃ f l x cs fl nf, (s.tokenRecord rid b reason n status ids).2 =
      { s with fab := f, lnk := l, tra := x, str := { s.str with streams := cs, flags := fl, nextFlag := nf } } := by
  unfold State.tokenRecord
  split
  · exact ⟨s.fab, s.lnk, s.tra, s.str.streams, s.str.flags, s.str.nextFlag, rfl⟩
  next x _ =>
  extract_lets head k str' first pair body rec_ s1 s2
  split
  · exact ⟨s.fab, s.lnk, s.tra, _, s.str.flags, s.str.nextFlag, rfl⟩
  · obtain ⟨f1, l1, x1, e1⟩ := s.hostLine_frame b.vi (x.recBase + x.written % 2 ^ x.recLog2 * 64) false rec_ 0
    obtain ⟨f2, l2, x2, e2⟩ := s1.hostLine_frame b.vi x.tail true [u64 (x.written + 1)] s1.str.nextFlag
    have h2 : s2 = { s with fab := f2, lnk := l2, tra := x2 } := by
      refine e2.trans ?_
      rw [show s1 = { s with fab := f1, lnk := l1, tra := x1 } from e1]
    clear_value s2
    subst h2
    exact ⟨f2, l2, x2, _, _, _, rfl⟩

theorem State.tokenRecord_bridgeReq (s : State) (rid : Nat) (b : BridgeReq) (reason n status : Nat) (ids : List Nat) (k : Nat) :
    (s.tokenRecord rid b reason n status ids).2.bridgeReq k = s.bridgeReq k := by
  obtain ⟨f, l, x, cs, fl, nf, e⟩ := s.tokenRecord_frame rid b reason n status ids
  rw [e]
  rfl

/-- Where a client's stream has room, a record is written and the stream counts it (R359). -/
theorem State.tokenRecord_written {rid reason n status : Nat} {b : BridgeReq} {ids : List Nat} {x : ClientStream}
    (hx : Tbl.get s.str.streams (b.vi, b.spec.stream) = some x) (hroom : sub64 x.written (word (s.rdWords x.head 1) 0) < 2 ^ x.recLog2) :
    ∃ u, s.tokenRecord rid b reason n status ids = (true, u) ∧ (Tbl.get u.str.streams (b.vi, b.spec.stream)).map (·.written) = some (x.written + 1) := by
  unfold State.tokenRecord
  simp -zeta only [hx]
  extract_lets head k str' first pair body rec_ s1 s2
  rw [if_neg (Nat.not_le.mpr hroom)]
  refine ⟨_, rfl, ?_⟩
  show (Tbl.get (Tbl.set s2.str.streams k _) k).map (·.written) = _
  rw [Tbl.get_set_same]
  rfl

/-- Writing the records that are due keeps who writes them and what is final at the bridge. -/
theorem pumpBridge_keeps (rid : Nat) (flush : Bool) (k : Nat) (s : State) :
    ((pumpBridge rid flush k s).bridgeReq rid).map (fun b => (b.primary, b.bridge, b.standby, b.log)) =
      (s.bridgeReq rid).map (fun b => (b.primary, b.bridge, b.standby, b.log)) := by
  induction k generalizing s with
  | zero => rfl
  | succ k ih =>
    unfold pumpBridge
    split
    · rfl
    next b hb =>
    extract_lets waiting done_ n last
    split
    · rfl
    · split
      · rfl
      · split
        next t ht => rw [show t = _ from (congrArg Prod.snd ht).symm, State.tokenRecord_bridgeReq]
        next t ht =>
          rw [ih, State.setBridge_bridgeReq, hb]
          rfl

/-- A bridge whose writable ids are all in records, and whose request has not stopped, has nothing due. -/
theorem pumpBridge_written {rid : Nat} {flush : Bool} {b : BridgeReq} (hb : s.bridgeReq rid = some b) (hr : b.reason = 0) (hs : b.writable ≤ b.sent) (k : Nat) :
    pumpBridge rid flush k s = s := by
  cases k with
  | zero => rfl
  | succ k => simp [pumpBridge, hb, hr, Nat.sub_eq_zero_of_le hs]

/-- At the flush time the up to eight ids that wait go into one record (R361). -/
theorem State.pump_flushes {rid : Nat} {b : BridgeReq} {x : ClientStream} (hb : s.bridgeReq rid = some b) (hp : b.primary = true) (he : b.ended = false)
    (hr : b.reason = 0) (hlt : b.sent < b.writable) (hle : b.writable ≤ b.sent + 8) (hx : Tbl.get s.str.streams (b.vi, b.spec.stream) = some x)
    (hroom : sub64 x.written (word (s.rdWords x.head 1) 0) < 2 ^ x.recLog2) :
    ∃ (u : State) (b' : BridgeReq), s.pump rid true = u.setBridge rid b' ∧ (b'.sent, b'.waitAt) = (b.writable, none) ∧ u.mem = s.mem ∧
      (Tbl.get u.str.streams (b.vi, b.spec.stream)).map (·.written) = some (x.written + 1) := by
  obtain ⟨u, hu, hw⟩ := State.tokenRecord_written (rid := rid) (reason := 0) (n := b.writable - b.sent) (status := 0)
    (ids := (b.log.drop (b.promptTokens + b.sent)).take (b.writable - b.sent)) hx hroom
  obtain ⟨f, l, y, cs, fl, nf, e⟩ := s.tokenRecord_frame rid b 0 (b.writable - b.sent) 0 ((b.log.drop (b.promptTokens + b.sent)).take (b.writable - b.sent))
  have hmem : u.mem = s.mem := by
    rw [show u = _ from (congrArg Prod.snd hu).symm, e]
  have hmin : min 8 (b.writable - b.sent) = b.writable - b.sent := by omega
  refine ⟨u, { b with sent := b.sent + (b.writable - b.sent), waitAt := none, ended := false }, ?_, by simp; omega, hmem, hw⟩
  have hstep : ∀ k, pumpBridge rid true (k + 1) s = pumpBridge rid true k (u.setBridge rid { b with
      sent := b.sent + (b.writable - b.sent), waitAt := none, ended := false }) := by
    intro k
    simp [pumpBridge, hb, hp, he, hr, hmin, hu, Nat.not_le.mpr hlt]
  have hb' := u.setBridge_bridgeReq rid { b with sent := b.sent + (b.writable - b.sent), waitAt := none, ended := false }
  rw [State.pump, hb]
  exact (hstep _).trans (pumpBridge_written hb' hr (by show b.writable ≤ b.sent + (b.writable - b.sent); omega) _)

/-- A standby that takes over is the primary and the only bridge of its request, whose log it keeps (R362). -/
theorem execBridgeTakeover_takes {lost rid : Nat} {totals : List (Nat × Nat)} {tails : List (Nat × Nat × Nat)} {b : BridgeReq} (hu : Up s)
    (hb : s.str.bridges = [(rid, b)]) (hl : b.bridge = lost) (hs : b.standby = s.node) (hp : b.primary = false) (hne : lost ≠ s.node) (hun : s.unreachable lost = true) :
    ∃ t, Does (.bridgeTakeover lost totals tails) s t ∧
      (t.bridgeReq rid).map (fun x => (x.primary, x.bridge, x.standby, x.log)) = some (true, s.node, 0, b.log) := by
  refine ⟨_, does_live rfl hu rfl, ?_⟩
  have hmine : (s.str.bridges.filter (fun x => x.2.bridge == lost && x.2.standby == s.node && !x.2.primary)).map (·.1) = [rid] := by
    simp [hb, hl, hs, hp]
  simp -zeta only [hmine]
  extract_lets mine total s1 s2
  rw [if_neg (by simp [mine, hne, hun])]
  have h1 : s1.bridgeReq rid = some b := by
    have hkeep : s1.str.bridges = s.str.bridges := foldl_keeps (fun t => t.str.bridges) tails _ s fun _ _ => rfl
    rw [State.bridgeReq, hkeep, hb]
    simp [Tbl.get]
  have h2 : s2.bridgeReq rid = some { b with primary := true, bridge := s.node, standby := 0, sent := total rid, waitAt := some s.now } := by
    have hstep : s2 = (s1.setBridge rid { b with primary := true, bridge := s.node, standby := 0, sent := total rid, waitAt := some s.now }).bookNew qTokens rid 1
        (b.log.length - b.promptTokens - total rid) := by
      simp only [s2, mine, List.foldl_cons, List.foldl_nil, h1]
    rw [hstep, State.bridgeReq, Standing.str_eq (State.bookNew_standing _ _ _ _)]
    exact State.setBridge_bridgeReq _ _ _
  show ((State.raise0 _ _ _ _ _).bridgeReq rid).map _ = _
  rw [State.bridgeReq, Standing.str_eq (State.raise0_standing _ _ _ _)]
  show (((s2.pump rid true).bridgeReq rid).map fun x => (x.primary, x.bridge, x.standby, x.log)) = _
  rw [State.pump, pumpBridge_keeps, h2]
  rfl

end Sys2Proof.Machine
end

section
/-! SUPPORT. Rings opened, closed and stopped, ids pushed, streams that stay blocked, and the ends of requests and of prefixes (R22, R28, R112, R352 to R364). -/

namespace Sys2Proof.Machine
open Sys2Proof

variable {s : State}

/-! ### Rings (R352, R355) -/

/-- RING_OPEN writes the header and the automaton, and the record names the ring. -/
theorem execRingOpen_opens {cid ring : Nat} {c : Cmd} {a : Sys2Proof.Admitted} {r : Req} (hu : Up s) (hrun : s.running cid 5 1 = some c)
    (ho : Tbl.get s.str.opening (fld c.op 1 47 0) = some (a, ring)) (hr : s.req (fld c.op 1 47 0) = some r) :
    ∃ t, Does (.ringOpen cid) s t ∧ t.ended cid .ok 0 ∧ t.req (fld c.op 1 47 0) = some { r with tokenRing := ring } ∧
      Tbl.get t.str.opening (fld c.op 1 47 0) = none ∧
      t.mem = ((s.wrWords ring ({ st := 1, log2 := a.spec.ringLog2, req := fld c.op 1 47 0, prompt := a.promptTokens, maxNew := a.spec.maxNew, tok := a.promptTokens, acked := a.promptTokens, spec := ring + 64 + 8 * 2 ^ a.spec.ringLog2, bridge := a.bridge, standby := a.standby } : TokRing).words).wrWords
        (ring + 64 + 8 * 2 ^ a.spec.ringLog2) (autoObject a.spec)).mem := by
  refine ⟨_, does_live rfl hu rfl, ?_⟩
  have hlisted : Tbl.has s.work.cmds cid = true := by rw [Tbl.has, State.running_listed hrun]; rfl
  simp -zeta only [hrun]
  extract_lets rid
  simp -zeta only [show Tbl.get s.str.opening rid = some (a, ring) from ho, show s.req rid = some r from hr]
  extract_lets spec x s1 str'
  have hwork : s1.work = s.work := by
    simp only [s1, State.setRing, State.wrWords_fields]
    rfl
  have hreqs : s1.kv.reqs = Tbl.upd s.kv.reqs rid (fun r => { r with tokenRing := ring }) := by
    simp only [s1, State.setRing, State.wrWords_fields]
    rfl
  have hmem : s1.mem = ((s.wrWords ring x.words).wrWords spec (autoObject a.spec)).mem := by
    simp only [s1, State.setRing, State.wrWords, State.wr, State.updReq]
  clear_value s1
  refine ⟨State.finish_ended (s := { s1 with str := { s1.str with opening := Tbl.del s1.str.opening rid } }) (hwork ▸ hlisted), ?_, Tbl.get_del_same _ _, hmem⟩
  show Tbl.get s1.kv.reqs rid = _
  rw [hreqs]
  exact Tbl.get_upd_some _ _ _ r hr

/-- A COMMIT on a ring that has stopped ends with ST_REQUEST_STOPPED (R353). -/
theorem execCommit_stopped {cid : Nat} {c : Cmd} {r : Req} (hu : Up s) (hrun : s.running cid 5 2 = some c) (hnew : Tbl.has s.str.commits cid = false)
    (hr : s.req (fld c.op 1 47 0) = some r) (hst : (s.tokRing r).st = 2) : Does (.commit cid) s (s.finish cid .requestStopped 0) :=
  does_live (t := s.finish cid .requestStopped 0) rfl hu (by simp only [hrun, hnew, Bool.false_eq_true, hr, hst, if_true, if_false])

/-- RING_CLOSE frees the record, and the request is no longer among those done. -/
theorem execRingClose_frees {cid : Nat} {held : Bool} {c : Cmd} {r : Req} (hu : Up s) (hrun : s.running cid 5 3 = some c)
    (hr : s.req (fld c.op 1 47 0) = some r) : ∃ t, Does (.ringClose cid held) s t ∧ t.ended cid .ok 0 ∧ t.req (fld c.op 1 47 0) = none ∧
      fld c.op 1 47 0 ∉ t.str.done_ := by
  refine ⟨_, does_live rfl hu rfl, ?_⟩
  have hlisted : Tbl.has s.work.cmds cid = true := by rw [Tbl.has, State.running_listed hrun]; rfl
  simp -zeta only [hrun]
  extract_lets rid keep
  simp -zeta only [show s.req rid = some r from hr]
  extract_lets head s1 s2 str' s3
  have h2 : Tbl.has s2.work.cmds cid = Tbl.has s.work.cmds cid := by
    have hfreed : (if keep then s1 else (s1.freeBlocks rid r).freeAll rid).standing = s.standing :=
      ite_standing (State.setRing_standing _ _) (by rw [State.freeAll_standing, State.freeBlocks_standing, State.setRing_standing])
    exact Standing.listed_eq hfreed cid
  refine ⟨State.finish_ended (s := s3) (h2.trans hlisted), Tbl.get_del_same _ _, ?_⟩
  show rid ∉ s2.str.done_.filter (· != rid)
  simp

/-! ### Ids at a bridge (R358) -/

/-- Ids pushed to a bridge are kept as provisional and acknowledged. -/
theorem execTokenPush_keeps {h : MsgHdr} {first : Nat} {ids : List Nat} {b : BridgeReq} (hu : Up s) (hv : h.ver = 1) (hn : ids.length ≤ 65)
    (hb : s.bridgeReq h.req = some b) (he : b.early = none) : ∃ t, Does (.tokenPush h first ids) s t ∧
      t.bridgeReq h.req = some { b with prov := (ids.mapIdx (fun i x => (first + i, x))).foldl (fun p e => Tbl.set p e.1 e.2) b.prov } ∧
      t.sent h.src 33 h.req ∧ t.mem = s.mem := by
  refine ⟨_, does_live rfl hu rfl, ?_⟩
  simp -zeta only [hb, show ¬ (h.ver ≠ 1 ∨ 65 < ids.length) by omega, if_false]
  extract_lets b1 s1
  simp -zeta only [show b1.early = none from he]
  refine ⟨State.setBridge_bridgeReq _ _ _, ?_, rfl⟩
  show ((_ ++ [_] : List CtlMsg).getLast?).map _ = _
  simp

/-- A TOKEN_COMMIT that is not older than the newest mark makes the ids it counts final, or waits for those missing. -/
theorem execTokenCommit_final {h : MsgHdr} {tok stopPos reason seq len time : Nat} {b : BridgeReq} (hu : Up s) (hv : h.ver = 1) (hseq : seq < 16)
    (ht : ((b.marks.head?).map (·.2)).getD 0 ≤ time) (hb : s.bridgeReq h.req = some b) :
    Does (.tokenCommit h tok stopPos reason seq len time) s (s.keeping (s.finalIds h.src h.req b tok stopPos reason len time)) := by
  refine does_live rfl hu ?_
  simp only [hb]
  exact if_neg (by omega)

/-- A stream blocked for 100 ms is told of once (R359, R368). -/
theorem execStreamBlockedTimer_tells {vi stream at_ : Nat} {x : ClientStream} (hu : Up s) (hx : Tbl.get s.str.streams (vi, stream) = some x)
    (htold : x.blockedTold = false) (hat : x.blockedAt = some at_) (ht : at_ + 100000000 ≤ s.now) : ∃ t, Does (.streamBlockedTimer vi stream) s t ∧
      Tbl.get t.str.streams (vi, stream) = some { x with blockedTold := true } ∧ t.log.evSeq = s.log.evSeq + 1 := by
  refine ⟨_, does_live rfl hu rfl, ?_⟩
  have hdue : ¬ (x.blockedTold = true ∨ (!((x.blockedAt.map (fun t => decide (t + 100000000 ≤ s.now))).getD false)) = true) := by simp [htold, hat, ht]
  simp -zeta only [hx, hdue, if_false]
  extract_lets mine waiting transit str'
  constructor
  · show Tbl.get (State.raise _ _ _ _ _ _).str.streams _ = _
    rw [Standing.str_eq (State.raise_standing _ _ _ _ _)]
    exact Tbl.get_set_same _ _ _
  · show (State.raise _ _ _ _ _ _).log.evSeq = _
    simp

/-- At the flush time the ids that wait are in a record (R361). -/
theorem execStreamFlushTimer_flushes {rid : Nat} {b : BridgeReq} {x : ClientStream} (hu : Up s) (hb : s.bridgeReq rid = some b) (hp : b.primary = true)
    (he : b.ended = false) (hr : b.reason = 0) (hlt : b.sent < b.writable) (hle : b.writable ≤ b.sent + 8)
    (hx : Tbl.get s.str.streams (b.vi, b.spec.stream) = some x) (hroom : sub64 x.written (word (s.rdWords x.head 1) 0) < 2 ^ x.recLog2)
    (hdue : (b.waitAt.map (fun w => decide (w + x.flushNs ≤ s.now))).getD false = true) (hent : s.entry rid = none) :
    ∃ t, Does (.streamFlushTimer rid) s t ∧ (t.bridgeReq rid).map (fun y => (y.sent, y.waitAt)) = some (b.writable, none) ∧
      (Tbl.get t.str.streams (b.vi, b.spec.stream)).map (·.written) = some (x.written + 1) ∧ t.mem = s.mem := by
  obtain ⟨u, b', hpump, hsent, hmem, hw⟩ := State.pump_flushes hb hp he hr hlt hle hx hroom
  refine ⟨_, does_live (t := u.setBridge rid b') rfl hu ?_, ?_, hw, hmem⟩
  · simp only [hb, hx, Option.map_some, Option.getD_some, hdue, if_true, hent, Option.bind_none, hpump]
  · show ((u.setBridge rid b').bridgeReq rid).map _ = _
    rw [State.setBridge_bridgeReq, Option.map_some, hsent]

/-! ### The ends of requests (R22, R23, R28, R364) -/

/-- Counting an event of a unit changes the counters alone. -/
theorem State.unitEvent_frame (s : State) (u ev n : Nat) (vi : Option Nat) : ∃ p, s.unitEvent u ev n vi = { s with perf := p } := by
  unfold State.unitEvent
  extract_lets x
  split
  · exact ⟨s.perf, rfl⟩
  · exact ⟨_, rfl⟩

/-- A changed entry is kept with its state and its holders, and the blocks and handles stay as they are (R116). -/
theorem State.commitEntry_entry (s : State) (rid : Nat) (e : DirEntry) (msgs : List CtlMsg) : (s.commitEntry rid e msgs).kv = s.kv ∧
    ((s.commitEntry rid e msgs).entry rid).map (fun x => (x.st, x.holder, x.prevHolder)) = some (e.st, e.holder, e.prevHolder) := by
  unfold State.commitEntry
  obtain ⟨p1, e1⟩ := s.unitEvent_frame 0x900 0x0901 1 none
  obtain ⟨p2, e2⟩ := State.unitEvent_frame { s with perf := p1 } 0x901 0x0901 1 none
  rw [e1, e2]
  extract_lets u
  split
  · obtain ⟨g, eg⟩ := foldl_tell_frame msgs (fun _ m => m) (u.setEntry rid e)
    rw [eg]
    refine ⟨rfl, ?_⟩
    show (Tbl.get (Tbl.set u.own.dir rid e) rid).map _ = _
    rw [Tbl.get_set_same]
    rfl
  · refine ⟨rfl, ?_⟩
    show (Tbl.get (Tbl.set u.own.dir rid _) rid).map _ = _
    rw [Tbl.get_set_same]
    rfl

/-- At the home, a message of version 1 about a request whose entry is here is applied (R118). -/
theorem State.atHome_here {h : MsgHdr} {code : Nat} {f : DirEntry → State} {e : DirEntry} (hv : h.ver = 1) (he : s.entry h.req = some e)
    (hh : e.here = true) : s.atHome h code f = f e := by
  simp [State.atHome, hv, he, hh]

/-- The checks of R364 on a STREAM_DONE that reaches the home of its request. -/
structure DonePasses (s : State) (h : MsgHdr) (tok delivered cancelled reason : Nat) (e : DirEntry) : Prop where
  ver : h.ver = 1
  entry : s.entry h.req = some e
  here : e.here = true
  holder : h.src = e.holder
  epoch : h.epoch = e.epoch
  reason : reason < 6
  st : e.st = .prefill ∨ e.st = .protected_ ∨ e.st = .decoding ∨ e.st = .stopped
  count : delivered + cancelled ≤ tok
  free : Tbl.get s.kv.attached h.req = none

section
variable {h : MsgHdr} {tok delivered cancelled reason : Nat} {e : DirEntry} (hp : DonePasses s h tok delivered cancelled reason e)
include hp

theorem DonePasses.current : ¬ (h.src ≠ e.holder ∨ h.epoch ≠ e.epoch) := by simp [hp.holder, hp.epoch]

theorem DonePasses.counted :
    ¬ ((!(([.prefill, .protected_, .decoding, .stopped] : List DirState).contains e.st)) = true ∨ 6 ≤ reason ∨ tok < delivered + cancelled) := by
  have hst : ([.prefill, .protected_, .decoding, .stopped] : List DirState).contains e.st = true := by
    rcases hp.st with h | h | h | h <;> rw [h] <;> rfl
  rintro (h | h | h)
  · rw [hst] at h
    cases h
  · exact absurd hp.reason (Nat.not_lt.mpr h)
  · exact absurd hp.count (Nat.not_le.mpr h)

theorem DonePasses.detached : s.detach h.req = s := by simp [State.detach, hp.free]

end

/-- An entry kept with a new receipt has the state and the holders it was given; the bridges and the handles stay as they are. -/
theorem State.commitEntry_newReceipt (s : State) (rid : Nat) (e e0 : DirEntry) (kind fromN toN tokens blocks i j : Nat) (manifest : List Byte) (q : DirEntry × State)
    (hq : s.newReceipt rid e kind fromN toN tokens blocks manifest = q) : ((q.2.commitEntry rid q.1 []).bookReq e0 i j).standing = s.standing ∧
      ((q.2.commitEntry rid q.1 []).bookReq e0 i j).kv = s.kv ∧
      (((q.2.commitEntry rid q.1 []).bookReq e0 i j).entry rid).map (fun x => (x.st, x.holder, x.prevHolder)) = some (e.st, e.holder, e.prevHolder) := by
  obtain ⟨hkv, hentry⟩ := q.2.commitEntry_entry rid q.1 []
  subst hq
  exact ⟨by rw [State.bookReq_standing, State.commitEntry_standing]; rfl, hkv, hentry⟩

/-- A request that keeps nothing is retired: its entry is gone. -/
theorem execStreamDone_retires {h : MsgHdr} {tok delivered cancelled reason : Nat} {digest : List Byte} {e : DirEntry} (hu : Up s)
    (hp : DonePasses s h tok delivered cancelled reason e) (hk : e.keep = 0) : ∃ t, Does (.streamDone h tok delivered cancelled reason digest) s t ∧
      t.entry h.req = none ∧ t.kv = s.kv ∧ t.mem = s.mem := by
  refine ⟨_, does_live rfl hu rfl, ?_⟩
  simp only [State.atHome_here hp.ver hp.entry hp.here, if_neg hp.current, if_neg hp.counted, hp.detached, if_pos hk]
  exact ⟨Tbl.get_del_same _ _, rfl, rfl⟩

/-- A request that is kept is HELD under a handle that names its tokens, its digest and its expiry (R23, R109). -/
theorem execStreamDone_holds {h : MsgHdr} {tok delivered cancelled reason : Nat} {digest : List Byte} {e : DirEntry} (hu : Up s)
    (hp : DonePasses s h tok delivered cancelled reason e) (hk : 0 < e.keep) (hb : s.bridgeReq h.req = none) :
    ∃ t, Does (.streamDone h tok delivered cancelled reason digest) s t ∧
      (t.entry h.req).map (fun x => (x.st, x.holder, x.prevHolder)) = some (.held, 0, e.holder) ∧
      (Tbl.get t.kv.handles (handleOf h.req digest)).map (fun x => (x.req, x.tokens, x.digest, x.expiry)) =
        some (h.req, tok, digest, s.now + 1000000000 * e.keep) := by
  refine ⟨_, does_live rfl hu rfl, ?_⟩
  simp -zeta only [State.atHome_here hp.ver hp.entry hp.here, if_neg hp.current, if_neg hp.counted, hp.detached, if_neg (Nat.pos_iff_ne_zero.mp hk)]
  extract_lets s1 b p p' dg hd x kv' s2 s3
  obtain ⟨hstr, hkv, hentry⟩ : s3.standing = s.standing ∧ s3.kv = s2.kv ∧
      (s3.entry h.req).map (fun x => (x.st, x.holder, x.prevHolder)) = some (.held, 0, e.holder) := State.commitEntry_newReceipt _ _ _ _ _ _ _ _ _ _ _ _ _ rfl
  have hnone : s3.bridgeReq h.req = none := by
    rw [State.bridgeReq, Standing.str_eq hstr]
    exact hb
  have hdg : hd = handleOf h.req digest := by simp [hd, dg, b, s1, hb]
  simp -zeta only [hnone]
  refine ⟨hentry, ?_⟩
  show (Tbl.get s3.kv.handles (handleOf h.req digest)).map _ = _
  rw [hkv, ← hdg, show s2.kv.handles = Tbl.set s.kv.handles hd x from rfl, Tbl.get_set_same]
  simp [x, p', p, dg, b, s1, hb]

/-! ### The ends of prefixes (R28, R112) -/

/-- A handle whose retention has expired is released. -/
theorem execPrefixRetentionExpiry_releases {handle : Nat} {x : PrefixHandle} (hu : Up s) (hx : Tbl.get s.kv.handles handle = some x) (he : x.expiry ≤ s.now) :
    Does (.prefixRetentionExpiry handle) s { s with kv := { s.kv with handles := Tbl.set s.kv.handles handle { x with released := true } } } :=
  does_live (t := { s with kv := { s.kv with handles := Tbl.set s.kv.handles handle { x with released := true } } }) rfl hu
    (by simp only [hx, if_neg (Nat.not_lt.mpr he)])

/-- A released or expired handle without users is gone, with its entry and its bridge's log. -/
theorem execPrefixBlocksFree_frees {handle : Nat} {x : PrefixHandle} (hu : Up s) (hx : Tbl.get s.kv.handles handle = some x)
    (hr : x.released = true ∨ x.expiry ≤ s.now) (hn : x.users = 0) : ∃ t, Does (.prefixBlocksFree handle) s t ∧
      Tbl.get t.kv.handles handle = none ∧ t.entry x.req = none ∧ t.bridgeReq x.req = none := by
  refine ⟨_, does_live rfl hu rfl, ?_⟩
  have hfree : ((!x.released && decide (s.now < x.expiry)) || decide (0 < x.users)) = false := by
    rcases hr with h | h
    · simp [h, hn]
    · simp [Nat.not_lt.mpr h, hn]
  simp -zeta only [hx, hfree, Bool.false_eq_true, if_false]
  exact ⟨Tbl.get_del_same _ _, Tbl.get_del_same _ _, Tbl.get_del_same _ _⟩

end Sys2Proof.Machine
end

section
open Sys2Proof Sys2Proof.Machine

/-- Settles O51: one lemma per command, in the order of the statement; for COMMIT the checks passed, what is sent before it waits and the completion step; for
the bridges what writing a record leaves. -/
theorem tokensAndBridges : Obligations.TokensAndBridges := by
  unfold Obligations.TokensAndBridges
  refine ⟨?ringOpen, ?commitStopped, ?commitCompletes, ?commitWaits, ?ringClose, ?push, ?commitMissing, ?commitFinal, ?ack, ?ackTimeout, ?flush, ?blocked,
    ?takeover, ?retires, ?holds, ?expiry, ?blocksFree⟩
  case ringOpen => exact fun _ _ _ _ _ _ hu hrun ho hr => execRingOpen_opens hu hrun ho hr
  case commitStopped => exact fun _ _ _ _ hu hrun hnew hr hst => execCommit_stopped hu hrun hnew hr hst
  case commitCompletes =>
    intro cid n c0 c r q s hu hcid hrun hnew hwait hr hn hc0 hopen hlo hhi hnum hord hids hread hrows hroom hq hprot hseal
    exact execCommit_completes hu hcid hrun hnew hwait hr hn hc0 ⟨hopen, hlo, hhi, hnum, hord, hids, hread, hrows, hroom⟩ hq hprot hseal
  case commitWaits =>
    intro cid n c0 c r q s hu hrun hnew hr hn hc0 hopen hprompt hlo hhi hnum hord hids hread hrows hroom hq hkept hprot hlive hseal
    exact execCommit_waits hu hrun hnew hr hn hc0 ⟨hopen, hlo, hhi, hnum.trans (if_pos hprompt).symm, .inr hord, hids, hread, hrows, hroom⟩ hq hkept hprot hlive hseal
  case ringClose => exact fun _ _ _ _ _ hu hrun hr => execRingClose_frees hu hrun hr
  case push => exact fun _ _ _ _ _ hu hv hn hb he => execTokenPush_keeps hu hv hn hb he
  case commitMissing =>
    intro h tok stopPos reason seq len time b s hu hv hseq ht hb hmissing
    have hfinal := execTokenCommit_final (tok := tok) (stopPos := stopPos) (reason := reason) (len := len) hu hv hseq ht hb
    rw [State.finalIds_missing hmissing] at hfinal
    exact hfinal
  case commitFinal =>
    intro h tok stopPos seq len time b s hu hv hseq ht hb hp hhave
    have hfinal := execTokenCommit_final (tok := tok) (stopPos := stopPos) (reason := 0) (len := len) hu hv hseq ht hb
    obtain ⟨b', e, hb'⟩ := State.finalIds_standby (s := s) (src := h.src) (rid := h.req) (stopPos := stopPos) (len := len) (time := time) hp hhave
    rw [e] at hfinal
    refine ⟨_, hfinal, ?_, rfl⟩
    show ((s.setBridge h.req b').bridgeReq h.req).map _ = _
    rw [State.setBridge_bridgeReq, Option.map_some, hb']
  case ack => exact fun _ _ _ _ _ hu hv hr he => execTokenAck_keeps hu hv hr he
  case ackTimeout => exact fun _ _ _ _ hu hx ha ht => execTokenAckTimeout_loses hu hx ha ht
  case flush => exact fun _ _ _ _ hu hb hp he hr hlt hle hx hroom hdue hent => execStreamFlushTimer_flushes hu hb hp he hr hlt hle hx hroom hdue hent
  case blocked => exact fun _ _ _ _ _ hu hx htold hat ht => execStreamBlockedTimer_tells hu hx htold hat ht
  case takeover => exact fun _ _ _ _ _ _ hu hb hl hs hp hne hun => execBridgeTakeover_takes hu hb hl hs hp hne hun
  case retires =>
    exact fun _ _ _ _ _ _ _ _ hu hv he hh hsrc hep hrs hst hn hk hatt => execStreamDone_retires hu ⟨hv, he, hh, hsrc, hep, hrs, hst, hn, hatt⟩ hk
  case holds =>
    exact fun _ _ _ _ _ _ _ _ hu hv he hh hsrc hep hrs hst hn hk hb hatt => execStreamDone_holds hu ⟨hv, he, hh, hsrc, hep, hrs, hst, hn, hatt⟩ hk hb
  case expiry => exact fun _ _ _ hu hx he => execPrefixRetentionExpiry_releases hu hx he
  case blocksFree => exact fun _ _ _ hu hx hr hn => execPrefixBlocksFree_frees hu hx hr hn

end

section
/-! SUPPORT. What a hub's round leaves of the package (R43, R46, R47), and what an epoch boundary gives arbiters and engines (R44, R82). -/

namespace Sys2Proof.Machine
open Sys2Proof

variable {s t : State}

/-- An observation that both branches of a choice give. -/
theorem ite_keeps {γ : Type} (g : State → γ) {p : Prop} [Decidable p] {x : γ} {a b : State} (ha : g a = x) (hb : g b = x) :
    g (if p then a else b) = x := by
  split
  · exact ha
  · exact hb

/-! ### Rounds -/

/-- Counting a unit's event leaves the package as it stands. -/
@[simp] theorem State.unitEvent_pkg (s : State) (u ev n : Nat) (vi : Option Nat) : (s.unitEvent u ev n vi).pkg = s.pkg :=
  ite_keeps (·.pkg) rfl rfl

/-- A grant moves a pointer; the round is the same. -/
@[simp] theorem State.granted_round (s : State) (a n w : Nat) :
    (s.granted a n w).pkg.round = s.pkg.round ∧ (s.granted a n w).pkg.reExecuted = s.pkg.reExecuted := ⟨rfl, rfl⟩

/-- A round that closes is counted and has not been executed again, whatever operations it carried. -/
theorem execHubRoundClose_counts (hu : Up s) (contrib : List (Nat × Option Packet)) :
    ∃ t, Does (.hubRoundClose contrib) s t ∧ t.pkg.round = s.pkg.round + 1 ∧ t.pkg.reExecuted = false := by
  refine ⟨_, does_live rfl hu rfl, ?_⟩
  extract_lets -underBinder order losers lines late first run s1 out bytes _ _ s2 s3
  have hs3 : s3.pkg = s2.pkg := foldl_keeps (·.pkg) _ _ s2 fun t i => by simp
  simp only [State.keeping_fields]
  split
  · rw [hs3]
    exact ⟨rfl, rfl⟩
  · rw [(s3.granted_round _ _ _).1, (s3.granted_round _ _ _).2, hs3]
    exact ⟨rfl, rfl⟩

/-- The pair's own digest releases the round's outputs and does nothing else. -/
theorem execRoundDigestCompare_equal (hu : Up s) (a b c d : Bool) : Does (.roundDigestCompare s.pkg.digest a b c d) s s.releaseRound :=
  does_live (t := s.releaseRound) rfl hu (by simp)

/-! ### Engines -/

/-- An engine that is changed, and every other as it was. -/
theorem State.updInst_inst (s : State) (cls i c j : Nat) (f : Inst → Inst) :
    (s.updInst cls i f).inst c j = if (c, j) = (cls, i) then f (s.inst cls i) else s.inst c j := by
  split
  next h =>
    obtain ⟨rfl, rfl⟩ := Prod.mk.inj h
    exact Tbl.at_set_same _ _ _ _
  next h => exact Tbl.at_set_other _ _ _ _ _ h

@[simp] theorem State.updInst_inst_same (s : State) (cls i : Nat) (f : Inst → Inst) : (s.updInst cls i f).inst cls i = f (s.inst cls i) := by
  rw [State.updInst_inst, if_pos rfl]

/-- Engines are read from their table alone. -/
theorem State.inst_congr (h : t.work.insts = s.work.insts) (cls i : Nat) : t.inst cls i = s.inst cls i := by
  rw [State.inst, h, State.inst]

/-- Engines are read from the state after. -/
@[simp] theorem State.keeping_inst (s t : State) (cls i : Nat) : (s.keeping t).inst cls i = t.inst cls i := rfl

/-! ### The epoch boundary -/

/-- Neither phase group of an engine has used engine time in the open interval (R82). -/
def Inst.fresh (x : Inst) : Prop := x.usedG = 0 ∧ x.usedP = 0

/-- Recomputing an engine's shares opens its interval afresh, and every interval that is fresh stays so. -/
theorem State.rephase_fresh (s : State) (cls i c j : Nat) (h : (c, j) = (cls, i) ∨ (s.inst c j).fresh) : ((s.rephase cls i).inst c j).fresh := by
  rw [State.rephase, State.updInst_inst]
  split
  · exact ⟨rfl, rfl⟩
  next hne => exact h.resolve_left hne

/-- Recomputing the shares of several engines opens an interval afresh on each of them. -/
theorem State.rephaseAll_fresh {c j : Nat} {l : List (Nat × Nat)} (h : (c, j) ∈ l) (s : State) :
    ((l.foldl (fun t i => t.rephase i.1 i.2) s).inst c j).fresh := by
  induction l generalizing s with
  | nil => cases h
  | cons i l ih =>
    rw [List.foldl_cons]
    rcases List.mem_cons.mp h with hi | hl
    · exact List.foldlRecOn (motive := fun t : State => (t.inst c j).fresh) l _ (s.rephase_fresh _ _ _ _ (.inl hi))
        fun t ht x _ => t.rephase_fresh _ _ _ _ (.inr ht)
    · exact ih hl _

/-- In an epoch that opened at the present time, no pointer having moved since, every arbiter has the pointer of R44. -/
theorem State.ptr_reloaded (hp : t.pkg = { s.pkg with epoch := some s.now, ptrs := [] }) (hnode : t.node = s.node) (a n : Nat) :
    t.ptr a n = (bits s.now 35 20 + s.node + a) % max 1 n := by
  rw [State.ptr, hp, hnode]
  rfl

/-- A fabric epoch boundary reloads every arbiter's pointer and opens the phase groups' intervals on every Mover engine; memory and the blocks stand. -/
theorem execFabricEpochBoundary_reloads (hu : Up s) (hb : s.now % 1048576 = 0) : ∃ t, Does .fabricEpochBoundary s t ∧
    (∀ a n, t.ptr a n = (bits s.now 35 20 + s.node + a) % max 1 n) ∧ (∀ i, i < 16 → (t.inst 1 i).fresh) ∧ t.mem = s.mem ∧ t.kv = s.kv := by
  refine ⟨_, does_live rfl hu rfl, ?_⟩
  rw [if_neg (not_not_intro hb)]
  extract_lets _ _ s1 s2
  have hkept : (s2.pkg, s2.node, s2.mem, s2.kv) = (s1.pkg, s1.node, s1.mem, s1.kv) :=
    foldl_keeps (fun t => (t.pkg, t.node, t.mem, t.kv)) _ _ s1 fun _ _ => rfl
  simp only [Prod.mk.injEq] at hkept
  obtain ⟨hpkg, hnode, hmem, hkv⟩ := hkept
  have hfresh : ∀ i, i < 16 → (s2.inst 1 i).fresh := fun i hi => State.rephaseAll_fresh (by simp [hi]) s1
  clear_value s2
  exact ⟨State.ptr_reloaded hpkg hnode, hfresh, hmem, hkv⟩

/-- At every other time the boundary's command does nothing (log 33). -/
theorem execFabricEpochBoundary_other (hu : Up s) (hb : s.now % 1048576 ≠ 0) : Does .fabricEpochBoundary s s :=
  does_live (t := s) rfl hu (if_pos hb)

/-- Bits [19:0] of a time are its remainder within an epoch of 2^20 ns. -/
theorem bits_epoch (w : Nat) : bits w 19 0 = w % 1048576 := rfl

end Sys2Proof.Machine
end

section
/-! SUPPORT. The choice of a scheduler, its dispatch and its pre-emption, said once (R68, R81, R83). -/

namespace Sys2Proof.Machine
open Sys2Proof

variable {s t : State} {cls i cid : Nat} {c : Cmd}

/-! ### The choice -/

/-- What is chosen from a list by taking its head or the choice from its tail is an entry of the list. -/
theorem mem_of_choice {α : Type} {pick : List α → Option α} (hnil : pick [] = none)
    (hcons : ∀ x xs, pick (x :: xs) = some x ∨ pick (x :: xs) = pick xs) {l : List α} {a : α} (h : pick l = some a) : a ∈ l := by
  induction l with
  | nil => exact nomatch hnil.symm.trans h
  | cons x l ih =>
    rcases hcons x l with hx | hl
    · exact Option.some.inj (hx.symm.trans h) ▸ List.mem_cons_self
    · exact List.mem_cons_of_mem _ (ih (hl.symm.trans h))

/-- The entry with the smallest measure is an entry of the list. -/
theorem minBy?_mem {α : Type} {f : α → Nat} {l : List α} {a : α} (h : minBy? f l = some a) : a ∈ l := by
  refine mem_of_choice rfl (fun x xs => ?_) h
  rw [minBy?]
  split
  · exact .inl rfl
  next y hy => exact (ite_eq_or_eq _ _ _).imp_right (·.trans hy.symm)

/-- The entry with the largest measure is an entry of the list. -/
theorem maxBy?_mem {α : Type} {f : α → Nat} {l : List α} {a : α} (h : maxBy? f l = some a) : a ∈ l := by
  refine mem_of_choice rfl (fun x xs => ?_) h
  rw [maxBy?]
  split
  · exact .inl rfl
  next y hy => exact (ite_eq_or_eq _ _ _).imp_right (·.trans hy.symm)

/-- A key with an entry in the table is listed. -/
theorem Tbl.has_of_mem {κ α : Type} [DecidableEq κ] {t : Tbl κ α} {k : κ} {v : α} (h : (k, v) ∈ t) : Tbl.has t k = true := by
  induction t with
  | nil => cases h
  | cons e t ih =>
    obtain ⟨a, b⟩ := e
    by_cases ha : a = k
    · simp [Tbl.has, Tbl.get, ha]
    · have ht : (k, v) ∈ t := (List.mem_cons.mp h).resolve_left fun e => ha (congrArg Prod.fst e).symm
      simpa [Tbl.has, Tbl.get, ha] using ih ht

/-- The phase group that is served is a part of the commands it was chosen from. -/
theorem State.phaseGroup_subset (s : State) (cls i : Nat) (l : List (Nat × Cmd)) : s.phaseGroup cls i l ⊆ l := by
  unfold State.phaseGroup
  extract_lets isG x g p
  have hg : g ⊆ l := List.filter_subset_self _
  have hp : p ⊆ l := List.filter_subset_self _
  split_ifs
  · exact List.Subset.refl l
  · exact hp
  · exact hg
  · exact hg
  · exact hp

/-- A VI's next command is one of those it was chosen from. -/
theorem State.viNext_mem {vi : Nat} {l : List (Nat × Cmd)} {e : Nat × Cmd} (h : s.viNext cls i vi l = some e) : e ∈ l := by
  unfold State.viNext at h
  extract_lets mine at h
  have hmine : mine ⊆ l := List.filter_subset_self _
  rcases (Option.orElse_eq_some _ _ _).mp h with hmin | ⟨-, hq⟩
  · exact hmine (List.filter_subset_self _ (minBy?_mem hmin))
  · obtain ⟨q, -, hq⟩ := List.exists_of_findSome?_eq_some hq
    exact hmine (List.mem_of_find?_eq_some hq)

/-- The command a scheduler chooses is one of the block's. -/
theorem State.pickCmd_listed {d : Tbl Nat Nat} (h : s.pickCmd cls i = some (cid, c, d)) : Tbl.has s.work.cmds cid = true := by
  refine Tbl.has_of_mem (v := c) ?_
  unfold State.pickCmd at h
  extract_lets x all at h
  have hall : all ⊆ s.work.cmds := List.filter_subset_self _
  split at h
  next n c' hfind =>
    cases h
    exact hall (List.mem_of_find?_eq_some hfind)
  next =>
    split at h
    · cases h
    next w hw =>
      cases h
      obtain ⟨v, -, hv⟩ := List.mem_filterMap.mp (minBy?_mem hw)
      obtain ⟨e, he, rfl⟩ := Option.map_eq_some_iff.mp hv
      exact hall (List.filter_subset_self _ (s.phaseGroup_subset _ _ _ (State.viNext_mem he)))

/-! ### Dispatch -/

/-- A listed command that is changed reads as it was changed. -/
theorem State.updCmd_reads {β : Type} {g : Cmd → β} {b : β} (h : Tbl.has s.work.cmds cid = true) (f : Cmd → Cmd) (hg : ∀ x, g (f x) = b) :
    (Tbl.get (s.updCmd cid f).work.cmds cid).map g = some b := by
  obtain ⟨x, hx⟩ := Option.isSome_iff_exists.mp h
  exact (congrArg (Option.map g) (Tbl.get_upd_some _ _ _ x hx)).trans (congrArg some (hg x))

/-- Settling a unit leaves the block's work and memory as they stand. -/
@[simp] theorem State.settle_work (s : State) (u : Nat) : (s.settle u).work = s.work ∧ (s.settle u).mem = s.mem := by
  obtain ⟨p, h⟩ := s.settle_frame u
  rw [h]
  exact ⟨rfl, rfl⟩

/-- A command given its slot runs on the engine; memory stands. -/
theorem State.place_runs (h : Tbl.has s.work.cmds cid = true) (c : Cmd) (i : Nat) :
    (Tbl.get (s.place cid c i).work.cmds cid).map (fun x => (x.st, x.inst)) = some (.running, i) ∧ (s.place cid c i).mem = s.mem := by
  unfold State.place
  extract_lets slot snap used waited s1 _ s2
  have hs2 : (s2.work.cmds, s2.mem) = (s1.work.cmds, s1.mem) := ite_keeps (fun t => (t.work.cmds, t.mem)) rfl rfl
  simp only [Prod.mk.injEq] at hs2
  have hruns : (Tbl.get s1.work.cmds cid).map (fun x => (x.st, x.inst)) = some (.running, i) :=
    State.updCmd_reads (by simpa using h) _ fun _ => rfl
  have hmem : s1.mem = s.mem := by simp only [s1, State.updCmd_fields, State.settle_work]
  simpa [hs2, hmem] using hruns

/-- A command that passes its checks runs on the engine at once in a class that neither prepares blocks nor takes an index. -/
theorem State.dispatch_runs {d : Tbl Nat Nat} (h2 : cls ≠ 2) (h4 : cls ≠ 4) (hlisted : Tbl.has s.work.cmds cid = true) (hst : c.st = .waiting)
    (hpass : s.refusal c = none) (heng : s.noEngine cls = false) :
    (Tbl.get (s.dispatch cls i cid c d).work.cmds cid).map (fun x => (x.st, x.inst)) = some (.running, i) ∧ (s.dispatch cls i cid c d).mem = s.mem := by
  unfold State.dispatch
  simp only [if_pos hst, hpass, heng, h2, h4, false_and, Bool.false_eq_true, if_false, Bool.not_true]
  have hplaced := State.place_runs (s := s.updInst cls i fun x => { x with deficits := d }) hlisted ((Tbl.get s.work.cmds cid).getD c) i
  split <;> simpa using hplaced

/-- A command that fails a check before dispatch ends with that check's status. -/
theorem State.refuseCmd_ended (h : Tbl.has s.work.cmds cid = true) (c : Cmd) (b : Bad) : (s.refuseCmd cid c b).ended cid b.1 0 := by
  have hend := State.finish_ended (result := 0) (st := b.1) h
  unfold State.refuseCmd
  extract_lets s1
  split
  · obtain ⟨a, l, w, m, hv, -⟩ := s1.violate_frame c.vi s.node 63 b.2.1 1 (c.cls * 256 + fld c.op 0 43 36) b.2.2
    rw [hv]
    exact hend
  · exact hend

/-- A scheduler whose engine has room dispatches the command it chooses. -/
theorem execSchedulerDispatch_picks {d : Tbl Nat Nat} (hu : Up s) (hup : s.instUp cls i = true) (hfree : s.slotFree cls i = true)
    (hpick : s.pickCmd cls i = some (cid, c, d)) : Does (.schedulerDispatch cls i) s (s.keeping (s.dispatch cls i cid c d)) :=
  does_live rfl hu (by simp [hup, hfree, hpick])

/-! ### Pre-emption -/

/-- The one command past the threshold stops the running job of the lowest level, the most recent among equals, and waits for its slot. -/
theorem execPreemptionThreshold_stops {n v : Nat} {d : Cmd} (hu : Up s) (hsave : saveRecords cls ≠ 0) (hup : s.instUp cls i = true)
    (hfull : s.slotFree cls i = false) (hwait : (s.inst cls i).waiting = none)
    (hroom : (s.work.cmds.filter (fun e => e.2.cls == cls && e.2.inst == i && e.2.st == .saved)).length < saveRecords cls)
    (hover : s.work.cmds.filter (fun e => e.2.cls == cls && e.2.st != .running && s.dispatchable e.2 && s.isFor e.2 i &&
      decide (e.2.since + (s.inst cls i).threshold < s.now)) = [(n, c)])
    (hlower : (s.residents cls i).all (fun j => decide (s.levelOf c < s.levelOf j.2)) = true)
    (hmost : maxBy? (fun (j : Nat × Cmd) => s.levelOf j.2 * 2 ^ 64 + j.2.since) ((s.residents cls i).filter (fun j => j.2.st == .running)) = some (v, d)) :
    ∃ t, Does (.preemptionThreshold cls i) s t ∧ (Tbl.get t.work.cmds v).map (·.st) = some .stopping ∧ (t.inst cls i).waiting = some n ∧ t.mem = s.mem := by
  have hlisted : Tbl.has s.work.cmds v = true :=
    Tbl.has_of_mem (List.filter_subset_self _ (List.filter_subset_self _ (maxBy?_mem hmost)))
  refine ⟨_, does_live (t := (s.updCmd v fun c => { c with st := .stopping }).updInst cls i fun y => { y with waiting := some n }) rfl hu ?_, ?_, ?_, rfl⟩
  · simp only [hover, minBy?, hwait, hup, hfull, hlower, hmost, hsave, Nat.not_le.mpr hroom, Option.bind_none, Option.any_none, decide_false,
      Bool.or_false, Bool.not_true, Bool.false_eq_true, if_false]
  · exact State.updCmd_reads hlisted _ fun _ => rfl
  · rw [State.keeping_inst, State.updInst_inst_same]

end Sys2Proof.Machine
end

section
/-! SUPPORT. An engine's fault and the end of its self-test (R85, R86, R446). -/

namespace Sys2Proof.Machine
open Sys2Proof

variable {s t : State} {cls i : Nat}

/-! ### The fault -/

/-- What a fault records of an engine: its state and how many jobs it wiped (R85). -/
def Inst.fault (x : Inst) : InstSt × Nat := (x.st, x.wiped)

/-- Counting a job's events leaves the engines as they stand. -/
theorem State.tally_insts (s : State) (c : Cmd) : (s.tally c).work.insts = s.work.insts := rfl

/-- Closing a job's slots leaves the engines as they stand. -/
theorem State.closeJob_insts (s : State) (u cid vi : Nat) (kept : Bool) : (s.closeJob u cid vi kept).work.insts = s.work.insts := rfl

/-- Charging a job's time leaves what a fault records. -/
theorem State.chargeEnd_fault (s : State) (c : Cmd) (cls i : Nat) : ((s.chargeEnd c).inst cls i).fault = (s.inst cls i).fault := by
  unfold State.chargeEnd
  split
  · rfl
  · extract_lets measured g s1 s2
    have hs2 : (s2.inst cls i).fault = (s.inst cls i).fault := by
      rw [State.inst_congr (show s2.work.insts = s1.work.insts by simp [s2]), State.updInst_inst]
      split
      next h =>
        obtain ⟨rfl, rfl⟩ := Prod.mk.inj h
        rfl
      · rfl
    cases s.compOf c with
    | none => exact hs2
    | some n => exact hs2

/-- Wiping a job leaves what a fault records. -/
theorem State.wipeJob_fault (s : State) (cid cls i : Nat) : ((s.wipeJob cid).inst cls i).fault = (s.inst cls i).fault := by
  unfold State.wipeJob
  split
  · rfl
  next c _ =>
    extract_lets third u ran w evs t s1
    have hset : (s.settle u).inst cls i = s.inst cls i := State.inst_congr (by rw [(s.settle_work u).1]) cls i
    have hw : (w.inst cls i).fault = (s.inst cls i).fault := by rw [(s.settle u).chargeEnd_fault c cls i, hset]
    have ht : t.work.insts = w.work.insts := (State.closeJob_insts _ u cid c.vi false).trans (w.tally_insts _)
    have hs1 : s1.work.insts = w.work.insts := by simp only [s1, State.updCmd_fields, ht]
    split
    · rwa [State.inst_congr hs1]
    · rwa [State.inst_congr (s := w) (by simp only [State.account_fields, hs1])]

/-- A fault puts the engine in its self-test, with the jobs it wipes counted. -/
theorem execEngineFault_tests (hu : Up s) (hf : faultable cls i = true) (hst : (s.inst cls i).st = .service)
    (hdie : s.isFenced (instDie cls i) = false) :
    ∃ t, Does (.engineFault cls i) s t ∧ (t.inst cls i).fault = (.selfTest, (s.wipable cls i).length) := by
  refine ⟨_, does_live rfl hu rfl, ?_⟩
  simp only [hf, hst, hdie, Bool.not_true, bne_self_eq_false, Bool.or_false, Bool.false_eq_true, if_false]
  refine (foldl_keeps (fun t => (t.inst cls i).fault) _ State.wipeJob _ fun t cid => t.wipeJob_fault cid cls i).trans ?_
  rw [State.updInst_inst_same]
  rfl

/-! ### The end of the self-test -/

/-- The package and the table of engines, which no event changes. -/
def State.fleet (s : State) : Package × Tbl (Nat × Nat) Inst := (s.pkg, s.work.insts)

theorem State.raise0_fleet (s : State) (ev : Ev) (die unit : Nat) (p : List Nat) : (s.raise0 ev die unit p).fleet = s.fleet := by
  obtain ⟨l, v, m, h, -⟩ := s.raise_frame ev die unit p []
  rw [State.raise0, h]
  rfl

theorem State.capReduced_fleet (s : State) (die unit before after work : Nat) : (s.capReduced die unit before after work).fleet = s.fleet := by
  refine Eq.trans ?_ (s.raise0_fleet .capacityReduced die unit [unit, before, after, work])
  simp [State.capReduced, State.fleet]

/-- An Attend engine's tiles once spares have replaced what spares there are of its failed ones (R446). -/
def State.tilesLeft (s : State) (i badTiles : Nat) : Nat := Tbl.at s.pkg.tiles i 64 - (badTiles - min (Tbl.at s.pkg.tileSpares i 4) badTiles)

/-- A self-test that ends retires the engine where it failed, or where an Attend engine has fewer than 48 tiles left; else the engine serves. -/
theorem execEngineSelfTestDone_ends (hu : Up s) (hst : (s.inst cls i).st = .selfTest) (pass : Bool) (badTiles : Nat) :
    ∃ t, Does (.engineSelfTestDone cls i pass badTiles) s t ∧ (cls = 2 → Tbl.get t.pkg.tiles i = some (s.tilesLeft i badTiles)) ∧
      (t.inst cls i).st = (if pass = true ∧ (cls = 2 → 48 ≤ s.tilesLeft i badTiles) then .service else .retired) := by
  refine ⟨_, does_live rfl hu (if_neg (not_not_intro hst)), ?_⟩
  extract_lets unit die spares used n dead s1 _ s2 s3 after s4
  have hs3 : s3.fleet = s2.fleet := ite_keeps State.fleet rfl (s2.raise0_fleet _ _ _ _)
  have hs4 : s4.fleet = s3.fleet := ite_keeps State.fleet (s3.capReduced_fleet _ _ _ _ _) rfl
  have hfleet := (s4.raise0_fleet .engineFault die unit [unit, (s.inst cls i).wiped, (s.inst cls i).capBefore, after]).trans (hs4.trans hs3)
  have hs2 : s2.work.insts = s1.work.insts := ite_keeps (·.work.insts) rfl rfl
  constructor
  · rintro rfl
    exact (congrArg (fun f => Tbl.get f.1.tiles i) hfleet).trans (Tbl.get_set_same _ _ _)
  · have hinst := (State.inst_congr ((congrArg Prod.snd hfleet).trans hs2) cls i).trans (State.updInst_inst_same _ _ _ _)
    refine (congrArg Inst.st hinst).trans ?_
    have hdead : dead = false ↔ pass = true ∧ (cls = 2 → 48 ≤ s.tilesLeft i badTiles) := by
      by_cases h2 : cls = 2
      · simp [dead, n, used, spares, h2, State.tilesLeft]
      · simp [dead, h2]
    by_cases hd : dead = false
    · simp only [hd, if_pos (hdead.mp hd), Bool.false_eq_true, if_false]
    · simp only [eq_true_of_ne_false hd, if_neg (mt hdead.mpr hd), if_true]

end Sys2Proof.Machine
end

section
open Sys2Proof Sys2Proof.Machine

/-- Settles O16: a close counts whatever its operations did, and the pair's own digest takes the branch that releases the outputs. -/
theorem hubRounds : Obligations.HubRounds :=
  ⟨fun contrib _ hu => execHubRoundClose_counts hu contrib, fun a b c d _ hu => execRoundDigestCompare_equal hu a b c d⟩

/-- Settles O56: the pointers a boundary gives are a function of the time, the node and the arbiter alone. -/
theorem arbiterPointers : Obligations.ArbiterPointers := by
  refine ⟨?reload, ?other, ?agree⟩
  case reload =>
    intro s hu hb
    obtain ⟨t, ht, hptr, -⟩ := execFabricEpochBoundary_reloads hu ((bits_epoch _).symm.trans hb)
    exact ⟨t, ht, fun a n hn => by rw [hptr, Nat.max_eq_right hn]⟩
  case other => exact fun s hu hb => execFabricEpochBoundary_other hu fun h => hb ((bits_epoch _).trans h)
  case agree =>
    intro s s' t t' hu hu' hnow hnode hb ht ht' a n
    rw [bits_epoch] at hb
    obtain ⟨u, hdo, hptr, -⟩ := execFabricEpochBoundary_reloads hu hb
    obtain ⟨u', hdo', hptr', -⟩ := execFabricEpochBoundary_reloads hu' (hnow ▸ hb)
    obtain rfl : t = u := Host.Outcome.next.inj (ht.symm.trans hdo)
    obtain rfl : t' = u' := Host.Outcome.next.inj (ht'.symm.trans hdo')
    rw [hptr, hptr', hnow, hnode]

/-- Settles O43: one lemma per command; a chosen command is listed, so that its new state is read back, and wiping leaves what a fault records. -/
theorem enginesAndSchedulers : Obligations.EnginesAndSchedulers := by
  refine ⟨?runs, ?refused, ?preempted, ?fault, ?tested, ?attendTested, ?epoch⟩
  case runs =>
    intro cls i cid c d s hu hcls heng hup hfree hpick hst hpass
    have hruns := State.dispatch_runs (i := i) (d := d) (by omega) (by omega) (State.pickCmd_listed hpick) hst hpass heng
    exact ⟨_, execSchedulerDispatch_picks hu hup hfree hpick, hruns⟩
  case refused =>
    intro cls i cid c d b s hu hup hfree hpick hst hbad
    refine ⟨_, execSchedulerDispatch_picks hu hup hfree hpick, ?_⟩
    simp only [State.dispatch, if_pos hst, hbad]
    exact State.refuseCmd_ended (State.pickCmd_listed hpick) c b
  case preempted =>
    exact fun _ _ _ _ _ _ _ hu hsave hup hfull hwait hroom hover hlower hmost => execPreemptionThreshold_stops hu hsave hup hfull hwait hroom hover hlower hmost
  case fault =>
    intro cls i s hu hf hst hdie
    obtain ⟨t, ht, hfault⟩ := execEngineFault_tests hu hf hst hdie
    exact ⟨t, ht, Prod.mk.inj hfault⟩
  case tested =>
    intro cls i badTiles pass s hu h2 hst
    obtain ⟨t, ht, -, hend⟩ := execEngineSelfTestDone_ends hu hst pass badTiles
    exact ⟨t, ht, by simpa [h2] using hend⟩
  case attendTested =>
    intro i badTiles pass s hu hst
    obtain ⟨t, ht, htiles, hend⟩ := execEngineSelfTestDone_ends hu hst pass badTiles
    exact ⟨t, ht, htiles rfl, by simpa [State.tilesLeft] using hend⟩
  case epoch => exact fun _ hu hb => execFabricEpochBoundary_reloads hu hb
end

section
/-! SUPPORT. What VIs, queues and context slots read after a change, and what a deferred operation's final record leaves of them (R59, R69, R74, R79, R397). -/

namespace Sys2Proof.Machine
open Sys2Proof

/-! ### VIs, queues and slots after a change -/

/-- A VI that is changed reads as it was changed. -/
@[simp] theorem State.updVi_vi_same (s : State) (v : Nat) (f : Vi → Vi) : (s.updVi v f).vi v = f (s.vi v) := Tbl.at_set_same _ _ _ _

/-- A change of a VI that keeps a property keeps it of every VI. -/
theorem State.updVi_keeps {β : Type} (g : Vi → β) (s : State) (v : Nat) (f : Vi → Vi) (hf : g (f (s.vi v)) = g (s.vi v)) (n : Nat) :
    g ((s.updVi v f).vi n) = g (s.vi n) := by
  by_cases h : n = v
  · rw [h, State.updVi_vi_same, hf]
  · exact congrArg g (Tbl.at_set_other _ _ _ _ _ h)

/-- A queue that is stored reads as it was stored. -/
@[simp] theorem State.setQueue_queue_same (s : State) (k : QKey) (q : Queue) : (s.setQueue k q).queue k = q := Tbl.at_set_same _ _ _ _

/-- VIs, queues and slots are read from their tables alone. -/
theorem State.vi_congr {s t : State} (h : t.work.vis = s.work.vis) (v : Nat) : t.vi v = s.vi v := by
  rw [State.vi, h, State.vi]
theorem State.queue_congr {s t : State} (h : t.work.queues = s.work.queues) (k : QKey) : t.queue k = s.queue k := by
  rw [State.queue, h, State.queue]
theorem State.ctx_congr {s t : State} (h : t.work.ctxs = s.work.ctxs) (n : Nat) : t.ctx n = s.ctx n := by
  rw [State.ctx, h, State.ctx]

/-- VIs, queues and slots are read from the state after. -/
@[simp] theorem State.keeping_vi (s t : State) (v : Nat) : (s.keeping t).vi v = t.vi v := rfl
@[simp] theorem State.keeping_queue (s t : State) (k : QKey) : (s.keeping t).queue k = t.queue k := rfl
@[simp] theorem State.keeping_ctx (s t : State) (n : Nat) : (s.keeping t).ctx n = t.ctx n := rfl

/-! ### Async records and final records -/

/-- Writing an async ring's records leaves every VI's state as it stands. -/
theorem asyncDrain_viSt (v n : Nat) (rs : List (List Nat)) (s : State) : ((asyncDrain v rs s).vi n).st = (s.vi n).st := by
  induction rs generalizing s with
  | nil => exact s.updVi_keeps Vi.st v _ rfl n
  | cons r rs ih =>
    unfold asyncDrain
    split
    · exact s.updVi_keeps Vi.st v _ rfl n
    · extract_lets head s1 s2
      split
      · exact s.updVi_keeps Vi.st v _ rfl n
      · exact (ih _).trans (s2.updVi_keeps Vi.st v _ rfl n)

/-- A deferred operation's final record changes Adeah's state, what leaves the node, memory and async rings: of the block's work no VI's state. -/
theorem State.finishOp_frame (s : State) (r : OpRef) (st : Status) (result : Nat) (extra : List Nat) :
    ∃ a l v m, s.finishOp r st result extra = { s with adh := a, log := l, work := { s.work with vis := v }, mem := m } ∧
      ∀ n, ((s.finishOp r st result extra).vi n).st = (s.vi n).st := by
  unfold State.finishOp
  split
  · exact ⟨s.adh, _, s.work.vis, s.mem, rfl, fun _ => rfl⟩
  · split
    · generalize [sealWords _] = rs
      obtain ⟨v, m, e, -⟩ := s.asyncPut_frame r.vi rs
      refine ⟨s.adh, s.log, v, m, e, fun n => ?_⟩
      unfold State.asyncPut
      split
      · exact asyncDrain_viSt _ _ _ _
      · rfl
    · split
      · obtain ⟨a, m, e, -⟩ := s.mboxAnswer_frame r.vi r.mbox r.mbSeq r.op st result 0 extra
        rw [e]
        exact ⟨a, s.log, s.work.vis, m, rfl, fun _ => rfl⟩
      · exact ⟨s.adh, s.log, s.work.vis, s.mem, rfl, fun _ => rfl⟩

/-- A final record leaves every VI's state as it stands. -/
@[simp] theorem State.finishOp_viSt (s : State) (r : OpRef) (st : Status) (result : Nat) (extra : List Nat) (n : Nat) :
    ((s.finishOp r st result extra).vi n).st = (s.vi n).st := by
  obtain ⟨a, l, v, m, -, hst⟩ := s.finishOp_frame r st result extra
  exact hst n

/-- A final record leaves the queues and the context slots as they stand. -/
@[simp] theorem State.finishOp_work (s : State) (r : OpRef) (st : Status) (result : Nat) (extra : List Nat) :
    (s.finishOp r st result extra).work.queues = s.work.queues ∧ (s.finishOp r st result extra).work.ctxs = s.work.ctxs := by
  obtain ⟨a, l, v, m, e, -⟩ := s.finishOp_frame r st result extra
  rw [e]
  exact ⟨rfl, rfl⟩

/-- Withdrawing waiting submissions leaves every VI's state as it stands. -/
theorem State.withdraw_viSt (s : State) (f : Waiting → Bool) (n : Nat) : ((s.withdraw f).vi n).st = (s.vi n).st := by
  unfold State.withdraw
  refine foldl_keeps (fun t => (t.vi n).st) _ _ s fun t a => foldl_keeps (fun t => (t.vi n).st) _ _ t fun u w => ?_
  rw [State.finishOp_viSt]
  rfl

end Sys2Proof.Machine
end

section
/-! SUPPORT. What the operations of arenas, tiers, regions and quotas do where their checks pass (R64 to R66, R95, R220, R222, R230, R233). -/

namespace Sys2Proof.Machine
open Sys2Proof

variable {s : State} {c : Caller}

/-- The state with an arena: its slots' descriptors FREE, and its slots the ledger's. -/
def State.withArena (s : State) (x : Arena) : State :=
  ((List.range x.slots).foldl (fun (t : State) i => t.setDesc (x.descBase + 64 * i) { slot := x.base + i * (256 * x.headDim) })
    { s with kv := { s.kv with arenas := s.kv.arenas ++ [x] } }).bookNew qSlots x.descBase 0 x.slots

/-- Writing an arena's descriptors leaves the block's work and the arenas as they stand. -/
theorem State.withArena_frame (s : State) (x : Arena) : (s.withArena x).work = s.work ∧ (s.withArena x).kv.arenas = s.kv.arenas ++ [x] := by
  have h := foldl_keeps (fun t => (t.work, t.kv)) (List.range x.slots)
    (fun t i => t.setDesc (x.descBase + 64 * i) { slot := x.base + i * (256 * x.headDim) }) { s with kv := { s.kv with arenas := s.kv.arenas ++ [x] } }
    fun t i => by simp
  obtain ⟨hwork, hkv⟩ := Prod.mk.inj h
  exact ⟨hwork, congrArg Kv.arenas hkv⟩

/-- A run of slots that lies on this node in its tier, and meets no other arena, becomes an arena with its descriptors behind its slots. -/
theorem doArenaDefine_ok {tier die headDim base slots : Nat} {parity : Bool} (h1 : 1 ≤ tier) (h3 : tier ≤ 3) (hd : dimOk headDim = true) (hs : 0 < slots)
    (hb : base % 4096 = 0) (hn : addrNode base = s.node) (hsp : addrSpace base = tier)
    (hdie : tier ≠ 1 ∨ (die ≤ 7 ∧ directDie base = some die ∧ directDie (base + slots * (256 * headDim + 64) - 1) = some die))
    (ho : s.offsetDefined base = true) (ho' : s.offsetDefined (base + slots * (256 * headDim + 64) - 1) = true)
    (hfree : s.kv.arenas.all (fun x => !x.overlaps base (slots * (256 * headDim + 64))) = true) :
    doArenaDefine tier die headDim base slots parity s = adhOk (s.withArena
      { tier := tier, die := die, headDim := headDim, base := base, descBase := base + slots * (256 * headDim), slots := slots, parity := parity }) := by
  refine if_neg ?_
  push Not
  refine ⟨by omega, h3, by simp [hd], by omega, hb, hn, hsp, fun ht => ?_, by simp [ho], by simp [ho'], by simpa using hfree⟩
  obtain ⟨hle, hfirst, hlast⟩ := hdie.resolve_left (not_not_intro ht)
  exact ⟨hle, hfirst, hlast⟩

/-- A tier policy in its ranges, for a composition this node holds. -/
theorem doTierPolicy_ok {comp : Nat} {p : List Nat} (hm : (s.comp comp).maps ≠ []) (hp : p.length = 8)
    (hr : (p.zip tierRanges).all (fun x => decide (x.2.1 ≤ x.1) && decide (x.1 ≤ x.2.2)) = true) (hlow : word p 1 < word p 0) :
    doTierPolicy comp p s = adhOk { s with tier := { s.tier with policies := Tbl.set s.tier.policies comp {
        dramHigh := word p 0, dramLow := word p 1, idleDemote := word p 2, codeOnly := word p 3 == 1, deadline := word p 4, demoteRate := word p 5, regrowRate := word p 6, straggleLimit := word p 7 } } } := by
  refine if_neg ?_
  push Not
  exact ⟨hm, hp, by simp [hr], hlow⟩

/-- The status an operator reads begins with the first tier's ceiling, its use and its use in transit. -/
theorem doTierStatus_operator {kind id : Nat} (hk : kind ≤ 1) (ho : s.isOperator c = true) :
    ∃ rest, doTierStatus c kind id s = ⟨.ok, 0, u64 ((Tbl.get s.tier.ceilings (kind, id, 1)).getD (2 ^ 64 - 1)) :: u64 (s.tierUse kind id 1) ::
      u64 (s.tierTransit kind id 1) :: rest, s⟩ := by
  have hg := (if_neg (Nat.not_lt.mpr hk)).trans (if_neg (by simp [ho])) (a := doTierStatus c kind id s)
  exact ⟨_, hg.trans rfl⟩

/-- A VI's region table altered outside an order takes the next generation. -/
theorem State.newRegionGen_alone {vi : Nat} (ho : s.adh.order = none) :
    s.newRegionGen vi = s.updVi vi (fun x => { x with regionGen := u16 ((s.vi vi).regionGen + 1) }) := by
  simp only [State.newRegionGen, ho]

/-- A region that a VI holds of another owner is entered where its lines lie in one defined space of this node. -/
theorem doRegionSet_foreign {vi index base limit owner rights : Nat} (h0 : 0 < vi) (h255 : vi ≤ 255) (hst : (s.vi vi).st ≠ .unassigned) (hi : index ≤ 63)
    (ho : owner ≤ 255) (hne : owner ≠ vi) (hr : rights ≤ 255) (hb : base % 64 = 0) (hl : limit % 64 = 63) (hle : base ≤ limit) (hn : addrNode base = s.node)
    (hn' : addrNode limit = s.node) (hsp : addrSpace limit = addrSpace base) (hd : s.offsetDefined base = true) (hd' : s.offsetDefined limit = true) :
    doRegionSet vi index base limit owner rights true s = adhOk ((s.updVi vi (fun x => { x with
      regions := Tbl.set x.regions index { base := base, limit := limit, owner := owner, valid := true, rights := rights } })).newRegionGen vi) := by
  unfold doRegionSet
  extract_lets e s1 tier
  rw [if_neg (by push Not; exact ⟨by omega, h255, hst, hi, ho, hr⟩),
    if_neg (by push Not; exact fun _ => ⟨hb, hl, hle, hn, hn', hsp, by simp [hd], by simp [hd']⟩), if_neg (fun h => hne h.2.1), if_neg (fun h => hne h.2.1)]

end Sys2Proof.Machine
end

section
open Sys2Proof Sys2Proof.Machine

/-- Settles O34: each operation's checks pass on the premises, and its answer leaves the tiers, the arenas and the VI's regions as the operation set them. -/
theorem tierOperations : Obligations.TierOperations := by
  refine ⟨?arena, ?config, ?policy, ?status, ?scrub, ?region, ?quota⟩
  case arena =>
    intro c tier die headDim base slots parity s ha h1 h3 hd hs hb hn hsp hdie ho ho' hfree
    obtain ⟨a, l, hdoes⟩ := does_answered (i := .adhArenaDefine c tier die headDim base slots parity) rfl ha
      (doArenaDefine_ok h1 h3 hd hs hb hn hsp hdie ho ho' hfree) nofun
    exact ⟨_, hdoes, (s.withArena_frame _).2, (s.withArena_frame _).1⟩
  case config =>
    intro c sramTier interleave flashOp s ha hs hi hmax hlo hhi
    have hg : doTierConfig sramTier interleave flashOp s = adhOk _ := if_neg (by push Not; exact ⟨hs, hi, hmax, hlo, hhi⟩)
    obtain ⟨a, l, hdoes⟩ := does_answered (i := .adhTierConfig c sramTier interleave flashOp) rfl ha hg nofun
    exact ⟨_, hdoes, rfl, rfl⟩
  case policy =>
    intro c comp p s ha hm hp hr hlow
    obtain ⟨a, l, hdoes⟩ := does_answered (i := .adhTierPolicy c comp p) rfl ha (doTierPolicy_ok hm hp hr hlow) nofun
    exact ⟨_, hdoes, Tbl.get_set_same s.tier.policies comp _, rfl⟩
  case status =>
    intro c kind id s ha hk ho
    obtain ⟨rest, hg⟩ := doTierStatus_operator (id := id) hk ho
    obtain ⟨a, l, m, hdoes, hidle, happlied⟩ := does_read (i := .adhTierStatus c kind id) rfl ha hg
    exact ⟨_, hdoes, rfl, rfl, hidle, by rw [happlied]; rfl⟩
  case scrub =>
    intro c period s ha hlo hhi
    have hg : doScrubPolicy period s = adhOk _ := if_neg (by push Not; exact ⟨hlo, hhi⟩)
    obtain ⟨a, l, hdoes⟩ := does_answered (i := .adhScrubPolicy c period) rfl ha hg nofun
    exact ⟨_, hdoes, rfl, rfl⟩
  case region =>
    intro c vi index base limit owner rights s ha h0 h255 hst hi ho hne hr hb hl hle hn hn' hsp hd hd' hord
    refine ⟨_, does_order (i := .adhRegionSet c vi index base limit owner rights true) rfl ha
      (doRegionSet_foreign h0 h255 hst hi ho hne hr hb hl hle hn hn' hsp hd hd'), ?_⟩
    rw [State.newRegionGen_alone (by simpa using hord)]
    simp [u16]
  case quota =>
    intro c kind id tier ceiling s ha h1 h3 hid
    have hg : doQuotaSet kind id tier ceiling s = adhOk _ := if_neg (by split <;> omega)
    exact ⟨_, does_order (i := .adhQuotaSet c kind id tier ceiling) rfl ha hg, Tbl.get_set_same _ _ _, rfl, rfl⟩
end

section
/-! SUPPORT. What the operations of VIs, queues and context slots do where their checks pass (R58, R59, R69, R79, R80, R402). -/

namespace Sys2Proof.Machine
open Sys2Proof

variable {s : State} {c : Caller}

/-- Rights in their ranges, for a VI that is not assigned. -/
theorem doViAssign_ok {vi : Nat} {sources : List SrcId} {comps models : List Nat} {maxPriority : Nat} {shares : List Nat} {rb : Nat} (h0 : 0 < vi) (h255 : vi ≤ 255)
    (hst : (s.vi vi).st = .unassigned) (hr : rightsOk sources comps models maxPriority shares rb = true) :
    doViAssign vi sources comps models maxPriority shares rb s = adhOk (s.updVi vi fun _ => { st := .active, rights :=
      { compositions := comps, models := models, maxPriority := maxPriority, shares := shares, sources := sources, bits := rb } }) :=
  if_neg (by push Not; exact ⟨by omega, h255, hst, by simp [hr]⟩)

/-- Rights in their ranges, for a VI that is assigned. -/
theorem doRightsSet_ok {vi : Nat} {sources : List SrcId} {comps models : List Nat} {maxPriority : Nat} {shares : List Nat} {rb : Nat} (h0 : 0 < vi) (h255 : vi ≤ 255)
    (hst : (s.vi vi).st ≠ .unassigned) (hr : rightsOk sources comps models maxPriority shares rb = true) :
    doRightsSet vi sources comps models maxPriority shares rb s = adhOk (s.updVi vi fun x => { x with rights :=
      { compositions := comps, models := models, maxPriority := maxPriority, shares := shares, sources := sources, bits := rb } }) :=
  if_neg (by push Not; exact ⟨by omega, h255, hst, by simp [hr]⟩)

/-- An ACTIVE VI released by itself or by an operator is QUIESCING, whatever of its work ends at once. -/
theorem doViRelease_quiesces {vi : Nat} (hc : s.isOperator c = true ∨ vi = c.vi) (h0 : 0 < vi) (h255 : vi ≤ 255) (hst : (s.vi vi).st = .active) :
    ∃ t, doViRelease c vi s = ⟨.adhAccepted, 0, [], t⟩ ∧ (t.vi vi).st = .quiescing := by
  have hmay : (!s.isOperator c && vi != c.vi) = false := by
    rcases hc with ho | rfl
    · simp [ho]
    · simp
  refine ⟨_, (if_neg (by simp [hmay])).trans (if_neg (by push Not; exact ⟨by omega, h255, hst⟩)), (State.withdraw_viSt _ _ _).trans ?_⟩
  exact congrArg Vi.st (Tbl.at_set_same _ _ _ _)

/-- A queue whose fields are in range, whose rings lie in the VI's regions and that its class has room for is created ACTIVE. -/
theorem doQueueCreate_ok {cls q ringBase ringLog2 cplBase priority : Nat} {phaseG : Bool} {notify : Nat} (h1 : 1 ≤ cls) (h6 : cls ≤ 6) (hq : q ≤ 15)
    (hst : (s.queue (c.vi, cls, q)).st = .disabled) (hlo : 6 ≤ ringLog2) (hhi : ringLog2 ≤ 16) (hring : ringBase % (64 * 2 ^ ringLog2) = 0)
    (hcpl : cplBase % (32 * 2 ^ ringLog2) = 0) (hn : addrNode ringBase = s.node) (hn' : addrNode cplBase = s.node) (hp : priority ≤ 3)
    (hmax : (s.vi c.vi).rights.maxPriority ≤ priority) (hnotify : notify % 64 = 0)
    (hroom : (s.work.queues.filter (fun e => e.1.2.1 == cls && e.2.st != .disabled)).length < (classSize cls).2)
    (hcov : s.covers c.vi ringBase (64 * 2 ^ ringLog2) (rRing + rRd) = true) (hcov' : s.covers c.vi cplBase (32 * 2 ^ ringLog2) (rRing + rWr) = true) :
    doQueueCreate c cls q ringBase ringLog2 cplBase priority phaseG none notify s = adhOk (s.setQueue (c.vi, cls, q) {
      st := .active, ringBase := ringBase, ringLog2 := ringLog2, cplBase := cplBase, priority := priority, phaseG := phaseG, inst := none, notifyAddr := notify, fmt := (s.vi c.vi).fmtSelect }) := by
  unfold doQueueCreate
  extract_lets k n
  rw [if_neg (by push Not; exact ⟨by omega, h6, hq, hst, hlo, hhi, hring, hcpl, hn, hn', hp, hmax, hnotify, by simp⟩), if_neg (Nat.not_le.mpr hroom),
    if_neg (by simp [n, hcov]), if_neg (by simp [n, hcov'])]

/-- A queue that is ACTIVE or in ERROR may be destroyed: it drains. -/
theorem doQueueDestroy_drains {cls q : Nat} (hst : (s.queue (c.vi, cls, q)).st = .active ∨ (s.queue (c.vi, cls, q)).st = .error) :
    ∃ t, doQueueDestroy c cls q s = ⟨.adhAccepted, 0, [], t⟩ ∧ (t.queue (c.vi, cls, q)).st = .draining ∧ t.mem = s.mem := by
  have hok : ¬ ((s.queue (c.vi, cls, q)).st = .disabled ∨ (s.queue (c.vi, cls, q)).st = .draining) := by
    rcases hst with h | h <;> simp [h]
  exact ⟨_, if_neg hok, congrArg Queue.st (Tbl.at_set_same _ _ _ _), rfl⟩

/-- A queue in ERROR that no reset waits for takes one. -/
theorem doQueueReset_waits {cls q cmdIndex cplIndex : Nat} (hst : (s.queue (c.vi, cls, q)).st = .error) (hnone : (s.queue (c.vi, cls, q)).resetOp = none) :
    doQueueReset c cls q cmdIndex cplIndex s = ⟨.adhAccepted, 0, [], s.setQueue (c.vi, cls, q) { s.queue (c.vi, cls, q) with
      resetOp := some (cmdIndex, cplIndex, s.refOf c 0x0205) }⟩ :=
  if_neg (by simp [hst, hnone])

/-- A pair of model and composition that no slot holds is loaded into the lowest slot that is EMPTY. -/
theorem doContextLoad_lowest {model comp headDim layers kvHeads qPerKv cbDir wtDir n : Nat} (hm : model < 2 ^ 32) (h0 : 0 < comp) (h1 : comp < 65535)
    (hd : ([64, 96, 128, 192, 256] : List Nat).contains headDim = true) (hl : 0 < layers) (hl' : layers ≤ 1024) (hk : 0 < kvHeads) (hk' : kvHeads ≤ 256)
    (hq : 0 < qPerKv) (hcb : cbDir % 64 = 0) (hwt : wtDir % 64 = 0) (hnode : addrNode cbDir = s.node)
    (hheld : s.work.ctxs.all (fun x => x.2.st == .empty || x.2.f.model != model || x.2.f.composition != comp) = true) (hn : n < 64)
    (he : (s.ctx n).st = .empty) (hlow : ∀ k, k < n → (s.ctx k).st ≠ .empty) :
    doContextLoad c model comp headDim layers kvHeads qPerKv cbDir wtDir s = ⟨.adhAccepted, 0, [], { s with work := { s.work with ctxs := Tbl.set s.work.ctxs n {
      st := .loading, f := { model := model, composition := comp, headDim := headDim, layers := layers, kvHeads := kvHeads, qPerKv := qPerKv, codebookDir := cbDir, weightDir := wtDir }
      loadOp := s.refIf c 0x0301 } } }⟩ := by
  have hnone : s.work.ctxs.find? (fun x => x.2.st != .empty && x.2.f.model == model && x.2.f.composition == comp) = none := by
    simp only [List.find?_eq_none, List.all_eq_true] at hheld ⊢
    intro x hx
    have := hheld x hx
    simp only [Bool.or_eq_true, beq_iff_eq, bne_iff_ne] at this
    simp only [Bool.and_eq_true, bne_iff_ne, beq_iff_eq]
    tauto
  have hlowest : (List.range 64).find? (fun n => (s.ctx n).st == .empty) = some n := by
    simp only [List.find?_range_eq_some, List.mem_range, beq_iff_eq, Bool.not_eq_true', beq_eq_false_iff_ne]
    exact ⟨he, hn, hlow⟩
  simp only [doContextLoad, hnone, hlowest]
  exact if_neg (by push Not; exact ⟨hm, by omega, h1, by rw [hd]; decide, by omega, hl', by omega, hk', by omega, hcb, hwt, hnode⟩)

/-- A slot that is READY or LOADING, of a model the VI's rights list, is bound to a free index. -/
theorem doContextBind_ok {slot index : Nat} (hs : slot < 64) (hi : index < 16) (hst : (s.ctx slot).st = .ready ∨ (s.ctx slot).st = .loading)
    (hr : c.vi = 0 ∨ (s.vi c.vi).rights.models.contains (s.ctx slot).f.model = true) (hfree : Tbl.has (s.vi c.vi).ctxMap index = false) :
    doContextBind c slot index s = adhOk (s.updVi c.vi fun v => { v with ctxMap := Tbl.set v.ctxMap index slot }) := by
  have hne : (s.ctx slot).st ≠ .empty ∧ (s.ctx slot).st ≠ .unloading := by
    rcases hst with h | h <;> simp [h]
  have hmodel : ¬ (c.vi ≠ 0 ∧ (!(s.vi c.vi).rights.models.contains (s.ctx slot).f.model) = true) := by
    rcases hr with h | h
    · simp [h]
    · simp only [h, Bool.not_true, Bool.false_eq_true, and_false, not_false_eq_true]
  unfold doContextBind
  extract_lets x
  rw [if_neg (by push Not; exact ⟨by omega, by omega, hne.1⟩), if_neg hmodel, if_neg hne.2, if_neg (by simp [hfree])]

/-- A slot's loss of a binding leaves every VI as it stands. -/
@[simp] theorem State.unbound_vis (s : State) (slot : Nat) : (s.unbound slot).work.vis = s.work.vis := ite_keeps (·.work.vis) rfl rfl

/-- An index that is bound is unbound. -/
theorem doContextUnbind_unbinds {slot index : Nat} (hslot : Tbl.get (s.vi c.vi).ctxMap index = some slot) :
    ∃ t, doContextUnbind c index s = adhOk t ∧ Tbl.get (t.vi c.vi).ctxMap index = none := by
  refine ⟨(s.updVi c.vi fun v => { v with ctxMap := Tbl.del v.ctxMap index }).unbound slot, by simp only [doContextUnbind, hslot], ?_⟩
  rw [State.vi, State.unbound_vis, ← State.vi, State.updVi_vi_same, Tbl.get_del_same]

end Sys2Proof.Machine
end

section
open Sys2Proof Sys2Proof.Machine

/-- Settles O32: each operation's checks pass on the premises; what it changed of its VI, queue, engine or slot is read back from the state its answer leaves. -/
theorem viAndQueueOperations : Obligations.ViAndQueueOperations := by
  refine ⟨?assign, ?rights, ?release, ?create, ?destroy, ?reset, ?engine, ?phase, ?load, ?bind, ?unbind⟩
  case assign =>
    intro c vi sources comps models maxPriority shares rb s ha h0 h255 hst hr
    refine ⟨_, does_order (i := .adhViAssign c vi sources comps models maxPriority shares rb) rfl ha (doViAssign_ok h0 h255 hst hr), ?_⟩
    simp
  case rights =>
    intro c vi sources comps models maxPriority shares rb s ha h0 h255 hst hr
    refine ⟨_, does_order (i := .adhRightsSet c vi sources comps models maxPriority shares rb) rfl ha (doRightsSet_ok h0 h255 hst hr), ?_⟩
    simp
  case release =>
    intro c vi s ha hc h0 h255 hst
    obtain ⟨t, hg, hq⟩ := doViRelease_quiesces hc h0 h255 hst
    obtain ⟨a, l, hd⟩ := does_answered (i := .adhViRelease c vi) rfl ha hg nofun
    exact ⟨_, hd, hq⟩
  case create =>
    intro c cls q ringBase ringLog2 cplBase priority phaseG notify s ha h1 h6 hq hst hlo hhi hring hcpl hn hn' hp hmax hnotify hroom hcov hcov'
    obtain ⟨a, l, hd⟩ := does_answered (i := .adhQueueCreate c cls q ringBase ringLog2 cplBase priority phaseG none notify) rfl ha.1
      (doQueueCreate_ok h1 h6 hq hst hlo hhi hring hcpl hn hn' hp hmax hnotify hroom hcov hcov') nofun
    exact ⟨_, hd, Tbl.at_set_same _ _ _ _, rfl⟩
  case destroy =>
    intro c cls q s ha hst
    obtain ⟨t, hg, hdrain, hmem⟩ := doQueueDestroy_drains hst
    obtain ⟨a, l, hd⟩ := does_answered (i := .adhQueueDestroy c cls q) rfl ha.1 hg nofun
    exact ⟨_, hd, hdrain, hmem⟩
  case reset =>
    intro c cls q cmdIndex cplIndex s ha hst hnone
    obtain ⟨a, l, hd⟩ := does_answered (i := .adhQueueReset c cls q cmdIndex cplIndex) rfl ha.1 (doQueueReset_waits hst hnone) nofun
    exact ⟨_, hd, congrArg (fun x : Queue => x.resetOp.map fun r => (r.1, r.2.1)) (Tbl.at_set_same _ _ _ _), rfl⟩
  case engine =>
    intro c cls i threshold s ha h1 h4 hi hlo hhi
    have hg : doEngineConfig cls i threshold s = adhOk _ := if_neg (by push Not; exact ⟨by omega, h4, hi, hlo, hhi⟩)
    obtain ⟨a, l, hd⟩ := does_answered (i := .adhEngineConfig c cls i threshold) rfl ha hg nofun
    exact ⟨_, hd, Tbl.at_set_same _ _ _ _, rfl⟩
  case phase =>
    intro c cls i floorG floorP s ha hcls hi hG hP
    have hg : doPhaseShare cls i floorG floorP s = adhOk _ := if_neg (by push Not; exact ⟨fun h => hcls.resolve_left h, hi, hG, hP⟩)
    obtain ⟨a, l, hd⟩ := does_answered (i := .adhPhaseShare c cls i floorG floorP) rfl ha hg nofun
    exact ⟨_, hd, Tbl.at_set_same _ _ _ _, rfl⟩
  case load =>
    intro c model comp headDim layers kvHeads qPerKv cbDir wtDir n s ha hm h0 h1 hdim hl hl' hk hk' hq hcb hwt hnode hheld hn he hlow
    obtain ⟨a, l, hd⟩ := does_answered (i := .adhContextLoad c model comp headDim layers kvHeads qPerKv cbDir wtDir) rfl ha
      (doContextLoad_lowest hm h0 h1 hdim hl hl' hk hk' hq hcb hwt hnode hheld hn he hlow) nofun
    exact ⟨_, hd, congrArg Ctx.st (Tbl.at_set_same _ _ _ _), congrArg Ctx.f (Tbl.at_set_same _ _ _ _), rfl⟩
  case bind =>
    intro c slot index s ha hs hi hst hr hfree
    obtain ⟨a, l, hd⟩ := does_answered (i := .adhContextBind c slot index) rfl ha.1 (doContextBind_ok hs hi hst hr hfree) nofun
    exact ⟨_, hd, (congrArg (fun v : Vi => Tbl.get v.ctxMap index) (Tbl.at_set_same _ _ _ _)).trans (Tbl.get_set_same _ _ _), rfl⟩
  case unbind =>
    intro c slot index s ha hslot
    obtain ⟨t, hg, hnone⟩ := doContextUnbind_unbinds hslot
    obtain ⟨a, l, hd⟩ := does_answered (i := .adhContextUnbind c index) rfl ha.1 hg nofun
    exact ⟨_, hd, hnone⟩
end

section
/-! SUPPORT. An admitted request of the register space is performed and answered (R288 to R292): what of the block it reaches, and which register line its
address names (R61, R314, R393). -/

namespace Sys2Proof.Machine
open Sys2Proof

variable {s : State} {p : Packet} {port a v m l n off : Nat} {bs : List Byte}

/-! ### What arrival and answer leave -/

/-- Taking a packet from its receive buffer changes the links and the ledger alone. -/
theorem State.consume_frame (s : State) (port : Nat) (p : Packet) : ∃ x d, s.consume port p = { s with lnk := x, led := d } := by
  have hdrain : ∀ (t : State) (x : Links) (d : Ledger), t = { s with lnk := x, led := d } → ∃ x d, t.drainPools port = { s with lnk := x, led := d } := by
    rintro t x d rfl
    unfold State.drainPools
    extract_lets y gone s1
    split
    · exact ⟨x, d, rfl⟩
    · have hs1 : ∃ d, s1 = { s with lnk := x, led := d } :=
        List.foldlRecOn (motive := fun t : State => ∃ d, t = { s with lnk := x, led := d }) gone _ ⟨d, rfl⟩ fun t ht e _ => by
          obtain ⟨d, rfl⟩ := ht
          exact ⟨_, rfl⟩
      obtain ⟨d', hd⟩ := hs1
      rw [hd]
      exact ⟨_, d', rfl⟩
  unfold State.consume
  extract_lets y i s1
  split
  · exact ⟨s.lnk, s.led, rfl⟩
  · exact hdrain _ _ _ rfl

/-- Before a request is performed, the links, the ledger and the fabric's state alone have changed. -/
theorem State.taken_frame (s : State) (port : Nat) (p : Packet) : ∃ x d f, s.taken port p = { s with lnk := x, led := d, fab := f } := by
  obtain ⟨x, d, h⟩ := s.consume_frame port p
  unfold State.taken State.heard
  rw [h]
  split
  · exact ⟨x, d, _, rfl⟩
  · exact ⟨x, d, s.fab, rfl⟩

/-- The fields that a request's arrival leaves. -/
@[simp] theorem State.taken_fields (s : State) (port : Nat) (p : Packet) : (s.taken port p).work = s.work ∧ (s.taken port p).adh = s.adh ∧
    (s.taken port p).mem = s.mem ∧ (s.taken port p).now = s.now ∧ (s.taken port p).node = s.node ∧ (s.taken port p).boot = s.boot ∧
    (s.taken port p).pkg = s.pkg := by
  obtain ⟨x, d, f, h⟩ := s.taken_frame port p
  rw [h]
  exact ⟨rfl, rfl, rfl, rfl, rfl, rfl, rfl⟩

/-- The block's work, Adeah's state and memory: what a packet reaches only where it is performed. -/
def State.interior (s : State) : Work × Adeah × List Host.Cell := (s.work, s.adh, s.mem)

theorem State.enqueue_interior (s : State) (port : Nat) (p : Packet) : (s.enqueue port p).interior = s.interior := by
  obtain ⟨x, y, h⟩ := s.enqueue_frame port p
  rw [h]
  rfl

theorem State.pickPath_interior (s : State) (p : Packet) : (s.pickPath p).2.interior = s.interior := by
  obtain ⟨f, h⟩ := s.pickPath_frame p
  rw [h]
  rfl

theorem State.emit_interior (s : State) (p : Packet) : (s.emit p).interior = s.interior := by
  obtain ⟨x, y, h⟩ := s.emit_frame p
  rw [h]
  rfl

theorem State.answerPkt_interior (s : State) (p : Packet) (st : Status) (data : List Byte) (hit : Bool) : (s.answerPkt p st data hit).interior = s.interior := by
  unfold State.answerPkt
  extract_lets a
  split
  · split
    · exact s.enqueue_interior _ a
    · rfl
  · exact (State.emit_interior _ _).trans (s.pickPath_interior a)

/-- An admitted request is performed; recording and answering it leave what it reached. -/
theorem State.receive_admitted (h : Admitted port p s) : (s.receive port p).interior = ((s.taken port p).perform p).s.interior := by
  obtain ⟨hpol, hform, hcrc, hdst, hkept, hcarried, htarget, -, hap⟩ := h
  have hnode : p.dst = (s.taken port p).node := by simpa using hdst
  have hin : s.receive port p = (s.taken port p).performAnswer p := by
    rw [State.receive, State.ingress, hpol]
    show State.receiveIn s port p = _
    unfold State.receiveIn
    rw [← State.taken]
    simp only [hform, hcrc, hkept, hcarried, htarget, Bool.not_true, Bool.false_eq_true, if_false, ne_eq, ← hnode, not_true_eq_false]
  rw [hin, State.performAnswer, hap]
  exact (State.answerPkt_interior _ _ _ _ _).trans (ite_keeps State.interior (ite_keeps State.interior rfl rfl) rfl)

/-- An admitted store to the register space stores its line, and leaves nothing else of the block changed. -/
theorem State.receive_store (h : Admitted port p s) (hty : p.ty = .store) (hsp : addrSpace p.addr = 4 ∨ addrSpace p.addr = 5) :
    (s.receive port p).interior = ((s.taken port p).regStore p.addr p.payload).2.interior := by
  obtain ⟨-, -, -, -, -, -, -, hform, -⟩ := id h
  rw [State.receive_admitted h, State.perform]
  simp only [hform, hsp, hty, Bool.false_eq_true, if_false, if_true]

/-- An admitted FETCH_ADD to the register space raises its counter, and leaves nothing else of the block changed. -/
theorem State.receive_fetchAdd (h : Admitted port p s) (hty : p.ty = .fetchAdd) (hsp : addrSpace p.addr = 4 ∨ addrSpace p.addr = 5) :
    (s.receive port p).interior = ((s.taken port p).setCounter (counterOf (addrOff p.addr)).1 (counterOf (addrOff p.addr)).2
      ((s.taken port p).counter (counterOf (addrOff p.addr)).1 (counterOf (addrOff p.addr)).2 + p.operand)).interior := by
  obtain ⟨-, -, -, -, -, -, -, hform, -⟩ := id h
  rw [State.receive_admitted h, State.perform]
  simp only [hform, hsp, hty, Bool.false_eq_true, if_false, if_true]

/-- A request that an admitted packet makes is no response. -/
theorem resp_of_admitted (h : Admitted port p s) : p.resp = false := by
  obtain ⟨-, hform, -⟩ := h
  simp only [requestFormOk, Bool.and_eq_true, Bool.not_eq_true'] at hform
  exact hform.1

/-! ### The line an address names -/

/-- An offset within a VI's page names that page and the line (R61). -/
theorem page_split (hv : v < 256) (ho : off < 65536) :
    v * 65536 + off < 0x1000000 ∧ (v * 65536 + off) / 0x10000 = v ∧ (v * 65536 + off) % 0x10000 = off := by omega

theorem State.regStore_page (hsp : addrSpace a = 4) (hv : v < 256) (ho : off < 65536) (ha : addrOff a = v * 65536 + off) :
    s.regStore a bs = s.pageStore v off bs := by
  obtain ⟨hlow, hpage, hline⟩ := page_split hv ho
  simp only [State.regStore, ha, hsp, hlow, hpage, hline, if_true]
  rfl

/-- A mailbox's lines in the mailbox space (R393). -/
theorem State.regStore_mailbox (hsp : addrSpace a = 5) (hm : m < 4) (ha : addrOff a = v * 16384 + m * 4096) :
    s.regStore a bs = (.ok, s.mboxStore v m 0 bs) := by
  have hbox : (v * 16384 + m * 4096) / 0x4000 = v ∧ (v * 16384 + m * 4096) % 0x4000 / 0x1000 = m ∧ (v * 16384 + m * 4096) % 0x1000 / 64 = 0 := by omega
  simp only [State.regStore, ha, hsp, hbox, if_true]

/-- A trigger counter's line (R314). -/
theorem counterOf_line (hn : n < 64) : counterOf (16777216 + v * 4096 + n * 64) = (v, n) := by
  simp only [counterOf, Prod.mk.injEq]
  omega

theorem State.regStore_counter (hsp : addrSpace a = 4) (hn : n < 64) (ha : addrOff a = 16777216 + v * 4096 + n * 64) :
    s.regStore a bs = (.ok, s.setCounter v n (word (wordsOf 1 bs) 0)) := by
  have hlow : ¬ 16777216 + v * 4096 + n * 64 < 0x1000000 := by omega
  simp only [State.regStore, ha, hsp, hlow, counterOf_line hn, if_false]
  rfl

/-- A doorbell's line in its page (R70). -/
theorem State.pageStore_doorbell {c q : Nat} (h1 : 1 ≤ c) (h6 : c ≤ 6) (hq : q < 16) :
    s.pageStore v (8192 + ((c - 1) * 16 + q) * 64) bs = s.doorbell v c q (word (wordsOf 8 bs) 0) := by
  have hline : ¬ 8192 + ((c - 1) * 16 + q) * 64 = 0 ∧ (0x2000 ≤ 8192 + ((c - 1) * 16 + q) * 64 ∧ 8192 + ((c - 1) * 16 + q) * 64 < 0x3800) ∧
      (8192 + ((c - 1) * 16 + q) * 64 - 0x2000) / 64 / 16 + 1 = c ∧ (8192 + ((c - 1) * 16 + q) * 64 - 0x2000) / 64 % 16 = q := by omega
  obtain ⟨hne, hdoor, hc, hq'⟩ := hline
  simp only [State.pageStore, if_neg hne, if_pos hdoor, hc, hq']

/-- A line of a page below its doorbells that is not the first keeps its value (R9, R62). -/
theorem State.pageStore_readOnly (h0 : 64 ≤ off) (h1 : off < 8192) : s.pageStore v off bs = (.ok, s) := by
  simp only [State.pageStore]
  rw [if_neg (by omega), if_neg (by omega), if_neg (by omega)]

/-- A mailbox's line in its page (R61). -/
theorem State.pageStore_mailbox (hm : m < 4) (hl : l < 64) : s.pageStore v (49152 + m * 4096 + l * 64) bs = (.ok, s.mboxStore v m l bs) := by
  have hbox : (49152 + m * 4096 + l * 64 - 0xC000) / 0x1000 = m ∧ (49152 + m * 4096 + l * 64) % 0x1000 / 64 = l := by omega
  simp only [State.pageStore, hbox]
  rw [if_neg (by omega), if_neg (by omega), if_pos (by omega)]

end Sys2Proof.Machine
end

section
/-! SUPPORT. What a store to a register line does: doorbells, formats, mailboxes and trigger counters (R63, R70 to R74, R314, R395). -/

namespace Sys2Proof.Machine
open Sys2Proof

variable {s t : State} {v m n : Nat} {bs : List Byte}

/-! ### Reading the registers -/

/-- Trigger counters and mailboxes are read from their tables alone. -/
theorem State.counter_congr (h : t.work.vis = s.work.vis) (v n : Nat) : t.counter v n = s.counter v n := by
  rw [State.counter, State.vi_congr h, State.counter]

theorem State.mbox_congr (h : t.adh.mailboxes = s.adh.mailboxes) (v m : Nat) : t.mbox v m = s.mbox v m := by
  rw [State.mbox, h, State.mbox]

@[simp] theorem State.setMbox_mbox_same (s : State) (v m : Nat) (x : Mailbox) : (s.setMbox v m x).mbox v m = x := Tbl.at_set_same _ _ _ _

/-! ### Doorbells (R70, R72, R74) -/

/-- A queue that errs keeps its indices. -/
theorem State.queueError_queue (s : State) (k : QKey) (reason : Nat) :
    (s.queueError k reason).queue k = { s.queue k with st := .error, reason := reason, reread := none } := by
  exact (State.queue_congr (by simp [State.queueError]; rfl) k).trans (State.setQueue_queue_same _ _ _)

/-- The index a queue has after a doorbell: the one written, unless it is stale. -/
def freshIndex (old new : Nat) : Nat := if 2 ^ 31 ≤ sub32 new old then old else new

/-- A doorbell of a queue that is ACTIVE moves the indices that are not stale, and the queue errs on one out of range. -/
theorem State.doorbell_active {c q w : Nat} {x y : Queue} (hv : (s.vi v).st = .active) (hx : x = s.queue (v, c, q)) (hst : x.st = .active)
    (hy : y = (s.doorbell v c q w).2.queue (v, c, q)) :
    y.cmdTail = freshIndex x.cmdTail (bits w 31 0) ∧ y.cplHead = freshIndex x.cplHead (bits w 63 32) ∧
    (y.st = .error ↔ 2 ^ x.ringLog2 < sub32 y.cmdTail x.cmdHead ∨ sub32 x.cplTail x.cplHead < sub32 y.cplHead x.cplHead) := by
  subst hx
  unfold State.doorbell at hy
  extract_lets k z tail head staleT staleH j tail' head' moved x' s1 s2 at hy
  rw [if_neg (by push Not; exact ⟨hv, hst⟩)] at hy
  have htail : tail' = freshIndex z.cmdTail tail := by simp [tail', staleT, freshIndex]
  have hhead : head' = freshIndex z.cplHead head := by simp [head', staleH, freshIndex]
  have hs2 : s2.queue k = x' := by
    have hq : s2.work.queues = s1.work.queues := ite_keeps (·.work.queues) rfl (by simp)
    exact (State.queue_congr hq k).trans (State.setQueue_queue_same _ _ _)
  have herr : ∀ r, (s2.queueError k r).queue k = { x' with st := .error, reason := r, reread := none } := fun r => by rw [State.queueError_queue, hs2]
  split at hy
  next hover =>
    rw [herr] at hy
    subst hy
    exact ⟨htail, hhead, fun _ => .inl hover, fun _ => rfl⟩
  next hover =>
  split at hy
  next hpast =>
    rw [herr] at hy
    subst hy
    exact ⟨htail, hhead, fun _ => .inr hpast, fun _ => rfl⟩
  next hpast =>
    rw [hs2] at hy
    subst hy
    exact ⟨htail, hhead, fun h => absurd (hst.symm.trans h) nofun, fun h => (h.elim hover hpast).elim⟩

/-! ### Mailboxes (R395) -/

/-- What a mailbox holds of its last accepted request. -/
def Mailbox.accepted (x : Mailbox) : Option Nat × List Nat × Nat := (x.lastSeq, x.header, x.acceptT)

/-- Answering a mailbox keeps what it holds of its last accepted request. -/
theorem State.mboxAnswer_accepted (s : State) (v m q op : Nat) (st : Status) (result handle : Nat) (body : List Nat) :
    ((s.mboxAnswer v m q op st result handle body).mbox v m).accepted = (s.mbox v m).accepted := by
  unfold State.mboxAnswer
  extract_lets x bs h h' far _ s1
  have hs1 : (s1.mbox v m).accepted = (s.mbox v m).accepted := (congrArg Mailbox.accepted (State.setMbox_mbox_same s v m _)).trans rfl
  split
  · exact hs1
  · exact hs1

/-- A header stored to a busy mailbox is discarded and counted. -/
theorem State.headerStore_busy (hb : (s.mbox v m).busy = true) :
    s.headerStore v m bs = s.setMbox v m { s.mbox v m with dropped := sat 255 ((s.mbox v m).dropped + 1) } := by
  simp only [State.headerStore, hb, if_true]

/-- A header with a new sequence number, stored to an IDLE mailbox while Adeah runs, is accepted, whatever it is answered at once. -/
theorem State.headerStore_accepts (hb : (s.mbox v m).busy = false) (hup : s.adeahUp = true) (hnew : (s.mbox v m).lastSeq ≠ some (fld (wordsOf 8 bs) 0 31 16)) :
    ((s.headerStore v m bs).mbox v m).accepted = (some (fld (wordsOf 8 bs) 0 31 16), wordsOf 8 bs, s.now) := by
  unfold State.headerStore
  extract_lets x w seq y s1
  rw [if_neg (by simp [x, hb]), if_neg (by simp [hup]), if_neg hnew]
  have hs1 : (s1.mbox v m).accepted = (some seq, w, s.now) := congrArg Mailbox.accepted (State.setMbox_mbox_same _ _ _ _)
  split
  · exact hs1
  next st r _ =>
    extract_lets s2
    have hs2 : s2.adh.mailboxes = s1.adh.mailboxes := by
      refine ite_keeps (·.adh.mailboxes) ?_ rfl
      obtain ⟨a, l, w', m', h, hboxes, -⟩ := s1.violate_frame v s.node 63 (word w 1) 3 (fld w 0 63 48) 1
      rw [h]
      exact hboxes
    rw [State.mboxAnswer_accepted, State.mbox_congr hs2, hs1]

/-! ### Trigger counters (R314) -/

/-- A counter that is set holds the value modulo 2^64, whatever arms fire; memory stands. -/
theorem State.setCounter_counter (s : State) (v n count : Nat) : (s.setCounter v n count).counter v n = u64 count ∧ (s.setCounter v n count).mem = s.mem := by
  unfold State.setCounter
  generalize hset : s.updVi v (fun x => { x with triggers := Tbl.set x.triggers n (u64 count) }) = s0
  have hfire : ((s0.fireArms v n).work.vis, (s0.fireArms v n).mem) = (s0.work.vis, s0.mem) := by
    unfold State.fireArms
    extract_lets k fired _ s1
    exact foldl_keeps (fun t => (t.work.vis, t.mem)) _ _ s1 fun t a => by simp
  obtain ⟨hvis, hmem⟩ := Prod.mk.inj hfire
  refine ⟨?_, hmem.trans (by simp [← hset])⟩
  rw [State.counter_congr hvis, ← hset, State.counter, State.updVi_vi_same]
  exact Tbl.at_set_same _ _ _ _

/-- A run of bytes is below the power of 256 of its length. -/
theorem valOf_lt (bs : List Byte) : valOf bs < 256 ^ bs.length := by
  induction bs with
  | nil => decide
  | cons b bs ih =>
    have hb := b.isLt
    simp only [valOf, List.foldr_cons, List.length_cons, pow_succ] at ih ⊢
    omega

/-- A word of a run of bytes fits 64 bits. -/
theorem word_wordsOf_lt (n i : Nat) (bs : List Byte) : word (wordsOf n bs) i < 2 ^ 64 := by
  have hword : ∀ j, valOf ((bs.drop (8 * j)).take 8) < 2 ^ 64 := fun j =>
    lt_of_lt_of_le (valOf_lt _) (le_trans (Nat.pow_le_pow_right (by decide) (List.length_take_le 8 _)) (by decide))
  by_cases hi : i < n
  · simpa [word, wordsOf, hi] using hword i
  · simp [word, wordsOf, hi]

/-! ### Carrying out a store -/

/-- Two states alike inside are alike in the block's work, Adeah's state and memory. -/
theorem interior_eq (h : t.interior = s.interior) : t.work = s.work ∧ t.adh = s.adh ∧ t.mem = s.mem := by
  simpa [State.interior] using h

/-- The registers do not depend on what a packet changes as it arrives. -/
@[simp] theorem State.taken_queue (s : State) (port : Nat) (p : Packet) (k : QKey) : (s.taken port p).queue k = s.queue k :=
  State.queue_congr (by simp) k
@[simp] theorem State.taken_vi (s : State) (port : Nat) (p : Packet) (v : Nat) : (s.taken port p).vi v = s.vi v := State.vi_congr (by simp) v
@[simp] theorem State.taken_mbox (s : State) (port : Nat) (p : Packet) (v m : Nat) : (s.taken port p).mbox v m = s.mbox v m :=
  State.mbox_congr (by simp) v m
@[simp] theorem State.taken_counter (s : State) (port : Nat) (p : Packet) (v n : Nat) : (s.taken port p).counter v n = s.counter v n :=
  congrArg (fun x : Vi => Tbl.at x.triggers n 0) (s.taken_vi port p v)
@[simp] theorem State.taken_adeahUp (s : State) (port : Nat) (p : Packet) : (s.taken port p).adeahUp = s.adeahUp := by
  simp [State.adeahUp]

section
variable {i : Instr} {g : State → State} {p : Packet} (hi : exec i s = .next (s.whenLive g)) (hu : Up s) (hadm : Admitted 255 p s)
include hi hu hadm

/-- A command that an admitted STORE of the register space is received by stores its line, and leaves nothing else of the block changed. -/
theorem does_store (hg : isStore p = true → g s = s.receive 255 p) (hty : p.ty = .store) (hsp : addrSpace p.addr = 4 ∨ addrSpace p.addr = 5) :
    ∃ t, Does i s t ∧ t.interior = ((s.taken 255 p).regStore p.addr p.payload).2.interior :=
  ⟨_, does_live hi hu (hg (by simp [isStore, hty, resp_of_admitted hadm])), State.receive_store hadm hty hsp⟩

/-- A command that an admitted FETCH_ADD of a trigger counter is received by adds to the counter, and leaves nothing else of the block changed. -/
theorem does_fetchAdd (hg : p.resp = false → g s = s.receive 255 p) (hty : p.ty = .fetchAdd) (hsp : addrSpace p.addr = 4) (hn : n < 64)
    (ha : addrOff p.addr = 16777216 + v * 4096 + n * 64) :
    ∃ t, Does i s t ∧ t.interior = ((s.taken 255 p).setCounter v n (s.counter v n + p.operand)).interior := by
  have h := State.receive_fetchAdd hadm hty (.inl hsp)
  rw [ha, counterOf_line hn, State.taken_counter] at h
  exact ⟨_, does_live hi hu (hg (resp_of_admitted hadm)), h⟩
end

/-! ### Which command an address is for -/

variable {a off : Nat}

theorem isHeaderLine_of_mailbox (hsp : addrSpace a = 5) (ha : addrOff a = v * 16384 + m * 4096) : isHeaderLine a = true := by
  have hline : addrOff a % 0x1000 / 64 = 0 := by omega
  simp [isHeaderLine, hsp, hline]

theorem isCounter_of_line (hsp : addrSpace a = 4) (ha : addrOff a = 16777216 + v * 4096 + n * 64) : isCounter a = true := by
  have hhigh : 0x1000000 ≤ addrOff a := by omega
  simp [isCounter, hsp, hhigh]

/-- A line of a page that is no doorbell, no mailbox's header and not the first is no other command's. -/
theorem page_line_other (hsp : addrSpace a = 4) (hv : v < 256) (ha : addrOff a = v * 65536 + off) (h0 : 0 < off)
    (hoff : off < 0x2000 ∨ (0xC000 ≤ off ∧ off < 65536 ∧ off % 0x1000 / 64 ≠ 0)) :
    isDoorbell a = false ∧ isHeaderLine a = false ∧ isCounter a = false ∧ addrOff a % 0x10000 ≠ 0 := by
  simp [isDoorbell, isHeaderLine, isCounter, hsp]
  omega

end Sys2Proof.Machine
end

section
open Sys2Proof Sys2Proof.Machine

/-- Settles O25: an admitted packet of the register space changes the block only by the store or the FETCH_ADD of the line its address names. -/
theorem registerStores : Obligations.RegisterStores := by
  refine ⟨?doorbell, ?format, ?busy, ?accepted, ?counter, ?add, ?other, ?body⟩
  case doorbell =>
    intro v c q p s hu hty hsp hv h1 h6 hq ha hadm hvi hst
    have hline : isDoorbell p.addr = true := by
      simp only [isDoorbell, hsp, ha, beq_self_eq_true, Bool.true_and, Bool.and_eq_true, decide_eq_true_eq]
      omega
    obtain ⟨t, hd, hin⟩ := does_store (i := .doorbellStore p) rfl hu hadm (fun hstore => if_pos (by simp [hstore, hline])) hty (.inl hsp)
    obtain ⟨hwork, -, -⟩ := interior_eq hin
    rw [State.regStore_page (off := 8192 + ((c - 1) * 16 + q) * 64) hsp hv (by omega) (ha.trans (by omega)), State.pageStore_doorbell h1 h6 hq] at hwork
    refine ⟨t, hd, ?_⟩
    rw [State.queue_congr (congrArg Work.queues hwork)]
    exact State.doorbell_active (by simpa using hvi) (by simp) hst rfl
  case format =>
    intro v p s hu hty hsp hv ha hadm
    have hline : addrOff p.addr < 0x1000000 ∧ addrOff p.addr % 0x10000 = 0 := by omega
    obtain ⟨t, hd, hin⟩ := does_store (i := .fmtSelectWrite p) rfl hu hadm (fun hstore => if_pos (by simp [hstore, hsp, hline])) hty (.inl hsp)
    obtain ⟨hwork, -, hmem⟩ := interior_eq hin
    rw [State.regStore_page (off := 0) hsp hv (by omega) (ha.trans (by omega))] at hwork hmem
    refine ⟨t, hd, ?_⟩
    rw [State.vi_congr (congrArg Work.vis hwork), hmem]
    simp only [State.pageStore, if_true]
    split <;> simp
  case busy =>
    intro v m p s hu hty hsp hv hm ha hadm hb
    obtain ⟨t, hd, hin⟩ := does_store (i := .mailboxHeaderStore p) rfl hu hadm
      (fun hstore => if_pos (by simp [hstore, isHeaderLine_of_mailbox hsp ha])) hty (.inr hsp)
    obtain ⟨-, hadh, hmem⟩ := interior_eq hin
    rw [State.regStore_mailbox hsp hm ha, State.mboxStore, if_pos rfl, State.headerStore_busy (by simpa using hb)] at hadh hmem
    refine ⟨t, hd, ?_⟩
    rw [State.mbox_congr (congrArg Adeah.mailboxes hadh), State.setMbox_mbox_same, hmem]
    simp [hb, sat]
  case accepted =>
    intro v m p s hu hty hsp hv hm ha hadm hb hup hnew
    obtain ⟨t, hd, hin⟩ := does_store (i := .mailboxHeaderStore p) rfl hu hadm
      (fun hstore => if_pos (by simp [hstore, isHeaderLine_of_mailbox hsp ha])) hty (.inr hsp)
    obtain ⟨-, hadh, -⟩ := interior_eq hin
    rw [State.regStore_mailbox hsp hm ha, State.mboxStore, if_pos rfl] at hadh
    have hacc := State.headerStore_accepts (s := s.taken 255 p) (v := v) (m := m) (bs := p.payload) (by simpa using hb) (by simpa using hup) (by simpa using hnew)
    refine ⟨t, hd, ?_⟩
    rw [State.mbox_congr (congrArg Adeah.mailboxes hadh)]
    simpa [Mailbox.accepted] using hacc
  case counter =>
    intro v n p s hu hty hsp hv hn ha hadm
    obtain ⟨t, hd, hin⟩ := does_store (i := .triggerCounterStore p) rfl hu hadm
      (fun hstore => if_pos (by simp [hstore, isCounter_of_line hsp ha])) hty (.inl hsp)
    obtain ⟨hwork, -, hmem⟩ := interior_eq hin
    rw [State.regStore_counter hsp hn ha] at hwork hmem
    obtain ⟨hcount, hstands⟩ := (s.taken 255 p).setCounter_counter v n (word (wordsOf 1 p.payload) 0)
    refine ⟨t, hd, ?_, hmem.trans (hstands.trans (by simp))⟩
    rw [State.counter_congr (congrArg Work.vis hwork), hcount]
    exact Nat.mod_eq_of_lt (word_wordsOf_lt _ _ _)
  case add =>
    intro v n p s hu hty hsp hv hn ha hadm
    obtain ⟨t, hd, hin⟩ := does_fetchAdd (i := .triggerCounterFetchAdd p) rfl hu hadm
      (fun hreq => if_pos ⟨hty, by simp [hreq], isCounter_of_line hsp ha⟩) hty hsp hn ha
    obtain ⟨hwork, -, hmem⟩ := interior_eq hin
    obtain ⟨hcount, hstands⟩ := (s.taken 255 p).setCounter_counter v n (s.counter v n + p.operand)
    exact ⟨t, hd, (State.counter_congr (congrArg Work.vis hwork) v n).trans hcount, hmem.trans (hstands.trans (by simp))⟩
  case other =>
    intro v off p s hu hty hsp hv h0 h1 ha hadm
    have hline := page_line_other hsp hv ha (by omega) (.inl h1)
    obtain ⟨t, hd, hin⟩ := does_store (i := .registerWriteOther p) rfl hu hadm (fun hstore => if_pos (by simp [hstore, hsp, hline])) hty (.inl hsp)
    obtain ⟨hwork, hadh, hmem⟩ := interior_eq hin
    rw [State.regStore_page (off := off) hsp hv (by omega) ha, State.pageStore_readOnly h0 h1] at hwork hadh hmem
    exact ⟨t, hd, hwork.trans (by simp), hadh.trans (by simp), hmem.trans (by simp)⟩
  case body =>
    intro v m l p s hu hty hsp hv hm h0 hl ha hadm
    have ha' : addrOff p.addr = v * 65536 + (49152 + m * 4096 + l * 64) := ha.trans (by omega)
    have hline := page_line_other hsp hv ha' (by omega) (.inr (by omega))
    obtain ⟨t, hd, hin⟩ := does_store (i := .registerWriteOther p) rfl hu hadm (fun hstore => if_pos (by simp [hstore, hsp, hline])) hty (.inl hsp)
    obtain ⟨hwork, hadh, hmem⟩ := interior_eq hin
    rw [State.regStore_page hsp hv (by omega) ha', State.pageStore_mailbox hm (by omega), State.mboxStore, if_neg (by omega), if_pos hl] at hwork hadh hmem
    have hafter : t.mbox v m = (s.mbox v m).put [(l, p.payload)] := by
      rw [State.mbox_congr (congrArg Adeah.mailboxes hadh), State.setMbox_mbox_same, State.taken_mbox]
    refine ⟨t, hd, ?_, by rw [hafter]; rfl, hwork.trans (by simp), hmem.trans (by simp)⟩
    rw [State.mboxLine, hafter]
    exact Tbl.at_set_same _ _ _ _
end

section
/-! SUPPORT. What the completion step of a command leaves of the queues, memory and the blocks (R76, R78, R178). -/

namespace Sys2Proof.Machine
open Sys2Proof

variable {s : State} {cid : Nat} {c : Cmd}

/-! ### Charging and counting a job -/

/-- Charging a job's time changes its engine, its VI's account and its composition's meter alone. -/
theorem State.chargeEnd_frame (s : State) (c : Cmd) :
    ∃ i v k, s.chargeEnd c = { s with work := { s.work with insts := i, vis := v }, comps := k } := by
  unfold State.chargeEnd
  split
  · exact ⟨s.work.insts, s.work.vis, s.comps, rfl⟩
  · extract_lets measured g s1 s2
    cases s.compOf c with
    | none => exact ⟨_, _, s.comps, rfl⟩
    | some n => exact ⟨_, _, _, rfl⟩

/-- The queues, memory and the blocks. -/
def State.desk (s : State) : Tbl QKey Queue × List Host.Cell × Kv := (s.work.queues, s.mem, s.kv)

theorem State.chargeEnd_desk (s : State) (c : Cmd) : (s.chargeEnd c).desk = s.desk := by
  obtain ⟨i, v, k, h⟩ := s.chargeEnd_frame c
  rw [h]
  rfl

theorem State.account_desk (s : State) (v cls k n : Nat) : (s.account v cls k n).desk = s.desk := rfl

theorem State.tally_desk (s : State) (c : Cmd) : (s.tally c).desk = s.desk := rfl

theorem State.closeJob_desk (s : State) (u cid vi : Nat) (kept : Bool) : (s.closeJob u cid vi kept).desk = s.desk := rfl

theorem State.settle_desk (s : State) (u : Nat) : (s.settle u).desk = s.desk := by
  obtain ⟨p, h⟩ := s.settle_frame u
  rw [h]
  rfl

/-- Raising a trigger counter fires arms of other commands; the queues, memory and the blocks stand. -/
theorem State.setCounter_desk (s : State) (v n count : Nat) : (s.setCounter v n count).desk = s.desk := by
  unfold State.setCounter State.fireArms
  extract_lets k fired _ s1
  refine Eq.trans (foldl_keeps State.desk fired _ s1 fun t a => ?_) rfl
  exact State.settle_desk t _

/-! ### Slots that waited, chains and samples: what the queues and memory keep -/

@[simp] theorem State.addRef_queues (s : State) (ctx e ver : Nat) (up : Bool) : (s.addRef ctx e ver up).work.queues = s.work.queues := by
  unfold State.addRef
  extract_lets x
  split
  · rfl
  · extract_lets _
    refine ite_keeps (·.work.queues) (by simp) (ite_keeps (·.work.queues) ?_ (by simp))
    simp [State.ledgerBroken, State.raise0]

@[simp] theorem State.descRefs_queues (s : State) (da : Nat) (up : Bool) : (s.descRefs da up).work.queues = s.work.queues := by
  unfold State.descRefs
  extract_lets d
  split
  · rfl
  · split
    · rfl
    · simp

@[simp] theorem State.freeDesc_queues (s : State) (da i : Nat) : (s.freeDesc da i).work.queues = s.work.queues := by
  unfold State.freeDesc
  extract_lets slot size s1 _ s2 _ s3
  have hs1 : s1.work.queues = s.work.queues :=
    (foldl_keeps (·.work.queues) _ State.unmapSector _ fun _ _ => rfl).trans (s.descRefs_queues da false)
  simpa [State.bookSlot] using hs1

@[simp] theorem State.freeWaiting_queues (s : State) : s.freeWaiting.work.queues = s.work.queues := by
  unfold State.freeWaiting
  exact foldl_keeps (·.work.queues) _ _ _ fun t da => t.freeDesc_queues da _

/-- Where no slot waits, none is freed. -/
theorem State.freeWaiting_mem (h : s.kv.toFree = []) : s.freeWaiting.mem = s.mem := by
  simp [State.freeWaiting, h]

/-- Aborting the next command of a chain moves no index and writes no memory. -/
theorem State.chainAbort_keeps (s : State) (k : QKey) (index : Nat) :
    ((s.chainAbort k index).queue k).cplTail = (s.queue k).cplTail ∧ (s.chainAbort k index).mem = s.mem := by
  unfold State.chainAbort
  extract_lets next
  split
  · exact ⟨rfl, rfl⟩
  · exact ⟨(congrArg Queue.cplTail (s.setQueue_queue_same k _)).trans rfl, rfl⟩

@[simp] theorem State.sample_queues (s : State) (v : Nat) (c : Cmd) (st : Status) : (s.sample v c st).work.queues = s.work.queues := by
  unfold State.sample
  extract_lets x
  split
  · rfl
  · extract_lets head s1
    exact ite_keeps (·.work.queues) rfl rfl

/-- A notification is a write here or a packet; the queues stand. -/
theorem State.notify_queues (s : State) (v addr tail : Nat) : (s.notify v addr tail).work.queues = s.work.queues := by
  unfold State.notify
  extract_lets ws
  refine ite_keeps (·.work.queues) (by simp) ?_
  obtain ⟨f, l, x, h⟩ := State.sendReq_frame s {
    ty := .storeFlag, dst := addrNode addr, srcVi := v, srcEp := 63, addr := addr, winId := 0xFFF, operand := 2 ^ 64 - 1, payloadLen := 64, payload := bytesOfWords ws } (.hub 1 0) none
  rw [h]

/-! ### The completion step -/

/-- The address of a queue's next completion record (R78). -/
def Queue.recordAddr (q : Queue) : Nat := q.cplBase + q.cplTail % 2 ^ q.ringLog2 * 32

/-- A command that completes on a queue in service, whose ring is still covered, moves the queue's completion tail; where nothing else of it writes memory,
its record alone is written. -/
theorem State.completeCmd_record {st : Status} {result : Nat} {q : Queue} (hc : Tbl.get s.work.cmds cid = some c) (ho : c.outcome = some (st, result))
    (hq : q = s.queue (c.vi, c.cls, c.q)) (hst : q.st ≠ .disabled) (hcov : (c.effects.foldl State.applyPost s).covers c.vi q.recordAddr 32 (rRing + rWr) = true) :
    ((s.completeCmd cid).queue (c.vi, c.cls, c.q)).cplTail = u32 (q.cplTail + 1) ∧
    (c.effects = [] → c.samplers = [] → s.kv.toFree = [] → fld c.words 0 29 29 = 0 → (s.completeCmd cid).mem =
      memPuts s.mem q.recordAddr (bytesOfWords (cplRecord c st result s.now q.cplTail (2 ^ q.ringLog2)))) := by
  subst hq
  generalize hend : s.completeCmd cid = e
  unfold State.completeCmd at hend
  split at hend
  next hnone => exact absurd (hc.symm.trans hnone) nofun
  next d hd =>
  obtain rfl := Option.some.inj (hc.symm.trans hd)
  split at hend
  next hnone => exact absurd (ho.symm.trans hnone) nofun
  next st' result' hout =>
  obtain ⟨rfl, rfl⟩ := Prod.mk.inj (Option.some.inj (ho.symm.trans hout))
  extract_lets u k q entries addr s1 covered s2 s3 c' s4 s5 s6 s7 s8 w work t work' s9 s10 s11 s12 s13 at hend
  have hcovered : covered = true := by simp only [covered, Bool.or_eq_true]; exact .inr hcov
  have h2 : s2 = (s1.wrWords addr (cplRecord c st result s1.now q.cplTail entries)).setQueue k { q with cplTail := u32 (q.cplTail + 1) } := by
    unfold s2
    rw [if_neg hst, if_pos hcovered]
  have h3 : s3.work.queues = s2.work.queues := ite_keeps (·.work.queues) (State.notify_queues _ _ _ _) rfl
  have h5 : s5.desk = s3.desk := (State.account_desk _ _ _ _ _).trans (State.chargeEnd_desk s3 c)
  have h6 : s6.desk = s5.desk := ite_keeps State.desk rfl (State.account_desk _ _ _ _ _)
  have h7 : s7.desk = s6.desk := ite_keeps State.desk (State.account_desk _ _ _ _ _) rfl
  have h8 : s8.desk = s7.desk := ite_keeps State.desk (State.account_desk _ _ _ _ _) rfl
  have hw : w.desk = s8.desk := ite_keeps State.desk (State.settle_desk _ _) rfl
  have h9 : s9.desk = w.desk := State.tally_desk w _
  have h10 : s10.desk = s9.desk := ite_keeps State.desk (State.closeJob_desk _ _ _ _ _) rfl
  have h11 : s11.desk = s10.desk := by
    unfold s11
    split
    · exact State.setCounter_desk _ _ _ _
    · rfl
  have hdesk : s11.desk = s3.desk := by rw [h11, h10, h9, hw, h8, h7, h6, h5]
  simp only [State.desk, Prod.mk.injEq] at hdesk
  obtain ⟨hqueues, hmem, hkv⟩ := hdesk
  have h12 : s12.work.queues = s11.work.queues := State.freeWaiting_queues _
  have h13 : (s13.queue k).cplTail = (s12.queue k).cplTail ∧ s13.mem = s12.mem := Prod.mk.inj
    (ite_keeps (fun t => ((t.queue k).cplTail, t.mem)) (Prod.ext (s12.chainAbort_keeps k c.index).1 (s12.chainAbort_keeps k c.index).2) rfl)
  constructor
  · have he : e.work.queues = s13.work.queues := hend ▸ foldl_keeps (·.work.queues) _ _ s13 fun t v => t.sample_queues v c' st
    rw [State.queue_congr he, h13.1, State.queue_congr (h12.trans (hqueues.trans h3)), h2, State.setQueue_queue_same]
  · intro heffects hsamplers hfree hflag
    have hs1 : s1 = s := by simp only [s1, heffects, List.foldl_nil]
    have hs3 : s3 = s2 := if_neg (by simp [hflag])
    have hkept : s11.kv.toFree = [] := by rw [hkv, hs3, h2, hs1]; exact hfree
    have hmem12 : s12.mem = s11.mem := State.freeWaiting_mem hkept
    have hrecord : s2.mem = memPuts s.mem addr (bytesOfWords (cplRecord c st result s.now q.cplTail entries)) := by
      simp only [h2, hs1, State.setQueue_fields, State.wrWords, State.wr]
    rw [hsamplers, List.foldl_nil] at hend
    exact hend ▸ h13.2.trans (hmem12.trans (hmem.trans (hs3 ▸ hrecord)))

end Sys2Proof.Machine
end

section
/-! SUPPORT. Fetch, saving, and the ends of queues, VIs and context slots, each where its conditions hold (R59, R69, R71, R73, R79, R83). -/

namespace Sys2Proof.Machine
open Sys2Proof

variable {s : State} {vi cls q cid slot : Nat} {c : Cmd}

/-! ### Fetch (R71, R73) -/

/-- The address of a queue's command at an index (R71). -/
def Queue.cmdAddr (x : Queue) (index : Nat) : Nat := x.ringBase + index % 2 ^ x.ringLog2 * 64

/-- A command read from a ring that is covered and sound is admitted where its `seq` matches; else what a mismatch means is done. -/
theorem State.readCmd_sound {k : QKey} {index : Nat} {wrong : List Nat → State} (hcov : s.covers k.1 ((s.queue k).cmdAddr index) 64 (rRing + rRd) = true)
    (hread : s.readFault ((s.queue k).cmdAddr index) 64 = none) : s.readCmd k index wrong =
      if fld (s.rdWords ((s.queue k).cmdAddr index) 8) 0 63 48 = index % 2 ^ 16 then s.admitCmd k index (s.rdWords ((s.queue k).cmdAddr index) 8) none
      else wrong (s.rdWords ((s.queue k).cmdAddr index) 8) := by
  unfold State.readCmd
  extract_lets x a
  rw [if_neg (by simpa [a, x, Queue.cmdAddr] using hcov)]
  split
  next st hst => exact absurd (hread.symm.trans hst) nofun
  next => rfl

/-- An admitted command is listed last under the next number, as its words were read; the head is past it, and memory stands. -/
theorem State.admitCmd_lists (s : State) (k : QKey) (index : Nat) (w : List Nat) (st : Option Status) :
    ∃ c : Cmd, (s.admitCmd k index w st).work.cmds = s.work.cmds ++ [(s.work.nextCid, c)] ∧ c.index = index ∧ c.words = w ∧
      ((s.admitCmd k index w st).queue k).cmdHead = u32 (index + 1) ∧ (s.admitCmd k index w st).mem = s.mem :=
  ⟨_, rfl, rfl, rfl, congrArg Queue.cmdHead (Tbl.at_set_same _ _ _ _), rfl⟩

/-- The hub admits a command that is exposed, whose record has a place and whose `seq` is its index's. -/
theorem execCommandFetch_admits (hu : Up s) (hvi : (s.vi vi).st = .active) (hst : (s.queue (vi, cls, q)).st = .active)
    (hre : (s.queue (vi, cls, q)).reread = none) (hne : (s.queue (vi, cls, q)).cmdHead ≠ (s.queue (vi, cls, q)).cmdTail)
    (hroom : sub32 (s.queue (vi, cls, q)).cmdHead (s.queue (vi, cls, q)).cplHead < 2 ^ (s.queue (vi, cls, q)).ringLog2)
    (hcov : s.covers vi ((s.queue (vi, cls, q)).cmdAddr (s.queue (vi, cls, q)).cmdHead) 64 (rRing + rRd) = true)
    (hread : s.readFault ((s.queue (vi, cls, q)).cmdAddr (s.queue (vi, cls, q)).cmdHead) 64 = none)
    (hseq : fld (s.rdWords ((s.queue (vi, cls, q)).cmdAddr (s.queue (vi, cls, q)).cmdHead) 8) 0 63 48 = (s.queue (vi, cls, q)).cmdHead % 2 ^ 16) :
    Does (.commandFetch vi cls q) s (s.keeping (s.admitCmd (vi, cls, q) (s.queue (vi, cls, q)).cmdHead
      (s.rdWords ((s.queue (vi, cls, q)).cmdAddr (s.queue (vi, cls, q)).cmdHead) 8) none)) := by
  refine does_live rfl hu ((if_neg (by push Not; exact ⟨hvi, hst, by simp [hre], hne, hroom⟩)).trans ?_)
  rw [State.readCmd_sound (k := (vi, cls, q)) hcov hread, if_pos hseq]

/-- A command read again before its third time, and wrong again, is read again 1 µs later. -/
theorem execSeqRereadTimer_waits {r : Reread} (hu : Up s) (hvi : (s.vi vi).st = .active) (hst : (s.queue (vi, cls, q)).st = .active)
    (hr : (s.queue (vi, cls, q)).reread = some r) (hdue : r.due ≤ s.now) (htries : r.tries < 2)
    (hcov : s.covers vi ((s.queue (vi, cls, q)).cmdAddr r.index) 64 (rRing + rRd) = true) (hread : s.readFault ((s.queue (vi, cls, q)).cmdAddr r.index) 64 = none)
    (hwrong : fld (s.rdWords ((s.queue (vi, cls, q)).cmdAddr r.index) 8) 0 63 48 ≠ r.index % 2 ^ 16) :
    Does (.seqRereadTimer vi cls q) s (s.keeping (s.setQueue (vi, cls, q) { s.queue (vi, cls, q) with
      reread := some { r with tries := r.tries + 1, due := s.now + 1000 } })) := by
  refine does_live rfl hu ?_
  dsimp only
  rw [hr]
  dsimp only
  rw [if_neg (by push Not; exact ⟨hst, hvi, hdue⟩), State.readCmd_sound hcov hread, if_neg hwrong, if_neg (Nat.not_le.mpr htries)]

/-! ### Deadlines and saving (R76, R83) -/

/-- A command with a deadline that has passed before its dispatch ends. -/
theorem execDeadlineExpiry_ends (hu : Up s) (hc : Tbl.get s.work.cmds cid = some c) (hst : c.st = .waiting) (hd : c.dispT = none) (ho : c.outcome = none)
    (hf : c.fmt = 2) (hrel : fld c.words 0 23 0 ≠ 0) (hdue : c.acceptT + 1000 * fld c.words 0 23 0 ≤ s.now) :
    Does (.deadlineExpiry cid) s (s.keeping (s.finish cid .deadlineMissed 0)) := by
  refine does_live rfl hu ?_
  rw [hc]
  exact if_neg (by push Not; exact ⟨hst, by simp [hd], by simp [ho], hf, hrel, hdue⟩)

/-- Settling a unit, charging a job's time and counting its events leave the commands and memory as they stand. -/
theorem State.charged_kept (s : State) (u : Nat) (c d : Cmd) :
    (((s.settle u).chargeEnd c).tally d).work.cmds = s.work.cmds ∧ (((s.settle u).chargeEnd c).tally d).mem = s.mem := by
  obtain ⟨i, v, k, h⟩ := (s.settle u).chargeEnd_frame c
  rw [h]
  have hcmds : (s.settle u).work.cmds = s.work.cmds := congrArg Work.cmds (s.settle_work u).1
  exact ⟨hcmds, (s.settle_work u).2⟩

/-- A stopped job without its outcome is SAVED and counted; memory stands. -/
theorem execJobSaveDone_saves (hu : Up s) (hc : Tbl.get s.work.cmds cid = some c) (hst : c.st = .stopping) (ho : c.outcome = none) :
    ∃ t, Does (.jobSaveDone cid) s t ∧
      (Tbl.get t.work.cmds cid).map (fun d => (d.st, d.preempts, d.since)) = some (.saved, min 255 (c.preempts + 1), s.now) ∧ t.mem = s.mem := by
  refine ⟨_, does_live rfl hu rfl, ?_⟩
  simp only [hc, hst, ho, ne_eq, not_true_eq_false, if_false, Option.isSome_none, Bool.false_eq_true, State.keeping_fields, State.account_fields]
  simp only [State.updCmd, State.charged_kept]
  exact ⟨by rw [Tbl.get_upd_some s.draw.2.work.cmds cid _ c hc]; rfl, rfl⟩

/-! ### The ends of queues, VIs and slots (R59, R69, R79, R80) -/

/-- A queue that drains and has nothing outstanding is DISABLED. -/
theorem execQueueDrainDone_disables (hu : Up s) (hst : (s.queue (vi, cls, q)).st = .draining) (hout : s.outstanding (vi, cls, q) = 0) :
    ∃ t, Does (.queueDrainDone vi cls q) s t ∧ (t.queue (vi, cls, q)).st = .disabled := by
  refine ⟨_, does_live rfl hu (if_neg (by push Not; exact ⟨hst, hout⟩)), ?_⟩
  have hgone : (Tbl.at (Tbl.del s.work.queues (vi, cls, q)) (vi, cls, q) ({} : Queue)).st = .disabled := by simp [Tbl.at]
  cases hop : (s.queue (vi, cls, q)).destroyOp with
  | none => exact hgone
  | some r => exact (congrArg Queue.st (State.queue_congr (State.finishOp_work _ r _ _ _).1 (vi, cls, q))).trans hgone

/-- A reset that was accepted, once nothing of its queue is outstanding, makes it ACTIVE at the indices it names. -/
theorem execQueueResetApply_restarts {cmd cpl : Nat} {r : OpRef} (hu : Up s) (hst : (s.queue (vi, cls, q)).st = .error)
    (hr : (s.queue (vi, cls, q)).resetOp = some (cmd, cpl, r)) (hout : s.outstanding (vi, cls, q) = 0) :
    ∃ (t : State) (x : Queue), Does (.queueResetApply vi cls q) s t ∧ t.queue (vi, cls, q) = { x with
      st := .active, cmdHead := u32 cmd, cmdTail := u32 cmd, cplTail := u32 cpl, cplHead := u32 cpl } := by
  refine ⟨_, { s.queue (vi, cls, q) with reason := 0, resetOp := none, reread := none, abortAt := none, accepts := [] }, does_live rfl hu rfl, ?_⟩
  dsimp only
  rw [hr]
  dsimp only
  rw [if_neg (by push Not; exact ⟨hst, hout⟩)]
  exact (State.queue_congr (State.finishOp_work _ r _ _ _).1 (vi, cls, q)).trans (Tbl.at_set_same _ _ _ _)

/-- A VI that is QUIESCING and has no command left is UNASSIGNED. -/
theorem execViQuiesceDone_unassigns (hu : Up s) (hst : (s.vi vi).st = .quiescing) (hidle : s.viBusy vi = false) :
    ∃ t, Does (.viQuiesceDone vi) s t ∧ (t.vi vi).st = .unassigned := by
  refine ⟨_, does_live rfl hu (if_neg (by simp [hst, hidle])), ?_⟩
  extract_lets queues _ s1 s2 s3 _ _ s4
  have h1 : (s1.vi vi).st = .unassigned := by simp [s1, State.vi, Tbl.at]
  have h2 : (s2.vi vi).st = (s1.vi vi).st := congrArg Vi.st (State.vi_congr (foldl_keeps (·.work.vis) _ State.unbound s1 State.unbound_vis) vi)
  have h3 : (s3.vi vi).st = (s2.vi vi).st := by
    refine foldl_keeps (fun t => (t.vi vi).st) queues _ s2 fun t q => ?_
    cases q.2.destroyOp with
    | none => rfl
    | some r => exact t.finishOp_viSt r _ _ _ vi
  have h4 : (s4.vi vi).st = .unassigned := h3.trans (h2.trans h1)
  cases (s.vi vi).releaseOp with
  | none => exact h4
  | some r => exact (s4.finishOp_viSt r _ _ _ vi).trans h4

/-- A slot that is UNLOADING and that no command names is EMPTY; memory and the blocks stand. -/
theorem execContextSlotEmpty_empties (hu : Up s) (hst : (s.ctx slot).st = .unloading) (hidle : s.work.cmds.any (fun c => c.2.slot == some slot) = false) :
    ∃ t, Does (.contextSlotEmpty slot) s t ∧ (t.ctx slot).st = .empty ∧ t.mem = s.mem ∧ t.kv = s.kv := by
  refine ⟨_, does_live rfl hu (if_neg (by simp [hst, hidle])), ?_, rfl, rfl⟩
  have hgone : (Tbl.at (Tbl.del s.work.ctxs slot) slot ({} : Ctx)).st = .empty := by simp [Tbl.at]
  exact hgone

/-- Writing a slot's codebook directory leaves the slots as they stand. -/
theorem State.newDirectory_ctxs (s : State) (slot : Nat) : (s.newDirectory slot).work.ctxs = s.work.ctxs := by
  unfold State.newDirectory
  extract_lets f s1 s2
  have hs2 : s2.work.ctxs = s1.work.ctxs := foldl_keeps (·.work.ctxs) _ _ s1 fun t e => by simp
  exact hs2.trans (by simp [s1])

/-- A slot that is LOADING is READY with the fields of its load. -/
theorem execContextLoadDone_readies (hu : Up s) (hst : (s.ctx slot).st = .loading) :
    ∃ t, Does (.contextLoadDone slot) s t ∧ (t.ctx slot).st = .ready ∧ (t.ctx slot).f = (s.ctx slot).f := by
  refine ⟨_, does_live rfl hu (if_neg (not_not_intro hst)), ?_⟩
  extract_lets _ s1 s2
  have h2 : s2.ctx slot = { s.ctx slot with st := .ready, loadOp := none } :=
    (State.ctx_congr (s1.newDirectory_ctxs slot) slot).trans (Tbl.at_set_same _ _ _ _)
  have hend : ∀ t : State, t.work.ctxs = s2.work.ctxs → (t.ctx slot).st = .ready ∧ (t.ctx slot).f = (s.ctx slot).f := fun t ht => by
    rw [State.ctx_congr ht, h2]
    exact ⟨rfl, rfl⟩
  refine hend _ ?_
  cases (s.ctx slot).loadOp with
  | none => rfl
  | some r => exact (s2.finishOp_work r _ _ _).2

/-- An order waits for no command of a VI that has none. -/
theorem execRegionDrainDone_drains {o : OrderDrain} (hu : Up s) (ho : s.adh.order = some o) (hidle : s.work.cmds.any (fun c => c.2.vi == vi) = false) :
    Does (.regionDrainDone vi) s (s.keeping { s with adh := { s.adh with order := some { o with regions := o.regions.filter (fun r => r.1 != vi) } } }) := by
  refine does_live rfl hu ?_
  have hold : ∀ g, s.work.cmds.any (fun c => c.2.vi == vi && c.2.dispT.isSome && c.2.regionGen != g) = false := fun g => by
    simp only [List.any_eq_false, Bool.and_eq_true] at hidle ⊢
    exact fun x hx h => hidle x hx h.1.1
  simp only [ho, hold, Bool.or_false]

end Sys2Proof.Machine
end

section
open Sys2Proof Sys2Proof.Machine

/-- Settles O42: one lemma per command; the completion step takes the command from the list, and of what follows its record nothing reaches the queue's
indices, nor memory where no slot waited to be freed. -/
theorem queuesAndCommands : Obligations.QueuesAndCommands := by
  refine ⟨?fetch, ?reread, ?deadline, ?saved, ?completed, ?record, ?drained, ?reset, ?quiesced, ?emptied, ?loaded, ?regions⟩
  case fetch =>
    intro vi cls q s hu hvi hst hre hne hroom hcov hread hseq
    obtain ⟨c, hlist, hindex, hwords, hhead, hmem⟩ := s.admitCmd_lists (vi, cls, q) (s.queue (vi, cls, q)).cmdHead
      (s.rdWords ((s.queue (vi, cls, q)).cmdAddr (s.queue (vi, cls, q)).cmdHead) 8) none
    exact ⟨_, c, execCommandFetch_admits hu hvi hst hre hne hroom hcov hread hseq, hlist, hindex, hwords, hhead, hmem⟩
  case reread =>
    intro vi cls q r s hu hvi hst hr hdue htries hcov hread hwrong
    exact ⟨_, execSeqRereadTimer_waits hu hvi hst hr hdue htries hcov hread hwrong, congrArg Queue.reread (Tbl.at_set_same _ _ _ _), rfl, rfl⟩
  case deadline =>
    intro cid c s hu hc hst hd ho hf hrel hdue
    exact ⟨_, execDeadlineExpiry_ends hu hc hst hd ho hf hrel hdue, State.finish_ended (s := s) (by simp [Tbl.has, hc]), rfl⟩
  case saved => exact fun _ _ _ hu hc hst ho => execJobSaveDone_saves hu hc hst ho
  case completed =>
    intro cid result st c s hu hc ho hst hcov
    obtain ⟨htail, -⟩ := State.completeCmd_record hc ho rfl (by simp [hst]) hcov
    refine ⟨_, does_live (t := s.completeCmd cid) rfl hu rfl, ?_, htail⟩
    rcases s.completeCmd_standing cid with ⟨-, hnone⟩ | hstands
    · exact absurd hnone (by simp [hc, ho])
    · have hlisted := congrFun (congrArg Standing.listed hstands) cid
      simpa [State.standing, Tbl.has] using hlisted
  case record =>
    intro cid result st c s hu hc ho hst heff hsam hfree hflag hcov
    obtain ⟨-, hmem⟩ := State.completeCmd_record hc ho rfl (by simp [hst]) (by rw [heff]; exact hcov)
    exact ⟨_, does_live (t := s.completeCmd cid) rfl hu rfl, hmem heff hsam hfree hflag⟩
  case drained => exact fun _ _ _ _ hu hst hout => execQueueDrainDone_disables hu hst hout
  case reset =>
    intro vi cls q cmd cpl r s hu hst hr hout
    obtain ⟨t, x, hd, hq⟩ := execQueueResetApply_restarts hu hst hr hout
    exact ⟨t, hd, by rw [hq], by rw [hq]; rfl, by rw [hq]; rfl, by rw [hq]; rfl, by rw [hq]; rfl⟩
  case quiesced => exact fun _ _ hu hst hidle => execViQuiesceDone_unassigns hu hst hidle
  case emptied => exact fun _ _ hu hst hidle => execContextSlotEmpty_empties hu hst hidle
  case loaded => exact fun _ _ hu hst => execContextLoadDone_readies hu hst
  case regions =>
    intro vi o s hu ho hidle
    exact ⟨_, _, execRegionDrainDone_drains hu ho hidle, rfl, rfl, rfl⟩
end
section
/-! SUPPORT. What storing bytes, claiming slots and writing, recoding or copying blocks leaves as it stands (R92, R104, R111, R219, R508). -/

namespace Sys2Proof.Machine
open Sys2Proof

variable {s : State}

/-! ### Bytes stored -/

/-- Mapping a flash sector changes the map, the channels' counts, a counter and the draws alone. -/
theorem State.mapSector_frame (s : State) (sec : Nat) :
    ∃ m c p n, s.mapSector sec = { s with tier := { s.tier with map := m, chans := c }, perf := p, free := n } := by
  simp only [State.mapSector, State.draw]
  split
  · exact ⟨_, _, _, _, rfl⟩
  · exact (State.unitEvent_frame _ _ _ _ _).elim fun p e => ⟨_, _, p, _, e⟩

/-- Bytes stored are in memory; beside them the lines' marks, the flash map, counters and draws alone change. -/
theorem State.store_frame (s : State) (a : Nat) (bs : List Byte) : ∃ b w m c p n, s.store a bs =
    { s with mem := memPuts s.mem a bs, tier := { s.tier with badLines := b, sramWritten := w, map := m, chans := c }, perf := p, free := n } := by
  have hmap : ∃ m c p n, (sectorsOf a bs.length).foldl State.mapSector (s.wr a bs) =
      { s with mem := memPuts s.mem a bs, tier := { s.tier with map := m, chans := c }, perf := p, free := n } := by
    refine List.foldlRecOn (motive := fun t => ∃ m c p n, t = ({ s with mem := memPuts s.mem a bs, tier := { s.tier with map := m, chans := c }, perf := p, free := n } : State))
      _ _ ⟨_, _, _, _, rfl⟩ ?_
    rintro t ⟨m, c, p, n, rfl⟩ sec -
    obtain ⟨m', c', p', n', e⟩ := State.mapSector_frame { s with mem := memPuts s.mem a bs, tier := { s.tier with map := m, chans := c }, perf := p, free := n } sec
    exact ⟨m', c', p', n', e⟩
  obtain ⟨m, c, p, n, hmap⟩ := hmap
  unfold State.store
  extract_lets lines s1 bad sram tier' s2
  have hs2 : s2 = { s with mem := memPuts s.mem a bs, tier := { s.tier with badLines := bad, sramWritten := sram, map := m, chans := c }, perf := p, free := n } := by
    simp only [s2, tier', s1, hmap]
  rw [hs2]
  split
  · refine List.foldlRecOn (motive := fun t => ∃ b w m c p n, t = ({ s with mem := memPuts s.mem a bs, tier := { s.tier with badLines := b, sramWritten := w, map := m, chans := c }, perf := p, free := n } : State))
      lines _ ⟨_, _, _, _, _, _, rfl⟩ ?_
    rintro t ⟨b, w, m', c', p', n', rfl⟩ l -
    obtain ⟨q, e⟩ := State.unitEvent_frame { s with mem := memPuts s.mem a bs, tier := { s.tier with badLines := b, sramWritten := w, map := m', chans := c' }, perf := p', free := n' }
      (0x700 + channelOf (addrOff (64 * l))) 0x0702 1 none
    exact ⟨b, w, m', c', q, n', e⟩
  · exact ⟨_, _, _, _, _, _, rfl⟩

/-- What is read after a store is the bytes written in memory. -/
@[simp] theorem State.store_mem (s : State) (a : Nat) (bs : List Byte) : (s.store a bs).mem = memPuts s.mem a bs := by
  obtain ⟨b, w, m, c, p, n, e⟩ := s.store_frame a bs
  rw [e]

@[simp] theorem State.store_standing (a : Nat) (bs : List Byte) : (s.store a bs).standing = s.standing := by
  obtain ⟨b, w, m, c, p, n, e⟩ := s.store_frame a bs
  rw [e]
  rfl

/-- A byte of a run read is the byte read alone. -/
theorem State.rd_getD (s : State) (a : Nat) {n i : Nat} (hi : i < n) : (s.rd a n).getD i 0#8 = s.rd1 (a + i) := by
  simp [State.rd, State.rd1, hi]

/-! ### Claims, copies and recodes -/

@[simp] theorem State.violate_standing (vi node ep addr kind op reason : Nat) : (s.violate vi node ep addr kind op reason).standing = s.standing := by
  obtain ⟨a, l, w, m, e, -⟩ := s.violate_frame vi node ep addr kind op reason
  rw [e]
  rfl

@[simp] theorem State.descFail_standing (da : Nat) : (s.descFail da).standing = s.standing := by rw [State.descFail, State.raise0_standing]

@[simp] theorem State.planeFail_standing (da plane : Nat) : (s.planeFail da plane).standing = s.standing := by
  rw [State.planeFail, State.raise0_standing, State.setDesc_standing]

@[simp] theorem State.claimSlot_standing (da vi comp book : Nat) : (s.claimSlot da vi comp book).standing = s.standing := by
  rw [State.claimSlot, State.bookSlot_standing]
  rfl

@[simp] theorem State.claimBlock_standing (rid l h b repr kv vv : Nat) (r : Req) : (s.claimBlock rid l h b repr kv vv r).2.standing = s.standing := by
  unfold State.claimBlock
  extract_lets d
  split
  · rfl
  · split
    · rfl
    · simp

/-- Claiming blocks leaves what stands, whichever blocks were there already. -/
theorem claimRuns_standing {rid l h repr kv vv m n : Nat} {r : Req} {runs : List (Nat × Nat × Nat)} {s1 : State}
    (hc : claimRuns rid l h repr kv vv r runs m s = .ok (n, s1)) : s1.standing = s.standing := by
  induction runs generalizing m s with
  | nil =>
    cases hc
    rfl
  | cons run runs ih =>
    obtain ⟨b, r0, k⟩ := run
    unfold claimRuns at hc
    split at hc
    · exact ih hc
    · split at hc
      · rename_i s' hb
        have := s.claimBlock_standing rid l h b repr kv vv r
        rw [hb] at this
        exact (ih hc).trans this
      · cases hc

@[simp] theorem State.copyBlock_standing (rid : Nat) (r : Req) (src : Nat) : (s.copyBlock rid r src).2.standing = s.standing := by
  unfold State.copyBlock
  extract_lets d dd
  split
  · rfl
  split
  · simp
  split
  · rfl
  split
  · simp
  split
  · rfl
  split
  · rfl
  · simp

theorem copyBlocks_standing (rid : Nat) (r : Req) (src : List Nat) (n : Nat) : (copyBlocks rid r src n s).2.2.standing = s.standing := by
  induction src generalizing n s with
  | nil => rfl
  | cons da rest ih =>
    have hcopy := s.copyBlock_standing rid r da
    unfold copyBlocks
    split
    · rename_i s1 hb
      rw [hb] at hcopy
      exact (ih (n + 1)).trans hcopy
    · rename_i hb
      rw [hb] at hcopy
      exact hcopy

/-- Deciding the blocks of a recode leaves what stands. -/
theorem State.recodeList_standing (cid vi want : Nat) (toCurrent : Bool) (mine das : List Nat) (n : Nat) (st : Option Status) (ready : Bool)
    (posts : List Post) (conv : List Nat) : (s.recodeList cid vi want toCurrent mine das n st ready posts conv).2.2.2.2.2.standing = s.standing := by
  induction das generalizing s n st ready posts conv with
  | nil => rfl
  | cons da rest ih =>
    unfold State.recodeList
    split
    · exact (ih ..).trans (State.violate_standing ..)
    · split
      · exact ih ..
      · extract_lets s1
        exact (ih ..).trans (ite_standing (State.descFail_standing da) (ite_standing (State.planeFail_standing ..) rfl))
      · extract_lets s1
        exact (ih ..).trans (ite_standing (State.setDesc_standing ..) rfl)

@[simp] theorem State.writeRun_standing (cid rid ctx l h kSrc vSrc first : Nat) (sample : Bool) (r : Req) (run : Nat × Nat × Nat) :
    (s.writeRun cid rid ctx l h kSrc vSrc first sample r run).standing = s.standing := by
  obtain ⟨b, r0, n⟩ := run
  unfold State.writeRun
  rw [State.updCmd_standing]
  exact foldl_standing (s := s) fun t o => foldl_standing fun u x => State.store_standing _ _

end Sys2Proof.Machine
end
section
/-! SUPPORT. What ENCODE_KV, RECODE_BLOCKS and MOVE_BLOCKS do to their command and to memory (R93, R104, R111, R192, R508). -/

namespace Sys2Proof.Machine
open Sys2Proof

variable {s : State} {cid : Nat} {c : Cmd} {r : Req}

/-- A listed command has the outcome it is given after its figures are noted, whatever upkeep went before. -/
theorem State.noted_ended {s t : State} {cid result : Nat} {st : Status} (ht : t.standing = s.standing) (hc : Tbl.get s.work.cmds cid = some c)
    (evs : List (Nat × Nat)) (lr lw a b : Nat) : ((t.note cid evs lr lw a b).finish cid st result).ended cid st result := by
  refine State.finish_ended ?_
  rw [Standing.listed_eq (State.note_standing cid evs lr lw a b), Standing.listed_eq ht, Tbl.has, hc]
  rfl

/-! ### ENCODE_KV -/

/-- The claims of an ENCODE_KV: of the representation its word 4 or its request's record asks for, BF16 where a set has no version (R194). -/
def State.encodeClaims (s : State) (c : Cmd) (r : Req) : Except Status (Nat × State) :=
  let l := fld c.op 5 63 54
  let h := fld c.op 5 53 46
  let kv := s.curVer r.ctxSlot ((s.ctx r.ctxSlot).f.entry l h 0)
  let vv := s.curVer r.ctxSlot ((s.ctx r.ctxSlot).f.entry l h 1)
  let want := if fld c.op 4 18 17 = 0 then r.kvRepr else fld c.op 4 18 17 - 1
  let coded := want != 0 && kv != 0 && vv != 0
  claimRuns (fld c.op 1 47 0) l h (if coded then want else 0) (if coded then kv else 0) (if coded then vv else 0) r (blockRuns (fld c.op 4 63 32) (fld c.op 4 31 19)) 0 s

/-- The rows of an ENCODE_KV written into their blocks. -/
def State.encodeRows (s : State) (cid : Nat) (c : Cmd) (r : Req) : State :=
  (blockRuns (fld c.op 4 63 32) (fld c.op 4 31 19)).foldl (fun t run => t.writeRun cid (fld c.op 1 47 0) r.ctxSlot (fld c.op 5 63 54) (fld c.op 5 53 46)
    (word c.op 2) (word c.op 3) (fld c.op 4 63 32) (fld c.op 4 16 16 == 0) r run) s

@[simp] theorem State.encodeRows_standing (cid : Nat) (c : Cmd) (r : Req) : (s.encodeRows cid c r).standing = s.standing :=
  foldl_standing fun _ run => State.writeRun_standing _ _ _ _ _ _ _ _ _ _ run

/-- Both sources of an ENCODE_KV can be read. -/
def State.encodeReads (s : State) (c : Cmd) (r : Req) : Prop :=
  s.readFault (word c.op 2) (fld c.op 4 31 19 * 2 * (s.ctx r.ctxSlot).f.headDim) = none ∧
  s.readFault (word c.op 3) (fld c.op 4 31 19 * 2 * (s.ctx r.ctxSlot).f.headDim) = none

/-- Whether the BF16 elements at an address, as many as an ENCODE_KV takes from each source, are all finite. -/
def State.encodeFinite (s : State) (c : Cmd) (r : Req) (a : Nat) : Bool :=
  (bf16s (fld c.op 4 31 19 * (s.ctx r.ctxSlot).f.headDim) (s.rd a (fld c.op 4 31 19 * 2 * (s.ctx r.ctxSlot).f.headDim))).isSome

section
variable (hu : Up s) (hrun : s.running cid 3 1 = some c) (hr : s.req (fld c.op 1 47 0) = some r) (hread : s.encodeReads c r)
include hu hrun hr hread

/-- A source element that is not finite ends the command, and nothing is written. -/
theorem execEncodeKv_input (hfin : (s.encodeFinite c r (word c.op 2) && s.encodeFinite c r (word c.op 3)) = false) :
    Does (.encodeKv cid) s (s.keeping (s.finish cid .encodeInput 0)) := by
  refine does_live rfl hu ?_
  obtain ⟨hk, hv⟩ := hread
  simp only [hrun, hr, hk, hv]
  exact if_pos ((Bool.not_and _ _).symm.trans (congrArg Bool.not hfin))

variable (hfk : s.encodeFinite c r (word c.op 2) = true) (hfv : s.encodeFinite c r (word c.op 3) = true)
include hfk hfv

/-- A claim that fails ends the command with its status. -/
theorem execEncodeKv_refused {st : Status} (hc : s.encodeClaims c r = .error st) :
    Does (.encodeKv cid) s (s.keeping (s.finish cid st 0)) := by
  refine does_live rfl hu ?_
  obtain ⟨hk, hv⟩ := hread
  unfold State.encodeFinite at hfk hfv
  unfold State.encodeClaims at hc
  simp only [hrun, hr, hk, hv, hfk, hfv]
  simp only [hc]
  rfl

/-- With its claims made, the rows are written and the command ends with the rows and the blocks claimed. -/
theorem execEncodeKv_places {n : Nat} {s1 : State} (hc : s.encodeClaims c r = .ok (n, s1)) : ∃ evs lr lw a b,
    Does (.encodeKv cid) s (s.keeping (((s1.encodeRows cid c r).note cid evs lr lw a b).finish cid .ok (2 ^ 32 * fld c.op 4 31 19 + n))) := by
  have hd : Does (.encodeKv cid) s _ := does_live rfl hu rfl
  obtain ⟨hk, hv⟩ := hread
  unfold State.encodeFinite at hfk hfv
  unfold State.encodeClaims at hc
  simp only [hrun, hr, hk, hv, hfk, hfv] at hd
  simp only [hc] at hd
  exact ⟨_, _, _, _, _, hd⟩

end

/-- One position touches one block, one row of it. -/
theorem blockRuns_one (first : Nat) : blockRuns first 1 = [(first / 64, first % 64, 1)] := by
  have hmin : min (first + 1) (64 * (first / 64 + 1)) - (64 * (first / 64) + first % 64) = 1 := by omega
  simp [blockRuns, hmin]

/-- A BF16 row is copied: its K and its V source to their places in the block's slot. -/
theorem State.writeRun_bf16 {rid l h b r0 k v : Nat} {sample : Bool} (hrep : (s.desc (s.mapEntry r l h b)).repr = 0) :
    (s.writeRun cid rid r.ctxSlot l h k v (64 * b + r0) sample r (b, r0, 1)).mem =
      memPuts (memPuts s.mem ((s.desc (s.mapEntry r l h b)).slot + r0 * 2 * (s.ctx r.ctxSlot).f.headDim) (s.rd k (2 * (s.ctx r.ctxSlot).f.headDim)))
        ((s.desc (s.mapEntry r l h b)).slot + (128 * (s.ctx r.ctxSlot).f.headDim + r0 * 2 * (s.ctx r.ctxSlot).f.headDim)) (s.rd v (2 * (s.ctx r.ctxSlot).f.headDim)) := by
  simp [State.writeRun, State.updCmd, State.rowOut, hrep]

/-- Two runs written one above the other: each byte reads as its run gives it, or as before. -/
theorem memGet_memPuts_two {m : List Host.Cell} (hw : Memory.wf m) {x y w : Nat} {bs cs : List Byte} (hb : bs.length = w) (hc : cs.length = w) (hxy : x + w ≤ y) (a : Nat) :
    memGet (memPuts (memPuts m x bs) y cs) a = if x ≤ a ∧ a < x + w then bs.getD (a - x) 0#8 else if y ≤ a ∧ a < y + w then cs.getD (a - y) 0#8 else memGet m a := by
  split
  · rename_i h
    obtain ⟨i, rfl⟩ := Nat.exists_eq_add_of_le h.1
    rw [memGet_memPuts_other _ _ _ _ (by omega), memGet_memPuts_same _ _ _ _ hw (by omega), Nat.add_sub_cancel_left]
  · split
    · rename_i h
      obtain ⟨i, rfl⟩ := Nat.exists_eq_add_of_le h.1
      rw [memGet_memPuts_same _ _ _ _ (memWf_memPuts _ _ _ hw) (by omega), Nat.add_sub_cancel_left]
    · rw [memGet_memPuts_other _ _ _ _ (by omega), memGet_memPuts_other _ _ _ _ (by omega)]

/-- A block that the map names is not claimed. -/
theorem State.encodeClaims_present (hn : fld c.op 4 31 19 = 1) (hmap : s.mapEntry r (fld c.op 5 63 54) (fld c.op 5 53 46) (fld c.op 4 63 32 / 64) ≠ 0) :
    s.encodeClaims c r = .ok (0, s) := by
  simp [State.encodeClaims, hn, blockRuns_one, claimRuns, hmap]

/-- ENCODE_KV of one BF16 row into a block that is there copies both sources, writes no other byte, and ends with one row and no claim. -/
theorem execEncodeKv_row (hu : Up s) (hw : Memory.wf s.mem) (hrun : s.running cid 3 1 = some c) (hr : s.req (fld c.op 1 47 0) = some r) (hn : fld c.op 4 31 19 = 1)
    (hread : s.encodeReads c r) (hfk : s.encodeFinite c r (word c.op 2) = true) (hfv : s.encodeFinite c r (word c.op 3) = true) {da d base : Nat}
    (hda : da = s.mapEntry r (fld c.op 5 63 54) (fld c.op 5 53 46) (fld c.op 4 63 32 / 64)) (hmap : da ≠ 0) (hrep : (s.desc da).repr = 0)
    (hd : d = (s.ctx r.ctxSlot).f.headDim) (hbase : base = (s.desc da).slot + fld c.op 4 63 32 % 64 * 2 * d) :
    ∃ t, Does (.encodeKv cid) s t ∧ t.ended cid .ok (2 ^ 32) ∧ ∀ a, t.rd1 a =
      if base ≤ a ∧ a < base + 2 * d then s.rd1 (word c.op 2 + (a - base))
      else if base + 128 * d ≤ a ∧ a < base + 130 * d then s.rd1 (word c.op 3 + (a - (base + 128 * d)))
      else s.rd1 a := by
  subst hda hd
  obtain ⟨evs, lr, lw, x, y, hdoes⟩ := execEncodeKv_places hu hrun hr hread hfk hfv (State.encodeClaims_present hn hmap)
  rw [hn] at hdoes
  refine ⟨_, hdoes, State.noted_ended (State.encodeRows_standing cid c r) (State.running_listed hrun) _ _ _ _ _, fun a => ?_⟩
  generalize hdim : (s.ctx r.ctxSlot).f.headDim = d at hbase ⊢
  have hmem : (s.encodeRows cid c r).mem = memPuts (memPuts s.mem base (s.rd (word c.op 2) (2 * d))) (base + 128 * d) (s.rd (word c.op 3) (2 * d)) := by
    have hrow := State.writeRun_bf16 (cid := cid) (rid := fld c.op 1 47 0) (r0 := fld c.op 4 63 32 % 64) (k := word c.op 2) (v := word c.op 3) (sample := fld c.op 4 16 16 == 0) hrep
    rw [Nat.div_add_mod, hdim] at hrow
    have hvalue : (s.desc (s.mapEntry r (fld c.op 5 63 54) (fld c.op 5 53 46) (fld c.op 4 63 32 / 64))).slot + (128 * d + fld c.op 4 63 32 % 64 * 2 * d) = base + 128 * d := by
      omega
    rw [State.encodeRows, hn, blockRuns_one, List.foldl_cons, List.foldl_nil, hrow, hvalue, hbase]
  show memGet (s.encodeRows cid c r).mem a = _
  rw [hmem, memGet_memPuts_two hw (w := 2 * d) (by simp [State.rd]) (by simp [State.rd]) (by omega)]
  by_cases hk : base ≤ a ∧ a < base + 2 * d
  · rw [if_pos hk, if_pos hk, State.rd_getD _ _ (by omega)]
  · rw [if_neg hk, if_neg hk]
    by_cases hv : base + 128 * d ≤ a ∧ a < base + 130 * d
    · rw [if_pos hv, if_pos (by omega), State.rd_getD _ _ (by omega)]
    · rw [if_neg hv, if_neg (by omega)]
      rfl

/-! ### RECODE_BLOCKS and MOVE_BLOCKS -/

/-- Blocks that are ready and of no protected shard end the command with their number; their changes wait for its completion step. -/
theorem execRecodeBlocks_ready {n : Nat} {st : Option Status} {posts : List Post} {conv : List Nat} {s1 : State} (hu : Up s)
    (hrun : s.running cid 3 2 = some c)
    (hl : s.recodeList cid c.vi (fld c.op 3 48 47) (fld c.op 3 46 46 == 1) c.conv (s.listed (word c.op 2) (fld c.op 3 63 49)) 0 none true [] [] = (n, st, true, posts, conv, s1))
    (hshard : conv.all (fun da => (s1.shardOf da).isNone) = true) :
    Does (.recodeBlocks cid) s (s.keeping (((s1.updCmd cid (fun c => { c with conv := [], effects := posts })).note cid [] 0 0 n 0).finish cid (st.getD .ok) n)) := by
  have hnone : conv.filter (fun da => (s1.shardOf da).isSome) = [] := by
    rw [List.filter_eq_nil_iff]
    exact fun da hda => by simpa using List.all_eq_true.mp hshard da hda
  refine does_live rfl hu ?_
  simp only [hrun, hl, hnone]
  rfl

/-- The changes a command is given stay with it as its figures are noted and its outcome is set. -/
theorem State.updCmd_effects {s1 : State} (hlisted : Tbl.has s1.work.cmds cid = true) (posts : List Post) (conv : List Nat) (evs : List (Nat × Nat))
    (lr lw a b result : Nat) (st : Status) :
    (Tbl.get (((s1.updCmd cid (fun c => { c with conv := conv, effects := posts })).note cid evs lr lw a b).finish cid st result).work.cmds cid).map (·.effects) = some posts := by
  obtain ⟨x, hx⟩ := Option.isSome_iff_exists.mp hlisted
  simp only [State.finish, State.note, State.updCmd]
  rw [Tbl.get_upd_some _ _ _ _ (Tbl.get_upd_some _ _ _ _ (Tbl.get_upd_some _ _ _ x hx))]
  rfl

/-- MOVE_BLOCKS copies its list and ends with the number copied. -/
theorem execMoveBlocks_copies (hu : Up s) (hrun : s.running cid 1 2 = some c) (hr : s.req (fld c.op 1 47 0) = some r) (src : List Nat) : ∃ evs a,
    Does (.moveBlocks cid src) s (s.keeping (((copyBlocks (fld c.op 1 47 0) r src 0 s).2.2.note cid evs 0 0 a 0).finish cid
      ((copyBlocks (fld c.op 1 47 0) r src 0 s).2.1.getD .ok) (copyBlocks (fld c.op 1 47 0) r src 0 s).1)) := by
  have hd : Does (.moveBlocks cid src) s _ := does_live rfl hu rfl
  simp only [hrun, hr] at hd
  exact ⟨_, _, hd⟩

end Sys2Proof.Machine
end
section
/-! SUPPORT. What PULL_BLOCKS starts, and how a pull goes on or ends (R136, R137, R204, R227). -/

namespace Sys2Proof.Machine
open Sys2Proof

variable {s : State} {cid rid l h b : Nat} {c : Cmd} {r : Req} {p : Pull}

/-- What a table reads under a key is listed in it. -/
theorem Tbl.mem_of_get {κ α : Type} [DecidableEq κ] {t : Tbl κ α} {k : κ} {v : α} (hv : Tbl.get t k = some v) : (k, v) ∈ t := by
  induction t with
  | nil => cases hv
  | cons e t ih =>
    obtain ⟨a, w⟩ := e
    unfold Tbl.get at hv
    split at hv
    · rename_i hk
      cases hk
      cases hv
      exact List.mem_cons_self
    · exact List.mem_cons_of_mem _ (ih hv)

/-! ### Starting a pull -/

/-- A pull with a slot and room to claim it starts: it waits for its first copy until its deadline. -/
theorem State.startPull_starts {oc : Option Nat} {codeOnly : Bool} {len source die da : Nat} (hr : s.req rid = some r)
    (hnew : Tbl.has s.own.pulls (rid, l, h, b) = false) (hdie : s.dieFor l h = some die) (hslot : s.freeSlot 1 die (s.geom r).headDim = some da)
    (hclaim : s.claimFault r.ownerVi r.composition 1 (newCharge 1 0 (s.geom r).headDim) = none) : ∃ p t,
    s.startPull rid l h b oc codeOnly len source = (true, t) ∧ Tbl.get t.own.pulls (rid, l, h, b) = some p ∧
      (p.cid, p.desc, p.deadline, p.codeOnly) = (oc, da, s.now + len, codeOnly) := by
  refine ⟨{ cid := oc, desc := da, copies := s.copiesOf r rid l h b source, deadline := s.now + len, codeOnly := codeOnly, len := len }, _,
    by simp only [State.startPull, hr, hnew, hdie, Option.bind_some, hslot, hclaim]; rfl, ?_, rfl⟩
  unfold State.askCopy
  split <;> exact Tbl.get_set_same _ _ _

/-- PULL_BLOCKS without a block to pull ends at once. -/
theorem execPullBlocks_none (hu : Up s) (hrun : s.running cid 1 3 = some c) (hidle : s.own.pulls.any (fun p => p.2.cid == some cid) = false)
    (hr : s.req (fld c.op 1 47 0) = some r)
    (hnone : s.toPull r (runOf (fld c.op 2 63 54) (fld c.op 2 53 44)) (runOf (fld c.op 2 43 36) (fld c.op 2 35 28)) (fld c.op 3 63 32) (fld c.op 3 31 0) = []) :
    Does (.pullBlocks cid) s (s.keeping (s.finish cid .ok 0)) := by
  refine does_live rfl hu ?_
  simp only [hrun, hidle, hr, hnone, List.foldl_nil]
  rfl

/-- PULL_BLOCKS of one block whose pull starts waits for it. -/
theorem execPullBlocks_one {t : State} (hu : Up s) (hrun : s.running cid 1 3 = some c) (hidle : s.own.pulls.any (fun p => p.2.cid == some cid) = false)
    (hr : s.req (fld c.op 1 47 0) = some r)
    (hone : s.toPull r (runOf (fld c.op 2 63 54) (fld c.op 2 53 44)) (runOf (fld c.op 2 43 36) (fld c.op 2 35 28)) (fld c.op 3 63 32) (fld c.op 3 31 0) = [(l, h, b)])
    (hstart : s.startPull (fld c.op 1 47 0) l h b (some cid) (fld c.op 4 61 60 == 1)
      (if fld c.op 5 31 0 = 0 then (s.comp r.composition).pullDeadline else 1000 * fld c.op 5 31 0) (fld c.op 4 63 62) = (true, t))
    (hwaits : t.own.pulls.any (fun p => p.2.cid == some cid) = true) : Does (.pullBlocks cid) s (s.keeping t) := by
  refine does_live rfl hu ?_
  simp only [hrun, hidle, hr, hone, List.foldl_cons, List.foldl_nil, hstart]
  exact if_pos hwaits

/-! ### A copy that is late -/

/-- A late pull with another copy asks it next. -/
theorem execPullArriveDeadline_next {x y : Nat × Nat × Nat} {cs : List (Nat × Nat × Nat)} (hu : Up s)
    (hp : Tbl.get s.own.pulls (rid, l, h, b) = some p) (hdue : p.deadline ≤ s.now) (hcs : p.copies = x :: y :: cs) : ∃ t,
    Does (.pullArriveDeadline rid l h b) s t ∧ Tbl.get t.own.pulls (rid, l, h, b) = some { p with copies := y :: cs, deadline := s.now + p.len, late := true, missing := false } ∧
      t.sent y.1 0 rid ∧ t.mem = s.mem := by
  have hd : Does (.pullArriveDeadline rid l h b) s _ := does_live rfl hu rfl
  simp only [hp, Nat.not_lt.mpr hdue, if_false, State.nextCopy, hcs, List.drop_one, List.tail_cons] at hd
  refine ⟨_, hd, Tbl.get_set_same _ _ _, ?_, rfl⟩
  simp [State.sent, State.askCopy, State.tell]

/-- The pulls and the requests' failures: what telling a request's home of its end leaves. -/
theorem State.commitEntry_pulls (s : State) (rid : Nat) (e : DirEntry) (msgs : List CtlMsg) : (s.commitEntry rid e msgs).own.pulls = s.own.pulls := by
  unfold State.commitEntry
  extract_lets u
  have hu : u.own = s.own := by
    obtain ⟨p, e1⟩ := s.unitEvent_frame 0x900 0x0901 1 none
    obtain ⟨q, e2⟩ := (s.unitEvent 0x900 0x0901 1 none).unitEvent_frame 0x901 0x0901 1 none
    exact (congrArg (·.own) (e2.trans (by rw [e1])) : u.own = ({ s with perf := q } : State).own)
  refine ite_keeps (·.own.pulls) ?_ ?_
  · exact (foldl_keeps (·.own.pulls) msgs State.tell (u.setEntry rid e) fun _ _ => rfl).trans (congrArg (·.pulls) hu)
  · exact congrArg (·.pulls) hu

/-- A read that failed at every copy is recorded with its status, and takes no pull away. -/
theorem State.failRead_failed (s : State) (rid : Nat) (st : Status) :
    Tbl.get (s.failRead rid st).kv.failed rid = some st ∧ (s.failRead rid st).own.pulls = s.own.pulls := by
  unfold State.failRead
  extract_lets kv' s1
  have h1 : Tbl.get s1.kv.failed rid = some st ∧ s1.own.pulls = s.own.pulls := ⟨Tbl.get_set_same _ _ _, rfl⟩
  split
  · rename_i e _
    split
    · refine ⟨?_, (State.commitEntry_pulls s1 rid _ []).trans h1.2⟩
      have hkv : (s1.failReq rid e st 4).kv = s1.kv := (State.commitEntry_entry s1 rid _ []).1
      rw [hkv]
      exact h1.1
    · exact h1
  · exact h1

/-- A pull given up: its claim is freed, and the read has failed at every copy. -/
def State.pullFailed (s : State) (rid l h b : Nat) (p : Pull) (st : Status) : State :=
  (({ s with own := { s.own with pulls := Tbl.del s.own.pulls (rid, l, h, b) } } : State).dropClaim p.desc).failRead rid st

@[simp] theorem State.pullFailed_standing (rid l h b : Nat) (p : Pull) (st : Status) : (s.pullFailed rid l h b p st).standing = s.standing := by
  rw [State.pullFailed, State.failRead_standing, State.dropClaim, State.bookSlot_standing, State.setDesc_standing]
  rfl

/-- A late pull without another copy is given up, and its command ends. -/
theorem State.nextCopy_last {x : Nat × Nat × Nat} (hp : Tbl.get s.own.pulls (rid, l, h, b) = some p) (hcs : p.copies = [x]) (hcid : p.cid = some cid)
    (hc : Tbl.get s.work.cmds cid = some c) : s.nextCopy rid l h b true false = (s.pullFailed rid l h b p .tierLate).finish cid .tierLate c.detailA := by
  simp [State.nextCopy, State.pullFailed, hp, hcs, hcid, hc]

/-- A late pull without another copy ends its request and its command. -/
theorem execPullArriveDeadline_last {x : Nat × Nat × Nat} (hu : Up s) (hp : Tbl.get s.own.pulls (rid, l, h, b) = some p) (hdue : p.deadline ≤ s.now)
    (hcs : p.copies = [x]) (hcid : p.cid = some cid) (hc : Tbl.get s.work.cmds cid = some c) : ∃ t, Does (.pullArriveDeadline rid l h b) s t ∧
      Tbl.get t.own.pulls (rid, l, h, b) = none ∧ Tbl.get t.kv.failed rid = some .tierLate ∧ t.ended cid .tierLate c.detailA := by
  obtain ⟨hfailed, hpulls⟩ := (({ s with own := { s.own with pulls := Tbl.del s.own.pulls (rid, l, h, b) } } : State).dropClaim p.desc).failRead_failed rid .tierLate
  refine ⟨_, does_live (t := (s.pullFailed rid l h b p .tierLate).finish cid .tierLate c.detailA) rfl hu ?_, ?_, hfailed, ?_⟩
  · simp only [hp, Nat.not_lt.mpr hdue, if_false]
    exact State.nextCopy_last hp hcs hcid hc
  · exact (congrArg (Tbl.get · (rid, l, h, b)) hpulls).trans (Tbl.get_del_same _ _)
  · refine State.finish_ended ?_
    rw [Standing.listed_eq (State.pullFailed_standing rid l h b p .tierLate), Tbl.has, hc]
    rfl

end Sys2Proof.Machine
end
section
/-! SUPPORT. The arrival of a pulled block (R54, R91, R100, R137, R144). -/

namespace Sys2Proof.Machine
open Sys2Proof

variable {s : State}

/-- What the arrival of a pulled block is read by: the pulls, the tiers and memory. -/
def State.arrival (s : State) : Tbl (Nat × Nat × Nat × Nat) Pull × Tiers × List Host.Cell := (s.own.pulls, s.tier, s.mem)

/-- Counting a pull for its command, and the command's end with its last pull, leave pulls, tiers and memory. -/
@[simp] theorem State.pullDone_arrival (s : State) (cid : Nat) : (s.pullDone cid).arrival = s.arrival := by
  unfold State.pullDone
  extract_lets s1
  split
  · rfl
  · exact ite_keeps State.arrival rfl rfl

/-- A BF16 descriptor holds no reference (R209). -/
theorem State.descRefs_bf16 {da : Nat} (h : (s.desc da).repr = 0) (up : Bool) : s.descRefs da up = s := by
  unfold State.descRefs
  exact if_pos h

/-- The descriptor a pulled BF16 block gets in its local slot. -/
def State.pulledDesc (s : State) (d : Desc) (p : Pull) (r : Req) : Desc :=
  { d with slot := (s.slotAddr p.desc).getD 0, epoch := r.holdEpoch, holder := s.node, valid := d.committed, st := (if d.committed = 64 then dFull else dOpen), crcB := 0 }

/-- Memory and the rest once the bytes, the descriptor and the map entry of a pulled block are in place. -/
def State.pulledIn (s : State) (l h b : Nat) (p : Pull) (r : Req) (nd : Desc) (bytes : List Byte) : State :=
  ((s.store nd.slot bytes).setDesc p.desc nd).setMapEntry r l h b p.desc

/-- A descriptor that arrives is that of the block asked for, in a state and of an epoch the record takes, and sound (R100, R137). -/
structure PullFits (s : State) (l h b : Nat) (desc : List Nat) (r : Req) : Prop where
  sealed : word desc 7 = crc64 (bytesOfWords (desc.take 7))
  layer : (Desc.ofWords desc).layer = l
  head : (Desc.ofWords desc).head = h
  base : (Desc.ofWords desc).base = 64 * b
  dim : (Desc.ofWords desc).dim = dimCode (s.geom r).headDim
  found : (Desc.ofWords desc).st ≠ dLost
  settled : (Desc.ofWords desc).st ≠ dConverting
  epoch : (Desc.ofWords desc).epoch ≤ r.holdEpoch

/-- The pull ends with its slot booked and the block read now. -/
def State.pullEnds (u : State) (rid l h b : Nat) (p : Pull) (nd : Desc) (now : Nat) : State :=
  let s3 := u.bookSlot p.desc 4 nd.book
  { s3 with tier := { s3.tier with transit := s3.tier.transit.filter (· ≠ p.desc), lastRead := Tbl.set s3.tier.lastRead p.desc now }
            own := { s3.own with pulls := Tbl.del s3.own.pulls (rid, l, h, b) } }

/-- An old holder whose lingering slot was pulled is told. -/
def State.tellHolder (u : State) (rid tc : Nat) (p : Pull) (r : Req) : State :=
  match p.copies.head? with
  | some (n, da, 0) => (u.transitIn n qSlots 1).tell { dst := n, tc := tc, code := 0, req := rid, epoch := r.holdEpoch, fields := [da] }
  | _ => u

@[simp] theorem State.tellHolder_arrival (u : State) (rid tc : Nat) (p : Pull) (r : Req) : (u.tellHolder rid tc p r).arrival = u.arrival := by
  unfold State.tellHolder
  split <;> rfl

/-- The state once a pulled block is switched to, before its command is counted: its references taken, its bytes metered, its old holder told. -/
def State.pullSwitched (u : State) (rid l h b tc now bytes : Nat) (p : Pull) (r : Req) (nd : Desc) : State :=
  (((u.pullEnds rid l h b p nd now).descRefs p.desc true).meter r.composition (fun m => { m with movedBytes := m.movedBytes + bytes })).tellHolder rid tc p r

/-- A BF16 block takes no reference, so that its arrival ends the pull and leaves memory as it was put in place. -/
theorem State.pullSwitched_arrival {u : State} {p : Pull} (hbf : (u.desc p.desc).repr = 0) (rid l h b tc now bytes : Nat) (r : Req) (nd : Desc) :
    (u.pullSwitched rid l h b tc now bytes p r nd).arrival = (u.pullEnds rid l h b p nd now).arrival := by
  have hdesc : ((u.pullEnds rid l h b p nd now).desc p.desc).repr = 0 := hbf
  rw [State.pullSwitched, State.descRefs_bf16 hdesc]
  exact State.tellHolder_arrival _ _ _ _ _

/-- A pull counted for its command, where it has one. -/
def State.pullCounted (v : State) (p : Pull) : State := (p.cid.map v.pullDone).getD v

@[simp] theorem State.pullCounted_arrival (v : State) (p : Pull) : (v.pullCounted p).arrival = v.arrival := by
  unfold State.pullCounted
  cases p.cid with
  | none => rfl
  | some cid => exact State.pullDone_arrival v cid

section
variable {rid l h b : Nat} {desc : List Nat} {planes : List Byte} {objs : List (List Byte)} {p : Pull} {r : Req} {nd : Desc} (hu : Up s)
  (hp : Tbl.get s.own.pulls (rid, l, h, b) = some p) (hr : s.req rid = some r) (hfits : PullFits s l h b desc r) (hrepr : (Desc.ofWords desc).repr = 0)
  (hnd : nd = s.pulledDesc (Desc.ofWords desc) p r) (hgood : (s.store nd.slot (planes.take (inUse 0 (s.geom r).headDim))).badPlane nd = none)
include hu hp hr hfits hrepr hnd hgood

/-- A BF16 block that arrives and verifies is put in place and switched to. -/
theorem execPullBlockArrival_switches : Does (.pullBlockArrival rid l h b desc planes objs) s
    (s.keeping (((s.pulledIn l h b p r nd (planes.take (inUse 0 (s.geom r).headDim))).pullSwitched rid l h b (s.tra.classes.getD 2 4) s.now
      (inUse 0 (s.geom r).headDim) p r nd).pullCounted p)) := by
  have hrefused : ¬ (word desc 7 ≠ crc64 (bytesOfWords (desc.take 7)) ∨ ((Desc.ofWords desc).layer, (Desc.ofWords desc).head, (Desc.ofWords desc).base) ≠ (l, h, 64 * b) ∨
      (Desc.ofWords desc).dim ≠ dimCode (s.geom r).headDim ∨ (Desc.ofWords desc).st = dLost ∨ r.holdEpoch < (Desc.ofWords desc).epoch) := by
    simp [hfits.sealed, hfits.layer, hfits.head, hfits.base, hfits.dim, hfits.found, hfits.epoch]
  have hkept : (p.codeOnly && (Desc.ofWords desc).repr == 1) = false := by simp [hrepr]
  have hone : ¬ (Desc.ofWords desc).repr = 1 := by simp [hrepr]
  have hbytes : inUse (Desc.ofWords desc).repr (s.geom r).headDim = inUse 0 (s.geom r).headDim := by rw [hrepr]
  refine does_live rfl hu ?_
  subst hnd
  unfold State.pulledDesc at hgood
  simp only [hp, hr, if_neg hfits.settled, if_neg hrefused, hkept, Bool.false_eq_true, if_false, if_neg hone, hbytes, if_pos hrepr, hgood]
  rfl

/-- The pull of a BF16 block that arrives and verifies ends, the block was read now, and memory is as it was put in place. -/
theorem execPullBlockArrival_ends (hbf : ((s.pulledIn l h b p r nd (planes.take (inUse 0 (s.geom r).headDim))).desc p.desc).repr = 0) :
    ∃ t, Does (.pullBlockArrival rid l h b desc planes objs) s t ∧ Tbl.get t.own.pulls (rid, l, h, b) = none ∧ Tbl.get t.tier.lastRead p.desc = some s.now ∧
      t.mem = (s.pulledIn l h b p r nd (planes.take (inUse 0 (s.geom r).headDim))).mem := by
  obtain ⟨t, hd, ht⟩ : ∃ t, Does (.pullBlockArrival rid l h b desc planes objs) s (s.keeping t) ∧
      t.arrival = ((s.pulledIn l h b p r nd (planes.take (inUse 0 (s.geom r).headDim))).pullEnds rid l h b p nd s.now).arrival :=
    ⟨_, execPullBlockArrival_switches hu hp hr hfits hrepr hnd hgood, (State.pullCounted_arrival _ p).trans (State.pullSwitched_arrival hbf ..)⟩
  generalize s.pulledIn l h b p r nd (planes.take (inUse 0 (s.geom r).headDim)) = u at ht ⊢
  refine ⟨_, hd, ?_, ?_, congrArg (·.2.2) ht⟩
  · exact (congrArg (Tbl.get ·.1 (rid, l, h, b)) ht).trans (Tbl.get_del_same _ _)
  · exact (congrArg (Tbl.get ·.2.1.lastRead p.desc) ht).trans (Tbl.get_set_same _ _ _)

end

end Sys2Proof.Machine
end
section
open Sys2Proof Sys2Proof.Machine

/-- Settles O47: one lemma per command; ENCODE_KV's two stores are read byte by byte, and a claim, a copy or a recode keeps its command listed, so that the
command has the outcome it is given. -/
theorem blockCommands : Obligations.BlockCommands := by
  refine ⟨?copied, ?input, ?claimed, ?recoded, ?moved, ?nothing, ?started, ?arrived, ?late, ?failed⟩
  case copied =>
    intro cid c r s hu hwf hrun hr hn hrk hrv hfk hfv hmap hrep
    have hone : 1 * 2 * (s.ctx r.ctxSlot).f.headDim = 2 * (s.ctx r.ctxSlot).f.headDim := by omega
    refine execEncodeKv_row hu hwf hrun hr hn ?_ ?_ ?_ rfl hmap hrep rfl rfl
    · rw [State.encodeReads, hn, hone]
      exact ⟨hrk, hrv⟩
    · rw [State.encodeFinite, hn, hone, Nat.one_mul]
      exact hfk
    · rw [State.encodeFinite, hn, hone, Nat.one_mul]
      exact hfv
  case input =>
    intro cid c r s hu hrun hr hk hv hfin
    exact execEncodeKv_input hu hrun hr ⟨hk, hv⟩ hfin
  case claimed =>
    intro cid want kv vv coded c r s hu hrun hr hk hv hfk hfv hwant hkv hvv hcoded
    subst hwant hkv hvv hcoded
    change ∃ t, _ ∧ match s.encodeClaims c r with | .error st => _ | .ok (n, _) => _
    cases hc : s.encodeClaims c r with
    | error st => exact ⟨_, execEncodeKv_refused hu hrun hr ⟨hk, hv⟩ hfk hfv hc, rfl⟩
    | ok q =>
      obtain ⟨evs, lr, lw, a, b, hd⟩ := execEncodeKv_places hu hrun hr ⟨hk, hv⟩ hfk hfv hc
      have hstands : (q.2.encodeRows cid c r).standing = s.standing := (State.encodeRows_standing cid c r).trans (claimRuns_standing hc)
      exact ⟨_, hd, State.noted_ended hstands (State.running_listed hrun) _ _ _ _ _⟩
  case recoded =>
    intro cid n st posts conv c s s1 hu hrun hl hshard
    have hstands : s1.standing = s.standing := by
      have := State.recodeList_standing (s := s) cid c.vi (fld c.op 3 48 47) (fld c.op 3 46 46 == 1) c.conv (s.listed (word c.op 2) (fld c.op 3 63 49)) 0 none true [] []
      rwa [hl] at this
    have hlisted : Tbl.has s1.work.cmds cid = true := by
      rw [Standing.listed_eq hstands, Tbl.has, State.running_listed hrun]
      rfl
    refine ⟨_, execRecodeBlocks_ready hu hrun hl hshard, ?_, State.updCmd_effects hlisted .., rfl⟩
    exact State.noted_ended ((State.updCmd_standing _ _).trans hstands) (State.running_listed hrun) _ _ _ _ _
  case moved =>
    intro cid src c r s hu hrun hr
    obtain ⟨evs, a, hd⟩ := execMoveBlocks_copies hu hrun hr src
    exact ⟨_, hd, State.noted_ended (copyBlocks_standing ..) (State.running_listed hrun) _ _ _ _ _, rfl⟩
  case nothing => exact fun _ _ _ _ hu hrun hidle hr hnone => execPullBlocks_none hu hrun hidle hr hnone
  case started =>
    intro cid l h b da die c r s hu hrun hidle hr hone hnew hdie hslot hclaim
    obtain ⟨p, t, hstart, hp, hfields⟩ := State.startPull_starts hr hnew hdie hslot hclaim
    have hpull := Prod.mk.inj hfields
    have hwaits : t.own.pulls.any (fun p => p.2.cid == some cid) = true := List.any_eq_true.mpr ⟨_, Tbl.mem_of_get hp, beq_iff_eq.mpr hpull.1⟩
    exact ⟨_, execPullBlocks_one hu hrun hidle hr hone hstart hwaits, (congrArg (Option.map _) hp).trans (congrArg some hfields)⟩
  case arrived =>
    intro rid l h b desc planes objs p r nd s hu hp hr hcrc hl hh hb hdim hlost hconv hep hrep hnd hgood hbf
    exact execPullBlockArrival_ends hu hp hr ⟨hcrc, hl, hh, hb, hdim, hlost, hconv, hep⟩ hrep hnd hgood hbf
  case late =>
    intro rid l h b x y cs p s hu hp hdue hcs
    obtain ⟨t, hd, hget, hsent, hmem⟩ := execPullArriveDeadline_next hu hp hdue hcs
    exact ⟨t, hd, congrArg (Option.map _) hget, hsent, hmem⟩
  case failed => exact fun _ _ _ _ _ _ _ _ _ hu hp hdue hcs hcid hc => execPullArriveDeadline_last hu hp hdue hcs hcid hc
end
section
/-! SUPPORT. How a block's demotion and migration begin and end (R217, R222 to R225). -/

namespace Sys2Proof.Machine
open Sys2Proof

variable {s : State} {comp da : Nat} {m : Migration}

/-! ### A demotion pass -/

/-- The bookkeeping of demotion: which compositions demote, and when the next block may. -/
def State.withDemotion (s : State) (on : List Nat) (at_ : Nat) : State := { s with tier := { s.tier with demoting := on, demotedAt := at_ } }

theorem State.claimSlot_withDemotion (s : State) (on : List Nat) (at_ da vi comp book : Nat) :
    (s.withDemotion on at_).claimSlot da vi comp book = (s.claimSlot da vi comp book).withDemotion on at_ := rfl
theorem State.wr_withDemotion (s : State) (on : List Nat) (at_ a : Nat) (bs : List Byte) :
    (s.withDemotion on at_).wr a bs = (s.wr a bs).withDemotion on at_ := rfl
theorem State.setDesc_withDemotion (s : State) (on : List Nat) (at_ da : Nat) (d : Desc) :
    (s.withDemotion on at_).setDesc da d = (s.setDesc da d).withDemotion on at_ := s.wr_withDemotion on at_ _ _

/-- Whether a migration starts, and what it does, does not depend on the bookkeeping of demotion. -/
theorem State.startMigration_withDemotion (s : State) (on : List Nat) (at_ da tier : Nat) (promotion codeOnly : Bool) :
    (s.withDemotion on at_).startMigration da tier promotion codeOnly = (s.startMigration da tier promotion codeOnly).map (·.withDemotion on at_) := by
  have hclaim : ∀ vi comp n, (s.withDemotion on at_).claimFault vi comp tier n = s.claimFault vi comp tier n := fun _ _ _ => rfl
  have hdie : (s.withDemotion on at_).dieFor = s.dieFor := rfl
  have hfree : (s.withDemotion on at_).freeSlot = s.freeSlot := rfl
  have hdesc : (s.withDemotion on at_).desc = s.desc := rfl
  have haddr : (s.withDemotion on at_).slotAddr = s.slotAddr := rfl
  have hmig : (s.withDemotion on at_).tier.migrations = s.tier.migrations := rfl
  have howners : (s.withDemotion on at_).tier.owners = s.tier.owners := rfl
  have hnow : (s.withDemotion on at_).now = s.now := rfl
  simp only [State.startMigration, hdesc, hmig, howners, hdie, hfree, hclaim, haddr, hnow, State.claimSlot_withDemotion, State.setDesc_withDemotion]
  split
  · rfl
  · split
    · rw [apply_ite (Option.map _)]
      rfl
    · rfl

/-- A pass below its thresholds ends the composition's demotion. -/
theorem execDemotionPass_ends (hu : Up s) (hhigh : s.dramPercent comp ≤ (s.tierPolicy comp).dramHigh)
    (hlow : comp ∉ s.tier.demoting ∨ s.dramPercent comp ≤ (s.tierPolicy comp).dramLow) :
    Does (.demotionPass comp) s (s.keeping { s with tier := { s.tier with demoting := s.tier.demoting.filter (· ≠ comp) } }) := by
  have hoff : (decide ((s.tierPolicy comp).dramHigh < s.dramPercent comp) ||
      (s.tier.demoting.contains comp && decide ((s.tierPolicy comp).dramLow < s.dramPercent comp))) = false := by
    simp only [Bool.or_eq_false_iff, decide_eq_false_iff_not, Nat.not_lt, hhigh, true_and, Bool.and_eq_false_iff, List.contains_eq_mem]
    exact hlow
  refine does_live rfl hu ?_
  simp only [hoff]
  rfl

/-- The state of a pass that demotes, the next block due a `demote_rate`th of a second from now. -/
def State.demotes (s : State) (comp rate : Nat) : State := s.withDemotion (s.tier.demoting ++ [comp]).dedup (s.now + ceilDiv 1000000000 rate)

/-- A pass above its thresholds sends the least recently read block to flash, or counts that it found no room. -/
theorem execDemotionPass_sends {p : TierPolicy} (hu : Up s) (hp : p = s.tierPolicy comp) (hhigh : p.dramHigh < s.dramPercent comp) (hrate : p.demoteRate ≠ 0)
    (hdue : s.tier.demotedAt ≤ s.now)
    (hda : minBy? (fun x => Tbl.at s.tier.lastRead x 0) ((s.tier.owners.filter (fun o => o.2.2 == comp && s.demotable comp o.1)).map (·.1)) = some da) :
    Does (.demotionPass comp) s (s.keeping (((s.demotes comp p.demoteRate).startMigration da 2 false (p.codeOnly && !s.heldLive (s.desc da).req)).getD
      { s.demotes comp p.demoteRate with tier := { (s.demotes comp p.demoteRate).tier with demoteBlocked := s.tier.demoteBlocked + 1 } })) := by
  subst hp
  refine does_live rfl hu ?_
  have hwait : ((s.tierPolicy comp).demoteRate == 0) = false ∧ decide (s.now < s.tier.demotedAt) = false := by simp [hrate, hdue]
  simp only [hhigh, hwait, hda, Nat.max_eq_left hdue, decide_true, Bool.true_or, if_true, Bool.not_true, Bool.or_false, Bool.false_eq_true, if_false]
  change (match (s.demotes comp (s.tierPolicy comp).demoteRate).startMigration da 2 false _ with | some t => t | none => _) = _
  cases (s.demotes comp (s.tierPolicy comp).demoteRate).startMigration da 2 false ((s.tierPolicy comp).codeOnly && !s.heldLive (s.desc da).req) <;> rfl

/-! ### A migration's end -/

/-- What a migration's end is read by: the migrations, the slots in transit and the protection maps. -/
def State.moving (s : State) : Tbl Nat Migration × List Nat × Prot := (s.tier.migrations, s.tier.transit, s.prot)

@[simp] theorem State.wr_moving (s : State) (a : Nat) (bs : List Byte) : (s.wr a bs).moving = s.moving := rfl
@[simp] theorem State.setDesc_moving (s : State) (da : Nat) (d : Desc) : (s.setDesc da d).moving = s.moving := s.wr_moving _ _
@[simp] theorem State.setMapEntry_moving (s : State) (r : Req) (l h b da : Nat) : (s.setMapEntry r l h b da).moving = s.moving := s.wr_moving _ _
@[simp] theorem State.setCbSet_moving (s : State) (ctx e : Nat) (x : CbSet) : (s.setCbSet ctx e x).moving = s.moving := s.wr_moving _ _
@[simp] theorem State.bookNew_moving (s : State) (q sc i n : Nat) : (s.bookNew q sc i n).moving = s.moving := rfl
@[simp] theorem State.bookEnd_moving (s : State) (q sc i n : Nat) : (s.bookEnd q sc i n).moving = s.moving := rfl
@[simp] theorem State.bookSlot_moving (s : State) (da i j : Nat) : (s.bookSlot da i j).moving = s.moving := rfl
@[simp] theorem State.unmapSector_moving (s : State) (sec : Nat) : (s.unmapSector sec).moving = s.moving := rfl
@[simp] theorem State.dropTees_moving (s : State) (da n : Nat) : (s.dropTees da n).moving = s.moving := rfl

@[simp] theorem State.ledgerBroken_moving (s : State) (q sc x f : Nat) (b : Bool) : (s.ledgerBroken q sc x f b).moving = s.moving := by
  simp [State.moving, State.ledgerBroken, State.raise0]

@[simp] theorem State.store_moving (s : State) (a : Nat) (bs : List Byte) : (s.store a bs).moving = s.moving := by
  obtain ⟨b, w, m, c, p, n, e⟩ := s.store_frame a bs
  rw [e]
  rfl

@[simp] theorem State.addRef_moving (s : State) (ctx e ver : Nat) (up : Bool) : (s.addRef ctx e ver up).moving = s.moving := by
  unfold State.addRef
  extract_lets x
  split
  · rfl
  · exact ite_keeps State.moving (by simp) (ite_keeps State.moving (by simp) (by simp))

@[simp] theorem State.descRefs_moving (s : State) (da : Nat) (up : Bool) : (s.descRefs da up).moving = s.moving := by
  unfold State.descRefs
  extract_lets d
  refine ite_keeps State.moving rfl ?_
  split <;> simp

/-- Freeing a slot takes it out of transit, and leaves migrations and protection maps. -/
theorem State.freeDesc_moving (s : State) (da i : Nat) :
    (s.freeDesc da i).moving = (s.tier.migrations, s.tier.transit.filter (· ≠ da), s.prot) := by
  unfold State.freeDesc
  extract_lets slot size s1 tier' s2 own' s3
  have hs1 : s1.moving = s.moving := (foldl_keeps State.moving _ State.unmapSector _ fun t x => t.unmapSector_moving x).trans (by simp)
  simp only [State.moving, Prod.mk.injEq] at hs1
  obtain ⟨hmig, htransit, hprot⟩ := hs1
  have hs3 : s3.moving = (s1.tier.migrations, s1.tier.transit.filter (· ≠ da), s1.prot) := rfl
  rw [State.bookSlot_moving, State.setDesc_moving, hs3, hmig, htransit, hprot]

/-- A slot freed now or later leaves migrations and protection maps, and brings no slot into transit. -/
theorem State.freeOrWait_moving (s : State) (da : Nat) : (s.freeOrWait da).tier.migrations = s.tier.migrations ∧ (s.freeOrWait da).prot = s.prot ∧
    ∀ x ∈ (s.freeOrWait da).tier.transit, x ∈ s.tier.transit := by
  unfold State.freeOrWait
  split
  · exact ⟨rfl, rfl, fun _ hx => hx⟩
  · obtain ⟨hmig, htransit, hprot⟩ : _ = _ ∧ _ = _ ∧ _ = _ := by simpa only [State.moving, Prod.mk.injEq] using s.freeDesc_moving da (s.bookOf da)
    exact ⟨hmig, hprot, fun x hx => List.mem_of_mem_filter (htransit ▸ hx)⟩

/-- A migration that is done: it is listed no more, its slot is in transit no more, and the protection maps name the new slot. -/
def State.migrationDone (u : State) (da dst now : Nat) : State :=
  { u with tier := { u.tier with migrations := Tbl.del u.tier.migrations da, transit := u.tier.transit.filter (· ≠ dst)
                                 lastRead := Tbl.set u.tier.lastRead dst (Tbl.at u.tier.lastRead da now) }
           prot := { u.prot with shards := Tbl.mapVals u.prot.shards (fun _ x => if x = da then dst else x)
                                 copies := Tbl.mapVals u.prot.copies (fun _ x => if x = da then dst else x) } }

/-- A migration whose source verifies copies the block, switches to the copy and frees the source. -/
theorem execMigrationComplete_moves (hu : Up s) (hm : Tbl.get s.tier.migrations da = some m)
    (hread : s.readFault (s.desc da).slot (inUse (s.desc da).repr (dimOf (s.desc da).dim)) = none) (hgood : s.badPlane (s.desc da) = none) :
    ∃ u : State, u.moving = s.moving ∧ Does (.migrationComplete da) s (s.keeping ((u.migrationDone da m.dst s.now).freeOrWait da)) := by
  have hd : Does (.migrationComplete da) s _ := does_live rfl hu rfl
  simp only [hm, hread, hgood, Option.isSome_none, Bool.false_eq_true, if_false] at hd
  refine ⟨_, ?_, hd⟩
  split
  · refine ite_keeps State.moving ?_ ?_
    · simp
    · simp
  · simp

/-- A migration dropped is listed no more, and its slot is out of transit and charged to nobody. -/
theorem State.dropMigration_ends (s : State) (da dst : Nat) : Tbl.has (s.dropMigration da dst).tier.migrations da = false ∧
    dst ∉ (s.dropMigration da dst).tier.transit ∧ Tbl.has (s.dropMigration da dst).tier.owners dst = false := by
  simp [State.dropMigration, State.dropClaim, State.bookSlot, Tbl.has]

/-- Dropping a migration leaves the log, the protection maps and the requests. -/
@[simp] theorem State.dropMigration_fields (s : State) (da dst : Nat) :
    (s.dropMigration da dst).log = s.log ∧ (s.dropMigration da dst).prot = s.prot ∧ (s.dropMigration da dst).kv = s.kv := by
  simp [State.dropMigration, State.dropClaim, State.bookSlot]

/-- The new place of a migrated block is in every protection map, and nothing migrates there any more. -/
theorem execMigrationComplete_switches (hu : Up s) (hm : Tbl.get s.tier.migrations da = some m)
    (hread : s.readFault (s.desc da).slot (inUse (s.desc da).repr (dimOf (s.desc da).dim)) = none) (hgood : s.badPlane (s.desc da) = none) :
    ∃ t, Does (.migrationComplete da) s t ∧ Tbl.has t.tier.migrations da = false ∧ m.dst ∉ t.tier.transit ∧
      t.prot.shards = Tbl.mapVals s.prot.shards (fun _ x => if x = da then m.dst else x) ∧
      t.prot.copies = Tbl.mapVals s.prot.copies (fun _ x => if x = da then m.dst else x) := by
  obtain ⟨u, hmoving, hd⟩ := execMigrationComplete_moves hu hm hread hgood
  obtain ⟨hmig, hprot, htransit⟩ := (u.migrationDone da m.dst s.now).freeOrWait_moving da
  have hsame : u.prot = s.prot := congrArg (·.2.2) hmoving
  refine ⟨_, hd, ?_⟩
  simp only [State.keeping_fields, hmig, hprot]
  refine ⟨?_, fun hx => ?_, ?_, ?_⟩
  · simp [State.migrationDone, Tbl.has]
  · simpa [State.migrationDone] using htransit _ hx
  · simp only [State.migrationDone, hsame]
  · simp only [State.migrationDone, hsame]

/-- A plane that failed has raised one event, and leaves the protection maps. -/
@[simp] theorem State.planeFail_fields (s : State) (da plane : Nat) :
    (s.planeFail da plane).log.evSeq = s.log.evSeq + 1 ∧ (s.planeFail da plane).prot = s.prot := by
  simp [State.planeFail, State.raise0]

/-- A command that dropped a migration after one event. -/
theorem does_drops {i : Instr} {t : State} {dst : Nat} (hd : Does i s (s.keeping (t.dropMigration da dst))) (hseq : t.log.evSeq = s.log.evSeq + 1) (hprot : t.prot = s.prot) :
    ∃ t, Does i s t ∧ Tbl.has t.tier.migrations da = false ∧ t.log.evSeq = s.log.evSeq + 1 ∧ t.prot = s.prot := by
  refine ⟨_, hd, ?_⟩
  simpa only [State.keeping_fields, State.dropMigration_fields, hseq, hprot, and_self, and_true] using (t.dropMigration_ends da dst).1

/-- A migration whose source cannot be read is dropped with an event. -/
theorem execMigrationComplete_unread (hu : Up s) (hm : Tbl.get s.tier.migrations da = some m)
    (hread : s.readFault (s.desc da).slot (inUse (s.desc da).repr (dimOf (s.desc da).dim)) ≠ none) : ∃ d n pl,
    Does (.migrationComplete da) s (s.keeping (((s.setDesc da { s.desc da with st := dLost }).raise0 .planeCheck d n pl).dropMigration da m.dst)) := by
  have hd : Does (.migrationComplete da) s _ := does_live rfl hu rfl
  simp only [hm, Option.isSome_iff_ne_none.mpr hread, if_true] at hd
  exact ⟨_, _, _, hd⟩

/-- A migration whose source does not verify is dropped, and the source's plane has failed. -/
theorem execMigrationComplete_bad {plane : Nat} (hu : Up s) (hm : Tbl.get s.tier.migrations da = some m)
    (hread : s.readFault (s.desc da).slot (inUse (s.desc da).repr (dimOf (s.desc da).dim)) = none) (hbad : s.badPlane (s.desc da) = some plane) :
    Does (.migrationComplete da) s (s.keeping ((s.planeFail da plane).dropMigration da m.dst)) := by
  refine does_live rfl hu ?_
  simp only [hm, hread, hbad]
  rfl

/-! ### A late promotion -/

/-- A late promotion is dropped; without a record of its request no other copy is asked for. -/
theorem execPromotionDeadline_drops (hu : Up s) (hm : Tbl.get s.tier.migrations da = some m) (hpro : m.promotion = true)
    (hdue : m.startAt + (s.tierPolicy (((Tbl.get s.tier.owners da).map (·.2)).getD 0)).deadline ≤ s.now) (hr : s.req m.req = none) :
    Does (.promotionDeadline da) s (s.keeping (s.dropMigration da m.dst)) := by
  have hnone : (s.dropMigration da m.dst).req m.req = none := by simpa [State.req] using hr
  refine does_live rfl hu ?_
  simp only [hm, hpro, Nat.not_lt.mpr hdue, hnone]
  rfl

/-- A migration that is no promotion, or is not yet late, goes on. -/
theorem execPromotionDeadline_early (hu : Up s) (hm : Tbl.get s.tier.migrations da = some m)
    (hearly : m.promotion = false ∨ s.now < m.startAt + (s.tierPolicy (((Tbl.get s.tier.owners da).map (·.2)).getD 0)).deadline) :
    Does (.promotionDeadline da) s (s.keeping s) := by
  refine does_live rfl hu ?_
  simp only [hm]
  exact if_pos (by simpa using hearly)

end Sys2Proof.Machine
end
section
/-! SUPPORT. What the patrol scrub counts and lists, and how a DRAM row is repaired (R229 to R231, R446, R447). -/

namespace Sys2Proof.Machine
open Sys2Proof

variable {s : State} {line ch group row : Nat}

/-! ### The patrol scrub -/

/-- The scrub counts a line's read and its outcome at its channel's unit. -/
theorem State.scrubEvents_frame (s : State) (u n : Nat) : ∃ p, (s.unitEvent u 0x0705 1 none).unitEvent u 0x0703 n none = { s with perf := p } := by
  obtain ⟨p, e1⟩ := s.unitEvent_frame u 0x0705 1 none
  obtain ⟨q, e2⟩ := State.unitEvent_frame { s with perf := p } u 0x0703 n none
  exact ⟨q, by rw [e1]; exact e2⟩

/-- The counts of a correction on a channel: its corrections, and the passes on which its row showed one. -/
def State.countCorrected (s : State) (ch row : Nat) : State :=
  { s with tier := { s.tier with
      corrected := Tbl.set s.tier.corrected ch (Tbl.at s.tier.corrected ch 0 + 1)
      rowErrors := Tbl.updD s.tier.rowErrors (rowKey ch row) (0, 0)
        (fun x => if x.2 = s.now / max 1 s.tier.scrubPeriod + 1 then x else (x.1 + 1, s.now / max 1 s.tier.scrubPeriod + 1)) } }

/-- A line listed as one that reads uncorrectable. -/
def State.listBad (s : State) (line : Nat) : State := { s with tier := { s.tier with badLines := s.tier.badLines ++ [line] } }

section
variable (hu : Up s) (hspace : addrSpace (64 * line) = 1) (hnode : addrNode (64 * line) = s.node) (hdef : s.offsetDefined (64 * line) = true)
  (hrow : rowOf (64 * line) = (ch, row)) (hup : s.channelUp ch = true)
include hu hspace hnode hdef hrow hup

/-- A line that the scrub reads clean is counted at its channel alone. -/
theorem execScrubLine_clean : ∃ p, Does (.scrubLine line 0) s (s.keeping { s with perf := p }) := by
  obtain ⟨p, e⟩ := s.scrubEvents_frame (0x700 + ch) (b2n false)
  refine ⟨p, does_live rfl hu ?_⟩
  simp [hspace, hnode, hdef, hrow, hup, e]

/-- A corrected line is counted, and every 1,024th on its channel raises an event. -/
theorem execScrubLine_corrected : ∃ p, Does (.scrubLine line 1) s (s.keeping
    (if (Tbl.at s.tier.corrected ch 0 + 1) % 1024 = 0 then
      (({ s with perf := p } : State).countCorrected ch row).raise0 .dramError (dieMC (ch / 2)) (0x700 + ch) [ch, 64 * line, 1, Tbl.at s.tier.corrected ch 0 + 1]
    else ({ s with perf := p } : State).countCorrected ch row)) := by
  obtain ⟨p, e⟩ := s.scrubEvents_frame (0x700 + ch) (b2n true)
  refine ⟨p, does_live rfl hu ?_⟩
  simp [hspace, hnode, hdef, hrow, hup, e, State.countCorrected]

/-- A line that reads uncorrectable for the first time, and lies in no slot, is listed with an event. -/
theorem execScrubLine_uncorrectable (hgood : s.lineBad (64 * line) = false) (hslot : s.slotAt (64 * line) = none) :
    ∃ p, Does (.scrubLine line 2) s (s.keeping ((({ s with perf := p } : State).listBad line).dramError (64 * line))) := by
  obtain ⟨p, e⟩ := s.scrubEvents_frame (0x700 + ch) (b2n false)
  have hlost : ((({ s with perf := p } : State).listBad line).dramError (64 * line)).blockLineLost (64 * line) =
      (({ s with perf := p } : State).listBad line).dramError (64 * line) := by
    have hnone : ((({ s with perf := p } : State).listBad line).dramError (64 * line)).slotAt (64 * line) = none := by
      simpa [State.slotAt, State.dramError, State.raise0, State.listBad] using hslot
    simp [State.blockLineLost, hnone]
  have hbad : ({ s with perf := p } : State).lineBad (64 * line) = false := hgood
  refine ⟨p, does_live rfl hu (Eq.trans ?_ hlost)⟩
  simp [hspace, hnode, hdef, hrow, hup, e, hbad, State.listBad]

end

/-! ### Row repair -/

/-- What a retired row is read by: the rows retired, the capacity mark and the lost channels. -/
def State.wear (s : State) : Tiers × Bool × List Nat := (s.tier, s.pw.capLost, s.pkg.dramLost)

/-- A capacity reduction raises its event, marks the loss and leaves the rest. -/
theorem State.capReduced_frame (s : State) (die unit before after work : Nat) : ∃ g v m a e, s.capReduced die unit before after work =
    { s with log := g, work := { s.work with vis := v }, mem := m, pw := { s.pw with capLost := true, alertLow := a, alertEndAt := e } } ∧ g.evSeq = s.log.evSeq + 1 := by
  obtain ⟨g, v, m, h, hseq, -⟩ := s.raise_frame .capacityReduced die unit [unit, before, after, work] []
  obtain ⟨a, e, ha⟩ := State.alert_frame { s with log := g, work := { s.work with vis := v }, mem := m, pw := { s.pw with capLost := true } }
  refine ⟨g, v, m, a, e, ?_, hseq⟩
  rw [State.capReduced, State.raise0, h]
  exact ha

@[simp] theorem State.capReduced_wear (s : State) (die unit before after work : Nat) :
    (s.capReduced die unit before after work).wear = (s.tier, true, s.pkg.dramLost) := by
  obtain ⟨g, v, m, a, e, h, -⟩ := s.capReduced_frame die unit before after work
  rw [h]
  rfl

/-- A repair from a spare: its event, and that of the spare used. -/
def State.repaired (s : State) (die unit : Nat) (payload : List Nat) (before after : Nat) : State := (s.raise0 .dramRepair die unit payload).spareUsed die unit before after

/-- The two events of a repair leave the tiers and the boot. -/
@[simp] theorem State.repaired_fields (s : State) (die unit : Nat) (payload : List Nat) (before after : Nat) :
    (s.repaired die unit payload before after).tier = s.tier ∧ (s.repaired die unit payload before after).boot = s.boot ∧
      (s.repaired die unit payload before after).log.evSeq = s.log.evSeq + 2 := by
  simp [State.repaired, State.spareUsed, State.raise0]

/-- A row retired: one more of its channel. -/
def State.retireRow (s : State) (ch row : Nat) : State :=
  { s with tier := { s.tier with rowErrors := Tbl.del s.tier.rowErrors (rowKey ch row), rowsRetired := Tbl.set s.tier.rowsRetired ch (Tbl.at s.tier.rowsRetired ch 0 + 1) } }

/-- A channel lost for its retired rows. -/
def State.loseChannel (s : State) (ch : Nat) : State := { s with pkg := { s.pkg with dramLost := s.pkg.dramLost ++ [ch] } }

/-- A capacity reduction, the channel's units booked and the channel lost: the loss is all that is added. -/
theorem State.loseChannel_wear (s : State) (die unit a b : Nat) :
    (((s.capReduced die unit a b 0).settle unit).loseChannel ch).wear = (s.tier, true, s.pkg.dramLost ++ [ch]) := by
  obtain ⟨p, e⟩ := (s.capReduced die unit a b 0).settle_frame unit
  obtain ⟨htier, hlost, hdram⟩ : _ = _ ∧ _ = _ ∧ _ = _ := by simpa only [State.wear, Prod.mk.injEq] using s.capReduced_wear die unit a b 0
  simp only [e, State.loseChannel, State.wear, htier, hlost, hdram]

section
variable (hu : Up s) (hch : ch < 16) (hup : s.channelUp ch = true)
include hu hch hup

/-- A repair made permanent at a reset is due no more, and raises its event. -/
theorem execRowRepair_permanent (hdue : s.boot.hardRepairs.contains (ch, row) = true) : ∃ d n pl, Does (.rowRepair ch group row true) s (s.keeping
    (({ s with boot := { s.boot with hardRepairs := s.boot.hardRepairs.filter (· ≠ (ch, row)) } } : State).raise0 .dramRepair d n pl)) := by
  have hserves : ¬ (16 ≤ ch ∨ (!s.channelUp ch) = true) := by simp [hch, hup]
  have hd : Does (.rowRepair ch group row true) s _ := does_live rfl hu rfl
  simp only [if_neg hserves, hdue, if_true] at hd
  exact ⟨_, _, _, hd⟩

variable (hdue : 2 ≤ (Tbl.at s.tier.rowErrors (rowKey ch row) (0, 0)).1)
include hdue

/-- A row with a spare in its group takes it, to be made permanent at the next reset. -/
theorem execRowRepair_spare (hb : 0 < s.rowSpare ch group) : ∃ d n pl x y, Does (.rowRepair ch group row false) s (s.keeping
    (({ s with tier := { s.tier with rowErrors := Tbl.del s.tier.rowErrors (rowKey ch row), rowSpares := Tbl.set s.tier.rowSpares (ch, group) (s.rowSpare ch group - 1) }
               boot := { s.boot with hardRepairs := s.boot.hardRepairs ++ [(ch, row)] } } : State).repaired d n pl x y)) := by
  have hserves : ¬ (16 ≤ ch ∨ (!s.channelUp ch) = true) := by simp [hch, hup]
  have hd : Does (.rowRepair ch group row false) s _ := does_live rfl hu rfl
  simp only [if_neg hserves, hdue, hb, decide_true, Bool.true_or, Bool.not_true, Bool.false_eq_true, if_false, if_true] at hd
  exact ⟨_, _, _, _, _, hd⟩

/-- Without a spare row the channel's line-spare area is used. -/
theorem execRowRepair_lines (hb : s.rowSpare ch group = 0) (hl : 0 < Tbl.at s.tier.lineSpares ch 2048) : ∃ d n pl x y, Does (.rowRepair ch group row false) s (s.keeping
    (({ s with tier := { s.tier with rowErrors := Tbl.del s.tier.rowErrors (rowKey ch row), lineSpares := Tbl.set s.tier.lineSpares ch (Tbl.at s.tier.lineSpares ch 2048 - 1) } } : State).repaired
      d n pl x y)) := by
  have hserves : ¬ (16 ≤ ch ∨ (!s.channelUp ch) = true) := by simp [hch, hup]
  have hd : Does (.rowRepair ch group row false) s _ := does_live rfl hu rfl
  simp only [if_neg hserves, hdue, hb, hl, Nat.lt_irrefl, decide_true, Bool.true_or, Bool.not_true, Bool.false_eq_true, if_false, if_true] at hd
  exact ⟨_, _, _, _, _, hd⟩

/-- With neither left the row is retired; a channel with more than 1% of its rows retired is retired with it. -/
theorem execRowRepair_retires (hb : s.rowSpare ch group = 0) (hl : Tbl.at s.tier.lineSpares ch 2048 = 0) : ∃ a b d e, Does (.rowRepair ch group row false) s (s.keeping
    (if s.dimmBytes ch / 8192 < 100 * (Tbl.at s.tier.rowsRetired ch 0 + 1) then
      ((((s.retireRow ch row).capReduced (dieMC (ch / 2)) (0x700 + ch) a b 0).settle (0x700 + ch)).loseChannel ch).capReduced (dieMC (ch / 2)) (0x700 + ch) d e 0
    else (s.retireRow ch row).capReduced (dieMC (ch / 2)) (0x700 + ch) a b 0)) := by
  have hserves : ¬ (16 ≤ ch ∨ (!s.channelUp ch) = true) := by simp [hch, hup]
  have hd : Does (.rowRepair ch group row false) s _ := does_live rfl hu rfl
  simp only [if_neg hserves, hdue, hb, hl, Nat.lt_irrefl, decide_true, Bool.true_or, Bool.not_true, Bool.false_eq_true, if_false] at hd
  exact ⟨_, _, _, _, hd⟩

/-- A retired row is counted, the capacity is marked as reduced, and the channel is lost with it above 1% of its rows. -/
theorem execRowRepair_counts (hb : s.rowSpare ch group = 0) (hl : Tbl.at s.tier.lineSpares ch 2048 = 0) : ∃ t, Does (.rowRepair ch group row false) s t ∧
    t.wear = ((s.retireRow ch row).tier, true, s.pkg.dramLost ++ (if s.dimmBytes ch / 8192 < 100 * (Tbl.at s.tier.rowsRetired ch 0 + 1) then [ch] else [])) := by
  obtain ⟨a, b, d, e, hd⟩ := execRowRepair_retires hu hch hup hdue hb hl
  refine ⟨_, hd, ?_⟩
  split
  · exact (State.capReduced_wear ..).trans (congrArg (fun w => (w.1, true, w.2.2)) (State.loseChannel_wear ..))
  · exact (State.capReduced_wear ..).trans (by rw [List.append_nil]; rfl)

end

end Sys2Proof.Machine
end
section
/-! SUPPORT. Where flash sectors move, and what that leaves of the channels (R219, R232, R233, R446). -/

namespace Sys2Proof.Machine
open Sys2Proof

variable {s t u : State} {sec ch block : Nat}

/-- Entering a key that is listed lists the same keys. -/
theorem Tbl.has_set_listed {κ α : Type} [DecidableEq κ] {t : Tbl κ α} {k : κ} (h : Tbl.has t k = true) (v : α) (x : κ) : Tbl.has (Tbl.set t k v) x = Tbl.has t x := by
  by_cases hx : x = k
  · subst hx
    rw [Tbl.has, Tbl.get_set_same, h]
    rfl
  · rw [Tbl.has, Tbl.get_set_other _ _ _ _ hx, Tbl.has]

/-- Some flash channel serves and takes writes. -/
def State.flashWrites (s : State) : Bool := s.pkg.flashUp.any (fun ch => s.flashChanUp ch && !(Tbl.at s.tier.chans ch {}).readOnly)

/-- Where a flash channel takes writes, a sector is mapped to a place on one. -/
theorem State.mapSector_maps (h : s.flashWrites = true) (sec : Nat) : ∃ ch block p n, s.mapSector sec =
    { s with tier := { s.tier with map := Tbl.set s.tier.map sec (ch, block)
                                   chans := Tbl.updD s.tier.chans ch {} (fun c => { c with writes := c.writes + 1, programs := c.programs + 1 }) }, perf := p, free := n } := by
  obtain ⟨ch, hch, hwrites⟩ := List.any_eq_true.mp h
  have hpos : 0 < (s.pkg.flashUp.filter (fun ch => s.flashChanUp ch && !(Tbl.at s.tier.chans ch {}).readOnly)).length :=
    List.length_pos_of_mem (List.mem_filter.mpr ⟨hch, hwrites⟩)
  have hlt : (Config.freeWord s.free).toNat % max 1 (s.pkg.flashUp.filter (fun ch => s.flashChanUp ch && !(Tbl.at s.tier.chans ch {}).readOnly)).length <
      (s.pkg.flashUp.filter (fun ch => s.flashChanUp ch && !(Tbl.at s.tier.chans ch {}).readOnly)).length := by
    rw [Nat.max_eq_right hpos]
    exact Nat.mod_lt _ hpos
  simp only [State.mapSector, State.draw, List.getElem?_eq_getElem hlt]
  exact (State.unitEvent_frame _ _ _ _ _).elim fun p e => ⟨_, _, p, _, e⟩

/-- A mapped sector moves to a place on a channel that takes writes, to be rewritten no more; no write of a host is counted. -/
theorem State.moveSector_moves (hmap : Tbl.has s.tier.map sec = true) (h : s.flashWrites = true) : ∃ ch block p n, s.moveSector sec =
    { s with tier := { s.tier with
        map := Tbl.set s.tier.map sec (ch, block), rewrite := Tbl.del s.tier.rewrite sec,
        chans := Tbl.upd (Tbl.updD s.tier.chans ch {} (fun c => { c with writes := c.writes + 1, programs := c.programs + 1 })) ch (fun c => { c with writes := c.writes - 1 }) }, perf := p, free := n } := by
  obtain ⟨ch, block, p, n, e⟩ := State.mapSector_maps h sec
  unfold State.flashWrites at h
  refine ⟨ch, block, p, n, ?_⟩
  simp only [State.moveSector, hmap, h, e, Tbl.get_set_same]
  rfl

/-- A sector that is not mapped, or for which no channel takes writes, stays. -/
theorem State.moveSector_stays (h : ¬ (Tbl.has s.tier.map sec = true ∧ s.flashWrites = true)) : s.moveSector sec = s := by
  unfold State.flashWrites at h
  unfold State.moveSector
  exact if_pos (by rcases Classical.not_and_iff_not_or_not.mp h with h | h <;> simp [Bool.eq_false_of_not_eq_true h])

/-! ### What moves leave -/

/-- What a move of sectors leaves of a channel's record. -/
def FlashChan.lasting (c : FlashChan) : List Nat × Nat × Nat × Bool := (c.retired, c.spare, c.erases, c.readOnly)

/-- Between two states sectors moved: memory and the log stand, the same sectors are mapped, and a listed channel's lasting record stands. -/
structure SectorsMoved (s t : State) : Prop where
  mem : t.mem = s.mem
  log : t.log = s.log
  mapped : ∀ x, Tbl.has t.tier.map x = Tbl.has s.tier.map x
  lasting : ∀ ch c, Tbl.get s.tier.chans ch = some c → (Tbl.get t.tier.chans ch).map FlashChan.lasting = some c.lasting

theorem SectorsMoved.refl (s : State) : SectorsMoved s s := ⟨rfl, rfl, fun _ => rfl, fun _ _ h => congrArg (Option.map _) h⟩

theorem SectorsMoved.trans (h : SectorsMoved s t) (g : SectorsMoved t u) : SectorsMoved s u where
  mem := g.mem.trans h.mem
  log := g.log.trans h.log
  mapped x := (g.mapped x).trans (h.mapped x)
  lasting ch c hc := by
    obtain ⟨d, hd, hk⟩ := Option.map_eq_some_iff.mp (h.lasting ch c hc)
    exact (g.lasting ch d hd).trans (congrArg some hk)

/-- A program counted at a channel leaves the lasting record of every listed channel. -/
theorem chans_programmed {t : Tbl Nat FlashChan} {c : FlashChan} (hc : Tbl.get t ch = some c) (k : Nat) :
    (Tbl.get (Tbl.upd (Tbl.updD t k {} (fun c => { c with writes := c.writes + 1, programs := c.programs + 1 })) k (fun c => { c with writes := c.writes - 1 })) ch).map FlashChan.lasting =
      some c.lasting := by
  by_cases hk : ch = k
  · subst hk
    rw [Tbl.updD, Tbl.get_upd_some _ _ _ _ (Tbl.get_set_same _ _ _), Tbl.at, hc]
    rfl
  · rw [Tbl.get_upd_other _ _ _ _ hk, Tbl.updD, Tbl.get_set_other _ _ _ _ hk, hc]
    rfl

theorem State.moveSector_moved (s : State) (sec : Nat) : SectorsMoved s (s.moveSector sec) := by
  by_cases h : Tbl.has s.tier.map sec = true ∧ s.flashWrites = true
  · obtain ⟨ch, block, p, n, e⟩ := State.moveSector_moves h.1 h.2
    rw [e]
    exact ⟨rfl, rfl, Tbl.has_set_listed h.1 _, fun _ _ hc => chans_programmed hc ch⟩
  · rw [State.moveSector_stays h]
    exact .refl s

/-- Moving any sectors in turn. -/
theorem moveSectors_moved (secs : List Nat) (s : State) : SectorsMoved s (secs.foldl State.moveSector s) :=
  List.foldlRecOn secs State.moveSector (.refl s) fun t ht sec _ => ht.trans (t.moveSector_moved sec)

/-! ### The flash dies' work -/

/-- A sector to rewrite is mapped elsewhere, and no other moves. -/
theorem execFlashRelocate_moves (hu : Up s) (hre : Tbl.has s.tier.rewrite sec = true) (hmap : Tbl.has s.tier.map sec = true) (hw : s.flashWrites = true) :
    ∃ t, Does (.flashRelocate sec) s t ∧ Tbl.has t.tier.rewrite sec = false ∧ Tbl.has t.tier.map sec = true ∧ t.mem = s.mem ∧
      (∀ x, x ≠ sec → Tbl.get t.tier.map x = Tbl.get s.tier.map x) := by
  obtain ⟨ch, block, p, n, e⟩ := State.moveSector_moves hmap hw
  refine ⟨_, does_live rfl hu ((if_pos hre).trans e), ?_, ?_, rfl, fun x hx => Tbl.get_set_other _ _ _ _ hx⟩
  · simp [Tbl.has]
  · simp [Tbl.has]

/-- A block is erased once its sectors have moved. -/
theorem execFlashGc_erases {c : FlashChan} (hu : Up s) (hup : s.flashChanUp ch = true) (hc : Tbl.get s.tier.chans ch = some c) (hgood : c.retired.contains block = false) :
    ∃ t, Does (.flashGc ch block) s t ∧ (Tbl.get t.tier.chans ch).map (·.erases) = some (c.erases + 1) ∧ t.mem = s.mem ∧ t.log = s.log ∧
      (∀ x, Tbl.has t.tier.map x = Tbl.has s.tier.map x) := by
  have hmoved := moveSectors_moved (s.inNandBlock ch block) s
  generalize hv : (s.inNandBlock ch block).foldl State.moveSector s = v at hmoved
  obtain ⟨d, hd, hlast⟩ := Option.map_eq_some_iff.mp (hmoved.lasting ch c hc)
  obtain ⟨p, e⟩ := State.unitEvent_frame { v with tier := { v.tier with chans := Tbl.upd v.tier.chans ch (fun c => { c with erases := c.erases + 1 }) } } (0x600 + ch) 0x0606 1 none
  have herases : d.erases = c.erases := congrArg (·.2.2.1) hlast
  have hserves : ¬ ((!s.flashChanUp ch) = true ∨ (Tbl.at s.tier.chans ch {}).retired.contains block = true) := by
    have hat : Tbl.at s.tier.chans ch {} = c := by rw [Tbl.at, hc]; rfl
    rw [hat, hup, hgood]
    simp
  have hd' : Does (.flashGc ch block) s _ := does_live rfl hu (if_neg hserves)
  rw [hv, e] at hd'
  refine ⟨_, hd', ?_, hmoved.mem, hmoved.log, hmoved.mapped⟩
  show (Tbl.get (Tbl.upd v.tier.chans ch _) ch).map _ = _
  rw [Tbl.get_upd_some _ _ _ d hd, ← herases]
  rfl

/-- A NAND block retired from its channel, which takes no writes below 0.5% of free spares. -/
def FlashChan.retire (c : FlashChan) (block : Nat) : FlashChan :=
  { c with retired := c.retired ++ [block], spare := c.spare - 1, readOnly := c.readOnly || decide (200 * (c.spare - 1) < c.blocks) }

/-- A failed block is retired from its channel, its sectors move, and its events follow. -/
theorem execNandBlockFail_retires {c : FlashChan} (hu : Up s) (hup : s.flashChanUp ch = true) (hc : c = Tbl.at s.tier.chans ch {}) (hgood : c.retired.contains block = false) :
    ∃ t v, Does (.nandBlockFail ch block) s t ∧ SectorsMoved { s with tier := { s.tier with chans := Tbl.set s.tier.chans ch (c.retire block) } } v ∧ t.tier = v.tier ∧
      s.log.evSeq < t.log.evSeq := by
  subst hc
  have hserves : ¬ ((!s.flashChanUp ch) = true ∨ (Tbl.at s.tier.chans ch {}).retired.contains block = true) := by
    rw [hup, hgood]
    simp
  have hd : Does (.nandBlockFail ch block) s _ := does_live rfl hu (if_neg hserves)
  extract_lets die before spare low tier s1 s2 s3 s4 at hd
  have hs2 : SectorsMoved s1 s2 := moveSectors_moved _ _
  have hs3 : SectorsMoved s1 s3 := by
    unfold s3
    split
    · exact hs2.trans (moveSectors_moved _ _)
    · exact hs2
  have hs4 : s4.tier = s3.tier ∧ s4.log.evSeq = s.log.evSeq + 2 := by simp [s4, State.spareUsed, State.raise0, hs3.log, s1]
  obtain ⟨g, v, m, a, e, hcap, hseq⟩ := s4.capReduced_frame die (0x600 + ch) before s4.flashCapacity 0
  refine ⟨_, s3, hd, hs3, ite_keeps State.tier (by rw [hcap]; exact hs4.1) hs4.1, ?_⟩
  show _ < (State.log (if _ then _ else _)).evSeq
  split
  · rw [hcap]
    show _ < g.evSeq
    omega
  · omega

end Sys2Proof.Machine
end
section
open Sys2Proof Sys2Proof.Machine

/-- Settles O54: one lemma per outcome of each command; a migration's end and the moves of flash sectors are read by what their many writes leave. -/
theorem memoryTiers : Obligations.MemoryTiers := by
  refine ⟨?ends, ?sends, ?moved, ?bad, ?unread, ?late, ?early, ?clean, ?corrected, ?uncorrectable, ?spare, ?lines, ?retired, ?permanent, ?relocated, ?erased, ?failed⟩
  case ends => exact fun _ _ hu hhigh hlow => execDemotionPass_ends hu hhigh hlow
  case sends =>
    intro comp da p s hu hp hhigh hrate hdue hda
    have hd := execDemotionPass_sends hu hp hhigh hrate hdue hda
    have hon : comp ∈ (s.tier.demoting ++ [comp]).dedup := List.mem_dedup.mpr (List.mem_append_right _ (List.mem_singleton_self comp))
    rw [State.demotes, State.startMigration_withDemotion] at hd
    cases hstart : s.startMigration da 2 false (p.codeOnly && !s.heldLive (s.desc da).req) with
    | none =>
      rw [hstart] at hd
      exact ⟨_, hd, hon, rfl, rfl, rfl, rfl⟩
    | some u =>
      rw [hstart] at hd
      exact ⟨_, hd, hon, rfl, rfl, rfl, rfl, rfl⟩
  case moved => exact fun _ _ _ hu hm hread hgood => execMigrationComplete_switches hu hm hread hgood
  case bad =>
    intro da plane m s hu hm hread hbad
    exact does_drops (execMigrationComplete_bad hu hm hread hbad) (s.planeFail_fields da plane).1 (s.planeFail_fields da plane).2
  case unread =>
    intro da m s hu hm hread
    obtain ⟨d, n, pl, hd⟩ := execMigrationComplete_unread hu hm hread
    exact does_drops hd (by simp [State.raise0]) (by simp [State.raise0])
  case late =>
    intro da m s hu hm hpro hdue hr
    obtain ⟨hmig, htransit, howner⟩ := s.dropMigration_ends da m.dst
    exact ⟨_, execPromotionDeadline_drops hu hm hpro hdue hr, hmig, htransit, howner, (s.dropMigration_fields da m.dst).1⟩
  case early => exact fun _ _ _ hu hm hearly => execPromotionDeadline_early hu hm hearly
  case clean =>
    intro line s hu hspace hnode hdef hup
    obtain ⟨p, hd⟩ := execScrubLine_clean hu hspace hnode hdef rfl hup
    exact ⟨_, hd, rfl, rfl, rfl⟩
  case corrected =>
    intro line ch n s hu hspace hnode hdef hch hup hn
    subst hch hn
    obtain ⟨p, hd⟩ := execScrubLine_corrected hu hspace hnode hdef (Prod.mk.eta (p := rowOf (64 * line))).symm hup
    refine ⟨_, hd, ?_⟩
    split
    · simp [State.countCorrected, State.raise0]
    · simp [State.countCorrected]
  case uncorrectable =>
    intro line s hu hspace hnode hdef hup hgood hslot
    obtain ⟨p, hd⟩ := execScrubLine_uncorrectable hu hspace hnode hdef rfl hup hgood hslot
    exact ⟨_, hd, by simp [State.dramError, State.raise0, State.listBad]⟩
  case spare =>
    intro ch group row b s hu hch hup hdue hb hpos
    subst hb
    obtain ⟨d, n, pl, x, y, hd⟩ := execRowRepair_spare hu hch hup hdue hpos
    exact ⟨_, hd, by simp [Tbl.has]⟩
  case lines =>
    intro ch group row n s hu hch hup hdue hb hn hpos
    subst hn
    obtain ⟨d, n, pl, x, y, hd⟩ := execRowRepair_lines hu hch hup hdue hb hpos
    exact ⟨_, hd, by simp⟩
  case retired =>
    intro ch group row n s hu hch hup hdue hb hl hn
    subst hn
    obtain ⟨t, hd, hwear⟩ := execRowRepair_counts hu hch hup hdue hb hl
    obtain ⟨htier, hlost, hdram⟩ : _ = _ ∧ _ = _ ∧ _ = _ := by simpa only [State.wear, Prod.mk.injEq] using hwear
    exact ⟨t, hd, (congrArg (Tbl.get ·.rowsRetired ch) htier).trans (Tbl.get_set_same _ _ _), hlost, hdram⟩
  case permanent =>
    intro ch group row s hu hch hup hdue
    obtain ⟨d, n, pl, hd⟩ := execRowRepair_permanent hu hch hup hdue
    exact ⟨_, hd, by simp [State.raise0]⟩
  case relocated => exact fun _ _ hu hre hmap hw => execFlashRelocate_moves hu hre hmap hw
  case erased => exact fun _ _ _ _ hu hup hc hgood => execFlashGc_erases hu hup hc hgood
  case failed =>
    intro ch block c s hu hup hc hgood
    obtain ⟨t, v, hd, hmoved, htier, hseq⟩ := execNandBlockFail_retires hu hup hc hgood
    obtain ⟨x, hx, hlast⟩ := Option.map_eq_some_iff.mp (hmoved.lasting ch (c.retire block) (Tbl.get_set_same _ _ _))
    have hget : Tbl.get t.tier.chans ch = some x := by rw [htier, hx]
    obtain ⟨hretired, hspare, -, hreadOnly⟩ : _ = _ ∧ _ = _ ∧ _ = _ ∧ _ = _ := by simpa only [FlashChan.lasting, Prod.mk.injEq] using hlast
    refine ⟨t, hd, ?_, fun hlow => ?_, fun y => ?_, hseq⟩
    · rw [hget, Option.map_some, hretired, hspare]
      rfl
    · rw [hget, Option.map_some, hreadOnly]
      simp [FlashChan.retire, hlow]
    · rw [htier]
      exact hmoved.mapped y
end
section
/-! SUPPORT. What ownership's shared operations leave: an entry that is mirrored, a leap that is aborted, an orphan, an operator's leap that is answered
(R116, R126, R130, R139, R397). -/

namespace Sys2Proof.Machine
open Sys2Proof

variable {s : State} {rid : Nat} {e : DirEntry}

/-! ### What is read of a package that runs -/

theorem State.keeping_hold (s t : State) (rid : Nat) : (s.keeping t).hold rid = t.hold rid := rfl
theorem State.keeping_req (s t : State) (rid : Nat) : (s.keeping t).req rid = t.req rid := rfl
theorem State.keeping_sent (s t : State) (dst code rid : Nat) : (s.keeping t).sent dst code rid ↔ t.sent dst code rid := Iff.rfl

/-! ### Messages sent -/

/-- The message just sent is the last one. -/
theorem State.tell_sent (s : State) (m : CtlMsg) : (s.tell m).sent m.dst m.code m.req := by
  simp [State.sent, State.tell]

/-- The last of the messages once one is sent. -/
theorem State.tell_last (s : State) (m : CtlMsg) : (s.tell m).log.msgs.getLast? = some m := by simp [State.tell]

/-! ### Entries -/

/-- An entry but for what its mirror holds up. -/
def DirEntry.settled (e : DirEntry) : DirEntry := { e with mirrorWait := 0, heldMsgs := [] }

/-- An entry just stored is the one read. -/
theorem State.setEntry_entry (s : State) (rid : Nat) (e : DirEntry) : (s.setEntry rid e).entry rid = some e := Tbl.get_set_same _ _ _

/-- A changed entry is stored, its mirror's wait aside; beside it messages leave and a unit counts, and no event is raised (R116). -/
theorem State.commitEntry_frame (s : State) (rid : Nat) (e : DirEntry) (msgs : List CtlMsg) :
    ∃ p l e', s.commitEntry rid e msgs = { s.setEntry rid e' with perf := p, log := l } ∧ e'.settled = e.settled ∧ l.evSeq = s.log.evSeq := by
  obtain ⟨p1, e1⟩ := s.unitEvent_frame 0x900 0x0901 1 none
  obtain ⟨p2, e2⟩ := State.unitEvent_frame { s with perf := p1 } 0x901 0x0901 1 none
  unfold State.commitEntry
  rw [e1, e2]
  extract_lets u
  split
  · obtain ⟨g, eg⟩ := foldl_tell_frame msgs (fun _ m => m) (u.setEntry rid e)
    have hseq : (msgs.foldl State.tell (u.setEntry rid e)).log.evSeq = s.log.evSeq := foldl_keeps (·.log.evSeq) msgs State.tell _ fun _ _ => rfl
    exact ⟨p2, g, e, eg, rfl, (congrArg (·.log.evSeq) eg).symm.trans hseq⟩
  · exact ⟨p2, _, _, rfl, rfl, rfl⟩

/-- A changed entry is read as it was stored, its mirror's wait aside. -/
theorem State.commitEntry_stored (s : State) (rid : Nat) (e : DirEntry) (msgs : List CtlMsg) :
    ∃ e', (s.commitEntry rid e msgs).entry rid = some e' ∧ e'.settled = e.settled := by
  obtain ⟨p, l, e', heq, hset, -⟩ := s.commitEntry_frame rid e msgs
  rw [heq]
  exact ⟨e', s.setEntry_entry rid e', hset⟩

/-- Storing a changed entry writes no memory and raises no event. -/
theorem State.commitEntry_leaves (s : State) (rid : Nat) (e : DirEntry) (msgs : List CtlMsg) :
    (s.commitEntry rid e msgs).mem = s.mem ∧ (s.commitEntry rid e msgs).log.evSeq = s.log.evSeq := by
  obtain ⟨p, l, e', heq, -, hseq⟩ := s.commitEntry_frame rid e msgs
  rw [heq]
  exact ⟨rfl, hseq⟩

/-- The entry of a leap that is aborted: the state the leap started from, and no target (R130). -/
def DirEntry.unleaped (e : DirEntry) (now : Nat) : DirEntry :=
  { e with st := (if e.leapFromDecode then .decoding else .protected_), leapTarget := 0, leapPhase := 0, leapFromDecode := false, stateTime := now,
           lastCommitted := false }

/-- A leap aborted stores its entry so, with one event; beside it messages, counters and the books change, and what the event writes (R130, R144). -/
theorem State.abortLeap_frame (s : State) (rid : Nat) (e : DirEntry) (reason : Nat) :
    ∃ p l d v m e', s.abortLeap rid e reason = { s.setEntry rid e' with perf := p, log := l, led := d, work := { s.work with vis := v }, mem := m } ∧
      e'.settled = (e.unleaped s.now).settled ∧ l.evSeq = s.log.evSeq + 1 := by
  unfold State.abortLeap
  extract_lets b e1 m
  obtain ⟨p, l, e', heq, hset, hseq⟩ := s.commitEntry_frame rid e1 [m e.holder, m b]
  rw [heq]
  obtain ⟨l', v, mm, hraise, hl', -⟩ := State.raise_frame (State.bookReq { s.setEntry rid e' with perf := p, log := l } e 5 4) .leapAborted s.hubDie 0 [rid, e.holder, b, reason] []
  exact ⟨p, l', _, v, mm, e', hraise, hset, hl'.trans (congrArg (· + 1) hseq)⟩

/-- An aborted leap's entry is read as it was before the leap, and its event has been raised. -/
theorem State.abortLeap_stored (s : State) (rid : Nat) (e : DirEntry) (reason : Nat) : ∃ e', (s.abortLeap rid e reason).entry rid = some e' ∧
    e'.settled = (e.unleaped s.now).settled ∧ (s.abortLeap rid e reason).log.evSeq = s.log.evSeq + 1 := by
  obtain ⟨p, l, d, v, m, e', heq, hset, hseq⟩ := s.abortLeap_frame rid e reason
  rw [heq]
  exact ⟨e', s.setEntry_entry rid e', hset, hseq⟩

/-! ### Orphans (R139) -/

/-- An orphan's lease, and that of every other holder, stands. -/
theorem State.orphan_homeLeases (s : State) (rid : Nat) : (s.orphan rid).own.homeLeases = s.own.homeLeases := by
  have habort : ∀ e, (s.abortLeap rid e 1).own.homeLeases = s.own.homeLeases := by
    intro e
    obtain ⟨p, l, d, v, m, e', heq, -⟩ := s.abortLeap_frame rid e 1
    rw [heq]
    rfl
  unfold State.orphan
  split
  · rfl
  next e0 _ =>
  refine ite_keeps (·.own.homeLeases) rfl ?_
  extract_lets s1
  have h1 : s1.own.homeLeases = s.own.homeLeases := ite_keeps (·.own.homeLeases) (habort e0) rfl
  split
  · exact h1
  next e _ =>
  extract_lets pool e1
  obtain ⟨p, l, e', heq, -⟩ := s1.commitEntry_frame rid e1 []
  rw [heq]
  exact h1

/-- A request not in recovery becomes an orphan at its first step, with nothing asserted. -/
theorem State.orphan_first (he : s.entry rid = some e) (h0 : e.recoveryStep = 0) :
    ((s.orphan rid).entry rid).map (fun x => (x.recoveryStep, x.assertAt)) = some (1, none) := by
  obtain ⟨e1, h1⟩ : ∃ e1, (if e.st = .leaping then s.abortLeap rid e 1 else s).entry rid = some e1 := by
    split
    · obtain ⟨p, l, d, v, m, e', heq, -⟩ := s.abortLeap_frame rid e 1
      rw [heq]
      exact ⟨e', s.setEntry_entry rid e'⟩
    · exact ⟨e, he⟩
  unfold State.orphan
  simp -zeta only [he, h0, ne_eq, not_true_eq_false, if_false]
  extract_lets s1
  simp -zeta only [show s1.entry rid = some e1 from h1]
  extract_lets pool e2
  obtain ⟨p, l, e', heq, hset, -⟩ := s1.commitEntry_frame rid e2 []
  rw [heq]
  refine (congrArg (Option.map _) (s1.setEntry_entry rid e')).trans (congrArg some ?_)
  exact congrArg (fun x : DirEntry => (x.recoveryStep, x.assertAt)) hset

/-! ### An operator's leap answered (R397) -/

/-- A hold just stored is the one read. -/
theorem State.setHold_hold (s : State) (rid : Nat) (h : HoldState) : (s.setHold rid h).hold rid = h := Tbl.at_set_same _ _ _ _

/-- A hold but for what an operator asked of it. -/
def HoldState.unasked (h : HoldState) : HoldState := { h with startOp := none, startTarget := none }

/-- Answering the operator who started a leap leaves the request records and the hold, its operation aside. -/
theorem State.endStart_leaves (s : State) (rid : Nat) (st : Status) (result : Nat) :
    (s.endStart rid st result).kv = s.kv ∧ ((s.endStart rid st result).hold rid).unasked = (s.hold rid).unasked := by
  unfold State.endStart
  extract_lets hs
  cases hop : hs.startOp with
  | none => exact ⟨rfl, rfl⟩
  | some r =>
    obtain ⟨a, l, v, m, heq, -⟩ := (s.setHold rid { hs with startOp := none, startTarget := none }).finishOp_frame r st result []
    have hset := congrArg HoldState.unasked (s.setHold_hold rid { hs with startOp := none, startTarget := none })
    simp only [Option.map_some, Option.getD_some, heq]
    exact ⟨rfl, hset⟩

theorem State.endStart_req (s : State) (rid : Nat) (st : Status) (result k : Nat) : (s.endStart rid st result).req k = s.req k :=
  congrArg (fun x : Kv => Tbl.get x.reqs k) (s.endStart_leaves rid st result).1

/-- What is observed of a hold without what an operator asked is observed after the operator is answered. -/
theorem State.endStart_keeps {γ : Type} (g : HoldState → γ) (hg : ∀ h, g h.unasked = g h) (s : State) (rid : Nat) (st : Status) (result : Nat) :
    g ((s.endStart rid st result).hold rid) = g (s.hold rid) :=
  (hg _).symm.trans ((congrArg g (s.endStart_leaves rid st result).2).trans (hg _))

end Sys2Proof.Machine
end
section
/-! SUPPORT. The steps of a leap at the old holder, the home and the new holder, and its ends (R126 to R130, R134). -/

namespace Sys2Proof.Machine
open Sys2Proof

variable {s : State}

/-! ### Freezing a request (R127) -/

/-- Writing a descriptor, a map entry or a codebook's directory line writes memory alone. -/
theorem State.setDesc_frame (s : State) (da : Nat) (d : Desc) : ∃ m, s.setDesc da d = { s with mem := m } := ⟨_, rfl⟩
theorem State.setMapEntry_frame (s : State) (r : Req) (l h b da : Nat) : ∃ m, s.setMapEntry r l h b da = { s with mem := m } := ⟨_, rfl⟩
theorem State.setCbSet_frame (s : State) (ctx e : Nat) (x : CbSet) : ∃ m, s.setCbSet ctx e x = { s with mem := m } := ⟨_, rfl⟩

/-- A broken book is entered in the ledger and raises its event (R451). -/
theorem State.ledgerBroken_frame (s : State) (q scope expected found : Nat) (agree : Bool) : ∃ m d l v,
    s.ledgerBroken q scope expected found agree = { s with mem := m, led := d, log := l, work := { s.work with vis := v } } := by
  exact (State.raise_frame _ .ledgerBreak _ _ _ _).elim fun l ⟨v, m, h, _⟩ => ⟨m, _, l, v, h⟩

/-- Giving or taking a reference writes its count and the books, or breaks the books (R209, R451). -/
theorem State.addRef_frame (s : State) (ctx e ver : Nat) (up : Bool) :
    ∃ m d l v, s.addRef ctx e ver up = { s with mem := m, led := d, log := l, work := { s.work with vis := v } } := by
  unfold State.addRef
  extract_lets x
  split
  · exact ⟨_, _, _, _, rfl⟩
  next i _ =>
  extract_lets v
  split
  · obtain ⟨m, h⟩ := s.setCbSet_frame ctx e (x.setSlot i (v.1, v.2.1, v.2.2 + 1))
    rw [h]
    exact ⟨m, _, s.log, s.work.vis, rfl⟩
  · split
    · exact s.ledgerBroken_frame _ _ _ _ _
    · obtain ⟨m, h⟩ := s.setCbSet_frame ctx e (x.setSlot i (v.1, v.2.1, v.2.2 - 1))
      rw [h]
      exact ⟨m, _, s.log, s.work.vis, rfl⟩

/-- Giving or taking a descriptor's references writes their counts and the books, or raises events. -/
theorem State.descRefs_frame (s : State) (da : Nat) (up : Bool) :
    ∃ m d l v, s.descRefs da up = { s with mem := m, led := d, log := l, work := { s.work with vis := v } } := by
  unfold State.descRefs
  extract_lets d
  split
  · exact ⟨_, _, _, _, rfl⟩
  · split
    · exact ⟨_, _, _, _, rfl⟩
    next c ek ev _ =>
    obtain ⟨m1, d1, l1, v1, h1⟩ := s.addRef_frame c ek d.kVer up
    obtain ⟨m2, d2, l2, v2, h2⟩ := (s.addRef c ek d.kVer up).addRef_frame c ev d.vVer up
    rw [h2, h1]
    exact ⟨m2, d2, l2, v2, rfl⟩

/-- A slot freed changes memory, the books, the tiers, the reservoirs and what lingers, beside what a broken book's event writes. -/
theorem State.freeDesc_frame (s : State) (da i : Nat) : ∃ m d l v t c h, s.freeDesc da i =
    { s with mem := m, led := d, log := l, work := { s.work with vis := v }, tier := t, cb := c, own := { s.own with holds := h } } := by
  unfold State.freeDesc
  extract_lets slot size s1 tier' s2 own' s3
  obtain ⟨m, d, l, v, hrefs⟩ := s.descRefs_frame da false
  obtain ⟨t, c, h1⟩ : ∃ t c, s1 = { s with mem := m, led := d, log := l, work := { s.work with vis := v }, tier := t, cb := c } := by
    refine List.foldlRecOn (motive := fun u => ∃ t c, u = ({ s with mem := m, led := d, log := l, work := { s.work with vis := v }, tier := t, cb := c } : State))
      _ State.unmapSector ⟨_, _, congrArg (State.dropTees · da 0) hrefs⟩ ?_
    rintro u ⟨t, c, rfl⟩ sec -
    exact ⟨_, _, rfl⟩
  have h3 : s3 = { s with mem := m, led := d, log := l, work := { s.work with vis := v }, tier := s3.tier, cb := c, own := s3.own } := by
    simp only [s3, s2, h1]
  have hown : s3.own = { s.own with holds := s3.own.holds } := by simp only [s3, own', s2, h1]
  obtain ⟨m', hdesc⟩ := s3.setDesc_frame da { slot := slot }
  rw [hdesc, h3, hown]
  exact ⟨m', _, l, v, s3.tier, c, _, rfl⟩

/-- Dropping the tentative rows of one block frees its slot or rewrites its descriptor, and no more. -/
theorem State.dropBlock_frame (s : State) (rid : Nat) (r : Req) (b : (Nat × Nat × Nat) × Nat) : ∃ m d l v t c h,
    (if !s.ownBlock rid b.2 then s
      else if (s.desc b.2).committed = 0 then (s.freeDesc b.2 1).setMapEntry r b.1.1 b.1.2.1 b.1.2.2 0
      else s.setDesc b.2 { s.desc b.2 with valid := (s.desc b.2).committed }) =
    { s with mem := m, led := d, log := l, work := { s.work with vis := v }, tier := t, cb := c, own := { s.own with holds := h } } := by
  split
  · exact ⟨_, _, _, _, _, _, _, rfl⟩
  · split
    · obtain ⟨m, d, l, v, t, c, h, hfree⟩ := s.freeDesc_frame b.2 1
      obtain ⟨m2, hmap⟩ := (s.freeDesc b.2 1).setMapEntry_frame r b.1.1 b.1.2.1 b.1.2.2 0
      rw [hmap, hfree]
      exact ⟨m2, d, l, v, t, c, h, rfl⟩
    · obtain ⟨m, hdesc⟩ := s.setDesc_frame b.2 { s.desc b.2 with valid := (s.desc b.2).committed }
      rw [hdesc]
      exact ⟨m, _, _, _, _, _, _, rfl⟩

/-- Dropping a request's tentative rows frees slots and rewrites descriptors, and no more (R127). -/
theorem State.dropTentative_frame (s : State) (rid : Nat) (r : Req) : ∃ m d l v t c h, s.dropTentative rid r =
    { s with mem := m, led := d, log := l, work := { s.work with vis := v }, tier := t, cb := c, own := { s.own with holds := h } } := by
  refine List.foldlRecOn (motive := fun u => ∃ m d l v t c h, u =
    ({ s with mem := m, led := d, log := l, work := { s.work with vis := v }, tier := t, cb := c, own := { s.own with holds := h } } : State)) _ _
    ⟨_, _, _, _, _, _, _, rfl⟩ ?_
  rintro u ⟨m, d, l, v, t, c, h, hu⟩ b -
  obtain ⟨m', d', l', v', t', c', h', heq⟩ := u.dropBlock_frame rid r b
  refine ⟨m', d', l', v', t', c', h', heq.trans ?_⟩
  rw [hu]

/-- A request marked frozen, its tentative rows dropped and its manifest's digest kept (R127). -/
def State.freezeMark (s : State) (rid : Nat) (r : Req) : State :=
  (s.dropTentative rid r).setHold rid { (s.dropTentative rid r).hold rid with
    frozen := true, digest := manifestDigest ((s.dropTentative rid r).manifest r), blocks := ((s.dropTentative rid r).manifest r).length }

theorem State.setHold_clock (s : State) (rid : Nat) (h : HoldState) : (s.setHold rid h).now = s.now ∧ ∀ k, (s.setHold rid h).homeOf k = s.homeOf k :=
  ⟨rfl, fun _ => rfl⟩

/-- LEAP_REQUEST asks the request's home, and keeps when it was asked (R129). -/
theorem State.askLeap_asks (s : State) (rid : Nat) (r : Req) (target : Option Nat) :
    (s.askLeap rid r target).hold rid = { s.hold rid with requestedAt := some s.now, retryAt := none } ∧ (s.askLeap rid r target).sent (s.homeOf rid) 1 rid :=
  ⟨s.setHold_hold rid _, State.tell_sent _ _⟩

/-- A request frozen is marked so, its leap is asked for now, no retry is due, and LEAP_REQUEST goes to its home. -/
theorem State.freezeMark_asks (s : State) (rid : Nat) (r : Req) (target : Option Nat) {t : State} (ht : t = (s.freezeMark rid r).askLeap rid r target) :
    (t.hold rid).frozen = true ∧ (t.hold rid).requestedAt = some s.now ∧ (t.hold rid).retryAt = none ∧ t.sent (s.homeOf rid) 1 rid := by
  obtain ⟨m, d, l, v, tier, c, h, heq⟩ := s.dropTentative_frame rid r
  have hnow : (s.freezeMark rid r).now = s.now := by rw [State.freezeMark, (State.setHold_clock ..).1, heq]
  have hhome : (s.freezeMark rid r).homeOf rid = s.homeOf rid := by
    rw [State.freezeMark, (State.setHold_clock ..).2, heq]
    rfl
  have hfrozen : ((s.freezeMark rid r).hold rid).frozen = true := by rw [State.freezeMark, State.setHold_hold]
  obtain ⟨hhold, hsent⟩ := (s.freezeMark rid r).askLeap_asks rid r target
  subst ht
  rw [hhold, hfrozen, hnow, ← hhome]
  exact ⟨rfl, rfl, rfl, hsent⟩

/-- LEAP_FREEZE of a request that nothing holds back freezes it and asks for its leap. -/
theorem execLeapFreeze_asks {req : Nat} {target : Option Nat} {r : Req} (hu : Up s) (hr : s.req req = some r) (hf : (s.hold req).frozen = false)
    (hc : s.commitPending req = false) (hl : s.fencedFor req = false) (hp : s.protDone req = true) (hn : r.promptTokens ≤ r.committed) :
    Does (.leapFreeze req target) s (s.keeping ((s.freezeMark req r).askLeap req r (target.orElse fun _ => (s.hold req).startTarget))) := by
  refine does_live rfl hu ?_
  simp only [State.freezeReq, hr, hf, hc, hl, hp, Nat.not_lt.mpr hn]
  rfl

/-- When its time comes, a request returned to PROTECTED is frozen and its leap is asked for again. -/
theorem execLeapRetryTimer_asks {req at_ : Nat} {r : Req} (hu : Up s) (ha : (s.hold req).retryAt = some at_) (hdue : at_ ≤ s.now) (hr : s.req req = some r)
    (hc : s.commitPending req = false) (hl : s.fencedFor req = false) :
    Does (.leapRetryTimer req) s (s.keeping ((s.freezeMark req r).askLeap req r none)) := by
  refine does_live rfl hu ?_
  simp only [ha, hr, hc, hl, Nat.not_lt.mpr hdue]
  rfl

/-! ### The home's steps (R126, R129, R130) -/

/-- A leap asked for by the holder at its epoch, and not refused, sets the entry LEAPING with its target. -/
theorem execLeapRequest_leaps {h : MsgHdr} {digest : List Byte} {blocks tokens b : Nat} {e : DirEntry} (hu : Up s) (hv : h.ver = 1) (he : s.entry h.req = some e)
    (hh : e.here = true) (hst : e.st = .decoding ∨ e.st = .protected_ ∨ e.st = .prefill) (hr : e.recoveryStep = 0) (hep : e.epoch = h.epoch) (hsrc : e.holder = h.src)
    (hlast : e.epoch + 1 ≠ 4294967295) : ∃ t e', Does (.leapRequest h digest blocks tokens (some b)) s t ∧ t.entry h.req = some e' ∧
      e'.st = .leaping ∧ e'.leapTarget = b ∧ e'.epoch = e.epoch ∧ e'.holder = e.holder ∧ e'.leapDigest = digest ∧ t.mem = s.mem := by
  have hbusy : ¬ (e.st = .leaping ∨ e.recoveryStep ≠ 0) := by
    rcases hst with h | h | h <;> simp [h, hr]
  have hmoved : ¬ (e.st ≠ .protected_ ∧ e.st ≠ .decoding ∧ e.st ≠ .prefill) := by
    rcases hst with h | h | h <;> simp [h]
  have hd : Does (.leapRequest h digest blocks tokens (some b)) s _ := does_live rfl hu rfl
  rw [State.atHome_here hv he hh, if_neg (by simp [hv]), if_neg hbusy, if_neg (by simp [hep, hsrc]), if_neg hmoved, if_neg hlast] at hd
  simp -zeta only [Option.orElse] at hd
  extract_lets e1 grant offer at hd
  obtain ⟨e', hget, hset⟩ := s.commitEntry_stored h.req e1 [grant, offer]
  exact ⟨_, e', hd, hget, congrArg DirEntry.st hset, congrArg DirEntry.leapTarget hset, (congrArg DirEntry.epoch hset :), (congrArg DirEntry.holder hset :),
    congrArg DirEntry.leapDigest hset, (s.commitEntry_leaves h.req e1 [grant, offer]).1⟩

section
variable {h : MsgHdr} {e : DirEntry} (hu : Up s) (hv : h.ver = 1) (he : s.entry h.req = some e) (hh : e.here = true) (hst : e.st = .leaping) (hphase : e.leapPhase = 1)
  (hsrc : h.src = e.leapTarget) (hep : h.epoch = e.epoch + 1)
include hu hv he hh hst hphase hsrc hep

/-- The digest recorded commits the leap: the target holds the request at the next epoch, and a receipt says so (R129, R132). -/
theorem execLeapAccept_commits : ∃ t e', Does (.leapAccept h e.leapDigest) s t ∧ t.entry h.req = some e' ∧ e'.st = .decoding ∧ e'.holder = e.leapTarget ∧
    e'.prevHolder = e.holder ∧ e'.epoch = e.epoch + 1 ∧ e'.receipts.length = e.receipts.length + 1 ∧ t.mem = s.mem := by
  have hd : Does (.leapAccept h e.leapDigest) s _ := does_live rfl hu rfl
  rw [State.atHome_here hv he hh, if_neg (by simp [hst, hphase, hsrc, hep]), if_neg (by simp)] at hd
  simp -zeta only at hd
  extract_lets a b e1 e3 exp idx own s2 commit release at hd
  obtain ⟨e', hget, hset⟩ := s2.commitEntry_stored h.req e3 [commit, release]
  exact ⟨_, e', hd, hget, congrArg DirEntry.st hset, (congrArg DirEntry.holder hset :), (congrArg DirEntry.prevHolder hset :), (congrArg DirEntry.epoch hset :),
    (congrArg (fun x : DirEntry => x.receipts.length) hset).trans (List.length_append ..), (s2.commitEntry_leaves h.req e3 [commit, release]).1⟩

/-- Another digest aborts the leap: the request is its holder's again at its epoch, and the event is raised (R130). -/
theorem execLeapAccept_aborts {digest : List Byte} (hne : digest ≠ e.leapDigest) : ∃ t e', Does (.leapAccept h digest) s t ∧ t.entry h.req = some e' ∧
    e'.st = (if e.leapFromDecode then .decoding else .protected_) ∧ e'.holder = e.holder ∧ e'.epoch = e.epoch ∧ t.log.evSeq = s.log.evSeq + 1 := by
  have hd : Does (.leapAccept h digest) s _ := does_live rfl hu rfl
  rw [State.atHome_here hv he hh, if_neg (by simp [hst, hphase, hsrc, hep]), if_pos hne] at hd
  obtain ⟨e', hget, hset, hseq⟩ := s.abortLeap_stored h.req e 2
  exact ⟨_, e', hd, hget, congrArg DirEntry.st hset, (congrArg DirEntry.holder hset :), (congrArg DirEntry.epoch hset :), hseq⟩

end

/-- A leap not accepted within its timeout is aborted, with its event (R130, R144). -/
theorem execLeapTimeout_aborts {req : Nat} {e : DirEntry} (hu : Up s) (he : s.entry req = some e) (hh : e.here = true) (hst : e.st = .leaping) (hphase : e.leapPhase = 1)
    (hdue : e.leapAt + (s.comp e.composition).leapTimeout ≤ s.now) : ∃ t e', Does (.leapTimeout req) s t ∧ t.entry req = some e' ∧
      e'.st = (if e.leapFromDecode then .decoding else .protected_) ∧ e'.leapPhase = 0 ∧ t.log.evSeq = s.log.evSeq + 1 := by
  obtain ⟨e', hget, hset, hseq⟩ := s.abortLeap_stored req e 1
  refine ⟨_, e', does_live (t := s.abortLeap req e 1) rfl hu ?_, hget, congrArg DirEntry.st hset, congrArg DirEntry.leapPhase hset, hseq⟩
  simp [he, hh, hst, hphase, hdue]

/-! ### The new holder (R89, R128, R129) -/

/-- A node with a free record keeps an offer as it came. -/
theorem execLeapOffer_keeps {h : MsgHdr} {digest : List Byte} {blocks tokens old comp : Nat} (hu : Up s) (hv : h.ver = 1) (hfree : s.freeRecords ≠ 0) :
    ∃ t o, Does (.leapOffer h digest blocks tokens old comp) s t ∧ (t.hold h.req).offer = some o ∧ o.digest = digest ∧ o.oldHolder = old ∧ o.epoch = h.epoch ∧
      o.offeredAt = s.now ∧ t = { s with own := t.own } := by
  have hd : Does (.leapOffer h digest blocks tokens old comp) s _ := does_live rfl hu rfl
  rw [if_neg (by simp [hv]), if_neg hfree] at hd
  exact ⟨_, _, hd, congrArg HoldState.offer (s.setHold_hold h.req _), rfl, rfl, rfl, rfl, rfl⟩

/-- The manifest of an offer claims a record at its epoch, and LEAP_ACCEPT answers the home with the digest of the entries as computed. -/
theorem execLeapManifest_claims {h : MsgHdr} {record ring : List Nat} {entries : List (List Nat)} {o : Offer} (hu : Up s) (ho : (s.hold h.req).offer = some o)
    (hv : h.ver = 1) (hsrc : h.src = o.oldHolder) (hep : h.epoch = o.epoch) (hfree : s.freeRecords ≠ 0) : ∃ t, Does (.leapManifest h record ring entries) s t ∧
      ((t.hold h.req).offer.bind (·.claimed)).map (·.holdEpoch) = some o.epoch ∧ (t.hold h.req).manifest = entries ∧
      t.sent (s.homeOf h.req) 5 h.req ∧ t.log.msgs.getLast?.map (·.tail) = some (manifestDigest entries) := by
  have hd : Does (.leapManifest h record ring entries) s _ := does_live rfl hu rfl
  simp only [ho] at hd
  rw [if_neg (by simp [hv, hsrc, hep]), if_neg hfree] at hd
  refine ⟨_, hd, ?_, congrArg HoldState.manifest (State.setHold_hold _ h.req _), State.tell_sent _ _, ?_⟩
  · exact congrArg (fun x : HoldState => (x.offer.bind (·.claimed)).map (·.holdEpoch)) (State.setHold_hold _ h.req _)
  · exact congrArg (Option.map (·.tail)) (State.tell_last _ _)

/-- Lingering slots that are the request's own again move in the books alone (R134). -/
theorem State.relinger_frame (s : State) (rid : Nat) : ∃ d, s.relinger rid = { s with led := d } := by
  unfold State.relinger
  split
  · refine List.foldlRecOn (motive := fun t => ∃ d, t = ({ s with led := d } : State)) _ _ ⟨s.led, rfl⟩ ?_
    rintro t ⟨d, rfl⟩ da -
    exact ⟨_, rfl⟩
  · exact ⟨s.led, rfl⟩

/-- LEAP_COMMIT makes the claimed record the holder's, at the epoch of the leap. -/
theorem execLeapCommit_holds {h : MsgHdr} {expiry receipt : Nat} {chain : List Byte} {o : Offer} {r : Req} (hu : Up s) (ho : (s.hold h.req).offer = some o)
    (hc : o.claimed = some r) (hv : h.ver = 1) (hep : h.epoch = o.epoch) : ∃ t, Does (.leapCommit h expiry receipt chain) s t ∧
      t.req h.req = some { r with holdEpoch := h.epoch } ∧ (t.hold h.req).offer = none ∧ t.mem = s.mem ∧ t.work = s.work := by
  have hd : Does (.leapCommit h expiry receipt chain) s _ := does_live rfl hu rfl
  simp only [ho, hc] at hd
  rw [if_neg (by simp [hv, hep])] at hd
  obtain ⟨d, hlinger⟩ := s.relinger_frame h.req
  rw [hlinger] at hd
  exact ⟨_, hd, Tbl.get_set_same _ _ _, congrArg HoldState.offer (State.setHold_hold _ h.req _), rfl, rfl⟩

/-! ### The old holder (R127, R128, R134) -/

/-- A frozen request's grant is kept, and its manifest goes to the new holder. -/
theorem execLeapGrant_sends {h : MsgHdr} {b : Nat} {r : Req} (hu : Up s) (hr : s.req h.req = some r) (hv : h.ver = 1) (hf : (s.hold h.req).frozen = true)
    (hep : h.epoch = r.holdEpoch + 1) : ∃ t, Does (.leapGrant h b) s t ∧ (t.hold h.req).grant = some (b, h.epoch, s.now) ∧ t.sent b 4 h.req ∧ t.mem = s.mem ∧
      t.kv = s.kv := by
  have hd : Does (.leapGrant h b) s _ := does_live rfl hu rfl
  simp only [hr] at hd
  rw [if_neg (by simp [hv, hf, hep])] at hd
  exact ⟨_, hd, congrArg HoldState.grant (s.setHold_hold h.req _), State.tell_sent _ _, rfl, rfl⟩

theorem State.transitOut_hold (s : State) (peer q n rid : Nat) : (s.transitOut peer q n).hold rid = s.hold rid := rfl

/-- What the old holder does on release frees the record and lets its image linger; the operator who started the leap is answered (R134). -/
theorem State.release_lingers {rid ep b : Nat} {r : Req} (hr : s.req rid = some r) : (s.release rid ep b).req rid = none ∧
    ((s.release rid ep b).hold rid).grant = none ∧ ((s.release rid ep b).hold rid).lingering.isSome = true := by
  unfold State.release
  simp -zeta only [hr]
  extract_lets das s1 s2
  refine ⟨?_, ?_, ?_⟩
  · rw [State.endStart_req]
    exact Tbl.get_del_same _ _
  · rw [State.endStart_keeps HoldState.grant fun _ => rfl, State.transitOut_hold, State.setHold_hold]
  · rw [State.endStart_keeps HoldState.lingering fun _ => rfl, State.transitOut_hold, State.setHold_hold]
    rfl

/-- LEAP_RELEASE of the epoch granted releases the request. -/
theorem execLeapRelease_releases {h : MsgHdr} {receipt b at_ : Nat} (hu : Up s) (hg : (s.hold h.req).grant = some (b, h.epoch, at_)) (hv : h.ver = 1) :
    Does (.leapRelease h receipt) s (s.keeping (s.release h.req h.epoch b)) :=
  does_live (t := s.release h.req h.epoch b) rfl hu (by simp [hg, hv])

/-! ### Aborts and queries at a holder (R130) -/

/-- A holder told that its leap is aborted goes on with its request, with no grant and no offer. -/
theorem State.leapAborted_resumes {rid : Nat} {r : Req} (hr : s.req rid = some r) (reason : Nat) : ((s.leapAborted rid reason).hold rid).frozen = false ∧
    ((s.leapAborted rid reason).hold rid).grant = none ∧ ((s.leapAborted rid reason).hold rid).offer = none ∧ (s.leapAborted rid reason).req rid = some r := by
  unfold State.leapAborted
  simp -zeta only [hr]
  extract_lets hs prompt
  refine ⟨?_, ?_, ?_, ?_⟩
  · rw [State.endStart_keeps HoldState.frozen fun _ => rfl, State.setHold_hold]
  · rw [State.endStart_keeps HoldState.grant fun _ => rfl, State.setHold_hold]
  · rw [State.endStart_keeps HoldState.offer fun _ => rfl, State.setHold_hold]
  · rw [State.endStart_req]
    exact hr

/-- LEAP_ABORT at a node that keeps no entry of the request is its holder's. -/
theorem execLeapAbort_holder {h : MsgHdr} (hu : Up s) (hv : h.ver = 1) (he : s.entry h.req = none) (reason : Nat) :
    Does (.leapAbort h reason) s (s.keeping (s.leapAborted h.req reason)) :=
  does_live (t := s.leapAborted h.req reason) rfl hu (by simp [hv, he])

/-- A query is answered with what became of the leap, and changes nothing at the home. -/
theorem execLeapQuery_answers {h : MsgHdr} {e : DirEntry} (hu : Up s) (hv : h.ver = 1) (he : s.entry h.req = some e) (hh : e.here = true) :
    ∃ t, Does (.leapQuery h) s t ∧ t.sent h.src 10 h.req ∧ t.log.msgs.getLast?.map (·.fields) =
      some [if e.st = .leaping ∨ e.recoveryStep ≠ 0 then 0 else if e.lastCommitted then 1 else 2, e.holder] ∧ t = { s with log := t.log } := by
  have hd : Does (.leapQuery h) s _ := does_live rfl hu rfl
  rw [State.atHome_here hv he hh] at hd
  exact ⟨_, hd, State.tell_sent _ _, congrArg (Option.map (·.fields)) (State.tell_last _ _), rfl⟩

/-- LEAP_STATE aborted is LEAP_ABORT. -/
theorem execLeapState_aborted {h : MsgHdr} (hu : Up s) (hv : h.ver = 1) (holder : Nat) : Does (.leapState h 2 holder) s (s.keeping (s.leapAborted h.req 1)) :=
  does_live (t := s.leapAborted h.req 1) rfl hu (by simp [hv])

/-- LEAP_STATE committed is LEAP_RELEASE where a grant is kept. -/
theorem execLeapState_committed {h : MsgHdr} {b ep at_ : Nat} (hu : Up s) (hv : h.ver = 1) (hg : (s.hold h.req).grant = some (b, ep, at_)) (holder : Nat) :
    Does (.leapState h 1 holder) s (s.keeping (s.release h.req ep b)) :=
  does_live (t := s.release h.req ep b) rfl hu (by simp [hv, hg])

/-- A holder that has heard no outcome asks the home, and again a leap timeout later. -/
theorem execLeapQueryTimer_asks {req b ep at_ : Nat} {r : Req} (hu : Up s) (hg : (s.hold req).grant = some (b, ep, at_)) (hr : s.req req = some r)
    (hq : (s.hold req).queryAt ≠ 0) (hdue : (s.hold req).queryAt ≤ s.now) : ∃ t, Does (.leapQueryTimer req) s t ∧
      (t.hold req).queryAt = s.now + s.leapTimeoutOf r ∧ t.sent (s.homeOf req) 9 req ∧ t.mem = s.mem := by
  have hd : Does (.leapQueryTimer req) s _ := does_live rfl hu rfl
  simp only [hg, hr] at hd
  rw [if_pos (by simp [hq, hdue])] at hd
  exact ⟨_, hd, congrArg HoldState.queryAt (s.setHold_hold req _), State.tell_sent _ _, rfl⟩

end Sys2Proof.Machine
end
section
open Sys2Proof Sys2Proof.Machine

/-- Settles O38: one lemma per message, in the order of the statement; a frozen request is read through the dropping of its tentative rows, an entry through
its mirroring, and a released hold through the answer to the operator who started the leap. -/
theorem leapSteps : Obligations.LeapSteps := by
  refine ⟨?freeze, ?request, ?grant, ?offer, ?manifest, ?accept, ?differ, ?commit, ?release⟩
  case freeze =>
    intro req target r s hu hr hf hc hl hp hn
    refine ⟨_, execLeapFreeze_asks hu hr hf hc hl hp hn, ?_⟩
    obtain ⟨hfrozen, hasked, -, hsent⟩ := s.freezeMark_asks req r _ rfl
    rw [State.keeping_hold, State.keeping_sent]
    exact ⟨hfrozen, hasked, hsent⟩
  case request => exact fun _ _ _ _ _ _ _ hu hv he hh hst hr hep hsrc hlast => execLeapRequest_leaps hu hv he hh hst hr hep hsrc hlast
  case grant => exact fun _ _ _ _ hu hr hv hf hep => execLeapGrant_sends hu hr hv hf hep
  case offer => exact fun _ _ _ _ _ _ _ hu hv hfree => execLeapOffer_keeps hu hv hfree
  case manifest => exact fun _ _ _ _ _ _ hu ho hv hsrc hep hfree => execLeapManifest_claims hu ho hv hsrc hep hfree
  case accept => exact fun _ _ _ hu hv he hh hst hphase hsrc hep => execLeapAccept_commits hu hv he hh hst hphase hsrc hep
  case differ => exact fun _ _ _ _ hu hv he hh hst hphase hsrc hep hne => execLeapAccept_aborts hu hv he hh hst hphase hsrc hep hne
  case commit => exact fun _ _ _ _ _ _ _ hu ho hc hv hep => execLeapCommit_holds hu ho hc hv hep
  case release =>
    intro h receipt b at_ r s hu hg hv hr
    obtain ⟨hreq, hgrant, hlinger⟩ := State.release_lingers (ep := h.epoch) (b := b) hr
    refine ⟨_, execLeapRelease_releases hu hg hv, ?_⟩
    rw [State.keeping_req, State.keeping_hold]
    exact ⟨hreq, hgrant, hlinger⟩

/-- Settles O39: one lemma per message or timer; what LEAP_STATE tells is LEAP_ABORT's or LEAP_RELEASE's own effect. -/
theorem leapEnds : Obligations.LeapEnds := by
  refine ⟨?abort, ?query, ?aborted, ?committed, ?timeout, ?ask, ?retry⟩
  case abort =>
    intro h reason r s hu hv he hr
    refine ⟨_, execLeapAbort_holder hu hv he reason, ?_⟩
    rw [State.keeping_req, State.keeping_hold]
    exact State.leapAborted_resumes hr reason
  case query => exact fun _ _ _ hu hv he hh => execLeapQuery_answers hu hv he hh
  case aborted =>
    intro h holder r s hu hv hr
    obtain ⟨hfrozen, hgrant, -, hreq⟩ := State.leapAborted_resumes hr 1
    refine ⟨_, execLeapState_aborted hu hv holder, ?_⟩
    rw [State.keeping_req, State.keeping_hold]
    exact ⟨hfrozen, hgrant, hreq⟩
  case committed =>
    intro h b ep at_ holder r s hu hv hg hr
    obtain ⟨hreq, -, hlinger⟩ := State.release_lingers (ep := ep) (b := b) hr
    refine ⟨_, execLeapState_committed hu hv hg holder, ?_⟩
    rw [State.keeping_req, State.keeping_hold]
    exact ⟨hreq, hlinger⟩
  case timeout => exact fun _ _ _ hu he hh hst hphase hdue => execLeapTimeout_aborts hu he hh hst hphase hdue
  case ask => exact fun _ _ _ _ _ _ hu hg hr hq hdue => execLeapQueryTimer_asks hu hg hr hq hdue
  case retry =>
    intro req at_ r s hu ha hdue hr hc hl
    obtain ⟨hfrozen, -, hretry, hsent⟩ := s.freezeMark_asks req r none rfl
    refine ⟨_, execLeapRetryTimer_asks hu ha hdue hr hc hl, ?_⟩
    rw [State.keeping_hold, State.keeping_sent]
    exact ⟨hfrozen, hretry, hsent⟩
end
section
/-! SUPPORT. Leases at a holder and at its home, and holdings asserted, denied, confirmed and revoked (R119 to R123, R139). -/

namespace Sys2Proof.Machine
open Sys2Proof

variable {s : State} {h : MsgHdr}

/-! ### Leases (R119 to R122) -/

/-- A holder whose renewal is due sends it now. -/
theorem execLeaseRenewTimer_renews {home : Nat} (hu : Up s) (hheld : s.heldFor home ≠ [])
    (hdue : (Tbl.at s.own.leases home {}).sentAt = 0 ∨ (Tbl.at s.own.leases home {}).sentAt + 125000 ≤ s.now) :
    ∃ t, Does (.leaseRenewTimer home) s t ∧ (Tbl.at t.own.leases home {}).sentAt = s.now ∧ t.sent home 16 0 ∧ t.mem = s.mem ∧ t.work = s.work := by
  have hd : Does (.leaseRenewTimer home) s _ := does_live rfl hu rfl
  extract_lets l held at hd
  have hnow : ((held.isEmpty || (l.sentAt != 0 && decide (s.now < l.sentAt + 125000))) = true) ↔ False := by
    rcases hdue with h0 | hle
    · simp [held, hheld, l, h0]
    · simp [held, hheld, l, Nat.not_lt.mpr hle]
  rw [if_neg hnow.mp] at hd
  exact ⟨_, hd, congrArg Lease.sentAt (Tbl.at_set_same ..), State.tell_sent _ _, rfl, rfl⟩

/-- A home answers a renewal with the send time plus the lease length, and the lease stands again. -/
theorem execLeaseRenew_extends {sendTime n free : Nat} (hu : Up s) (hv : h.ver = 1) (hhere : s.own.dir.all (fun x => x.2.here) = true) :
    ∃ t, Does (.leaseRenew h sendTime n free) s t ∧ (Tbl.at t.own.homeLeases h.src {}).expiry = sendTime + s.own.leaseLen ∧
      (Tbl.at t.own.homeLeases h.src {}).lapsed = false ∧ (Tbl.at t.own.homeLeases h.src {}).freeRecords = free ∧ t.sent h.src 17 0 ∧ t.mem = s.mem := by
  have hbackup : s.own.dir.any (fun x => x.2.mirror && !x.2.acting && x.2.holder == h.src) = false := by
    rw [List.any_eq_false]
    intro x hx
    have := List.all_eq_true.mp hhere x hx
    cases hm : x.2.mirror <;> cases ha : x.2.acting <;> simp_all [DirEntry.here]
  have hd : Does (.leaseRenew h sendTime n free) s _ := does_live rfl hu rfl
  extract_lets l gone s1 exp s2 at hd
  rw [if_neg (by simp [hv]), if_neg (by simp [hbackup])] at hd
  have hlease : Tbl.at s2.own.homeLeases h.src {} = { l with expiry := exp, lapsed := false, freeRecords := free, revokes := [] } := Tbl.at_set_same ..
  have hmem : s1.mem = s.mem := foldl_keeps State.mem gone _ s fun _ _ => rfl
  exact ⟨_, hd, congrArg HomeLease.expiry hlease, congrArg HomeLease.lapsed hlease, congrArg HomeLease.freeRecords hlease, State.tell_sent _ _, hmem⟩

/-- An acknowledgement with the holder's own count sets the expiry and the revokes due. -/
theorem execLeaseAck_sets {expiry n k : Nat} (hu : Up s) (hv : h.ver = 1) (hn : (s.heldFor h.src).length = n) : ∃ t, Does (.leaseAck h expiry n k) s t ∧
    (Tbl.at t.own.leases h.src {}).expiry = expiry ∧ (Tbl.at t.own.leases h.src {}).revokesDue = k ∧ t = { s with own := t.own } := by
  have hd : Does (.leaseAck h expiry n k) s _ := does_live rfl hu rfl
  rw [if_neg (by simp [hv])] at hd
  extract_lets l held mis s1 at hd
  have hmis : mis = 0 := if_pos hn
  rw [if_neg (by simp [hmis])] at hd
  exact ⟨_, hd, congrArg Lease.expiry (Tbl.at_set_same ..), congrArg Lease.revokesDue (Tbl.at_set_same ..), rfl⟩

/-- A lease within the guard of its expiry is FENCED. -/
theorem execLeaseFenceTimer_fences {home : Nat} {l : Lease} (hu : Up s) (hl : Tbl.get s.own.leases home = some l) (hdue : l.expiry ≤ s.now + s.fab.deadBound + 5000) :
    ∃ t, Does (.leaseFenceTimer home) s t ∧ Tbl.get t.own.leases home = some { l with fenced := true } ∧ t = { s with own := t.own } := by
  refine ⟨_, does_live (t := s.setLease home { l with fenced := true }) rfl hu ?_, Tbl.get_set_same .., rfl⟩
  simp only [hl]
  exact if_pos (by simpa [State.guard, Nat.add_assoc] using hdue)

/-- A lease past the guard of its expiry is LAPSED at the home, whatever its holder's requests become. -/
theorem execLeaseLapse_lapses {holder : Nat} {l : HomeLease} (hu : Up s) (hl : Tbl.get s.own.homeLeases holder = some l) (hlapsed : l.lapsed = false)
    (hdue : l.expiry + (s.fab.deadBound + 5000) ≤ s.now) :
    ∃ t, Does (.leaseLapse holder) s t ∧ (Tbl.get t.own.homeLeases holder).map (·.lapsed) = some true := by
  have hd : Does (.leaseLapse holder) s _ := does_live rfl hu rfl
  simp -zeta only [hl] at hd
  rw [if_neg (by rw [hlapsed, Bool.false_or, decide_eq_true_eq]; exact Nat.not_lt.mpr hdue)] at hd
  extract_lets rids s1 comps s2 at hd
  have h2 : s2.own = s1.own := foldl_keeps State.own comps _ s1 fun t c => by
    unfold State.faultOf
    split <;> rfl
  have h3 : (rids.foldl State.orphan (s2.raise0 .leaseLapsed s.hubDie 0 [holder, rids.length])).own.homeLeases = s1.own.homeLeases :=
    (foldl_keeps (·.own.homeLeases) rids _ _ State.orphan_homeLeases).trans (by simp [State.raise0, h2])
  refine ⟨_, hd, (congrArg (fun x => (Tbl.get x holder).map (·.lapsed)) h3).trans ?_⟩
  exact congrArg (Option.map _) (Tbl.get_set_same ..)

/-! ### Holdings at the home (R122, R123, R139) -/

theorem State.raise0_entry (s : State) (ev : Ev) (die unit : Nat) (payload : List Nat) (rid : Nat) : (s.raise0 ev die unit payload).entry rid = s.entry rid := by
  simp [State.entry, State.raise0]

/-- A confirmation of the holder at its epoch ends a recovery, with its event (R140, R144). -/
theorem execHoldConfirm_recovers {e : DirEntry} (hu : Up s) (hv : h.ver = 1) (he : s.entry h.req = some e) (hh : e.here = true) (hsrc : e.holder = h.src)
    (hep : e.epoch = h.epoch) (hr : e.recoveryStep ≠ 0) : ∃ t e', Does (.holdConfirm h) s t ∧ t.entry h.req = some e' ∧ e'.recoveryStep = 0 ∧ e'.assertAt = none ∧
      t.log.evSeq = s.log.evSeq + 1 := by
  have hd : Does (.holdConfirm h) s _ := does_live rfl hu rfl
  rw [State.atHome_here hv he hh, if_neg (by simp [hsrc, hep]), if_neg hr] at hd
  obtain ⟨e', hget, hset⟩ := s.commitEntry_stored h.req { e with recoveryStep := 0, assertAt := none, probe := none } []
  refine ⟨_, e', hd, (State.raise0_entry ..).trans hget, congrArg DirEntry.recoveryStep hset, congrArg DirEntry.assertAt hset, ?_⟩
  simp [State.raise0, State.bookReq, State.bookMove, State.commitEntry_leaves]

/-- HOLD_NONE from the holder credited makes the request an orphan at once. -/
theorem execHoldNone_orphans {e : DirEntry} (hu : Up s) (hv : h.ver = 1) (he : s.entry h.req = some e) (hh : e.here = true) (hsrc : e.holder = h.src) :
    ∃ t, Does (.holdNone h) s t ∧ (t.entry h.req).map (fun x => (x.recoveryStep, x.assertAt)) = some (1, none) := by
  have hd : Does (.holdNone h) s _ := does_live rfl hu rfl
  rw [State.atHome_here hv he hh, if_neg (by simp [hsrc])] at hd
  exact ⟨_, hd, State.orphan_first (s.setEntry_entry h.req _) rfl⟩

/-- A HOLD_ASSERT unanswered for 100 µs makes the request an orphan. -/
theorem execHoldAssertTimeout_orphans {req at_ : Nat} {e : DirEntry} (hu : Up s) (he : s.entry req = some e) (ha : e.assertAt = some at_) (hdue : at_ + 100000 ≤ s.now) :
    ∃ t, Does (.holdAssertTimeout req) s t ∧ (t.entry req).map (fun x => (x.recoveryStep, x.assertAt)) = some (1, none) := by
  have hd : Does (.holdAssertTimeout req) s _ := does_live rfl hu rfl
  simp only [he, ha] at hd
  rw [if_pos hdue] at hd
  exact ⟨_, hd, State.orphan_first (s.setEntry_entry req _) rfl⟩

/-- What has been sent stays sent through a fold that only sends. -/
theorem foldl_msgs_subset {α : Type} (l : List α) (f : State → α → State) (s : State) (hf : ∀ t x, t.log.msgs ⊆ (f t x).log.msgs) :
    s.log.msgs ⊆ (l.foldl f s).log.msgs :=
  List.foldlRecOn (motive := fun t => s.log.msgs ⊆ t.log.msgs) l f (List.Subset.refl _) fun t ht x _ => List.Subset.trans ht (hf t x)

/-- Telling something of each item of a list tells it of every one. -/
theorem foldl_tell_told {α : Type} {l : List α} {x : α} (hx : x ∈ l) (m : State → α → CtlMsg) (s : State) : ∃ t, m t x ∈ (l.foldl (fun t x => t.tell (m t x)) s).log.msgs := by
  obtain ⟨a, b, rfl⟩ := List.append_of_mem hx
  rw [List.foldl_append, List.foldl_cons]
  exact ⟨_, foldl_msgs_subset b _ _ (fun t y => List.subset_append_left ..) (List.mem_append_right _ (List.mem_singleton_self _))⟩

/-- A request that a holder lists and that is not credited to it is revoked. -/
theorem execHoldList_revokes {held : List (Nat × Nat)} {rid ep : Nat} (hu : Up s) (hv : h.ver = 1) (hmem : (rid, ep) ∈ held) (hnot : rid ∉ s.credited h.src) :
    ∃ t m, Does (.holdList h held) s t ∧ m ∈ t.log.msgs ∧ m.dst = h.src ∧ m.code = 21 ∧ m.req = rid ∧ t.mem = s.mem ∧ t.kv = s.kv := by
  have hd : Does (.holdList h held) s _ := does_live rfl hu rfl
  rw [if_neg (by simp [hv])] at hd
  extract_lets mine wrong lack s1 at hd
  have hwrong : (rid, ep) ∈ wrong := List.mem_filter.mpr ⟨hmem, by simpa [mine] using hnot⟩
  obtain ⟨t0, hm⟩ := foldl_tell_told hwrong (fun t x => dirMsg h.src 0x15 x.1 (((t.entry x.1).map (·.epoch)).getD x.2) (((t.entry x.1).map (·.mapEpoch)).getD 0) [] []) s
  have h1 : (s1.mem, s1.kv) = (s.mem, s.kv) := foldl_keeps (fun t => (t.mem, t.kv)) wrong _ s fun _ _ => rfl
  refine ⟨_, _, hd, foldl_msgs_subset lack _ s1 (fun t x => ?_) hm, rfl, rfl, rfl, ?_⟩
  · split
    · exact List.subset_append_left ..
    · exact List.Subset.refl _
  · refine Prod.mk.inj ((foldl_keeps (fun t => (t.mem, t.kv)) lack _ s1 fun t x => ?_).trans h1)
    split <;> rfl

/-! ### Holdings at a holder (R122, R123) -/

/-- HOLD_REVOKE frees the record, and the hold is revoked. -/
theorem execHoldRevoke_frees (hu : Up s) (hv : h.ver = 1) : ∃ t, Does (.holdRevoke h) s t ∧ t.req h.req = none ∧ (t.hold h.req).revoked = true ∧
    (t.hold h.req).frozen = false ∧ t.mem = s.mem := by
  have hd : Does (.holdRevoke h) s _ := does_live rfl hu rfl
  rw [if_neg (by simp [hv])] at hd
  extract_lets s1 h0 s2 l seen at hd
  have hhold : s2.hold h.req = { h0 with revoked := true, frozen := false, offer := none, grant := none } := s1.setHold_hold h.req _
  exact ⟨_, hd, Tbl.get_del_same .., congrArg HoldState.revoked hhold, congrArg HoldState.frozen hhold, rfl⟩

/-- A node without a record that can be asserted answers HOLD_NONE, and nothing else of it changes. -/
theorem execHoldAssert_denies {chain : List Byte} {receipt : Nat} {x : Rebuild} (hu : Up s) (hv : h.ver = 1) (hnone : s.assertable h.req h.epoch = none) :
    ∃ t, Does (.holdAssert h chain receipt x) s t ∧ t.sent h.src 20 h.req ∧ t = { s with log := t.log } := by
  have hd : Does (.holdAssert h chain receipt x) s _ := does_live rfl hu rfl
  rw [if_neg (by simp [hv])] at hd
  simp only [hnone] at hd
  exact ⟨_, hd, State.tell_sent _ _, rfl⟩

/-- A node that holds an asserted request: its record at the epoch asserted, and its lease at the home that asserts it at least a lease long. -/
def State.asserted (s : State) (h : MsgHdr) (r : Req) : State :=
  let s1 := ((s.relinger h.req).setReq h.req { r with holdEpoch := h.epoch }).setHold h.req
    { s.hold h.req with offer := none, lingering := none, frozen := false, revoked := false }
  { s1 with own := { s1.own with leases := Tbl.updD s1.own.leases h.src {} (fun l => { l with expiry := max l.expiry (s.now + s.own.leaseLen) }) } }

theorem State.asserted_fields (s : State) (h : MsgHdr) (r : Req) : (s.asserted h r).mem = s.mem ∧ (s.asserted h r).req h.req = some { r with holdEpoch := h.epoch } ∧
    ((s.asserted h r).hold h.req).frozen = false := by
  obtain ⟨d, heq⟩ := s.relinger_frame h.req
  unfold State.asserted
  rw [heq]
  exact ⟨rfl, Tbl.get_set_same .., congrArg HoldState.frozen (State.setHold_hold ..)⟩

/-- A node with a record that can be asserted confirms it, once its token ring is written anew where the request was recovered. -/
theorem execHoldAssert_confirms {chain : List Byte} {receipt : Nat} {x : Rebuild} {r : Req} (hu : Up s) (hv : h.ver = 1) (hr : s.assertable h.req h.epoch = some r) :
    Does (.holdAssert h chain receipt x) s (s.keeping (((s.asserted h r).rebuildRing h.req { r with holdEpoch := h.epoch } x).tell
      (dirMsg h.src 0x13 h.req h.epoch h.mapEpoch [] []))) := by
  refine does_live rfl hu ?_
  rw [if_neg (by simp [hv])]
  simp only [hr]
  rfl

/-- A request that was not recovered is confirmed as its record stands; memory stands. -/
theorem execHoldAssert_keeps {chain : List Byte} {receipt : Nat} {x : Rebuild} {r : Req} (hu : Up s) (hv : h.ver = 1) (hx : x.known = none)
    (hr : s.assertable h.req h.epoch = some r) : ∃ t, Does (.holdAssert h chain receipt x) s t ∧ t.req h.req = some { r with holdEpoch := h.epoch } ∧
      (t.hold h.req).frozen = false ∧ t.sent h.src 19 h.req ∧ t.mem = s.mem := by
  have hd := execHoldAssert_confirms (chain := chain) (receipt := receipt) (x := x) hu hv hr
  have hring : (s.asserted h r).rebuildRing h.req { r with holdEpoch := h.epoch } x = s.asserted h r := by simp [State.rebuildRing, hx]
  rw [hring] at hd
  obtain ⟨hmem, hreq, hfrozen⟩ := s.asserted_fields h r
  exact ⟨_, hd, hreq, hfrozen, State.tell_sent _ _, hmem⟩

/-! ### A token ring written anew (R365) -/

/-- The automaton and what it reads depend on memory alone. -/
theorem State.autoStep_congr {s t : State} (hm : t.mem = s.mem) (a n st tok : Nat) : t.autoStep a n st tok = s.autoStep a n st tok := by
  have hrd : ∀ x k, t.rdWords x k = s.rdWords x k := fun x k => by rw [State.rdWords, State.rd, hm, State.rdWords, State.rd]
  induction n generalizing st with
  | zero => rfl
  | succ n ih => simp only [State.autoStep, hrd, ih]

/-- The header of a recovered request's ring: every id up to its count is acknowledged, and the automaton has stepped over the last 64 output ids at most. -/
def State.ringAnew (u : State) (rid : Nat) (r : Req) (a : Sys2Proof.Admitted) (stop : Option (Nat × Nat × Nat × Nat)) (ids : List Nat) : TokRing :=
  let tok := rebuiltTok r.committed r.promptTokens stop.isSome
  let spec := r.tokenRing + 64 + 8 * 2 ^ a.spec.ringLog2
  let outs := (ids.take tok).drop r.promptTokens
  let st := (outs.drop (outs.length - 64)).foldl (fun q i => u.autoStep spec 66 q i) 0
  let p := stop.getD (0xFFFFFFFF, 0, 0, 0)
  { st := if stop.isSome then 2 else 1, log2 := a.spec.ringLog2, req := rid, prompt := r.promptTokens, maxNew := a.spec.maxNew, tok := tok, acked := tok
    stopPos := p.1, reason := p.2.1, stopSeq := p.2.2.1, stopLen := p.2.2.2, mstate := st, mdepth := (u.autoState spec st).1, spec := spec
    bridge := a.bridge, standby := a.standby }

theorem State.ringAnew_congr {s t : State} (hm : t.mem = s.mem) (rid : Nat) (r : Req) (a : Sys2Proof.Admitted) (stop : Option (Nat × Nat × Nat × Nat)) (ids : List Nat) :
    t.ringAnew rid r a stop ids = s.ringAnew rid r a stop ids := by
  have hrd : ∀ x k, t.rdWords x k = s.rdWords x k := fun x k => by rw [State.rdWords, State.rd, hm, State.rdWords, State.rd]
  simp only [State.ringAnew, State.autoState, State.autoStep_congr hm, hrd]

/-- Changing a bridge's log of a request, where there is one, changes the streams alone. -/
theorem State.changeBridge_frame (s : State) (rid : Nat) (f : BridgeReq → BridgeReq) :
    ∃ b, (match s.bridgeReq rid with | some y => s.setBridge rid (f y) | none => s) = { s with str := b } := by
  split
  · exact ⟨_, rfl⟩
  · exact ⟨s.str, rfl⟩

/-- A recovered request's automaton and header in place, at the ring its record names. -/
def State.ringPlaced (s : State) (rid : Nat) (r : Req) (x : Rebuild) (a : Sys2Proof.Admitted) : State :=
  let u := s.wrWords (r.tokenRing + 64 + 8 * 2 ^ a.spec.ringLog2) (autoObject a.spec)
  (u.updReq rid (fun y => { y with tokenRing := r.tokenRing })).wrWords r.tokenRing
    (u.ringAnew rid r a (x.stop.filter (fun p => decide (p.1 + 1 = r.committed))) x.ids).words

/-- A ring that is there is written anew where it lies; beside it the bridges' logs and the messages change. -/
theorem State.rebuildRing_places (s : State) (rid : Nat) {r : Req} {x : Rebuild} {a : Sys2Proof.Admitted} (hx : x.known = some a) (hring : r.tokenRing ≠ 0) :
    ∃ b l, s.rebuildRing rid r x = { s.ringPlaced rid r x a with str := b, log := l } := by
  unfold State.rebuildRing
  simp -zeta only [hx, if_neg hring]
  extract_lets stop tok at_ spec s2 outs st p t s3 s4
  have h3 : s3 = s.ringPlaced rid r x a := rfl
  obtain ⟨b, hb⟩ := s3.changeBridge_frame rid (fun b => { b with prov := b.prov.filter (fun e => decide (e.1 < tok)) })
  obtain ⟨l, hl⟩ := foldl_tell_frame (([a.bridge] ++ (if a.standby = 0 then [] else [a.standby])).filter (fun b => b != s.node))
    (fun _ b => { dst := b, tc := s.tra.classes.getD 0 6, code := 0, req := rid, epoch := r.holdEpoch, mapEpoch := r.mapEpoch, fields := [tok] }) s4
  have h4 : s4 = { s.ringPlaced rid r x a with str := b } := h3 ▸ hb
  exact ⟨b, l, hl.trans (by rw [h4])⟩

theorem State.ringPlaced_req {rid : Nat} {r : Req} (hr : s.req rid = some r) (x : Rebuild) (a : Sys2Proof.Admitted) : (s.ringPlaced rid r x a).req rid = some r :=
  Tbl.get_upd_some s.kv.reqs rid _ r hr

/-- What is written of a ring: the automaton, then the header, over memory as it stood. -/
theorem State.ringPlaced_mem {t : State} (hm : t.mem = s.mem) (rid : Nat) (r : Req) (x : Rebuild) (a : Sys2Proof.Admitted) {u : State}
    (hu : u = s.wrWords (r.tokenRing + 64 + 8 * 2 ^ a.spec.ringLog2) (autoObject a.spec)) : (t.ringPlaced rid r x a).mem =
      (u.wrWords r.tokenRing (u.ringAnew rid r a (x.stop.filter (fun p => decide (p.1 + 1 = r.committed))) x.ids).words).mem := by
  have hwr : ∀ {v w : State}, v.mem = w.mem → ∀ at_ ws, (v.wrWords at_ ws).mem = (w.wrWords at_ ws).mem := fun h at_ ws => congrArg (memPuts · at_ (bytesOfWords ws)) h
  have hv := (hwr hm (r.tokenRing + 64 + 8 * 2 ^ a.spec.ringLog2) (autoObject a.spec)).trans (congrArg State.mem hu).symm
  unfold State.ringPlaced
  extract_lets v
  rw [State.ringAnew_congr (t := v) (s := u) hv]
  exact hwr (by simpa using hv) _ _

/-- A stop that a recovered ring names is the log's where it is the one at its count's last position. -/
theorem stop_getD (stop : Option (Nat × Nat × Nat × Nat)) (f : Nat × Nat × Nat × Nat → Bool) (d : Nat × Nat × Nat × Nat) :
    (stop.filter f).getD d = if (stop.filter f).isSome then stop.getD d else d := by
  cases hs : stop.filter f with
  | none => rfl
  | some q =>
    rw [(Option.filter_eq_some_iff.mp hs).1]
    rfl

/-- A recovered request is confirmed with its ring written anew: automaton and header, with the count and the acknowledged count of R365. -/
theorem execHoldAssert_rebuilds {chain : List Byte} {receipt tok spec st : Nat} {x : Rebuild} {a : Sys2Proof.Admitted} {p : Nat × Nat × Nat × Nat} {stopped : Bool}
    {outs : List Nat} {r : Req} {u : State} (hu : Up s) (hv : h.ver = 1) (hx : x.known = some a) (hr : s.assertable h.req h.epoch = some r) (hring : r.tokenRing ≠ 0)
    (hstopped : stopped = (x.stop.filter (fun p => decide (p.1 + 1 = r.committed))).isSome)
    (hp : p = (if stopped then x.stop.getD (4294967295, 0, 0, 0) else (4294967295, 0, 0, 0)))
    (htok : tok = (if r.committed < r.promptTokens then r.promptTokens else if stopped then r.committed else r.committed + 1))
    (hspec : spec = r.tokenRing + 64 + 8 * 2 ^ a.spec.ringLog2) (hwr : u = s.wrWords spec (autoObject a.spec)) (houts : outs = (x.ids.take tok).drop r.promptTokens)
    (hst : st = (outs.drop (outs.length - 64)).foldl (fun q i => u.autoStep spec 66 q i) 0) : ∃ t, Does (.holdAssert h chain receipt x) s t ∧ t.sent h.src 19 h.req ∧
      t.req h.req = some { r with holdEpoch := h.epoch } ∧ t.mem = (u.wrWords r.tokenRing ({
        st := (if stopped then 2 else 1), log2 := a.spec.ringLog2, req := h.req, prompt := r.promptTokens, maxNew := a.spec.maxNew, tok := tok, acked := tok
        stopPos := p.1, reason := p.2.1, stopSeq := p.2.2.1, stopLen := p.2.2.2, mstate := st, mdepth := (u.autoState spec st).1, spec := spec
        bridge := a.bridge, standby := a.standby } : TokRing).words).mem := by
  have hd := execHoldAssert_confirms (chain := chain) (receipt := receipt) (x := x) hu hv hr
  obtain ⟨hmem, hreq, -⟩ := s.asserted_fields h r
  obtain ⟨b, l, heq⟩ := (s.asserted h r).rebuildRing_places h.req (r := { r with holdEpoch := h.epoch }) hx hring
  have hplaced := State.ringPlaced_req hreq x a
  have hwritten := State.ringPlaced_mem hmem h.req { r with holdEpoch := h.epoch } x a (hspec ▸ hwr)
  generalize (s.asserted h r).ringPlaced h.req { r with holdEpoch := h.epoch } x a = v at heq hplaced hwritten
  rw [heq] at hd
  refine ⟨_, hd, State.tell_sent _ _, hplaced, hwritten.trans ?_⟩
  rw [hstopped, ← stop_getD] at hp
  subst hstopped hspec hp houts hst htok
  rfl

end Sys2Proof.Machine
end
section
open Sys2Proof Sys2Proof.Machine

/-- Settles O40: one lemma per message or timer; a ring written anew is read through what it changes beside memory, and memory through the writes alone. -/
theorem leases : Obligations.Leases := by
  refine ⟨?renew, ?extend, ?ack, ?fence, ?lapse, ?keeps, ?rebuilds, ?denies, ?confirm, ?none, ?silent, ?revoke, ?list⟩
  case renew => exact fun _ _ hu hheld hdue => execLeaseRenewTimer_renews hu hheld hdue
  case extend => exact fun _ _ _ _ _ hu hv hhere => execLeaseRenew_extends hu hv hhere
  case ack => exact fun _ _ _ _ _ hu hv hn => execLeaseAck_sets hu hv hn
  case fence => exact fun _ _ _ hu hl hdue => execLeaseFenceTimer_fences hu hl hdue
  case lapse => exact fun _ _ _ hu hl hlapsed hdue => execLeaseLapse_lapses hu hl hlapsed hdue
  case keeps => exact fun _ _ _ _ _ _ hu hv hx hr => execHoldAssert_keeps hu hv hx hr
  case rebuilds =>
    intro h chain receipt tok spec st x a p stopped outs r u s hu hv hx hr hring hstopped hp htok hspec hwr houts hst
    exact execHoldAssert_rebuilds hu hv hx hr hring hstopped hp htok hspec hwr houts hst
  case denies => exact fun _ _ _ _ _ hu hv hnone => execHoldAssert_denies hu hv hnone
  case confirm => exact fun _ _ _ hu hv he hh hsrc hep hr => execHoldConfirm_recovers hu hv he hh hsrc hep hr
  case none => exact fun _ _ _ hu hv he hh hsrc => execHoldNone_orphans hu hv he hh hsrc
  case silent => exact fun _ _ _ _ hu he ha hdue => execHoldAssertTimeout_orphans hu he ha hdue
  case revoke => exact fun _ _ hu hv => execHoldRevoke_frees hu hv
  case list => exact fun _ _ _ _ _ hu hv hmem hnot => execHoldList_revokes hu hv hmem hnot
end
section
/-! SUPPORT. The steps of an orphan's recovery at its home and at a candidate (R117, R139 to R141). -/

namespace Sys2Proof.Machine
open Sys2Proof

variable {s : State} {req : Nat} {h : MsgHdr} {e : DirEntry}

/-! ### The home's steps (R140) -/

/-- Step 1 probes the next candidate. -/
theorem execOrphanRecoveryStep_probes {c : Nat} {cs : List Nat} (hu : Up s) (he : s.entry req = some e) (hh : e.here = true) (hp : e.probe = none)
    (ha : e.assertAt = none) (hstep : e.recoveryStep = 1) (hcs : e.candidates = c :: cs) : ∃ t e', Does (.orphanRecoveryStep req) s t ∧ t.entry req = some e' ∧
      e'.probe = some (c, s.now) ∧ e'.candidates = cs ∧ t.mem = s.mem := by
  have hd : Does (.orphanRecoveryStep req) s _ := does_live rfl hu rfl
  simp only [he] at hd
  rw [if_neg (by simp [hh, hp, ha, hstep]), if_pos hstep] at hd
  simp only [hcs] at hd
  exact ⟨_, _, hd, s.setEntry_entry req _, rfl, rfl, rfl⟩

/-- A recovery past its last step ends the request with ST_ORPHAN_LOST. -/
theorem execOrphanRecoveryStep_loses (hu : Up s) (he : s.entry req = some e) (hh : e.here = true) (hp : e.probe = none) (ha : e.assertAt = none)
    (hstep : e.recoveryStep = 4) : ∃ t e', Does (.orphanRecoveryStep req) s t ∧ t.entry req = some e' ∧ e'.st = .failed ∧ e'.endStatus = some .orphanLost ∧ e'.holder = 0 := by
  have hd : Does (.orphanRecoveryStep req) s _ := does_live rfl hu rfl
  simp only [he] at hd
  rw [if_neg (by simp [hh, hp, ha, hstep]), if_neg (by simp [hstep]), if_neg (by simp [hstep]), if_neg (by simp [hstep])] at hd
  obtain ⟨e', hget, hset⟩ := s.commitEntry_stored req { e with
    st := .failed, holder := 0, recoveryStep := 0, probe := none, stateTime := s.now, endStatus := some .orphanLost } []
  exact ⟨_, e', hd, hget, congrArg DirEntry.st hset, congrArg DirEntry.endStatus hset, congrArg DirEntry.holder hset⟩

/-- A candidate of step 1 silent for 200 µs has failed. -/
theorem execRecoverProbeTimeout_fails {c at_ : Nat} (hu : Up s) (he : s.entry req = some e) (hp : e.probe = some (c, at_)) (hstep : e.recoveryStep = 1)
    (hdue : at_ + 200000 ≤ s.now) : ∃ t, Does (.recoverProbeTimeout req) s t ∧ t.entry req = some e.candidateFailed ∧ t = { s with own := t.own } := by
  have hd : Does (.recoverProbeTimeout req) s _ := does_live rfl hu rfl
  simp only [he, hp] at hd
  rw [if_pos ⟨hstep, hdue⟩] at hd
  exact ⟨_, hd, s.setEntry_entry req _, rfl⟩

/-- A verified reply with no less than the newest receipt's tokens makes the candidate holder of the next epoch, with an assertion (R117, R140). -/
theorem execRecoverReply_holds {cRec at_ : Nat} (hu : Up s) (hv : h.ver = 1) (he : s.entry h.req = some e) (hh : e.here = true) (hp : e.probe = some (h.src, at_))
    (hrec : e.receiptTokens ≤ cRec) (hlast : e.epoch + 1 ≠ 4294967295) : ∃ t e', Does (.recoverReply h 0 cRec) s t ∧ t.entry h.req = some e' ∧ e'.holder = h.src ∧
      e'.prevHolder = e.holder ∧ e'.epoch = e.epoch + 1 ∧ e'.probe = none ∧ e'.assertAt = some s.now := by
  have hd : Does (.recoverReply h 0 cRec) s _ := does_live rfl hu rfl
  rw [State.atHome_here hv he hh] at hd
  simp -zeta only [hp] at hd
  rw [if_neg (by simp), if_neg (by
    push Not
    exact ⟨rfl, hrec, hlast⟩)] at hd
  extract_lets old e2 lost s2 own s3 at hd
  obtain ⟨e', hget, hset⟩ := s3.commitEntry_stored h.req e2
    [dirMsg h.src 0x12 h.req e2.epoch e2.mapEpoch [e2.receipts.length - 1] ((e2.receipts.getLast?.map (·.chain)).getD [])]
  exact ⟨_, e', hd, hget, congrArg DirEntry.holder hset, (congrArg DirEntry.prevHolder hset :), (congrArg DirEntry.epoch hset :), congrArg DirEntry.probe hset,
    congrArg DirEntry.assertAt hset⟩

/-! ### A probed candidate (R140, R141) -/

/-- A node that nobody tells of a request answers a probe with what it has of it, and changes nothing but its messages. -/
theorem execRecoverProbe_answers {receipt newHolder : Nat} {x : Rebuild} (hu : Up s) (hv : h.ver = 1) (hx : x.known = none) :
    ∃ t, Does (.recoverProbe h receipt newHolder x) s t ∧ t.sent h.src 25 h.req ∧ t.mem = s.mem ∧ t.kv = s.kv := by
  have hd : Does (.recoverProbe h receipt newHolder x) s _ := does_live rfl hu rfl
  rw [if_neg (by simp [hv])] at hd
  extract_lets rebuilt remote at hd
  have hnone : (if (rebuilt && s.freeRecords != 0) = true then s.rebuildRecord h.mapEpoch x else none) = none := by
    split
    · simp [State.rebuildRecord, hx]
    · rfl
  cases hr : (s.req h.req).orElse (fun _ => (s.hold h.req).lingering.map (·.1)) with
  | some r =>
    simp only [hr] at hd
    exact ⟨_, hd, State.tell_sent _ _, rfl, rfl⟩
  | none =>
    simp only [hr, hnone] at hd
    exact ⟨_, hd, State.tell_sent _ _, rfl, rfl⟩

/-- A record rebuilt takes its fields from what the log says and its map from a fresh place, and only writes memory. -/
theorem State.rebuildRecord_known {mapEpoch ctx : Nat} {x : Rebuild} {a : Sys2Proof.Admitted} (hx : x.known = some a) (hctx : s.ctxFor a.composition = some ctx) :
    ∃ r m, s.rebuildRecord mapEpoch x = some (r, { s with mem := m, free := s.free + 1 }) ∧ r.composition = a.composition ∧ r.ctxSlot = ctx ∧ r.limit = a.limit ∧
      r.promptTokens = a.promptTokens ∧ r.ownerVi = a.ownerVi ∧ r.mapEpoch = mapEpoch := by
  unfold State.rebuildRecord
  simp -zeta only [hx, hctx, Option.map_some]
  extract_lets r f s2
  obtain ⟨m, hm⟩ : ∃ m, x.blocks.foldl (fun (t : State) b => t.setMapEntry r b.1 b.2.1 b.2.2.1 b.2.2.2.2) s2 = { s with mem := m, free := s.free + 1 } := by
    refine List.foldlRecOn (motive := fun t => ∃ m, t = ({ s with mem := m, free := s.free + 1 } : State)) _ _ ⟨_, rfl⟩ ?_
    rintro t ⟨m, rfl⟩ b -
    exact State.setMapEntry_frame _ r b.1 b.2.1 b.2.2.1 b.2.2.2.2
  exact ⟨r, m, by rw [hm], rfl, rfl, rfl, rfl, rfl, rfl⟩

/-- A new holder without the record rebuilds it from what the log says, keeps it to be asserted, and answers (R140, step 2). -/
theorem execRecoverProbe_rebuilds {receipt ctx : Nat} {x : Rebuild} {a : Sys2Proof.Admitted} (hu : Up s) (hv : h.ver = 1) (hx : x.known = some a) (hnode : s.node ≠ 0)
    (hreq : s.req h.req = none) (hlinger : (s.hold h.req).lingering = none) (hfree : s.freeRecords ≠ 0) (hctx : s.ctxFor a.composition = some ctx) :
    ∃ t r, Does (.recoverProbe h receipt s.node x) s t ∧ t.sent h.src 25 h.req ∧ t.kv = s.kv ∧ (t.hold h.req).lingering = some (r, [], h.epoch) ∧
      r.composition = a.composition ∧ r.ctxSlot = ctx ∧ r.limit = a.limit ∧ r.promptTokens = a.promptTokens ∧ r.ownerVi = a.ownerVi ∧ r.mapEpoch = h.mapEpoch := by
  obtain ⟨r, m, hrec, hr⟩ := State.rebuildRecord_known (mapEpoch := h.mapEpoch) hx hctx
  have hd : Does (.recoverProbe h receipt s.node x) s _ := does_live rfl hu rfl
  rw [if_neg (by simp [hv])] at hd
  extract_lets rebuilt remote at hd
  have hreb : (rebuilt && s.freeRecords != 0) = true := by simp [rebuilt, hnode, hfree]
  simp only [hreq, hlinger, Option.orElse, Option.map_none, hreb, if_true, hrec] at hd
  exact ⟨_, _, hd, State.tell_sent _ _, rfl, congrArg HoldState.lingering (State.setHold_hold ..), hr⟩

end Sys2Proof.Machine
end
section
/-! SUPPORT. Mirrored entries, the replacement of a backup, and a backup's takeover (R114, R116, R142). -/

namespace Sys2Proof.Machine
open Sys2Proof

variable {s : State} {h : MsgHdr} {e : DirEntry} {failed : Nat}

/-! ### A mirror's messages (R116) -/

/-- A backup with room stores a mirrored entry and acknowledges it. -/
theorem execMirror_stores {image receipt : List Nat} (hu : Up s) (hv : h.ver = 1) (hroom : (s.entry h.req).isSome = true ∨ s.own.dir.length < 4194304) :
    ∃ t, Does (.mirror h image receipt 0) s t ∧
      t.entry h.req = some { DirEntry.ofWords image with receipts := ((s.entry h.req).map (·.receipts)).getD [] } ∧ t.sent h.src 27 h.req ∧ t.mem = s.mem := by
  have hfits : ¬ (((s.entry h.req).isNone && decide (4194304 ≤ s.own.dir.length)) = true) := by
    rcases hroom with hsome | hlt
    · simp [Option.isSome_iff_ne_none.mp hsome]
    · simp [Nat.not_le.mpr hlt]
  have hd : Does (.mirror h image receipt 0) s _ := does_live rfl hu rfl
  rw [if_neg (by simp [hv]), if_neg hfits] at hd
  exact ⟨_, hd, s.setEntry_entry h.req _, State.tell_sent _ _, rfl⟩

/-- The messages of a list are sent in its order, and nothing else changes. -/
theorem foldl_tell_all (ms : List CtlMsg) (s : State) : ms.foldl State.tell s = { s with log := { s.log with msgs := s.log.msgs ++ ms } } := by
  induction ms generalizing s with
  | nil => simp
  | cons m ms ih => rw [List.foldl_cons, ih, State.tell, List.append_assoc, List.singleton_append]

/-- The last acknowledgement of an entry's mirror sends the messages held. -/
theorem execMirrorAck_sends (hu : Up s) (he : s.entry h.req = some e) (hv : h.ver = 1) (hsrc : h.src = e.backup) (hw : e.mirrorWait = 1) : ∃ t, Does (.mirrorAck h) s t ∧
    t.entry h.req = some { e with mirrorWait := 0, heldMsgs := [] } ∧ t.log.msgs = s.log.msgs ++ e.heldMsgs ∧ t.mem = s.mem := by
  have hd : Does (.mirrorAck h) s _ := does_live rfl hu rfl
  simp only [he] at hd
  rw [if_neg (by simp [hv, hsrc, hw]), if_pos hw, foldl_tell_all] at hd
  exact ⟨_, hd, s.setEntry_entry h.req _, rfl, rfl⟩

/-- The end of a copy is told, with its event; the directory stands. -/
theorem execHomeMirrorCopyDone_ends {c : MirrorCopy} (hu : Up s) (hc : s.own.mirrorCopy = some c) :
    ∃ t, Does .homeMirrorCopyDone s t ∧ t.own.mirrorCopy = none ∧ t.own.dir = s.own.dir ∧ t.log.evSeq = s.log.evSeq + 1 := by
  have hd : Does .homeMirrorCopyDone s _ := does_live rfl hu rfl
  simp -zeta only [hc] at hd
  extract_lets es s1 n own at hd
  have h1 : (s1.own, s1.log.evSeq) = (s.own, s.log.evSeq) := foldl_keeps (fun t => (t.own, t.log.evSeq)) es _ s fun _ _ => rfl
  obtain ⟨hown, hseq⟩ := Prod.mk.inj h1
  refine ⟨_, hd, ?_, ?_, ?_⟩
  · simp [State.raise0]
  · simp [State.raise0, own, hown]
  · simp [State.raise0, hseq]

/-! ### A failed backup (R116) -/

/-- An id found above another is one of the list. -/
theorem nextAbove_mem {ids : List Nat} {x y : Nat} (hy : nextAbove ids x = some y) : y ∈ ids := by
  unfold nextAbove at hy
  split at hy
  next z hz =>
    cases hy
    exact List.mem_of_mem_filter (minBy?_mem hz)
  next => exact List.mem_of_mem_filter (minBy?_mem hy)

/-- A replacement is never the backup that failed. -/
theorem State.newBackup_ne {b : Nat} (hb : s.newBackup e failed = some b) : b ≠ failed := by
  have := List.of_mem_filter (nextAbove_mem hb)
  simp only [Bool.and_eq_true, decide_eq_true_eq] at this
  exact this.1.2

/-- Where every key is listed once, it is so after a key is set, and the entries left are of other keys. -/
theorem Tbl.set_nodup {κ α : Type} [DecidableEq κ] {t : Tbl κ α} (ht : (t.map (·.1)).Nodup) (k : κ) (v : α) :
    ((Tbl.set t k v).map (·.1)).Nodup ∧ ∀ x ∈ Tbl.set t k v, x = (k, v) ∨ x ∈ t ∧ x.1 ≠ k := by
  induction t with
  | nil => exact ⟨by simp [Tbl.set], fun x hx => .inl (List.mem_singleton.mp hx)⟩
  | cons y t ih =>
    obtain ⟨k', v'⟩ := y
    obtain ⟨hnot, hrest⟩ := List.nodup_cons.mp ht
    obtain ⟨hnodup, hmem⟩ := ih hrest
    unfold Tbl.set
    split
    · rename_i hk
      subst hk
      refine ⟨ht, fun x hx => (List.mem_cons.mp hx).imp_right fun hx => ⟨List.mem_cons_of_mem _ hx, ?_⟩⟩
      exact fun hxk => hnot (List.mem_map.mpr ⟨x, hx, hxk⟩)
    · rename_i hk
      refine ⟨List.nodup_cons.mpr ⟨?_, hnodup⟩, fun x hx => ?_⟩
      · intro hk'
        obtain ⟨x, hx, hxk⟩ := List.mem_map.mp hk'
        rcases hmem x hx with rfl | ⟨hx, -⟩
        · exact hk hxk.symm
        · exact hnot (List.mem_map.mpr ⟨x, hx, hxk⟩)
      · rcases List.mem_cons.mp hx with rfl | hx
        · exact .inr ⟨List.mem_cons_self, hk⟩
        · exact (hmem x hx).imp_right fun hx => ⟨List.mem_cons_of_mem _ hx.1, hx.2⟩

/-- Entries replaced one after the other by entries without a property leave none with it, where the list named all that had it. -/
theorem foldl_dir_cleared {p : DirEntry → Bool} {f : State → Nat × DirEntry → State} (hf : ∀ t x, ∃ e, (f t x).own.dir = Tbl.set t.own.dir x.1 e ∧ p e = false)
    (l : List (Nat × DirEntry)) (t : State) (hnodup : (t.own.dir.map (·.1)).Nodup) (hl : ∀ x ∈ t.own.dir, p x.2 = true → x.1 ∈ l.map (·.1)) :
    ∀ x ∈ (l.foldl f t).own.dir, p x.2 = false := by
  induction l generalizing t with
  | nil => exact fun x hx => Bool.eq_false_iff.mpr fun hp => by simpa using hl x hx hp
  | cons y l ih =>
    obtain ⟨e, hdir, he⟩ := hf t y
    obtain ⟨hset, hmem⟩ := Tbl.set_nodup hnodup y.1 e
    refine ih (f t y) (hdir ▸ hset) fun x hx hp => ?_
    rcases hmem x (hdir ▸ hx) with rfl | ⟨hx, hne⟩
    · exact absurd hp (by simp [he])
    · exact (List.mem_cons.mp (hl x hx hp)).resolve_left hne

/-- One entry's step of a replacement: its new backup, with the mirror or the messages that this sends (R116). -/
def State.rebacked (s : State) (failed : Nat) (t : State) (x : Nat × DirEntry) : State :=
  match s.newBackup x.2 failed with
  | some b =>
    let e := { x.2 with backup := b, mirrorWait := if x.2.heldMsgs.isEmpty then 0 else 1 }
    if x.2.heldMsgs.isEmpty then t.setEntry x.1 e else (t.setEntry x.1 e).tell (e.mirrorMsg x.1)
  | none => x.2.heldMsgs.foldl State.tell (t.setEntry x.1 { x.2 with backup := s.node, mirrorWait := 0, heldMsgs := [] })

/-- An entry's step stores it with a backup other than the failed one; beside the entry only messages change. -/
theorem State.rebacked_frame (hne : failed ≠ s.node) (t : State) (x : Nat × DirEntry) :
    ∃ e l, s.rebacked failed t x = { t.setEntry x.1 e with log := l } ∧ e.backup ≠ failed := by
  unfold State.rebacked
  cases hb : s.newBackup x.2 failed with
  | none => exact ⟨_, _, foldl_tell_all _ _, hne.symm⟩
  | some b =>
    dsimp only
    split
    · exact ⟨_, _, rfl, State.newBackup_ne hb⟩
    · exact ⟨_, _, rfl, State.newBackup_ne hb⟩

/-- A backup replaced: no entry of this home names the failed one, and memory and the KV state stand. -/
theorem execBackupReplace_replaces (hu : Up s) (hne : failed ≠ s.node) (hnodup : (s.own.dir.map (·.1)).Nodup)
    (hany : s.own.dir.any (fun x => x.2.here && x.2.backup == failed) = true) :
    ∃ t, Does (.backupReplace failed) s t ∧ t.own.dir.all (fun x => !(x.2.here && x.2.backup == failed)) = true ∧ t.mem = s.mem ∧ t.kv = s.kv := by
  have hd : Does (.backupReplace failed) s _ := does_live rfl hu rfl
  extract_lets mine s1 at hd
  have hmine : ∀ x ∈ s.own.dir, (x.2.here && x.2.backup == failed) = true → x ∈ mine := fun x hx hp => List.mem_filter.mpr ⟨hx, by simp [hp, hne]⟩
  have hsome : ¬ mine.isEmpty = true := by
    obtain ⟨x, hx, hp⟩ := List.any_eq_true.mp hany
    simpa using List.ne_nil_of_mem (hmine x hx hp)
  rw [if_neg hsome] at hd
  have hclear : s1.own.dir.all (fun x => !(x.2.here && x.2.backup == failed)) = true := by
    refine List.all_eq_true.mpr fun x hx => (Bool.not_eq_true' _).mpr ?_
    refine foldl_dir_cleared (p := fun e => e.here && e.backup == failed) (fun t x => ?_) mine s hnodup (fun x hx hp => List.mem_map_of_mem (hmine x hx hp)) x hx
    obtain ⟨e, l, heq, hback⟩ := s.rebacked_frame hne t x
    exact ⟨e, congrArg (·.own.dir) heq, by simp [hback]⟩
  have hkeep : (s1.mem, s1.kv) = (s.mem, s.kv) := foldl_keeps (fun t => (t.mem, t.kv)) mine (s.rebacked failed) s fun t x => by
    obtain ⟨e, l, heq, -⟩ := s.rebacked_frame hne t x
    rw [heq]
    rfl
  obtain ⟨hmem, hkv⟩ := Prod.mk.inj hkeep
  refine ⟨_, hd, ?_⟩
  split
  · exact ⟨hclear, hmem, hkv⟩
  · exact ⟨hclear, hmem, hkv⟩

/-! ### A takeover (R142) -/

/-- A node acts for a failed home, and so for an entry. -/
def State.tookOver (t : State) (failed n rid : Nat) : Prop :=
  Tbl.get t.own.acting failed = some n ∧ (t.entry rid).map (fun x => (x.acting, x.mirror)) = some (true, false)

section
variable {t : State} {n rid : Nat} (ht : t.tookOver failed n rid)
include ht

/-- The entry taken over. -/
theorem State.tookOver.entry : ∃ e, t.entry rid = some e ∧ e.acting = true ∧ e.mirror = false := by
  obtain ⟨-, hentry⟩ := ht
  cases he : t.entry rid with
  | none => simp [he] at hentry
  | some e => exact ⟨e, rfl, by simpa [he] using hentry⟩

/-- Storing an acting entry keeps a takeover. -/
theorem State.tookOver.setEntry {e : DirEntry} (ha : e.acting = true) (hm : e.mirror = false) : (t.setEntry rid e).tookOver failed n rid :=
  ⟨ht.1, by rw [State.setEntry_entry, Option.map_some, ha, hm]⟩

/-- An abort of the leap keeps a takeover. -/
theorem State.tookOver.abortLeap {e : DirEntry} (ha : e.acting = true) (hm : e.mirror = false) (reason : Nat) :
    (t.abortLeap rid e reason).tookOver failed n rid := by
  obtain ⟨p, l, d, v, m, e', heq, hset, -⟩ := t.abortLeap_frame rid e reason
  rw [heq]
  exact ht.setEntry ((congrArg DirEntry.acting hset :).trans ha) ((congrArg DirEntry.mirror hset :).trans hm)

/-- A takeover is kept by steps over a list of its entry. -/
theorem State.tookOver.foldl {l : List (Nat × DirEntry)} {f : State → Nat × DirEntry → State} (hl : ∀ x ∈ l, x.1 = rid)
    (hf : ∀ u x e, u.tookOver failed n rid → x.1 = rid → u.entry rid = some e → e.acting = true → e.mirror = false → (f u x).tookOver failed n rid) :
    (l.foldl f t).tookOver failed n rid :=
  List.foldlRecOn (motive := fun u => u.tookOver failed n rid) l f ht fun u hu x hx => by
    obtain ⟨e, he, ha, hm⟩ := hu.entry
    exact hf u x e hu (hl x hx) he ha hm

end

/-- The backup of a dead home acts for it, and its mirror of the entry is the entry. -/
theorem execHomeTakeover_acts {rid : Nat} {w : Watched} {p : Peer} (hu : Up s) (hdir : s.own.dir = [(rid, e)]) (hmir : e.mirror = true) (hact : e.acting = false)
    (hfail : Tbl.at s.own.acting (reqHome rid) (reqHome rid) = failed) (hw : Tbl.get s.adh.watched failed = some w) (hlost : w.lost = true)
    (hp : Tbl.get s.fab.peers failed = some p) (hdead : p.dead = true) :
    ∃ t, Does (.homeTakeover failed) s t ∧ Tbl.get t.own.acting failed = some s.node ∧ (t.entry rid).map (fun x => (x.acting, x.mirror)) = some (true, false) := by
  have hd : Does (.homeTakeover failed) s _ := does_live rfl hu rfl
  extract_lets mine lost dead holders exp own s1 backup s2 leaping s3 moved s4 s5 s6 at hd
  have hmine : mine = [(rid, e)] := by simp [mine, hdir, hmir, hact, hfail]
  have honly : ∀ x ∈ mine, x.1 = rid := fun x hx => by
    rw [hmine, List.mem_singleton] at hx
    rw [hx]
  rw [if_neg (by simp [lost, dead, hw, hlost, hp, hdead, hmine])] at hd
  have h2 : s2.tookOver failed s.node rid := by
    simp only [s2, hmine, List.foldl_cons, List.foldl_nil]
    exact ⟨Tbl.get_set_same _ _ _, by rw [State.setEntry_entry]; rfl⟩
  have h3 : s3.tookOver failed s.node rid := h2.foldl (fun x hx => honly x (List.mem_of_mem_filter hx)) fun u x e' hu hx he ha hm => by
    rw [hx, he]
    exact hu.abortLeap ha hm 5
  have h4 : s4.tookOver failed s.node rid := h3.foldl (fun x hx => honly x (List.mem_of_mem_filter hx)) fun u x e' hu hx he ha hm => by
    rw [hx, he]
    exact hu.setEntry (e := { e' with assertAt := some u.now }) ha hm
  have h5 : s5.tookOver failed s.node rid := by
    obtain ⟨hacting, hentry⟩ := h4
    exact ⟨by simpa [s5, State.raise0] using hacting, (congrArg _ (State.raise0_entry ..)).trans hentry⟩
  have h6 : s6.tookOver failed s.node rid := h5.foldl honly fun u x e' hu hx he ha hm => by
    rw [hx, he]
    exact hu.setEntry (e := { e' with backup := backup }) ha hm
  refine ⟨_, hd, ?_⟩
  split
  · exact h6
  · exact h6

end Sys2Proof.Machine
end

section
open Sys2Proof Sys2Proof.Machine

/-- Settles O41: recovery goes step by step over the candidates, a mirrored entry outlives its home, and a failed backup is replaced. -/
theorem recoveryAndMirrors : Obligations.RecoveryAndMirrors := by
  unfold Obligations.RecoveryAndMirrors
  refine ⟨?probe, ?lost, ?answers, ?rebuilds, ?reply, ?timeout, ?mirror, ?ack, ?replace, ?copied, ?takeover⟩
  case probe => exact fun req c cs e s hu he hh hp ha hstep hc => execOrphanRecoveryStep_probes hu he hh hp ha hstep hc
  case lost => exact fun req e s hu he hh hp ha hstep => execOrphanRecoveryStep_loses hu he hh hp ha hstep
  case answers => exact fun h receipt newHolder x s hu hv hk => execRecoverProbe_answers hu hv hk
  case rebuilds => exact fun h receipt x a ctx s hu hv hk hn hr hl hf hc => execRecoverProbe_rebuilds hu hv hk hn hr hl hf hc
  case reply => exact fun h cRec at_ e s hu hv he hh hp hrec hne => execRecoverReply_holds hu hv he hh hp hrec hne
  case timeout => exact fun req c at_ e s hu he hp hstep hat => execRecoverProbeTimeout_fails hu he hp hstep hat
  case mirror => exact fun h image receipt s hu hv hroom => execMirror_stores hu hv hroom
  case ack => exact fun h e s hu he hv hsrc hw => execMirrorAck_sends hu he hv hsrc hw
  case replace => exact fun failed s hu hne hnodup hany => execBackupReplace_replaces hu hne hnodup hany
  case copied => exact fun c s hu hc => execHomeMirrorCopyDone_ends hu hc
  case takeover => exact fun failed rid e w p s hu hdir hm ha hf hw hl hp hd => execHomeTakeover_acts hu hdir hm ha hf hw hl hp hd

end
section
/-! SUPPORT. How ATTEND, ATTEND_PARTIAL and ATTEND_MERGE end, and what a late remote part leaves (R138, R150 to R174). -/

namespace Sys2Proof.Machine
open Sys2Proof

variable {s t : State} {cid rid a d warn layer head result : Nat} {c : Cmd} {final bf16 : Bool} {rows : List ResRow}

/-! ### Result rows (R167, R169) -/

/-- Rows written leave what stands, and the log. -/
theorem State.writeRows_standing : (s.writeRows a d final bf16 warn layer head rows).standing = s.standing :=
  foldl_standing fun t _ => t.store_standing _ _
theorem State.writeRows_log : (s.writeRows a d final bf16 warn layer head rows).log = s.log :=
  foldl_keeps State.log _ _ s fun t _ => by
    obtain ⟨b, w, m, c, p, n, e⟩ := t.store_frame _ _
    rw [e]

/-- What a list of stores writes does not depend on the state but for its memory. -/
theorem foldl_store_mem {α : Type} (l : List α) (addr : α → Nat) (bytes : α → List Byte) (h : t.mem = s.mem) :
    (l.foldl (fun u x => u.store (addr x) (bytes x)) t).mem = (l.foldl (fun u x => u.store (addr x) (bytes x)) s).mem := by
  induction l generalizing s t with
  | nil => exact h
  | cons x l ih => exact ih (by rw [State.store_mem, State.store_mem, h])

/-- What result rows write depends on memory alone. -/
theorem State.writeRows_mem (h : t.mem = s.mem) :
    (t.writeRows a d final bf16 warn layer head rows).mem = (s.writeRows a d final bf16 warn layer head rows).mem := foldl_store_mem _ _ _ h

/-- Some row failed its check exactly where one is found with its index. -/
theorem find_failed_isSome (rows : List ResRow) :
    ((rows.mapIdx (fun i r => (i, r))).find? (fun x => x.2.fail.isSome)).isSome = rows.any (fun r => r.fail.isSome) := by
  rw [Bool.eq_iff_iff, List.find?_isSome, List.any_eq_true]
  constructor
  · rintro ⟨x, hx, hfail⟩
    obtain ⟨i, hi, rfl⟩ := List.mem_mapIdx.mp hx
    exact ⟨_, List.getElem_mem hi, hfail⟩
  · rintro ⟨r, hr, hfail⟩
    obtain ⟨i, hi, rfl⟩ := List.mem_iff_getElem.mp hr
    exact ⟨(i, rows[i]), List.mem_mapIdx.mpr ⟨i, hi, rfl⟩, hfail⟩

/-! ### How a job ends (R150, R169, R171) -/

/-- A job has ended as its scales and rows say: a failed check and its event, no key under a final result, or the rows written. -/
def State.JobEnded (s t : State) (cid a d : Nat) (final bf16 : Bool) (warn layer head result : Nat) (bad : Bool) (rows : List ResRow) : Prop :=
  if bad = true ∨ rows.any (fun x => x.fail.isSome) = true then t.ended cid .attendCheck 0 ∧ t.log.evSeq = s.log.evSeq + 1
  else if final = true ∧ rows.any (fun x => !x.any) = true then t.ended cid .attendNoKeys 0 ∧ t.mem = s.mem
  else t.ended cid (if rows.any (fun x => x.tailHigh warn) then .attendTailHigh else .ok) result ∧ t.mem = (s.writeRows a d final bf16 warn layer head rows).mem

/-- What a job notes before it ends does not count. -/
theorem State.JobEnded.of_noted {u : State} {bad : Bool} (h : u.JobEnded t cid a d final bf16 warn layer head result bad rows) (hmem : u.mem = s.mem)
    (hlog : u.log = s.log) : s.JobEnded t cid a d final bf16 warn layer head result bad rows := by
  rwa [State.JobEnded, hmem, hlog, State.writeRows_mem hmem] at h

/-- A command listed has the outcome given after upkeep. -/
theorem State.finish_ended_standing {u : State} {st : Status} (hc : Tbl.has s.work.cmds cid = true) (hu : u.standing = s.standing) :
    (u.finish cid st result).ended cid st result := State.finish_ended ((Standing.listed_eq hu cid).trans hc)

/-- The rows of a job with good scales end it so. -/
theorem State.endRows_ends (hc : Tbl.has s.work.cmds cid = true) :
    s.JobEnded (s.endRows cid rid a d final bf16 warn layer head result rows) cid a d final bf16 warn layer head result false rows := by
  have hany := find_failed_isSome rows
  unfold State.endRows
  cases hfind : (rows.mapIdx (fun i r => (i, r))).find? (fun x => x.2.fail.isSome) with
  | some x =>
    rw [hfind, Option.isSome_some] at hany
    rw [State.JobEnded, if_pos (.inr hany.symm)]
    refine ⟨State.finish_ended_standing hc ((State.raise0_standing _ _ _ _).trans State.writeRows_standing), ?_⟩
    simp [State.finish, State.raise0, State.writeRows_log]
  | none =>
    rw [hfind] at hany
    rw [State.JobEnded, if_neg (by simp [← hany])]
    dsimp only
    by_cases hkeys : final = true ∧ rows.any (fun x => !x.any) = true
    · rw [if_pos hkeys, if_pos (by simpa using hkeys)]
      exact ⟨State.finish_ended hc, rfl⟩
    · rw [if_neg hkeys, if_neg (by simpa using hkeys)]
      exact ⟨State.finish_ended_standing hc State.writeRows_standing, rfl⟩

/-- A running command is among the commands. -/
theorem State.running_has {cls op : Nat} (h : s.running cid cls op = some c) : Tbl.has s.work.cmds cid = true := by
  rw [Tbl.has, State.running_listed h, Option.isSome_some]

/-- A bad scale ends a job with its event. -/
theorem State.badScale_ends (hc : Tbl.has s.work.cmds cid = true) (die : Nat) (payload : List Nat) :
    s.JobEnded ((s.raise0 .attendCheck die 0 payload).finish cid .attendCheck 0) cid a d final bf16 warn layer head result true rows := by
  rw [State.JobEnded, if_pos (.inl rfl)]
  refine ⟨State.finish_ended_standing hc (State.raise0_standing _ _ _ _), ?_⟩
  simp [State.finish, State.raise0]

/-- What a job notes leaves memory, the log and the listed commands. -/
theorem State.attendNote_keeps (s : State) (cid ctx : Nat) (c : Cmd) (bs : List JobBlock) (res : JobRes) :
    (s.attendNote cid ctx c bs res).standing = s.standing ∧ (s.attendNote cid ctx c bs res).mem = s.mem ∧ (s.attendNote cid ctx c bs res).log = s.log := by
  refine ⟨?_, rfl, rfl⟩
  unfold State.attendNote
  extract_lets _ _ _ _ _ s1 _ s2
  exact (State.updCmd_standing _ _).trans ((State.updComp_standing _ _).trans (State.note_standing ..))

/-- A block that does not verify is told of, and nothing that stands changes. -/
theorem State.blockFault_standing {bs : List JobBlock} {e : Status × State} (he : s.blockFault bs = some e) : e.2.standing = s.standing := by
  unfold State.blockFault at he
  cases hd : bs.find? (fun b => !s.descOk b.da) with
  | some b =>
    rw [hd] at he
    cases he
    exact State.descFail_standing _
  | none =>
    rw [hd] at he
    obtain ⟨b, -, rfl⟩ := Option.map_eq_some_iff.mp he
    exact State.planeFail_standing _ _

/-- A job that ends before its rows has at most told of a block that failed. -/
theorem State.attendLocal_standing {ctx : Nat} {bs : List JobBlock} {e : Status × State} (he : s.attendLocal c ctx bs = .error e) : e.2.standing = s.standing := by
  unfold State.attendLocal at he
  extract_lets w f d a at he
  split at he
  · cases he
    rfl
  split at he
  · cases he
    rfl
  split at he
  next hfault =>
    cases he
    exact State.blockFault_standing hfault
  · cases he

/-- A job that ran ends as its scales and rows say. -/
theorem State.attended_ends {ctx : Nat} {bs : List JobBlock} {res : JobRes} (hc : Tbl.has s.work.cmds cid = true) (die : Nat) (payload : List Nat) :
    s.JobEnded (if res.badScale then ((s.attendNote cid ctx c bs res).raise0 .attendCheck die 0 payload).finish cid .attendCheck 0
      else (s.attendNote cid ctx c bs res).endRows cid rid a d final bf16 warn layer head result res.rows) cid a d final bf16 warn layer head result res.badScale res.rows := by
  obtain ⟨hstand, hmem, hlog⟩ := s.attendNote_keeps cid ctx c bs res
  have hc' := (Standing.listed_eq hstand cid).trans hc
  cases res.badScale with
  | true => exact (State.badScale_ends hc' die payload).of_noted hmem hlog
  | false => exact (State.endRows_ends hc').of_noted hmem hlog

/-! ### ATTEND -/

/-- A job without remote parts merges none. -/
theorem partRows_none (d n : Nat) : partRows d n [] = .ok [] := rfl

/-- Rows that take the failures of their own list are that list. -/
theorem mapIdx_own_fail (rows : List ResRow) :
    rows.mapIdx (fun i x => { (rows.getD i {}) with fail := x.fail.orElse (fun _ => (rows.getD i {}).fail) }) = rows := by
  refine List.ext_getElem (by simp) fun i hi hi' => ?_
  rw [List.getElem_mapIdx, List.getD_eq_getElem _ _ hi']
  cases hf : rows[i].fail <;> simp [← hf]

section
variable {ctx : Nat} {r : Req} (hu : Up s) (hrun : s.running cid 2 1 = some c) (hr : s.req (fld c.op 1 47 0) = some r) (hctx : ctx = c.slot.getD r.ctxSlot)
  (hpulls : s.pullsWaiting c = false) (hparts : c.parts = [])
include hu hrun hr hctx hpulls hparts

/-- An ATTEND that waits for nothing and fails before its rows ends with what failed. -/
theorem execAttend_fails {e : Status × State} (he : s.attendLocal c ctx (s.jobBlocks c) = .error e) : Does (.attend cid []) s (s.keeping (e.2.finish cid e.1 0)) := by
  subst hctx
  refine does_live rfl hu ?_
  simp [hrun, hr, hpulls, hparts, he]

/-- An ATTEND that waits for nothing and runs ends as its scales and rows say. -/
theorem execAttend_ends {res : JobRes} (hres : s.attendLocal c ctx (s.jobBlocks c) = .ok res) : ∃ t, Does (.attend cid []) s t ∧
    s.JobEnded t cid (word c.op 3) (s.ctx ctx).f.headDim (fld c.op 5 37 37 == 0) (fld c.op 5 36 36 == 1) (fld c.op 7 31 16) (fld c.op 5 63 54) (fld c.op 5 53 46)
      (attendResult res.keys res.union res.rows) res.badScale res.rows := by
  subst hctx
  have hd : Does (.attend cid []) s _ := does_live rfl hu rfl
  simp only [hrun, hr, hpulls, hparts, hres, List.filter_nil, List.find?_nil, List.any_nil, Bool.or_self, Bool.false_eq_true, if_false, List.map_nil, partRows_none,
    List.isEmpty_nil, if_true, List.sum_nil, Nat.add_zero, mapIdx_own_fail] at hd
  exact ⟨_, hd, State.attended_ends (State.running_has hrun) _ _⟩

end

/-! ### ATTEND_PARTIAL -/

section
variable (hu : Up s) (hrun : s.running cid 2 2 = some c)
include hu hrun

/-- An ATTEND_PARTIAL that fails before its rows ends with what failed. -/
theorem execAttendPartial_fails {e : Status × State} (he : s.attendLocal c (c.slot.getD 0) (s.jobBlocks c) = .error e) :
    ∃ t, Does (.attendPartial cid) s t ∧ t.ended cid e.1 0 := by
  have hd : Does (.attendPartial cid) s _ := does_live rfl hu rfl
  simp only [hrun, he] at hd
  exact ⟨_, hd, State.finish_ended_standing (State.running_has hrun) (State.attendLocal_standing he)⟩

/-- An ATTEND_PARTIAL that runs ends as its scales and rows say; rows without a key are written. -/
theorem execAttendPartial_ends {res : JobRes} (hres : s.attendLocal c (c.slot.getD 0) (s.jobBlocks c) = .ok res) : ∃ t, Does (.attendPartial cid) s t ∧
    s.JobEnded t cid (word c.op 3) (s.ctx (c.slot.getD 0)).f.headDim false false (fld c.op 7 31 16) (fld c.op 5 63 54) (fld c.op 5 53 46)
      (attendResult res.keys res.union res.rows) res.badScale res.rows := by
  have hd : Does (.attendPartial cid) s _ := does_live rfl hu rfl
  simp only [hrun, hres] at hd
  exact ⟨_, hd, State.attended_ends (State.running_has hrun) _ _⟩

end

/-! ### ATTEND_MERGE (R173, R174) -/

/-- Parts without a key merge to a row without a key, which fails no check. -/
theorem mergeRow_noKeys {ps : List ResRow} (h : ps.all (fun p => !p.any) = true) : (mergeRow d ps).any = false ∧ (mergeRow d ps).fail = none := by
  have hlive : ps.filter (·.any) = [] := List.filter_eq_nil_iff.mpr fun p hp => by simpa using List.all_eq_true.mp h p hp
  simp [mergeRow, hlive]

/-- A merge's end as its result word leaves it open. -/
theorem State.JobEnded.merged (h : s.JobEnded t cid a d final bf16 warn layer head result false rows) :
    if rows.any (fun x => x.fail.isSome) = true then t.ended cid .attendCheck 0
    else if final = true ∧ rows.any (fun x => !x.any) = true then t.ended cid .attendNoKeys 0 ∧ t.mem = s.mem
    else ∃ st v, (st = Status.ok ∨ st = Status.attendTailHigh) ∧ t.ended cid st v ∧ t.mem = (s.writeRows a d final bf16 warn layer head rows).mem := by
  simp only [State.JobEnded, Bool.false_eq_true, false_or] at h
  split
  · rw [if_pos ‹_›] at h
    exact h.1
  rw [if_neg ‹_›] at h
  split
  · rwa [if_pos ‹_›] at h
  rw [if_neg ‹_›] at h
  exact ⟨_, _, (ite_eq_or_eq _ _ _).symm, h⟩

section
variable {n : Nat} (hu : Up s) (hrun : s.running cid 2 3 = some c) (hdim : d = (s.ctx (c.slot.getD 0)).f.headDim) (hn : n = fld c.op 4 58 52)
  (hread : s.readFault (word c.op 2) (fld c.op 4 63 59 * n * (64 + 4 * d)) = none)
include hu hrun hdim hn hread

/-- A merge of a part in another form is refused. -/
theorem execAttendMerge_badForm {p : Nat} (hp : s.badForm (word c.op 2) (fld c.op 4 63 59) n (64 + 4 * d) = some p) :
    Does (.attendMerge cid) s (s.finish cid .invalidField (p * 2 ^ 32)) := by
  subst hdim hn
  have hd : Does (.attendMerge cid) s _ := does_live rfl hu rfl
  simp only [hrun, hread, hp] at hd
  exact hd

variable (hform : s.badForm (word c.op 2) (fld c.op 4 63 59) n (64 + 4 * d) = none)
include hform

/-- A merge of a part that does not verify ends with that part. -/
theorem execAttendMerge_badPart {p : Nat}
    (hp : partRows d n ((List.range (fld c.op 4 63 59)).map (fun p => (p, s.rd (word c.op 2 + p * n * (64 + 4 * d)) (n * (64 + 4 * d))))) = .error p) :
    Does (.attendMerge cid) s (s.finish cid .partialCheck (p * 2 ^ 32)) := by
  subst hdim hn
  have hd : Does (.attendMerge cid) s _ := does_live rfl hu rfl
  simp only [hrun, hread, hform, hp] at hd
  exact hd

/-- A merge of parts that verify ends as the merged rows say. -/
theorem execAttendMerge_ends {ps : List (List ResRow)}
    (hp : partRows d n ((List.range (fld c.op 4 63 59)).map (fun p => (p, s.rd (word c.op 2 + p * n * (64 + 4 * d)) (n * (64 + 4 * d))))) = .ok ps) :
    ∃ t v, Does (.attendMerge cid) s t ∧ s.JobEnded t cid (word c.op 3) d (fld c.op 4 51 51 == 0) (fld c.op 4 50 50 == 1) (fld c.op 4 49 34)
      (fld (s.rdWords (word c.op 2) 8) 6 63 54) (fld (s.rdWords (word c.op 2) 8) 6 53 46) v false
      ((List.range n).map (fun i => mergeRow d (ps.map (fun p => p.getD i {})))) := by
  subst hdim hn
  have hd : Does (.attendMerge cid) s _ := does_live rfl hu rfl
  simp only [hrun, hread, hform, hp] at hd
  refine ⟨_, _, hd, State.JobEnded.of_noted (State.endRows_ends ?_) rfl rfl⟩
  exact (Standing.listed_eq (State.note_standing cid _ _ _ _ _) cid).trans (State.running_has hrun)

end

/-! ### A late remote part (R138, R154) -/

/-- Starting a pull leaves the commands as they stand. -/
theorem State.startPull_cmds (s : State) (rid l h b : Nat) (oc : Option Nat) (codeOnly : Bool) (len source : Nat) :
    (s.startPull rid l h b oc codeOnly len source).2.work.cmds = s.work.cmds := by
  unfold State.startPull
  split
  · rfl
  split
  · rfl
  extract_lets hd
  split
  · rfl
  split
  · rfl
  extract_lets s1 _ s2 p
  have hask : ∀ t : State, (t.askCopy rid l h b p).work = t.work := fun t => by
    unfold State.askCopy
    split
    · rfl
    · rfl
  rw [hask]
  have hs1 : s1.work = s.work := by simp [s1, State.claimSlot, State.chargeSlot, State.bookSlot, State.bookMove]
  exact congrArg Work.cmds hs1

/-- No answer of a node is awaited for a command. -/
def State.partGone (s : State) (cid node : Nat) : Prop := (Tbl.get s.work.cmds cid).map (fun x => Tbl.get x.parts node) = some none

/-- The outcome of a command leaves what it awaits. -/
theorem State.partGone.finish {node : Nat} (h : s.partGone cid node) (st : Status) (result : Nat) : (s.finish cid st result).partGone cid node := by
  obtain ⟨x, hx, hgone⟩ := Option.map_eq_some_iff.mp h
  exact (congrArg _ (Tbl.get_upd_some _ _ _ x hx)).trans (congrArg some hgone)

/-- A part replaced is no longer awaited. -/
theorem State.replacePart_gone (hc : Tbl.get s.work.cmds cid = some c) (node : Nat) : (s.replacePart cid node).partGone cid node := by
  unfold State.replacePart
  simp -zeta only [hc]
  extract_lets w rid s0 l h
  have h0 : s0.partGone cid node := by
    have hget := Tbl.get_upd_some s.work.cmds cid (fun c => { c with parts := Tbl.del c.parts node }) c hc
    exact (congrArg _ hget).trans (congrArg some (Tbl.get_del_same _ _))
  split
  · exact h0.finish _ _
  extract_lets mine
  generalize hpulled : mine.foldl _ (true, s0) = pulled
  have hpulls : pulled.2.partGone cid node := by
    rw [← hpulled]
    refine List.foldlRecOn (motive := fun acc : Bool × State => acc.2.partGone cid node) mine _ h0 fun acc hacc b _ => ?_
    rwa [State.partGone, State.startPull_cmds]
  split
  · exact hpulls
  · exact hpulls.finish _ _

/-- A remote part past its deadline is no longer awaited. -/
theorem execRemotePartDeadline_drops {node at_ : Nat} (hu : Up s) (hc : Tbl.get s.work.cmds cid = some c) (hp : Tbl.get c.parts node = some at_) (hdue : at_ ≤ s.now)
    (hopen : c.outcome = none) : ∃ t, Does (.remotePartDeadline cid node) s t ∧ (Tbl.get t.work.cmds cid).map (fun x => Tbl.get x.parts node) = some none := by
  have hd : Does (.remotePartDeadline cid node) s _ := does_live rfl hu rfl
  simp only [hc, hp] at hd
  rw [if_neg (by simp [hopen, hdue])] at hd
  exact ⟨_, hd, State.replacePart_gone hc node⟩

end Sys2Proof.Machine
end
section
open Sys2Proof Sys2Proof.Machine

/-- Settles O48: a job that stops before its rows ends with what stopped it; else its scales and rows say how it ends (`State.JobEnded`). -/
theorem attendCommands : Obligations.AttendCommands := by
  unfold Obligations.AttendCommands
  refine ⟨?fails, ?attend, ?listed, ?merge, ?deadline, ?noKeys⟩
  case fails => exact fun cid ctx c r e s hu hrun hr hctx hpulls hparts he => execAttend_fails hu hrun hr hctx hpulls hparts he
  case attend =>
    intro cid ctx c r s hu hrun hr hctx hpulls hparts
    cases hlocal : s.attendLocal c ctx (s.jobBlocks c) with
    | error e => exact ⟨_, execAttend_fails hu hrun hr hctx hpulls hparts hlocal, State.finish_ended_standing (State.running_has hrun) (State.attendLocal_standing hlocal)⟩
    | ok res =>
      obtain ⟨t, hd, hends⟩ := execAttend_ends hu hrun hr hctx hpulls hparts hlocal
      exact ⟨t, hd, by simpa only [State.JobEnded, beq_iff_eq] using hends⟩
  case listed =>
    intro cid c s hu hrun
    cases hlocal : s.attendLocal c (c.slot.getD 0) (s.jobBlocks c) with
    | error e => exact execAttendPartial_fails hu hrun hlocal
    | ok res =>
      obtain ⟨t, hd, hends⟩ := execAttendPartial_ends hu hrun hlocal
      exact ⟨t, hd, by simpa only [State.JobEnded, Bool.false_eq_true, false_and, if_false] using hends⟩
  case merge =>
    intro cid d n c s hu hrun hdim hn hread
    cases hform : s.badForm (word c.op 2) (fld c.op 4 63 59) n (64 + 4 * d) with
    | some p => exact ⟨_, execAttendMerge_badForm hu hrun hdim hn hread hform, rfl⟩
    | none =>
      cases hparts : partRows d n ((List.range (fld c.op 4 63 59)).map (fun p => (p, s.rd (word c.op 2 + p * n * (64 + 4 * d)) (n * (64 + 4 * d))))) with
      | error p => exact ⟨_, execAttendMerge_badPart hu hrun hdim hn hread hform hparts, rfl⟩
      | ok ps =>
        obtain ⟨t, v, hd, hends⟩ := execAttendMerge_ends hu hrun hdim hn hread hform hparts
        exact ⟨t, hd, by simpa only [beq_iff_eq] using hends.merged⟩
  case deadline => exact fun cid node at_ c s hu hc hp hdue hopen => execRemotePartDeadline_drops hu hc hp hdue hopen
  case noKeys => exact fun d ps h => mergeRow_noKeys h

end

section
/-! SUPPORT. Words as memory keeps them, and a codebook directory entry read back (R7, R184, R190). -/

namespace Sys2Proof.Machine
open Sys2Proof

/-! ### Words in memory (R7) -/

/-- The lowest byte of a value comes first. -/
theorem bytesOf_succ (n v : Nat) : bytesOf (n + 1) v = BitVec.ofNat 8 v :: bytesOf n (v >>> 8) := by
  simp only [bytesOf, List.range_succ_eq_map, List.map_cons, List.map_map, Nat.mul_zero, Nat.shiftRight_zero, List.cons.injEq, true_and]
  refine List.map_congr_left fun i _ => ?_
  rw [Function.comp_apply, ← Nat.shiftRight_add, Nat.mul_succ, Nat.add_comm]

/-- The value of a value's bytes is the value, as far as the bytes reach. -/
theorem valOf_bytesOf (n v : Nat) : valOf (bytesOf n v) = v % 256 ^ n := by
  induction n generalizing v with
  | zero => simp [bytesOf, valOf, Nat.mod_one]
  | succ n ih =>
    have hcons : valOf (bytesOf (n + 1) v) = v % 256 + 256 * valOf (bytesOf n (v >>> 8)) := by
      rw [bytesOf_succ]
      simp [valOf]
    rw [hcons, ih, Nat.shiftRight_eq_div_pow, Nat.pow_succ' (n := n), Nat.mod_mul]

theorem length_bytesOf (n v : Nat) : (bytesOf n v).length = n := by simp [bytesOf]

theorem length_bytesOfWords (ws : List Nat) : (bytesOfWords ws).length = 8 * ws.length := by
  induction ws with
  | nil => rfl
  | cons w ws ih => simp only [bytesOfWords, List.flatMap_cons, List.length_append, length_bytesOf, List.length_cons] at ih ⊢; omega

/-- The words of a list of words' bytes are those words, each kept to 64 bits. -/
theorem wordsOf_bytesOfWords (ws : List Nat) : wordsOf ws.length (bytesOfWords ws) = ws.map u64 := by
  induction ws with
  | nil => rfl
  | cons w ws ih =>
    have hlen := length_bytesOf 8 w
    have hrest : ∀ i, ((bytesOf 8 w ++ bytesOfWords ws).drop (8 * (i + 1))).take 8 = ((bytesOfWords ws).drop (8 * i)).take 8 := fun i => by
      rw [show 8 * (i + 1) = (bytesOf 8 w).length + 8 * i by omega, List.drop_length_add_append]
    have hfirst : (bytesOf 8 w ++ bytesOfWords ws).take 8 = bytesOf 8 w := List.take_left' hlen
    have hbytes : bytesOfWords (w :: ws) = bytesOf 8 w ++ bytesOfWords ws := rfl
    rw [wordsOf, List.length_cons, List.range_succ_eq_map, List.map_cons, List.map_map, hbytes, Nat.mul_zero, List.drop_zero, hfirst, valOf_bytesOf,
      List.map_cons, ← ih]
    exact congrArg (List.cons _) (List.map_congr_left fun i _ => congrArg valOf (hrest i))

/-- A word is the sum of its fields. -/
theorem mkWord_cons (lo w v : Nat) (fs : List (Nat × Nat × Nat)) : mkWord ((lo, w, v) :: fs) = v % 2 ^ w * 2 ^ lo + mkWord fs := by
  have hsum : ∀ (fs : List (Nat × Nat × Nat)) (a : Nat), fs.foldl (fun acc f => acc + f.2.2 % 2 ^ f.2.1 * 2 ^ f.1) a = a + mkWord fs := by
    intro fs
    induction fs with
    | nil => exact fun a => rfl
    | cons f fs ih =>
      intro a
      rw [mkWord, List.foldl_cons, List.foldl_cons, ih, ih, Nat.zero_add, Nat.add_assoc]
  rw [mkWord, List.foldl_cons, hsum, Nat.zero_add]

theorem mkWord_nil : mkWord [] = 0 := rfl
/-- A run written to a memory of canonical form is the run read there. -/
theorem State.rd_wr_same (s : State) (a : Nat) (bs : List Byte) (hw : Memory.wf s.mem) : (s.wr a bs).rd a bs.length = bs := by
  refine List.ext_getElem (by simp [State.rd]) fun i hi hi' => ?_
  simp only [State.rd, State.wr, List.getElem_map, List.getElem_range]
  rw [memGet_memPuts_same bs s.mem a i hw hi', List.getD_eq_getElem _ _ hi']

/-- Words written to a memory of canonical form are the words read there, each kept to 64 bits. -/
theorem State.rdWords_wrWords_same (s : State) (a : Nat) (ws : List Nat) (hw : Memory.wf s.mem) : (s.wrWords a ws).rdWords a ws.length = ws.map u64 := by
  rw [State.rdWords, State.wrWords, ← length_bytesOfWords, State.rd_wr_same s a _ hw, wordsOf_bytesOfWords]

/-! ### Set objects and directory entries (R184, R190) -/

/-- The stride of set objects is whole 4,096 bytes, the fewest that hold one. -/
theorem cbStride_spec (d : Nat) : cbStride d % 4096 = 0 ∧ 64 + 512 * d ≤ cbStride d ∧ cbStride d < 64 + 512 * d + 4096 := by
  unfold cbStride ceilDiv
  omega

/-- An entry is eight words. -/
theorem CbSet.length_words (x : CbSet) : x.words.length = 8 := by simp [CbSet.words, sealWords]

/-- The word of a version slot (R190). -/
def slotWord (v : Nat × Nat × Nat) : Nat := mkWord [(48, 16, v.1), (45, 3, v.2.1), (0, 32, v.2.2)]

/-- The first word of an entry (R190). -/
def CbSet.headWord (x : CbSet) : Nat := mkWord [(48, 16, x.cur), (46, 2, x.curSlot), (44, 2, x.nextSlot), (43, 1, b2n x.pend)]

/-- The words of an entry of four slots, one by one. -/
theorem CbSet.words_four {x : CbSet} {a b c d : Nat × Nat × Nat} (hs : x.slots = [a, b, c, d]) : ∃ check, x.words =
    [x.headWord, u64 x.switchAt, slotWord a, slotWord b, slotWord c, slotWord d, u64 x.lastDrift, check] :=
  ⟨_, by simp [CbSet.words, sealWords, hs, List.range_succ, slotWord, CbSet.headWord]; rfl⟩

/-- A version slot whose values fit their fields is read from its word. -/
theorem slotWord_read {v : Nat × Nat × Nat} (hver : v.1 < 2 ^ 16) (hst : v.2.1 < 8) (hrefs : v.2.2 < 2 ^ 32) :
    (bits (u64 (slotWord v)) 63 48, bits (u64 (slotWord v)) 47 45, bits (u64 (slotWord v)) 31 0) = v := by
  obtain ⟨ver, st, refs⟩ := v
  dsimp only at hver hst hrefs
  simp only [slotWord, mkWord_cons, mkWord_nil, bits, u64, Nat.shiftRight_eq_div_pow, Prod.mk.injEq]
  omega

/-- The version and slots that an entry's first word names are read from it. -/
theorem CbSet.headWord_read {x : CbSet} (hcur : x.cur < 2 ^ 16) (hcs : x.curSlot < 4) (hns : x.nextSlot < 4) :
    bits (u64 x.headWord) 63 48 = x.cur ∧ bits (u64 x.headWord) 47 46 = x.curSlot ∧ bits (u64 x.headWord) 45 44 = x.nextSlot ∧
    bits (u64 x.headWord) 43 43 = b2n x.pend := by
  have hp : b2n x.pend < 2 := by cases x.pend <;> decide
  simp only [CbSet.headWord, mkWord_cons, mkWord_nil, bits, u64, Nat.shiftRight_eq_div_pow]
  omega

/-- An entry whose values fit their fields is read from its own words. -/
theorem CbSet.ofWords_words {x : CbSet} (h : x.fits) : CbSet.ofWords (x.words.map u64) = x := by
  obtain ⟨hcur, hcurSlot, hnextSlot, hswitch, hdrift, hlen, hslots⟩ := h
  obtain ⟨a, b, c, d, hs⟩ := List.length_eq_four.mp hlen
  obtain ⟨check, hwords⟩ := CbSet.words_four hs
  obtain ⟨hcv, hcs, hns, hp⟩ := CbSet.headWord_read hcur hcurSlot hnextSlot
  have hread : ∀ v ∈ [a, b, c, d], (bits (u64 (slotWord v)) 63 48, bits (u64 (slotWord v)) 47 45, bits (u64 (slotWord v)) 31 0) = v := by
    intro v hv
    have hfit := List.all_eq_true.mp hslots v (hs ▸ hv)
    simp only [Bool.and_eq_true, decide_eq_true_eq] at hfit
    obtain ⟨⟨hver, hst⟩, hrefs⟩ := hfit
    exact slotWord_read hver hst hrefs
  have hpend : (b2n x.pend == 1) = x.pend := by cases x.pend <;> rfl
  have hkept : ∀ n, n < 2 ^ 64 → u64 (u64 n) = n := fun n hn => by rw [u64, u64, Nat.mod_mod, Nat.mod_eq_of_lt hn]
  have hrange : List.range 4 = [0, 1, 2, 3] := rfl
  simp only [List.forall_mem_cons] at hread
  obtain ⟨hra, hrb, hrc, hrd, -⟩ := hread
  rw [hwords, CbSet.ofWords, hrange]
  simp only [fld, word, List.map_cons, List.map_nil, List.getD_cons_zero, List.getD_cons_succ, Nat.reduceAdd, hra, hrb, hrc, hrd, hcv, hcs, hns, hp, hpend,
    hkept _ hswitch, hkept _ hdrift, ← hs]

/-- An entry written is the entry read there. -/
theorem State.cbSet_setCbSet_same (s : State) (ctx e : Nat) {x : CbSet} (hw : Memory.wf s.mem) (hx : x.fits) : (s.setCbSet ctx e x).cbSet ctx e = x := by
  have hread := State.rdWords_wrWords_same s ((s.ctx ctx).f.codebookDir + 64 + e * 64) x.words hw
  have hctx : (s.setCbSet ctx e x).ctx ctx = s.ctx ctx := State.ctx_congr (by simp) ctx
  rw [CbSet.length_words] at hread
  rw [State.cbSet, hctx, State.setCbSet, hread, CbSet.ofWords_words hx]

/-- An entry written leaves every byte outside its line. -/
theorem State.setCbSet_sameBut (s : State) (ctx e : Nat) (x : CbSet) :
    sameBut s.mem (s.setCbSet ctx e x).mem ((s.ctx ctx).f.codebookDir + 64 + e * 64) 64 := by
  have hlen : (bytesOfWords x.words).length = 64 := by rw [length_bytesOfWords, CbSet.length_words]
  intro a ha
  simp only [State.setCbSet, State.wrWords, State.wr]
  exact memGet_memPuts_other _ _ _ _ (by rwa [hlen])

end Sys2Proof.Machine
end

section
open Sys2Proof Sys2Proof.Machine

/-- Settles O57: a set object's number counts four slots an entry, and rounding up to whole 4,096 bytes adds less than one of them. -/
theorem setObjectStride : Obligations.SetObjectStride := by
  unfold Obligations.SetObjectStride
  refine ⟨fun f e n _ => ⟨?_, cbStride_spec f.headDim⟩, by decide, by decide, by decide, by decide, by decide, by decide⟩
  rw [CtxFields.objAddr, Nat.mul_comm e 4]

end

section
/-! SUPPORT. How a published version is verified, answered, switched to and retired (R190, R203, R211), and what the codebook caches keep (R196, R197). -/

namespace Sys2Proof.Machine
open Sys2Proof

variable {s : State} {h : MsgHdr} {ctx e slot ver : Nat}

/-! ### Publication (R203) -/

@[simp] theorem State.keeping_cb (s t : State) : (s.keeping t).cb = t.cb := rfl
@[simp] theorem State.keeping_mem (s t : State) : (s.keeping t).mem = t.mem := rfl
@[simp] theorem State.raise0_cb (s : State) (ev : Ev) (die unit : Nat) (p : List Nat) : (s.raise0 ev die unit p).cb = s.cb := by simp [State.raise0]

/-- Publishing to a member changes the fabric, the links and the traffic; PUBLISH is the last message. -/
theorem State.publishTo_frame (s : State) (ctx e slot ver m : Nat) (obj : List Byte) : ∃ f l x ep fs, s.publishTo ctx e slot ver m obj =
    ({ s with fab := f, lnk := l, tra := x } : State).tell { dst := m, tc := 7, code := 0x31, mapEpoch := ep, fields := fs } := by
  unfold State.publishTo
  extract_lets f a n s1
  have hs1 : ∃ f l x, s1 = { s with fab := f, lnk := l, tra := x } := by
    refine List.foldlRecOn (motive := fun t => ∃ f l x, t = ({ s with fab := f, lnk := l, tra := x } : State)) _ _ ⟨_, _, _, rfl⟩ ?_
    rintro t ⟨f, l, x, rfl⟩ i -
    obtain ⟨f', l', x', hsent⟩ := State.sendReq_frame { s with fab := f, lnk := l, tra := x } _ _ _
    exact ⟨f', l', x', hsent⟩
  obtain ⟨f', l, x, hs1⟩ := hs1
  rw [hs1]
  exact ⟨f', l, x, _, _, rfl⟩

@[simp] theorem State.publishTo_cb (s : State) (ctx e slot ver m : Nat) (obj : List Byte) : (s.publishTo ctx e slot ver m obj).cb = s.cb := by
  obtain ⟨f, l, x, ep, fs, hsent⟩ := s.publishTo_frame ctx e slot ver m obj
  rw [hsent]
  rfl

/-- Switching a member writes an entry here or sends a message. -/
theorem State.switchTo_frame (s : State) (ctx e slot ver m time : Nat) : ∃ b l, s.switchTo ctx e slot ver m time = { s with mem := b, log := l } := by
  unfold State.switchTo
  split
  · exact ⟨_, s.log, rfl⟩
  · exact ⟨s.mem, _, rfl⟩

@[simp] theorem State.switchTo_cb (s : State) (ctx e slot ver m time : Nat) : (s.switchTo ctx e slot ver m time).cb = s.cb := by
  obtain ⟨b, l, hs⟩ := s.switchTo_frame ctx e slot ver m time
  rw [hs]

@[simp] theorem State.finishOp_cb (s : State) (r : OpRef) (st : Status) (result : Nat) (extra : List Nat) : (s.finishOp r st result extra).cb = s.cb := by
  obtain ⟨a, l, v, m, hs, -⟩ := s.finishOp_frame r st result extra
  rw [hs]

/-- A publication no longer awaited takes its switch time, the last answer's plus `switch_lead`. -/
theorem State.settlePub_last {comp : Nat} {p : Publication} (hp : Tbl.get s.cb.pubs (comp, e, ver) = some p) (ha : p.awaited = []) (hs : p.switchAt = none) :
    (s.settlePub ctx comp e ver).cb = { s.cb with
      pubs := Tbl.set s.cb.pubs (comp, e, ver) { p with switchAt := some (p.lastAt + (s.calib comp).switchLead), op := none } } := by
  unfold State.settlePub
  simp -zeta only [hp]
  rw [if_neg (by simp [ha, hs])]
  extract_lets time cb' s1 s2
  have hs2 : s2.cb = s1.cb := foldl_keeps State.cb _ _ _ fun t m => t.switchTo_cb ..
  cases p.op with
  | none => exact hs2
  | some r => exact (State.finishOp_cb ..).trans hs2

/-- A slot filled changes memory alone. -/
theorem State.fillSlot_frame (s : State) (ctx e slot ver st : Nat) (obj : List Byte) : ∃ m, s.fillSlot ctx e slot ver st obj = { s with mem := m } := by
  unfold State.fillSlot
  extract_lets f s1
  obtain ⟨m, hset⟩ := s1.setCbSet_frame ctx e ((s1.cbSet ctx e).setSlot slot (ver, st, 0))
  exact ⟨m, hset.trans (by simp only [s1, State.wr])⟩

/-- A published set object verifies on a member: its slot is free or the version's own, it lies where the directory places it, and its checks hold. -/
abbrev State.verifies (s : State) (ctx e slot ver addr crc : Nat) : Prop :=
  (((s.cbSet ctx e).slot slot).2.1 = 0 ∨ ((s.cbSet ctx e).slot slot).1 = ver) ∧ addr = (s.ctx ctx).f.objAddr e slot ∧ objOk (s.setObj ctx e slot) = true ∧
    word (wordsOf 8 (s.setObj ctx e slot)) 7 = crc ∧ fld (wordsOf 8 (s.setObj ctx e slot)) 0 63 48 = ver

section
variable {addr crc comp : Nat} (hu : Up s) (hv : h.ver = 1) (hc : s.ctxFor comp = some ctx)
include hu hv hc

/-- A member whose set object verifies fills the slot and answers ST_OK. -/
theorem execPublish_fills (hok : s.verifies ctx e slot ver addr crc) : Does (.publish h e slot ver addr crc comp) s
    ((s.fillSlot ctx e slot ver (if ((s.cbSet ctx e).slot slot).2.1 = 0 then 2 else ((s.cbSet ctx e).slot slot).2.1) (s.setObj ctx e slot)).tell
      { dst := h.src, tc := 7, code := 50, mapEpoch := h.mapEpoch, fields := [e, slot, ver, Status.ok.code] }) := by
  have hd : Does (.publish h e slot ver addr crc comp) s _ := does_live rfl hu rfl
  simp only [hv, hc] at hd
  rw [if_neg (by simp), if_pos (by simpa [and_assoc] using hok)] at hd
  simp only [beq_iff_eq] at hd
  obtain ⟨m, hfill⟩ := s.fillSlot_frame ctx e slot ver (if ((s.cbSet ctx e).slot slot).2.1 = 0 then 2 else ((s.cbSet ctx e).slot slot).2.1) (s.setObj ctx e slot)
  rw [hfill] at hd ⊢
  exact hd

/-- A member whose set object fails a check raises EV_CODEBOOK_CHECK and answers ST_CODEBOOK_CHECK. -/
theorem execPublish_refuses (hbad : ¬ s.verifies ctx e slot ver addr crc) : ∃ t, Does (.publish h e slot ver addr crc comp) s t ∧
    t.log.evSeq = s.log.evSeq + 1 ∧ t.sent h.src 50 0 ∧ t.cb = s.cb ∧ t.kv = s.kv := by
  have hd : Does (.publish h e slot ver addr crc comp) s _ := does_live rfl hu rfl
  simp only [hv, hc] at hd
  rw [if_neg (by simp), if_neg (by simpa [and_assoc] using hbad)] at hd
  exact ⟨_, hd, by simp [State.raise0], State.tell_sent _ _, by simp [State.raise0], by simp [State.raise0]⟩

end

section
variable {p : Publication} {n : Nat} (hu : Up s) (hv : h.ver = 1) (hset : s.setCtx s.node e ver = some ctx)
  (hp : Tbl.get s.cb.pubs ((s.ctx ctx).f.composition, e, ver) = some p) (hslot : p.slot = slot)
include hu hv hset hp hslot

/-- A copy that failed fewer than three times is published again. -/
theorem execPublishAnswer_resends {st : Nat} (ha : Tbl.get p.awaited h.src = some n) (hn : n < 3) (hok : st ≠ Status.ok.code) (hdead : st ≠ Status.targetDead.code) :
    ∃ t, Does (.publishAnswer h e slot ver st) s t ∧
      Tbl.get t.cb.pubs ((s.ctx ctx).f.composition, e, ver) = some { p with awaited := Tbl.set p.awaited h.src (n + 1) } ∧ t.sent h.src 49 0 := by
  subst hslot
  have hd : Does (.publishAnswer h e p.slot ver st) s _ := does_live rfl hu rfl
  simp only [hv, hset, hp, ha, ne_eq, not_true_eq_false, if_false, hok, hdead, hn, if_true] at hd
  obtain ⟨f, l, x, ep, fs, hsent⟩ := State.publishTo_frame _ ctx e p.slot ver h.src (s.setObj ctx e p.slot)
  rw [hsent] at hd
  exact ⟨_, hd, Tbl.get_set_same _ _ _, State.tell_sent _ _⟩

/-- The last ST_OK sets the switch time. -/
theorem execPublishAnswer_settles (ha : p.awaited = [(h.src, n)]) (hs : p.switchAt = none) : ∃ t, Does (.publishAnswer h e slot ver Status.ok.code) s t ∧
    (Tbl.get t.cb.pubs ((s.ctx ctx).f.composition, e, ver)).map (fun q => (q.awaited, q.ok, q.switchAt)) =
      some ([], p.ok ++ [h.src], some (s.now + (s.calib (s.ctx ctx).f.composition).switchLead)) := by
  have hd : Does (.publishAnswer h e slot ver Status.ok.code) s _ := does_live rfl hu rfl
  have hget : Tbl.get p.awaited h.src = some n := by rw [ha, Tbl.get, if_pos rfl]
  have hdel : Tbl.del p.awaited h.src = [] := by simp [ha, Tbl.del]
  simp only [hv, hset, hp, hslot, hget, hs, hdel, ne_eq, not_true_eq_false, if_false, if_true, Option.isSome_none, Bool.false_eq_true] at hd
  refine ⟨_, hd, ?_⟩
  rw [State.keeping_cb, State.settlePub_last (Tbl.get_set_same _ _ _) rfl rfl]
  simp only [Tbl.get_set_same, Option.map_some]
  rfl

end

/-! ### The switch (R203, R205) -/

/-- A member told of a switch schedules it. -/
theorem execCbSwitch_schedules {time : Nat} (hu : Up s) (hv : h.ver = 1) (hset : s.setCtx h.src e ver = some ctx) (hslot : (s.cbSet ctx e).slotOf ver = some slot)
    (hst : ((s.cbSet ctx e).slot slot).2.1 ≠ 3) :
    Does (.cbSwitch h e slot ver time) s (s.setCbSet ctx e { s.cbSet ctx e with pend := true, nextSlot := slot, switchAt := time }) := by
  have hd : Does (.cbSwitch h e slot ver time) s _ := does_live rfl hu rfl
  simp only [hv, hset, ne_eq, not_true_eq_false, if_false] at hd
  rw [if_pos ⟨hslot, hst⟩, State.switchTo, if_pos rfl] at hd
  obtain ⟨m, hentry⟩ := s.setCbSet_frame ctx e { s.cbSet ctx e with pend := true, nextSlot := slot, switchAt := time }
  rw [hentry] at hd ⊢
  exact hd

/-- A slot that was set is read. -/
theorem CbSet.slot_setSlot_same (x : CbSet) {i : Nat} (hi : i < 4) (v : Nat × Nat × Nat) : (x.setSlot i v).slot i = v := by
  simp [CbSet.setSlot, CbSet.slot, hi]

/-- Setting a slot leaves the others. -/
theorem CbSet.slot_setSlot_other (x : CbSet) {i j : Nat} (hj : j < 4) (hne : i ≠ j) (v : Nat × Nat × Nat) : (x.setSlot i v).slot j = x.slot j := by
  simp [CbSet.setSlot, CbSet.slot, hj, hne]

/-- The slots an entry names are slots of the directory. -/
theorem State.cbSet_slots_lt (s : State) (ctx e : Nat) : (s.cbSet ctx e).curSlot < 4 ∧ (s.cbSet ctx e).nextSlot < 4 :=
  ⟨Nat.mod_lt _ (by decide), Nat.mod_lt _ (by decide)⟩

/-- An entry after its switch: the new version CURRENT, the old one RETIRING. -/
def CbSet.switched (x : CbSet) : CbSet :=
  { (if x.cur ≠ 0 ∧ x.curSlot ≠ x.nextSlot then x.setSlot x.curSlot ((x.slot x.curSlot).1, 4, (x.slot x.curSlot).2.2) else x).setSlot x.nextSlot
      ((x.slot x.nextSlot).1, 3, (x.slot x.nextSlot).2.2) with cur := (x.slot x.nextSlot).1, curSlot := x.nextSlot, pend := false, lastDrift := 0 }

/-- After a switch the new version's slot is CURRENT. -/
theorem CbSet.switched_next {x : CbSet} (hn : x.nextSlot < 4) : x.switched.slot x.nextSlot = ((x.slot x.nextSlot).1, 3, (x.slot x.nextSlot).2.2) :=
  CbSet.slot_setSlot_same _ hn _

/-- After a switch the old version's slot is RETIRING. -/
theorem CbSet.switched_old {x : CbSet} (hc : x.curSlot < 4) (h0 : x.cur ≠ 0) (hne : x.curSlot ≠ x.nextSlot) : (x.switched.slot x.curSlot).2.1 = 4 := by
  have hother := CbSet.slot_setSlot_other (x.setSlot x.curSlot ((x.slot x.curSlot).1, 4, (x.slot x.curSlot).2.2)) hc hne.symm
    ((x.slot x.nextSlot).1, 3, (x.slot x.nextSlot).2.2)
  have hslot : x.switched.slot x.curSlot = ((x.slot x.curSlot).1, 4, (x.slot x.curSlot).2.2) := by
    rw [CbSet.switched, if_pos ⟨h0, hne⟩]
    exact hother.trans (CbSet.slot_setSlot_same _ hc _)
  rw [hslot]

/-- An event that no VI subscribed to writes no memory. -/
theorem State.raise0_unsubscribed {ev : Ev} (hsub : s.work.vis.all (fun v => !v.2.subscribed.contains ev.code) = true) (die unit : Nat) (payload : List Nat) :
    (s.raise0 ev die unit payload).mem = s.mem := by
  have hnone : s.work.vis.filter (fun x => ([] : List Nat).contains x.1 || x.2.subscribed.contains ev.code) = [] := by
    refine List.filter_eq_nil_iff.mpr fun x hx => ?_
    simpa using List.all_eq_true.mp hsub x hx
  simp only [State.raise0, State.raise, hnone, List.foldl_nil]

/-- A drift window opened notes its time and its counters. -/
theorem State.openWindow_frame (s : State) (ctx e slot : Nat) : ∃ m k, s.openWindow ctx e slot = { s with mem := m, cb := { s.cb with snaps := k } } :=
  ⟨_, _, rfl⟩

/-- A set whose version has switched: its entry, its drift window and its molt. -/
def State.switchNow (s : State) (ctx e : Nat) : State :=
  let u := (s.setCbSet ctx e (s.cbSet ctx e).switched).openWindow ctx e (s.cbSet ctx e).switched.curSlot
  { u with cb := { u.cb with molts := Tbl.set u.cb.molts (ctx, e) { ver := (s.cbSet ctx e).switched.cur }, mutes := Tbl.del u.cb.mutes (ctx, e) } }

/-- A switch writes its entry and its window's start, and changes the codebooks beside. -/
theorem State.switchNow_fields (s : State) (ctx e : Nat) : (s.switchNow ctx e).work = s.work ∧ (s.switchNow ctx e).log = s.log ∧
    (s.switchNow ctx e).mem = ((s.setCbSet ctx e (s.cbSet ctx e).switched).openWindow ctx e (s.cbSet ctx e).switched.curSlot).mem := by
  obtain ⟨m, hentry⟩ := s.setCbSet_frame ctx e (s.cbSet ctx e).switched
  obtain ⟨m', k, hopen⟩ := State.openWindow_frame { s with mem := m } ctx e (s.cbSet ctx e).switched.curSlot
  simp only [State.switchNow, hentry, hopen, and_self]

/-- At its switch time the set switches and one event is raised. -/
theorem execSwitchTime_switches (hu : Up s) (hst : (s.ctx ctx).st = .ready) (hpend : (s.cbSet ctx e).pend = true) (hdue : (s.cbSet ctx e).switchAt ≤ s.now) :
    ∃ payload, Does (.switchTime ctx e) s (s.keeping ((s.switchNow ctx e).raise0 .codebookSwitch s.hubDie 0 payload)) :=
  ⟨_, does_live rfl hu (if_neg (by simp [hst, hpend, hdue]))⟩

/-! ### Reports and retirement (R211, R450) -/

/-- Where no references are in fault transit, a report regrows none. -/
theorem State.refsRegrown_sound (hsound : s.led.transit.all (fun x => x.2.fault == 0) = true) (comp e ver member n : Nat) : s.refsRegrown comp e ver member n = s := by
  have hfault : ∀ k, (Tbl.at s.led.transit k {}).fault = 0 := by
    intro k
    cases hget : Tbl.get s.led.transit k with
    | none => rw [Tbl.at, hget]; rfl
    | some x => simpa [Tbl.at, hget] using List.all_eq_true.mp hsound _ (Tbl.mem_of_get hget)
  exact congrArg Prod.snd (List.foldl_fixed' (a := (n, s)) (fun r => by simp [hfault]) _)

/-- A count that did not rise regrows none. -/
theorem State.refsRegrown_none (s : State) (comp e ver member : Nat) : s.refsRegrown comp e ver member 0 = s :=
  congrArg Prod.snd (List.foldl_fixed' (a := (0, s)) (fun r => by simp) _)

/-- A member's count of a version's references is kept. -/
def State.withReport (s : State) (comp e ver member n : Nat) : State :=
  { s with cb := { s.cb with reports := Tbl.set s.cb.reports (comp, e, ver, member) n } }

/-- A version may be retired: it is RETIRING, and every member's report is of no reference. -/
def State.unreferenced (s : State) (ctx e ver : Nat) : Prop :=
  ((s.cbSet ctx e).slotOf ver).map (fun i => ((s.cbSet ctx e).slot i).2.1) = some 4 ∧ (s.comp (s.ctx ctx).f.composition).cur.members.all
    (fun m => Tbl.get s.cb.reports ((s.ctx ctx).f.composition, e, ver, m) == some 0) = true

/-- Whether a version may be retired, with one more report. -/
theorem State.withReport_unreferenced (s : State) (ctx e ver comp member n : Nat) : (s.withReport comp e ver member n).unreferenced ctx e ver ↔
    ((s.cbSet ctx e).slotOf ver).map (fun i => ((s.cbSet ctx e).slot i).2.1) = some 4 ∧ (s.comp (s.ctx ctx).f.composition).cur.members.all
      (fun m => Tbl.get (Tbl.set s.cb.reports (comp, e, ver, member) n) ((s.ctx ctx).f.composition, e, ver, m) == some 0) = true := Iff.rfl

/-- A version is retired at its calibration node: its members are told, it lives no longer, and its slot is dropped with an event. -/
def State.retireVer (t : State) (ctx e ver : Nat) : State :=
  let comp := (t.ctx ctx).f.composition
  let u := ((t.comp comp).cur.members.filter (· ≠ t.node)).foldl (fun (u : State) m =>
    u.tell { dst := m, tc := 7, code := 0x34, mapEpoch := (t.comp comp).cur.epoch, fields := [e, ver] }) t
  let u1 : State := { u with cb := { u.cb with
    live := Tbl.set u.cb.live (comp, e) ((u.liveVers comp e).filter (· ≠ ver))
    reports := u.cb.reports.filter (fun r => !(r.1.1 == comp && r.1.2.1 == e && r.1.2.2.1 == ver)), pubs := Tbl.del u.cb.pubs (comp, e, ver) } }
  (u1.dropSlot ctx e ver).raise0 .codebookRetired u1.hubDie 0 ((t.ctx ctx).f.setOf e ++ [ver])

section
variable {member n m : Nat} (hgrown : s.refsRegrown (s.ctx ctx).f.composition e ver member (n + m - Tbl.at s.cb.reports ((s.ctx ctx).f.composition, e, ver, member) 0) = s)
include hgrown

/-- A report of one version that regrows nothing is kept, and retires nothing while the version is referenced. -/
theorem State.reportRefs_keeps (href : ¬ (s.withReport (s.ctx ctx).f.composition e ver member (n + m)).unreferenced ctx e ver) :
    s.reportRefs ctx member [(e, ver, n, m)] = s.withReport (s.ctx ctx).f.composition e ver member (n + m) := by
  simp only [State.reportRefs, List.foldl_cons, List.foldl_nil, hgrown]
  exact if_neg href

/-- A report of one version that regrows nothing retires it where no reference is left. -/
theorem State.reportRefs_retires (href : (s.withReport (s.ctx ctx).f.composition e ver member (n + m)).unreferenced ctx e ver) :
    s.reportRefs ctx member [(e, ver, n, m)] = (s.withReport (s.ctx ctx).f.composition e ver member (n + m)).retireVer ctx e ver := by
  simp only [State.reportRefs, List.foldl_cons, List.foldl_nil, hgrown]
  exact if_pos href

end

/-- A version's slot dropped is EMPTY, and its cached copies are gone. -/
theorem State.dropSlot_held {i : Nat} (hslot : (s.cbSet ctx e).slotOf ver = some i) : s.dropSlot ctx e ver =
    { s with mem := (s.setCbSet ctx e ((s.cbSet ctx e).setSlot i (0, 0, 0))).mem, cb := { s.cb with cache := s.cb.cache.filter (fun c => c.1.2 != (ctx, e, ver)) } } := by
  obtain ⟨m, hentry⟩ := s.setCbSet_frame ctx e ((s.cbSet ctx e).setSlot i (0, 0, 0))
  simp only [State.dropSlot, hslot, hentry]

/-- A slot dropped changes memory and the cached versions alone. -/
theorem State.dropSlot_frame (s : State) (ctx e ver : Nat) : ∃ b k, s.dropSlot ctx e ver = { s with mem := b, cb := { s.cb with cache := k } } := by
  cases hslot : (s.cbSet ctx e).slotOf ver with
  | none => exact ⟨s.mem, s.cb.cache, by simp only [State.dropSlot, hslot]⟩
  | some i => exact ⟨_, _, State.dropSlot_held hslot⟩

/-- A version retired is live no longer, its publication is gone, and one event is raised. -/
theorem State.retireVer_retired (s : State) (ctx e ver : Nat) :
    Tbl.get (s.retireVer ctx e ver).cb.live ((s.ctx ctx).f.composition, e) = some ((s.liveVers (s.ctx ctx).f.composition e).filter (fun v => v ≠ ver)) ∧
    (s.retireVer ctx e ver).log.evSeq = s.log.evSeq + 1 ∧ Tbl.get (s.retireVer ctx e ver).cb.pubs ((s.ctx ctx).f.composition, e, ver) = none := by
  unfold State.retireVer
  extract_lets comp u cb' u1
  have hu : u.cb = s.cb ∧ u.log.evSeq = s.log.evSeq :=
    ⟨foldl_keeps State.cb _ _ _ fun _ _ => rfl, foldl_keeps (fun t => t.log.evSeq) _ _ _ fun _ _ => rfl⟩
  obtain ⟨b, k, hdrop⟩ := u1.dropSlot_frame ctx e ver
  have hlive : u.liveVers comp e = s.liveVers comp e := by rw [State.liveVers, hu.1, State.liveVers]
  refine ⟨?_, ?_, ?_⟩
  · rw [State.raise0_cb, hdrop, ← hlive]
    exact Tbl.get_set_same _ _ _
  · simp only [State.raise0, State.raise_fields, hdrop]
    exact congrArg (· + 1) hu.2
  · simp only [State.raise0, State.raise_fields, hdrop]
    exact Tbl.get_del_same _ _

section
variable (hu : Up s) (hv : h.ver = 1) (hset : s.setCtx s.node e ver = some ctx)
include hu hv hset

/-- The calibration node takes a member's report. -/
theorem execRefReport_reports (n m : Nat) : Does (.refReport h [(e, ver, n, m)]) s (s.keeping (s.reportRefs ctx h.src [(e, ver, n, m)])) := by
  refine does_live rfl hu ?_
  simp [hv, hset]

/-- A member's report of references is kept. -/
theorem execRefReport_keeps {n m : Nat} (hpos : 0 < n + m) (hmem : (s.comp (s.ctx ctx).f.composition).cur.members.contains h.src = true)
    (hsound : s.led.transit.all (fun x => x.2.fault == 0) = true) :
    Does (.refReport h [(e, ver, n, m)]) s (s.withReport (s.ctx ctx).f.composition e ver h.src (n + m)) := by
  have hd := execRefReport_reports hu hv hset n m
  rw [State.reportRefs_keeps (State.refsRegrown_sound hsound _ _ _ _ _)] at hd
  · exact hd
  · rw [State.withReport_unreferenced]
    rintro ⟨-, hall⟩
    have hzero := List.all_eq_true.mp hall h.src (by simpa using hmem)
    rw [Tbl.get_set_same, beq_iff_eq, Option.some.injEq] at hzero
    omega

/-- The last report of no reference retires a RETIRING version. -/
theorem execRefReport_retires {i : Nat} (hslot : (s.cbSet ctx e).slotOf ver = some i) (hst : ((s.cbSet ctx e).slot i).2.1 = 4)
    (hall : (s.comp (s.ctx ctx).f.composition).cur.members.all
      (fun k => k == h.src || Tbl.get s.cb.reports ((s.ctx ctx).f.composition, e, ver, k) == some 0) = true) :
    Does (.refReport h [(e, ver, 0, 0)]) s (s.keeping ((s.withReport (s.ctx ctx).f.composition e ver h.src 0).retireVer ctx e ver)) := by
  have hd := execRefReport_reports hu hv hset 0 0
  rw [State.reportRefs_retires] at hd
  · exact hd
  · rw [Nat.add_zero, Nat.zero_sub]
    exact s.refsRegrown_none _ _ _ _
  · refine (State.withReport_unreferenced ..).mpr ⟨by rw [hslot, Option.map_some, hst], List.all_eq_true.mpr fun k hk => ?_⟩
    by_cases hsrc : k = h.src
    · rw [hsrc, Tbl.get_set_same]
      rfl
    · have hreport := List.all_eq_true.mp hall k hk
      rw [Tbl.get_set_other _ _ _ _ (by simpa using hsrc)]
      simpa [hsrc] using hreport

end

/-- RETIRE drops the slot of a version that is not CURRENT. -/
theorem execRetire_drops (hu : Up s) (hv : h.ver = 1) (hset : s.setCtx h.src e ver = some ctx) (hcur : (s.cbSet ctx e).cur ≠ ver) :
    Does (.retire h e ver) s (s.keeping (s.dropSlot ctx e ver)) := by
  refine does_live rfl hu ?_
  simp [hv, hset, hcur]

/-! ### The codebook caches (R196, R197) -/

/-- A die with room evicts nothing. -/
theorem evict_room {die need : Nat} (hroom : s.cacheUse die + need ≤ 26 * 2 ^ 20) (n : Nat) : evict n die need s = s := by
  cases n with
  | zero => rfl
  | succ n => exact if_pos hroom

section
variable {die src : Nat} (hu : Up s) (hslot : (s.cbSet ctx e).slotOf ver = some slot) (hst : (s.ctx ctx).st = .ready) (hdie : die < 8)
  (hup : s.isFenced (dieMC die) = false) (hnew : Tbl.has s.cb.cache (die, ctx, e, ver) = false)
include hu hslot hst hdie hup hnew

/-- A fill that verifies and has room is cached. -/
theorem execCodebookFill_caches (hroom : s.cacheUse die + cachedBytes (s.ctx ctx).f.headDim e ≤ 26 * 2 ^ 20) (hok : objOk (s.setObj ctx e slot) = true) :
    Does (.codebookFill die ctx e ver none src) s { s with cb := { s.cb with
      cache := Tbl.set s.cb.cache (die, ctx, e, ver) { obj := s.setObj ctx e slot, usedAt := s.now }, fillFails := Tbl.del s.cb.fillFails (die, ctx, e, ver) } } := by
  have hd : Does (.codebookFill die ctx e ver none src) s _ := does_live rfl hu rfl
  simp only [hslot, evict_room hroom] at hd
  rw [if_neg (by simp [hst, hdie, hup, hnew]), if_pos hok, if_neg (by omega)] at hd
  exact hd

/-- A fill that does not verify is recorded with its event. -/
theorem execCodebookFill_fails (hbad : objOk (s.setObj ctx e slot) ≠ true) : ∃ t, Does (.codebookFill die ctx e ver none src) s t ∧
    t.cb.cache = s.cb.cache ∧ t.log.evSeq = s.log.evSeq + 1 ∧ Tbl.has t.cb.fillFails (die, ctx, e, ver) = true := by
  have hd : Does (.codebookFill die ctx e ver none src) s _ := does_live rfl hu rfl
  simp only [hslot] at hd
  rw [if_neg (by simp [hst, hdie, hup, hnew]), if_neg hbad] at hd
  refine ⟨_, hd, ?_, ?_, ?_⟩
  · simp [State.raise0]
  · simp [State.raise0]
  · simp [Tbl.has, Tbl.updD]

end

/-- A command that waited 1 ms since a failed fill of a version it names ends. -/
theorem execCodebookFillTimeout_ends {cid : Nat} {c : Cmd} (hu : Up s) (hc : Tbl.get s.work.cmds cid = some c) (hst : c.st = .waiting) (ho : c.outcome = none)
    (hfail : s.cb.fillFails.any (fun f => (s.cmdVers c).contains f.1.2 && decide (f.2 + 1000000 ≤ s.now)) = true) :
    Does (.codebookFillTimeout cid) s (s.finish cid .codebookCheck 0) := by
  have hd : Does (.codebookFillTimeout cid) s _ := does_live rfl hu rfl
  simp only [hc] at hd
  rw [if_pos (by simpa [hst, ho] using hfail)] at hd
  exact hd

end Sys2Proof.Machine
end

section
open Sys2Proof Sys2Proof.Machine

/-- Settles O45: one lemma per clause, in the order of the statement. -/
theorem codebookVersions : Obligations.CodebookVersions := by
  unfold Obligations.CodebookVersions
  refine ⟨?entry, ?publish, ?resend, ?settle, ?switch, ?current, ?report, ?retired, ?retire, ?fill, ?timeout⟩
  case entry => exact fun ctx e x s hw hx => ⟨s.cbSet_setCbSet_same ctx e hw hx, s.setCbSet_sameBut ctx e x⟩
  case publish =>
    intro h e slot ver addr crc comp ctx s hu hv hc
    by_cases hok : s.verifies ctx e slot ver addr crc
    · exact ⟨_, execPublish_fills hu hv hc hok, by rw [if_pos hok]⟩
    · obtain ⟨t, hd, hends⟩ := execPublish_refuses hu hv hc hok
      exact ⟨t, hd, by rwa [if_neg hok]⟩
  case resend => exact fun h e slot ver st ctx n p s hu hv hset hp hslot ha hn hok hdead => execPublishAnswer_resends hu hv hset hp hslot ha hn hok hdead
  case settle => exact fun h e slot ver ctx n p s hu hv hset hp hslot ha hs => execPublishAnswer_settles hu hv hset hp hslot ha hs
  case switch => exact fun h e slot ver time ctx s hu hv hset hslot hst => execCbSwitch_schedules hu hv hset hslot hst
  case current =>
    intro ctx e s hu hst hpend hdue hsub
    obtain ⟨hcur, hnext⟩ := s.cbSet_slots_lt ctx e
    obtain ⟨hwork, hlog, hmem⟩ := s.switchNow_fields ctx e
    obtain ⟨payload, hd⟩ := execSwitchTime_switches hu hst hpend hdue
    refine ⟨_, (s.cbSet ctx e).switched, hd, rfl, rfl, rfl, rfl, CbSet.switched_next hnext, CbSet.switched_old hcur, ?_, ?_, ?_⟩
    · rw [State.keeping_mem, State.raise0_unsubscribed (by rw [hwork]; exact hsub), hmem]
    · rw [State.keeping_cb, State.raise0_cb, State.switchNow, Tbl.get_set_same, Option.map_some]
    · simp [State.raise0, hlog]
  case report => exact fun h e ver n m ctx s hu hv hset hpos hmem hsound => ⟨_, execRefReport_keeps hu hv hset hpos hmem hsound, rfl⟩
  case retired =>
    intro h e ver ctx i s hu hv hset hslot hst hall
    exact ⟨_, execRefReport_retires hu hv hset hslot hst hall, State.retireVer_retired _ ctx e ver⟩
  case retire =>
    intro h e ver ctx i s hu hv hset hcur hslot
    exact ⟨_, execRetire_drops hu hv hset hcur, by simp [State.dropSlot_held hslot]⟩
  case fill =>
    intro die ctx e ver slot src s hu hslot hst hdie hup hnew hroom
    by_cases hok : objOk (s.setObj ctx e slot) = true
    · exact ⟨_, execCodebookFill_caches hu hslot hst hdie hup hnew hroom hok, by simp [hok]⟩
    · obtain ⟨t, hd, hends⟩ := execCodebookFill_fails hu hslot hst hdie hup hnew hok
      exact ⟨t, hd, by rwa [if_neg hok]⟩
  case timeout =>
    intro cid c s hu hc hst ho hfail
    exact ⟨_, execCodebookFillTimeout_ends hu hc hst ho hfail, State.finish_ended (by simp [Tbl.has, hc]), rfl, rfl⟩

end

section
/-! SUPPORT. What the work on codebook sets never reaches: block tables, commands, policies, spawns, and when windows opened and molts ran (R189, R198 to R213). -/

namespace Sys2Proof.Machine
open Sys2Proof

variable {s t : State} {ctx comp e : Nat}

/-- The parts of a state that `State.duty` observes. -/
structure Duty where
  kv : Kv
  cmds : Tbl Nat Cmd
  policies : Tbl Nat CalibPolicy
  windowAt : Tbl Nat Nat
  spawns : Tbl (Nat × Nat) Spawn
  molts : Tbl (Nat × Nat) Molt
  moltAt : Nat

/-- What publishing, switching, retiring, judging and applying changes of versions leave as it stands. -/
def State.duty (s : State) : Duty :=
  { kv := s.kv, cmds := s.work.cmds, policies := s.cb.policies, windowAt := s.cb.windowAt, spawns := s.cb.spawns, molts := s.cb.molts, moltAt := s.cb.moltAt }

@[simp] theorem State.keeping_duty (s t : State) : (s.keeping t).duty = t.duty := rfl
@[simp] theorem State.tell_duty (m : CtlMsg) : (s.tell m).duty = s.duty := rfl
@[simp] theorem State.dropTees_duty (da n : Nat) : (s.dropTees da n).duty = s.duty := rfl
@[simp] theorem State.unmapSector_duty (sec : Nat) : (s.unmapSector sec).duty = s.duty := rfl

/-- Writing memory leaves what stands. -/
theorem State.withMem_duty (s : State) (m : List Host.Cell) : ({ s with mem := m } : State).duty = s.duty := rfl

/-- What is recorded of publications leaves what stands. -/
theorem State.withPubs_duty (s : State) (x : Tbl (Nat × Nat × Nat) Publication) : ({ s with cb := { s.cb with pubs := x } } : State).duty = s.duty := rfl

@[simp] theorem State.setDesc_duty (da : Nat) (d : Desc) : (s.setDesc da d).duty = s.duty := by
  obtain ⟨m, hs⟩ := s.setDesc_frame da d
  rw [hs, State.withMem_duty]

@[simp] theorem State.setCbSet_duty (e : Nat) (x : CbSet) : (s.setCbSet ctx e x).duty = s.duty := by
  obtain ⟨m, hs⟩ := s.setCbSet_frame ctx e x
  rw [hs, State.withMem_duty]

@[simp] theorem State.fillSlot_duty (e slot ver st : Nat) (obj : List Byte) : (s.fillSlot ctx e slot ver st obj).duty = s.duty := by
  obtain ⟨m, hs⟩ := s.fillSlot_frame ctx e slot ver st obj
  rw [hs, State.withMem_duty]

@[simp] theorem State.openWindow_duty (e slot : Nat) : (s.openWindow ctx e slot).duty = s.duty := by
  obtain ⟨m, k, hs⟩ := s.openWindow_frame ctx e slot
  rw [hs]
  rfl

@[simp] theorem State.raise0_duty (ev : Ev) (die unit : Nat) (p : List Nat) : (s.raise0 ev die unit p).duty = s.duty := by
  simp [State.duty, State.raise0]

theorem foldl_duty {α : Type} {l : List α} {f : State → α → State} (h : ∀ t x, (f t x).duty = t.duty) : (l.foldl f s).duty = s.duty :=
  foldl_keeps State.duty l f s h

/-! ### Publication, switches and retirement -/

@[simp] theorem State.publishTo_duty (e slot ver m : Nat) (obj : List Byte) : (s.publishTo ctx e slot ver m obj).duty = s.duty := by
  obtain ⟨f, l, x, ep, fs, hsent⟩ := s.publishTo_frame ctx e slot ver m obj
  rw [hsent]
  rfl

@[simp] theorem State.switchTo_duty (e slot ver m time : Nat) : (s.switchTo ctx e slot ver m time).duty = s.duty := by
  obtain ⟨b, l, hs⟩ := s.switchTo_frame ctx e slot ver m time
  rw [hs]
  rfl

@[simp] theorem State.finishOp_duty (r : OpRef) (st : Status) (result : Nat) (extra : List Nat) : (s.finishOp r st result extra).duty = s.duty := by
  obtain ⟨a, l, v, m, hs, -⟩ := s.finishOp_frame r st result extra
  rw [hs]
  rfl

@[simp] theorem State.settlePub_duty (comp e ver : Nat) : (s.settlePub ctx comp e ver).duty = s.duty := by
  unfold State.settlePub
  split
  · rfl
  next p _ =>
  split
  · rfl
  · extract_lets time cb' s1 s2
    have hs2 : s2.duty = s.duty := foldl_duty fun _ _ => State.switchTo_duty ..
    cases p.op with
    | none => exact hs2
    | some r => exact (State.finishOp_duty ..).trans hs2

@[simp] theorem State.publishSet_duty (e ver : Nat) (obj : List Byte) (op : Option OpRef) : (s.publishSet ctx e ver obj op).duty = s.duty := by
  unfold State.publishSet
  extract_lets comp x
  split
  · rfl
  · extract_lets s1 p cb' s2
    have hs2 : s2.duty = s.duty := (State.withPubs_duty s1 _).trans (State.fillSlot_duty ..)
    exact (State.settlePub_duty ..).trans ((foldl_duty fun _ _ => State.publishTo_duty ..).trans hs2)

@[simp] theorem State.dropSlot_duty (e ver : Nat) : (s.dropSlot ctx e ver).duty = s.duty := by
  obtain ⟨b, k, hs⟩ := s.dropSlot_frame ctx e ver
  rw [hs]
  rfl

@[simp] theorem State.refsRegrown_duty (comp e ver member n : Nat) : (s.refsRegrown comp e ver member n).duty = s.duty := by
  refine List.foldlRecOn (motive := fun x : Nat × State => x.2.duty = s.duty) _ _ rfl fun x hx r _ => ?_
  dsimp only
  split
  · exact hx
  · exact hx

@[simp] theorem State.reportRefs_duty (member : Nat) (es : List (Nat × Nat × Nat × Nat)) : (s.reportRefs ctx member es).duty = s.duty := by
  unfold State.reportRefs
  extract_lets f comp s1
  have hs1 : s1.duty = s.duty := foldl_duty fun t r => State.refsRegrown_duty ..
  refine (foldl_duty fun t r => ?_).trans hs1
  dsimp only
  split
  · refine (State.raise0_duty ..).trans ((State.dropSlot_duty ..).trans ?_)
    exact foldl_duty fun _ _ => rfl
  · rfl

/-! ### Drift windows (R198) -/

@[simp] theorem State.closeWindow_duty (e : Nat) : (s.closeWindow ctx e).duty = s.duty := by
  unfold State.closeWindow
  refine ite_keeps State.duty rfl ((State.openWindow_duty ..).trans ?_)
  split
  · rfl
  next c _ =>
  have hraised : ∀ (x : CbSet) (die : Nat) (payload : List Nat) (u : State), u.duty = s.duty → ((u.setCbSet ctx e x).raise0 .codebookDrift die 0 payload).duty = s.duty :=
    fun x die payload u hu => (State.raise0_duty ..).trans ((State.setCbSet_duty ..).trans hu)
  exact ite_keeps State.duty (hraised _ _ _ _ rfl) (hraised _ _ _ _ rfl)

/-- Every set of a context slot has closed its window, and the slot's window opens now. -/
def State.windowsClosed (s : State) (ctx : Nat) : State :=
  let s1 := (List.range (s.ctx ctx).f.entries).foldl (fun (t : State) e => t.closeWindow ctx e) s
  { s1 with cb := { s1.cb with windowAt := Tbl.set s1.cb.windowAt ctx s.now } }

/-- Closing every window of a context slot notes the time alone of what stands. -/
theorem State.windowsClosed_duty (s : State) (ctx : Nat) : (s.windowsClosed ctx).duty = { s.duty with windowAt := Tbl.set s.cb.windowAt ctx s.now } := by
  have hclosed : ((List.range (s.ctx ctx).f.entries).foldl (fun (t : State) e => t.closeWindow ctx e) s).duty = s.duty :=
    foldl_duty fun _ _ => State.closeWindow_duty _
  exact congrArg (fun d : Duty => { d with windowAt := Tbl.set d.windowAt ctx s.now }) hclosed

/-- A drift window that is over closes, and opens anew at this time. -/
theorem execDriftWindowClose_closes (hu : Up s) (hst : (s.ctx ctx).st = .ready)
    (hdue : Tbl.at s.cb.windowAt ctx 0 + (s.calib (s.ctx ctx).f.composition).window ≤ s.now) :
    ∃ t, Does (.driftWindowClose ctx) s t ∧ t.duty = { s.duty with windowAt := Tbl.set s.cb.windowAt ctx s.now } := by
  have hd : Does (.driftWindowClose ctx) s _ := does_live rfl hu rfl
  rw [if_neg (by simpa [hst] using hdue)] at hd
  refine ⟨_, hd, ?_⟩
  rw [State.keeping_duty]
  extract_lets s1 cb' s2 es calib s3
  have hs2 : s2.duty = { s.duty with windowAt := Tbl.set s.cb.windowAt ctx s.now } := s.windowsClosed_duty ctx
  have hs3 : s3.duty = s2.duty := State.reportRefs_duty ..
  refine ite_keeps State.duty (ite_keeps State.duty hs2 hs2) ((foldl_duty fun u p => ?_).trans (hs3.trans hs2))
  exact foldl_duty fun _ _ => State.publishTo_duty ..

/-! ### Spawns (R200 to R202) -/

/-- A statistics counter is in memory. -/
theorem State.addStat_frame (s : State) (ctx e ver k n : Nat) : ∃ m, s.addStat ctx e ver k n = { s with mem := m } := by
  unfold State.addStat
  split
  · exact ⟨_, rfl⟩
  · exact ⟨_, rfl⟩

section
variable {members : List (Nat × Nat × List (List Byte))} (hu : Up s) (hc : s.ctxFor comp = some ctx) (hnode : s.calibNode comp = s.node)
  (hauto : (s.calib comp).autoSpawn = true) (he : e < (s.ctx ctx).f.entries) (hnew : Tbl.has s.cb.spawns (comp, e) = false) (hlive : (s.liveVers comp e).length < 4)
include hu hc hnode hauto he hnew hlive

/-- A spawn with too few rows ends at once with its event. -/
theorem execSpawnStart_tooFew (hfew : (s.gathered ctx comp e members).length < 4096) : ∃ t, Does (.spawnStart comp e members) s t ∧
    t.log.evSeq = s.log.evSeq + 1 ∧ t.cb = s.cb := by
  have hd : Does (.spawnStart comp e members) s _ := does_live rfl hu rfl
  simp only [hc] at hd
  simp only [State.gathered] at hfew
  rw [if_neg (by simp [hnode, hauto, he, hnew, hlive]), if_pos hfew] at hd
  obtain ⟨m, hstat⟩ := s.addStat_frame ctx e (s.cbSet ctx e).cur 14 _
  rw [hstat] at hd
  exact ⟨_, hd, by simp [State.raise0], by simp [State.raise0]⟩

/-- A spawn with enough rows holds them, and has run no pass. -/
theorem execSpawnStart_holds (henough : ¬ (s.gathered ctx comp e members).length < 4096) : ∃ t, Does (.spawnStart comp e members) s t ∧
    (Tbl.get t.cb.spawns (comp, e)).map (fun x => (x.samples, x.passes, x.stopped.length)) =
      some (s.gathered ctx comp e members, 0, (s.ctx ctx).f.headDim / 8) ∧ t.log = s.log := by
  have hd : Does (.spawnStart comp e members) s _ := does_live rfl hu rfl
  simp only [hc] at hd
  simp only [State.gathered] at henough
  rw [if_neg (by simp [hnode, hauto, he, hnew, hlive]), if_neg henough] at hd
  obtain ⟨m, hstat⟩ := s.addStat_frame ctx e (s.cbSet ctx e).cur 14 _
  rw [hstat] at hd
  refine ⟨_, hd, ?_, rfl⟩
  simp only [State.keeping_fields, Tbl.get_set_same, Option.map_some, List.length_replicate]
  rfl

end

section
variable {sp : Spawn} (hu : Up s) (hsp : Tbl.get s.cb.spawns (comp, e) = some sp)
include hu hsp

/-- A pass counts, and keeps the samples and the subspaces. -/
theorem execSpawnPassDone_counts (hrun : sp.stopped.all id = false) : ∃ t, Does (.spawnPassDone comp e) s t ∧
    (Tbl.get t.cb.spawns (comp, e)).map (fun x => (x.samples, x.passes, x.stopped.length)) = some (sp.samples, sp.passes + 1, sp.stopped.length) ∧
    t.mem = s.mem ∧ t.log = s.log := by
  have hd : Does (.spawnPassDone comp e) s _ := does_live rfl hu rfl
  simp only [hsp] at hd
  rw [if_neg (by simp [hrun])] at hd
  refine ⟨_, hd, ?_, rfl, rfl⟩
  simp only [State.keeping_fields, Tbl.get_set_same, Option.map_some, List.length_map, List.length_mapIdx]

/-- A spawn whose loops all stopped is over. -/
theorem execSpawnEnd_ends (hc : s.ctxFor comp = some ctx) (hdone : sp.stopped.all id = true) : ∃ t, Does (.spawnEnd comp e) s t ∧
    Tbl.get t.cb.spawns (comp, e) = none := by
  have hd : Does (.spawnEnd comp e) s _ := does_live rfl hu rfl
  simp only [hsp, hc] at hd
  rw [if_neg (by simp [hdone])] at hd
  refine ⟨_, hd, ?_⟩
  have hspawns : ∀ u : State, u.duty = { s.duty with spawns := Tbl.del s.cb.spawns (comp, e) } → Tbl.get u.cb.spawns (comp, e) = none := fun u hduty =>
    (congrArg (fun d : Duty => Tbl.get d.spawns (comp, e)) hduty).trans (Tbl.get_del_same _ _)
  exact hspawns _ ((State.raise0_duty ..).trans (ite_keeps State.duty rfl (State.publishSet_duty ..)))

/-- A spawn without the gain is over with its event, and changes nothing else of the codebooks. -/
theorem execSpawnEnd_noGain (hc : s.ctxFor comp = some ctx) (hdone : sp.stopped.all id = true) (hcur : (s.cbSet ctx e).cur ≠ 0)
    (hgain : dyLt ((decF32 (relDist ((s.ctx ctx).f.headDim / 8) sp.samples sp.cb)).getD dyZero) (dyMul ⟨65536 - (s.calib comp).gainMin, -16⟩
      ((decF32 (relDist ((s.ctx ctx).f.headDim / 8) sp.samples ((s.setObj ctx e (s.cbSet ctx e).curSlot).drop 64))).getD dyZero)) = false) :
    ∃ t, Does (.spawnEnd comp e) s t ∧ t.cb = { s.cb with spawns := Tbl.del s.cb.spawns (comp, e) } ∧ t.log.evSeq = s.log.evSeq + 1 := by
  have hd : Does (.spawnEnd comp e) s _ := does_live rfl hu rfl
  simp only [hsp, hc] at hd
  rw [if_neg (by simp [hdone])] at hd
  simp only [hcur, if_false, hgain, beq_eq_false_iff_ne.mpr hcur, Bool.or_self, Bool.false_and, Bool.not_false, if_true] at hd
  exact ⟨_, hd, by simp [State.raise0], by simp [State.raise0]⟩

end

/-! ### Molt (R205 to R208) -/

@[simp] theorem State.addRef_duty (e ver : Nat) (up : Bool) : (s.addRef ctx e ver up).duty = s.duty := by
  obtain ⟨m, d, l, v, hs⟩ := s.addRef_frame ctx e ver up
  rw [hs]
  rfl

@[simp] theorem State.addStat_duty (e ver k n : Nat) : (s.addStat ctx e ver k n).duty = s.duty := by
  obtain ⟨m, hs⟩ := s.addStat_frame ctx e ver k n
  rw [hs]
  rfl

@[simp] theorem State.rowsValid_duty (rid l h b n : Nat) : (s.rowsValid rid l h b n).duty = s.duty := by
  unfold State.rowsValid
  split
  · rfl
  · extract_lets da d s1
    have hs1 : s1.duty = s.duty := by
      exact ite_keeps State.duty rfl ((State.dropTees_duty ..).trans (State.setDesc_duty ..))
    refine (foldl_duty fun t i => ?_).trans hs1
    exact ite_keeps State.duty rfl ((State.dropTees_duty ..).trans (State.setDesc_duty ..))

@[simp] theorem State.fitSectors_duty (slot repr d : Nat) : (s.fitSectors slot repr d).duty = s.duty := by
  unfold State.fitSectors
  split
  · rfl
  · refine (foldl_duty fun _ _ => State.unmapSector_duty _).trans (foldl_duty fun t x => ?_)
    split
    · rfl
    · obtain ⟨m, c, p, n, hs⟩ := t.mapSector_frame x
      rw [hs]
      rfl

@[simp] theorem State.applyPost_duty (p : Post) : (s.applyPost p).duty = s.duty := by
  cases p with
  | write a bs => rfl
  | ref c e v up => exact State.addRef_duty e v up
  | stat c e v k n => exact State.addStat_duty e v k n
  | rows rid l h b n => exact State.rowsValid_duty rid l h b n
  | fit slot repr d => exact State.fitSectors_duty slot repr d

/-- Where no molt is in progress, no block is counted. -/
theorem State.moltCount_none (h : s.cb.molts = []) (da : Nat) (f : Molt → Molt) : s.moltCount da f = s := by
  have hget : ∀ k, Tbl.get s.cb.molts k = none := fun k => by rw [h]; rfl
  unfold State.moltCount
  split
  · rfl
  · rw [Tbl.upd_none _ _ _ (hget _), Tbl.upd_none _ _ _ (hget _)]

/-- Where no molt is in progress, none ends. -/
theorem State.moltDone_none (h : s.cb.molts = []) : s.moltDone = s := by
  simp [State.moltDone, h]

/-- Molt has taken a block at this time. -/
def State.paced (s : State) : State := { s with cb := { s.cb with moltAt := s.now } }

/-- Where no molt is in progress, the effects of a recoding are all that molting a block applies. -/
theorem State.applyPosts_noMolt (h : s.cb.molts = []) (ps : List Post) (da : Nat) (f : Molt → Molt) :
    ((ps.foldl State.applyPost s).moltCount da f).moltDone = ps.foldl State.applyPost s := by
  have hposts : (ps.foldl State.applyPost s).cb.molts = [] := (congrArg Duty.molts (foldl_duty fun _ p => State.applyPost_duty p)).trans h
  rw [State.moltCount_none hposts, State.moltDone_none hposts]

/-- What molt's next block came to, once its recoding was decided. -/
def State.MoltOutcome (s t : State) (da : Nat) (r : Recode) : Prop :=
  match r with
  | .go _ (p :: ps) => t.mem = ((p :: ps).foldl State.applyPost s.paced).mem
  | .bad .retryBlockBusy => Tbl.get t.cb.moltRetry da = some (s.now + 1000000) ∧ t.mem = s.mem
  | .bad .planeCheck => t.log.evSeq = s.log.evSeq + 1
  | .bad .descCheck => t.log.evSeq = s.log.evSeq + 1
  | .bad _ => Tbl.get t.cb.moltRetry da = some (s.now + 1000000) ∧ t.mem = s.mem
  | .go _ [] => Tbl.get t.cb.moltRetry da = some (s.now + 1000000) ∧ t.mem = s.mem
  | .same => t.mem = s.mem

/-- A block that failed neither check is to wait. -/
theorem State.MoltOutcome.waits {da : Nat} {st : Status} (hplane : st ≠ .planeCheck) (hdesc : st ≠ .descCheck)
    (hretry : Tbl.get t.cb.moltRetry da = some (s.now + 1000000)) (hmem : t.mem = s.mem) : s.MoltOutcome t da (.bad st) := by
  unfold State.MoltOutcome
  split
  next heq => cases heq
  next heq => exact ⟨hretry, hmem⟩
  next heq => exact absurd (Recode.bad.inj heq) hplane
  next heq => exact absurd (Recode.bad.inj heq) hdesc
  next heq => exact ⟨hretry, hmem⟩
  next heq => cases heq
  next heq => cases heq

/-- Molt's next block: a busy one waits, a bad plane or descriptor raises its event, and the effects of its recoding are applied. -/
theorem execMoltPace_takes {da want : Nat} {full : Bool} {r : Recode} (hu : Up s) (hnone : s.cb.molts = []) (hshard : s.shardOf da = none)
    (hnext : s.moltOrder.findSome? (fun d => (s.moltNeed d).bind (fun n => if (s.moltSkip d n.2).isNone then some (d, n) else none)) = some (da, want, full))
    (hrate : ((s.blockComp da).map (fun c => (s.calib c).moltRate)).getD 0 ≠ 0)
    (hdue : s.cb.moltAt + ceilDiv 1000000000 (((s.blockComp da).map (fun c => (s.calib c).moltRate)).getD 0) ≤ s.now)
    (hrec : s.paced.recodeOne 0 da want true false = r) : ∃ t, Does .moltPace s t ∧ t.cb.moltAt = s.now ∧ s.MoltOutcome t da r := by
  have hd : Does .moltPace s _ := does_live rfl hu rfl
  simp only [hnext] at hd
  rw [if_neg (by simp [hrate, hdue])] at hd
  simp only [State.paced] at hrec
  simp only [hrec] at hd
  cases r with
  | same => exact ⟨_, hd, rfl, rfl⟩
  | bad st =>
    split at hd
    next heq => cases heq
    next heq =>
      cases heq
      exact ⟨_, hd, rfl, .waits (by decide) (by decide) (Tbl.get_set_same _ _ _) rfl⟩
    next heq =>
      cases heq
      exact ⟨_, hd, by simp [State.planeFail], by simp [State.MoltOutcome]⟩
    next heq =>
      cases heq
      exact ⟨_, hd, by simp [State.descFail], by simp [State.MoltOutcome, State.descFail, State.raise0]⟩
    next hplane hdesc heq =>
      cases heq
      exact ⟨_, hd, rfl, .waits hplane hdesc (Tbl.get_set_same _ _ _) rfl⟩
    next heq => cases heq
  | go w ps =>
    cases ps with
    | nil => exact ⟨_, hd, rfl, Tbl.get_set_same _ _ _, rfl⟩
    | cons p ps =>
      have hsound : s.paced.shardOf da = none := hshard
      have happly := State.applyPosts_noMolt (s := s.paced) hnone (p :: ps) da (fun m => { m with molted := m.molted + 1 })
      have hduty : ((p :: ps).foldl State.applyPost s.paced).duty = s.paced.duty := foldl_duty fun _ p => State.applyPost_duty p
      simp only [State.paced] at hsound happly
      simp only [List.isEmpty_cons, hsound, happly, Bool.false_eq_true, if_false, Option.isSome_none, Bool.false_and] at hd
      exact ⟨_, hd, congrArg Duty.moltAt hduty, rfl⟩

/-- A block's retry time passes. -/
theorem execMoltRetryTimer_passes {da at_ : Nat} (hu : Up s) (hat : Tbl.get s.cb.moltRetry da = some at_) (hdue : at_ ≤ s.now) :
    Does (.moltRetryTimer da) s { s with cb := { s.cb with moltRetry := Tbl.del s.cb.moltRetry da } } := by
  have hd : Does (.moltRetryTimer da) s _ := does_live rfl hu rfl
  simp only [hat] at hd
  rw [if_neg (by omega)] at hd
  exact hd

/-! ### Succession (R213) -/

/-- The successor of a lost calibration node has the duty, and drops the spawns of the composition. -/
theorem execCalibrationSuccession_succeeds {lost : Nat} (dirs : List (Nat × Nat × List Nat)) (hu : Up s) (hc : s.ctxFor comp = some ctx) (hlost : s.calibNode comp = lost)
    (hne : lost ≠ s.node) (hnext : nextAbove (s.comp comp).cur.cache lost = some s.node) : ∃ t, Does (.calibrationSuccession comp lost dirs) s t ∧
      t.duty = { s.duty with policies := Tbl.set s.cb.policies comp { s.calib comp with node := some s.node }, spawns := s.cb.spawns.filter (fun x => x.1.1 != comp) } := by
  have hd : Does (.calibrationSuccession comp lost dirs) s _ := does_live rfl hu rfl
  simp -zeta only [hc] at hd
  rw [if_neg (by simp [hlost, hne, hnext])] at hd
  refine ⟨_, hd, (State.keeping_duty _ _).trans ((foldl_duty fun t e => ?_).trans rfl)⟩
  extract_lets all cands best live stale cb' t1 t2
  have ht2 : t2.duty = t.duty := by
    refine (foldl_duty fun u d => ?_).trans rfl
    split
    · exact State.switchTo_duty ..
    · rfl
  refine (foldl_duty fun u v => ?_).trans ht2
  exact (foldl_duty fun _ _ => State.tell_duty _).trans (State.dropSlot_duty ..)

end Sys2Proof.Machine
end

section
open Sys2Proof Sys2Proof.Machine

/-- Settles O46: one lemma per clause, in the order of the statement; what a window's close and a succession leave is read from `State.duty`. -/
theorem liveCalibration : Obligations.LiveCalibration := by
  unfold Obligations.LiveCalibration
  refine ⟨?window, ?start, ?pass, ?ends, ?noGain, ?molt, ?retry, ?succession⟩
  case window =>
    intro ctx s hu hst hdue
    obtain ⟨t, hd, hduty⟩ := execDriftWindowClose_closes hu hst hdue
    exact ⟨t, hd, (congrArg (fun d : Duty => Tbl.get d.windowAt ctx) hduty).trans (Tbl.get_set_same _ _ _), congrArg Duty.kv hduty, congrArg Duty.cmds hduty⟩
  case start =>
    intro comp e ctx members s hu hc hnode hauto he hnew hlive
    by_cases hfew : (s.gathered ctx comp e members).length < 4096
    · simpa only [if_pos hfew] using execSpawnStart_tooFew hu hc hnode hauto he hnew hlive hfew
    · simpa only [if_neg hfew] using execSpawnStart_holds hu hc hnode hauto he hnew hlive hfew
  case pass => exact fun comp e sp s hu hsp hrun => execSpawnPassDone_counts hu hsp hrun
  case ends => exact fun comp e ctx sp s hu hsp hc hdone => execSpawnEnd_ends hu hsp hc hdone
  case noGain => exact fun comp e ctx sp s hu hsp hc hdone hcur hgain => execSpawnEnd_noGain hu hsp hc hdone hcur hgain
  case molt =>
    intro da want full s hu hnone hshard hnext hrate hdue
    generalize hrec : ({ s with cb := { s.cb with moltAt := s.now } } : State).recodeOne 0 da want true false = r
    exact execMoltPace_takes hu hnone hshard hnext hrate hdue hrec
  case retry => exact fun da at_ s hu hat hdue => execMoltRetryTimer_passes hu hat hdue
  case succession =>
    intro comp lost ctx dirs s hu hc hlost hne hnext
    obtain ⟨t, hd, hduty⟩ := execCalibrationSuccession_succeeds dirs hu hc hlost hne hnext
    have hpolicy : t.calib comp = { s.calib comp with node := some s.node } :=
      (congrArg (fun d : Duty => Tbl.at d.policies comp {}) hduty).trans (Tbl.at_set_same _ _ _ _)
    exact ⟨t, hd, by rw [hpolicy], congrArg Duty.spawns hduty, congrArg Duty.kv hduty⟩

end

section
/-! SUPPORT. How a weight stream goes on, waits and ends (R239 to R245). -/

namespace Sys2Proof.Machine
open Sys2Proof

variable {s t : State} {cid slot n e : Nat} {remote : List (Nat × List Byte)} {c : Cmd} {x : WStream}

/-- An entry made anew replaces the one made before it. -/
theorem Tbl.set_set_same {κ α : Type} [DecidableEq κ] (t : Tbl κ α) (k : κ) (v w : α) : Tbl.set (Tbl.set t k v) k w = Tbl.set t k w := by
  induction t with
  | nil => simp [Tbl.set]
  | cons e t ih =>
    obtain ⟨a, b⟩ := e
    by_cases h : a = k
    · simp [Tbl.set, h]
    · simp [Tbl.set, h, ih]

/-! ### Streams stored and ended -/

/-- The stream stored last stands. -/
theorem State.setStream_setStream (s : State) (cid : Nat) (x y : WStream) : (s.setStream cid x).setStream cid y = s.setStream cid y :=
  congrArg (fun m => ({ s with tier := { s.tier with streams := m } } : State)) (Tbl.set_set_same s.tier.streams cid x y)

/-- A stream that ends gives its listed command the outcome, and is gone. -/
theorem State.endStream_ended (hc : Tbl.has s.work.cmds cid = true) (st : Status) (result : Nat) :
    (s.endStream cid st result).ended cid st result ∧ Tbl.get (s.endStream cid st result).tier.streams cid = none :=
  ⟨State.finish_ended (s := { s with tier := { s.tier with streams := Tbl.del s.tier.streams cid } }) hc, Tbl.get_del_same _ _⟩

/-- One command's outcome leaves that of another. -/
theorem State.finish_ended_other {k result result' : Nat} {st st' : Status} (h : s.ended k st result) (hk : k ≠ cid) :
    (s.finish cid st' result').ended k st result :=
  (congrArg (fun o : Option Cmd => o.bind (·.outcome)) (Tbl.get_upd_other s.work.cmds cid k _ hk)).trans h

/-! ### What a pump of a stream meets -/

/-- A WINDOW_STREAM command with its context slot and its stream as they stand. -/
structure State.Streams (s : State) (cid slot : Nat) (c : Cmd) (x : WStream) : Prop where
  cmd : Tbl.get s.work.cmds cid = some c
  bound : c.slot = some slot
  stream : Tbl.get s.tier.streams cid = some x

/-- The layers the release line of a command says are released (R241). -/
abbrev State.releases (s : State) (c : Cmd) : Nat := fld (s.rdWords (winOps c.op).rel 1) 0 31 0

/-- The tiles of the layer a stream is at (R239). -/
abbrev State.layerTiles (s : State) (slot : Nat) (c : Cmd) (x : WStream) : List Nat :=
  s.partTiles (s.ctx slot).f ((winOps c.op).first + x.next) (winOps c.op).parts (winOps c.op).part

/-- A layer is left, the release line is in range, and a buffer is free for it (R241). -/
structure State.LayerOpen (s : State) (c : Cmd) (x : WStream) : Prop where
  left : x.next < (winOps c.op).count
  kept : x.released ≤ s.releases c
  reached : s.releases c ≤ x.next
  free : x.next < s.releases c + (winOps c.op).slots

/-- A stream that has read its release line and waits for it no longer. -/
def WStream.opened (x : WStream) (rel : Nat) : WStream := { x with released := rel, pollAt := 0 }

@[simp] theorem WStream.opened_fields (x : WStream) (rel : Nat) : (x.opened rel).next = x.next ∧ (x.opened rel).late = x.late ∧ (x.opened rel).start = x.start :=
  ⟨rfl, rfl, rfl⟩

theorem streamPump_delivered (h : s.Streams cid slot c x) (hall : (winOps c.op).count ≤ x.next) :
    streamPump cid remote (n + 1) s = s.endStream cid (if x.late = 0 then .ok else .windowLate) 0 := by
  simp only [streamPump, h.cmd, h.stream, h.bound, if_pos hall]

theorem streamPump_badRelease (h : s.Streams cid slot c x) (hleft : x.next < (winOps c.op).count)
    (hbad : s.releases c < x.released ∨ x.next < s.releases c) : streamPump cid remote (n + 1) s = s.endStream cid .invalidField 0 := by
  simp only [streamPump, h.cmd, h.stream, h.bound, if_neg (Nat.not_le.mpr hleft), if_pos hbad]

theorem streamPump_noBuffer (h : s.Streams cid slot c x) (hleft : x.next < (winOps c.op).count) (hkept : x.released ≤ s.releases c)
    (hfull : s.releases c + (winOps c.op).slots ≤ x.next) :
    streamPump cid remote (n + 1) s = s.setStream cid { x with released := s.releases c, pollAt := s.now + 1000 } := by
  have hrange : ¬ (s.releases c < x.released ∨ x.next < s.releases c) := by omega
  simp only [streamPump, h.cmd, h.stream, h.bound, if_neg (Nat.not_le.mpr hleft), if_neg hrange, if_pos hfull]

/-- The checks before a layer's tiles all pass on an open layer. -/
theorem State.LayerOpen.passes (ho : s.LayerOpen c x) : ¬ (winOps c.op).count ≤ x.next ∧ ¬ (s.releases c < x.released ∨ x.next < s.releases c) ∧
    ¬ s.releases c + (winOps c.op).slots ≤ x.next := by
  obtain ⟨hleft, hkept, hreached, hfree⟩ := ho
  omega

theorem streamPump_layerDone (h : s.Streams cid slot c x) (ho : s.LayerOpen c x) (ht : (s.layerTiles slot c x)[x.tile]? = none) :
    streamPump cid remote (n + 1) s = streamPump cid remote n
      ((s.setStream cid (x.opened (s.releases c))).layerDone cid c (winOps c.op) (x.opened (s.releases c))) := by
  obtain ⟨hleft, hrange, hfree⟩ := ho.passes
  simp only [streamPump, h.cmd, h.stream, h.bound, if_neg hleft, if_neg hrange, if_neg hfree, ht, WStream.opened]

theorem streamPump_noCopy (h : s.Streams cid slot c x) (ho : s.LayerOpen c x) (ht : (s.layerTiles slot c x)[x.tile]? = some e) (hcopy : 4 ≤ x.copy) :
    streamPump cid remote (n + 1) s = s.endStream cid .tierFailed (mkWord [(32, 32, e), (0, 32, (winOps c.op).first + x.next)]) := by
  obtain ⟨hleft, hrange, hfree⟩ := ho.passes
  simp only [streamPump, h.cmd, h.stream, h.bound, if_neg hleft, if_neg hrange, if_neg hfree, ht, if_pos hcopy]

theorem streamPump_pending (h : s.Streams cid slot c x) (ho : s.LayerOpen c x) (ht : (s.layerTiles slot c x)[x.tile]? = some e) (hcopy : x.copy < 4)
    (hidle : x.readAt = 0) (hread : s.readTile (s.tileEntry (s.ctx slot).f e) x.copy remote = .pending) :
    streamPump cid remote (n + 1) s = s.setStream cid { x.opened (s.releases c) with readAt := s.now + 1 } := by
  obtain ⟨hleft, hrange, hfree⟩ := ho.passes
  simp only [streamPump, h.cmd, h.stream, h.bound, if_neg hleft, if_neg hrange, if_neg hfree, ht, if_neg (Nat.not_le.mpr hcopy), hread, if_pos hidle, WStream.opened]

/-- A pump of a stream takes two steps at least. -/
theorem State.streamFuel_two (hc : Tbl.get s.work.cmds cid = some c) (hslot : c.slot = some slot) : ∃ n, s.streamFuel cid = n + 2 := by
  simp only [State.streamFuel, hc, hslot]
  exact ⟨_, rfl⟩

/-- What a pump comes to after two steps, it comes to with a stream's fuel. -/
theorem State.Streams.pumped (h : s.Streams cid slot c x) (hp : ∀ n, streamPump cid remote (n + 2) s = t) :
    streamPump cid remote (s.streamFuel cid) s = t := by
  obtain ⟨n, hn⟩ := State.streamFuel_two h.cmd h.bound
  rw [hn, hp]

/-! ### The end of a layer (R240, R242) -/

/-- Commands and streams, which no packet and no event reaches. -/
def State.streaming (s : State) : Tbl Nat Cmd × Tbl Nat WStream := (s.work.cmds, s.tier.streams)

theorem State.sendReq_streaming (s : State) (p : Packet) (purpose : Purpose) (orig : Option Packet) : (s.sendReq p purpose orig).streaming = s.streaming := by
  obtain ⟨f, l, x, hs⟩ := s.sendReq_frame p purpose orig
  rw [hs]
  rfl

theorem State.sendBytes_streaming (s : State) (c : Cmd) (tc a : Nat) (bs : List Byte) : (s.sendBytes c tc a bs).streaming = s.streaming :=
  foldl_keeps State.streaming _ _ s fun t _ => t.sendReq_streaming _ _ _

theorem State.raise0_streaming (s : State) (ev : Ev) (die unit : Nat) (payload : List Nat) : (s.raise0 ev die unit payload).streaming = s.streaming := by
  simp [State.streaming, State.raise0]

/-- A layer that ends moves its stream to the next, counts a late one, and keeps the command's operands. -/
theorem State.layerDone_streams (hc : Tbl.get s.work.cmds cid = some c) (hslot : c.slot = some slot) : ∃ c' y, (s.layerDone cid c (winOps c.op) x).Streams cid slot c' y ∧
    c'.op = c.op ∧ y.next = x.next + 1 ∧ y.late = x.late + b2n (decide (x.start + x.next * (winOps c.op).period < s.now)) := by
  unfold State.layerDone
  extract_lets base due late check tc s1 line s2 s3 s4
  have hs2 : s2.streaming = s.streaming := (s1.sendReq_streaming _ _ _).trans (s.sendBytes_streaming _ _ _ _)
  have hs3 : s3.streaming = s.streaming := (ite_keeps State.streaming (s2.raise0_streaming _ _ _ _) rfl).trans hs2
  have hcmd : Tbl.get s3.work.cmds cid = some c := (congrArg (Tbl.get · cid) (congrArg Prod.fst hs3)).trans hc
  exact ⟨_, _, ⟨Tbl.get_upd_some _ _ _ c hcmd, hslot, Tbl.get_set_same _ _ _⟩, rfl, rfl, rfl⟩

/-! ### WINDOW_STREAM and its timers (R239 to R243) -/

/-- A running WINDOW_STREAM does what its pump comes to. -/
theorem execWindowStream_pumps (hu : Up s) (hrun : s.running cid 6 1 = some c) (hslot : c.slot = some slot) (hx : Tbl.get s.tier.streams cid = some x)
    (hp : ∀ n, s.Streams cid slot c x → streamPump cid remote (n + 2) s = t) : Does (.windowStream cid remote) s (s.keeping t) := by
  have h : s.Streams cid slot c x := ⟨State.running_listed hrun, hslot, hx⟩
  refine does_live rfl hu ?_
  have hhas : Tbl.has s.tier.streams cid = true := by rw [Tbl.has, hx, Option.isSome_some]
  simp only [hrun, hhas, if_true]
  exact h.pumped fun n => hp n h

/-- The stream a WINDOW_STREAM starts with: its first layer is due at the operand's time, or a period after dispatch (R239). -/
def State.newStream (s : State) (c : Cmd) : WStream :=
  { start := if (winOps c.op).start = 0 then c.dispT.getD s.now + (winOps c.op).period else (winOps c.op).start }

/-- A WINDOW_STREAM that starts waits for the first read from another node. -/
theorem execWindowStream_starts {es : List Nat} (hu : Up s) (hrun : s.running cid 6 1 = some c) (hslot : c.slot = some slot)
    (hnone : Tbl.get s.tier.streams cid = none) (hcount : 0 < (winOps c.op).count) (hslots : 0 < (winOps c.op).slots) (hrel : s.releases c = 0)
    (htiles : s.partTiles (s.ctx slot).f (winOps c.op).first (winOps c.op).parts (winOps c.op).part = e :: es)
    (hread : s.readTile (s.tileEntry (s.ctx slot).f e) 0 remote = .pending) :
    Does (.windowStream cid remote) s (s.setStream cid { s.newStream c with readAt := s.now + 1 }) := by
  have h : (s.setStream cid (s.newStream c)).Streams cid slot c (s.newStream c) := ⟨State.running_listed hrun, hslot, Tbl.get_set_same _ _ _⟩
  have hopen : (s.setStream cid (s.newStream c)).LayerOpen c (s.newStream c) := by
    refine ⟨hcount, Nat.zero_le _, (Nat.le_of_eq hrel : s.releases c ≤ 0), ?_⟩
    exact (Nat.lt_add_left _ hslots : 0 < s.releases c + (winOps c.op).slots)
  have htile : ((s.setStream cid (s.newStream c)).layerTiles slot c (s.newStream c))[(s.newStream c).tile]? = some e :=
    congrArg (fun l : List Nat => l[0]?) htiles
  have hpump : streamPump cid remote ((s.setStream cid (s.newStream c)).streamFuel cid) (s.setStream cid (s.newStream c)) =
      s.setStream cid { s.newStream c with readAt := s.now + 1 } := by
    refine h.pumped fun n => (streamPump_pending h hopen htile (Nat.zero_lt_succ 3) rfl hread).trans ((State.setStream_setStream ..).trans ?_)
    exact congrArg (fun r => s.setStream cid { s.newStream c with released := r, readAt := s.now + 1 }) hrel
  refine does_live (t := s.setStream cid { s.newStream c with readAt := s.now + 1 }) rfl hu ?_
  simp only [hrun, Tbl.has, hnone, Option.isSome_none, Bool.false_eq_true, if_false]
  exact hpump

/-- The last layer's end ends the stream, with ST_WINDOW_LATE where a layer was late. -/
theorem execWindowStream_ends (hu : Up s) (hrun : s.running cid 6 1 = some c) (hslot : c.slot = some slot) (hx : Tbl.get s.tier.streams cid = some x)
    (hlast : x.next + 1 = (winOps c.op).count) (ho : s.LayerOpen c x) (ht : (s.layerTiles slot c x)[x.tile]? = none) :
    ∃ t, Does (.windowStream cid remote) s t ∧
      t.ended cid (if x.late = 0 ∧ s.now ≤ x.start + x.next * (winOps c.op).period then .ok else .windowLate) 0 ∧ Tbl.get t.tier.streams cid = none := by
  have hcmd := State.running_listed hrun
  obtain ⟨c', y, hy, hop, hnext, hlate⟩ :=
    State.layerDone_streams (s := s.setStream cid (x.opened (s.releases c))) (x := x.opened (s.releases c)) hcmd hslot
  simp only [WStream.opened_fields] at hnext hlate
  have hall : (winOps c'.op).count ≤ y.next := by rw [hop, hnext, hlast]
  have hd := execWindowStream_pumps (remote := remote) hu hrun hslot hx fun n h =>
    (streamPump_layerDone h ho ht).trans (streamPump_delivered hy hall)
  have hst : y.late = 0 ↔ x.late = 0 ∧ s.now ≤ x.start + x.next * (winOps c.op).period := by
    have hdue : y.late = x.late + b2n (decide (x.start + x.next * (winOps c.op).period < s.now)) := hlate
    by_cases hlt : x.start + x.next * (winOps c.op).period < s.now
    · simp [hdue, b2n, hlt]
    · simp [hdue, b2n, hlt, Nat.not_lt.mp hlt]
  obtain ⟨hended, hgone⟩ := State.endStream_ended (cid := cid) (by rw [Tbl.has, hy.cmd, Option.isSome_some]) (if y.late = 0 then .ok else .windowLate) 0
  simp only [hst] at hd hended
  exact ⟨_, hd, hended, hgone⟩

/-- A release poll that is due does what the pump comes to. -/
theorem execReleasePoll_pumps (hu : Up s) (h : s.Streams cid slot c x) (h0 : x.pollAt ≠ 0) (hdue : x.pollAt ≤ s.now)
    (hp : ∀ n, streamPump cid [] (n + 2) s = t) : Does (.releasePoll cid) s (s.keeping t) := by
  refine does_live rfl hu ?_
  simp only [h.stream]
  rw [if_neg (by omega), h.pumped hp]

theorem execLayerDue_notes (hu : Up s) (hc : Tbl.get s.work.cmds cid = some c) (hx : Tbl.get s.tier.streams cid = some x)
    (hdue : x.start + x.next * (winOps c.op).period ≤ s.now) (hleft : x.next < (winOps c.op).count) (hnew : x.reported.contains x.next = false) :
    Does (.layerDue cid) s (s.setStream cid { x with reported := x.reported ++ [x.next] }) := by
  refine does_live (t := s.setStream cid { x with reported := x.reported ++ [x.next] }) rfl hu ?_
  simp only [hc, hx]
  exact if_neg (by simp only [hnew, Bool.false_eq_true, or_false]; omega)

theorem execLateLimitExpiry_abandons (hu : Up s) (hc : Tbl.get s.work.cmds cid = some c) (hx : Tbl.get s.tier.streams cid = some x) (hread : x.readAt ≠ 0)
    (hdue : x.start + x.next * (winOps c.op).period + (winOps c.op).limit ≤ s.now) : Does (.lateLimitExpiry cid) s (s.endStream cid .tierLate 0) := by
  refine does_live (t := s.endStream cid .tierLate 0) rfl hu ?_
  simp only [hc, hx]
  exact if_neg (by omega)

/-- A command that counts one more copy tried (R462). -/
def Cmd.recopied (c : Cmd) : Cmd := { c with events := Tbl.set c.events 0x0504 (Tbl.at c.events 0x0504 0 + 1) }

/-- A stream that turns to the next copy of its tile. -/
def WStream.recopied (x : WStream) : WStream := { x with copy := x.copy + 1, readAt := 0 }

/-- A stream that has turned to the next copy, which its command counts (R243). -/
def State.recopied (s : State) (cid : Nat) (x : WStream) : State := (s.setStream cid x.recopied).updCmd cid Cmd.recopied

theorem State.Streams.recopied (h : s.Streams cid slot c x) : (s.recopied cid x).Streams cid slot c.recopied x.recopied :=
  ⟨Tbl.get_upd_some s.work.cmds cid _ c h.cmd, h.bound, Tbl.get_set_same _ _ _⟩

theorem State.LayerOpen.recopied (ho : s.LayerOpen c x) : (s.recopied cid x).LayerOpen c.recopied x.recopied :=
  ⟨ho.left, ho.kept, ho.reached, ho.free⟩

/-- A copy that is late gives way to the next, which is read from another node (R243). -/
theorem execTileCopyTimeout_nextCopy (hu : Up s) (h : s.Streams cid slot c x) (hread : x.readAt ≠ 0)
    (hdue : x.readAt + min ((winOps c.op).period / 2) 1000000 ≤ s.now + 1) (ho : s.LayerOpen c x) (ht : (s.layerTiles slot c x)[x.tile]? = some e)
    (hcopy : x.copy < 3) (hpending : s.readTile (s.tileEntry (s.ctx slot).f e) (x.copy + 1) [] = .pending) :
    ∃ t, Does (.tileCopyTimeout cid) s t ∧
      Tbl.get t.tier.streams cid = some { x with copy := x.copy + 1, readAt := s.now + 1, released := s.releases c, pollAt := 0 } ∧ t.mem = s.mem := by
  have hrel : (s.recopied cid x).releases c.recopied = s.releases c := rfl
  have htile : ((s.recopied cid x).layerTiles slot c.recopied x.recopied)[x.recopied.tile]? = some e := ht
  have hpump := h.recopied.pumped (remote := []) fun n => streamPump_pending h.recopied ho.recopied htile (Nat.succ_lt_succ hcopy) rfl hpending
  rw [hrel] at hpump
  have hd : Does (.tileCopyTimeout cid) s (s.keeping (streamPump cid [] ((s.recopied cid x).streamFuel cid) (s.recopied cid x))) := by
    refine does_live rfl hu ?_
    simp only [h.cmd, h.stream]
    exact if_neg (by omega)
  rw [hpump] at hd
  generalize s.releases c = rel at hd ⊢
  exact ⟨_, hd, Tbl.get_set_same _ _ _, rfl⟩

/-! ### WINDOW_CANCEL (R245) -/

/-- The command a WINDOW_CANCEL names: a WINDOW_STREAM of its VI's Weights queue that has no outcome. -/
abbrev State.cancels (s : State) (c : Cmd) : Option (Nat × Cmd) :=
  s.work.cmds.find? (fun x => x.2.vi == c.vi && x.2.cls == 6 && x.2.q == fld c.op 2 35 32 && x.2.index == fld c.op 2 31 0 &&
    fld x.2.op 0 43 36 == 1 && x.2.outcome.isNone)

theorem execWindowCancel_none (hu : Up s) (hrun : s.running cid 6 2 = some c) (hnone : s.cancels c = none) :
    Does (.windowCancel cid) s (s.finish cid .ok 0) := by
  refine does_live (t := s.finish cid .ok 0) rfl hu ?_
  simp only [hrun, hnone]

/-- A stream that reads no tile is cancelled at once; one that reads a tile is marked to end after it. -/
theorem execWindowCancel_cancels {k : Nat} {d : Cmd} (hu : Up s) (hrun : s.running cid 6 2 = some c) (hfind : s.cancels c = some (k, d)) (hk : k ≠ cid)
    (hx : Tbl.get s.tier.streams k = some x) : ∃ t, Does (.windowCancel cid) s t ∧ t.ended cid .ok 0 ∧
      (if x.readAt = 0 then t.ended k .windowCancelled 0 ∧ Tbl.get t.tier.streams k = none else (Tbl.get t.tier.streams k).map (·.cancelled) = some true) := by
  have hd : Does (.windowCancel cid) s _ := does_live rfl hu rfl
  simp only [hrun, hfind, hx] at hd
  have hcid := State.running_has hrun
  by_cases hidle : x.readAt = 0
  · obtain ⟨hended, hgone⟩ := State.endStream_ended (Tbl.has_of_mem (List.mem_of_find?_eq_some hfind)) .windowCancelled 0
    simp only [if_pos hidle] at hd ⊢
    exact ⟨_, hd, State.finish_ended ((Tbl.has_upd _ _ _ _).trans hcid), State.finish_ended_other hended hk, hgone⟩
  · simp only [if_neg hidle] at hd ⊢
    exact ⟨_, hd, State.finish_ended hcid, congrArg (Option.map _) (Tbl.get_set_same _ _ _)⟩

end Sys2Proof.Machine
end

section
/-! SUPPORT. DECODE_TILES and ADH_WEIGHTS_LOAD (R234 to R238, R246). -/

namespace Sys2Proof.Machine
open Sys2Proof

variable {s t : State} {cid slot op : Nat} {remote : List (Nat × List Byte)} {c : Cmd}

/-! ### DECODE_TILES (R246) -/

/-- One tile of a run raises events at most. -/
theorem Cmd.decodeTile_standing (c : Cmd) (f : CtxFields) (acc : List Byte × Option Status × State) (i : Nat) :
    (c.decodeTile f remote acc i).2.2.standing = acc.2.2.standing := by
  obtain ⟨bs, st, t⟩ := acc
  rw [Cmd.decodeTile]
  split
  · rfl
  · extract_lets e ent
    obtain ⟨tile, bad, allBad⟩ := t.bestTile ent remote
    dsimp -zeta only
    extract_lets t1
    have ht1 : t1.standing = t.standing := foldl_standing fun _ _ => State.raise0_standing ..
    split
    · exact ht1
    · split
      · exact ht1
      · exact ht1

/-- A run of tiles leaves the commands listed. -/
theorem State.decodeRun_standing (s : State) (c : Cmd) (f : CtxFields) (remote : List (Nat × List Byte)) (n : Nat) :
    (s.decodeRun c f remote n).2.2.standing = s.standing :=
  List.foldlRecOn (motive := fun acc : List Byte × Option Status × State => acc.2.2.standing = s.standing) _ _ rfl
    fun acc h i _ => (c.decodeTile_standing f acc i).trans h

/-- DECODE_TILES ends with the status its run stopped at, or writes the run's bytes and ends with their check value. -/
theorem execDecodeTiles_ends (hu : Up s) (hrun : s.running cid 3 3 = some c) (hslot : c.slot = some slot) : ∃ t, Does (.decodeTiles cid remote) s t ∧
    (match s.decodeRun c (s.ctx slot).f remote (fld c.op 3 63 32) with
      | (_, some st, _) => t.ended cid st 0
      | (out, none, s1) => t.ended cid .ok (crc64 out) ∧ t.mem = (s1.store (word c.op 4) out).mem) := by
  have hd : Does (.decodeTiles cid remote) s _ := does_live rfl hu rfl
  have hstand := s.decodeRun_standing c (s.ctx slot).f remote (fld c.op 3 63 32)
  simp only [hrun, hslot] at hd
  generalize s.decodeRun c (s.ctx slot).f remote (fld c.op 3 63 32) = run at hd hstand ⊢
  obtain ⟨out, st, s1⟩ := run
  cases st with
  | some st => exact ⟨_, hd, State.finish_ended_standing (State.running_has hrun) hstand⟩
  | none =>
    have hended := State.noted_ended (result := crc64 out) (st := .ok) ((State.store_standing (word c.op 4) out).trans hstand) (State.running_listed hrun)
      [(0x0206, fld c.op 3 63 32)] 0 (out.length / 64) (fld c.op 3 63 32) 0
    exact ⟨_, hd, hended, rfl⟩

/-! ### Deferred operations answered through a mailbox (R397) -/

/-- The final answer of a deferred operation whose mailbox still holds it is the mailbox's, and without a body it changes Adeah's state alone. -/
theorem State.finishOp_mailbox (r : OpRef) (st : Status) (result : Nat) (hsess : r.session = none) (hring : r.ring = false)
    (hbusy : (s.mbox r.vi r.mbox).busy = true) (hseq : fld (s.mbox r.vi r.mbox).header 0 31 16 = r.mbSeq) : ∃ a, s.finishOp r st result [] = { s with adh := a } ∧
      ((s.finishOp r st result []).mbox r.vi r.mbox).busy = false ∧
      ((s.finishOp r st result []).mbox r.vi r.mbox).applied = some { mbSeq := r.mbSeq, status := st, result := result, body := [] } := by
  have he : s.finishOp r st result [] = s.mboxAnswer r.vi r.mbox r.mbSeq r.op st result 0 [] := by
    simp [State.finishOp, hsess, hring, hbusy, hseq]
  obtain ⟨a, ha⟩ := s.mboxAnswer_empty r.vi r.mbox r.mbSeq r.op st result 0
  rw [he]
  exact ⟨a, ha, s.mboxAnswer_mbox ..⟩

variable {ca : Caller} {f : Form}

/-- Without an async ring, the first answer of a deferred operation leaves its mailbox BUSY with its header, and changes Adeah's state alone. -/
theorem State.respond_accepted (t : State) (op : Nat) (ho : ca.order = none) (hs : ca.session = none) (hring : t.usesRing ca = false) :
    (∃ a, t.respond ca op .adhAccepted 0 [] = { t with adh := a }) ∧ (t.respond ca op .adhAccepted 0 []).mbox ca.vi ca.mbox =
      { t.mbox ca.vi ca.mbox with applied := some { mbSeq := ca.mbSeq, status := .adhAccepted, result := 0, body := [] } } := by
  have h : t.respond ca op .adhAccepted 0 [] = ({ t with adh := { t.adh with nextHandle := u32 (t.adh.nextHandle + 1) } } : State).setMbox ca.vi ca.mbox
      { t.mbox ca.vi ca.mbox with applied := some { mbSeq := ca.mbSeq, status := .adhAccepted, result := 0, body := [] } } := by
    simp [State.respond, ho, hs, hring, State.mbox]
  exact ⟨⟨_, h⟩, by rw [h, State.setMbox_mbox_same]⟩

/-- A deferred operation asked through a mailbox without an async ring, whose effect leaves Adeah's state and the VIs, has its effect and its final
answer in one step. -/
theorem State.adhRunD_mailbox {g : State → AdhOut} (ha : AskedBox s op f ca) (hring : s.usesRing ca = false) (hg : g s = adhOk t) (hadh : t.adh = s.adh)
    (hvis : t.work.vis = s.work.vis) : ∃ a, s.adhRunD op f ca g = s.keeping { t with adh := a } ∧ (s.adhRunD op f ca g).replied ca .ok 0 [] := by
  obtain ⟨⟨hlive, hprim, hheld, hadm⟩, hs, ho⟩ := ha
  obtain ⟨hbusy, hseq⟩ : (s.mbox ca.vi ca.mbox).busy = true ∧ fld (s.mbox ca.vi ca.mbox).header 0 31 16 = ca.mbSeq := by
    simp only [State.holdsReq, ho, hs, Option.isSome_none, Bool.false_or, Bool.and_eq_true, beq_iff_eq] at hheld
    obtain ⟨⟨⟨hb, -⟩, hq⟩, -⟩ := hheld
    exact ⟨hb, hq⟩
  have hmbox : t.mbox ca.vi ca.mbox = s.mbox ca.vi ca.mbox := State.mbox_congr (congrArg Adeah.mailboxes hadh) _ _
  have hringt : t.usesRing ca = false := by
    rw [← hring, State.usesRing, State.usesRing, hmbox, State.vi_congr hvis]
  have hrun : s.adhRunD op f ca g = s.keeping ((t.respond ca op .adhAccepted 0 []).finishOp (t.refOf ca op) .ok 0 []) := by
    simp [State.adhRunD, hlive, hprim, hheld, hadm, hg, adhOk, ho]
  obtain ⟨hresp, hbox⟩ := t.respond_accepted op ho hs hringt
  rw [hmbox] at hbox
  obtain ⟨a, hfin, hidle, happ⟩ := State.finishOp_mailbox (s := t.respond ca op .adhAccepted 0 []) (t.refOf ca op) .ok 0 hs hringt
    ((congrArg Mailbox.busy hbox).trans hbusy) ((congrArg (fun m : Mailbox => fld m.header 0 31 16) hbox).trans hseq)
  obtain ⟨b, hresp⟩ := hresp
  rw [hrun]
  exact ⟨a, by rw [hfin, hresp], hidle, happ⟩

/-! ### ADH_WEIGHTS_LOAD (R234 to R238) -/

variable {entries : List (List Nat)} {tiles : List (Nat × List Byte)}

/-- The entries of a load in the order of their layers (R237). -/
abbrev State.loadOrder (s : State) (slot : Nat) (entries : List (List Nat)) : List (List Nat) :=
  (List.range (s.ctx slot).f.layers).flatMap (fun l => entries.filter (fun e => fld e 4 31 22 == l))

/-- What a load leaves: the tiles, the directory in the order of the layers, and the index of their first entries behind it (log 23). -/
def State.weightsLoaded (s : State) (slot : Nat) (entries : List (List Nat)) (tiles : List (Nat × List Byte)) : State :=
  ((tiles.foldl (fun (u : State) x => u.store x.1 x.2) s).wrWords (s.ctx slot).f.weightDir
    (sealWords [(s.loadOrder slot entries).length, (s.ctx slot).f.weightDir + 64 + 64 * (s.loadOrder slot entries).length, 0, 0, 0, 0, 0] ++
      (s.loadOrder slot entries).flatten)).wr ((s.ctx slot).f.weightDir + 64 + 64 * (s.loadOrder slot entries).length)
    (((List.range ((s.ctx slot).f.layers + 1)).map (fun l => (entries.filter (fun e => decide (fld e 4 31 22 < l))).length)).flatMap (bytesOf 4))

/-- A load leaves Adeah's state and the work as they stand. -/
theorem State.weightsLoaded_keeps (s : State) (slot : Nat) (entries : List (List Nat)) (tiles : List (Nat × List Byte)) :
    (s.weightsLoaded slot entries tiles).adh = s.adh ∧ (s.weightsLoaded slot entries tiles).work = s.work := by
  have h : (fun u : State => (u.adh, u.work)) (tiles.foldl (fun u x => u.store x.1 x.2) s) = (s.adh, s.work) :=
    foldl_keeps (fun u => (u.adh, u.work)) _ _ s fun u x => by
      obtain ⟨b, w, m, c, p, n, hu⟩ := u.store_frame x.1 x.2
      rw [hu]
  simp only [State.weightsLoaded, State.wr_fields, State.wrWords_fields]
  exact Prod.mk.inj h

/-- Well-formed entries and sound tiles within the caller's regions are loaded. -/
theorem doWeightsLoad_ok (hslot : (s.ctx slot).st ≠ .empty) (hlen : entries.length ≤ 16777216)
    (hents : entries.all (fun e => entryFormed e && decide (fld e 4 31 22 < (s.ctx slot).f.layers)) = true)
    (hprot : (s.comp (s.ctx slot).f.composition).cur.protection = .none)
    (htiles : tiles.all (fun t => tileFormed t.2 && tileChecks t.2 && s.covers ca.vi t.1 t.2.length rWt) = true) :
    doWeightsLoad ca slot entries tiles s = adhOk (s.weightsLoaded slot entries tiles) := by
  have hsound : ∀ x ∈ tiles, tileFormed x.2 = true ∧ tileChecks x.2 = true ∧ s.covers ca.vi x.1 x.2.length rWt = true := by
    simpa only [List.all_eq_true, Bool.and_eq_true, and_assoc] using htiles
  have hformed : tiles.all (fun x => tileFormed x.2) = true := List.all_eq_true.mpr fun x hx => (hsound x hx).1
  have hchecks : tiles.all (fun x => tileChecks x.2) = true := List.all_eq_true.mpr fun x hx => (hsound x hx).2.1
  have hheld : tiles.all (fun x => ca.order.isSome || ca.session.isSome || s.covers ca.vi x.1 x.2.length rWt) = true :=
    List.all_eq_true.mpr fun x hx => by rw [(hsound x hx).2.2, Bool.or_true]
  unfold doWeightsLoad
  extract_lets x f prot nodes held s1 es index firsts s2
  rw [if_neg (by simp [x, f, hslot, hents, Nat.not_lt.mpr hlen]), if_neg (by simp [prot, f, x, hprot]), if_neg (by simp [hformed]),
    if_neg (by simp only [held, hheld]; decide), if_neg (by simp [hchecks])]
  rfl

theorem execAdhWeightsLoad_loads (ha : AskedBox s 776 .oper ca) (hring : s.usesRing ca = false) (hslot : (s.ctx slot).st ≠ .empty)
    (hlen : entries.length ≤ 16777216) (hents : entries.all (fun e => entryFormed e && decide (fld e 4 31 22 < (s.ctx slot).f.layers)) = true)
    (hprot : (s.comp (s.ctx slot).f.composition).cur.protection = .none)
    (htiles : tiles.all (fun t => tileFormed t.2 && tileChecks t.2 && s.covers ca.vi t.1 t.2.length rWt) = true) :
    ∃ t, Does (.adhWeightsLoad ca slot entries tiles) s t ∧ t.replied ca .ok 0 [] ∧ t.mem = (s.weightsLoaded slot entries tiles).mem := by
  obtain ⟨hadh, hwork⟩ := s.weightsLoaded_keeps slot entries tiles
  obtain ⟨a, he, hreply⟩ := State.adhRunD_mailbox (g := doWeightsLoad ca slot entries tiles) ha hring (doWeightsLoad_ok hslot hlen hents hprot htiles)
    hadh (congrArg Work.vis hwork)
  exact ⟨_, rfl, hreply, by rw [he, State.keeping_mem]⟩

end Sys2Proof.Machine
end

section
open Sys2Proof Sys2Proof.Machine

/-- Settles O49: a stream's clauses are what its pump meets first, the last layer's end the two steps it takes; a deferred load is answered by its mailbox. -/
theorem weightStreams : Obligations.WeightStreams := by
  unfold Obligations.WeightStreams
  refine ⟨?delivered, ?badRelease, ?noBuffer, ?starts, ?noCopy, ?lastLayer, ?cancelNone, ?cancel, ?poll, ?due, ?limit, ?copyLate, ?decode, ?load⟩
  case delivered => exact fun cid slot remote c x s hu hrun hslot hx hall => execWindowStream_pumps hu hrun hslot hx fun n h => streamPump_delivered h hall
  case badRelease =>
    exact fun cid slot remote c x s hu hrun hslot hx hleft hbad => execWindowStream_pumps hu hrun hslot hx fun n h => streamPump_badRelease h hleft hbad
  case noBuffer =>
    exact fun cid slot remote c x s hu hrun hslot hx hleft hkept hfull _ =>
      execWindowStream_pumps hu hrun hslot hx fun n h => streamPump_noBuffer h hleft hkept hfull
  case starts =>
    exact fun cid slot e es remote c s hu hrun hslot hnone hcount hslots hrel htiles hread =>
      ⟨_, execWindowStream_starts hu hrun hslot hnone hcount hslots hrel htiles hread, rfl⟩
  case noCopy =>
    exact fun cid slot e remote c x s hu hrun hslot hx hleft hkept hreached hfree ht hcopy =>
      execWindowStream_pumps hu hrun hslot hx fun n h => streamPump_noCopy h ⟨hleft, hkept, hreached, hfree⟩ ht hcopy
  case lastLayer =>
    exact fun cid slot remote c x s hu hrun hslot hx hlast hkept hreached hfree ht =>
      execWindowStream_ends hu hrun hslot hx hlast ⟨by omega, hkept, hreached, hfree⟩ ht
  case cancelNone => exact fun cid c s hu hrun hnone => execWindowCancel_none hu hrun hnone
  case cancel => exact fun cid k c d x s hu hrun hfind hk hx => execWindowCancel_cancels hu hrun hfind hk hx
  case poll =>
    exact fun cid slot c x s hu hc hslot hx h0 hdue hleft hkept hfull _ =>
      have h : s.Streams cid slot c x := ⟨hc, hslot, hx⟩
      execReleasePoll_pumps hu h h0 hdue fun n => streamPump_noBuffer h hleft hkept hfull
  case due => exact fun cid c x s hu hc hx hdue hleft hnew => execLayerDue_notes hu hc hx hdue hleft hnew
  case limit => exact fun cid c x s hu hc hx hread hdue => execLateLimitExpiry_abandons hu hc hx hread hdue
  case copyLate =>
    exact fun cid slot e c x s hu hc hslot hx hread hdue hleft hkept hreached hfree ht hcopy hpending =>
      have h : s.Streams cid slot c x := ⟨hc, hslot, hx⟩
      have ho : s.LayerOpen c x := ⟨hleft, hkept, hreached, hfree⟩
      execTileCopyTimeout_nextCopy hu h hread hdue ho ht hcopy hpending
  case decode => exact fun cid slot remote c s hu hrun hslot => execDecodeTiles_ends hu hrun hslot
  case load =>
    intro c slot entries tiles s ha hring hslot hlen hents hprot htiles
    obtain ⟨t, hd, hreply, hmem⟩ := execAdhWeightsLoad_loads ha hring hslot hlen hents hprot htiles
    exact ⟨t, s.loadOrder slot entries, hd, hreply, rfl, hmem⟩

end

section
/-! SUPPORT. An admitted request for lines of memory: what performing it gives, and the packet that answers it on its endpoint's port (R271, R289, R290). -/

namespace Sys2Proof.Machine
open Sys2Proof

variable {s t : State} {p : Packet} {port q : Nat} {ty : PktType}

/-! ### What the arrival and the effect leave of the node and its queues -/

/-- What an answer on an endpoint's port is made of besides the packet: the links, the node's number and the time. -/
def State.outward (s : State) : Links × Nat × Nat := (s.lnk, s.node, s.now)

theorem State.unitEvent_outward (s : State) (u ev n : Nat) (vi : Option Nat) : (s.unitEvent u ev n vi).outward = s.outward := by
  obtain ⟨c, h⟩ := s.unitEvent_frame u ev n vi
  rw [h]
  rfl

/-- Counting the lines read changes the performance counters alone. -/
theorem State.countRead_frame (s : State) (a n vi : Nat) : ∃ c, s.countRead a n vi = { s with perf := c } := by
  unfold State.countRead
  split
  · exact ⟨s.perf, rfl⟩
  · refine List.foldlRecOn (motive := fun t => ∃ c, t = ({ s with perf := c } : State)) _ _ ⟨s.perf, rfl⟩ ?_
    rintro t ⟨c, rfl⟩ l -
    exact State.unitEvent_frame _ _ _ _ _

theorem State.store_outward (s : State) (a : Nat) (bs : List Byte) : (s.store a bs).outward = s.outward := by
  obtain ⟨b, w, m, c, d, n, h⟩ := s.store_frame a bs
  rw [h]
  rfl

/-- A packet that leaves its receive buffer leaves the egress queues as they stand. -/
@[simp] theorem State.taken_queues (s : State) (port : Nat) (p : Packet) : (s.taken port p).lnk.queue = s.lnk.queue := by
  have hdrain : ∀ t : State, (t.drainPools port).lnk.queue = t.lnk.queue := fun t =>
    ite_keeps (·.lnk.queue) rfl (foldl_keeps (·.lnk.queue) _ _ t fun _ _ => rfl)
  have hconsume : (s.consume port p).lnk.queue = s.lnk.queue := ite_keeps (·.lnk.queue) rfl (hdrain _)
  have hheard : ∀ t : State, (t.heard p.src).lnk.queue = t.lnk.queue := fun t => ite_keeps (·.lnk.queue) rfl rfl
  exact (hheard _).trans hconsume

theorem State.telSettle_lnk (s : State) (port cls : Nat) : (s.telSettle port cls).lnk = s.lnk := ite_keeps (·.lnk) rfl rfl

/-- A packet put into an egress queue is its last. -/
theorem State.enqueue_queue (s : State) (port : Nat) (p : Packet) :
    (s.enqueue port p).lnk.queue = s.lnk.queue ++ [{ port := port, pkt := p, at_ := s.now }] := by
  rw [State.enqueue, State.telSettle_lnk, State.telSettle_lnk]

/-! ### Performing (R289) -/

/-- The data of a line operation's answer, and whether a CAS matched, by the memory before it (R289, R290). -/
def State.lineAnswer (s : State) (p : Packet) : List Byte × Bool :=
  match p.ty with
  | .load | .fetchAdd | .swap => (s.rd (p.addr / 64 * 64) 64, false)
  | .cas => (s.rd (p.addr / 64 * 64) 64, s.rd (p.addr / 64 * 64) 64 == p.payload.take 64)
  | .read => (s.rd p.addr p.payloadLen, false)
  | _ => ([], false)

/-- A line operation's answer is read from memory alone. -/
theorem State.lineAnswer_congr (h : t.mem = s.mem) (p : Packet) : t.lineAnswer p = s.lineAnswer p := by
  unfold State.lineAnswer State.rd
  rw [h]

/-- A request that its space takes, on lines of DRAM or SRAM that can be read, is performed with ST_OK and its data; it leaves the links alone. -/
theorem State.perform_memory (hform : s.formFault p = false) (hok : requestFormOk p = true) (hty : p.ty ≠ .sendData) (hsp : addrSpace p.addr = 1 ∨ addrSpace p.addr = 3)
    (hread : s.readFault (p.addr / 64 * 64) (max (touchLen p) 64) = none) (hlost : s.lineLost p.addr false = false) :
    ∃ t, s.perform p = ⟨.ok, (s.lineAnswer p).1, (s.lineAnswer p).2, t⟩ ∧ t.outward = s.outward := by
  have hmem : ¬ (addrSpace p.addr = 4 ∨ addrSpace p.addr = 5) := by omega
  unfold State.perform
  extract_lets a line c n whole fault u old hit
  have hfault : fault = none := by
    unfold fault
    split
    · exact if_neg (by simp [a, hlost])
    · exact hread
  have hu : u.mem = s.mem ∧ u.outward = s.outward := by
    obtain ⟨c, hcount⟩ := s.countRead_frame line (max n 64) p.srcVi
    unfold u
    rw [hcount]
    exact ⟨ite_keeps (·.mem) rfl rfl, ite_keeps State.outward rfl rfl⟩
  obtain ⟨hmemory, hout⟩ := hu
  have hstore : ∀ a bs, (u.store a bs).outward = s.outward := fun a bs => (u.store_outward a bs).trans hout
  rw [if_neg (by simp [hform]), if_neg hmem, hfault, ← State.lineAnswer_congr hmemory, State.lineAnswer]
  cases hp : p.ty with
  | load => exact ⟨_, rfl, hout⟩
  | store => exact ⟨_, rfl, hstore _ _⟩
  | storeFlag => exact ⟨_, rfl, hstore _ _⟩
  | cas => exact ⟨_, rfl, ite_keeps State.outward (hstore _ _) hout⟩
  | fetchAdd => exact ⟨_, rfl, hstore _ _⟩
  | swap => exact ⟨_, rfl, hstore _ _⟩
  | write => exact ⟨_, rfl, hstore _ _⟩
  | read => exact ⟨_, rfl, hout⟩
  | sendData => exact absurd hp hty
  | msgCtrl => simp [requestFormOk, hp] at hok
  | unlisted code => simp [requestFormOk, hp] at hok

/-! ### Answering (R290) -/

/-- An admitted request is performed, recorded and answered (R290, R291). -/
theorem State.receive_performed (h : Admitted port p s) : s.receive port p = (s.taken port p).performAnswer p := by
  obtain ⟨hpol, hform, hcrc, hdst, hkept, hcarried, htarget, -, -⟩ := h
  have hnode : p.dst = (s.taken port p).node := by simpa using hdst
  rw [State.receive, State.ingress, hpol]
  show State.receiveIn s port p = _
  unfold State.receiveIn
  rw [← State.taken]
  simp only [hform, hcrc, hkept, hcarried, htarget, Bool.not_true, Bool.false_eq_true, if_false, ne_eq, ← hnode, not_true_eq_false]

/-- An admitted request of an endpoint of this node for lines that can be read is answered, last of the packets queued, on the endpoint's port. -/
theorem State.receive_answers (h : Admitted port p s) (hread : Readable port p s) (hsrc : p.src = s.node) (hty : p.ty ≠ .sendData)
    (hport : (s.taken port p).endpointPort p.srcEp = some q) : (s.receive port p).lnk.queue =
      s.lnk.queue ++ [{ port := q, pkt := p.answer .ok (s.lineAnswer p).1 (s.lineAnswer p).2, at_ := s.now }] := by
  rw [State.receive_performed h]
  obtain ⟨-, hok, -, -, -, -, -, hform, hap⟩ := h
  obtain ⟨hsp, hlines, hlost⟩ := hread
  obtain ⟨t, hperf, hout⟩ := State.perform_memory hform hok hty hsp hlines hlost
  obtain ⟨hlnk, hnode, hnow⟩ : t.lnk = _ ∧ t.node = _ ∧ t.now = _ := by simpa [State.outward] using hout
  have hown : p.src = t.node := by rw [hnode, hsrc]
  have hq : t.endpointPort p.srcEp = some q := by rw [State.endpointPort, hlnk, ← State.endpointPort, hport]
  simp only [State.performAnswer, hap, hperf, State.record, if_pos hown, if_true, State.answerPkt, hq, State.enqueue_queue, hlnk, hnow,
    State.taken_queues, State.lineAnswer_congr (s.taken_fields port p).2.2.1]

/-- An admitted request but FETCH_ADD is for whole lines (R286). -/
theorem aligned_of_admitted (h : Admitted port p s) (hty : p.ty ≠ .fetchAdd) : p.addr / 64 * 64 = p.addr := by
  obtain ⟨-, -, -, -, -, -, -, hform, -⟩ := h
  simp only [State.formFault, hty, if_false, Bool.or_eq_false_iff, bne_eq_false_iff_eq] at hform
  omega

/-- A line operation's command leaves its answer as the last packet queued, on the endpoint's port. -/
theorem does_lineOp {i : Instr} {data : List Byte} {hit : Bool} (hi : exec i s = .next (s.whenLive fun s => s.receiveAs ty port p)) (hu : Up s)
    (hty : p.ty = ty) (hsrc : p.src = s.node) (hadm : Admitted port p s) (hread : Readable port p s)
    (hport : (s.taken port p).endpointPort p.srcEp = some q) (hline : ty ≠ .sendData) (hans : s.lineAnswer p = (data, hit)) :
    ∃ t, Does i s t ∧ t.lnk.queue = s.lnk.queue ++ [{ port := q, pkt := p.answer .ok data hit, at_ := s.now }] :=
  ⟨_, does_live hi hu (if_pos ⟨hty, by simp [resp_of_admitted hadm]⟩),
    (State.receive_answers hadm hread hsrc (hty ▸ hline) hport).trans (by rw [hans])⟩

end Sys2Proof.Machine
end

section
open Sys2Proof Sys2Proof.Machine

/-- Settles O24: an admitted request is performed on its lines without a change of the links, so that its answer is the one packet put into the queues. -/
theorem lineOpsAnswered : Obligations.LineOpsAnswered := by
  unfold Obligations.LineOpsAnswered
  refine ⟨?load, ?fetchAdd, ?swap, ?cas, ?read, ?store, ?storeFlag, ?write⟩
  case load =>
    exact fun port q p s hu hty hsrc hadm hread hport => does_lineOp rfl hu hty hsrc hadm hread hport nofun (by simp [State.lineAnswer, hty, aligned_of_admitted hadm (hty ▸ nofun)])
  case fetchAdd =>
    exact fun port q p s hu hty hsrc hadm hread hport => does_lineOp rfl hu hty hsrc hadm hread hport nofun (by simp [State.lineAnswer, hty])
  case swap =>
    exact fun port q p s hu hty hsrc hadm hread hport => does_lineOp rfl hu hty hsrc hadm hread hport nofun (by simp [State.lineAnswer, hty, aligned_of_admitted hadm (hty ▸ nofun)])
  case cas =>
    exact fun port q p s hu hty hsrc hadm hread hport => does_lineOp rfl hu hty hsrc hadm hread hport nofun (by simp [State.lineAnswer, hty, aligned_of_admitted hadm (hty ▸ nofun)])
  case read =>
    exact fun port q p s hu hty hsrc hadm hread hport => does_lineOp rfl hu hty hsrc hadm hread hport nofun (by simp [State.lineAnswer, hty])
  case store =>
    exact fun port q p s hu hty hsrc hadm hread hport => does_lineOp rfl hu hty hsrc hadm hread hport nofun (by simp [State.lineAnswer, hty])
  case storeFlag =>
    exact fun port q p s hu hty hsrc hadm hread hport => does_lineOp rfl hu hty hsrc hadm hread hport nofun (by simp [State.lineAnswer, hty])
  case write =>
    exact fun port q p s hu hty hsrc hadm hread hport => does_lineOp rfl hu hty hsrc hadm hread hport nofun (by simp [State.lineAnswer, hty])
end

section
/-! SUPPORT. What a port reads after a change, and what the paths, the credits and the counters of a port leave of the links (R255, R260, R297, R463). -/

namespace Sys2Proof.Machine
open Sys2Proof

variable {s t : State} {p : Nat}

/-! ### Reading a port -/

/-- A port that is changed reads as it was changed. -/
@[simp] theorem State.updPort_port_same (s : State) (p : Nat) (f : Port → Port) : (s.updPort p f).port p = f (s.port p) := Tbl.at_set_same _ _ _ _

/-- A change of a port that keeps a property keeps it of every port. -/
theorem State.updPort_keeps {β : Type} (g : Port → β) (s : State) (p : Nat) (f : Port → Port) (hf : g (f (s.port p)) = g (s.port p)) (q : Nat) :
    g ((s.updPort p f).port q) = g (s.port q) := by
  by_cases h : q = p
  · rw [h, State.updPort_port_same, hf]
  · exact congrArg g (Tbl.at_set_other _ _ _ _ _ h)

/-- Ports are read from the links alone. -/
theorem State.port_congr (h : t.lnk = s.lnk) (p : Nat) : t.port p = s.port p := by
  rw [State.port, h, State.port]

@[simp] theorem State.keeping_port (s t : State) (p : Nat) : (s.keeping t).port p = t.port p := rfl

/-! ### What leaves the links alone -/

@[simp] theorem State.unitEvent_port (s : State) (u ev n : Nat) (vi : Option Nat) (p : Nat) : (s.unitEvent u ev n vi).port p = s.port p :=
  State.port_congr (congrArg Prod.fst (s.unitEvent_outward u ev n vi)) p

/-- Closing slots changes the performance counters alone. -/
theorem State.closeSlots_frame (s : State) (u : Nat) (kept : Bool) (n : Nat) : ∃ c, s.closeSlots u kept n = { s with perf := c } := by
  obtain ⟨c, h⟩ := s.settle_frame u
  unfold State.closeSlots
  rw [h]
  exact ⟨_, rfl⟩

@[simp] theorem State.closeSlots_port (s : State) (u : Nat) (kept : Bool) (n p : Nat) : (s.closeSlots u kept n).port p = s.port p := by
  obtain ⟨c, h⟩ := s.closeSlots_frame u kept n
  rw [h]
  rfl

@[simp] theorem State.raise0_lnk (s : State) (ev : Ev) (die unit : Nat) (payload : List Nat) : (s.raise0 ev die unit payload).lnk = s.lnk := by
  simp [State.raise0]

/-- An event that reports a path changes the peers, and what an event changes (R297). -/
theorem State.pathEvent_frame (s : State) (dst path : Nat) (up : Bool) (before after : Nat) : ∃ x l v m, s.pathEvent dst path up before after =
    { s with fab := { s.fab with peers := x }, log := l, work := { s.work with vis := v }, mem := m } := by
  unfold State.pathEvent
  extract_lets x die last n
  split
  · exact ⟨_, s.log, s.work.vis, s.mem, rfl⟩
  · obtain ⟨l, v, m, h, -⟩ := State.raise_frame (s.updPeer dst fun x => { x with pathEvAt := Tbl.set x.pathEvAt up s.now })
      (if up then .pathUp else .pathDown) die 0 [dst, path, before, after, 1] []
    exact ⟨_, l, v, m, h⟩

/-- Reporting the paths whose service differs leaves the links and the forwarding entries. -/
theorem pathWatch_leaves (s t : State) : (pathWatch s t).lnk = t.lnk ∧ (pathWatch s t).fab.routes = t.fab.routes := by
  have h : ((pathWatch s t).lnk, (pathWatch s t).fab.routes) = (t.lnk, t.fab.routes) :=
    foldl_keeps (fun u => (u.lnk, u.fab.routes)) _ _ t fun u e => ite_keeps (fun u => (u.lnk, u.fab.routes)) rfl <| by
      obtain ⟨x, l, v, m, h⟩ := u.pathEvent_frame e.1.1 e.1.2 (t.pathUp e.1.1 e.1.2) (s.paths e.1.1).length (t.paths e.1.1).length
      simp only [h]
  exact Prod.mk.inj h

/-- With no forwarding entries there is no path to report. -/
theorem pathWatch_noRoutes (s : State) (h : t.fab.routes = []) : pathWatch s t = t := by
  rw [pathWatch, h, List.foldl_nil]

/-- A port that enters ACTIVE reads as it was, with its sequence numbers and its buffers begun anew (R257, R261). -/
theorem State.enterActive_port (s : State) (p : Nat) : (s.enterActive p).port p = { s.port p with
    st := .active, since := s.now, lastAccept := s.now, txSeq := 0, rxSeq := 0, nak := false, nakDue := false
    replay := [], replayAt := none, flits := 0, control := [], cur := [], part := [], retraining := false } := by
  unfold State.enterActive
  extract_lets s1 x
  obtain ⟨hlnk, -⟩ := pathWatch_leaves s s1
  rw [State.port_congr ((State.raise0_lnk ..).trans hlnk)]
  exact s.updPort_port_same p _

end Sys2Proof.Machine
end

section
/-! SUPPORT. The states of a port's training (R257, R259, R261, R262). -/

namespace Sys2Proof.Machine
open Sys2Proof

variable {s : State} {p : Nat}

@[simp] theorem State.train_port (s : State) (p : Nat) (st : PortSt) : (s.train p st).port p = { s.port p with st := st, since := s.now } :=
  State.updPort_port_same ..

@[simp] theorem State.control_port (s : State) (p : Nat) (c : List Nat) : (s.control p c).port p = { s.port p with control := (s.port p).control ++ [c] } :=
  State.updPort_port_same ..

/-- Equalisation without a lane that failed leads to FEC_LOCK on the largest set, where there is one (R261). -/
theorem State.equalized_locks (h : s.bestSet p ≠ []) :
    s.equalized p [] = (s.updPort p fun x => { x with active := s.bestSet p }).train p .fecLock := by
  unfold State.equalized
  extract_lets s1
  have hs1 : s1 = s := by simp [s1]
  rw [hs1, if_neg (by simpa using h)]

/-- A Rongar's record of another node with version 3, on a port that takes the role FABRIC, is accepted (R262, R263). -/
theorem execCapsRecordReceive_accepts {r : CapsRecord} (hu : Up s) (hst : (s.port p).st = .caps) (hrole : r.role = 1) (hown : r.node ≠ s.node) (hn : r.node < 4096)
    (hroles : bit (s.port p).cfg.roles 0 = true) (hv : r.versions = 8) : Does (.capsRecordReceive p r) s (s.keeping
      ((s.updPort p fun x => { x with version := 3, partner := r.node, partnerRole := 1, partnerPools := r.pools, profile := r.profile }).train p .creditInit)) := by
  have hver : bit 8 3 = true := by decide
  refine does_live rfl hu ?_
  dsimp only
  rw [if_neg (by simp [hst]), if_neg (by simp [hown]), if_neg (by simp [hrole, hroles, hn]), if_neg (by simp [hv])]
  simp [hv, hver, hrole]

/-- CREDIT_INIT over its limit goes back to DETECT (R261). -/
theorem execTrainingTimeout_detects (hu : Up s) (hst : (s.port p).st = .creditInit) (hdue : (s.port p).since + 10000 ≤ s.now) :
    Does (.trainingTimeout p []) s (s.keeping ((s.updPort p fun x => { x with detectAt := s.now }).train p .detect)) := by
  refine does_live rfl hu ?_
  simp only [hst, hdue, decide_true, if_true]

end Sys2Proof.Machine
end

section
open Sys2Proof Sys2Proof.Machine

/-- Settles O18: each state of the training changes its port alone, but ACTIVE, whose event and paths leave the port as it entered. -/
theorem portTraining : Obligations.PortTraining := by
  unfold Obligations.PortTraining
  refine ⟨?signal, ?retry, ?equalized, ?locked, ?record, ?opened, ?limit, ?silent, ?retrained⟩
  case signal =>
    intro p s hu hst hm
    refine ⟨_, does_live rfl hu (if_pos ⟨hst, hm⟩), ?_, ?_, ?_, rfl⟩
    all_goals simp
  case retry =>
    intro p s hu hst hdue
    exact ⟨_, does_live rfl hu (if_pos ⟨hst, hdue⟩), by simp, rfl⟩
  case equalized =>
    intro p s hu hst hbest
    exact ⟨_, does_live rfl hu ((if_pos hst).trans (State.equalized_locks hbest)), by simp, by simp, rfl⟩
  case locked =>
    intro p s hu hst
    exact ⟨_, does_live rfl hu (if_pos hst), by simp, by simp, rfl⟩
  case record =>
    intro p n r s hu hst hrole hnode hown hn hroles hv
    subst hnode
    refine ⟨_, execCapsRecordReceive_accepts hu hst hrole hown hn hroles hv, ?_, ?_, ?_, ?_, rfl⟩
    all_goals simp
  case opened =>
    intro p s hu hst
    refine ⟨_, does_live rfl hu (if_pos hst), ?_, ?_, ?_, ?_⟩
    all_goals simp [State.enterActive_port]
  case limit =>
    intro p s hu hst hdue
    exact ⟨_, execTrainingTimeout_detects hu hst hdue, by simp, by simp, rfl⟩
  case silent =>
    intro p s hu hst hm hr hlate
    exact ⟨_, does_live rfl hu (if_pos ⟨hst, hm, by simp [hr], .inl hlate⟩), by simp [State.retrain], rfl⟩
  case retrained =>
    intro p totals s hu hst hr hfew
    have hd : Does (.fastRetrainDone p true totals) s _ := does_live rfl hu rfl
    rw [if_neg (by simp [hst, hr]), if_neg (by simp), if_neg (by simpa using hfew)] at hd
    refine ⟨_, hd, ?_, ?_, ?_⟩
    all_goals simp
end

section
/-! SUPPORT. Flits at a native port: what their acceptance, their refusal and an IDLE flit leave of the port (R254 to R256, R260). -/

namespace Sys2Proof.Machine
open Sys2Proof

variable {s : State} {p : Nat} {f : Flit}

/-- An acknowledgement leaves the sequence number that is expected. -/
@[simp] theorem Port.applyAck_rxSeq (x : Port) (f : Flit) : (x.applyAck f).rxSeq = x.rxSeq := by
  unfold Port.applyAck
  split
  · rfl
  · extract_lets k
    split <;> split <;> rfl

@[simp] theorem State.bookMove_port (s : State) (k sc i j n p : Nat) : (s.bookMove k sc i j n).port p = s.port p := rfl

/-- A total of credits leaves the sequence number that is expected. -/
@[simp] theorem State.credit_rxSeq (s : State) (p pool total width : Nat) : ((s.credit p pool total width).port p).rxSeq = (s.port p).rxSeq := by
  unfold State.credit
  extract_lets t t' u
  have hu : u.port p = s.port p := State.port_congr (s.telSettle_lnk p (pool / 2)) p
  rw [State.bookMove_port, State.updPort_port_same, hu]

@[simp] theorem State.unitEvent_mem (s : State) (u ev n : Nat) (vi : Option Nat) : (s.unitEvent u ev n vi).mem = s.mem := by
  obtain ⟨c, h⟩ := s.unitEvent_frame u ev n vi
  rw [h]

/-- A flit sent is counted at its port. -/
theorem State.sendFlit_flits (s : State) (p : Nat) (f : Flit) : ((s.sendFlit p f).port p).flits = (s.port p).flits + 1 :=
  congrArg Port.flits (State.updPort_port_same ..)

/-- A sound CONTROL flit in order, on a native port that is ACTIVE (R255). -/
theorem execFlitReceive_inOrder (hu : Up s) (hst : (s.port p).st = .active) (hr : (s.port p).retraining = false) (hm : (s.port p).cfg.mode = 1)
    (hty : f.ftype = 2) (hcrc : f.crc = f.crcOf) (hseq : f.seq = (s.port p).rxSeq) : ∃ t : State, (t.port p).rxSeq = (s.port p).rxSeq ∧
    Does (.flitReceive p true f) s (s.keeping (t.updPort p fun x => { x with rxSeq := (x.rxSeq + 1) % 4096, nak := false, nakDue := false })) := by
  have hd : Does (.flitReceive p true f) s _ := does_live rfl hu rfl
  dsimp only at hd
  rw [if_neg (by simp [hst, hr, hm]), if_neg (by simp [hcrc, hseq, hty]), if_neg (by simp [hty]), if_pos (by simp [hty])] at hd
  exact ⟨_, by simp, hd⟩

/-- A damaged flit, on a native port that is ACTIVE and has not asked for a replay (R255). -/
theorem execFlitReceive_damaged (hu : Up s) (hst : (s.port p).st = .active) (hr : (s.port p).retraining = false) (hm : (s.port p).cfg.mode = 1)
    (hn : (s.port p).nak = false) : Does (.flitReceive p false f) s
      (s.keeping ((s.unitEvent (portUnit p) 0x0807 1 none).updPort p fun x => { x with nak := true, nakDue := true })) := by
  have hd : Does (.flitReceive p false f) s _ := does_live rfl hu rfl
  dsimp only at hd
  rwa [if_neg (by simp [hst, hr, hm]), if_pos (by simp), if_neg (by simp [hn])] at hd

/-- A native port with 1,024 flits unacknowledged and no replay under way (R256). -/
theorem execFlitSend_idles (hu : Up s) (hst : (s.port p).st = .active) (hr : (s.port p).retraining = false) (hm : (s.port p).cfg.mode = 1)
    (hat : (s.port p).replayAt = none) (hfull : 1024 ≤ (s.port p).replay.length) :
    Does (.flitSend p) s (s.keeping (s.sendFlit p ((s.port p).stamp {}))) := by
  have hd : Does (.flitSend p) s _ := does_live rfl hu rfl
  dsimp only at hd
  rw [if_neg (by simp [hst, hr]), if_neg (by simp [hm]), hat] at hd
  dsimp only [Option.bind_none] at hd
  rwa [if_pos hfull] at hd

end Sys2Proof.Machine
end

section
open Sys2Proof Sys2Proof.Machine

/-- Settles O19: what a flit brings besides its sequence number (its acknowledgement, its credits, what is counted) leaves the number that is expected. -/
theorem flits : Obligations.Flits := by
  unfold Obligations.Flits
  refine ⟨?inOrder, ?damaged, ?missing, ?full⟩
  case inOrder =>
    intro p f s hu hst hr hm hty hcrc hseq
    obtain ⟨t, hrx, hd⟩ := execFlitReceive_inOrder hu hst hr hm hty hcrc hseq
    exact ⟨_, hd, by simp [hrx], by simp⟩
  case damaged =>
    intro p f s hu hst hr hm hn
    refine ⟨_, execFlitReceive_damaged hu hst hr hm hn, ?_, ?_, ?_, ?_⟩
    all_goals simp
  case missing =>
    intro p s hu hst hn hdue hlate
    exact ⟨_, does_live rfl hu (if_pos ⟨hst, by simp [hn], by simp [hdue], hlate⟩), by simp, rfl⟩
  case full =>
    exact fun p s hu hst hr hm hat hfull => ⟨_, _, execFlitSend_idles hu hst hr hm hat hfull, rfl, rfl, State.sendFlit_flits .., rfl⟩
end

section
/-! SUPPORT. Paths and frames of a port in Ethernet mode (R267 to R269). -/

namespace Sys2Proof.Machine
open Sys2Proof

variable {s : State} {p n x : Nat} {e : Partner}

/-- The paths of a partner's entry, and memory: what sending frames again leaves. -/
def State.partnerPaths (s : State) (p n : Nat) : Option (Tbl Nat EthPath) × List Host.Cell :=
  ((Tbl.get (s.port p).partners n).map (·.paths), s.mem)

@[simp] theorem State.gram_port (s : State) (kind port : Nat) (bs : List Byte) (p : Nat) : (s.gram kind port bs).port p = s.port p := rfl

/-- A path of a partner's entry is stored. -/
def State.setPath (s : State) (p n x : Nat) (e : Partner) (w : EthPath) : State :=
  s.updPort p fun y => { y with partners := Tbl.set y.partners n { e with paths := Tbl.set e.paths x w } }

@[simp] theorem State.setPath_partner (s : State) (p n x : Nat) (e : Partner) (w : EthPath) :
    Tbl.get ((s.setPath p n x e w).port p).partners n = some { e with paths := Tbl.set e.paths x w } := by
  rw [State.setPath, State.updPort_port_same, Tbl.get_set_same]

/-- A frame sent is counted at its partner, whose paths stand. -/
theorem State.ethFrame_paths (s : State) (p n path seq : Nat) (ps : List Packet) : (s.ethFrame p n path seq ps).partnerPaths p n = s.partnerPaths p n := by
  have hupd : ∀ (t : Tbl Nat Partner) (f : Partner → Partner), (∀ z, (f z).paths = z.paths) →
      (Tbl.get (Tbl.upd t n f) n).map (·.paths) = (Tbl.get t n).map (·.paths) := by
    intro t f hf
    cases h : Tbl.get t n with
    | none => rw [Tbl.upd_none _ _ _ h, h]
    | some z => rw [Tbl.get_upd_some _ _ _ z h, Option.map_some, hf, Option.map_some]
  refine Prod.ext ?_ rfl
  simp only [State.partnerPaths, State.ethFrame, State.draw, State.gram_port, State.updPort_port_same]
  exact hupd _ _ fun _ => rfl

/-- A window sent again leaves its partner's paths. -/
theorem State.resendWindow_paths (s : State) (p n path : Nat) (w : EthPath) : (s.resendWindow p n path w).partnerPaths p n = s.partnerPaths p n :=
  foldl_keeps (State.partnerPaths · p n) _ _ s fun t f => t.ethFrame_paths p n path f.1 f.2

/-- A path without acknowledgement for 50 µs and with resends left counts one more (R269). -/
theorem execEthPathResendTimer_resends (hu : Up s) (he : Tbl.get (s.port p).partners n = some e) (hw : (Tbl.at e.paths x {}).window ≠ [])
    (hin : (Tbl.at e.paths x {}).out = false) (hlate : (Tbl.at e.paths x {}).sentAt + 50000 ≤ s.now) (hleft : (Tbl.at e.paths x {}).sends < 8) :
    ∃ t e', Does (.ethPathResendTimer p n x) s t ∧ Tbl.get (t.port p).partners n = some e' ∧
      (Tbl.at e'.paths x {}).sends = (Tbl.at e.paths x {}).sends + 1 ∧ t.mem = s.mem := by
  have hd : Does (.ethPathResendTimer p n x) s _ := does_live rfl hu rfl
  simp only [he] at hd
  rw [if_neg (by simp [hw, hin, hlate]), if_neg (by omega), ← State.setPath] at hd
  obtain ⟨hpaths, hmem⟩ := Prod.mk.inj (State.resendWindow_paths (s.setPath p n x e _) p n x (Tbl.at e.paths x {}))
  rw [State.setPath_partner, Option.map_some] at hpaths
  obtain ⟨e', he', hsame⟩ := Option.map_eq_some_iff.mp hpaths
  exact ⟨_, e', hd, he', by rw [hsame, Tbl.at_set_same], hmem⟩

/-- A path whose hold-down has ended is tried again; on a node without forwarding entries that is all (R269, R297). -/
theorem execEthPathHoldDownExpiry_returns (hu : Up s) (he : Tbl.get (s.port p).partners n = some e) (hout : (Tbl.at e.paths x {}).out = true)
    (hdue : (Tbl.at e.paths x {}).holdUntil ≤ s.now) (hroutes : s.fab.routes = []) : Does (.ethPathHoldDownExpiry p n x) s (s.keeping
      (s.setPath p n x e { (Tbl.at e.paths x {} : EthPath) with out := false, upAt := s.now })) := by
  have hd : Does (.ethPathHoldDownExpiry p n x) s _ := does_live rfl hu rfl
  simp only [he] at hd
  rwa [if_pos ⟨hout, hdue⟩, ← State.setPath, pathWatch_noRoutes s (t := s.setPath p n x e _) hroutes] at hd

end Sys2Proof.Machine
end

section
open Sys2Proof Sys2Proof.Machine

/-- Settles O21: a frame or a timer changes its port alone; sending a window again and entering ACTIVE leave what the clause reads of it. -/
theorem ethernetPorts : Obligations.EthernetPorts := by
  unfold Obligations.EthernetPorts
  refine ⟨?pause, ?damaged, ?silent, ?returned, ?linkUp⟩
  case pause =>
    intro p frame ok s hu hst hm hpause
    have hd : Does (.ethFrameReceive p frame ok) s _ := does_live rfl hu ((if_neg (by simp [hst, hm])).trans (if_pos hpause))
    exact ⟨_, hd, by simp, rfl⟩
  case damaged =>
    intro p frame s hu hst hm hdata
    have hd : Does (.ethFrameReceive p frame false) s _ :=
      does_live rfl hu ((if_neg (by simp [hst, hm])).trans ((if_neg hdata).trans (if_pos (by simp))))
    exact ⟨_, hd, by simp, rfl⟩
  case silent => exact fun p n x e s hu he hw hin hlate hleft => execEthPathResendTimer_resends hu he hw hin hlate hleft
  case returned =>
    intro p n x e s hu he hout hdue hroutes
    exact ⟨_, _, execEthPathHoldDownExpiry_returns hu he hout hdue hroutes, State.setPath_partner .., by simp, rfl⟩
  case linkUp =>
    intro p s hu hm hst hex hup
    have hd : Does (.ethernetLinkUp p) s _ := does_live rfl hu (if_neg (by simp [hm, hst, hex, hup]))
    refine ⟨_, hd, ?_, ?_, ?_⟩
    all_goals simp [State.enterActive_port]
end

section
/-! SUPPORT. The loss of PPS by a third rejected edge, told to a VI that subscribed to its event (R401, R481, R504). -/

namespace Sys2Proof.Machine
open Sys2Proof

/-- A node that runs with PPS_IN acquired, 0.9 s after the last edge it accepted and with two edges rejected since; its ACTIVE VI 1 has subscribed to
EV_PPS_LOST with an async ring of 16 entries in DRAM. -/
def ppsSubscribed : State :=
  let ring : Ring := { base := mkAddr 0 1 0, log2 := 4, tail := mkAddr 0 1 4096 }
  { State.reset with
    now := 999900000000
    time := { ppsEnable := true, ppsAcquired := true, ppsLast := some 999000000000, ppsRejected := [999600000000, 999300000000] }
    work := { State.reset.work with vis := [(1, { st := .active, subscribed := [Ev.ppsLost.code], asyncRing := some ring })] } }

/-- A rejected edge there loses PPS, and the event's record goes into the async ring. -/
theorem ppsSubscribed_told {t : State} (h : Does (.ppsInEdge 100 100) ppsSubscribed t) : (t.vi 1).asyncRing.map (·.written) = some 1 := by
  have ht : ppsSubscribed.whenLive _ = t := Host.Outcome.next.inj h
  rw [← ht]
  decide +kernel

end Sys2Proof.Machine
end

section
open Sys2Proof Sys2Proof.Machine

/-- Refutes O22: the clause of a rejected PPS edge leaves the work and memory as they stand also where the edge is the third within 10 s; but a PPS that was
acquired is then lost with EV_PPS_LOST, whose record goes into the async ring of every VI that subscribed to it. -/
theorem not_fabricTime : ¬ Obligations.FabricTime := by
  unfold Obligations.FabricTime
  rintro ⟨-, -, -, -, -, -, hrejected, -⟩
  obtain ⟨t, hd, -, -, -, hwork, -⟩ := hrejected 100 100 999000000000 ppsSubscribed (by decide +kernel) rfl le_rfl le_rfl (by decide) rfl (by decide +kernel)
  have hstill : (t.vi 1).asyncRing = (ppsSubscribed.vi 1).asyncRing := congrArg Vi.asyncRing (State.vi_congr (congrArg Work.vis hwork) 1)
  have htold := ppsSubscribed_told hd
  rw [hstill] at htold
  exact absurd htold (by decide +kernel)
end

section
/-! SUPPORT. What a port's leaving service leaves of the splits and of every port's configuration (R251, R260, R266, R280, R297). -/

namespace Sys2Proof.Machine
open Sys2Proof

variable {s t : State}

/-- The splits in force and each port's configuration. -/
def State.wiring (s : State) : List Nat × (Nat → PortCfg) := (s.lnk.split, fun p => (s.port p).cfg)

theorem State.wiring_congr (hports : t.lnk.ports = s.lnk.ports) (hsplit : t.lnk.split = s.lnk.split) : t.wiring = s.wiring := by
  simp only [State.wiring, State.port, hports, hsplit]

/-- A change of a port but its configuration. -/
theorem State.updPort_wiring (s : State) (p : Nat) (f : Port → Port) (hf : (f (s.port p)).cfg = (s.port p).cfg) : (s.updPort p f).wiring = s.wiring :=
  Prod.ext rfl (funext fun q => s.updPort_keeps Port.cfg p f hf q)

theorem State.closePools_wiring (s : State) (p : Nat) : (s.closePools p).wiring = s.wiring :=
  (State.updPort_wiring _ p _ rfl).trans (foldl_keeps State.wiring _ _ s fun _ _ => rfl)

theorem State.drainPools_wiring (s : State) (p : Nat) : (s.drainPools p).wiring = s.wiring :=
  ite_keeps State.wiring rfl ((State.updPort_wiring _ p _ rfl).trans (foldl_keeps State.wiring _ _ s fun _ _ => rfl))

/-- Packets sent again go into the egress queues, or wait in transit. -/
theorem State.respray_wiring (s : State) (ps : List Packet) : (s.respray ps).wiring = s.wiring := by
  refine foldl_keeps State.wiring _ _ s fun t p => ite_keeps State.wiring ?_ rfl
  obtain ⟨f, h⟩ := t.pickPath_frame p
  dsimp only
  rw [h]
  split
  · rfl
  · split <;> rfl

theorem State.leaveActive_wiring (s : State) (p reason : Nat) (next : PortSt) : (s.leaveActive p reason next).wiring = s.wiring := by
  unfold State.leaveActive
  extract_lets x waiting eth unacked s1 l s2 s3
  have hs2 : s2.wiring = s.wiring := Eq.trans (b := s1.wiring) rfl ((State.updPort_wiring (s.closePools p) p _ rfl).trans (s.closePools_wiring p))
  have hs3 : s3.wiring = s2.wiring := by
    obtain ⟨hlnk, -⟩ := pathWatch_leaves s s2
    have h : s3.lnk = s2.lnk := (State.raise0_lnk ..).trans hlnk
    exact State.wiring_congr (by rw [h]) (by rw [h])
  refine ite_keeps State.wiring (s.updPort_wiring p _ rfl) ?_
  rw [State.drainPools_wiring, State.respray_wiring, hs3, hs2]

theorem State.widthCheck_wiring (s : State) (p : Nat) : (s.widthCheck p).wiring = s.wiring := by
  have hleave : ∀ reason next, (s.leaveActive p reason next).wiring = s.wiring := s.leaveActive_wiring p
  exact ite_keeps State.wiring (ite_keeps State.wiring rfl (hleave _ _))
    (ite_keeps State.wiring (hleave _ _) (ite_keeps State.wiring (hleave _ _) rfl))

/-! ### A new configuration (R280) -/

/-- A port configured anew has the configuration given, and the splits stand. -/
theorem State.reconfigure_wiring (s : State) (p : Nat) (cfg : PortCfg) :
    (s.reconfigure p cfg).lnk.split = s.lnk.split ∧ ((s.reconfigure p cfg).port p).cfg = cfg := by
  unfold State.reconfigure
  extract_lets s1
  obtain ⟨hsplit, -⟩ := Prod.mk.inj (s.leaveActive_wiring p 6 (if cfg.mode = 0 then .disabled else .detect))
  obtain ⟨hkept, hcfg⟩ := Prod.mk.inj (State.widthCheck_wiring (s1.updPort p _) p)
  exact ⟨hkept.trans hsplit, (congrFun hcfg p).trans (by rw [State.updPort_port_same])⟩

/-- Splitting or joining a port makes the ports of the form asked for exist (R251). -/
theorem State.setSplit_split (s : State) (p : Nat) : (s.setSplit p).lnk.split.contains (portBase p) = decide (portHalf p ≠ 0) := by
  unfold State.setSplit
  extract_lets n half gone s1 l s2
  have hs2 : s2.lnk.split = if half then s.lnk.split ++ [n] else s.lnk.split.filter (fun q => q != n) := by
    have hs1 : s1.lnk.split = s.lnk.split := foldl_keeps (·.lnk.split) _ _ s fun t q => (Prod.mk.inj (t.leaveActive_wiring q 6 .disabled)).1
    rw [← hs1]
  have hhalf : decide (portHalf p ≠ 0) = half := rfl
  rw [hhalf]
  split
  next hsame => exact (beq_iff_eq.mp hsame).symm
  next hother =>
    have hkept : ∀ t : State, t.lnk.split = s2.lnk.split → t.lnk.split.contains (portBase p) = half := by
      intro t ht
      rw [ht, hs2]
      cases half <;> simp [n]
    split
    · exact hkept _ rfl
    · exact hkept _ rfl

end Sys2Proof.Machine
end

section
/-! SUPPORT. The operations of ports, routes and windows where their checks pass (R265, R270, R280, R295 to R304). -/

namespace Sys2Proof.Machine
open Sys2Proof

variable {s : State} {c : Caller} {op result w : Nat} {f : Form} {i : Instr} {g : State → AdhOut} {body : List Nat}

/-! ### Reads whose answer fits the mailbox (R396) -/

/-- An answer whose body fits the mailbox changes Adeah's state alone. -/
theorem State.mboxAnswer_fits (s : State) (v m q op : Nat) (st : Status) (result handle : Nat) (hb : 8 * body.length ≤ 1984) :
    ∃ a, s.mboxAnswer v m q op st result handle body = { s with adh := a } := by
  unfold State.mboxAnswer
  extract_lets x bs h h' far _ s1
  have hfar : far.isEmpty = true := by
    have hlen : bs.length ≤ 1984 := (List.length_take_le' _ _).trans (by rwa [length_bytesOfWords])
    simpa [far] using hlen
  rw [if_pos hfar]
  exact ⟨_, rfl⟩

/-- A read through a mailbox whose answer fits it changes Adeah's state alone. -/
theorem does_read_fits (hi : exec i s = .next (s.adhRun op f c g)) (ha : AskedBox s op f c) (hg : g s = ⟨.ok, result, body, s⟩) (hb : 8 * body.length ≤ 1984) :
    ∃ a, Does i s { s with adh := a } ∧ State.replied { s with adh := a } c .ok result body := by
  obtain ⟨hasked, hs, ho⟩ := ha
  have hbox : s.respond c op .ok result body = s.mboxAnswer c.vi c.mbox c.mbSeq op .ok result 0 body := by simp [State.respond, ho, hs]
  obtain ⟨a, e⟩ := s.mboxAnswer_fits c.vi c.mbox c.mbSeq op .ok result 0 hb
  refine ⟨a, ?_, e ▸ s.mboxAnswer_mbox ..⟩
  rw [Does, hi, State.adhRun_asked s op f c g hasked, hg, if_neg (by simp), hbox, e]
  rfl

/-! ### Ports (R270, R280) -/

/-- The configuration that ADH_PORT_CONFIG's fields stand for. -/
def portCfgOf (mode roles rate minWidth : Nat) (pools : List Nat) (endpoint : Option Nat) (eth : List Nat) : PortCfg :=
  { mode := mode, roles := roles, rate := rate, minWidth := minWidth, poolUnits := pools, endpoint := endpoint, ethType := word eth 0, mtu := word eth 1
    udpPort := word eth 2, vlan := if word eth 3 = 0 then none else some (word eth 3), dscp := eth.drop 4 }

/-- Fields in their ranges: the port asked for exists and has the configuration given. -/
theorem doPortConfig_ok {port mode roles rate minWidth : Nat} {pools : List Nat} {endpoint : Option Nat} {eth : List Nat}
    (h : portFieldsOk port mode roles rate minWidth pools endpoint eth = true) : ∃ t, doPortConfig port mode roles rate minWidth pools endpoint eth s = adhOk t ∧
      t.portExists port = true ∧ (t.port port).cfg = portCfgOf mode roles rate minWidth pools endpoint eth := by
  obtain ⟨hsplit, hcfg⟩ := (s.setSplit port).reconfigure_wiring port (portCfgOf mode roles rate minWidth pools endpoint eth)
  have hbase : portBase port < 18 := by
    by_contra hn
    simp [portFieldsOk, hn] at h
  have hhalf : portHalf port < 3 := by
    by_contra hn
    simp [portFieldsOk, hn] at h
  refine ⟨(s.setSplit port).reconfigure port (portCfgOf mode roles rate minWidth pools endpoint eth), if_neg (by simp [h]), ?_, hcfg⟩
  rw [State.portExists, hsplit, State.setSplit_split]
  by_cases hh : portHalf port = 0 <;> simp [hbase, hhalf, hh]

/-- An entry whose fields are in range, on a port in Ethernet mode. -/
theorem doPartnerSet_ok {port entry : Nat} {v : List Nat} (hex : s.portExists port = true) (hm : (s.port port).cfg.mode = 2) (he : entry ≤ 63) (hlen : v.length = 6)
    (h0 : word v 0 < 2 ^ 128) (h1 : word v 1 < 2 ^ 48) (h2 : 1 ≤ word v 2) (h2' : word v 2 ≤ 3) (h3 : word v 3 ≤ 4094) (h4 : word v 4 ≤ 63) (h5 : word v 5 ≤ 31) :
    doPartnerSet port entry (some v) s = adhOk (s.updPort port fun x => { x with
      partners := Tbl.set x.partners entry { ipv6 := word v 0, mac := word v 1, role := word v 2, src := (word v 3, word v 4), endpoint := word v 5, mtu := (s.port port).cfg.mtu } }) :=
  (if_neg (by simp [hex, hm, he])).trans (if_neg (by
    push Not
    exact ⟨hlen, h0, h1, by unfold word at h2; omega, h2', h3, h4, h5⟩))

/-! ### Routes (R295 to R297) -/

/-- An entry loaded or removed is what the forwarding table holds, whatever paths are reported. -/
theorem doRouteLoad_one {dst path : Nat} {port : Option Nat} (hd : dst ≤ 4094) (hp : path ≤ 15)
    (hport : port.all (fun x => decide (portBase x ≤ 17) && decide (portHalf x ≤ 2)) = true) :
    ∃ t, doRouteLoad [(dst, path, port)] s = adhOk t ∧ Tbl.get t.fab.routes (dst, path) = port := by
  unfold doRouteLoad
  extract_lets tbl fab t gone
  refine ⟨_, if_neg ?_, ?_⟩
  · cases port with
    | none => simp [hd, hp]
    | some x => simpa [hd, hp] using hport
  · have hkept : ∀ (u : State) (e : Nat × Nat), (u.pathEvent e.1 e.2 false (s.paths e.1).length (t.paths e.1).length).fab.routes = u.fab.routes := by
      intro u e
      obtain ⟨x, l, v, m, h⟩ := u.pathEvent_frame e.1 e.2 false (s.paths e.1).length (t.paths e.1).length
      rw [h]
    obtain ⟨-, hwatch⟩ := pathWatch_leaves s t
    rw [foldl_keeps (·.fab.routes) gone _ _ hkept, hwatch]
    cases port with
    | none => exact Tbl.get_del_same ..
    | some x => exact Tbl.get_set_same ..

/-! ### Windows (R302 to R304) -/

@[simp] theorem State.keeping_window (s t : State) (w : Nat) : (s.keeping t).window w = t.window w := rfl

/-- Windows are read as the operation left them, whatever its answer changes. -/
@[simp] theorem State.answered_window (t : State) (a : Adeah) (l : Log) (w : Nat) : State.window { t with adh := a, log := l } w = t.window w := rfl

/-- A window that is changed reads as it was changed. -/
@[simp] theorem State.updWindow_window_same (s : State) (w : Nat) (f : Window → Window) : (s.updWindow w f).window w = f (s.window w) := Tbl.at_set_same ..

/-- A change that no other waits before, of a window whose generation may rise, is applied (R304). -/
theorem State.changeWindow_window {h : WinHeld} (hnone : (s.window w).held = []) (hrise : (s.window w).mayRise s.now = true) :
    (s.changeWindow w h).window w = (s.window w).change s.now h := by
  rw [State.changeWindow, State.updWindow_window_same, if_neg (by simp [hnone, hrise])]

theorem doWindowOpen_opens {base limit owner rights comp listMask : Nat} {srcs : List SrcId} (hw : w ≤ 4094) (ho : owner ≤ 255) (hr : rights ≤ 15) (hc : comp ≤ 65534)
    (hl : listMask ≤ 65535) (hn : srcs.length ≤ 8) (hs : srcs.all (fun x => decide (x.1 ≤ 4094) && decide (x.2 ≤ 63)) = true) (hrange : s.windowRange base limit = true)
    (hst : (s.window w).st ≠ .draining) (hnone : (s.window w).held = []) (hrise : (s.window w).mayRise s.now = true) :
    ∃ t, doWindowOpen w base limit owner rights comp listMask srcs s = adhOk t ∧ t.mem = s.mem ∧ t.window w = (s.window w).change s.now
      (.replace { base := base, limit := limit, owner := owner, rights := rights, composition := comp, listMask := listMask, srcs := srcs }) := by
  unfold doWindowOpen
  extract_lets e s1
  rw [if_neg (by push Not; exact ⟨hw, ho, hr, hc, hl, hn, by simpa using hs, by simp [hrange], hst⟩)]
  split
  · exact ⟨_, rfl, rfl, State.changeWindow_window hnone hrise⟩
  · exact ⟨_, rfl, rfl, State.changeWindow_window hnone hrise⟩

/-- An OPEN window revoked through its owner's mailbox is DRAINING under its next generation, and the revoke waits for it. -/
theorem doWindowRevoke_drains (ho : c.order = none) (hw : w ≤ 4094) (hst : (s.window w).st = .opened) (hown : (s.window w).e.owner = c.vi)
    (hnone : (s.window w).held = []) (hrise : (s.window w).mayRise s.now = true) :
    ∃ t r, doWindowRevoke c w s = ⟨.adhAccepted, 0, [], t⟩ ∧ t.mem = s.mem ∧ t.window w = { s.window w with
      st := .draining, gen := nextGen (s.window w).gen, genAt := some s.now, revokeOps := (s.window w).revokeOps ++ [r] } := by
  unfold doWindowRevoke
  extract_lets x wait s1
  have hread : s1.window w = { s.window w with
      st := .draining, gen := nextGen (s.window w).gen, genAt := some s.now, revokeOps := (s.window w).revokeOps ++ [s.refOf c 0x0708] } := by
    simp only [s1, wait, State.updWindow_window_same, State.changeWindow_window hnone hrise, State.refIf, ho]
    simp [Window.change, hst]
  rw [if_neg (by omega), if_neg (by simp [x, hst]), if_neg (by simp [State.ownsWindow, hown]), if_neg (by simp [x, hst]), if_neg (by simp [x, hst])]
  refine ⟨s1, s.refOf c 0x0708, ?_, rfl, hread⟩
  split
  · simp [ho]
  · rfl

/-- A window closed by an order; the order waits for its drain. -/
theorem doWindowClose_changes (hw : w ≤ 4094) (hnone : (s.window w).held = []) (hrise : (s.window w).mayRise s.now = true) :
    ∃ t, doWindowClose w s = adhOk t ∧ t.mem = s.mem ∧ t.window w = (s.window w).change s.now .close := by
  unfold doWindowClose
  extract_lets s1
  have hread : s1.window w = (s.window w).change s.now .close := State.changeWindow_window hnone hrise
  rw [if_neg (by omega)]
  split
  · split
    · exact ⟨_, rfl, rfl, hread⟩
    · exact ⟨_, rfl, rfl, hread⟩
  · exact ⟨_, rfl, rfl, hread⟩

/-- A REVOKED window renewed by its owner. -/
theorem doWindowRenew_opens (hw : w ≤ 4094) (hst : (s.window w).st = .revoked) (hown : (s.window w).e.owner = c.vi) :
    ∃ t, doWindowRenew c w s = adhOk t ∧ t.mem = s.mem ∧ t.window w = { s.window w with st := .opened } := by
  unfold doWindowRenew
  extract_lets x
  rw [if_neg (by simp [x, hst, hw]), if_neg (by simp [State.ownsWindow, hown]), if_neg (by simp [x, hst])]
  exact ⟨_, rfl, rfl, s.updWindow_window_same w _⟩

/-- A window read by its owner. -/
theorem doWindowRead_words (hw : w ≤ 4094) (hown : (s.window w).e.owner = c.vi) : doWindowRead c w s = ⟨.ok, 0, (s.window w).words, s⟩ := by
  rw [doWindowRead, if_neg (by omega), if_neg (by simp [State.ownsWindow, hown])]

end Sys2Proof.Machine
end

section
open Sys2Proof Sys2Proof.Machine

/-- Settles O35: each operation's checks pass on the premises; a new configuration outlives the port's leaving service, a route the report of its path, and a
window's change its waiting operation. -/
theorem fabricOperations : Obligations.FabricOperations := by
  unfold Obligations.FabricOperations
  refine ⟨?config, ?status, ?partner, ?route, ?policy, ?time, ?opens, ?revoke, ?renew, ?close, ?read⟩
  case config =>
    intro c port mode roles rate minWidth pools endpoint eth s ha hfields
    obtain ⟨t, hg, hex, hcfg⟩ := doPortConfig_ok (s := s) hfields
    obtain ⟨a, l, hd⟩ := does_answered (i := .adhPortConfig c port mode roles rate minWidth pools endpoint eth) rfl ha hg nofun
    exact ⟨_, hd, hex, hcfg⟩
  case status =>
    intro c port s ha hex
    have hg : doPortStatus port s = ⟨.ok, s.portWord port, [s.portWord port], s⟩ := if_neg (by simp [hex])
    obtain ⟨a, hd, hreply⟩ := does_read_fits (i := .adhPortStatus c port) rfl ha hg (by simp)
    exact ⟨_, hd, hreply, rfl, rfl⟩
  case partner =>
    intro c port entry v s ha hex hm he hlen h0 h1 h2 h2' h3 h4 h5
    exact ⟨_, does_order (i := .adhPartnerSet c port entry (some v)) rfl ha (doPartnerSet_ok hex hm he hlen h0 h1 h2 h2' h3 h4 h5), by simp, rfl⟩
  case route =>
    intro c dst path port s ha hdst hpath hport
    obtain ⟨t, hg, hroute⟩ := doRouteLoad_one (s := s) hdst hpath hport
    obtain ⟨a, l, hd⟩ := does_answered (i := .adhRouteLoad c [(dst, path, port)]) rfl ha hg nofun
    exact ⟨_, hd, hroute⟩
  case policy =>
    intro c deadBound msgTimeout rnrLimit s ha h1 h2 h3 h4 h5 h6
    have hg : doFabricPolicy deadBound msgTimeout rnrLimit s = adhOk _ := if_neg (by omega)
    obtain ⟨a, l, hd⟩ := does_answered (i := .adhFabricPolicy c deadBound msgTimeout rnrLimit) rfl ha hg nofun
    exact ⟨_, hd, rfl, rfl⟩
  case time =>
    intro c domain pps p1 p2 utc s ha hdom h1 h2 hutc
    have hg : doTimeConfig domain [] pps p1 p2 none utc s = adhOk _ := if_neg (by simp [hdom, h1, h2, hutc])
    obtain ⟨a, l, hd⟩ := does_answered (i := .adhTimeConfig c domain [] pps p1 p2 none utc) rfl ha hg nofun
    exact ⟨_, hd, rfl, rfl, rfl, rfl, rfl, rfl, rfl⟩
  case opens =>
    intro c w base limit owner rights comp listMask srcs s ha hw ho hr hc hl hn hs hrange hst hnone hrise
    obtain ⟨t, hg, hmem, hread⟩ := doWindowOpen_opens hw ho hr hc hl hn hs hrange hst hnone hrise
    refine ⟨_, does_order (i := .adhWindowOpen c w base limit owner rights comp listMask srcs) rfl ha hg, ?_⟩
    simp [hread, hmem, Window.change, hst]
  case revoke =>
    intro c w s ha hw hst hown hnone hrise
    obtain ⟨hasked, -, ho⟩ := ha
    obtain ⟨t, r, hg, hmem, hread⟩ := doWindowRevoke_drains ho hw hst hown hnone hrise
    have hi : exec (.adhWindowRevoke c w) s = .next (s.adhRun 1800 .user c (doWindowRevoke c w)) := congrArg Host.Outcome.next (if_neg (by simp [ho]))
    obtain ⟨a, l, hd⟩ := does_answered hi hasked hg nofun
    refine ⟨_, hd, ?_, ?_, ?_, hmem⟩
    all_goals simp [hread]
  case renew =>
    intro c w s ha hw hst hown
    obtain ⟨t, hg, hmem, hread⟩ := doWindowRenew_opens hw hst hown
    obtain ⟨a, l, hd⟩ := does_answered (i := .adhWindowRenew c w) rfl ha.1 hg nofun
    exact ⟨_, hd, by simp [hread], hmem⟩
  case close =>
    intro c w s ha hw hst hnone hrise
    obtain ⟨t, hg, hmem, hread⟩ := doWindowClose_changes hw hnone hrise
    refine ⟨_, does_order (i := .adhWindowClose c w) rfl ha hg, ?_⟩
    simp [hread, hmem, Window.change, hst]
  case read =>
    intro c w s ha hw hown
    obtain ⟨a, hd, hreply⟩ := does_read_fits (i := .adhWindowRead c w) rfl ha (doWindowRead_words hw hown) (by simp [Window.words])
    exact ⟨_, hd, hreply, rfl, rfl⟩
end

section
/-! SUPPORT. What an admitted request for lines of memory writes (R218, R286, R289). -/

namespace Sys2Proof.Machine
open Sys2Proof

variable {s t : State} {p : Packet} {port : Nat} {ty : PktType}

/-- Where a line operation writes, and which bytes; none where it writes nothing (R289). -/
def State.lineWrite (s : State) (p : Packet) : Nat × List Byte :=
  match p.ty with
  | .store | .storeFlag => (p.addr / 64 * 64, merge p.operand (s.rd (p.addr / 64 * 64) 64) p.payload)
  | .cas => (p.addr / 64 * 64, if s.rd (p.addr / 64 * 64) 64 == p.payload.take 64 then p.payload.drop 64 else [])
  | .fetchAdd => (p.addr, bytesOf 8 (u64 (valOf (s.rd p.addr 8) + p.operand)))
  | .swap => (p.addr / 64 * 64, p.payload)
  | .write => (p.addr, p.payload)
  | _ => (p.addr, [])

/-- A request that its space takes, on lines of DRAM or SRAM that can be read, writes what its type says, and nothing else. -/
theorem State.perform_mem (hform : s.formFault p = false) (hok : requestFormOk p = true) (hty : p.ty ≠ .sendData) (hsp : addrSpace p.addr = 1 ∨ addrSpace p.addr = 3)
    (hread : s.readFault (p.addr / 64 * 64) (max (touchLen p) 64) = none) (hlost : s.lineLost p.addr false = false) :
    (s.perform p).s.mem = memPuts s.mem (s.lineWrite p).1 (s.lineWrite p).2 := by
  have hspace : ¬ (addrSpace p.addr = 4 ∨ addrSpace p.addr = 5) := by omega
  unfold State.perform
  extract_lets a line c n whole fault u old hit
  have hfault : fault = none := by
    unfold fault
    split
    · exact if_neg (by simp [a, hlost])
    · exact hread
  have hu : u.mem = s.mem := by
    obtain ⟨c, hcount⟩ := s.countRead_frame line (max n 64) p.srcVi
    unfold u
    rw [hcount]
    exact ite_keeps (·.mem) rfl rfl
  have hrd : ∀ x k, u.rd x k = s.rd x k := fun x k => by rw [State.rd, hu, State.rd]
  rw [if_neg (by simp [hform]), if_neg hspace, hfault, State.lineWrite]
  cases hp : p.ty with
  | load => exact hu
  | read => exact hu
  | store => simp only [State.store_mem, hu, old, hrd, line, a]
  | storeFlag => simp only [State.store_mem, hu, old, hrd, line, a]
  | cas =>
    simp only [hit, old, hrd, line, a]
    split
    · rw [State.store_mem, hu]
    · exact hu
  | fetchAdd => simp only [State.store_mem, hu, hrd, a]
  | swap => simp only [State.store_mem, hu, line, a]
  | write => simp only [State.store_mem, hu, a]
  | sendData => exact absurd hp hty
  | msgCtrl => simp [requestFormOk, hp] at hok
  | unlisted code => simp [requestFormOk, hp] at hok

theorem State.lineWrite_congr (h : t.mem = s.mem) (p : Packet) : t.lineWrite p = s.lineWrite p := by
  unfold State.lineWrite State.rd
  rw [h]

/-- A line operation's command writes what its type says. -/
theorem does_lineWrite {i : Instr} {a : Nat} {bs : List Byte} (hi : exec i s = .next (s.whenLive fun s => s.receiveAs ty port p)) (hu : Up s) (hty : p.ty = ty)
    (hadm : Admitted port p s) (hread : Readable port p s) (hline : ty ≠ .sendData) (hwrite : s.lineWrite p = (a, bs)) :
    ∃ t, Does i s t ∧ t.mem = memPuts s.mem a bs := by
  refine ⟨_, does_live hi hu (if_pos ⟨hty, by simp [resp_of_admitted hadm]⟩), ?_⟩
  have hmem : (s.receive port p).mem = ((s.taken port p).perform p).s.mem := congrArg (fun x => x.2.2) (State.receive_admitted hadm)
  obtain ⟨-, hok, -, -, -, -, -, hform, -⟩ := hadm
  obtain ⟨hsp, hlines, hlost⟩ := hread
  have htaken : (s.taken port p).mem = s.mem := (s.taken_fields port p).2.2.1
  refine hmem.trans ?_
  rw [State.perform_mem hform hok (hty ▸ hline) hsp hlines hlost, State.lineWrite_congr htaken, htaken, hwrite]

/-- An admitted request that carries a payload carries as many bytes as it says (R286). -/
theorem payload_of_admitted (h : Admitted port p s) (hty : p.ty = .cas ∨ p.ty = .swap ∨ p.ty = .write) :
    p.payload.length = if p.ty = .cas then 128 else if p.ty = .swap then 64 else p.payloadLen := by
  obtain ⟨-, hok, -⟩ := h
  obtain hty | hty | hty := hty <;> simp [requestFormOk, hty] at hok <;> simp [hty, hok]

/-! ### Reading what was written -/

/-- After a write each byte reads as written where the write reaches, and as before elsewhere. -/
theorem State.rd1_memPuts {a : Nat} {bs : List Byte} (hw : Memory.wf s.mem) (h : t.mem = memPuts s.mem a bs) (x : Nat) :
    t.rd1 x = if a ≤ x ∧ x < a + bs.length then bs.getD (x - a) 0#8 else s.rd1 x := by
  rw [State.rd1, h]
  split
  next hin =>
    obtain ⟨i, rfl⟩ := Nat.exists_eq_add_of_le hin.1
    rw [memGet_memPuts_same bs s.mem a i hw (by omega), Nat.add_sub_cancel_left]
  next hout => exact memGet_memPuts_other bs s.mem a x (by omega)

/-- The enabled bytes of a merged line are the new ones, the others those that stood (R289). -/
theorem merge_getD (mask : Nat) (old new : List Byte) {i : Nat} (hi : i < 64) :
    (merge mask old new).getD i 0#8 = if bit mask i then new.getD i 0#8 else old.getD i 0#8 := by
  simp [merge, hi]

/-- A masked store to an aligned line writes the bytes its mask enables and no other. -/
theorem State.rd1_merged {a mask : Nat} {new : List Byte} (hw : Memory.wf s.mem) (h : t.mem = memPuts s.mem a (merge mask (s.rd a 64) new)) (x : Nat) :
    t.rd1 x = if a ≤ x ∧ x < a + 64 ∧ bit mask (x - a) = true then new.getD (x - a) 0#8 else s.rd1 x := by
  have hlen : (merge mask (s.rd a 64) new).length = 64 := by simp [merge]
  rw [State.rd1_memPuts hw h, hlen]
  by_cases hin : a ≤ x ∧ x < a + 64
  · obtain ⟨hle, hlt⟩ := hin
    rw [if_pos ⟨hle, hlt⟩, merge_getD _ _ _ (by omega), State.rd_getD _ _ (by omega), Nat.add_sub_cancel' hle]
    simp [hle, hlt]
  · rw [if_neg hin, if_neg fun hx => hin ⟨hx.1, hx.2.1⟩]

/-- A word of 8 bytes written is the word read, kept to 64 bits (R7). -/
theorem State.rdWords_memPuts {a v : Nat} (hw : Memory.wf s.mem) (h : t.mem = memPuts s.mem a (bytesOf 8 (u64 v))) : t.rdWords a 1 = [v % 2 ^ 64] := by
  have hrd : t.rd a 8 = bytesOf 8 (u64 v) := by
    have hsame := State.rd_wr_same s a (bytesOf 8 (u64 v)) hw
    rw [length_bytesOf] at hsame
    rw [State.rd, h]
    exact hsame
  have hval : wordsOf 1 (bytesOf 8 (u64 v)) = [valOf (bytesOf 8 (u64 v))] := by simp [wordsOf, List.take_of_length_le, length_bytesOf]
  rw [State.rdWords, hrd, hval, valOf_bytesOf, u64]
  norm_num

/-- One word read is the value of its 8 bytes. -/
theorem State.word_rdWords_one (s : State) (a : Nat) : word (s.rdWords a 1) 0 = valOf (s.rd a 8) := by
  simp [State.rdWords, wordsOf, word, List.take_of_length_le, State.rd]

end Sys2Proof.Machine
end

section
open Sys2Proof Sys2Proof.Machine

/-- Settles O23: an admitted request writes what its type says (`State.lineWrite`), and a byte reads as written there and as before elsewhere. -/
theorem lineOperations : Obligations.LineOperations := by
  unfold Obligations.LineOperations
  refine ⟨?load, ?store, ?storeFlag, ?cas, ?fetchAdd, ?swap, ?write, ?read⟩
  case load => exact fun port p s hu hty hadm hread => does_lineWrite (i := .load port p) rfl hu hty hadm hread nofun (bs := []) (by rw [State.lineWrite, hty])
  case read => exact fun port p s hu hty hadm hread => does_lineWrite (i := .read port p) rfl hu hty hadm hread nofun (bs := []) (by rw [State.lineWrite, hty])
  case store =>
    intro port p s hu hty hw hadm hread
    obtain ⟨t, hd, hmem⟩ := does_lineWrite (i := .store port p) rfl hu hty hadm hread nofun
      (by rw [State.lineWrite, hty, aligned_of_admitted hadm (hty ▸ nofun)])
    exact ⟨t, hd, State.rd1_merged hw hmem⟩
  case storeFlag =>
    intro port p s hu hty hw hadm hread
    obtain ⟨t, hd, hmem⟩ := does_lineWrite (i := .storeFlag port p) rfl hu hty hadm hread nofun
      (by rw [State.lineWrite, hty, aligned_of_admitted hadm (hty ▸ nofun)])
    exact ⟨t, hd, State.rd1_merged hw hmem⟩
  case cas =>
    intro port p s hu hty hw hadm hread
    obtain ⟨t, hd, hmem⟩ := does_lineWrite (i := .cas port p) rfl hu hty hadm hread nofun
      (by rw [State.lineWrite, hty, aligned_of_admitted hadm (hty ▸ nofun)])
    have hlen : p.payload.length = 128 := by simp [payload_of_admitted hadm, hty]
    refine ⟨t, hd, fun a => ?_⟩
    rw [State.rd1_memPuts hw hmem]
    by_cases hhit : s.rd p.addr 64 = p.payload.take 64
    · simp [hhit, hlen]
    · simp only [beq_iff_eq, hhit, if_false, false_and, List.length_nil]
      exact if_neg (by omega)
  case fetchAdd =>
    intro port p s hu hty hw hadm hread
    obtain ⟨t, hd, hmem⟩ := does_lineWrite (i := .fetchAdd port p) rfl hu hty hadm hread nofun (by rw [State.lineWrite, hty])
    refine ⟨t, hd, ?_, fun a hout => ?_⟩
    · rw [State.word_rdWords_one, State.rdWords_memPuts hw hmem]
    · rw [State.rd1_memPuts hw hmem, length_bytesOf, if_neg hout]
  case swap =>
    intro port p s hu hty hw hadm hread
    obtain ⟨t, hd, hmem⟩ := does_lineWrite (i := .swap port p) rfl hu hty hadm hread nofun
      (by rw [State.lineWrite, hty, aligned_of_admitted hadm (hty ▸ nofun)])
    have hlen : p.payload.length = 64 := by simp [payload_of_admitted hadm, hty]
    exact ⟨t, hd, fun a => by rw [State.rd1_memPuts hw hmem, hlen]⟩
  case write =>
    intro port p s hu hty hw hadm hread
    obtain ⟨t, hd, hmem⟩ := does_lineWrite (i := .write port p) rfl hu hty hadm hread nofun (by rw [State.lineWrite, hty])
    have hlen : p.payload.length = p.payloadLen := by simp [payload_of_admitted hadm, hty]
    exact ⟨t, hd, fun a => by rw [State.rd1_memPuts hw hmem, hlen]⟩
end

section
/-! SUPPORT. Lines copied within the node: a store takes no line out of reach, and the copy of a run of lines reads as its source did (R216, R229, R306). -/

namespace Sys2Proof.Machine
open Sys2Proof

variable {s t u : State} {cid : Nat} {c : Cmd}

/-! ### What stays in reach -/

/-- Every line that can be reached in one state can be in the other, and none turns bad. -/
structure Reaches (s t : State) : Prop where
  lost : ∀ a reading, s.lineLost a reading = false → t.lineLost a reading = false
  bad : ∀ a, s.lineBad a = false → t.lineBad a = false

theorem Reaches.refl (s : State) : Reaches s s := ⟨fun _ _ h => h, fun _ h => h⟩

theorem Reaches.trans (h : Reaches s t) (g : Reaches t u) : Reaches s u :=
  ⟨fun a r ha => g.lost a r (h.lost a r ha), fun a ha => g.bad a (h.bad a ha)⟩

/-- Lines in reach can still be read. -/
theorem Reaches.readFault (h : Reaches s t) {a n : Nat} (hs : s.readFault a n = none) : t.readFault a n = none := by
  unfold State.readFault at hs ⊢
  extract_lets lines at hs
  have hkeep : lines.any (fun l => s.lineLost l true) = false ∧ lines.any s.lineBad = false := by
    split at hs
    · cases hs
    · split at hs
      · cases hs
      · simp_all
  obtain ⟨hlost, hbad⟩ := hkeep
  rw [List.any_eq_false] at hlost hbad
  refine (if_neg ?_).trans (if_neg ?_)
  · rw [Bool.not_eq_true, List.any_eq_false]
    exact fun l hl => by simpa using h.lost l true (by simpa using hlost l hl)
  · rw [Bool.not_eq_true, List.any_eq_false]
    exact fun l hl => by simpa using h.bad l (by simpa using hbad l hl)

/-- Lines stay in reach where the same dies and channels serve, no line turns bad, a line written again stays so, and a sector moves to a serving channel alone. -/
theorem Reaches.of_tiers (hpkg : t.pkg = s.pkg) (hbad : ∀ l ∈ t.tier.badLines, l ∈ s.tier.badLines) (hsram : ∀ l ∈ s.tier.sramWritten, l ∈ t.tier.sramWritten)
    (hmap : ∀ sec, Tbl.get t.tier.map sec = Tbl.get s.tier.map sec ∨ ∃ ch b, Tbl.get t.tier.map sec = some (ch, b) ∧ s.flashChanUp ch = true) : Reaches s t where
  bad a ha := by
    simp only [State.lineBad, List.contains_eq_mem, decide_eq_false_iff_not] at ha ⊢
    exact fun h => ha (hbad _ h)
  lost a reading ha := by
    have hfenced : t.isFenced = s.isFenced := by funext d; rw [State.isFenced, hpkg, State.isFenced]
    have hflash : t.flashChanUp = s.flashChanUp := by funext ch; rw [State.flashChanUp, hpkg, hfenced, State.flashChanUp]
    have hchan : t.channelUp = s.channelUp := by funext ch; rw [State.channelUp, hpkg, hfenced, State.channelUp]
    unfold State.lineLost at ha ⊢
    rw [hfenced, hflash, hchan, hpkg]
    split
    next h => rwa [if_pos h] at ha
    next hdram =>
    rw [if_neg hdram] at ha
    split
    next h =>
      rw [if_pos h] at ha
      simp only [List.contains_eq_mem, Bool.and_eq_false_iff, Bool.not_eq_false', decide_eq_true_eq] at ha ⊢
      exact ha.imp_right (hsram _)
    next hsramSpace =>
    rw [if_neg hsramSpace] at ha
    split
    next h =>
      rw [if_pos h] at ha
      obtain hsame | ⟨ch, b, hget, hup⟩ := hmap (addrOff a / 4096)
      · rwa [hsame]
      · rw [hget]
        simp [hup]
    · rfl

/-- Counting a unit's event changes the performance counters alone. -/
theorem State.unitEvent_reaches (s : State) (u ev n : Nat) (vi : Option Nat) : Reaches s (s.unitEvent u ev n vi) := by
  obtain ⟨c, hc⟩ := s.unitEvent_frame u ev n vi
  rw [hc]
  exact .of_tiers rfl (fun _ h => h) (fun _ h => h) fun _ => .inl rfl

/-- A sector is mapped to a channel that serves (R219). -/
theorem State.mapSector_reaches (s : State) (sec : Nat) : Reaches s (s.mapSector sec) := by
  simp only [State.mapSector, State.draw]
  split
  · exact .of_tiers rfl (fun _ h => h) (fun _ h => h) fun _ => .inl rfl
  next ch hch =>
  have hup : s.flashChanUp ch = true := by
    have hmem := List.mem_of_getElem? hch
    simp only [List.mem_filter, Bool.and_eq_true] at hmem
    exact hmem.2.1
  refine Reaches.trans ?_ (State.unitEvent_reaches _ _ _ _ _)
  refine .of_tiers rfl (fun _ h => h) (fun _ h => h) fun x => ?_
  by_cases hx : x = sec
  · exact .inr ⟨ch, _, by rw [hx]; exact Tbl.get_set_same _ _ _, hup⟩
  · exact .inl (Tbl.get_set_other _ _ _ _ hx)

/-- A store takes no line out of reach: what it writes is readable again, and what it maps is mapped to a serving channel (R216, R219, R229). -/
theorem State.store_reaches (s : State) (a : Nat) (bs : List Byte) : Reaches s (s.store a bs) := by
  unfold State.store
  extract_lets lines s1 bad sram tier s2
  have hmapped : Reaches s s1 := List.foldlRecOn (motive := Reaches s) _ _ (.of_tiers rfl (fun _ h => h) (fun _ h => h) fun _ => .inl rfl)
    fun t ht sec _ => ht.trans (t.mapSector_reaches sec)
  have hmarks : Reaches s1 s2 := .of_tiers rfl (fun _ h => (List.mem_filter.mp h).1)
    (fun l h => by
      show l ∈ sram
      unfold sram
      split
      · exact List.mem_append_left _ h
      · exact h) fun _ => .inl rfl
  refine (hmapped.trans hmarks).trans ?_
  split
  · exact List.foldlRecOn (motive := Reaches s2) _ _ (.refl s2) fun t ht l _ => ht.trans (t.unitEvent_reaches _ _ _ _)
  · exact .refl s2

/-! ### MOVE_LINES within the node (R306) -/

/-- Lines copied one by one, between disjoint ranges in reach, read at the destination as the source did; the rest of memory stands. -/
theorem moveLocal_copies (n src dst done : Nat) (s : State) (hw : Memory.wf s.mem) (hdisj : src + 64 * n ≤ dst ∨ dst + 64 * n ≤ src)
    (hreach : ∀ i, i < n → s.readFault (src + 64 * i) 64 = none ∧ s.lineLost (dst + 64 * i) false = false) :
    ∃ t, moveLocal n src dst done s = (done + n, none, t) ∧ t.work = s.work ∧
      ∀ a, t.rd1 a = if dst ≤ a ∧ a < dst + 64 * n then s.rd1 (src + (a - dst)) else s.rd1 a := by
  induction n generalizing src dst done s with
  | zero => exact ⟨s, rfl, rfl, fun a => by rw [if_neg (by omega)]⟩
  | succ n ih =>
    obtain ⟨hread, hlost⟩ := hreach 0 (by omega)
    have hkept := s.store_reaches dst (s.rd src 64)
    obtain ⟨t, hmove, hwork, hcopy⟩ := ih (src + 64) (dst + 64) (done + 1) (s.store dst (s.rd src 64))
      (by rw [State.store_mem]; exact memWf_memPuts _ _ _ hw) (by omega) fun i hi => by
        obtain ⟨hr, hl⟩ := hreach (i + 1) (by omega)
        rw [show src + 64 + 64 * i = src + 64 * (i + 1) by omega, show dst + 64 + 64 * i = dst + 64 * (i + 1) by omega]
        exact ⟨hkept.readFault hr, hkept.lost _ _ hl⟩
    refine ⟨t, ?_, ?_, fun a => ?_⟩
    · rw [Nat.mul_zero, Nat.add_zero] at hread hlost
      rw [moveLocal, hread, hlost]
      simp only [Bool.false_eq_true, if_false, hmove]
      rw [Nat.add_assoc, Nat.add_comm 1 n]
    · obtain ⟨b, w, m, c, p, k, hs⟩ := s.store_frame dst (s.rd src 64)
      rw [hwork, hs]
    · have hline : ∀ x, (s.store dst (s.rd src 64)).rd1 x = if dst ≤ x ∧ x < dst + 64 then s.rd1 (src + (x - dst)) else s.rd1 x := fun x => by
        rw [State.rd1_memPuts hw (s.store_mem dst _), show (s.rd src 64).length = 64 by simp [State.rd]]
        split
        next hx => rw [State.rd_getD _ _ (by omega)]
        next => rfl
      rw [hcopy, hline, hline]
      by_cases hfirst : dst ≤ a ∧ a < dst + 64
      · rw [if_neg (by omega), if_pos hfirst, if_pos (by omega)]
      by_cases hrest : dst + 64 ≤ a ∧ a < dst + 64 + 64 * n
      · rw [if_pos hrest, if_neg (by omega), if_pos (by omega), show src + 64 + (a - (dst + 64)) = src + (a - dst) by omega]
      · rw [if_neg hrest, if_neg hfirst, if_neg (by omega)]

/-- MOVE_LINES between lines of this node outside flash needs no quota and no packet: it copies its lines and ends with ST_OK and their count. -/
theorem execMoveLines_copies (hu : Up s) (hw : Memory.wf s.mem) (hc : s.running cid 1 1 = some c) (hjob : Tbl.has s.fab.jobs cid = false)
    (hsrc : s.byPacket (word c.op 2) = false) (hdst : s.byPacket (word c.op 3) = false) (hflash : addrSpace (word c.op 3) ≠ 2)
    (hdisj : word c.op 2 + 64 * fld c.op 4 63 40 ≤ word c.op 3 ∨ word c.op 3 + 64 * fld c.op 4 63 40 ≤ word c.op 2)
    (hreach : ∀ i, i < fld c.op 4 63 40 → s.readFault (word c.op 2 + 64 * i) 64 = none ∧ s.lineLost (word c.op 3 + 64 * i) false = false) :
    ∃ t, Does (.moveLines cid) s t ∧ t.ended cid .ok (fld c.op 4 63 40) ∧ ∀ a, t.rd1 a =
      if word c.op 3 ≤ a ∧ a < word c.op 3 + 64 * fld c.op 4 63 40 then s.rd1 (word c.op 2 + (a - word c.op 3)) else s.rd1 a := by
  obtain ⟨t, hmove, hwork, hcopy⟩ := moveLocal_copies _ _ _ 0 s hw hdisj hreach
  rw [Nat.zero_add] at hmove
  generalize hn : fld c.op 4 63 40 = n at *
  have hlisted : Tbl.has t.work.cmds cid = true := by rw [hwork, Tbl.has, State.running_listed hc]; rfl
  refine ⟨_, does_live (i := .moveLines cid) rfl hu (t := (t.updCmd cid fun c => { c with linesRead := n, linesWritten := n }).finish cid .ok n) ?_, ?_, hcopy⟩
  · simp only [hc, hn, hjob, hflash, and_false, if_false, if_true, Bool.false_eq_true, hsrc, hdst, Bool.not_false, Bool.and_self, hmove, Option.getD_none]
  · exact State.finish_ended (by rw [State.updCmd, Tbl.has_upd, hlisted])

end Sys2Proof.Machine
end

section
/-! SUPPORT. What neither events nor stores, nor the upkeep of blocks and commands, reach: the state of the fabric's operations. -/

namespace Sys2Proof.Machine
open Sys2Proof

variable {s t : State}

@[simp] theorem State.raise0_fab (s : State) (ev : Ev) (die unit : Nat) (payload : List Nat) : (s.raise0 ev die unit payload).fab = s.fab := by
  simp [State.raise0]

@[simp] theorem State.unitEvent_fab (s : State) (u ev n : Nat) (vi : Option Nat) : (s.unitEvent u ev n vi).fab = s.fab := ite_keeps (·.fab) rfl rfl

@[simp] theorem State.mapSector_fab (s : State) (sec : Nat) : (s.mapSector sec).fab = s.fab := by
  obtain ⟨m, c, p, n, h⟩ := s.mapSector_frame sec
  rw [h]

@[simp] theorem State.store_fab (s : State) (a : Nat) (bs : List Byte) : (s.store a bs).fab = s.fab := by
  obtain ⟨b, w, m, c, p, n, h⟩ := s.store_frame a bs
  rw [h]

@[simp] theorem State.violate_fab (s : State) (vi node ep addr kind op reason : Nat) : (s.violate vi node ep addr kind op reason).fab = s.fab := by
  obtain ⟨a, l, w, m, h, -⟩ := s.violate_frame vi node ep addr kind op reason
  rw [h]

@[simp] theorem State.consume_fab (s : State) (port : Nat) (p : Packet) : (s.consume port p).fab = s.fab := by
  obtain ⟨x, d, h⟩ := s.consume_frame port p
  rw [h]

@[simp] theorem State.emit_fab (s : State) (p : Packet) : (s.emit p).fab = s.fab := by
  obtain ⟨l, x, h⟩ := s.emit_frame p
  rw [h]

@[simp] theorem State.enqueue_fab (s : State) (port : Nat) (p : Packet) : (s.enqueue port p).fab = s.fab := by
  obtain ⟨l, x, h⟩ := s.enqueue_frame port p
  rw [h]

@[simp] theorem State.toPort_fab (s : State) (p : Packet) : (s.toPort p).fab = s.fab := by
  unfold State.toPort
  split
  · exact s.enqueue_fab _ p
  · rfl

@[simp] theorem State.settle_fab (s : State) (u : Nat) : (s.settle u).fab = s.fab := by
  obtain ⟨p, h⟩ := s.settle_frame u
  rw [h]

/-! ### The completion step (R78) -/

@[simp] theorem State.dropTees_fab (s : State) (da n : Nat) : (s.dropTees da n).fab = s.fab := rfl

theorem State.rowsValid_fab (s : State) (rid l h b n : Nat) : (s.rowsValid rid l h b n).fab = s.fab := by
  unfold State.rowsValid
  split
  · rfl
  · refine (foldl_keeps (·.fab) _ _ _ fun t i => ?_).trans ?_
    · exact ite_keeps (·.fab) rfl (by simp)
    · exact ite_keeps (·.fab) rfl (by simp)

theorem State.fitSectors_fab (s : State) (slot repr d : Nat) : (s.fitSectors slot repr d).fab = s.fab := by
  refine ite_keeps (·.fab) rfl ?_
  refine (foldl_keeps (·.fab) _ State.unmapSector _ fun _ _ => rfl).trans ?_
  exact foldl_keeps (·.fab) _ _ _ fun t x => ite_keeps (·.fab) rfl (t.mapSector_fab x)

theorem State.applyPost_fab (s : State) (p : Post) : (s.applyPost p).fab = s.fab := by
  cases p with
  | write a bs => rfl
  | ref c e v up =>
    obtain ⟨m, d, l, w, h⟩ := s.addRef_frame c e v up
    rw [State.applyPost, h]
  | stat c e v k n =>
    obtain ⟨m, h⟩ := s.addStat_frame c e v k n
    rw [State.applyPost, h]
  | rows rid l h b n => exact s.rowsValid_fab rid l h b n
  | fit slot repr d => exact s.fitSectors_fab slot repr d

theorem State.freeWaiting_fab (s : State) : s.freeWaiting.fab = s.fab :=
  foldl_keeps (·.fab) _ _ _ fun t da => by
    obtain ⟨m, d, l, v, x, c, h, e⟩ := t.freeDesc_frame da (t.bookOf da)
    rw [e]

theorem State.chargeEnd_fab (s : State) (c : Cmd) : (s.chargeEnd c).fab = s.fab := by
  obtain ⟨i, v, k, h⟩ := s.chargeEnd_frame c
  rw [h]

theorem State.sample_fab (s : State) (v : Nat) (c : Cmd) (st : Status) : (s.sample v c st).fab = s.fab := by
  unfold State.sample
  extract_lets x
  split
  · rfl
  · extract_lets head s1
    exact ite_keeps (·.fab) (by simp) (by simp [s1])

theorem State.tally_fab (s : State) (c : Cmd) : (s.tally c).fab = s.fab := by simp [State.tally, State.setUnit]

theorem State.closeJob_fab (s : State) (u cid vi : Nat) (kept : Bool) : (s.closeJob u cid vi kept).fab = s.fab := by
  simp [State.closeJob, State.moveSlots, State.setUnit]

theorem State.chainAbort_fab (s : State) (k : QKey) (index : Nat) : (s.chainAbort k index).fab = s.fab := ite_keeps (·.fab) rfl (by simp)

end Sys2Proof.Machine
end

section
/-! SUPPORT. The next message id, which no packet, no answer and no completion step takes (R309). What follows says so once for each operation on the way of
a message; the lemma bears the operation's name, and its proof follows the operation's definition. -/

namespace Sys2Proof.Machine
open Sys2Proof

/-- The next message id is `n`. -/
def State.NextMsg (s : State) (n : Nat) : Prop := s.fab.nextMsg = n

variable {s t : State} {n : Nat}

theorem State.NextMsg.of_fab (h : s.NextMsg n) (hf : t.fab = s.fab) : t.NextMsg n := (congrArg Fabric.nextMsg hf).trans h

theorem State.NextMsg.ite {c : Prop} [Decidable c] {a b : State} (ha : a.NextMsg n) (hb : b.NextMsg n) : (if c then a else b).NextMsg n :=
  ite_keeps (·.fab.nextMsg) ha hb

theorem State.NextMsg.foldl {α : Type} {l : List α} {f : State → α → State} (h : s.NextMsg n) (hf : ∀ t x, t.NextMsg n → (f t x).NextMsg n) :
    (l.foldl f s).NextMsg n :=
  List.foldlRecOn (motive := fun t => t.NextMsg n) l f h fun t ht x _ => hf t x ht

/-! ### Packets sent and answered (R290, R291, R296 to R299) -/

theorem State.NextMsg.pickPath {p} (h : s.NextMsg n) : (s.pickPath p).2.NextMsg n := by
  unfold State.pickPath
  split <;> exact h

theorem State.NextMsg.emit {p} (h : s.NextMsg n) : (s.emit p).NextMsg n := h.of_fab (s.emit_fab p)
theorem State.NextMsg.enqueue {port p} (h : s.NextMsg n) : (s.enqueue port p).NextMsg n := h.of_fab (s.enqueue_fab port p)
theorem State.NextMsg.raise0 {ev die unit p} (h : s.NextMsg n) : (s.raise0 ev die unit p).NextMsg n := h.of_fab (s.raise0_fab ev die unit p)
theorem State.NextMsg.violate {vi node ep addr kind op reason} (h : s.NextMsg n) : (s.violate vi node ep addr kind op reason).NextMsg n :=
  h.of_fab (s.violate_fab vi node ep addr kind op reason)

theorem State.NextMsg.sendOn {p path purpose orig} (h : s.NextMsg n) : (s.sendOn p path purpose orig).NextMsg n := by
  unfold State.sendOn
  extract_lets -underBinder
  split
  · split
    · exact .enqueue h
    · exact h
  · exact .ite (.emit h) h

theorem State.NextMsg.sendReq {p purpose orig} (h : s.NextMsg n) : (s.sendReq p purpose orig).NextMsg n := .ite (.sendOn h) (.sendOn (.pickPath h))

theorem State.NextMsg.answerPkt {p st data hit} (h : s.NextMsg n) : (s.answerPkt p st data hit).NextMsg n := by
  unfold State.answerPkt
  extract_lets a
  split
  · split
    · exact .enqueue h
    · exact h
  · exact .emit (.pickPath h)

theorem State.NextMsg.deadFail {dst p mark} (h : s.NextMsg n) : (s.deadFail dst p mark).NextMsg n :=
  have hlost : (if mark && !(s.peer dst).dead then s.transitLost dst else s).NextMsg n := .ite h h
  .ite (.raise0 hlost) hlost

theorem State.NextMsg.pathWatch (h : t.NextMsg n) : (pathWatch s t).NextMsg n := .foldl h fun _ _ hu => .ite hu (.ite hu (.raise0 hu))

theorem State.NextMsg.resendOn {key tag path} (h : s.NextMsg n) : (s.resendOn key tag path).NextMsg n := by
  unfold State.resendOn
  split
  · exact h
  · refine .of_fab ?_ (State.toPort_fab _ _)
    exact h

/-! ### The completion step (R78) -/

theorem State.NextMsg.notify {v addr tail} (h : s.NextMsg n) : (s.notify v addr tail).NextMsg n := .ite (.of_fab h (by simp)) (.sendReq h)

theorem State.NextMsg.setCounter {v k count} (h : s.NextMsg n) : (s.setCounter v k count).NextMsg n :=
  .foldl h fun t _ ht => ht.of_fab (t.settle_fab _)

theorem State.NextMsg.completeCmd {cid} (h : s.NextMsg n) : (s.completeCmd cid).NextMsg n := by
  unfold State.completeCmd
  split
  · exact h
  split
  · exact h
  extract_lets u k q entries addr s1 covered s2 s3 c' s4 s5 s6 s7 s8 w work t work' s9 s10 s11 s12 s13
  have h1 : s1.NextMsg n := .foldl h fun t p ht => ht.of_fab (t.applyPost_fab p)
  have h2 : s2.NextMsg n := .ite h1 (.ite (h1.of_fab (by simp)) (h1.of_fab (by simp [State.queueError])))
  have h3 : s3.NextMsg n := .ite (.notify h2) h2
  have h5 : s5.NextMsg n := h3.of_fab ((State.account_fields _ _ _ _ _).2.2.2.2.2.2.2.1.trans (State.chargeEnd_fab _ _))
  have h6 : s6.NextMsg n := .ite h5 (h5.of_fab (by simp))
  have h7 : s7.NextMsg n := .ite (h6.of_fab (by simp)) h6
  have h8 : s8.NextMsg n := .ite (h7.of_fab (by simp)) h7
  have hw : w.NextMsg n := .ite (h8.of_fab (s8.settle_fab u)) h8
  have ht : t.NextMsg n := hw.of_fab (State.tally_fab _ _)
  have h9 : s9.NextMsg n := ht.of_fab rfl
  have h10 : s10.NextMsg n := .ite (h9.of_fab (State.closeJob_fab _ _ _ _ _)) h9
  have h11 : s11.NextMsg n := by
    unfold s11
    split
    · exact .setCounter h10
    · exact h10
  have h12 : s12.NextMsg n := h11.of_fab (State.freeWaiting_fab _)
  have h13 : s13.NextMsg n := .ite (h12.of_fab (State.chainAbort_fab _ _ _)) h12
  exact .foldl h13 fun t v ht => ht.of_fab (t.sample_fab v c' _)

/-! ### Messages (R310 to R312) -/

theorem State.NextMsg.endSend {m st} (h : s.NextMsg n) : (s.endSend m st).NextMsg n := by
  unfold State.endSend
  split <;> exact h

theorem State.NextMsg.applyCtrl {src m kind st crc} (h : s.NextMsg n) : (s.applyCtrl src m kind st crc).NextMsg n := by
  unfold State.applyCtrl
  split
  · exact h
  · exact .ite h (.ite (.endSend h) (.endSend h))

theorem State.NextMsg.sendCtrl {r src m kind st crc} (h : s.NextMsg n) : (s.sendCtrl r src m kind st crc).NextMsg n := by
  unfold State.sendCtrl
  split
  · exact .applyCtrl h
  · extract_lets p
    exact .emit (.pickPath (p := p) h)

theorem State.NextMsg.endMessage {src m r st} (h : s.NextMsg n) : (s.endMessage src m r st).NextMsg n := by
  unfold State.endMessage
  extract_lets crc s1 s2
  have h1 : s1.NextMsg n := h.of_fab (by simp [s1])
  have hdone : (s1.finishNow r.buf.cid st r.tally).NextMsg n := State.NextMsg.completeCmd (h1.of_fab (by simp [State.finish]))
  have h2 : s2.NextMsg n := hdone.of_fab (by simp [s2])
  exact .sendCtrl h2

theorem State.NextMsg.placePacket {p r} (h : s.NextMsg n) : (s.placePacket p r).2.NextMsg n := by
  unfold State.placePacket
  extract_lets off s1 part r' fab s2
  have h1 : s1.NextMsg n := h.of_fab (s.store_fab _ _)
  split
  · exact h
  · split
    · exact .endMessage h1
    · exact h1

theorem State.NextMsg.claimBuffer {p} (h : s.NextMsg n) : (s.claimBuffer p).2.NextMsg n := by
  unfold State.claimBuffer
  extract_lets -underBinder
  split
  · exact h
  · split
    · exact h
    · split
      · exact h
      · split
        · exact h
        · exact .placePacket h

/-- A message's packet of the node's own, whose rights have been decided for it. -/
theorem State.NextMsg.arriveMsg {p} (h : s.NextMsg n) : (s.arriveMsg p none).2.NextMsg n := by
  unfold State.arriveMsg
  split
  · split
    · exact h
    · exact .placePacket h
  · exact .claimBuffer h

/-! ### Jobs of the Mover (R306) -/

theorem State.NextMsg.moveEnd {cid total} (h : s.NextMsg n) : (s.moveEnd cid total).NextMsg n := by
  unfold State.moveEnd
  split
  · exact h
  · exact .ite h h

theorem State.NextMsg.moveSend {cid p off lines writes} (h : s.NextMsg n) : (s.moveSend cid p off lines writes).NextMsg n :=
  .ite (.deadFail h) (.sendReq h)

theorem State.NextMsg.moveWrite {cid c off lines data} (h : s.NextMsg n) : (s.moveWrite cid c off lines data).NextMsg n :=
  .ite (.moveSend h) (.ite h (State.NextMsg.of_fab (s := s) h (s.store_fab _ _) :))

theorem State.NextMsg.moveChunk {cid c off lines} (h : s.NextMsg n) : (s.moveChunk cid c off lines).NextMsg n := by
  unfold State.moveChunk
  extract_lets w a
  split
  · exact .moveSend h
  · split
    · exact .ite (.raise0 h) h
    · exact .moveWrite h

theorem State.NextMsg.movePump {cid c k} (h : s.NextMsg n) : (Machine.movePump cid c k s).NextMsg n := by
  induction k generalizing s with
  | zero => exact h
  | succ k ih =>
    unfold Machine.movePump
    split
    · exact h
    · exact .ite h (ih (.moveChunk h))

theorem State.NextMsg.moveAnswer {cid off lines writes st data} (h : s.NextMsg n) : (s.moveAnswer cid off lines writes st data).NextMsg n := by
  unfold State.moveAnswer
  split
  · exact h
  · extract_lets fab s1 s2
    have h1 : s1.NextMsg n := h
    have h2 : s2.NextMsg n := .ite h1 (.ite h1 (.moveWrite h1))
    unfold State.moveOn
    split
    · exact h2
    · exact .moveEnd (.movePump h2)

/-! ### Requests answered (R288, R290, R310) -/

theorem State.NextMsg.answerOrig {q st data hit} (h : s.NextMsg n) : (s.answerOrig q st data hit).NextMsg n :=
  have hvia : (s.performedVia q).NextMsg n := .ite h h
  .ite (.answerPkt h) (.answerPkt (.ite (.ite hvia hvia) hvia))

theorem State.NextMsg.hubDone {what key st} (h : s.NextMsg n) : (s.hubDone what key st).NextMsg n := by
  unfold State.hubDone
  split
  · exact .ite h h
  · split
    · exact .ite h (.ite h h)
    · exact h

theorem State.NextMsg.completeReq {key tag st data hit} (h : s.NextMsg n) : (s.completeReq key tag st data hit).NextMsg n := by
  unfold State.completeReq
  split
  · exact h
  next o _ =>
  extract_lets _ s1
  have h1 : s1.NextMsg n := h
  split
  · cases o.orig with
    | none => exact h1
    | some q => exact .answerOrig h1
  · exact .moveAnswer h1
  · exact .ite h1 (.endSend h1)
  · exact .ite h1 (.pathWatch (.ite h1 h1))
  · exact .hubDone h1

theorem State.NextMsg.respondReq {key tag st data hit} (h : s.NextMsg n) : (s.respondReq key tag st data hit).NextMsg n := by
  unfold State.respondReq
  split
  · exact h
  · split
    · extract_lets _ s1
      have h1 : s1.NextMsg n := h
      split
      · exact .resendOn h1
      · exact h1
    · exact .ite h (.completeReq h)

/-! ### SEND (R308, R309) -/

theorem State.NextMsg.sendPump {m c k} (h : s.NextMsg n) : (Machine.sendPump m c k s).NextMsg n := by
  induction k generalizing s with
  | zero => exact h
  | succ k ih =>
    unfold Machine.sendPump
    split
    · exact h
    next x _ =>
    extract_lets w len k' data p _ s1 tag s2
    have h1 : s1.NextMsg n := h
    have hlocal : ∀ u : State, u.NextMsg n → (u.localMsg tag).NextMsg n := fun u hu => by
      unfold State.localMsg
      split
      · exact hu
      · exact .respondReq (.arriveMsg hu)
    have h2 : s2.NextMsg n := .ite (hlocal _ (.sendOn h1)) (.sendReq h1)
    exact .ite h (ih h2)

theorem State.NextMsg.sendOnward {m} (h : s.NextMsg n) : (s.sendOnward m).NextMsg n := by
  unfold State.sendOnward
  split
  · exact h
  · exact .sendPump h

end Sys2Proof.Machine
end

section
/-! SUPPORT. What SEND, RECV_POST and TRIGGER_ARM do where they begin (R307 to R309, R313, R316, R317). -/

namespace Sys2Proof.Machine
open Sys2Proof

variable {s : State} {cid : Nat} {c : Cmd}

/-- A SEND whose bytes can be read, toward this node or one that is reached, takes the next message id; none is taken while its packets go out. -/
theorem execSend_takes (hu : Up s) (hc : s.running cid 1 4 = some c) (hnew : s.fab.msgs.any (fun m => m.2.cid == cid) = false)
    (hread : s.readFault (word c.op 2) (fld c.op 4 31 7) = none) (hdst : fld c.op 3 63 52 = s.node ∨ s.unreachable (fld c.op 3 63 52) = false) :
    ∃ t, Does (.send cid) s t ∧ t.fab.nextMsg = (s.fab.nextMsg + 1) % 2 ^ 32 := by
  have hgoes : ¬ (fld c.op 3 63 52 ≠ s.node ∧ s.unreachable (fld c.op 3 63 52) = true) := by
    rintro ⟨hnode, hun⟩
    exact hdst.elim hnode fun h => absurd (h.symm.trans hun) nofun
  refine ⟨_, does_live (i := .send cid) rfl hu rfl, ?_⟩
  simp only [hc, hnew, hread, if_neg hgoes, Bool.false_eq_true, if_false]
  exact State.NextMsg.sendOnward (n := u32 (s.fab.nextMsg + 1)) rfl

/-- A RECV_POST with room in its list joins its buffer to the list and parks. -/
theorem execRecvPost_parks (hu : Up s) (hc : s.running cid 1 5 = some c) (hroom : (Tbl.at s.fab.lists (c.vi, fld c.op 4 38 35) []).length < 4096) :
    ∃ t, Does (.recvPost cid) s t ∧ (Tbl.get t.work.cmds cid).map (·.st) = some .parked ∧ t.mem = s.mem ∧
      Tbl.at t.fab.lists (c.vi, fld c.op 4 38 35) [] = Tbl.at s.fab.lists (c.vi, fld c.op 4 38 35) [] ++
        [{ cid := cid, addr := word c.op 2, info := word c.op 3, len := fld c.op 4 63 39 }] := by
  have hlisted : Tbl.has s.work.cmds cid = true := by rw [Tbl.has, State.running_listed hc]; rfl
  refine ⟨_, does_live (i := .recvPost cid) rfl hu rfl, ?_⟩
  simp only [hc, if_neg (Nat.not_le.mpr hroom)]
  exact ⟨State.updCmd_reads (g := (·.st)) hlisted _ fun _ => rfl, rfl, Tbl.at_set_same ..⟩

/-- A TRIGGER_ARM below its threshold, with room for an arm, keeps its pre-posted command as memory holds it and parks. -/
theorem execTriggerArm_parks (hu : Up s) (hc : s.running cid 1 6 = some c) (hbelow : armReached (s.counter c.vi (fld c.op 4 63 58)) (word c.op 3) = false)
    (hroom : (s.fab.arms.filter (fun x => x.vi == c.vi)).length < 1024) :
    ∃ t, Does (.triggerArm cid) s t ∧ (Tbl.get t.work.cmds cid).map (·.st) = some .parked ∧
      (Tbl.get t.work.cmds cid).bind (·.work) = some (s.rdWords (word c.op 2) 8) ∧ t.fab.arms.length = s.fab.arms.length + 1 ∧ t.mem = s.mem := by
  have hlisted := State.running_listed hc
  have hread : ∀ f g : Cmd → Cmd, Tbl.get (Tbl.upd (Tbl.upd s.work.cmds cid f) cid g) cid = some (g (f c)) := fun f g =>
    Tbl.get_upd_some _ _ _ _ (Tbl.get_upd_some _ _ _ _ hlisted)
  refine ⟨_, does_live (i := .triggerArm cid) rfl hu rfl, ?_⟩
  simp only [hc, hbelow, if_neg (Nat.not_le.mpr hroom), Bool.false_eq_true, if_false]
  exact ⟨congrArg (Option.map (·.st)) (hread _ _), congrArg (fun o : Option Cmd => o.bind (·.work)) (hread _ _), List.length_append, rfl⟩

end Sys2Proof.Machine
end

section
open Sys2Proof Sys2Proof.Machine

/-- Settles O29: lines are copied one by one, and no store takes another out of reach; a message's packets, answered or not, take no message id. -/
theorem moverCommands : Obligations.MoverCommands := by
  unfold Obligations.MoverCommands
  refine ⟨?move, ?send, ?post, ?arm⟩
  case move => exact fun cid c s hu hw hc hjob hsrc hdst hflash _ _ hdisj hreach => execMoveLines_copies hu hw hc hjob hsrc hdst hflash hdisj hreach
  case send => exact fun cid c s hu hc hnew hread hdst => execSend_takes hu hc hnew hread hdst
  case post => exact fun cid c s hu hc hroom => execRecvPost_parks hu hc hroom
  case arm => exact fun cid c s hu hc hbelow hroom => execTriggerArm_parks hu hc hbelow hroom
end

section
/-! SUPPORT. What answering, sending again and reporting paths change of the fabric's state: of the peers what they count and report, and of the requests
outstanding no more than the packet (R290, R296 to R299). -/

namespace Sys2Proof.Machine
open Sys2Proof

variable {s t : State} {key tag dst : Nat} {o : OutReq}

/-- The state of the fabric's operations but for its peers. -/
def State.aside (s : State) : Fabric := { s.fab with peers := [] }

/-- The marks of every peer: unreachable, and its paths marked down (R297 to R299). -/
def State.marks (s : State) (n : Nat) : Bool × List Nat := ((s.peer n).dead, (s.peer n).down)

theorem State.aside_congr (h : t.fab = s.fab) : t.aside = s.aside := by rw [State.aside, h, State.aside]
theorem State.marks_congr (h : t.fab = s.fab) : t.marks = s.marks := by funext n; rw [State.marks, State.peer, h]; rfl

/-- The tables beside the peers that such a state shares. -/
theorem State.aside_fields (h : t.aside = s.aside) :
    t.fab.out = s.fab.out ∧ t.fab.flags = s.fab.flags ∧ t.fab.reorder = s.fab.reorder ∧ t.fab.lists = s.fab.lists ∧
      t.fab.msgs = s.fab.msgs := by
  simp only [State.aside, Fabric.mk.injEq] at h
  obtain ⟨-, hout, hflags, -, -, hlists, hreorder, hmsgs, -⟩ := h
  exact ⟨hout, hflags, hreorder, hlists, hmsgs⟩

@[simp] theorem State.keeping_peer (s t : State) (n : Nat) : (s.keeping t).peer n = t.peer n := rfl
@[simp] theorem State.updPeer_peer_same (s : State) (n : Nat) (f : Peer → Peer) : (s.updPeer n f).peer n = f (s.peer n) := Tbl.at_set_same ..

/-- A change of a peer that keeps its marks keeps all marks. -/
theorem State.updPeer_marks (s : State) (n : Nat) (f : Peer → Peer) (hf : (f (s.peer n)).dead = (s.peer n).dead ∧ (f (s.peer n)).down = (s.peer n).down) :
    (s.updPeer n f).marks = s.marks := by
  funext m
  by_cases hm : m = n
  · subst hm
    rw [State.marks, State.updPeer_peer_same, hf.1, hf.2, State.marks]
  · exact congrArg (fun x : Peer => (x.dead, x.down)) (Tbl.at_set_other _ _ _ _ _ hm)

/-- A packet's arrival leaves the fabric's state but for the mark of its source (R299). -/
theorem State.taken_aside (s : State) (port : Nat) (p : Packet) : (s.taken port p).aside = s.aside := by
  have hheard : (s.taken port p).aside = (s.consume port p).aside := ite_keeps State.aside rfl rfl
  exact hheard.trans (State.aside_congr (s.consume_fab port p))

/-! ### Answers (R290) -/

theorem State.pickPath_spray (s : State) (p : Packet) : ((s.pickPath p).2.aside, (s.pickPath p).2.marks) = (s.aside, s.marks) := by
  unfold State.pickPath
  split
  · rfl
  · exact Prod.ext rfl (s.updPeer_marks _ _ ⟨rfl, rfl⟩)

/-- Choosing a path leaves the requests outstanding, memory and the time. -/
theorem State.pickPath_keeps (s : State) (p : Packet) :
    (s.pickPath p).2.fab.out = s.fab.out ∧ (s.pickPath p).2.mem = s.mem ∧ (s.pickPath p).2.now = s.now := by
  obtain ⟨f, h⟩ := s.pickPath_frame p
  refine ⟨(State.aside_fields (Prod.mk.inj (s.pickPath_spray p)).1).1, ?_⟩
  rw [h]
  exact ⟨rfl, rfl⟩

/-- An answer leaves the fabric's state but for what its source's peer counts of paths. -/
theorem State.answerPkt_leaves (s : State) (p : Packet) (st : Status) (data : List Byte) (hit : Bool) :
    (s.answerPkt p st data hit).aside = s.aside ∧ (s.answerPkt p st data hit).marks = s.marks := by
  have hsame : ∀ t : State, t.fab = s.fab → (t.aside, t.marks) = (s.aside, s.marks) := fun t h => by rw [State.aside_congr h, State.marks_congr h]
  refine Prod.mk.inj (?_ : (_, _) = (s.aside, s.marks))
  unfold State.answerPkt
  extract_lets a
  split
  · split
    · exact hsame _ (State.enqueue_fab _ _ _)
    · rfl
  · refine Eq.trans ?_ (s.pickPath_spray a)
    rw [State.aside_congr (State.emit_fab _ _), State.marks_congr (State.emit_fab _ _)]

/-- Answering the request that a packet carried on leaves the requests outstanding and all marks. -/
theorem State.answerOrig_leaves (s : State) (q : Packet) (st : Status) (data : List Byte) (hit : Bool) :
    (s.answerOrig q st data hit).fab.out = s.fab.out ∧ (s.answerOrig q st data hit).marks = s.marks := by
  have hans : ∀ (t : State) (fill : List Byte), t.fab.out = s.fab.out → t.marks = s.marks →
      (t.answerPkt q st fill hit).fab.out = s.fab.out ∧ (t.answerPkt q st fill hit).marks = s.marks := fun t fill hout hmarks => by
    obtain ⟨haside, hm⟩ := t.answerPkt_leaves q st fill hit
    exact ⟨(State.aside_fields haside).1.trans hout, hm.trans hmarks⟩
  unfold State.answerOrig
  extract_lets fill s1 s2
  have h1 : s1.fab.out = s.fab.out ∧ s1.marks = s.marks := ⟨ite_keeps (·.fab.out) rfl rfl, ite_keeps State.marks rfl rfl⟩
  have hrecord : ∀ r, (s1.record q r).fab.out = s1.fab.out ∧ (s1.record q r).marks = s1.marks := fun r =>
    ⟨ite_keeps (·.fab.out) rfl rfl, ite_keeps State.marks rfl (s1.updPeer_marks _ _ ⟨rfl, rfl⟩)⟩
  split
  · exact hans s fill rfl rfl
  · refine hans s2 fill ?_ ?_
    · exact ite_keeps (·.fab.out) ((hrecord _).1.trans h1.1) h1.1
    · exact ite_keeps State.marks ((hrecord _).2.trans h1.2) h1.2

/-! ### Paths (R297, R298) -/

/-- The requests that are outstanding, the time and all marks: what reporting paths and sending again leave. -/
def State.pressing (s : State) : (Nat × Nat → Bool) × Nat × (Nat → Bool × List Nat) := (Tbl.has s.fab.out, s.now, s.marks)

theorem State.pathEvent_leaves (s : State) (dst path : Nat) (up : Bool) (before after : Nat) :
    ((s.pathEvent dst path up before after).fab.out, (s.pathEvent dst path up before after).pressing) = (s.fab.out, s.pressing) := by
  unfold State.pathEvent
  extract_lets x die last n
  have hpeer : ∀ f : Peer → Peer, (f (s.peer dst)).dead = (s.peer dst).dead ∧ (f (s.peer dst)).down = (s.peer dst).down →
      ((s.updPeer dst f).fab.out, (s.updPeer dst f).pressing) = (s.fab.out, s.pressing) := fun f hf => by
    rw [State.pressing, s.updPeer_marks dst f hf]
    rfl
  split
  · exact hpeer _ ⟨rfl, rfl⟩
  · refine Eq.trans ?_ (hpeer (fun x => { x with pathEvAt := Tbl.set x.pathEvAt up s.now }) ⟨rfl, rfl⟩)
    rw [State.pressing, State.marks_congr (State.raise0_fab ..), State.raise0_fab]
    simp [State.pressing, State.raise0]

/-- Reporting the paths whose service differs leaves the requests outstanding and all marks. -/
theorem pathWatch_keeps (s t : State) : (pathWatch s t).fab.out = t.fab.out ∧ (pathWatch s t).pressing = t.pressing :=
  Prod.mk.inj (foldl_keeps (fun u => (u.fab.out, u.pressing)) _ _ t fun u _ => ite_keeps (fun u => (u.fab.out, u.pressing)) rfl (u.pathEvent_leaves _ _ _ _ _))

/-- Packets sent again change the packets of the requests outstanding, and end none. -/
theorem State.respray_pressing (s : State) (ps : List Packet) : (s.respray ps).pressing = s.pressing := by
  refine foldl_keeps State.pressing _ _ s fun t p => ite_keeps State.pressing ?_ rfl
  have hpick : (t.pickPath p).2.pressing = t.pressing := by
    obtain ⟨hout, -, hnow⟩ := t.pickPath_keeps p
    rw [State.pressing, hout, hnow, (Prod.mk.inj (t.pickPath_spray p)).2, State.pressing]
  dsimp only
  split
  · exact hpick
  next x _ =>
  have hupd : ∀ (u : State) (f : OutReq → OutReq), Tbl.has (Tbl.upd u.fab.out (p.dst, p.tag) f) = Tbl.has u.fab.out := fun u f =>
    funext fun k => Tbl.has_upd _ _ _ _
  refine Eq.trans ?_ hpick
  split
  · rw [State.pressing, State.pressing, hupd]
    rfl
  · rw [State.pressing, State.pressing, hupd]
    rfl

/-- A path marked down is in its destination's list; the requests outstanding stay so (R298). -/
theorem State.markDown_marks (s : State) (dst path but : Nat) :
    ((s.markDown dst path but).peer dst).down.contains path = true ∧ Tbl.has (s.markDown dst path but).fab.out = Tbl.has s.fab.out ∧
      (s.markDown dst path but).now = s.now := by
  unfold State.markDown
  extract_lets s1 onIt again lnk s2
  have hpress : ((pathWatch s s2).respray again).pressing = s1.pressing := (State.respray_pressing _ _).trans ((pathWatch_keeps s s2).2.trans rfl)
  simp only [State.pressing, Prod.mk.injEq] at hpress
  obtain ⟨hout, hnow, hmarks⟩ := hpress
  refine ⟨?_, hout, hnow⟩
  have hdown := congrArg Prod.snd (congrFun hmarks dst)
  simp only [State.marks, s1, State.updPeer_peer_same] at hdown
  rw [hdown]
  split
  next h => exact h
  next => simp

/-- A request sent again is outstanding with its path and the time. -/
theorem State.resendOn_out (ho : Tbl.get s.fab.out (key, tag) = some o) (path : Nat) :
    Tbl.get (s.resendOn key tag path).fab.out (key, tag) =
      some { o with pkt := ({ o.pkt with path := path } : Packet).sealed, lastSent := s.now, answered := false } ∧
    (s.resendOn key tag path).fab.peers = s.fab.peers ∧ (s.resendOn key tag path).mem = s.mem := by
  have hport : ∀ (t : State) (p : Packet), (t.toPort p).mem = t.mem := fun t p => by
    unfold State.toPort
    split
    · obtain ⟨l, x, h⟩ := t.enqueue_frame _ p
      rw [h]
    · rfl
  simp only [State.resendOn, ho, State.toPort_fab, hport, Tbl.get_set_same, and_self]

/-! ### Requests that end (R290, R299) -/

/-- The request of an endpoint, or a probe, that is over is outstanding no more; every other request is. -/
theorem State.completeReq_out {st : Status} {data : List Byte} {hit : Bool} (ho : Tbl.get s.fab.out (key, tag) = some o)
    (hp : o.purpose = .endpoint ∨ o.purpose = .probe) : (s.completeReq key tag st data hit).fab.out = Tbl.del s.fab.out (key, tag) := by
  unfold State.completeReq
  simp only [ho]
  obtain hp | hp := hp
  · simp only [hp]
    cases o.orig with
    | none => rfl
    | some q => exact (State.answerOrig_leaves _ q st data hit).1
  · simp only [hp]
    exact ite_keeps (·.fab.out) rfl ((pathWatch_keeps _ _).1.trans (ite_keeps (·.fab.out) rfl rfl))

/-- The request of an endpoint that is over leaves all marks. -/
theorem State.completeReq_marks {st : Status} {data : List Byte} {hit : Bool} (ho : Tbl.get s.fab.out (key, tag) = some o) (hp : o.purpose = .endpoint) :
    (s.completeReq key tag st data hit).marks = s.marks := by
  unfold State.completeReq
  simp only [ho, hp]
  cases o.orig with
  | none => rfl
  | some q => exact (State.answerOrig_leaves _ q st data hit).2

/-- A failure at a destination leaves the fabric's state but for the peers; the one that sets the mark marks it unreachable. -/
theorem State.deadFail_marks (s : State) (dst : Nat) (p : Packet) (mark : Bool) :
    (s.deadFail dst p mark).aside = s.aside ∧ ((s.deadFail dst p mark).peer dst).dead = ((s.peer dst).dead || mark) := by
  unfold State.deadFail
  extract_lets x u due n
  have hu : u.fab = s.fab := ite_keeps (·.fab) rfl rfl
  have hpeer : u.peer dst = s.peer dst := by rw [State.peer, hu, State.peer]
  have hdead : ∀ f : Peer → Peer, (f (u.peer dst)).dead = ((u.peer dst).dead || mark) →
      (u.updPeer dst f).aside = s.aside ∧ ((u.updPeer dst f).peer dst).dead = ((s.peer dst).dead || mark) := fun f hf => by
    rw [State.updPeer_peer_same, hf, hpeer]
    exact ⟨(State.aside_congr hu : u.aside = s.aside), rfl⟩
  split
  · obtain ⟨haside, hmark⟩ := hdead (fun x => { x with dead := x.dead || mark, deadFails := 0, deadEvAt := some u.now }) rfl
    rw [State.aside_congr (State.raise0_fab ..), State.peer, State.raise0_fab]
    exact ⟨haside, hmark⟩
  · exact hdead _ rfl

end Sys2Proof.Machine
end

section
/-! SUPPORT. Held flags, responses, transit packets, retries, dead targets, probes and path events: what each command does where it is due (R288 to R299). -/

namespace Sys2Proof.Machine
open Sys2Proof

variable {s : State} {p : Packet} {o : OutReq} {dst tag path port out : Nat}

/-! ### Held flags (R294) -/

/-- Sending a request leaves the held flags. -/
theorem State.sendReq_flags (s : State) (p : Packet) (purpose : Purpose) (orig : Option Packet) : (s.sendReq p purpose orig).fab.flags = s.fab.flags := by
  have hon : ∀ (t : State) (path : Option Nat), (t.sendOn p path purpose orig).fab.flags = t.fab.flags := fun t path => by
    unfold State.sendOn
    extract_lets key tag' q x s2 fab s3
    split
    · split
      · rw [State.enqueue_fab]
        rfl
      · rfl
    · exact ite_keeps (·.fab.flags) (by rw [State.emit_fab]; rfl) rfl
  exact ite_keeps (·.fab.flags) (hon s none) ((hon _ _).trans (State.aside_fields (Prod.mk.inj (s.pickPath_spray p)).1).2.1)

/-- A held flag that has failed, or whose writes are answered, is held no more. -/
theorem execStoreFlagRelease_leaves {flag : Nat} {h : HeldFlag} (hu : Up s) (hflag : Tbl.get s.fab.flags flag = some h)
    (hdue : h.failed = true ∨ (h.waits.all (fun x => !Tbl.has s.fab.out (h.pkt.dst, x)) = true ∧ h.moves.all (fun m => !Tbl.has s.work.cmds m) = true)) :
    ∃ t, Does (.storeFlagRelease flag) s t ∧ Tbl.get t.fab.flags flag = none := by
  refine ⟨_, does_live (i := .storeFlagRelease flag) rfl hu rfl, ?_⟩
  simp only [hflag, State.keeping_fields]
  have hrefuse : ∀ (t : State) (st : Status), (t.refusePkt h.pkt st).fab.flags = t.fab.flags := fun t st => (State.aside_fields (t.answerPkt_leaves _ _ _ _).1).2.1
  have hfail : ∀ (t : State) (d : Nat), (t.deadFail d h.pkt false).fab.flags = t.fab.flags := fun t d => (State.aside_fields (t.deadFail_marks _ _ _).1).2.1
  have hgone : ∀ t : State, t.fab.flags = Tbl.del s.fab.flags flag → Tbl.get t.fab.flags flag = none := fun t ht => by rw [ht, Tbl.get_del_same]
  split
  · exact hgone _ (hrefuse _ _)
  next hgood =>
  obtain ⟨hwaits, hmoves⟩ := hdue.resolve_left hgood
  rw [if_neg (by simp only [List.all_eq_true, Bool.not_eq_true'] at hwaits hmoves; simp; exact ⟨hwaits, hmoves⟩)]
  split
  · exact hgone _ ((hrefuse _ _).trans (hfail _ _))
  · exact hgone _ (State.sendReq_flags _ _ _ _)

/-! ### Responses (R288, R290) -/

/-- A sound response that is neither a failed check nor a missing buffer ends the endpoint's request, or the probe, that it answers. -/
theorem execPacketResponseReceive_ends {st : Status} (hu : Up s) (hresp : p.resp = true) (hctrl : p.ty ≠ .msgCtrl) (hdst : p.dst = s.node) (hsrc : p.src ≠ s.node)
    (hform : responseFormOk p = true) (hcrc : p.crcOk = true) (ho : Tbl.get s.fab.out (p.src, p.tag) = some o) (hp : o.purpose = .endpoint ∨ o.purpose = .probe)
    (hty : o.pkt.ty = p.ty) (hlen : o.pkt.payloadLen = p.payloadLen ∨ p.ty ≠ .read) (hst : Status.ofCode p.status = some st) (hcheck : st ≠ .packetCheck)
    (hbuffer : st ≠ .retryNoBuffer) : ∃ t, Does (.packetResponseReceive p) s t ∧ Tbl.get t.fab.out (p.src, p.tag) = none := by
  have hheard : ((s.consume (s.arrivedAt p) p).heard p.src).fab.out = s.fab.out := (State.aside_fields (s.taken_aside (s.arrivedAt p) p)).1
  have ho' : Tbl.get ((s.consume (s.arrivedAt p) p).heard p.src).fab.out (p.src, p.tag) = some o := by rw [hheard, ho]
  have hmatch : ¬ (o.pkt.ty ≠ p.ty ∨ (p.ty = .read ∧ p.payloadLen ≠ o.pkt.payloadLen)) := by
    rintro (h | ⟨h, hne⟩)
    · exact h hty
    · exact hlen.elim (fun he => hne he.symm) fun hn => hn h
  refine ⟨_, does_live (i := .packetResponseReceive p) rfl hu (t := ((s.consume (s.arrivedAt p) p).heard p.src).completeReq p.src p.tag st p.payload p.casHit) ?_, ?_⟩
  · have hrespond : ∀ t : State, Tbl.get t.fab.out (p.src, p.tag) = some o →
        t.respondReq p.src p.tag st p.payload p.casHit = t.completeReq p.src p.tag st p.payload p.casHit := fun t ht => by
      simp only [State.respondReq, ht, hcheck, hbuffer, false_and, if_false]
    simp only [hresp, hdst, beq_eq_false_iff_ne.mpr hctrl, Bool.not_true, Bool.false_or, bne_self_eq_false, Bool.false_eq_true, if_false, hsrc, hform, hcrc, ho',
      hst, hmatch, hrespond _ ho']
    obtain hp | hp := hp <;> rw [hp]
  · exact (congrArg (Tbl.get · (p.src, p.tag)) (State.completeReq_out ho' hp)).trans (Tbl.get_del_same _ _)

/-! ### Transit (R295) -/

/-- A packet that leaves its receive buffer leaves the egress queues and memory as they stand. -/
theorem State.consume_keeps (s : State) (port : Nat) (p : Packet) :
    (s.consume port p).lnk.queue = s.lnk.queue ∧ (s.consume port p).mem = s.mem ∧ (s.consume port p).now = s.now := by
  have hdrain : ∀ t : State, (t.drainPools port).lnk.queue = t.lnk.queue := fun t =>
    ite_keeps (·.lnk.queue) rfl (foldl_keeps (·.lnk.queue) _ _ t fun _ _ => rfl)
  obtain ⟨x, d, h⟩ := s.consume_frame port p
  refine ⟨ite_keeps (·.lnk.queue) rfl (hdrain _), ?_, ?_⟩
  · rw [h]
  · rw [h]

/-- A sound transit packet whose path has credit here is the last packet queued on its next port, one hop further. -/
theorem execPacketTransitForward_forwards (hu : Up s) (hdst : p.dst ≠ s.node) (hsrc : p.src ≠ s.node) (harrived : (s.port port).arrived.contains p = true)
    (hcrc : p.crcOk = true) (hhops : p.hops < 15) (hegress : s.egress p.dst p.path = some out) (hactive : (s.port out).st = .active)
    (hunits : s.hasUnits p.dst p.path ({ p with hops := p.hops + 1 } : Packet).sealed = true) (hport : port ≠ 255) :
    ∃ t, Does (.packetTransitForward port p) s t ∧
      t.lnk.queue = s.lnk.queue ++ [{ port := out, pkt := ({ p with hops := p.hops + 1 } : Packet).sealed, at_ := s.now }] ∧ t.mem = s.mem := by
  refine ⟨_, does_live (i := .packetTransitForward port p) rfl hu rfl, ?_⟩
  simp only [hdst, hsrc, harrived, hcrc, hegress, hactive, hunits, hport, Nat.not_le.mpr hhops, or_self, ne_eq, not_false_eq_true, Bool.not_true,
    Bool.false_eq_true, and_false, false_and, if_false, and_self, if_true, State.keeping_fields]
  obtain ⟨hqueue, hmem, hnow⟩ := State.consume_keeps { s with fab := { s.fab with transit := s.fab.transit.filter (fun x => !(x.2.pkt == p && x.2.inPort == port)) } } port p
  refine ⟨?_, ?_⟩
  · rw [State.enqueue_queue, hqueue, hnow]
  · exact (congrArg (fun x => x.2.2) (State.enqueue_interior _ _ _)).trans hmem

/-- A transit packet without credit for 1 ms is gone, and counted. -/
theorem execTransitCreditTimeout_discards {id : Nat} {x : Transit} (hu : Up s) (hx : Tbl.get s.fab.transit id = some x) (hdue : x.since + 1000000 ≤ s.now) :
    ∃ t, Does (.transitCreditTimeout id) s t ∧ Tbl.get t.fab.transit id = none ∧ t.fab.discards = s.fab.discards + 1 ∧ t.mem = s.mem := by
  refine ⟨_, does_live (i := .transitCreditTimeout id) rfl hu rfl, ?_⟩
  simp only [hx, Nat.not_lt.mpr hdue, if_false, State.keeping_fields, State.discard, State.consume_fab, Tbl.get_del_same, true_and]
  exact (State.consume_keeps _ _ _).2.1

/-! ### Retries, dead targets and probes (R298, R299) -/

/-- A request without its response after a retry interval is outstanding on the next path, and the path it left is marked down. -/
theorem execRetryIntervalTimer_resends {x : Nat} (hu : Up s) (ho : Tbl.get s.fab.out (dst, tag) = some o) (hdst : dst < 4096) (hnode : dst ≠ s.node)
    (hans : o.answered = false) (hprobe : o.purpose ≠ .probe) (hdue : o.lastSent + s.fab.deadBound / 10 ≤ s.now) (hnext : s.nextPath o.pkt = some x) :
    ∃ t o', Does (.retryIntervalTimer dst tag) s t ∧ Tbl.get t.fab.out (dst, tag) = some o' ∧
      o'.pkt.path = x ∧ o'.lastSent = s.now ∧ (t.peer dst).down.contains o.pkt.path = true := by
  obtain ⟨hdown, hlisted, hnow⟩ := s.markDown_marks dst o.pkt.path tag
  obtain ⟨o', ho'⟩ := Option.isSome_iff_exists.mp (show Tbl.has (s.markDown dst o.pkt.path tag).fab.out (dst, tag) = true by rw [hlisted, Tbl.has, ho]; rfl)
  obtain ⟨hout, hpeers, -⟩ := State.resendOn_out ho' x
  refine ⟨_, _, does_live (i := .retryIntervalTimer dst tag) rfl hu (t := (s.markDown dst o.pkt.path tag).resendOn dst tag x) ?_, hout, rfl, hnow, ?_⟩
  · simp only [ho, hnext, Nat.not_le.mpr hdst, hnode, hans, hprobe, Nat.not_lt.mpr hdue, Bool.false_eq_true, or_self, if_false]
  · rw [State.keeping_peer, State.peer, hpeers]
    exact hdown

/-- An endpoint's request without its response for `dead_bound` is over, and its destination marked unreachable. -/
theorem execDeadBoundExpiry_ends (hu : Up s) (ho : Tbl.get s.fab.out (dst, tag) = some o) (hans : o.answered = false) (hp : o.purpose = .endpoint)
    (hdue : o.firstSent + s.fab.deadBound ≤ s.now) : ∃ t, Does (.deadBoundExpiry dst tag) s t ∧ Tbl.get t.fab.out (dst, tag) = none ∧ (t.peer dst).dead = true := by
  obtain ⟨haside, hdead⟩ := s.deadFail_marks dst o.pkt true
  have ho' : Tbl.get (s.deadFail dst o.pkt true).fab.out (dst, tag) = some o := by rw [(State.aside_fields haside).1, ho]
  refine ⟨_, does_live (i := .deadBoundExpiry dst tag) rfl hu
    (t := (s.deadFail dst o.pkt true).completeReq dst tag .targetDead (List.replicate (responseLen o.pkt) 0xFF#8) false) ?_, ?_, ?_⟩
  · simp [ho, hans, hp, Nat.not_lt.mpr hdue]
  · exact (congrArg (Tbl.get · (dst, tag)) (State.completeReq_out ho' (.inl hp))).trans (Tbl.get_del_same _ _)
  · refine (congrArg Prod.fst (congrFun (State.completeReq_marks ho' hp) dst)).trans ?_
    exact hdead.trans (Bool.or_true _)

/-- A request sent on a path toward another node is outstanding under its destination's next tag, which moves on (R291). -/
theorem State.sendOn_out (s : State) (p : Packet) (path : Nat) (purpose : Purpose) (orig : Option Packet) (hkey : s.reqKey p < 4096) :
    Tbl.get (s.sendOn p (some path) purpose orig).fab.out (s.reqKey p, (s.peer (s.reqKey p)).nextTag) = some
      { pkt := ({ p with src := s.node, tag := (s.peer (s.reqKey p)).nextTag, path := path } : Packet).sealed, orig := orig, firstSent := s.now, lastSent := s.now
        purpose := purpose } ∧
    (s.sendOn p (some path) purpose orig).peer = (s.updPeer (s.reqKey p) fun x => { x with nextTag := u32 ((s.peer (s.reqKey p)).nextTag + 1) }).peer := by
  unfold State.sendOn
  extract_lets key tag q o s2 fab s3
  rw [if_neg (Nat.not_le.mpr hkey), if_pos Option.isSome_some]
  have hpeer : (s3.emit q).peer = s2.peer := by
    funext n
    rw [State.peer, State.emit_fab]
    rfl
  rw [hpeer, State.emit_fab]
  exact ⟨Tbl.get_set_same _ _ _, rfl⟩

/-- A probe: a LOAD of its destination's first DRAM line on VI 0 (R298, R299). -/
def probeOf (dst : Nat) : Packet := { ty := .load, dst := dst, srcEp := 63, addr := mkAddr dst 1 0, winId := 0xFFF }

/-- A due probe is a LOAD outstanding on its path, under the destination's next tag. -/
theorem execPathProbeTimer_probes (hu : Up s) (hdst : dst < 4096) (hnode : dst ≠ s.node) (hmark : (s.peer dst).dead = true ∨ (s.peer dst).down.contains path = true)
    (husable : s.pathUsable dst path = true) (hdue : Tbl.at (s.peer dst).probeAt path 0 + 100000 ≤ s.now) :
    ∃ t o, Does (.pathProbeTimer dst path) s t ∧ Tbl.get t.fab.out (dst, (s.peer dst).nextTag) = some o ∧ o.purpose = .probe ∧
      o.pkt.ty = .load ∧ o.pkt.path = path ∧ Tbl.get (t.peer dst).probeAt path = some s.now := by
  have hdue' : ¬ (4096 ≤ dst ∨ dst = s.node ∨ (!((s.peer dst).dead || (s.peer dst).down.contains path)) = true ∨ (!s.pathUsable dst path) = true ∨
      s.now < Tbl.at (s.peer dst).probeAt path 0 + 100000) := by
    simp only [husable, Bool.not_true, Bool.not_eq_true', Bool.or_eq_false_iff, Bool.false_eq_true, false_or]
    rintro (h | h | ⟨hdead, hdown⟩ | h)
    · omega
    · exact hnode h
    · simp [hdead] at hmark
      simp [hmark] at hdown
    · omega
  have hkey : (s.updPeer dst fun x => { x with probeAt := Tbl.set x.probeAt path s.now }).reqKey (probeOf dst) = dst := if_neg fun h => hnode h.1
  obtain ⟨hout, hpeer⟩ := (s.updPeer dst fun x => { x with probeAt := Tbl.set x.probeAt path s.now }).sendOn_out (probeOf dst) path .probe none (by rwa [hkey])
  rw [hkey, State.updPeer_peer_same] at hout
  refine ⟨_, _, does_live (i := .pathProbeTimer dst path) rfl hu (if_neg hdue'), hout, rfl, rfl, rfl, ?_⟩
  refine (congrArg (fun x : Nat → Peer => Tbl.get (x dst).probeAt path) hpeer).trans ?_
  simp only [hkey, State.updPeer_peer_same, Tbl.get_set_same]

/-- Path changes held back for 1 s are held no more, and one event is raised (R297). -/
theorem execPathEventHoldTimer_raises {up : Bool} (hu : Up s) (hheld : Tbl.at (s.peer dst).pathHeld up [] ≠ [])
    (hdue : Tbl.at (s.peer dst).pathEvAt up 0 + 1000000000 ≤ s.now) :
    ∃ t, Does (.pathEventHoldTimer dst up) s t ∧ Tbl.get (t.peer dst).pathHeld up = none ∧ Tbl.get (t.peer dst).pathEvAt up = some s.now ∧
      t.log.evSeq = s.log.evSeq + 1 := by
  refine ⟨_, does_live (i := .pathEventHoldTimer dst up) rfl hu rfl, ?_⟩
  simp only [List.isEmpty_iff, hheld, Nat.not_lt.mpr hdue, or_self, if_false, State.keeping_peer]
  have hpeer : ∀ (t : State) (ev : Ev) (die : Nat) (l : List Nat), (t.raise0 ev die 0 l).peer dst = t.peer dst := fun t ev die l => by
    rw [State.peer, State.raise0_fab, State.peer]
  rw [hpeer, State.updPeer_peer_same]
  exact ⟨Tbl.get_del_same _ _, Tbl.get_set_same _ _ _, by simp [State.raise0]⟩

end Sys2Proof.Machine
end

section
open Sys2Proof Sys2Proof.Machine

/-- Settles O26: one lemma per command; answers and reports of paths leave the requests outstanding and the marks, so that what a timer did is read back. -/
theorem packetsAndPaths : Obligations.PacketsAndPaths := by
  unfold Obligations.PacketsAndPaths
  refine ⟨?flag, ?response, ?forward, ?credit, ?retry, ?dead, ?probe, ?events⟩
  case flag => exact fun flag h s hu hflag hdue => execStoreFlagRelease_leaves hu hflag hdue
  case response =>
    exact fun p o st s hu hresp hctrl hdst hsrc hform hcrc ho hp hty hlen hst hcheck hbuffer =>
      execPacketResponseReceive_ends hu hresp hctrl hdst hsrc hform hcrc ho hp hty hlen hst hcheck hbuffer
  case forward =>
    exact fun port out p s hu hdst hsrc harrived hcrc hhops hegress hactive hunits hport =>
      execPacketTransitForward_forwards hu hdst hsrc harrived hcrc hhops hegress hactive hunits hport
  case credit => exact fun id x s hu hx hdue => execTransitCreditTimeout_discards hu hx hdue
  case retry => exact fun dst tag x o s hu ho hdst hnode hans hprobe hdue hnext => execRetryIntervalTimer_resends hu ho hdst hnode hans hprobe hdue hnext
  case dead => exact fun dst tag o s hu ho hans hp hdue => execDeadBoundExpiry_ends hu ho hans hp hdue
  case probe => exact fun dst path s hu hdst hnode hmark husable hdue => execPathProbeTimer_probes hu hdst hnode hmark husable hdue
  case events => exact fun dst up s hu hheld hdue => execPathEventHoldTimer_raises hu hheld hdue
end

section
/-! SUPPORT. Messages at their destination and at their sender, and their timeouts (R307 to R313). -/

namespace Sys2Proof.Machine
open Sys2Proof

variable {s : State} {p : Packet} {b : Buffer} {bs : List Buffer} {port dst tag src msg m : Nat} {o : OutReq} {x : OutMsg} {c : Cmd} {r : Reorder} {st : Status}

/-! ### The first packet (R310, R311) -/

/-- The first packet of a longer message claims the oldest buffer of its list, is placed and tallied. -/
theorem State.claimBuffer_claims (hroom : s.fab.reorder.length < 16384) (hlist : Tbl.at s.fab.lists (bits p.addr 63 56, bits p.addr 55 52) [] = b :: bs)
    (hfits : bits p.addr 51 27 ≤ b.len) (hin : bits p.addr 26 8 * 64 + p.payloadLen ≤ bits p.addr 51 27) (hmore : p.payloadLen < bits p.addr 51 27) :
    ∃ u r, s.claimBuffer p = (.ok, u) ∧ Tbl.get u.fab.reorder (p.src, p.msgId) = some r ∧ r.buf = b ∧ r.tally = p.payloadLen ∧ r.msgLen = bits p.addr 51 27 ∧
      Tbl.at u.fab.lists (bits p.addr 63 56, bits p.addr 55 52) [] = bs ∧ u.mem = memPuts s.mem (b.addr + bits p.addr 26 8 * 64) p.payload := by
  unfold State.claimBuffer
  simp only [hlist, Nat.not_le.mpr hroom, Nat.not_lt.mpr hfits, Nat.not_lt.mpr hin, Nat.ne_of_gt (Nat.zero_lt_of_lt hmore), or_self, if_false, State.placePacket,
    Nat.zero_add, Nat.not_le.mpr hmore]
  exact ⟨_, _, rfl, Tbl.get_set_same _ _ _, rfl, rfl, rfl, by simp, by simp⟩

/-- A sound first packet, admitted at the hub, leaves its message claimed with the packet's bytes in its buffer. -/
theorem execSendData_claims (hu : Up s) (hty : p.ty = .sendData) (hresp : p.resp = false) (hpol : s.policedBy port p = none) (hform : requestFormOk p = true)
    (hcrc : p.crcOk = true) (hdst : p.dst = s.node) (hkept : (s.taken port p).kept p = none) (hfault : (s.taken port p).messageFault port p = none)
    (hnew : Tbl.get s.fab.reorder (p.src, p.msgId) = none) (hroom : s.fab.reorder.length < 16384)
    (hlist : Tbl.at s.fab.lists (bits p.addr 63 56, bits p.addr 55 52) [] = b :: bs) (hfits : bits p.addr 51 27 ≤ b.len)
    (hin : bits p.addr 26 8 * 64 + p.payloadLen ≤ bits p.addr 51 27) (hmore : p.payloadLen < bits p.addr 51 27) :
    ∃ t r, Does (.sendData port p) s t ∧ Tbl.get t.fab.reorder (p.src, p.msgId) = some r ∧ r.buf = b ∧ r.tally = p.payloadLen ∧ r.msgLen = bits p.addr 51 27 ∧
      Tbl.at t.fab.lists (bits p.addr 63 56, bits p.addr 55 52) [] = bs ∧ t.mem = memPuts s.mem (b.addr + bits p.addr 26 8 * 64) p.payload := by
  obtain ⟨-, -, htable, hlists, -⟩ := State.aside_fields (s.taken_aside port p)
  have hmem : (s.taken port p).mem = s.mem := (s.taken_fields port p).2.2.1
  have hnode : p.dst = (s.taken port p).node := by simpa using hdst
  obtain ⟨u, r, hclaim, hr, hbuf, htally, hlen, hrest, hbytes⟩ :=
    State.claimBuffer_claims (s := s.taken port p) (by rwa [htable]) (by rwa [hlists]) hfits hin hmore
  have hin : s.ingress port p (fun t => t.messageIn port p) = (u.record p none).answerPkt p .ok [] false := by
    rw [State.ingress, hpol]
    show State.messageIn s port p = _
    unfold State.messageIn
    rw [← State.taken]
    simp only [hform, hcrc, hkept, hfault, Bool.not_true, Bool.false_eq_true, if_false, ne_eq, ← hnode, not_true_eq_false, Option.isSome_none, State.arriveMsg,
      htable, hnew, hclaim, if_true]
  refine ⟨_, r, does_live (i := .sendData port p) rfl hu ((if_neg (by simp [hty, hresp])).trans hin), ?_⟩
  have hrecord : (u.record p none).mem = u.mem := ite_keeps (·.mem) rfl rfl
  have haside : ((u.record p none).answerPkt p .ok [] false).aside = u.aside := (State.answerPkt_leaves _ _ _ _ _).1.trans (ite_keeps State.aside rfl rfl)
  obtain ⟨-, -, htable', hlists', -⟩ := State.aside_fields haside
  have hmem' : ((u.record p none).answerPkt p .ok [] false).mem = u.mem :=
    (congrArg (fun x => x.2.2) (State.answerPkt_interior _ _ _ _ _)).trans hrecord
  simp only [State.keeping_fields, htable', hlists', hmem', hr, hbytes, hmem]
  exact ⟨trivial, hbuf, htally, hlen, hrest, trivial⟩

/-! ### The end of a SEND (R310, R311) -/

/-- A SEND whose message ends has its outcome, and the message is listed no more. -/
theorem State.endSend_ended (hm : Tbl.get s.fab.msgs m = some x) (hc : Tbl.get s.work.cmds x.cid = some c) (st : Status) :
    (s.endSend m st).ended x.cid st x.crc ∧ Tbl.get (s.endSend m st).fab.msgs m = none ∧ (s.endSend m st).mem = s.mem := by
  simp only [State.endSend, hm]
  exact ⟨State.finish_ended (by rw [Tbl.has, hc]; rfl), Tbl.get_del_same _ _, rfl⟩

/-- MSG_CTRL that says done, with the CRC of the bytes sent, ends the SEND with ST_OK. -/
theorem execMsgCtrl_completes (hu : Up s) (hty : p.ty = .msgCtrl) (hform : responseFormOk p = true) (hcrc : p.crcOk = true) (hdst : p.dst = s.node)
    (hm : Tbl.get s.fab.msgs p.msgId = some x) (hfrom : x.dst = p.src) (hc : Tbl.get s.work.cmds x.cid = some c) (hdone : fld (wordsOf 8 p.payload) 0 63 56 = 1)
    (hmsg : word (wordsOf 8 p.payload) 1 = x.crc) : ∃ t, Does (.msgCtrl p) s t ∧ t.ended x.cid .ok x.crc ∧ Tbl.get t.fab.msgs p.msgId = none ∧ t.mem = s.mem := by
  obtain ⟨hwork, -, hmem, -, hnode, -⟩ := s.taken_fields (s.arrivedAt p) p
  have hmsgs : (s.taken (s.arrivedAt p) p).fab.msgs = s.fab.msgs :=
    (State.aside_fields (s.taken_aside (s.arrivedAt p) p)).2.2.2.2
  obtain ⟨hend, hgone, hkept⟩ := State.endSend_ended (s := s.taken (s.arrivedAt p) p) (by rwa [hmsgs]) (by rwa [hwork]) .ok
  refine ⟨_, does_live (i := .msgCtrl p) rfl hu (t := (s.taken (s.arrivedAt p) p).endSend p.msgId .ok) ?_, hend, hgone, hkept.trans hmem⟩
  rw [if_neg (by simp [hty]), ← State.taken]
  simp only [hform, hcrc, hnode, hdst, State.applyCtrl, hmsgs, hm, hfrom, hdone, hmsg, ne_eq, not_true_eq_false, Bool.not_true, Bool.false_eq_true, or_self,
    if_false, if_true]

/-- A SEND without MSG_CTRL within `msg_timeout` of its last acknowledgement ends with ST_MSG_TIMEOUT. -/
theorem execSendCtrlTimeout_ends (hu : Up s) (hm : Tbl.get s.fab.msgs msg = some x) (hc : Tbl.get s.work.cmds x.cid = some c) (hack : x.unacked = 0)
    (hsent : fld c.op 4 31 7 ≤ x.next) (hdue : x.ackedAt + s.fab.msgTimeout ≤ s.now) :
    ∃ t, Does (.sendCtrlTimeout msg) s t ∧ t.ended x.cid .msgTimeout x.crc ∧ Tbl.get t.fab.msgs msg = none ∧ t.mem = s.mem := by
  refine ⟨_, does_live (i := .sendCtrlTimeout msg) rfl hu ?_, State.endSend_ended hm hc .msgTimeout⟩
  simp [hm, hc, hack, Nat.not_lt.mpr hsent, Nat.not_lt.mpr hdue]

/-! ### A missing buffer (R310) -/

/-- A packet that waits for a buffer `rnr_limit` after it was first refused ends its SEND. -/
theorem execRnrResendTimer_ends {first : Nat} (hu : Up s) (ho : Tbl.get s.fab.out (dst, tag) = some o) (hans : o.answered = true) (hfirst : o.rnrFirst = some first)
    (hdue : first + s.fab.rnrLimit ≤ s.now) (hp : o.purpose = .message m) (hm : Tbl.get s.fab.msgs m = some x) (hc : Tbl.get s.work.cmds x.cid = some c) :
    ∃ t, Does (.rnrResendTimer dst tag) s t ∧ t.ended x.cid .retryNoBuffer x.crc ∧ Tbl.get t.fab.msgs m = none ∧ t.mem = s.mem := by
  refine ⟨_, does_live (i := .rnrResendTimer dst tag) rfl hu ?_, State.endSend_ended hm hc .retryNoBuffer⟩
  simp [ho, hans, hfirst, hdue, hp]

/-- A request that goes out again after a missing buffer: its times begin anew. -/
def OutReq.again (o : OutReq) (now : Nat) : OutReq := { o with firstSent := now, lastSent := now, answered := false }

/-- A packet that has waited for a buffer less than `rnr_limit` goes out again 10 µs after it was last refused. -/
theorem execRnrResendTimer_resends {first : Nat} (hu : Up s) (hnode : dst ≠ s.node) (ho : Tbl.get s.fab.out (dst, tag) = some o) (hans : o.answered = true)
    (hfirst : o.rnrFirst = some first) (hearly : s.now < first + s.fab.rnrLimit) (hdue : o.rnrLast + 10000 ≤ s.now) :
    ∃ t o', Does (.rnrResendTimer dst tag) s t ∧ Tbl.get t.fab.out (dst, tag) = some o' ∧ o'.answered = false ∧ o'.lastSent = s.now ∧ t.mem = s.mem := by
  obtain ⟨hout, hmem, hnow⟩ := State.pickPath_keeps { s with fab := { s.fab with out := Tbl.set s.fab.out (dst, tag) (o.again s.now) } } o.pkt
  obtain ⟨hsent, -, hkept⟩ := State.resendOn_out ((congrArg (Tbl.get · (dst, tag)) hout).trans (Tbl.get_set_same _ _ _)) _
  refine ⟨_, _, does_live (i := .rnrResendTimer dst tag) rfl hu ?_, hsent, rfl, hnow, hkept.trans hmem⟩
  have hwaits : (o.rnrFirst.map (fun t => decide (t + s.fab.rnrLimit ≤ s.now))).getD false = false := by simp [hfirst, hearly]
  simp only [ho, hans, hwaits, hnode, Nat.not_lt.mpr hdue, Bool.not_true, Bool.false_eq_true, if_false]
  rfl

/-! ### Messages that are not whole (R312) -/

/-- A message not whole after `msg_timeout` fails, and its entry is a tombstone for max(2 × `msg_timeout`, 20 ms). -/
theorem execMsgTimeout_buries (hu : Up s) (hr : Tbl.get s.fab.reorder (src, msg) = some r) (htomb : r.tomb = none) (hdue : r.firstT + s.fab.msgTimeout ≤ s.now) :
    ∃ t r', Does (.msgTimeout src msg) s t ∧ Tbl.get t.fab.reorder (src, msg) = some r' ∧ r'.tomb = some (.msgTimeout, s.now + max (2 * s.fab.msgTimeout) 20000000) := by
  refine ⟨_, { r with tomb := some (.msgTimeout, s.now + max (2 * s.fab.msgTimeout) 20000000) },
    does_live (i := .msgTimeout src msg) rfl hu (t := s.failMessage src msg r .msgTimeout) ?_, ?_, rfl⟩
  · simp [hr, htomb, Nat.not_lt.mpr hdue]
  · simp [State.failMessage]

/-- A tombstone whose time is up is gone. -/
theorem execTombstoneExpiry_removes {at_ : Nat} (hu : Up s) (hr : Tbl.get s.fab.reorder (src, msg) = some r) (htomb : r.tomb = some (st, at_)) (hdue : at_ ≤ s.now) :
    ∃ t, Does (.tombstoneExpiry src msg) s t ∧ Tbl.get t.fab.reorder (src, msg) = none ∧ t = { s with fab := t.fab } := by
  refine ⟨_, does_live (i := .tombstoneExpiry src msg) rfl hu (t := { s with fab := { s.fab with reorder := Tbl.del s.fab.reorder (src, msg) } }) ?_,
    Tbl.get_del_same _ _, rfl⟩
  simp [hr, htomb, Nat.not_lt.mpr hdue]

end Sys2Proof.Machine
end

section
open Sys2Proof Sys2Proof.Machine

/-- Settles O27: one lemma per packet or timer; a message that ends gives its SEND the outcome, and the answer of a packet leaves what it claimed. -/
theorem messages : Obligations.Messages := by
  unfold Obligations.Messages
  refine ⟨?first, ?ctrl, ?limit, ?resend, ?timeout, ?silent, ?tombstone⟩
  case first =>
    exact fun port p b bs s hu hty hresp hpol hform hcrc hdst hkept hfault hnew hroom hlist hfits hin hmore =>
      execSendData_claims hu hty hresp hpol hform hcrc hdst hkept hfault hnew hroom hlist hfits hin hmore
  case ctrl => exact fun p x c s hu hty hform hcrc hdst hm hfrom hc hdone hmsg => execMsgCtrl_completes hu hty hform hcrc hdst hm hfrom hc hdone hmsg
  case limit => exact fun dst tag m first o x c s hu ho hans hfirst hdue hp hm hc => execRnrResendTimer_ends hu ho hans hfirst hdue hp hm hc
  case resend => exact fun dst tag first o s hu hnode ho hans hfirst hearly hdue => execRnrResendTimer_resends hu hnode ho hans hfirst hearly hdue
  case timeout => exact fun src msg r s hu hr htomb hdue => execMsgTimeout_buries hu hr htomb hdue
  case silent => exact fun msg x c s hu hm hc hack hsent hdue => execSendCtrlTimeout_ends hu hm hc hack hsent hdue
  case tombstone => exact fun src msg at_ st r s hu hr htomb hdue => execTombstoneExpiry_removes hu hr htomb hdue
end

section
/-! SUPPORT. A window's drain, the changes it held back, and an arm's end (R302 to R304, R317). -/

namespace Sys2Proof.Machine
open Sys2Proof

variable {s : State} {w cid : Nat}

/-- A final record leaves the windows as they stand. -/
@[simp] theorem State.finishOp_window (s : State) (r : OpRef) (st : Status) (result : Nat) (extra : List Nat) (w : Nat) :
    (s.finishOp r st result extra).window w = s.window w := by
  obtain ⟨a, l, v, m, h, -⟩ := s.finishOp_frame r st result extra
  rw [h]
  rfl

/-- A DRAINING window with nothing admitted is REVOKED, or CLOSED where it is being closed, under the same generation. -/
theorem execWindowDrained_drains (hu : Up s) (hst : (s.window w).st = .draining) (hnone : (s.window w).admitted = 0) :
    ∃ t, Does (.windowDrained w) s t ∧ (t.window w).st = (if (s.window w).closing then .closed else .revoked) ∧ (t.window w).gen = (s.window w).gen := by
  have hwindow : ∀ (l : List OpRef) (u : State), (l.foldl (fun t r => t.finishOp r .ok 0 []) u).window w = u.window w := fun l u =>
    foldl_keeps (·.window w) l _ u fun t r => t.finishOp_window r .ok 0 [] w
  refine ⟨_, does_live (i := .windowDrained w) rfl hu (if_neg (by simp [hst, hnone])), ?_⟩
  rw [State.keeping_window, hwindow, State.updWindow_window_same]
  exact ⟨rfl, rfl⟩

/-- A revoke that an OPEN window held back is applied once the generation may rise: the window is DRAINING under the next one. -/
theorem Window.release_revoke {x : Window} {now : Nat} (hst : x.st = .opened) (hrise : x.mayRise now = true) :
    x.release now [.revoke] = { x with st := .draining, gen := nextGen x.gen, genAt := some now, held := [] } := by
  simp [Window.release, Window.raises, Window.change, hst, hrise]

/-- An arm not fired in its time completes with ST_TRIGGER_EXPIRED, and is held no more. -/
theorem execTriggerExpire_expires {e : Nat} {a : Arm} {c : Cmd} (hu : Up s) (ha : s.fab.arms.find? (fun x => x.cid == cid) = some a) (he : a.expireAt = some e)
    (hdue : e ≤ s.now) (hc : Tbl.get s.work.cmds cid = some c) :
    ∃ t, Does (.triggerExpire cid) s t ∧ t.ended cid .triggerExpired 0 ∧ t.fab.arms = s.fab.arms.filter (fun b => b.cid != cid) ∧ t.mem = s.mem := by
  refine ⟨_, does_live (i := .triggerExpire cid) rfl hu
    (t := ({ s with fab := { s.fab with arms := s.fab.arms.filter (fun b => b.cid != cid) } } : State).finish cid .triggerExpired 0) ?_, ?_, rfl, rfl⟩
  · simp [ha, he, hdue]
  · exact State.finish_ended (s := { s with fab := _ }) (by rw [Tbl.has, hc]; rfl)

end Sys2Proof.Machine
end

section
open Sys2Proof Sys2Proof.Machine

/-- Settles O28: the records of the revokes that waited leave the windows, and a window releases a held revoke as it would have applied it. -/
theorem windowsAndArms : Obligations.WindowsAndArms := by
  unfold Obligations.WindowsAndArms
  refine ⟨?drained, ?held, ?arm⟩
  case drained => exact fun w s hu hst hnone => execWindowDrained_drains hu hst hnone
  case held =>
    intro w s hu hst hheld hrise
    have hread : ((s.updWindow w fun x => x.release s.now x.held).window w) = _ := (s.updWindow_window_same w _).trans (by rw [hheld, Window.release_revoke hst hrise])
    refine ⟨_, does_live (i := .windowGenHoldTimer w) rfl hu rfl, ?_⟩
    rw [State.keeping_window, hread]
    exact ⟨rfl, rfl, rfl, rfl⟩
  case arm => exact fun cid e a c s hu ha he hdue hc => execTriggerExpire_expires hu ha he hdue hc
end
